-- ==== Sys2Proof/Word.lean ====
section
/-! DEFINITION. The word types of the model and their plainest arithmetic (spec/00_scope.md, R4 to R6, R12). -/
namespace Sys2Proof

/-- One byte of memory, of a frame or of a record (R4). -/
abbrev Byte := BitVec 8
/-- A function ID (R13). -/
abbrev Fid := BitVec 16
/-- A physical address (R73). -/
abbrev Pa := BitVec 44
/-- Installation time, a count of TQ (R6). -/
abbrev Time := BitVec 64

/-- Set-if: `true` is 1. -/
def b2n (b : Bool) : Nat := if b then 1 else 0

end Sys2Proof
end

