-- ==== Sys2Proof/Syntax.lean ====
section
/-! DEFINITION. The commands the block takes: one constructor for each row of spec/opcode_table.json, in the table's
order. The operands are what a row's rules need and the state does not hold: who acts, on which resource, and what
the outside shows (a level, a frame, a measured value). -/
namespace Sys2Proof

/-- An initiator that reaches register space by loads and stores: a core or a control core (R76, R77). -/
inductive Master
  | core (n : Fin 48)
  | cluster (d : Fin 4)
deriving DecidableEq, Repr

/-- How far the journal entry in progress had come when VAON was lost (Table 18.9). -/
inductive LossPoint
  | stage | data | committed | released
deriving DecidableEq, Repr

/-- Copies of store words that a start finds with a failing CRC, and a committed entry whose data fails DCRC
(R409, Table 18.9). Bit i of a mask is item i of Table 18.6. -/
structure StoreDamage where
  state0 : Bool := false
  state1 : Bool := false
  ptr0 : BitVec 8 := 0
  ptr1 : BitVec 8 := 0
  dcrcFails : Bool := false
deriving DecidableEq, Repr

/-- What DDR5 and stack training found (R63, R78, R366). -/
structure TrainResult where
  /-- Every DIMM present, alike in capacity, rank count and device width, and every stack trained. -/
  ok : Bool
  /-- DIMM capacity 16 GiB × 2^dimm (R78). -/
  dimm : BitVec 2
  /-- Die temperature at step 7, 1/16 °C. -/
  temp : BitVec 16
  /-- Degradation of each managed domain in ppm, measured after a cold start's training (R366). -/
  ageing : Vector (BitVec 24) 5
deriving DecidableEq, Repr

/-- A page's Svpbmt type (R103). -/
inductive Pbmt | pma | nc | io
deriving DecidableEq, Repr

/-- What a core's access does. -/
inductive AccKind | load | store | fetch
deriving DecidableEq, Repr

/-- One scalar access of a core, at the address that its instruction forms (R93, R102). -/
structure MemAcc where
  /-- Address of the instruction. -/
  pc : BitVec 64
  kind : AccKind
  addr : BitVec 64
  /-- log2 of the width in bytes: 0 to 3. -/
  size : BitVec 2
  /-- Data of a store. -/
  data : BitVec 64
  /-- Destination register of a load, a floating-point one where `fp`. -/
  rd : Fin 32
  fp : Bool
  /-- Sign-extending load. -/
  signed : Bool
deriving DecidableEq, Repr

/-- The operations of AMO_LR_SC. -/
inductive AmoOp | lr | sc | swap | add | xor | and | or | min | max | minu | maxu
deriving DecidableEq, Repr

/-- One element access of a vector load or store (R93, R111). -/
structure VElem where
  /-- Index of the element, or of the segment whose field it is; a masked-off element makes no access. -/
  idx : BitVec 8
  store : Bool
  addr : BitVec 64
  size : BitVec 2
  data : BitVec 64
  /-- Destination of a load: vector register and element. -/
  vd : Fin 32
  elem : BitVec 8
deriving DecidableEq, Repr

/-- What a vector arithmetic, mask, permutation or configuration instruction writes (R113). -/
structure VResult where
  vregs : List (Fin 32 × BitVec 256) := []
  xd : Option (Fin 32 × BitVec 64) := none
  fd : Option (Fin 32 × BitVec 64) := none
  /-- vl and vtype of a configuration instruction. -/
  setvl : Option (BitVec 16 × BitVec 64) := none
deriving DecidableEq, Repr

/-- What an ECC check of a read line found (R80, R81). -/
inductive Ecc | clean | corrected | uncorrectable
deriving DecidableEq, Repr

/-- One order of another master that reaches an axis in the same servo clock (R264). -/
structure Rival where
  axis : Fin 32
  rank : BitVec 3
  port : BitVec 8
  /-- Order code of AXS_CONFLICT: 1 ENABLE, 2 DISABLE, 3 RUN, 4 STOP, 5 setpoint. -/
  op : BitVec 3
  src : BitVec 2
  /-- Setpoint value, and whether it is for AXS_SPD. -/
  value : BitVec 64
  spd : Bool
deriving DecidableEq, Repr

/-- A packet of the fabric: the transport header of Table 9.3 and its data. -/
structure Packet where
  ttype : BitVec 8
  final : Bool
  detour : Bool
  dchip : BitVec 12
  schip : BitVec 12
  spart : BitVec 8
  hops : BitVec 8
  daddr : Pa
  cause : BitVec 8
  tid : BitVec 32
  stream : BitVec 16
  data : List Byte
deriving DecidableEq, Repr

/-- An installation freeze order as time frames carry it (R391). -/
structure FrzOrder where
  t : Time
  origin : BitVec 12
  oseq : BitVec 16
deriving DecidableEq, Repr

/-- The payload of a time frame (Table 9.4). -/
structure TimeFrame where
  tx : Time
  echoTx : Time
  echoRx : Time
  gmId : BitVec 12
  stratum : BitVec 8
  locked : Bool
  holdover : Bool
  refLost : Bool
  tseq : BitVec 32
  order : Option FrzOrder
deriving DecidableEq, Repr

/-- What every link frame carries besides its payload: the ACK and the returned credits of Table 9.1, and the symbols that
FEC corrected in a received one (R193, R200). -/
structure LinkHdr where
  ack : BitVec 16
  cvc : Fin 8
  credit : BitVec 12
  fec : BitVec 16
deriving DecidableEq, Repr

/-- A control frame that a port sends (Table 9.2). -/
inductive Ctl
  | hello (chip : BitVec 12) (installId : BitVec 64) (credits : Vector (BitVec 16) 8)
  | nak (seq : BitVec 16)
deriving DecidableEq, Repr

/-- A frame that a port sends (Table 9.1). -/
inductive OutFrame
  | data (seq : BitVec 16) (k : Packet)
  | time (f : TimeFrame)
  | ctl (c : Ctl)
deriving DecidableEq, Repr

/-- A CAN frame (R318). -/
structure CanFrame where
  ide : Bool
  id : BitVec 29
  rtr : Bool
  fdf : Bool
  brs : Bool
  esi : Bool
  dlc : BitVec 4
  data : List Byte
deriving DecidableEq, Repr

/-- A detected CAN error and the part it was detected in (R332, CAN_ESTAT.LEC). -/
structure CanErr where
  /-- LEC code 1 to 6. -/
  lec : BitVec 3
  dataPhase : Bool
  /-- The controller was the transmitter of the frame. -/
  tx : Bool
  /-- ISO 11898-1 asks for 8 instead of 1 at a receiver (dominant bit after its own error flag). -/
  heavy : Bool
  /-- ISO 11898-1's exceptions at a transmitter, whose TEC stays: an ACK error of an error-passive one that sees no dominant
  bit in its error flag, and a stuff error in arbitration. -/
  exempt : Bool
  /-- The transmitter delay of the attempt, in kernel clocks, where TDC has measured it (R321). -/
  delay : Option (BitVec 8)
deriving DecidableEq, Repr

/-- Sources of a meter point (Table 18.5). -/
inductive MpSource
  | off | ref | rail (n : Fin 16) | temp | tempGroup (g : Fin 14)
deriving DecidableEq, Repr

/-- Kinds of signed transfer and their BEGIN arguments (R402). -/
inductive XferKind
  | key (len : Nat) | fw (len : Nat) | plan (slot : Fin 2) (len : Nat)
deriving DecidableEq, Repr

/-- Answer of one regulator to a PMBus transaction (R368, R369). -/
inductive PmbAnswer
  | value (mw : BitVec 32) | nak | pec
deriving DecidableEq, Repr

/-- Writable PEAT registers that change the mode (R170). -/
inductive PeatReg | mode | abase | alim
deriving DecidableEq, Repr

/-- The commands. -/
inductive Instr
  | registerWrite (who : Master) (addr : Pa) (wide : Bool) (value : BitVec 64)
  | vaonGood (damage : StoreDamage)
  | vaonLoss (at_ : LossPoint)
  | sysResetN
  | elvStartGo (who : Master) (cold : Bool) (target : BitVec 2)
  | seqRailGood (n : Fin 14) (ramp : Bool)
  | seqGroupDelay
  | railEnableTimeout (n : Fin 14)
  | startRetry
  | railFailure (n : Fin 14)
  | disorderlyDropDelay
  | pllLocked
  | pllLockTimeout
  | planVerifyDone
  | memoryTrainingDone (r : TrainResult)
  | bistDone (pass : Bool)
  | planApplyDone
  | sysOffN
  | elvPdnGo (who : Master) (grace : BitVec 8)
  | elvPdnAck (who : Master) (grace : BitVec 8)
  | graceExpiry
  | railDecayed
  | refclkLoss (pllOnly : Bool)
  | refclkReturn
  | loadStore (n : Fin 48) (acc : MemAcc) (ecc : Ecc)
  | amoLrSc (n : Fin 48) (pc : BitVec 64) (op : AmoOp) (addr : BitVec 64) (dbl : Bool) (rs2 : BitVec 64) (rd : Fin 32)
      (aq rl : Bool)
  | fence (n : Fin 48) (pred succ : BitVec 4) (tso : Bool)
  | fenceI (n : Fin 48)
  | pause (n : Fin 48)
  | cboClean (n : Fin 48) (pc : BitVec 64) (addr : BitVec 64)
  | cboFlush (n : Fin 48) (pc : BitVec 64) (addr : BitVec 64)
  | cboInval (n : Fin 48) (pc : BitVec 64) (addr : BitVec 64)
  | vectorLoadStore (n : Fin 48) (pc : BitVec 64) (elems : List VElem) (stopAt : Option Nat)
  | vectorArithmetic (n : Fin 48) (pc : BitVec 64) (res : VResult)
  | faultOnlyFirstLoad (n : Fin 48) (pc : BitVec 64) (elems : List VElem)
  | clwMtimecmpAccess (n : Fin 48) (pc : BitVec 64) (write : Option (BitVec 64)) (rd : Fin 32)
  | timeCsrRead (n : Fin 48) (rd : Fin 32)
  | machineTimer (n : Fin 48)
  | supervisorTimer (n : Fin 48)
  | interruptTaken (n : Fin 48) (pc : BitVec 64)
  | counterOverflow (n : Fin 48) (i : Fin 29)
  | msiWrite (q : Fin 8) (core : Fin 48) (file : Fin 9) (ident : BitVec 8)
  | aplicWrite (who : Master) (off : BitVec 20) (value : BitVec 32)
  | patrolScrub (ecc : Ecc)
  | inboundPcieAccess (q : Fin 8) (write : Bool) (addr : BitVec 64) (len : Nat) (data : List Byte)
  | pcieLinkDown (q : Fin 8)
  | pcieLinkUp (q : Fin 8) (width : BitVec 8) (rate : BitVec 8)
  | wrpReloadGo (who : Master) (part : Fin 32) (slot : Fin 2) (force : Bool)
  | reloadCompareDone
  | reloadDone
  | wrpStoreGo (who : Master) (slot : Fin 2)
  | storeVerifyDone
  | queueEnable (who : Master) (n : Fin 64) (sqlog cqlog : BitVec 4) (evt : Bool)
  | queueDisable (who : Master) (n : Fin 64) (sqlog cqlog : BitVec 4) (evt : Bool)
  | sqDoorbell (who : Master) (n : Fin 64) (tail : BitVec 32)
  | cqHeadWrite (who : Master) (n : Fin 64) (head : BitVec 32)
  | commandFetch (n : Fin 64)
  | startItReached (n : Fin 64)
  | commandDispatch (n : Fin 64)
  | nop (n : Fin 64) (k : Nat)
  | writeInline (n : Fin 64) (k : Nat)
  | operator (n : Fin 64) (k : Nat)
  | shuttle (n : Fin 64) (k : Nat)
  | peat (n : Fin 64) (k : Nat)
  | open_ (n : Fin 64) (k : Nat)
  | contrib (n : Fin 64) (k : Nat)
  | close (n : Fin 64) (k : Nat)
  | commandComplete (n : Fin 64) (k : Nat)
  | eventBufferDrain (p : Fin 32)
  | watchdog (fid : Fid)
  | spmodeWrite (who : Master) (n : Fin 64) (windowed : Bool)
  | loomInval (who : Master) (n : Fin 64)
  | operatorStart (n : Fin 64)
  | opNop (n : Fin 64)
  | gemm (n : Fin 64)
  | eltwise (n : Fin 64)
  | act (n : Fin 64)
  | reduce (n : Fin 64)
  | softmax (n : Fin 64)
  | norm (n : Fin 64)
  | convert (n : Fin 64)
  | gather (n : Fin 64)
  | shuttleChainStart (g : Fin 16) (c : Fin 8)
  | shuttleDescriptor (g : Fin 16) (c : Fin 8)
  | waitpeatTimeout (g : Fin 16) (c : Fin 8)
  | finalWriteRelease (g : Fin 16) (c : Fin 8)
  | peatTake (who : Master) (s : Fin 8) (j : Fin 32)
  | peatRelease (who : Master) (s : Fin 8) (j : Fin 32)
  | peatModeWrite (who : Master) (s : Fin 8) (j : Fin 32) (reg : PeatReg) (value : BitVec 64)
  | peatModeSettled (s : Fin 8) (j : Fin 32)
  | peatNone (s : Fin 8) (j : Fin 32)
  | peatSetMode (s : Fin 8) (j : Fin 32)
  | peatZero (s : Fin 8) (j : Fin 32)
  | optStep (s : Fin 8) (j : Fin 32)
  | cast (s : Fin 8) (j : Fin 32)
  | peatOpDone (s : Fin 8) (j : Fin 32)
  | laneTick (l : Fin 8)
  | laneAnswer (l : Fin 8)
  | laneDeadline (l : Fin 8)
  | timeFrameTx (p : Fin 16)
  | timeFrameRx (p : Fin 16) (frame : List Byte) (fec : BitVec 16)
  | dataFrameRx (p : Fin 16) (frame : List Byte) (fec : BitVec 16) (dateline : Bool)
  | nak (p : Fin 16) (frame : List Byte) (fec : BitVec 16)
  | hello (p : Fin 16) (frame : List Byte) (fec : BitVec 16)
  | linkDown (p : Fin 16)
  | ackStallTimeout (p : Fin 16)
  | linkRetrain (p : Fin 16)
  | linkTrained (p : Fin 16)
  | remoteWriteRx (p : Fin 17)
  | ack (p : Fin 17)
  | nack (p : Fin 17)
  | writeTimeout (tid : BitVec 32)
  | collectivePacketRx (p : Fin 17)
  | channelHello (p : Fin 17)
  | openTimeout (d : Fin 4) (k : Fin 8)
  | stepDeadline (d : Fin 4) (k : Fin 8)
  | contribComplete (d : Fin 4) (k : Fin 8)
  | checkpointComplete (d : Fin 4) (k : Fin 8)
  | failNotice (p : Fin 17)
  | recoveryResume (d : Fin 4) (k : Fin 8)
  | paceNoticeRx (p : Fin 17)
  | currentTick (a : Fin 32) (sdi0 sdi1 sdi2 : BitVec 768)
  | hookStart (e : Fin 8)
  | hookDeadline (a : Fin 32)
  | enable (rank : BitVec 3) (port : BitVec 8) (a : Fin 32) (rivals : List Rival)
  | disable (rank : BitVec 3) (port : BitVec 8) (a : Fin 32) (rivals : List Rival)
  | run (rank : BitVec 3) (port : BitVec 8) (a : Fin 32) (src : BitVec 2) (rivals : List Rival)
  | axsStop (rank : BitVec 3) (port : BitVec 8) (a : Fin 32) (rivals : List Rival)
  | axsSpWrite (rank : BitVec 3) (port : BitVec 8) (a : Fin 32) (value : BitVec 64) (rivals : List Rival)
  | axsSpdWrite (rank : BitVec 3) (port : BitVec 8) (a : Fin 32) (value : BitVec 32) (rivals : List Rival)
  | segmentPush (who : Master) (a : Fin 32)
  | segmentFlush (who : Master) (a : Fin 32)
  | hstopAssert (h : Fin 4) (rivals : List Rival)
  | trdStart (who : Master) (e : Fin 8)
  | trdStop (who : Master) (e : Fin 8)
  | trdResume (who : Master) (e : Fin 8)
  | pmCmWrite (who : Master) (e : Fin 8) (cm : Bool) (idx : BitVec 12) (value : BitVec 32)
  | bankRegisterWrite (who : Master) (e : Fin 8) (bank : Fin 2) (code : BitVec 6) (value : BitVec 32)
  | xmYmWrite (who : Master) (e : Fin 8) (ym : Bool) (idx : BitVec 12) (value : BitVec 32)
  | longInstructionResume (e : Fin 8) (budget : Option (BitVec 12))
  | waititWake (e : Fin 8)
  | trdNop (e : Fin 8)
  | mpy (e : Fin 8)
  | mac (e : Fin 8)
  | msu (e : Fin 8)
  | add (e : Fin 8)
  | sub (e : Fin 8)
  | adds (e : Fin 8)
  | subs (e : Fin 8)
  | and (e : Fin 8)
  | or (e : Fin 8)
  | xor (e : Fin 8)
  | mov (e : Fin 8)
  | neg (e : Fin 8)
  | abs (e : Fin 8)
  | max2 (e : Fin 8)
  | min2 (e : Fin 8)
  | ash (e : Fin 8)
  | lsh (e : Fin 8)
  | rnd (e : Fin 8)
  | acc (e : Fin 8)
  | clr (e : Fin 8)
  | cmp (e : Fin 8)
  | mva (e : Fin 8)
  | ldi (e : Fin 8)
  | ldih (e : Fin 8)
  | mvr (e : Fin 8)
  | modi (e : Fin 8)
  | ldm (e : Fin 8)
  | stm (e : Fin 8)
  | jmp (e : Fin 8)
  | bcc (e : Fin 8)
  | call (e : Fin 8)
  | ret (e : Fin 8)
  | rep (e : Fin 8)
  | loop (e : Fin 8)
  | in_ (e : Fin 8)
  | out (e : Fin 8) (rivals : List Rival)
  | reth (e : Fin 8) (rivals : List Rival)
  | halt (e : Fin 8)
  | waitit (e : Fin 8)
  | maxi (e : Fin 8) (budget : Option (BitVec 12))
  | mini (e : Fin 8) (budget : Option (BitVec 12))
  | bmac (e : Fin 8) (budget : Option (BitVec 12))
  | fbkLevelAccepted (c : Fin 40) (a b z : Bool) (ball : Time)
  | sincosPair (c : Fin 40) (sin cos : BitVec 16)
  | ssiFrameStart (c : Fin 40) (dataHigh : Bool)
  | ssiFrameEnd (c : Fin 40) (bits : BitVec 49)
  | cableTimeout (c : Fin 40)
  | fbkObsUpdate (c : Fin 40)
  | fbkConfigWrite (who : Master) (c : Fin 40) (off : BitVec 12) (value : BitVec 64)
  | cmpEnable (who : Master) (n : Fin 16) (value : BitVec 32)
  | cmpPulseEnd (n : Fin 16)
  | captureEdge (n : Fin 16) (rising : Bool) (ball : Time)
  | frameReceived (k : Fin 4) (f : CanFrame) (sof : BitVec 32) (rivals : List Rival)
  | frameSent (k : Fin 4) (delay : BitVec 8)
  | arbitrationLost (k : Fin 4)
  | canError (k : Fin 4) (err : CanErr)
  | txreq (who : Master) (k : Fin 4) (j : Fin 64)
  | cancel (who : Master) (k : Fin 4) (j : Fin 64)
  | recover (who : Master) (k : Fin 4)
  | busOffRecoveryDone (k : Fin 4)
  | busIntegrationDone (k : Fin 4)
  | moConfigWrite (who : Master) (k : Fin 4) (j : Fin 64) (id : Bool) (value : BitVec 32)
  | dspCommitGo (who : Master) (evt : Bool)
  | commitPoint
  | layerFetchError (n : Fin 6) (poison : Bool) (addr : Pa) (pixel : Nat)
  | signatureResult (n : Fin 8)
  | sigackClear (who : Master)
  | hpdFall (lockLost : Bool)
  | hpdRise
  | dpTrainingDone
  | dpTrainingRetry
  | currentLoopEval (cur : Vector (BitVec 32) 5) (raw : Vector (BitVec 32) 5)
  | pmbusCalibration (pout : Vector PmbAnswer 14)
  | pmbAlert (status : Vector (Option (BitVec 16)) 14) (off : BitVec 14)
  | voutSettled (d : Fin 5) (mode : BitVec 5) (read : BitVec 16)
  | voltageLower (d : Fin 5)
  | droop (d : Fin 5)
  | stretchEnd (d : Fin 5)
  | thermalEval (temps : Vector (BitVec 16) 14)
  | budgetEval (avg : Vector (BitVec 32) 32)
  | paceNoticeSend (stretched : Vector (BitVec 16) 4)
  | ageingMeasurement (d : Vector (BitVec 24) 5)
  | energyUpdate (common : BitVec 64) (parts : Vector (BitVec 64) 32)
  | faultDetected (fid : Fid) (cause : Fin 12)
  | dupMismatch (fid : Fid) (flip : BitVec 12)
  | drainTimeout (fid : Fid)
  | faultCauseClear (who : Master) (fid : Fid) (mask : BitVec 12)
  | reopen (who : Master) (p : Fin 32)
  | rstReset (who : Master) (p : Fin 32) (fid : Fid)
  | rstRelease (who : Master) (p : Fin 32) (fid : Fid)
  | resetDone (fid : Fid)
  | frzLocal (who : Master)
  | frzInstall (who : Master)
  | freezeInstant
  | freezeImageWritten
  | journalEntry
  | break_
  | lockLapsed
  | unsolicitedLine
  | xferCheckDone
  | start (cold : Bool) (target : BitVec 2)
  | stop
  | clearStart
  | state
  | rails
  | target
  | targetSet (t : BitVec 2)
  | plan
  | core (n : Nat)
  | queue (n : Nat)
  | pcie (q : Nat)
  | consoleNop (n : Nat)
  | tile (n : Nat)
  | peatQuery (s : Nat)
  | shtTest (g : Nat)
  | lane (l : Nat)
  | opTest (n : Nat)
  | link (p : Nat)
  | time
  | chan (d k : Nat)
  | pace
  | peatTest (s : Nat)
  | axis (a : Nat)
  | sdi (n : Nat)
  | axisTake (a : Nat)
  | axisGive (a : Nat)
  | axisEnable (a : Nat) (rivals : List Rival)
  | axisDisable (a : Nat) (rivals : List Rival)
  | axisStop (a : Nat) (rivals : List Rival)
  | pwmTest (a : Nat) (phase : Fin 3) (duty : Nat)
  | pwmTestOff (a : Nat)
  | trd (e : Nat)
  | trdTest (e : Nat)
  | fbk (c : Nat)
  | cap (n : Nat)
  | cmpTest (n : Nat)
  | cmpTestOff (n : Nat)
  | can (k : Nat)
  | canMo (k j : Nat)
  | canTest (k : Nat)
  | disp
  | dispSig
  | dispTest
  | power
  | powerDomain (d : Nat)
  | age
  | pmbScan (answers : Vector PmbAnswer 14)
  | fault (fid : Fid)
  | fenceQuery (p : Nat)
  | reset (fid : Fid)
  | release (fid : Fid)
  | faultClr (fid : Fid) (mask : BitVec 12)
  | fenceReopen (p : Nat)
  | freeze
  | id
  | keys
  | store
  | log (n : Nat)
  | dram (c : Nat)
  | clusterQuery (d : Nat)
  | baud (b : Nat)
  | lock
  | unlock
  | mp (n : Nat) (src : MpSource)
  | xferBegin (kind : XferKind)
  | xferData (off : BitVec 32) (data : List Byte)
  | xferEnd
  | xferAbort
  | extest
  | samplePreload (capture preload : List (Nat × Bool))
  | idcode
  | clamp
  | highz
  | bypass (code : BitVec 8)
  | tapReset
  | fuseSensingDone (same : Bool)
  | lineRefused (bytes : List Byte)
  | paceNoticeExpiry (chip : BitVec 12)
  | hstopDeassert (h : Fin 4)
  | transmissionAttempt (k : Fin 4)
  | underflow (n : Fin 6) (pixel : Nat)
  | railMonitorReport (mv : Vector (BitVec 16) 16)
deriving DecidableEq, Repr

end Sys2Proof
end

