-- ==== Sys2Proof/Machine/Bits.lean ====
section
/-! DEFINITION. Bit fields, byte order, saturation, CRCs and sparse tables: the helpers every other file uses. -/
namespace Sys2Proof.Machine

/-- Bits `lo` to `lo + len − 1` of a number (R3). -/
def fld (v lo len : Nat) : Nat := (v >>> lo) % 2 ^ len
/-- Bit `i` of a number. -/
def bitOf (v i : Nat) : Bool := v.testBit i
/-- A number that counts up and stays at the greatest value of its width. -/
def satInc {w : Nat} (v : BitVec w) : BitVec w := if v = BitVec.allOnes w then v else v + 1
/-- The same with an amount. -/
def satAdd {w : Nat} (v : BitVec w) (n : Nat) : BitVec w :=
  if v.toNat + n < 2 ^ w then BitVec.ofNat w (v.toNat + n) else BitVec.allOnes w
/-- An integer saturated to `w` bits, two's complement. -/
def satInt (w : Nat) (x : Int) : BitVec w :=
  if x > 2 ^ (w - 1) - 1 then BitVec.ofInt w (2 ^ (w - 1) - 1)
  else if x < -(2 ^ (w - 1)) then BitVec.ofInt w (-(2 ^ (w - 1)))
  else BitVec.ofInt w x
/-- The lesser and the greater of two words, unsigned. -/
def bvMin {w : Nat} (a b : BitVec w) : BitVec w := if b < a then b else a
def bvMax {w : Nat} (a b : BitVec w) : BitVec w := if a < b then b else a
/-- Ceiling division. -/
def ceilDiv (a b : Nat) : Nat := (a + b - 1) / b

/-- Bytes, least significant first, as a number (R4). -/
def leNat : List Byte → Nat
  | [] => 0
  | b :: bs => b.toNat + 256 * leNat bs
/-- A number as `n` bytes, least significant first (R4). -/
def natLe : Nat → Nat → List Byte
  | 0, _ => []
  | n + 1, v => BitVec.ofNat 8 v :: natLe n (v / 256)
/-- Bytes, most significant first, as a number (the exceptions to R4: R33, R402). -/
def beNat (bs : List Byte) : Nat := leNat bs.reverse
/-- `n` bytes of a byte string at an offset, zeros past its end. -/
def slice (bs : List Byte) (off n : Nat) : List Byte :=
  let t := (bs.drop off).take n
  t ++ List.replicate (n - t.length) 0
/-- Little-endian field of a byte string. -/
def leAt (bs : List Byte) (off n : Nat) : Nat := leNat (slice bs off n)
/-- One byte of a byte string. -/
def byteAt (bs : List Byte) (off : Nat) : Nat := leAt bs off 1
/-- Whether every byte of a range is zero. -/
def zeroAt (bs : List Byte) (off n : Nat) : Bool := leAt bs off n == 0

/-- An entry of a sparse table; an unlisted one reads as `d`. -/
def spGet {α : Type} (d : α) : List (Nat × α) → Nat → α
  | [], _ => d
  | (k, v) :: m, i => if k = i then v else spGet d m i
/-- A write to a sparse table: keys stay rising, and an entry equal to `d` is left out. -/
def spPut {α : Type} [DecidableEq α] (d : α) : List (Nat × α) → Nat → α → List (Nat × α)
  | [], i, v => if v = d then [] else [(i, v)]
  | (k, u) :: m, i, v =>
    if i < k then (if v = d then (k, u) :: m else (i, v) :: (k, u) :: m)
    else if i = k then (if v = d then m else (i, v) :: m)
    else (k, u) :: spPut d m i v
/-- Keys strictly above a bound and rising, and no entry equal to `d`. -/
def spWfFrom {α : Type} [DecidableEq α] (d : α) : Nat → List (Nat × α) → Bool
  | _, [] => true
  | lo, (k, v) :: m => decide (lo ≤ k) && decide (v ≠ d) && spWfFrom d (k + 1) m
/-- The canonical form of a sparse table. -/
def spWf {α : Type} [DecidableEq α] (d : α) (m : List (Nat × α)) : Bool := spWfFrom d 0 m

/-- A rising list of numbers with one more. -/
def insertNat (x : Nat) : List Nat → List Nat
  | [] => [x]
  | y :: ys => if x < y then x :: y :: ys else if x = y then y :: ys else y :: insertNat x ys

/-- One byte into the reflected CRC-32 register (IEEE 802.3 polynomial, R196). -/
def crc32Byte (c : BitVec 32) (b : Byte) : BitVec 32 :=
  (List.range 8).foldl (fun c _ => if c.getLsbD 0 then (c >>> 1) ^^^ 0xEDB88320#32 else c >>> 1)
    (c ^^^ b.setWidth 32)
/-- CRC-32 with initial value all ones and the result complemented (R196, R347). -/
def crc32 (bs : List Byte) : BitVec 32 := ~~~ (bs.foldl crc32Byte 0xFFFFFFFF#32)

/-- One byte into the console's CRC-16 (polynomial 0x1021, R395). -/
def crc16Byte (c : BitVec 16) (b : Byte) : BitVec 16 :=
  (List.range 8).foldl (fun c _ => if c.getLsbD 15 then (c <<< 1) ^^^ 0x1021#16 else c <<< 1)
    (c ^^^ (b.setWidth 16 <<< 8))
/-- The check code of a console line's body (R395). -/
def crc16 (bs : List Byte) : BitVec 16 := bs.foldl crc16Byte 0xFFFF#16

/-- A number rounded to the nearest of a quotient, ties to even. -/
def divRne (a : Int) (b : Nat) : Int :=
  let q := a / b
  let r := a % b
  if 2 * r < b then q else if 2 * r > b then q + 1 else if q % 2 = 0 then q else q + 1

end Sys2Proof.Machine
end

