-- ==== Sys2Proof/Machine/StCommon.lean ====
section
/-! DEFINITION. Pieces of state that several blocks share: result tags, event records, fixed tables. A comment
`-- @ rule chapter | reset` after a field names the rule of spec/ that gives it and its value at reset. -/
namespace Sys2Proof.Machine

/-- Entry `i` of a fixed table. -/
def vget {α : Type} {n : Nat} (v : Vector α n) (i : Fin n) : α := v[i]
/-- The table with entry `i` replaced. -/
def vset {α : Type} {n : Nat} (v : Vector α n) (i : Fin n) (a : α) : Vector α n := v.set i a
/-- The table with entry `i` changed by `f`. -/
def vmod {α : Type} {n : Nat} (v : Vector α n) (i : Fin n) (f : α → α) : Vector α n := vset v i (f (vget v i))
/-- A table with every entry alike. -/
abbrev vrep {α : Type} (n : Nat) (a : α) : Vector α n := Vector.replicate n a

/-- VALID and the 7-bit sequence of a result location (R139). -/
structure Tag where
  valid : Bool := false
  seq : BitVec 7 := 0
deriving DecidableEq, Repr

/-- A new result: the sequence rises by one and VALID is set (R139). -/
def Tag.bump (t : Tag) : Tag := { valid := true, seq := t.seq + 1 }
/-- Writing 1 to VALID retires the result and leaves the sequence (R139). -/
def Tag.retire (t : Tag) : Tag := { t with valid := false }

/-- An event or completion record before its stream sequence is given (R132). -/
structure EvRec where
  fid : Fid := 0
  cls : BitVec 8 := 0
  error : Bool := false
  holdover : Bool := false
  it : Time := 0
  /-- Bytes 16 to 31; byte 16 is the least significant. -/
  payload : BitVec 128 := 0
deriving DecidableEq, Repr

/-- A register window as a sparse list, addresses rising, words equal to the reset word left out. -/
abbrev WordMap (w : Nat) := List (Nat × BitVec w)

end Sys2Proof.Machine
end

