-- ==== Sys2Proof/Machine/StEngine.lean ====
section
/-! DEFINITION. State of the accelerator dies and of the fabric: Loom tiles, Shuttle, Peat (spec/07), reflex lanes
(spec/08), Grenhild ports and installation time (spec/09), collective channels (spec/10). -/
namespace Sys2Proof.Machine

/-- Where an operator or a chain came from: queue and slot; none for a lane or a trigger. -/
abbrev Origin := Option (Fin 64 × BitVec 16)

/-- An operator handed to a tile (R173, R174). -/
structure OpJob where
  origin : Fin 64 × BitVec 16
  /-- The descriptor's bytes. -/
  desc : List Byte
  part : Fin 32
  started : Bool := false
deriving DecidableEq, Repr

/-- One Loom tile (block LOOM). -/
structure Tile where
  held : Bool := true                          -- @ LOOM_STAT.STATE 07 | 2 (held)
  gate : BitVec 2 := 2                         -- @ LOOM_STAT.GATE 07 | 2
  lane : Bool := false                         -- @ LOOM_STAT.LANE 07 | 0
  windowed : Bool := false                     -- @ LOOM_CFG.SPMODE/LOOM_STAT.MODE 07 | 0
  errCode : BitVec 8 := 0                      -- @ LOOM_ERR.CODE 07 | 0
  errAddr : BitVec 16 := 0                     -- @ LOOM_ERR.ADDR 07 | 0
  errTag : Tag := {}                           -- @ LOOM_ERR.ESEQ/VALID 07 | 0
  cache : List (Nat × List Byte) := []         -- @ R154 (read cache: tile-space line, 64 bytes) 07 | empty
  jobs : List OpJob := []                      -- @ R174 (waiting and running operators) 07 | none
deriving DecidableEq, Repr

/-- A write of a stream that is held, or sent to the fabric and not yet answered (R157, R204, R207). -/
structure NetWrite where
  /-- Transaction ID, once sent. -/
  tid : BitVec 32 := 0
  /-- Goes to the fabric; a held write of this chip's own space does not. -/
  remote : Bool := true
  dst : BitVec 12
  part : Fin 32
  addr : Nat
  data : List Byte
  stream : BitVec 8
  final : Bool := false
  /-- Position in its channel's order of issue, and number of the descriptor within its chain. -/
  ord : Nat := 0
  idx : Nat := 0
  /-- Port it left through, and whether its route has changed since (R204). -/
  port : Option (Fin 16) := none
  moved : Bool := false
  /-- A collective packet rather than a WRITE (R235). -/
  coll : Bool := false
deriving DecidableEq, Repr

/-- A chain waiting for or running on a channel. -/
structure Chain where
  origin : Fin 64 × BitVec 16
  /-- Descriptors given inline and not yet begun. -/
  inline : List (List Byte) := []
  /-- Address of the next descriptor; none after the last. -/
  next : Option Nat := none
  done : Nat := 0
  /-- Engine that a WAITPEAT waits for (R163). -/
  waitPeat : Option (Fin 8 × Fin 32) := none
  result : Option (BitVec 16 × BitVec 32) := none
deriving DecidableEq, Repr

/-- One Shuttle channel (R160). -/
structure Channel where
  running : Option Chain := none               -- @ SHT_CSTAT.STATE R160 07 | none
  desc : Pa := 0                               -- @ SHT_CDESC 07 | 0
  waiting : List Chain := []                   -- @ R160 07 | none
  out : List NetWrite := []                    -- @ R157 R163 (writes held, in order of issue) 07 | none
  ord : Nat := 0                               -- @ R157 (writes issued so far) 07 | 0
deriving DecidableEq, Repr

/-- One Shuttle group. -/
structure Shuttle where
  held : Bool := true                          -- @ SHT_CSTAT.STATE 07 | 3 (held)
  ch : Vector Channel 8 := vrep 8 {}           -- @ R160 07 | idle
deriving DecidableEq, Repr

/-- What started an operation of a Peat engine. -/
inductive PeatWhy
  | trig
  | command (n : Fin 64) (slot : BitVec 16)
  | channel (d : Fin 4) (k : Fin 8)
deriving DecidableEq, Repr

/-- An operation in progress on an engine (R169). -/
structure PeatRun where
  why : PeatWhy
  opc : BitVec 8
  /-- PEAT_STAT.TAG of the result. -/
  tag : BitVec 32
  /-- SET_MODE's MODE, and ranges as the operation took them. -/
  mode : Bool := false
  base : Nat := 0
  len : Nat := 0
  par : Nat := 0
  /-- The parameter block as the trigger read it; empty where OPAR names none in the stack (R218). -/
  pblk : List Byte := []
  /-- Set once the operation's row has run. -/
  result : Option (BitVec 8) := none
deriving DecidableEq, Repr

/-- One Peat engine (Table 7.6). -/
structure PeatEngine where
  owner : BitVec 5 := 0                        -- @ PEAT_CLAIM.OWNER 07 | 0
  claimed : Bool := false                      -- @ PEAT_CLAIM.CLAIMED 07 | 0
  accum : Bool := false                        -- @ PEAT_MODE 07 | 0
  abase : Pa := 0                              -- @ PEAT_ABASE 07 | 0
  alim : Pa := 0                               -- @ PEAT_ALIM 07 | 0
  opc : BitVec 8 := 0                          -- @ PEAT_OPC 07 | 0
  obase : Pa := 0                              -- @ PEAT_OBASE 07 | 0
  olen : Pa := 0                               -- @ PEAT_OLEN 07 | 0
  opar : Pa := 0                               -- @ PEAT_OPAR 07 | 0
  ref : BitVec 16 := 0                         -- @ PEAT_REF 07 | 0
  statTag : BitVec 32 := 0                     -- @ PEAT_STAT.TAG 07 | 0
  statCode : BitVec 8 := 0                     -- @ PEAT_STAT.CODE 07 | 0
  stat : Tag := {}                             -- @ PEAT_STAT.SSEQ/VALID 07 | 0
  modePending : Option (PeatReg × BitVec 64) := none -- @ R169 (mode change in progress) 07 | none
  run : Option PeatRun := none                 -- @ R169 07 | none
deriving DecidableEq, Repr

/-- One stack's Peat engines. -/
structure Stack where
  eng : Vector PeatEngine 32 := vrep 32 {}     -- @ 7.5 07 | reset
  irqen : BitVec 32 := 0                       -- @ PEAT_IRQEN 07 | 0
  /-- Engines whose CODE was not DONE, by PEAT command in progress. -/
  fails : List ((Fin 64 × BitVec 16) × BitVec 32) := [] -- @ R172 (PEAT_FAIL mask) 07 | none
deriving DecidableEq, Repr

/-- A request of a reflex lane in flight. -/
structure LaneReq where
  t0 : Time
  input : List (BitVec 32)
deriving DecidableEq, Repr

/-- A layer of a model image (Table 8.9). -/
structure Layer where
  nin : Nat
  nout : Nat
  act : BitVec 8
  wofs : Nat
  bofs : Nat
deriving DecidableEq, Repr

/-- One reflex lane as stage 8 loaded it, and its registers (spec/08, 8.6). -/
structure Lane where
  on : Bool := false                           -- @ R35 02 | not loaded
  part : Fin 32 := 0                           -- @ Table 2.3 02 | 0
  tiles : List (Fin 64) := []                  -- @ Table 2.7 02 | none
  nin : Nat := 0                               -- @ Table 2.7 02 | 0
  nout : Nat := 0                              -- @ Table 2.7 02 | 0
  deadline : BitVec 32 := 0                    -- @ Table 2.7 02 | 0
  wfmt : BitVec 8 := 0                         -- @ Table 8.9 08 | 0
  model : List Byte := []                      -- @ R189 (weights held in scratchpad) 08 | none
  layers : List Layer := []                    -- @ Table 8.9 08 | none
  normOfs : Nat := 0                           -- @ Table 8.9 08 | 0
  axes : List (Fin 32) := []                   -- @ R260 (participating axes, ascending) 11 | none
  posLoop : Bool := false                      -- @ Table 2.7 (LANE_LOOP) 02 | 0
  period : Nat := 0                            -- @ R261 (period in TQ) 11 | 0
  req : Option LaneReq := none                 -- @ R261 11 | none
  answers : List (Time × List (BitVec 32)) := [] -- @ R262 (delivered, by request time) 11 | none
  missed : List Time := []                     -- @ R262 (requests abandoned or withheld) 11 | none
  last : BitVec 24 := 0                        -- @ LOOM_LANE_LAT.LAST 08 | 0
  max : BitVec 24 := 0                         -- @ LOOM_LANE_LAT.MAX 08 | 0
  tag : Tag := {}                              -- @ LOOM_LANE_LAT.LSEQ/VALID 08 | 0
  requests : BitVec 32 := 0                    -- @ LOOM_LANE_CNT.REQUESTS 08 | 0
  late : BitVec 16 := 0                        -- @ LOOM_LANE_CNT.LATE 08 | 0
  nonfinite : BitVec 16 := 0                   -- @ LOOM_LANE_CNT.NONFINITE 08 | 0
  wcl : BitVec 24 := 0                         -- @ LOOM_LANE_WCL 08 | 0
deriving DecidableEq, Repr

/-- States of a Grenhild port (GRH_LSTAT.STATE). -/
inductive PortState | off | down | training | hello | up
deriving DecidableEq, Repr

/-- One Grenhild port (block GRH). -/
structure Port where
  st : PortState := .off                       -- @ GRH_LSTAT.STATE 09 | 0
  lanes : BitVec 4 := 0                        -- @ GRH_LSTAT.LANES 09 | 0
  dir : BitVec 3 := 0                          -- @ GRH_LSTAT.DIR 09 | 0
  peerPlan : BitVec 12 := 0                    -- @ Table 2.6 (PEER) 02 | 0
  laneCfg : BitVec 6 := 0                      -- @ Table 2.6 (LANES), R194 02 | 0
  peer : BitVec 12 := 0                        -- @ GRH_LSTAT.PEER 09 | 0
  timeUse : Bool := false                      -- @ GRH_LSTAT.TIMEUSE 09 | 0
  cause : BitVec 4 := 0                        -- @ GRH_LSTAT.CAUSE 09 | 0
  delay : BitVec 20 := 0                       -- @ GRH_DELAY.DELAY 09 | 0
  ofs : BitVec 20 := 0                         -- @ GRH_DELAY.OFS 09 | 0
  dtag : Tag := {}                             -- @ GRH_DELAY.DSEQ/VALID 09 | 0
  fec : BitVec 32 := 0                         -- @ GRH_CNT.FEC 09 | 0
  replay : BitVec 16 := 0                      -- @ GRH_CNT.REPLAY 09 | 0
  downs : BitVec 16 := 0                       -- @ GRH_CNT.DOWN 09 | 0
  helloRx : Bool := false                      -- @ R199 (peer's HELLO passed) 09 | false
  helloBad : Bool := false                     -- @ R199 (HELLO checks fail) 09 | false
  txSeq : BitVec 16 := 0                       -- @ R198 (next LSEQ sent) 09 | 0 DESIGN CHOICE log 16
  rxSeq : BitVec 16 := 0                       -- @ R198 (next LSEQ expected) 09 | 0 DESIGN CHOICE log 16
  replayBuf : List (BitVec 16 × Fin 8 × Packet) := [] -- @ R198 (at most 1,024 frames) 09 | empty
  txq : List (Fin 8 × Packet × Option (Fin 16 × Fin 8)) := [] -- @ R197 (packets waiting for credit, and the receive buffer each holds) 09 | empty
  credits : Vector (BitVec 16) 8 := vrep 8 0   -- @ R197 09 | 0
  freed : Vector (BitVec 16) 8 := vrep 8 0     -- @ R197 (credits to return) 09 | 0
  nakSent : Bool := false                      -- @ R198 (one NAK outstanding) 09 | false
  naks : List Time := []                       -- @ R199 (NAKs sent or received within the last 1 ms) 09 | none
  sent : Option (LinkHdr × OutFrame) := none   -- @ Table 9.1 (header and payload of the frame last sent) 09 | none
  txTimes : List Time := []                    -- @ R215 (departures of the last 4 time frames) 09 | none
  lastPeerTx : Time := 0                       -- @ R215 (ECHO_TX to send) 09 | 0
  lastPeerRx : Time := 0                       -- @ R215 (ECHO_RX to send) 09 | 0
  tseq : BitVec 32 := 0                        -- @ Table 9.4 09 | 0
  timeOut : Option TimeFrame := none           -- @ R215 (time frame last sent) 09 | none
  stratum : BitVec 8 := 0xFF                   -- @ Table 9.4 (peer's stratum) 09 | 0xFF DESIGN CHOICE log 16
  gmId : BitVec 12 := 0                        -- @ Table 9.4 (peer's grandmaster) 09 | 0
  peerLocked : Bool := false                   -- @ Table 9.4 09 | false
  rx : List (Option (Fin 8) × Packet) := []    -- @ R197, R198 (packets delivered to this chip, and the channel buffer each holds) 09 | empty
deriving DecidableEq, Repr

/-- TIM_STATUS.STATE (R209). -/
inductive TimeState | free | locked | holdover
deriving DecidableEq, Repr

/-- The time base (block TIM). -/
structure TimeBase where
  it : Time := 0                               -- @ TIM_NOW R209 09 | 0
  sub : Nat := 0                               -- @ R330 (TQ within a CAN_TSC count) 14 | 0
  st : TimeState := .free                      -- @ TIM_STATUS.STATE 09 | 0
  gm : Bool := false                           -- @ TIM_STATUS.GM 09 | 0
  slew : Bool := false                         -- @ TIM_STATUS.SLEW 09 | 0
  refLost : Bool := false                      -- @ TIM_STATUS.REF_LOST 09 | 0
  noGm : Bool := false                         -- @ TIM_STATUS.NO_GM 09 | 0
  stratum : BitVec 6 := 63                     -- @ TIM_STATUS.STRATUM 09 | 63
  gmId : BitVec 12 := 0                        -- @ TIM_STATUS.GM_ID 09 | 0
  ofs : BitVec 32 := 0                         -- @ TIM_OFS.OFS 09 | 0
  otag : Tag := {}                             -- @ TIM_OFS.TSEQ/VALID 09 | 0
  everLocked : Bool := false                   -- @ R209 (locked since the last cold start) 09 | false
deriving DecidableEq, Repr

/-- The fabric record in effect (Table 2.6). -/
structure Fabric where
  joined : Bool := false                       -- @ R30 02 | not joined
  dims : Vector (BitVec 8) 3 := vrep 3 0       -- @ Table 2.6 02 | 0
  pos : Vector (BitVec 8) 3 := vrep 3 0        -- @ Table 2.6 02 | 0
  candidate : Bool := false                    -- @ TIME_ROLE 02 | 0
  installId : BitVec 64 := 0                   -- @ Table 2.6 02 | 0
deriving DecidableEq, Repr

/-- A pace notice in force (R232). -/
structure Pace where
  chip : BitVec 12
  ratio : BitVec 8
  cause : BitVec 8
  until_ : Time
deriving DecidableEq, Repr

/-- A channel descriptor (Table 10.2). -/
structure ChanDesc where
  id : BitVec 16
  drop : Bool
  fmt : BitVec 8
  nmemb : Nat
  nspare : Nat
  self : Nat
  staleMax : Nat
  missMax : Nat
  paceGrace : Nat
  earlyClose : Bool
  stepEvents : Bool
  kper : Nat
  t0 : Time
  period : BitVec 64
  deadlineOfs : BitVec 64
  nelem : Nat
  ckptEvery : Nat
  recover : BitVec 64
  grad : Nat
  resid : Nat
  master : Nat
  param : Nat
  acc : Nat
  short : Nat
  stage : Nat
  ckpt : Nat
  members : List (BitVec 12)
  crc : BitVec 32
deriving DecidableEq, Repr

/-- States of a channel slot. -/
inductive ChanState | closed | opening | run | recovering | halted | expelled
deriving DecidableEq, Repr

/-- A CONTRIB in progress: its command, step, and elements replaced (R224, R226). -/
structure ContribRun where
  origin : Fin 64 × BitVec 16
  step : BitVec 32
  nonfin : Nat := 0
deriving DecidableEq, Repr

/-- What the collective engine does for a closed step (R230, R233). -/
inductive CastPhase | waitCkpt | opt | cast
deriving DecidableEq, Repr

/-- A recovery in progress (R234). -/
structure Recovery where
  cr : BitVec 32
  fMin : Time
  fMax : Time
  rit : Time
deriving DecidableEq, Repr

/-- One channel slot of a control cluster (R222). -/
structure Chan where
  st : ChanState := .closed                    -- @ R222 10 | closed
  desc : Option ChanDesc := none               -- @ Table 10.2 10 | none
  part : Fin 32 := 0                           -- @ R217 10 | 0
  openCmd : Origin := none                     -- @ R223 10 | none
  hellos : List Nat := []                      -- @ R223 (list indices that sent a HELLO) 10 | none
  nextStep : BitVec 32 := 0                    -- @ R224 (next expected CONTRIB step) 10 | 0
  contrib : List ContribRun := []              -- @ R224 (CONTRIBs in progress) 10 | none
  out : List NetWrite := []                    -- @ R235 R207 (packets held, in order of issue) 10 | none
  ord : Nat := 0                               -- @ R235 (packets issued so far) 10 | 0
  gathers : List (BitVec 32 × Nat) := []       -- @ R224 (step, owner whose short copies landed) 10 | none
  openStep : BitVec 32 := 0                    -- @ R229 (lowest step not closed) 10 | 0
  optRead : BitVec 32 := 0                     -- @ R228 (steps whose OPT_STEP has read its ACC) 10 | 0
  landed : List (BitVec 32 × Nat × Time) := [] -- @ R228 (contributions waiting in STAGE: step, member, IT) 10 | none
  added : List (BitVec 32 × Nat) := []         -- @ R228 (step, member added on time) 10 | none
  stale : List (BitVec 32 × Nat) := []         -- @ R229 (step they were added to, member) 10 | none
  miss : List (Nat × Nat) := []                -- @ R231 (member, misses) 10 | none
  grace : List (Nat × Nat) := []               -- @ R231 (member, grace used) 10 | none
  lateCnt : BitVec 32 := 0                     -- @ CHAN (LATE) R229 10 | 0
  dropCnt : BitVec 32 := 0                     -- @ CHAN (DROP) R229 10 | 0
  sparesUsed : List Nat := []                  -- @ R234 (list indices of used spares) 10 | none
  replaced : List Nat := []                    -- @ R234 (members replaced by the recovery) 10 | none
  recover : Option Recovery := none            -- @ R234 10 | none
  lastRit : Option Time := none                -- @ R234 (r_it of the last recovery) 10 | none
  restored : Bool := false                     -- @ R234 (shard restored and cast) 10 | false
  ckptPend : Option (BitVec 32) := none        -- @ R233 (checkpoint in progress) 10 | none
  ckptLost : Bool := false                     -- @ R233, R207 (a copy of it was refused or timed out) 10 | false
  localGen : Vector (Option (BitVec 32)) 2 := vrep 2 none  -- @ R233 (step held by each local generation) 10 | none
  mirrorGen : Vector (Option (BitVec 32)) 2 := vrep 2 none -- @ R233 (step held by each mirror generation) 10 | none
  /-- Closed step in progress, its phase, and engines still to finish. -/
  castWait : Option (BitVec 32 × CastPhase × Nat) := none -- @ R230 10 | none
  waitOp : Option (BitVec 8) := none           -- @ R169, R230 (OPC that waits for every engine to be READY) 10 | none
deriving DecidableEq, Repr

end Sys2Proof.Machine
end

