-- ==== Sys2Proof/Machine/StHost.lean ====
section
/-! DEFINITION. State of the host tile: cores, interrupt controllers, the region attribute table (spec/04, spec/05),
the command front end and the root ports (spec/06). -/
namespace Sys2Proof.Machine

/-- Privilege modes (R104). -/
inductive Priv | m | hs | u | vs | vu
deriving DecidableEq, Repr

/-- One IMSIC interrupt file, identities 1 to 255 (R109). -/
structure ImsicFile where
  pending : BitVec 256 := 0                    -- @ R109 05 | 0
  enable : BitVec 256 := 0                     -- @ R118 05 | 0
deriving DecidableEq, Repr

/-- One application core (spec/05). -/
structure Core where
  held : Bool := true                          -- @ R117 05 | held
  released : Bool := false                     -- @ R118 (ever released) 05 | false
  pc : BitVec 64 := 0                          -- @ R116 05 | 0 DESIGN CHOICE log 15
  x : Vector (BitVec 64) 32 := vrep 32 0       -- @ R101 05 | 0 DESIGN CHOICE log 15
  f : Vector (BitVec 64) 32 := vrep 32 0       -- @ R101 (floating-point registers) 05 | 0 DESIGN CHOICE log 15
  v : Vector (BitVec 256) 32 := vrep 32 0      -- @ Table 5.1 05 | 0 DESIGN CHOICE log 15
  priv : Priv := .m                            -- @ R116 05 | M
  status : BitVec 64 := 0                      -- @ R104 (mstatus) 05 | 0 PRESUMED log 15
  tvec : BitVec 64 := 0                        -- @ R110 (mtvec) 05 | 0 PRESUMED log 15
  stvec : BitVec 64 := 0                       -- @ R110 (stvec) 05 | 0 PRESUMED log 15
  epc : BitVec 64 := 0                         -- @ R110 (mepc) 05 | 0 PRESUMED log 15
  sepc : BitVec 64 := 0                        -- @ R110 (sepc) 05 | 0 PRESUMED log 15
  cause : BitVec 64 := 0                       -- @ R74 (mcause) 05 | 0 PRESUMED log 15
  scause : BitVec 64 := 0                      -- @ R74 (scause) 05 | 0 PRESUMED log 15
  tval : BitVec 64 := 0                        -- @ R74 (mtval) 05 | 0 PRESUMED log 15
  stval : BitVec 64 := 0                       -- @ R74 (stval) 05 | 0 PRESUMED log 15
  hstatus : BitVec 64 := 0                     -- @ R104 05 | 0 PRESUMED log 15
  hedeleg : BitVec 64 := 0                     -- @ R101 (H extension) 05 | 0 PRESUMED log 15
  hideleg : BitVec 64 := 0                     -- @ R101 (H extension) 05 | 0 PRESUMED log 15
  vsstatus : BitVec 64 := 0                    -- @ R101 (H extension) 05 | 0 PRESUMED log 15
  vstvec : BitVec 64 := 0                      -- @ R101 (H extension) 05 | 0 PRESUMED log 15
  vsepc : BitVec 64 := 0                       -- @ R101 (H extension) 05 | 0 PRESUMED log 15
  vscause : BitVec 64 := 0                     -- @ R101 (H extension) 05 | 0 PRESUMED log 15
  vstval : BitVec 64 := 0                      -- @ R101 (H extension) 05 | 0 PRESUMED log 15
  medeleg : BitVec 64 := 0                     -- @ R104 05 | 0 PRESUMED log 15
  mideleg : BitVec 64 := 0                     -- @ R104 05 | 0 PRESUMED log 15
  mip : BitVec 64 := 0                         -- @ R106 05 | 0
  mie : BitVec 64 := 0                         -- @ R110 05 | 0 PRESUMED log 15
  mtimecmp : BitVec 64 := BitVec.allOnes 64    -- @ R106 05 | all ones
  stimecmp : BitVec 64 := BitVec.allOnes 64    -- @ R105 05 | all ones DESIGN CHOICE log 15
  vstimecmp : BitVec 64 := BitVec.allOnes 64   -- @ R105 05 | all ones DESIGN CHOICE log 15
  htimedelta : BitVec 64 := 0                  -- @ R105 05 | 0 PRESUMED log 15
  hvip : BitVec 64 := 0                        -- @ R105 (VSTIP level) 05 | 0 PRESUMED log 15
  vstart : BitVec 64 := 0                      -- @ R111 05 | 0 PRESUMED log 15
  vl : BitVec 64 := 0                          -- @ R114 05 | 0 PRESUMED log 15
  vtype : BitVec 64 := 0                       -- @ R113 05 | 0 DESIGN CHOICE log 15
  mcycle : BitVec 64 := 0                      -- @ R115 05 | 0 DESIGN CHOICE log 15
  minstret : BitVec 64 := 0                    -- @ R115 05 | 0 DESIGN CHOICE log 15
  hpm : Vector (BitVec 64) 29 := vrep 29 0     -- @ R115 (mhpmcounter3-31) 05 | 0 DESIGN CHOICE log 15
  hpmEvent : Vector (BitVec 64) 29 := vrep 29 0 -- @ R115 (mhpmevent3-31) 05 | 0 DESIGN CHOICE log 15
  satp : BitVec 64 := 0                        -- @ Table 5.1 05 | 0 PRESUMED log 15
  vsatp : BitVec 64 := 0                       -- @ R101 (H extension) 05 | 0 PRESUMED log 15
  hgatp : BitVec 64 := 0                       -- @ Table 5.1 05 | 0 PRESUMED log 15
  hgeie : BitVec 64 := 0                       -- @ R104 05 | 0 PRESUMED log 15
  pmpcfg : Vector (BitVec 8) 16 := vrep 16 0   -- @ Table 5.1 05 | 0 PRESUMED log 15
  pmpaddr : Vector (BitVec 64) 16 := vrep 16 0 -- @ Table 5.1 05 | 0 DESIGN CHOICE log 15
  htval : BitVec 64 := 0                       -- @ R101 (H extension) 05 | 0 PRESUMED log 15
  mtval2 : BitVec 64 := 0                      -- @ R101 (H extension) 05 | 0 PRESUMED log 15
  resv : Option (Nat × Bool) := none           -- @ R98 (LR reservation: address, doubleword) 04 | none
  dirty : List Nat := []                       -- @ R118 R99 (lines held dirty) 05 | none
  unacked : List Nat := []                     -- @ R89 R97 (writes not yet acknowledged) 04 | none
  imsic : Vector ImsicFile 9 := vrep 9 {}      -- @ R109 05 | 0
deriving DecidableEq, Repr

/-- One region attribute entry (R86). -/
structure RatEntry where
  valid : Bool := false                        -- @ RAT_VALID 04 | 0
  base : BitVec 32 := 0                        -- @ RAT_BASE[43:12] 04 | 0
  limit : BitVec 32 := 0                       -- @ RAT_LIMIT[43:12] 04 | 0
  attr : BitVec 32 := 0                        -- @ RAT_ATTR 04 | 0
  access : BitVec 32 := 0                      -- @ RAT_ACCESS 04 | 0
  /-- Owner of the region record, none for chip-wide (R91). -/
  owner : Option (Fin 32) := none              -- @ R91 04 | none
deriving DecidableEq, Repr

/-- The region attribute table and its error record (block RAT). -/
structure Rat where
  entries : Vector RatEntry 64 := vrep 64 {}   -- @ R86 04 | invalid
  errFid : Fid := 0                            -- @ RAT_ERR_INFO.FID 04 | 0
  errWrite : Bool := false                     -- @ RAT_ERR_INFO.WRITE 04 | 0
  errCause : BitVec 3 := 0                     -- @ RAT_ERR_INFO.CAUSE 04 | 0
  errTag : Tag := {}                           -- @ RAT_ERR_INFO.ESEQ/VALID 04 | 0
  errAddr : Pa := 0                            -- @ RAT_ERR_ADDR 04 | 0
  /-- Partition whose entries a partial reload has reopened (R91). -/
  reopened : Option (Fin 32) := none           -- @ R91 04 | none
  /-- Within one command: an access of it met an entry that a reload holds, so the whole command waits (R91). -/
  waits : Bool := false                        -- @ MODEL (R91; false between commands) | false
deriving DecidableEq, Repr

/-- One APLIC domain (R107). -/
structure AplicDomain where
  domaincfg : BitVec 32 := 0x80000004          -- @ R107 05 | DM 1, IE 0 PRESUMED log 15
  mmsi : BitVec 64 := 0                        -- @ R108 (mmsiaddrcfg) 05 | 0 PRESUMED log 15
  smsi : BitVec 64 := 0                        -- @ R108 (smsiaddrcfg) 05 | 0 PRESUMED log 15
  sourcecfg : WordMap 32 := []                 -- @ R107 05 | Inactive
  targets : WordMap 32 := []                   -- @ R108 05 | 0 PRESUMED log 15
  pending : BitVec 512 := 0                    -- @ R107 05 | 0
  enabled : BitVec 512 := 0                    -- @ R107 05 | 0 PRESUMED log 15
deriving DecidableEq, Repr

/-- An installation time, and whether it was taken outside LOCKED (R132, R209). -/
structure Stamp where
  it : Time
  hold : Bool
deriving DecidableEq, Repr

/-- Where a dispatched command stands. -/
inductive CmdState
  | ready | waiting | running
  /-- Ended: STATUS, DETAIL and the time of its last effect (R133). -/
  | done (status : BitVec 16) (detail : BitVec 32) (at_ : Stamp)
deriving DecidableEq, Repr

/-- A fetched command: its slot index and its 256 bytes (Table 6.2). -/
structure Cmd where
  slot : BitVec 16
  bytes : List Byte
  st : CmdState := .ready
  /-- START_IT has been waited for (R129). -/
  timed : Bool := false
  /-- Its place in the order of dispatch over all queues (R160, R174). -/
  ord : Nat := 0
deriving DecidableEq, Repr

/-- One queue (block CQ). -/
structure Queue where
  sqbase : BitVec 32 := 0                      -- @ CQ_SQBASE[43:12] 06 | 0
  cqbase : BitVec 32 := 0                      -- @ CQ_CQBASE[43:12] 06 | 0
  sqlog : BitVec 4 := 0                        -- @ CQ_QCFG.SQLOG 06 | 0
  cqlog : BitVec 4 := 0                        -- @ CQ_QCFG.CQLOG 06 | 0
  enable : Bool := false                       -- @ CQ_QCFG.ENABLE 06 | 0
  evt : Bool := false                          -- @ CQ_QCFG.EVT 06 | 0
  halted : Bool := false                       -- @ CQ_QCFG.HALTED 06 | 0
  hart : BitVec 6 := 0                         -- @ CQ_QIRQ.HART 06 | 0
  file : BitVec 4 := 0                         -- @ CQ_QIRQ.FILE 06 | 0
  ident : BitVec 8 := 0                        -- @ CQ_QIRQ.IDENT 06 | 0
  all : Bool := false                          -- @ CQ_QIRQ.ALL 06 | 0
  sqtail : BitVec 16 := 0                      -- @ CQ_SQTAIL 06 | 0
  sqhead : BitVec 16 := 0                      -- @ CQ_SQHEAD 06 | 0
  cqtail : BitVec 16 := 0                      -- @ CQ_CQTAIL 06 | 0
  cqhead : BitVec 16 := 0                      -- @ CQ_CQHEAD 06 | 0
  code : BitVec 8 := 0                         -- @ CQ_QSTAT.CODE 06 | 0
  tag : Tag := {}                              -- @ CQ_QSTAT.QSEQ/VALID 06 | 0
  nextSeq : BitVec 32 := 0                     -- @ CQ_NEXTSEQ 06 | 0
  fetched : List Cmd := []                     -- @ R124 (fetched, not dispatched) 06 | none
  disp : List Cmd := []                        -- @ R125 (dispatched, outstanding) 06 | none
deriving DecidableEq, Repr

/-- An event buffer of a partition (R138). -/
structure EvBuf where
  recs : List EvRec := []                      -- @ R138 06 | empty (at most 64)
  lost : BitVec 32 := 0                        -- @ R138 06 | 0
deriving DecidableEq, Repr

/-- A root port and what left through it (R145 to R148). -/
structure RootPort where
  exists_ : Bool := false                      -- @ R421 Table 6.7 06 | none before the pin stage
  up : Bool := false                           -- @ R148 06 | down
  lanes : Nat := 0                             -- @ R145 Table 6.7 06 | 0
  width : BitVec 8 := 0                        -- @ R148 06 | 0
  rate : BitVec 8 := 0                         -- @ R148 06 | 0
  out : List (Nat × Nat × BitVec 64) := []     -- @ R145 (posted writes sent: address, bytes, data) 06 | none
  cfg : List (BitVec 12 × BitVec 32) := []     -- @ R449 (writes to its configuration space, newest first) 06 | none
deriving DecidableEq, Repr

end Sys2Proof.Machine
end

