-- ==== Sys2Proof/Config.lean ====
section
/-! DEFINITION. What an implementation or a part fixes and the manual leaves open: constants without a body, so that
no proof can see their values (notes/assumptions 6 to 13 and 27 name each). -/
namespace Sys2Proof.Config

/-- A fresh open value: the step applies it to the counter `State.free`, which it then advances (log 6). -/
opaque freeWord : Nat → BitVec 64
/-- Data a PCIe device returns for a read of its window or a byte lane of it (R145; log 7). -/
opaque pcieRead : Nat → BitVec 64
/-- The part's unique identity, as fuses hold it (R402; log 8). -/
opaque uid : BitVec 64
/-- Grade fuse: true for the LX9-16E (R1, R361; log 8). -/
opaque gradeE : Bool
/-- Clamowin's firmware key, an affine P-384 point (R404; log 8). -/
opaque fwKey : BitVec 384 × BitVec 384
/-- Version of the firmware in copy 0 as shipped (R452; log 8). -/
opaque shippedFwVersion : BitVec 64
/-- CRC-32 of the data of a journal entry whose bytes the manual does not lay out, the state block and the training
results (Table 18.7; log 13). -/
opaque itemCrc : BitVec 64 → BitVec 32
/-- The fused voltage table V(step) of a managed domain in mV (R353; log 9). -/
opaque voltTable : Fin 5 → BitVec 6 → BitVec 10
/-- Whether a commanded voltage of half a millivolt reads rounded up in VOUT, by domain (R353, R367; log 9). -/
opaque voutRound : Fin 5 → Bool
/-- Error of an operator function within the 2 ulp that R185 allows, by its inputs and a code of the function: used
modulo 4, less 1, in steps above the truncated value (log 10). -/
opaque ulpError : List (BitVec 32) → BitVec 8 → Nat
/-- Interpolation error of a sin/cos pair within the ±2 counts that R301 allows: used modulo 5, less 2 (log 11). -/
opaque sincosError : BitVec 16 → BitVec 16 → Nat
/-- Whether a result of the transforms of a current loop that lies between two Q31 values takes the upper one, by currents
or voltages, angle and output: the manual does not give their rounding (R238; log 27). -/
opaque transformUp : List (BitVec 32) → BitVec 32 → Nat → Bool
/-- Whether a line a core holds dirty turns out uncorrectable as the core's reset writes it back, by core, line and draw
(R118; log 6). -/
opaque dirtyLost : Fin 48 → Nat → Nat → Bool
/-- The hash that spreads a stream over the live ports of a trunk (R204; log 12). -/
opaque trunkHash : BitVec 12 → BitVec 12 → BitVec 32 → Nat
/-- Stored full-frame CRC of the colour-bar pattern, by width and height (DISPTEST; log 12). -/
opaque barsPass : BitVec 16 → BitVec 16 → Bool
/-- Verdict of a built-in self test of a function, by its FID (SHTTEST, OPTEST, PEATTEST, TRDTEST, CANTEST; log 12). -/
opaque selfTest : Fid → BitVec 8
/-- Offsets of a root port's capability structures: PCI Express, power management, MSI, AER (R449; log 12). -/
opaque rpCap : Fin 4 → BitVec 12
/-- Content of a root port's own configuration space that the PCIe standard leaves to the part, by port, offset, the writes
made to it and the link's width and rate (R449; log 12). -/
opaque rpConfig : Fin 8 → BitVec 12 → List (BitVec 12 × BitVec 32) → BitVec 8 × BitVec 8 → BitVec 32
end Sys2Proof.Config
end

