-- ==== Sys2Proof/Machine/StIsland.lean ====
section
/-! DEFINITION. State of the Elevo island: rails and starts (spec/03), the plan loader (spec/02), the non-volatile
store and the service console (spec/18), meter points, boundary scan and ball levels (spec/19). -/
namespace Sys2Proof.Machine

/-- The three modes (R55). -/
inductive Mode | serviceOnly | servoOnly | full
deriving DecidableEq, Repr

/-- Start failure codes, field CODE of ELV_START_STATUS. -/
inductive StartCode | ok | rail | clock | fuse | plan | train | bist | latched
deriving DecidableEq, Repr

/-- What KIND of ELV_START_STATUS names: warm, cold, cold with extended checks, raise. -/
inductive StartKind | warm | cold | extended | raise
deriving DecidableEq, Repr

/-- Shutdown markers (R71). -/
inductive Marker | orderly | running | disorderly
deriving DecidableEq, Repr

/-- A start in progress (Table 3.3). -/
structure StartRun where
  step : BitVec 4
  kind : StartKind
  /-- 1 servo-only, 2 full. -/
  target : BitVec 2
  /-- The group being raised, 0 before step 4; and whether its 200 µs wait runs (R49). -/
  group : Nat := 0
  waiting : Bool := false
  /-- Slot chosen at step 6 (R38). -/
  slot : Option (Fin 2) := none
  reused : Bool := false
  /-- The start failed with this code; its rails are being dropped (R67). -/
  failed : Option StartCode := none
  /-- A rail failure of this start was recorded as disorderly (R50). -/
  bad : Bool := false
deriving DecidableEq, Repr

/-- Why rails are being dropped group by group: also a cold start from a running mode, and a servo-only start from
full mode. -/
inductive DropWhy | powerDown | failedStart | critical | restart | trim
deriving DecidableEq, Repr

/-- What the sequencer does besides a start. -/
inductive SeqState
  | idle
  /-- Grace wait of an orderly power-down (R69 step 3). -/
  | grace
  /-- Group `g` is deasserted and decays; then the 200 µs wait (R69 step 4). -/
  | dropping (why : DropWhy) (g : Nat) (waiting : Bool)
  /-- 200 µs after a rail failed during an orderly power-down (R70). -/
  | disorderly (rail : Fin 14) (step : Nat)
  /-- 500 ms before a retry (R67). -/
  | retry
deriving DecidableEq, Repr

/-- Rails, start and stop (block ELV). -/
structure Island where
  vaon : Bool := false                         -- @ R47 03 | not good (unpowered)
  mode : Mode := .serviceOnly                  -- @ R55 03 | service-only
  kind : StartKind := .warm                    -- @ ELV_START_STATUS.KIND 03 | 0 (after VAON good)
  reused : Bool := false                       -- @ ELV_START_STATUS.REUSED 03 | 0
  code : StartCode := .ok                      -- @ ELV_START_STATUS.CODE 03 | 0
  tag : Tag := {}                              -- @ ELV_START_STATUS.SSEQ/VALID 03 | 0
  hasResult : Bool := false                    -- @ R65 03 | false (every field reads 0 until the first result)
  cold : Bool := false                         -- @ ELV_START_CTRL.COLD 03 | 0
  target : BitVec 2 := 2                       -- @ ELV_START_CTRL.TARGET 03 | 2
  ign : BitVec 16 := 0                         -- @ ELV_START_IGN.COUNT 03 | 0
  enabled : BitVec 14 := 0                     -- @ ELV_RAIL_STATUS.ENABLED 03 | 0
  good : BitVec 14 := 0                        -- @ ELV_RAIL_STATUS.GOOD 03 | 0
  dis : Bool := false                          -- @ ELV_RAIL_STATUS.DISORDERLY 03 | 0 DESIGN CHOICE log 13
  grace : BitVec 8 := 20                       -- @ ELV_PDN_CTRL.GRACE 03 | 20
  stopStart : Bool := false                    -- @ R60 R65 (the power-down carries out a start request) 03 | false
  start : Option StartRun := none              -- @ R59 03 | none
  seqr : SeqState := .idle                     -- @ R69 R70 03 | idle
  prevFailed : Bool := false                   -- @ R61 03 | false
  recovDamaged : Bool := false                 -- @ R61 R409 03 | false
  fusesHeld : Bool := false                    -- @ R59 03 | false (no held fuse copy)
  refclk : Bool := true                        -- @ R51 03 | present DESIGN CHOICE log 13
  pll : Bool := false                          -- @ R52 03 | unlocked
  count : Time := 0                            -- @ R209 09 | 0
  keys : Vector (Option (Option (BitVec 384 × BitVec 384))) 4 := vrep 4 none -- @ R34 R402 02 | unprogrammed DESIGN CHOICE log 13
  hours : BitVec 32 := 0                       -- @ powered hours 18 | 0 DESIGN CHOICE log 13
  hourTq : Nat := 0                            -- @ powered hours (TQ of the hour begun) 18 | 0 DESIGN CHOICE log 13
  everFull : Bool := false                     -- @ R65 03 | false (host never released)
  ddrSize : Nat := 0                           -- @ R79 04 | 0 (untrained)
  trained : Bool := false                      -- @ R63 04 | false
  fwRun : Option (Fin 2) := none               -- @ R404 18 (copy the control clusters run) | none
deriving DecidableEq, Repr

/-- The 64-byte state block (Table 18.6). -/
structure StateBlock where
  marker : Marker := .disorderly               -- @ R452 18 | DISORDERLY
  target : BitVec 2 := 2                       -- @ R57 R452 18 | Full
  failCnt : BitVec 2 := 0                      -- @ R452 18 | 0
  latch : Bool := false                        -- @ R452 18 | clear
  rejA : Bool := false                         -- @ R452 18 | not rejected
  rejB : Bool := false                         -- @ R452 18 | not rejected
deriving DecidableEq, Repr

/-- A plan slot of the store. -/
inductive Slot
  | empty
  | valid (img : List Byte) (seq : BitVec 64)
deriving DecidableEq, Repr

/-- A firmware copy: its version, and whether its image passes verification (R404). -/
inductive FwCopy
  | empty
  | valid (version : BitVec 64) (img : List Byte)
deriving DecidableEq, Repr

/-- Stored memory training results (R63). -/
structure Training where
  hash : BitVec 384
  temp : BitVec 16
deriving DecidableEq, Repr

/-- A trim history record (Table 18.6). -/
structure TrimRec where
  domain : Fin 5
  trim : BitVec 5
  hours : BitVec 32
  d : BitVec 24
deriving DecidableEq, Repr

/-- A fault log entry (Table 18.8). -/
structure LogEntry where
  it : Time := 0
  lseq : BitVec 32 := 0
  fid : Fid := 0
  kind : BitVec 8 := 0
  cls : BitVec 8 := 0
  cause : BitVec 16 := 0
  bit : BitVec 8 := 0
  part : BitVec 8 := 0xFF
  hours : BitVec 32 := 0
  detail : BitVec 256 := 0
deriving DecidableEq, Repr

/-- One change of a store item, carried by one journal entry (R408). -/
inductive JWrite
  | block (b : StateBlock)
  | training (t : Training)
  | trim (r : TrimRec)
  | log (e : LogEntry)
  | slot (s : Fin 2) (v : Slot)
  | fw (c : Fin 2) (v : FwCopy)
  /-- Bytes of a plan transfer straight into its slot, which stays empty (R402). -/
  | slotData (s : Fin 2) (off : BitVec 32) (data : List Byte)
deriving DecidableEq, Repr

/-- A journal entry (Table 18.7); whether its COMMIT and its RELEASE word stand. -/
structure JEntry where
  jseq : BitVec 64
  item : BitVec 8
  copy : BitVec 8
  len : BitVec 32
  offset : BitVec 32
  dcrc : BitVec 32
  it : Time
  committed : Bool
  released : Bool
deriving DecidableEq, Repr

/-- The non-volatile store as its pointer words name it, and the journal (spec/18, 18.7). -/
structure Store where
  block : StateBlock := {}                     -- @ Table 18.6 R452 18 | as shipped
  work : StateBlock := {}                      -- @ MODEL (island's working copy of the state block) 18 | as the block
  slotA : Slot := .empty                       -- @ R452 18 | empty
  slotB : Slot := .empty                       -- @ R452 18 | empty
  fw0 : FwCopy := .valid Config.shippedFwVersion []  -- @ R452 18 | valid, shipped version
  fw1 : FwCopy := .empty                       -- @ R452 18 | empty
  training : Option Training := none           -- @ R452 18 | none
  trims : List TrimRec := []                   -- @ R452 18 | empty (newest first, at most 4,096)
  log : List LogEntry := []                    -- @ R452 18 | empty (newest first, at most 512)
  logSeq : BitVec 32 := 0                      -- @ NVS_LOGSEQ 18 | 0
  logNext : BitVec 32 := 0                     -- @ MODEL (LSEQ of the newest requested entry) 18 | 0
  queue : List JWrite := []                    -- @ R410 18 | empty
  jseq : BitVec 64 := 0                        -- @ Table 18.7 R452 (newest entry's) 18 | 0
  journal : List JEntry := []                  -- @ Table 18.7 R408 R452 (newest first, at most 2,048) 18 | empty
  copies : BitVec 2 := 0                       -- @ R408 (copy in effect: state block, training results) 18 | 0 DESIGN CHOICE log 13
  trimNext : BitVec 12 := 0                    -- @ R408 (ring head of the trim history) 18 | 0 DESIGN CHOICE log 13
  lost : Option (JWrite × LossPoint) := none   -- @ R407 Table 18.9 18 | none
  recov : BitVec 2 := 0                        -- @ NVS_STAT.RECOV 18 | 0 DESIGN CHOICE log 13
  items : BitVec 8 := 0                        -- @ NVS_STAT.ITEMS 18 | 0 DESIGN CHOICE log 13
deriving DecidableEq, Repr

/-- What the loader is doing (WRP_STATUS.BUSY). -/
inductive WrpJob
  | none
  | apply
  | reloadCompare (part : Fin 32) (slot : Fin 2) (force : Bool)
  | reloadStages (part : Fin 32) (slot : Fin 2)
  | store (slot : Fin 2) (img : List Byte) (refusal : BitVec 8)
  /-- The check of a plan that a signed transfer brought (R402). -/
  | transfer
deriving DecidableEq, Repr

/-- The warp plan loader (block WRP). -/
structure Loader where
  active : Option (Fin 2) := .none             -- @ WRP_STATUS.ACTIVE 02 | 0
  plan : List Byte := []                       -- @ R38 (image of the active plan) 02 | none
  isSealed : Bool := false                         -- @ WRP_STATUS.SEALED 02 | 0
  stage : BitVec 4 := 0                        -- @ WRP_STATUS.STAGE 02 | 0
  seq : BitVec 64 := 0                         -- @ WRP_SEQ 02 | 0
  code : BitVec 8 := 0                         -- @ WRP_RESULT.CODE 02 | 0
  rstage : BitVec 4 := 0                       -- @ WRP_RESULT.STAGE 02 | 0
  part : BitVec 5 := 0                         -- @ WRP_RESULT.PART 02 | 0
  kind : BitVec 2 := 0                         -- @ WRP_RESULT.KIND 02 | 0
  tag : Tag := {}                              -- @ WRP_RESULT.RSEQ/VALID 02 | 0
  ofs : BitVec 32 := 0                         -- @ WRP_RESULT_OFS 02 | 0
  ign : BitVec 16 := 0                         -- @ WRP_IGNCNT 02 | 0
  hash : BitVec 384 := 0                       -- @ WRP_HASH0-5 02 | 0 (first byte most significant)
  relPart : BitVec 5 := 0                      -- @ WRP_RELOAD.PART 02 | 0
  relSlot : Bool := false                      -- @ WRP_RELOAD.SLOT 02 | 0
  relForce : Bool := false                     -- @ WRP_RELOAD.FORCE 02 | 0
  storeAddr : Pa := 0                          -- @ WRP_STORE_ADDR 02 | 0
  storeLen : BitVec 23 := 0                    -- @ WRP_STORE_LEN 02 | 0
  storeSlot : Bool := false                    -- @ WRP_STORE_CTRL.SLOT 02 | 0
  job : WrpJob := .none                        -- @ R44 02 | none
deriving DecidableEq, Repr

/-- An unsolicited line held for sending (Table 18.2). -/
inductive ULine
  | start (mode : Mode) (code : StartCode)
  | stop (mark : Marker)
  | linkDown (p : Fin 16) (cause : BitVec 4)
  | linkUp (p : Fin 16)
  | axis (a : Fin 32) (state cause port : Nat)
  | fault (fid : Fid) (cls : Nat) (cause : BitVec 12)
  | fence (p : Fin 32) (byFid : Fid)
  | freeze (code : BitVec 8) (fseq : BitVec 32)
  | temp (g : Fin 14) (t : BitVec 16)
  | xfer (kind : Nat) (code : String) (res : BitVec 8)
  | lockLapsed
  | lost (n : Nat)
deriving DecidableEq, Repr

/-- A reply line: its sign, command word, reason after "?" and fields after "=" (R397). -/
structure Reply where
  ok : Bool
  word : String
  args : List Nat := []
  reason : String := ""
  fields : List (String × Nat) := []
deriving DecidableEq, Repr

/-- An open signed transfer (R402). -/
structure Xfer where
  kind : XferKind
  /-- Bytes written so far, by offset, rising. -/
  buf : List (Nat × Byte) := []
  /-- XFER END was given and the check runs. -/
  ended : Bool := false
deriving DecidableEq, Repr

/-- The service port and console (spec/18). -/
structure Console where
  locked : Bool := false                       -- @ ELV_SVC.LOCKED 18 | 0
  baud : BitVec 3 := 0                         -- @ ELV_SVC.BAUD 18 | 0 (115200)
  xfer : Option Xfer := none                   -- @ ELV_SVC.XFER R402 18 | none
  held : List ULine := []                      -- @ R398 18 | empty
  lost : Nat := 0                              -- @ R398 18 | 0
  reply : Option Reply := none                 -- @ R397 (last reply sent) 18 | none
  lineAt : Nat := 0                            -- @ R399 (powered time of the last line that passed its check) 18 | 0
  sent : Option ULine := none                  -- @ R398 (last unsolicited line sent) 18 | none
  mp : Vector MpSource 8 := vrep 8 .off        -- @ R405 18 | OFF
deriving DecidableEq, Repr

/-- TAP instructions (Table 19.8). -/
inductive TapInstr | extest | sample | idcode | clamp | highz | bypass
deriving DecidableEq, Repr

/-- Boundary scan (R428, R429). -/
structure Tap where
  instr : TapInstr := .idcode                  -- @ R428 19 | IDCODE (IEEE 1149.1) PRESUMED log 14
  boundary : List (Nat × Bool) := []           -- @ R428 (boundary register, by signal index) 19 | empty DESIGN CHOICE log 14
  captured : List (Nat × Bool) := []           -- @ R428 (captured levels) 19 | empty DESIGN CHOICE log 14
  reset : Bool := true                         -- @ R428 (Test-Logic-Reset) 19 | true
deriving DecidableEq, Repr

/-- A pin function entry in effect (Table 2.5). -/
structure PinCfg where
  func : BitVec 8
  drive : BitVec 2
  pull : BitVec 2
  invert : Bool
  safe : BitVec 2
  filter : BitVec 8
  owner : BitVec 5
deriving DecidableEq, Repr

end Sys2Proof.Machine
end

