-- ==== Sys2Proof/Machine/StMisc.lean ====
section
/-! DEFINITION. State of the display compositor (spec/15), the power manager and monitors (spec/16), fault slots,
selvedges, resets and freeze (spec/17), and partition membership (spec/02). -/
namespace Sys2Proof.Machine

/-- Registers of one layer (Table 15.2). -/
structure LayerCfg where
  en : Bool := false                           -- @ LnCFG.EN 15 | 0
  fmt : BitVec 3 := 0                          -- @ LnCFG.FMT 15 | 0
  premul : Bool := false                       -- @ LnCFG.PREMUL 15 | 0
  static_ : Bool := false                      -- @ LnCFG.STATIC 15 | 0
  ga : BitVec 8 := 255                         -- @ LnCFG.GA 15 | 255
  addr : Pa := 0                               -- @ LnADDR 15 | 0
  stride : BitVec 16 := 0                      -- @ LnSTRIDE 15 | 0
  srcW : BitVec 13 := 0                        -- @ LnSRC 15 | 0
  srcH : BitVec 13 := 0                        -- @ LnSRC 15 | 0
  posX : BitVec 13 := 0                        -- @ LnPOS 15 | 0
  posY : BitVec 13 := 0                        -- @ LnPOS 15 | 0
  dstW : BitVec 13 := 0                        -- @ LnDST 15 | 0
  dstH : BitVec 13 := 0                        -- @ LnDST 15 | 0
  colour : BitVec 30 := 0                      -- @ LnCOLOUR 15 | 0
  clut : WordMap 32 := []                      -- @ CLUT 15 | 0
  /-- Coefficient words by phase: 0 to 63 horizontal, 64 to 127 vertical, each (c0, c1, c2, c3) from bit 0. -/
  coef : WordMap 64 := []                      -- @ coefficients R342 15 | (0, 256, 0, 0) in every phase
deriving DecidableEq, Repr

/-- Registers of one signature region. -/
structure SigCfg where
  mode : BitVec 2 := 0                         -- @ SIGCFG.MODE 15 | 0
  x : BitVec 13 := 0                           -- @ SIGPOS 15 | 0
  y : BitVec 13 := 0                           -- @ SIGPOS 15 | 0
  w : BitVec 13 := 0                           -- @ SIGSIZE 15 | 0
  h : BitVec 13 := 0                           -- @ SIGSIZE 15 | 0
  exp : BitVec 32 := 0                         -- @ SIGEXP 15 | 0
deriving DecidableEq, Repr

/-- The shadow set, and the active set that is its copy. -/
structure DspSet where
  errcol : BitVec 30 := 0x3FF00000             -- @ DSP_ERRCOL 15 | 0x3FF0_0000
  bg : BitVec 30 := 0                          -- @ DSP_BG 15 | 0
  layer : Vector LayerCfg 6 := vrep 6 {}       -- @ 15.7 15 | reset
  sig : Vector SigCfg 8 := vrep 8 {}           -- @ 15.7 15 | reset
deriving DecidableEq, Repr

/-- Result of one signature region. -/
structure SigRes where
  crc : BitVec 32 := 0                         -- @ SIGRES.CRC 15 | 0
  compared : Bool := false                     -- @ SIGRES.COMPARED 15 | 0
  match_ : Bool := false                       -- @ SIGRES.MATCH 15 | 0
  tag : Tag := {}                              -- @ SIGRES.SSEQ/VALID 15 | 0
  it : Time := 0                               -- @ SIGIT 15 | 0
  learned : Bool := false                      -- @ R348 (MODE 2 has its expected value) 15 | false
  /-- Mismatched in the last completed frame, and in the present one so far (R350, R383). -/
  badLast : Bool := false                      -- @ R350 15 | false
  badNow : Bool := false                       -- @ R350 15 | false
deriving DecidableEq, Repr

/-- The display record in effect (Table 2.8). -/
structure DspRec where
  lanes : BitVec 3
  rate : BitVec 3
  hact : BitVec 16
  vact : BitVec 16
  pclk : BitVec 32
  sigmask : BitVec 8
  sigreact : BitVec 8
deriving DecidableEq, Repr

/-- DSP_STAT.LINK. -/
inductive DpLink | off | down | training | up
deriving DecidableEq, Repr

/-- The display compositor (block DSP). -/
structure Display where
  held : Bool := true                          -- @ R28 02 | held until assigned
  rec_ : Option DspRec := none                 -- @ R35 02 | none (ENABLE 0)
  link : DpLink := .off                        -- @ DSP_STAT.LINK 15 | 0
  lanes : BitVec 3 := 0                        -- @ DSP_STAT.LANES 15 | 0
  rate : BitVec 2 := 0                         -- @ DSP_STAT.RATE 15 | 0
  hpd : Bool := false                          -- @ DSP_STAT.HPD 15 | 0
  flat : Bool := false                         -- @ DSP_STAT.FLAT 15 | 0
  flatn : BitVec 3 := 0                        -- @ DSP_STAT.FLATN 15 | 0
  /-- The flatten cache: bounding rectangle x, y, w, h and its pixels in raster order (R346). -/
  cacheRect : Option (Nat × Nat × Nat × Nat) := none -- @ R346 15 | empty
  cache : List (BitVec 30) := []               -- @ R346 15 | empty
  /-- The stack is composed into the cache during this frame and used from the next (R346). -/
  cacheNew : Bool := false                     -- @ R346 15 | false
  errscr : Bool := false                       -- @ DSP_STAT.ERRSCR 15 | 0
  errNext : Bool := false                      -- @ R349 (shown from the next commit point) 15 | false
  clearReq : Bool := false                     -- @ R350 15 | false
  pend : Bool := false                         -- @ DSP_STAT.PEND 15 | 0
  goIt : Time := 0                             -- @ R345 (time of the GO write) 15 | 0
  evt : Bool := false                          -- @ DSP_COMMIT.EVT 15 | 0
  ccode : BitVec 8 := 0                        -- @ DSP_CSTAT.CODE 15 | 0
  ctag : Tag := {}                             -- @ DSP_CSTAT.CSEQ/VALID 15 | 0
  cit : Time := 0                              -- @ DSP_CIT 15 | 0
  under : BitVec 16 := 0                       -- @ DSP_CNT.UNDER 15 | 0
  fetchErr : BitVec 16 := 0                    -- @ DSP_CNT.FETCHERR 15 | 0
  mismatch : BitVec 16 := 0                    -- @ DSP_CNT.MISMATCH 15 | 0
  ign : BitVec 16 := 0                         -- @ DSP_CNT.IGN 15 | 0
  frame : Time := 0                            -- @ R336 (C_k of the frame in progress) 15 | 0
  /-- Layers transparent from a raster pixel on until the next applied commit (R344). -/
  dead : List (Fin 6 × Nat) := []              -- @ R344 15 | none
  /-- Underflowed pixels of the frame in progress (R344). -/
  missed : List (Fin 6 × Nat) := []            -- @ R344 15 | none
  blank : Bool := false                        -- @ R351 (DSP_BG alone) 15 | false
  shadow : DspSet := {}                        -- @ 15.7 15 | reset
  active : DspSet := {}                        -- @ 15.7 15 | reset
  sigres : Vector SigRes 8 := vrep 8 {}        -- @ 15.7 15 | 0
deriving DecidableEq, Repr

/-- The PMBus commands that the island issues (R368). -/
inductive PmbCmd
  | page | voutMode | voutCommand | readVout | readIout | readPout | readTemperature1 | statusWord | clearFaults
deriving DecidableEq, Repr

/-- A transaction to the regulator of a sequenced rail, with the data that the island sends (R368). -/
structure PmbTx where
  rail : Fin 14
  cmd : PmbCmd
  data : List Byte := []
deriving DecidableEq, Repr

/-- One managed domain (Table 16.2). -/
structure Domain where
  step : BitVec 6 := 0                         -- @ PWR_DOM.STEP 16 | 0
  cap : BitVec 6 := 0                          -- @ PWR_DOM.CAP 16 | 0
  loop : BitVec 6 := 0                         -- @ PWR_DOM.LOOP 16 | 0
  vout : BitVec 10 := 0                        -- @ PWR_DOM.VOUT 16 | 0
  limiter : BitVec 2 := 0                      -- @ PWR_DOM.LIMITER 16 | 0
  vexp : BitVec 5 := 0x14                      -- @ R368 (exponent that VOUT_MODE last gave) 16 | DESIGN CHOICE -12
  tag : Tag := {}                              -- @ PWR_DOM.DSEQ/VALID 16 | 0
  stretchCnt : BitVec 32 := 0                  -- @ PWR_CNT.STRETCH 16 | 0
  lowers : BitVec 16 := 0                      -- @ PWR_CNT (step lowerings) 16 | 0
  raises : BitVec 16 := 0                      -- @ PWR_CNT (step raises) 16 | 0
  stretching : Bool := false                   -- @ R355 16 | false
  gain : BitVec 32 := 0x10000                  -- @ R356 (estimator gain, 16.16) 16 | 1 DESIGN CHOICE log 18
  raw : BitVec 32 := 0                         -- @ R356 (raw estimate, mW) 16 | 0
  /-- A raise waits for this step's voltage (R353). -/
  raiseTo : Option (BitVec 6) := none          -- @ R353 16 | none
  byCur : Bool := false                        -- @ PWR_DOM.LIMITER R357 (last lowered by its own current) 16 | false
  lowSince : Time := 0                         -- @ R353 (its step has not risen since) 16 | 0
  trim : BitVec 5 := 0                         -- @ MON_AGE.TRIM 16 | 0
  d : BitVec 24 := 0                           -- @ MON_AGE.D 16 | 0
  ageHours : BitVec 24 := 0                    -- @ MON_AGE (powered hours) 16 | 0
  ageTag : Tag := {}                           -- @ MON_AGE.ASEQ/VALID 16 | 0
deriving DecidableEq, Repr

/-- The power manager and the monitors (blocks PWR and MON). -/
structure Power where
  limited : Bool := false                      -- @ R357 (the plan has a package record) 16 | plan (false before it)
  limit : BitVec 11 := 0                       -- @ PWR_STAT.LIMIT 16 | plan (0 before it)
  mode1 : Bool := false                        -- @ PWR_STAT.MODE 16 | plan (0 before it)
  pmbErr : Bool := false                       -- @ PWR_STAT.PMBERR 16 | 0
  pacing : Bool := false                       -- @ PWR_STAT.PACING 16 | 0
  pcause : BitVec 2 := 0                       -- @ PWR_STAT.PCAUSE 16 | 0
  ratio : BitVec 8 := 0                        -- @ PWR_STAT.RATIO 16 | 0
  pest : BitVec 32 := 0                        -- @ PWR_PEST.PEST 16 | 0
  ptag : Tag := {}                             -- @ PWR_PEST.PSEQ/VALID 16 | 0
  dom : Vector Domain 5 := vrep 5 {}           -- @ 16.9 16 | reset
  thresh : BitVec 8 := 243                     -- @ PWR_PACE.THRESH 16 | 243
  hold : BitVec 16 := 2000                     -- @ PWR_PACE.HOLD 16 | 2000
  paceCnt : BitVec 16 := 0                     -- @ PWR_PACECNT 16 | 0
  lastRatio : BitVec 8 := 0                    -- @ R364 16 | 0
  lastSent : Time := 0                         -- @ R364 16 | 0
  lastUntil : Time := 0                        -- @ R364 16 | 0
  frac : Vector (BitVec 16) 4 := vrep 4 0      -- @ R363 (stretched fraction of each die, 2^-16) 16 | 0
  slow : Bool := false                         -- @ R363 (RATIO is below THRESH) 16 | false
  slowSince : Time := 0                        -- @ R363 R364 (RATIO crossed THRESH) 16 | 0
  calm : Nat := 0                              -- @ R357 (evaluations in a row below 95 %) 16 | 0
  railPow : Vector (BitVec 32) 14 := vrep 14 0 -- @ R356 (READ_POUT of the last calibration, mW) 16 | 0
  energy : Nat := 0                            -- @ R370 (integral of P_est since the last update, nJ) 16 | 0
  bus : List PmbTx := []                       -- @ R368 (the last transactions the island issued) 16 | none
  issue : Vector (BitVec 4) 32 := vrep 32 8    -- @ R360 (issue rate of a partition's tiles, eighths) 16 | 8
  budget : Vector (BitVec 16) 32 := vrep 32 0  -- @ Table 2.6 02 | 0
  prio : Vector (BitVec 8) 32 := vrep 32 0     -- @ Table 2.6 02 | 0
  etag : Tag := {}                             -- @ PWR_ESEQ 16 | 0
  echip : BitVec 64 := 0                       -- @ PWR_ECHIP 16 | 0
  ecommon : BitVec 64 := 0                     -- @ PWR_ECOMMON 16 | 0
  epart : Vector (BitVec 64) 32 := vrep 32 0   -- @ PWR_EPART 16 | 0
  temp : Vector (BitVec 16) 14 := vrep 14 0    -- @ MON_TEMP 16 | 0
  tempTag : Vector Tag 14 := vrep 14 {}        -- @ MON_TEMP.TSEQ/VALID 16 | 0
  crit : Vector Bool 14 := vrep 14 false       -- @ R362 (critical at the last evaluation) 16 | false
  hotSent : Bool := false                      -- @ R362 16 | false
  refresh2 : BitVec 8 := 0                     -- @ R361 (doubled refresh, by stack) 16 | 0
  rail : Vector (BitVec 16) 16 := vrep 16 0    -- @ MON_RAIL 16 | 0
  railTag : Vector Tag 16 := vrep 16 {}        -- @ MON_RAIL.RSEQ/VALID 16 | 0
deriving DecidableEq, Repr

/-- One fault status slot (17.3). The duplicate copy holds the same layout. -/
structure FltStat where
  cause : BitVec 12 := 0                       -- @ FLT_STAT.CAUSE 17 | 0
  first : BitVec 4 := 0                        -- @ FLT_STAT.FIRST 17 | 0
  tag : Tag := {}                              -- @ FLT_STAT.FSEQ/VALID 17 | 0
deriving DecidableEq, Repr

/-- The slot of one function: FLT_STAT, its duplicate and its companions. -/
structure FltSlot where
  a : FltStat := {}                            -- @ FLT_STAT 17 | 0
  b : FltStat := {}                            -- @ FLT_STATB 17 | 0
  ien : BitVec 12 := 0xFFE                     -- @ FLT_IEN 17 | 0xFFE
  corr : BitVec 16 := 0                        -- @ FLT_CNT.CORRCNT 17 | 0
  refused : BitVec 16 := 0                     -- @ FLT_CNT.REFUSED 17 | 0
  fence : Bool := false                        -- @ R380 (function fence stands) 17 | false
  /-- Causes whose condition a reset since has removed (R383: UNCORR, WATCHDOG, SHARED). -/
  stale : BitVec 12 := 0                       -- @ R383 17 | 0
  /-- What set OUTPUT: bit 0 clock loss, 1 CABLE, 2 engine, 3 channel DUP, 4 law or following error. -/
  outWhy : BitVec 5 := 0                       -- @ R383 17 | 0
  /-- A reset or release is in progress: its action, requesting set (32 for the console) (R386). -/
  busy : Option (Bool × Fin 33) := none        -- @ R386 17 | none
deriving DecidableEq, Repr

/-- One partition's selvedge (SEL) and request set (RST). -/
structure Part where
  fenced : Bool := false                       -- @ SEL_PSTAT.FENCED 17 | 0
  byFid : Fid := 0                             -- @ SEL_PSTAT.BYFID 17 | 0
  refused : BitVec 8 := 0                      -- @ SEL_PSTAT.REFUSED 17 | 0
  reqFid : Fid := 0                            -- @ RST_REQ.FID 17 | 0
  reqAct : BitVec 2 := 0                       -- @ RST_REQ.ACTION 17 | 0
  resFid : Fid := 0                            -- @ RST_RES.FID 17 | 0
  resAct : BitVec 2 := 0                       -- @ RST_RES.ACTION 17 | 0
  resCode : BitVec 8 := 0                      -- @ RST_RES.CODE 17 | 0
  resTag : Tag := {}                           -- @ RST_RES.RSEQ/VALID 17 | 0
  ign : BitVec 16 := 0                         -- @ RST_IGN 17 | 0
  reqBusy : Bool := false                      -- @ R386 (the set's request in progress) 17 | false
  /-- Membership: the partition record in effect, its fields by function (Table 2.4). -/
  assigned : Bool := false                     -- @ R28 02 | unassigned
  tiles : BitVec 64 := 0                       -- @ Table 2.4 02 | 0
  cores : BitVec 48 := 0                       -- @ Table 2.4 02 | 0
  shuttle : BitVec 16 := 0                     -- @ Table 2.4 02 | 0
  axes : BitVec 32 := 0                        -- @ Table 2.4 02 | 0
  treadle : BitVec 8 := 0                      -- @ Table 2.4 02 | 0
  units : BitVec 8 := 0                        -- @ Table 2.4 02 | 0
  rports : BitVec 8 := 0                       -- @ Table 2.4 02 | 0
  clusters : BitVec 8 := 0                     -- @ Table 2.4 02 | 0
  fbk : BitVec 40 := 0                         -- @ Table 2.4 02 | 0
  peat : BitVec 8 := 0                         -- @ Table 2.4 02 | 0
  grh : BitVec 16 := 0                         -- @ Table 2.4 02 | 0
deriving DecidableEq, Repr

/-- A pending freeze (R389). -/
structure FrzPend where
  t : Time
  /-- 0 local, 1 installation, 2 fault, 3 console. -/
  source : BitVec 4
  late : Bool
  origin : BitVec 12
deriving DecidableEq, Repr

/-- What a freeze latched, waiting for its image to be written (R390). -/
structure FrzImage where
  it : Time
  source : BitVec 4
  late : Bool
  holdover : Bool
  origin : BitVec 12
  tsc : BitVec 32
  fbk : Vector (BitVec 64 × Bool) 40
  /-- Position setpoint, position feedback, velocity, q current and STATE of each axis. -/
  axes : Vector (BitVec 64 × BitVec 64 × BitVec 32 × BitVec 32 × BitVec 3) 32
deriving DecidableEq, Repr

/-- The freeze block (Table 17.10). -/
structure Freeze where
  onFault : Bool := false                      -- @ FRZ_CFG.ONFAULT 17 | 0
  fabric : Bool := false                       -- @ FRZ_CFG.FABRIC 17 | 0
  pmask : BitVec 32 := 0                       -- @ FRZ_PMASK 17 | 0
  base : BitVec 29 := 0                        -- @ FRZ_BASE[43:15] 17 | 0
  maddr : BitVec 41 := 0                       -- @ FRZ_MADDR[43:3] 17 | 0
  mlen : BitVec 12 := 0                        -- @ FRZ_MLEN 17 | 0
  arm : Time := 0                              -- @ FRZ_ARM 17 | 0
  pending : Option FrzPend := none             -- @ FRZ_STAT.PENDING 17 | 0
  writing : Option FrzImage := none            -- @ FRZ_STAT.WRITING 17 | 0
  code : BitVec 8 := 0                         -- @ FRZ_RES.CODE 17 | 0
  source : BitVec 4 := 0                       -- @ FRZ_RES.SOURCE 17 | 0
  late : Bool := false                         -- @ FRZ_RES.LATE 17 | 0
  holdover : Bool := false                     -- @ FRZ_RES.HOLDOVER 17 | 0
  fseq : BitVec 32 := 0                        -- @ FRZ_RES.FSEQ 17 | 0
  images : BitVec 32 := 0                      -- @ R390 (count of images written) 17 | 0
  tag : Tag := {}                              -- @ FRZ_RES.RSEQ/VALID 17 | 0
  it : Time := 0                               -- @ FRZ_IT 17 | 0
  skip : BitVec 16 := 0                        -- @ FRZ_CNT.SKIP 17 | 0
  disc : BitVec 16 := 0                        -- @ FRZ_CNT.DISC 17 | 0
  oseq : BitVec 16 := 0                        -- @ R391 (this chip's order count) 17 | 0
  seen : List (BitVec 12 × BitVec 16) := []    -- @ R391 (orders seen) 17 | none
  orders : List FrzOrder := []                 -- @ R391 (orders relayed until T) 17 | none
deriving DecidableEq, Repr

end Sys2Proof.Machine
end

