-- ==== Sys2Proof/Machine/StServo.lean ====
section
/-! DEFINITION. State of the servo subsystem: axes and laws (spec/11), Treadle engines (spec/12), position feedback,
compare and capture (spec/13), CAN controllers (spec/14). -/
namespace Sys2Proof.Machine

/-- A law as stage 7 loaded it (Table 2.7, Table 11.4). -/
structure Law where
  float : Bool
  struct_ : BitVec 8
  /-- Value and SHIFT of each coefficient. -/
  coef : List (BitVec 32 × BitVec 8)
deriving DecidableEq, Repr

/-- State of one law instance (Table 11.4), Q31 or binary32 words. -/
structure LawState where
  i : BitVec 32 := 0                           -- @ R246 R248 11 | 0
  d : BitVec 32 := 0                           -- @ R246 11 | 0
  ePrev : BitVec 32 := 0                       -- @ R246 11 | 0
  spPrev : BitVec 32 := 0                      -- @ R246 11 | 0
  /-- x1, x2, y1, y2 of each biquad section. -/
  bq : Vector (Vector (BitVec 32) 4) 3 := vrep 3 (vrep 4 0) -- @ R246 11 | 0
deriving DecidableEq, Repr

/-- Axis states (Table 11.3). -/
inductive AxState | disabled | enabled | stopping | safe | held
deriving DecidableEq, Repr

/-- A path segment (Table 11.6). -/
structure Segment where
  type : BitVec 8
  startAt : Bool
  event : Bool
  partner : BitVec 8
  dur : BitVec 32
  startIt : Time
  p1 : BitVec 64
  v1 : BitVec 64
  ca : BitVec 64
  cb : BitVec 64
  angle : BitVec 64
  /-- When it was pushed. -/
  pushed : Time
deriving DecidableEq, Repr

/-- What a running segment is on this axis (R257). -/
inductive SegRole
  /-- Not yet begun: its start time has not come. -/
  | ahead
  | own
  /-- The partner of a circular segment. -/
  | partner
  /-- Runs as a dwell. -/
  | dwell
deriving DecidableEq, Repr

/-- The segment in progress: where and when it began, and the end velocity before it in counts per position tick, as
numerator and denominator (R256, R257). -/
structure SegRun where
  seg : Segment
  role : SegRole := .ahead
  tStart : Time
  /-- Duration in TQ. -/
  dur : Nat
  p0 : BitVec 64
  vNum : Int
  vDen : Nat
  /-- Start point of a circular segment on the other axis of the pair. -/
  q0 : BitVec 64 := 0
deriving DecidableEq, Repr

/-- What an axis's last tick sequence left for the engine's ports (Table 12.7). -/
structure TickImage where
  state : BitVec 32 := 0
  posfb : BitVec 64 := 0
  velfb : BitVec 32 := 0
  iq : BitVec 32 := 0
  spp : BitVec 64 := 0
  spv : BitVec 32 := 0
  spc : BitVec 32 := 0
  laneff : BitVec 32 := 0
deriving DecidableEq, Repr

/-- The axis record in effect (Table 2.7). -/
structure AxisRec where
  mode : BitVec 8
  motor : BitVec 8
  fbkA : BitVec 8
  fbkB : BitVec 8
  curDiv : BitVec 16
  velDiv : BitVec 16
  posDiv : BitVec 16
  pwmPer : BitVec 16
  sdiBase : BitVec 8
  lawC : BitVec 8
  lawV : BitVec 8
  lawP : BitVec 8
  lane : BitVec 8
  posLane : Bool
  safeState : BitVec 8
  hstop : BitVec 4
  dead : BitVec 16
deriving DecidableEq, Repr

/-- One axis (block AXS). -/
structure Axis where
  rec_ : Option AxisRec := none                -- @ R35 02 | none
  laws : Vector (Option Law) 3 := vrep 3 none  -- @ R248 R275 (current, velocity, position: the law store) 11 | none
  st : AxState := .held                        -- @ AXS_STATE.STATE 11 | 4
  src : BitVec 2 := 0                          -- @ AXS_STATE.SRC 11 | 0
  aligned : Bool := true                       -- @ AXS_STATE.ALIGNED 11 | 1
  laneHold : Bool := false                     -- @ AXS_STATE.LANE_HOLD 11 | 0
  taken : Bool := false                        -- @ AXS_STATE.TAKEN 11 | 0
  sp : BitVec 64 := 0                          -- @ AXS_SP 11 | 0
  spd : BitVec 32 := 0                         -- @ AXS_SPD 11 | 0
  decel : BitVec 32 := 0                       -- @ AXS_DECEL 11 | 0
  felim : BitVec 32 := 0                       -- @ AXS_FELIM 11 | 0
  hook : BitVec 32 := 0                        -- @ AXS_HOOK 11 | 0
  holdMax : BitVec 8 := 0                      -- @ AXS_LANECFG.HOLDMAX 11 | 0
  cOrder : BitVec 3 := 0                       -- @ AXS_CONFLICT.ORDER 11 | 0
  cLrank : BitVec 3 := 0                       -- @ AXS_CONFLICT.LRANK 11 | 0
  cLport : BitVec 8 := 0                       -- @ AXS_CONFLICT.LPORT 11 | 0
  cWrank : BitVec 3 := 0                       -- @ AXS_CONFLICT.WRANK 11 | 0
  cWport : BitVec 8 := 0                       -- @ AXS_CONFLICT.WPORT 11 | 0
  cStanding : Bool := false                    -- @ AXS_CONFLICT.STANDING 11 | 0
  ctag : Tag := {}                             -- @ AXS_CONFLICT.CSEQ/VALID 11 | 0
  dlMiss : BitVec 16 := 0                      -- @ AXS_CNT.DLMISS 11 | 0
  fbkStale : BitVec 16 := 0                    -- @ AXS_CNT.FBKSTALE 11 | 0
  laneMiss : BitVec 16 := 0                    -- @ AXS_CNT.LANEMISS 11 | 0
  ign : BitVec 16 := 0                         -- @ AXS_CNT.IGN 11 | 0
  otag : Tag := {}                             -- @ AXS_OBS_SEQ 11 | 0
  obsPos : BitVec 64 := 0                      -- @ AXS_OBS_POS 11 | 0
  obsVel : BitVec 32 := 0                      -- @ AXS_OBS_VEL[31:0] 11 | 0
  obsIq : BitVec 32 := 0                       -- @ AXS_OBS_VEL[63:32] 11 | 0
  seg : Vector (BitVec 64) 8 := vrep 8 0       -- @ AXS_SEG0-7 11 | 0
  segq : List Segment := []                    -- @ AXS_SEGSTAT.DEPTH R256 11 | 0 (empty)
  segRefused : BitVec 8 := 0                   -- @ AXS_SEGSTAT.REFUSED 11 | 0
  lateStart : Bool := false                    -- @ AXS_SEGSTAT.LATE_START 11 | 0
  segRun : Option SegRun := none               -- @ R256 11 | none
  segEnd : Option Time := none                 -- @ R256 (end time of the last segment) 11 | none
  segVNum : Int := 0                           -- @ R257 (end velocity of the last segment) 11 | 0
  segVDen : Nat := 1                           -- @ R257 (its denominator) 11 | 1
  gearKind : BitVec 2 := 0                     -- @ AXS_GEAR_SRC.KIND 11 | 0
  gearIndex : BitVec 8 := 0                    -- @ AXS_GEAR_SRC.INDEX 11 | 0
  gearNum : BitVec 32 := 0                     -- @ AXS_GEAR_RATIO.NUM 11 | 0
  gearDen : BitVec 32 := 0                     -- @ AXS_GEAR_RATIO.DEN 11 | 0
  mRef : BitVec 64 := 0                        -- @ R258 11 | 0
  offset : BitVec 64 := 0                      -- @ R258 11 | 0
  camMper : BitVec 32 := 0                     -- @ AXS_CAMCFG.MPER 11 | 0
  camBank : Bool := false                      -- @ AXS_CAMCFG.BANK 11 | 0
  camUse : Bool := false                       -- @ R259 (bank in use) 11 | 0
  camN : BitVec 64 := 0                        -- @ R259 (last n, to see a wrap) 11 | 0
  camLift : BitVec 64 := 0                     -- @ AXS_CAMLIFT 11 | 0
  cam0 : WordMap 32 := []                      -- @ cam bank 0 11 | 0
  cam1 : WordMap 32 := []                      -- @ cam bank 1 11 | 0
  lsC : LawState := {}                         -- @ R246 (current law, q or single) 11 | 0
  lsD : LawState := {}                         -- @ R238 (current law, d) 11 | 0
  lsV : LawState := {}                         -- @ R246 (velocity law) 11 | 0
  lsP : LawState := {}                         -- @ R246 (position law) 11 | 0
  spp : BitVec 64 := 0                         -- @ R239 (position setpoint in effect) 11 | 0
  spv : BitVec 32 := 0                         -- @ R239 (velocity setpoint in effect) 11 | 0
  spc : BitVec 32 := 0                         -- @ R239 (current setpoint in effect) 11 | 0
  spcUsed : BitVec 32 := 0                     -- @ R253 (current setpoint the current law last used) 11 | 0
  sppV : BitVec 64 := 0                        -- @ R251 (position setpoint at the last velocity tick) 11 | 0
  sppVOld : BitVec 64 := 0                     -- @ R251 (and at the one before it) 11 | 0
  stopRank : BitVec 3 := 0                     -- @ R272 (rank of the STOP in progress) 11 | 0
  stopPort : BitVec 8 := 0                     -- @ R272 (port of the STOP in progress) 11 | 0
  fbPos : BitVec 64 := 0                       -- @ R237 (position feedback of the last tick) 11 | 0
  fbVel : BitVec 32 := 0                       -- @ R237 (velocity feedback) 11 | 0
  velPos : BitVec 64 := 0                      -- @ R237 (position at the last velocity tick) 11 | 0
  iq : BitVec 32 := 0                          -- @ R261 (q current) 11 | 0
  errV : BitVec 32 := 0                        -- @ R261 (velocity loop error) 11 | 0
  errP : BitVec 32 := 0                        -- @ R261 (position loop error) 11 | 0
  /-- Time and lane inputs of the last lane-loop tick, and of the one before it. -/
  laneIn : Time × List (BitVec 32) := (0, [])  -- @ R261 11 | none
  laneInOld : Time × List (BitVec 32) := (0, []) -- @ R261 11 | none
  image : TickImage := {}                      -- @ Table 12.7 12 | 0
  laneFf : BitVec 32 := 0                      -- @ R262 (feedforward in use, as binary32) 11 | 0
  laneT : Time := 0                            -- @ R262 (request time of the answer in use) 11 | 0
  laneRun : BitVec 8 := 0                      -- @ R262 (consecutive misses) 11 | 0
  laneZeroed : Bool := false                   -- @ R262 11 | false
  duty : Vector (BitVec 32) 3 := vrep 3 0      -- @ R250 (duties of U, V, W, Q31) 11 | 0
  /-- High-side shares of U, V, W in the PWM period, TQ, as the shadow registers hold them. -/
  share : Vector Nat 3 := vrep 3 0             -- @ R250 Table 11.5 11 | 0
  steps : BitVec 64 := 0                       -- @ R251 (step count n) 11 | 0
  stepDir : Bool := false                      -- @ R251 (PWM_a_V_H) 11 | low
  stepQ : Nat := 0                             -- @ R251 (steps of the last position tick) 11 | 0
  lastTick : Time := 0                         -- @ R242 (last current tick) 11 | 0
  phase : Time := 0                            -- @ R244 (grid offset kept while running) 11 | 0
  safeHold : Option Time := none               -- @ Table 11.3 (last duty held until, SAFE_STATE 2) 11 | none
  pwmTest : Option (Fin 3 × Nat) := none       -- @ PWMTEST R399 18 | none
  hookPend : Bool := false                     -- @ R278 12 | false
deriving DecidableEq, Repr

/-- One bank of program registers (Table 12.1). -/
structure Bank where
  d : Vector (BitVec 32) 8 := vrep 8 0         -- @ Table 12.1 R275 12 | 0
  i : Vector (BitVec 13) 8 := vrep 8 0         -- @ Table 12.1 12 | 0
  m : Vector (BitVec 16) 8 := vrep 8 0         -- @ Table 12.1 12 | 0
  b : Vector (BitVec 13) 8 := vrep 8 0         -- @ Table 12.1 12 | 0
  l : Vector (BitVec 13) 8 := vrep 8 0         -- @ Table 12.1 12 | 0
  c : BitVec 10 := 0                           -- @ Table 12.1 12 | 0
  cb : BitVec 10 := 0                          -- @ Table 12.1 12 | 0
  cl : BitVec 10 := 0                          -- @ Table 12.1 12 | 0
  lc : BitVec 12 := 0                          -- @ Table 12.1 12 | 0
  n : Bool := false                            -- @ SR.N 12 | 0
  z : Bool := false                            -- @ SR.Z 12 | 0
  v : Bool := false                            -- @ SR.V 12 | 0
  sat : Bool := false                          -- @ SR.SAT 12 | 0
  int : Bool := false                          -- @ SR.INT 12 | 0
  dm : Bool := true                            -- @ SR.DM R275 12 | 1
  lip : Bool := false                          -- @ SR.LIP 12 | 0
  scnt : BitVec 16 := 0                        -- @ Table 12.1 12 | 0
  spos : BitVec 16 := 0                        -- @ Table 12.1 12 | 0
  a0 : BitVec 72 := 0                          -- @ Table 12.1 12 | 0
  a1 : BitVec 72 := 0                          -- @ Table 12.1 12 | 0
  pc : BitVec 12 := 0                          -- @ Table 12.1 12 | 0
  /-- PC has run past address 4,095 (R294). -/
  past : Bool := false                         -- @ R294 12 | false
  /-- Return addresses, newest first. -/
  calls : List (BitVec 12) := []               -- @ R274 12 | empty
  /-- Loop levels (start, end, passes left), innermost first, with the call depth they were opened at. -/
  loops : List (BitVec 12 × BitVec 12 × BitVec 12 × Nat) := [] -- @ R274 12 | empty
  repeat_ : BitVec 12 := 0                     -- @ R274 (repeat counter) 12 | 0
  /-- The instruction at PC is under REP. -/
  inRep : Bool := false                        -- @ R274 12 | false
deriving DecidableEq, Repr

/-- What the background program does (TRD_STAT.BG). -/
inductive Bg | halted | running | waitit
deriving DecidableEq, Repr

/-- One Treadle engine (block TRD). -/
structure Engine where
  held : Bool := true                          -- @ R28 R296 12 | held until assigned
  bank0 : Bank := {}                           -- @ R275 12 | R275
  bank1 : Bank := {}                           -- @ R275 12 | R275
  pm : WordMap 32 := []                        -- @ R275 12 | 0
  cm : WordMap 32 := []                        -- @ R275 12 | 0
  xm : WordMap 32 := []                        -- @ R275 12 | 0
  ym : WordMap 32 := []                        -- @ R275 12 | 0
  entry : BitVec 12 := 0                       -- @ TRD_ENTRY 12 | 0
  bg : Bg := .halted                           -- @ TRD_STAT.BG 12 | 0
  hook : Option (Fin 4) := none                -- @ TRD_STAT.HOOK/HSLOT 12 | 0
  pendHooks : List (Fin 4) := []               -- @ R278 12 | none
  out : List (Fin 4 × Fin 3 × BitVec 64) := [] -- @ R293 (buffered port writes) 12 | none
  errCode : BitVec 8 := 0                      -- @ TRD_ERR.CODE 12 | 0
  errPc : BitVec 12 := 0                       -- @ TRD_ERR.PC 12 | 0
  errBank : Bool := false                      -- @ TRD_ERR.BANK 12 | 0
  errTag : Tag := {}                           -- @ TRD_ERR.ESEQ/VALID 12 | 0
  preempt : BitVec 16 := 0                     -- @ TRD_CNT.PREEMPT 12 | 0
  haband : BitVec 8 := 0                       -- @ TRD_CNT.HABAND 12 | 0
  pfault : BitVec 8 := 0                       -- @ TRD_CNT.PFAULT 12 | 0
  occ : BitVec 8 := 0                          -- @ TRD_OCC.MAXTICK 12 | 0
  cache : List (BitVec 12) := []               -- @ R285 (addresses held in the repeat cache) 12 | invalid
  filling : Bool := false                      -- @ R285 R287 (this pass fills the cache) 12 | false
deriving DecidableEq, Repr

/-- One feedback channel (block FBK). -/
structure Fbk where
  held : Bool := true                          -- @ R28 02 | held until assigned
  mode : BitVec 3 := 0                         -- @ FBK_CFG.MODE 13 | plan (0 before it)
  invDir : Bool := false                       -- @ FBK_CFG.INV_DIR 13 | 0
  zlatch : Bool := false                       -- @ FBK_CFG.ZLATCH 13 | 0
  zevt : Bool := false                         -- @ FBK_CFG.ZEVT 13 | 0
  gray : Bool := false                         -- @ FBK_CFG.SSI_GRAY 13 | 0
  par : Bool := false                          -- @ FBK_CFG.SSI_PAR 13 | 0
  bits : BitVec 6 := 24                        -- @ FBK_CFG.SSI_BITS 13 | 24
  cableT : BitVec 8 := 4                       -- @ FBK_CFG.CABLE_T 13 | 4
  cpr : BitVec 32 := 1                         -- @ FBK_CPR 13 | 1
  poles : BitVec 8 := 1                        -- @ FBK_POLES 13 | 1
  eofs : BitVec 32 := 0                        -- @ FBK_EOFS 13 | 0
  ssi : BitVec 64 := 0                         -- @ FBK_SSI 13 | 0
  sofs : BitVec 16 := 0                        -- @ FBK_SINCOS.SOFS 13 | 0
  cofs : BitVec 16 := 0                        -- @ FBK_SINCOS.COFS 13 | 0
  gainc : BitVec 16 := 0x4000                  -- @ FBK_SINCOS.GAINC 13 | 0x4000
  amin : BitVec 16 := 0x1000                   -- @ FBK_AWIN.AMIN 13 | 0x1000
  amax : BitVec 16 := 0x6400                   -- @ FBK_AWIN.AMAX 13 | 0x6400
  qerr : Bool := false                         -- @ FBK_FLT.QERR 13 | 0
  amp : Bool := false                          -- @ FBK_FLT.AMP 13 | 0
  ospeed : Bool := false                       -- @ FBK_FLT.OVERSPEED 13 | 0
  frame : Bool := false                        -- @ FBK_FLT.FRAME 13 | 0
  cable : Bool := false                        -- @ FBK_FLT.CABLE 13 | 0
  good : Bool := false                         -- @ FBK_FLT.GOOD 13 | 0 (BAD)
  badSince : Time := 0                         -- @ R306 13 | 0
  badFault : Bool := false                     -- @ R306 (this BAD span has set CABLE) 13 | false
  goodRun : Nat := 0                           -- @ R305 (consecutive clean pairs) 13 | 0
  ign : BitVec 16 := 0                         -- @ FBK_IGN 13 | 0
  count : BitVec 64 := 0                       -- @ R310 (position) 13 | 0
  filt : Vector (BitVec 8) 3 := vrep 3 0       -- @ R298, Table 2.5 (FILTER of A, B, Z) 02 | 0
  edges : Vector Time 3 := vrep 3 0            -- @ R298 (last accepted edge of A, B, Z at the ball) 13 | 0
  levA : Bool := false                         -- @ R300 (accepted level) 13 | low DESIGN CHOICE log 17
  levB : Bool := false                         -- @ R300 13 | low DESIGN CHOICE log 17
  levZ : Bool := false                         -- @ R300 13 | low DESIGN CHOICE log 17
  fine : BitVec 20 := 0                        -- @ R301 13 | 0
  rawFine : BitVec 20 := 0                     -- @ R302 (fine of the previous pair) 13 | 0
  periods : BitVec 64 := 0                     -- @ R301 (period counter) 13 | 0
  hasPair : Bool := false                      -- @ R302 13 | false
  a2 : BitVec 16 := 0                          -- @ FBK_OBS_ANG.a2 R301 13 | 0
  ssiRun : Option Time := none                 -- @ R303 (frame in progress: latch instant) 13 | none
  ssiEnd : Time := 0                           -- @ R303 (end of the previous frame) 13 | 0
  ssiPrev : Option (BitVec 48) := none         -- @ R303 (v_prev) 13 | none
  otag : Tag := {}                             -- @ FBK_OBS_SEQ 13 | 0
  ogood : Bool := false                        -- @ FBK_OBS_SEQ.GOOD 13 | 0
  opos : BitVec 64 := 0                        -- @ FBK_OBS_POS 13 | 0
  oang : BitVec 32 := 0                        -- @ FBK_OBS_ANG 13 | 0
  oa2 : BitVec 16 := 0                         -- @ FBK_OBS_ANG 13 | 0
  itag : Tag := {}                             -- @ FBK_IDX_SEQ 13 | 0
  ipos : BitVec 64 := 0                        -- @ FBK_IDX_POS 13 | 0
  iit : Time := 0                              -- @ FBK_IDX_IT 13 | 0
deriving DecidableEq, Repr

/-- One compare output (Table 13.5). -/
structure Cmp where
  src : BitVec 6 := 0                          -- @ CMP_CFG.SRC 13 | 0
  en : Bool := false                           -- @ CMP_CFG.ENABLE 13 | 0
  dir : BitVec 2 := 0                          -- @ CMP_CFG.DIR 13 | 0
  periodic : Bool := false                     -- @ CMP_CFG.PERIODIC 13 | 0
  cyclic : Bool := false                       -- @ CMP_CFG.CYCLIC 13 | 0
  pw : BitVec 16 := 1                          -- @ CMP_CFG.PW 13 | 1
  lbase : BitVec 12 := 0                       -- @ CMP_LIST.LBASE 13 | 0
  llen : BitVec 13 := 1                        -- @ CMP_LIST.LLEN 13 | 1
  start : BitVec 64 := 0                       -- @ CMP_START 13 | 0
  step : BitVec 64 := 1                        -- @ CMP_STEP 13 | 1
  count : BitVec 32 := 0                       -- @ CMP_COUNT 13 | 0
  ptr : BitVec 13 := 0                         -- @ CMP_STAT.PTR 13 | 0
  k : BitVec 64 := 0                           -- @ R311 13 | 0
  done : Bool := false                         -- @ CMP_STAT.DONE 13 | 0
  high : Bool := false                         -- @ CMP_STAT.HIGH 13 | 0
  fired : BitVec 16 := 0                       -- @ CMP_STAT.FIRED 13 | 0
  nfired : BitVec 32 := 0                      -- @ R312 (firings counted against COUNT) 13 | 0
  skipped : BitVec 16 := 0                     -- @ CMP_SKIP.SKIPPED 13 | 0
  merged : BitVec 16 := 0                      -- @ CMP_SKIP.MERGED 13 | 0
  prev : Option (BitVec 64) := none            -- @ R311 (prev, none after BAD) 13 | none
  pulseEnd : Time := 0                         -- @ R313 13 | 0
  test : Bool := false                         -- @ CMPTEST R399 18 | off
deriving DecidableEq, Repr

/-- One capture latch (Table 13.5). -/
structure Cap where
  edge : BitVec 2 := 0                         -- @ CAP_CFG.EDGE 13 | 0
  keep : Bool := false                         -- @ CAP_CFG.KEEP 13 | 0
  src : BitVec 6 := 63                         -- @ CAP_CFG.SRC 13 | 63
  filt : BitVec 8 := 0                         -- @ R298, Table 2.5 (FILTER of PCAPn) 02 | 0
  edgeIt : Time := 0                           -- @ R298 (last accepted edge at the ball) 13 | 0
  tag : Tag := {}                              -- @ CAP_SEQ.CSEQ/VALID 13 | 0
  level : Bool := false                        -- @ CAP_SEQ.LEVEL 13 | 0
  posValid : Bool := false                     -- @ CAP_SEQ.POSVALID 13 | 0
  it : Time := 0                               -- @ CAP_IT 13 | 0
  pos : BitVec 64 := 0                         -- @ CAP_POS 13 | 0
  ovr : BitVec 16 := 0                         -- @ CAP_OVR 13 | 0
deriving DecidableEq, Repr

/-- The compare and capture block. -/
structure CmpCap where
  held : Bool := true                          -- @ R28 02 | held until assigned
  cmp : Vector Cmp 16 := vrep 16 {}            -- @ 13.5 13 | reset
  cap : Vector Cap 16 := vrep 16 {}            -- @ 13.5 13 | reset
  list : WordMap 64 := []                      -- @ list window 13 | 0
deriving DecidableEq, Repr

/-- Error states of a CAN controller (CAN_ESTAT.STATE); the last is integrating or recovering. -/
inductive CanState | active | passive | busOff | integrating
deriving DecidableEq, Repr

/-- One message object (Table 14.5). -/
structure MsgObj where
  cfg : BitVec 16 := 0                         -- @ MO_CFG 14 | 0
  id : BitVec 29 := 0                          -- @ MO_ID 14 | 0
  mask : BitVec 29 := 0x1FFFFFFF               -- @ MO_MASK 14 | 0x1FFF_FFFF
  irq : BitVec 24 := 0                         -- @ MO_IRQ 14 | 0
  rxid : BitVec 29 := 0                        -- @ MO_RXID 14 | 0
  ts : BitVec 32 := 0                          -- @ MO_TS 14 | 0
  data : Vector (BitVec 32) 16 := vrep 16 0    -- @ MO_DATA 14 | 0
  tag : Tag := {}                              -- @ MO_STAT.MSEQ/VALID 14 | 0
  lost : Bool := false                         -- @ MO_STAT.LOST 14 | 0
  pend : Bool := false                         -- @ MO_STAT.PEND 14 | 0
  /-- RTR, IDE, FDF, BRS, ESI of the stored frame, bit 0 first. -/
  rxf : BitVec 5 := 0                          -- @ MO_STAT[13:9] 14 | 0
  dlc : BitVec 4 := 0                          -- @ MO_STAT.DLC 14 | 0
  txres : BitVec 3 := 0                        -- @ MO_STAT.TXRES 14 | 0
  mapped : Bool := false                       -- @ R322 14 | false
  att : Option (BitVec 32) := none             -- @ R328 (SOF of the request's last attempt) 14 | none
deriving DecidableEq, Repr

/-- A mapping of an object to an axis (Table 2.8). -/
structure CanMap where
  obj : Fin 64
  axis : Fin 32
  target : BitVec 8
deriving DecidableEq, Repr

/-- An error frame of a CAN controller: begun as a transmitter, with an active error flag, and when (R318, R332). -/
structure CanFlag where
  tx : Bool
  active : Bool
  start : Time
deriving DecidableEq, Repr

/-- One CAN controller (Table 14.4). -/
structure Can where
  held : Bool := true                          -- @ R28 02 | held until assigned
  mode : BitVec 2 := 0                         -- @ CAN_CFG.MODE 14 | plan (0 before it)
  listen : Bool := false                       -- @ CAN_CFG.LISTEN 14 | plan (0 before it)
  loop : Bool := false                         -- @ CAN_CFG.LOOP 14 | plan (0 before it)
  autorec : Bool := true                       -- @ CAN_CFG.AUTOREC 14 | 1
  nbt : BitVec 32 := 0                         -- @ CAN_NBT 14 | 0
  dbt : BitVec 32 := 0                         -- @ CAN_DBT 14 | 0
  tec : BitVec 9 := 0                          -- @ CAN_ESTAT.TEC 14 | 0
  rec_ : BitVec 9 := 0                         -- @ CAN_ESTAT.REC 14 | 0
  st : CanState := .integrating                -- @ CAN_ESTAT.STATE 14 | 3
  recovering : Bool := false                   -- @ R332 14 | false
  lec : BitVec 3 := 0                          -- @ CAN_ESTAT.LEC 14 | 0
  lecData : Bool := false                      -- @ CAN_ESTAT.[21] 14 | 0
  tdcv : BitVec 8 := 0                         -- @ CAN_ESTAT.TDCV 14 | 0
  unmatched : BitVec 16 := 0                   -- @ CAN_CNT.UNMATCHED 14 | 0
  canref : BitVec 16 := 0                      -- @ CAN_CNT.CANREF 14 | 0
  maperr : BitVec 16 := 0                      -- @ CAN_CNT.MAPERR 14 | 0
  arblost : BitVec 16 := 0                     -- @ CAN_CNT.ARBLOST 14 | 0
  ign : BitVec 16 := 0                         -- @ CAN_IGN 14 | 0
  frzTag : Tag := {}                           -- @ CAN_FRZ_SEQ 14 | 0
  frzTs : BitVec 32 := 0                       -- @ CAN_FRZ_TS 14 | 0
  frzIt : Time := 0                            -- @ CAN_FRZ_IT 14 | 0
  mo : Vector MsgObj 64 := vrep 64 {}          -- @ 14.3 14 | reset
  maps : List CanMap := []                     -- @ Table 2.8 02 | none
  /-- Attempt in progress: object and SOF timestamp (R326). -/
  tx : Option (Fin 64 × BitVec 32) := none     -- @ R326 14 | none
  sofAt : Time := 0                            -- @ R326 (SOF of the attempt) 14 | 0
  /-- The error frame last begun. -/
  flag : Option CanFlag := none                -- @ R318, R332 14 | none
  stopTx : Bool := false                       -- @ R69 (transmission stopped) 03 | false
deriving DecidableEq, Repr

end Sys2Proof.Machine
end

