-- ==== Sys2Proof/Machine/State.lean ====
section
/-! DEFINITION. The state of the block, its stops, and the state after reset. The parts are in the files St*.lean
beside this one; every field's default is its value at reset. -/
namespace Sys2Proof.Machine

/-- Faults: none. No rule of spec/ stops the part as a whole; an access error is an effect of its own (R74), so
exec and step answer a fault on no command. The constructor is raised by nothing (safe). -/
inductive Fault
  | none
deriving DecidableEq, Repr

/-- Refusals. -/
inductive Refusal
  /-- The row has no meaning yet: raised by exec's arms alone, for a row the model has not reached (safe). -/
  | notModelled (mnemonic : String)
deriving DecidableEq, Repr

/-- The whole part, and the queue of commands that wait for it. -/
structure State where
  /-- Commands waiting, first in, first out (the model's own). -/
  pending : List Instr := []                   -- @ MODEL (queue of waiting commands) | empty
  time : TimeBase := {}                        -- @ R209 09 | reset
  island : Island := {}                        -- @ spec/03 | reset
  store : Store := {}                          -- @ spec/18 | as shipped
  loader : Loader := {}                        -- @ spec/02 | reset
  console : Console := {}                      -- @ spec/18 | reset
  tap : Tap := {}                              -- @ R428 19 | reset
  /-- Pin entries in effect, by signal index (stage 3). -/
  pins : List (Nat × PinCfg) := []             -- @ R36 R422 02 | none
  /-- The pin stage has completed since the last cold start (R423, R424). -/
  pinsUp : Bool := false                       -- @ R423 19 | false
  /-- Levels of the hardware stop inputs as accepted: true is asserted (low). -/
  hstopOn : BitVec 4 := 0                      -- @ R268, Table 19.5 (hardware stop inputs enabled by a pin entry) 11 | 0
  hstop : BitVec 4 := 0xF                      -- @ R427 (board pull-down: asserted) 19 | asserted PRESUMED log 17
  tsc : BitVec 32 := 0                         -- @ CAN_TSC R330 14 | 0
  /-- Bytes of DDR5, stacked DRAM and tile scratchpads (scratchpads at their host-window addresses). -/
  mem : List Host.Cell := []                   -- @ R73 04 | nothing listed (reads 0, log 4)
  /-- Poisoned 64-byte lines, by address / 64, rising. -/
  poison : List Nat := []                      -- @ R80 R378 04 | none
  /-- Next DDR5 line of the patrol scrubber, by address / 64. -/
  scrub : Nat := 0                             -- @ R80 04 | 0 DESIGN CHOICE log 13
  rat : Rat := {}                              -- @ 4.4 04 | reset
  cores : Vector Core 48 := vrep 48 {}         -- @ spec/05 | reset
  aplic : Vector AplicDomain 2 := vrep 2 {}    -- @ R107 05 | reset
  /-- Levels of the APLIC's wired sources as last seen. -/
  srcLevel : BitVec 512 := 0                   -- @ R107 05 | 0
  queues : Vector Queue 64 := vrep 64 {}       -- @ 6.9 06 | reset
  /-- Commands dispatched so far: the place of the next one (the model's own). -/
  dispatched : Nat := 0                        -- @ MODEL (order of dispatch, R160 R174) | 0
  evbuf : Vector EvBuf 32 := vrep 32 {}        -- @ R138 06 | empty
  fwver : BitVec 64 := 0                       -- @ CQ_FWVER 06 | 0
  rports : Vector RootPort 8 := vrep 8 {}      -- @ R148 06 | down
  /-- Control clusters held in reset, and clusters whose supervision counter has stopped (R141). -/
  clusterHeld : BitVec 4 := 0xF                -- @ R141 Table 17.7 17 | held
  clusterStop : BitVec 4 := 0                  -- @ R141 06 | running
  tiles : Vector Tile 64 := vrep 64 {}         -- @ 7.1 07 | reset
  shuttle : Vector Shuttle 16 := vrep 16 {}    -- @ 7.4 07 | reset
  peat : Vector Stack 8 := vrep 8 {}           -- @ 7.5 07 | reset
  lanes : Vector Lane 8 := vrep 8 {}           -- @ 8.6 08 | not loaded
  fabric : Fabric := {}                        -- @ Table 2.6 02 | not joined
  ports : Vector Port 16 := vrep 16 {}         -- @ 9.7 09 | off
  /-- Packets this chip sent to itself (R208). -/
  loopback : List Packet := []                 -- @ R208 09 | none
  /-- Next transaction ID, and remote writes sent and not yet answered: source group, channel, write. -/
  nextTid : BitVec 32 := 0                     -- @ Table 9.3 (TID) 09 | 0 DESIGN CHOICE log 16
  remote : List (Fin 16 × Fin 8 × NetWrite) := [] -- @ R207 09 | none
  paceFrom : List (BitVec 12 × Pace) := []     -- @ R232 (notices in force, by sender) 10 | none
  chans : Vector (Vector Chan 8) 4 := vrep 4 (vrep 8 {}) -- @ 10.3 10 | closed
  axes : Vector Axis 32 := vrep 32 {}          -- @ 11.10 11 | reset
  trd : Vector Engine 8 := vrep 8 {}           -- @ 12.8 12 | reset
  fbk : Vector Fbk 40 := vrep 40 {}            -- @ 13.6 13 | reset
  cc : CmpCap := {}                            -- @ 13.6 13 | reset
  can : Vector Can 4 := vrep 4 {}              -- @ 14.10 14 | reset
  dsp : Display := {}                          -- @ 15.7 15 | reset
  power : Power := {}                          -- @ 16.9 16 | reset
  /-- Fault slots, by 64 × type + index (17.3). -/
  flt : Vector FltSlot 1024 := vrep 1024 {}    -- @ 17.3 17 | reset
  parts : Vector Part 32 := vrep 32 {}         -- @ 17.4 17.6 | reset
  frz : Freeze := {}                           -- @ 17.7 17 | reset
  /-- Free values drawn so far (the model's own; no statement rests on it). -/
  free : Nat := 0                              -- @ MODEL (counter of free values) | 0 DESIGN CHOICE log 6
deriving DecidableEq, Repr

/-- The part as shipped and unpowered, every register at its reset value (R11, R452; log 13). -/
def State.reset : State := {}

end Sys2Proof.Machine
end

