-- ==== Sys2Proof/Machine/Ops.lean ====
section
/-! DEFINITION. The named operations over the state: memory, partition membership, region checks, access errors,
fault causes, events and records, unsolicited lines. Every family of commands is written over these. -/
namespace Sys2Proof.Machine

/-! ### Accessors of fixed resources -/

def State.modCore (n : Fin 48) (f : Core → Core) (s : State) : State := { s with cores := vmod s.cores n f }
def State.modQueue (n : Fin 64) (f : Queue → Queue) (s : State) : State := { s with queues := vmod s.queues n f }
def State.modTile (n : Fin 64) (f : Tile → Tile) (s : State) : State := { s with tiles := vmod s.tiles n f }
def State.modShuttle (g : Fin 16) (f : Shuttle → Shuttle) (s : State) : State :=
  { s with shuttle := vmod s.shuttle g f }
def State.modChannel (g : Fin 16) (c : Fin 8) (f : Channel → Channel) (s : State) : State :=
  s.modShuttle g fun sh => { sh with ch := vmod sh.ch c f }
def State.channel (s : State) (g : Fin 16) (c : Fin 8) : Channel := vget (vget s.shuttle g).ch c
def State.modEng (k : Fin 8) (j : Fin 32) (f : PeatEngine → PeatEngine) (s : State) : State :=
  { s with peat := vmod s.peat k fun st => { st with eng := vmod st.eng j f } }
def State.eng (s : State) (k : Fin 8) (j : Fin 32) : PeatEngine := vget (vget s.peat k).eng j
def State.modLane (l : Fin 8) (f : Lane → Lane) (s : State) : State := { s with lanes := vmod s.lanes l f }
def State.modPort (p : Fin 16) (f : Port → Port) (s : State) : State := { s with ports := vmod s.ports p f }
def State.modChan (d : Fin 4) (k : Fin 8) (f : Chan → Chan) (s : State) : State :=
  { s with chans := vmod s.chans d fun v => vmod v k f }
def State.chan (s : State) (d : Fin 4) (k : Fin 8) : Chan := vget (vget s.chans d) k
def State.modAxis (a : Fin 32) (f : Axis → Axis) (s : State) : State := { s with axes := vmod s.axes a f }
def State.modTrd (e : Fin 8) (f : Engine → Engine) (s : State) : State := { s with trd := vmod s.trd e f }
def State.modFbk (c : Fin 40) (f : Fbk → Fbk) (s : State) : State := { s with fbk := vmod s.fbk c f }
def State.modCmp (n : Fin 16) (f : Cmp → Cmp) (s : State) : State :=
  { s with cc := { s.cc with cmp := vmod s.cc.cmp n f } }
def State.modCap (n : Fin 16) (f : Cap → Cap) (s : State) : State :=
  { s with cc := { s.cc with cap := vmod s.cc.cap n f } }
def State.modCan (k : Fin 4) (f : Can → Can) (s : State) : State := { s with can := vmod s.can k f }
def State.modMo (k : Fin 4) (j : Fin 64) (f : MsgObj → MsgObj) (s : State) : State :=
  s.modCan k fun c => { c with mo := vmod c.mo j f }
def State.modDom (d : Fin 5) (f : Domain → Domain) (s : State) : State :=
  { s with power := { s.power with dom := vmod s.power.dom d f } }
def State.modPart (p : Fin 32) (f : Part → Part) (s : State) : State := { s with parts := vmod s.parts p f }
def State.modRp (q : Fin 8) (f : RootPort → RootPort) (s : State) : State := { s with rports := vmod s.rports q f }
def State.modFlt (i : Fin 1024) (f : FltSlot → FltSlot) (s : State) : State := { s with flt := vmod s.flt i f }
def State.modEvbuf (p : Fin 32) (f : EvBuf → EvBuf) (s : State) : State := { s with evbuf := vmod s.evbuf p f }
def State.modIsland (f : Island → Island) (s : State) : State := { s with island := f s.island }
def State.modStore (f : Store → Store) (s : State) : State := { s with store := f s.store }
def State.modLoader (f : Loader → Loader) (s : State) : State := { s with loader := f s.loader }
def State.modConsole (f : Console → Console) (s : State) : State := { s with console := f s.console }
def State.modTime (f : TimeBase → TimeBase) (s : State) : State := { s with time := f s.time }
def State.modDsp (f : Display → Display) (s : State) : State := { s with dsp := f s.dsp }
def State.modPower (f : Power → Power) (s : State) : State := { s with power := f s.power }
def State.modFrz (f : Freeze → Freeze) (s : State) : State := { s with frz := f s.frz }
def State.modRat (f : Rat → Rat) (s : State) : State := { s with rat := f s.rat }

/-! ### Function IDs and membership (R13, R26, R374) -/

def fidType (f : Fid) : Nat := f.toNat / 256
def fidIdx (f : Fid) : Nat := f.toNat % 256
/-- How many functions a type has (Table 17.1). -/
def fidCount : Nat → Nat
  | 0 => 1 | 1 => 48 | 2 => 64 | 3 => 16 | 4 => 8 | 5 => 16 | 6 => 8 | 7 => 32 | 8 => 40 | 9 => 1 | 10 => 4
  | 11 => 1 | 12 => 8 | 13 => 4 | 14 => 8 | 15 => 2 | _ => 0
def fidOk (f : Fid) : Bool := decide (fidIdx f < fidCount (fidType f))
def fidMk (t i : Nat) : Fid := BitVec.ofNat 16 (256 * t + i)
/-- Position of a function's fault slot (17.3). -/
def fidSlot (f : Fid) : Fin 1024 := ⟨(64 * fidType f + fidIdx f) % 1024, Nat.mod_lt _ (by decide)⟩
def islandFid : Fid := 0x0000
def timeFid : Fid := 0x0F00
def frzFid : Fid := 0x0F01
def ccFid : Fid := 0x0900
def dspFid : Fid := 0x0B00
/-- Chip-wide functions (R379). -/
def fidChipWide (f : Fid) : Bool := f = islandFid || f = timeFid || f = frzFid || fidType f = 14
/-- Every FID, in ascending order. -/
def allFids : List Fid := (List.range 16).flatMap fun t => (List.range (fidCount t)).map (fidMk t)

/-- Whether a partition's record names a function (Table 2.4). -/
def Part.holds (p : Part) (f : Fid) : Bool :=
  let i := fidIdx f
  p.assigned && fidOk f && match fidType f with
    | 1 => p.cores.getLsbD i | 2 => p.tiles.getLsbD i | 3 => p.shuttle.getLsbD i | 4 => p.peat.getLsbD i
    | 5 => p.grh.getLsbD i | 6 => p.treadle.getLsbD i | 7 => p.axes.getLsbD i | 8 => p.fbk.getLsbD i
    | 9 => p.units.getLsbD 4 | 10 => p.units.getLsbD i | 11 => p.units.getLsbD 5 | 12 => p.rports.getLsbD i
    | 13 => p.clusters.getLsbD i | _ => false
def allParts : List (Fin 32) := List.finRange 32
/-- The partition of a function; for a Peat stack the lowest that names it (log 19). -/
def partOf (s : State) (f : Fid) : Option (Fin 32) := allParts.find? fun p => (vget s.parts p).holds f
/-- Whether a function belongs to a partition. -/
def belongs (s : State) (p : Fin 32) (f : Fid) : Bool := (vget s.parts p).holds f
def masterFid : Master → Fid
  | .core n => fidMk 1 n
  | .cluster d => fidMk 13 d
def masterPart (s : State) (m : Master) : Option (Fin 32) := partOf s (masterFid m)
/-- Functions of a partition. -/
def partFids (s : State) (p : Fin 32) : List Fid := allFids.filter (belongs s p)
/-- Owner of a queue: core n, or cluster (n − 48) / 4 (R119). -/
def queueOwner (n : Fin 64) : Fid := if n.val < 48 then fidMk 1 n else fidMk 13 ((n - 48) / 4)
def queuePart (s : State) (n : Fin 64) : Option (Fin 32) := partOf s (queueOwner n)
/-- Function fence, or the fence of its partition (R375, R380); of a Peat stack, which partitions may share, of every
partition that names it, since the others continue (R381, log 19). -/
def isFenced (s : State) (f : Fid) : Bool :=
  (vget s.flt (fidSlot f)).fence ||
  (if fidType f = 4 then
    (partOf s f).isSome && allParts.all fun p => !(vget s.parts p).holds f || (vget s.parts p).fenced
   else match partOf s f with | some p => (vget s.parts p).fenced | none => false)

/-- A reset of the function by FID is accepted and not yet done: the function has stopped (R118, R334). -/
def resetting (s : State) (f : Fid) : Bool :=
  match (vget s.flt (fidSlot f)).busy with | some (false, _) => true | _ => false

/-! ### Memory (R73, R93, R156) -/

/-- One byte of memory; nothing written reads 0 (log 4). -/
def rdByte (s : State) (a : Nat) : Byte := spGet 0 s.mem a
def rdBytes (s : State) (a : Nat) : Nat → List Byte
  | 0 => []
  | n + 1 => rdByte s a :: rdBytes s (a + 1) n
def rdLe (s : State) (a n : Nat) : Nat := leNat (rdBytes s a n)
def memPut (m : List Host.Cell) (a : Nat) : List Byte → List Host.Cell
  | [] => m
  | b :: bs => memPut (spPut 0 m a b) (a + 1) bs
/-- Lines that a write of `n` bytes at `a` covers whole lose their poison (R378). -/
def clearPoison (l : List Nat) (a n : Nat) : List Nat :=
  l.filter fun k => !(decide (a ≤ 64 * k) && decide (64 * k + 64 ≤ a + n))
/-- A 64-byte line, by address / 64, that a range of `n` bytes at `a` touches. -/
def lineIn (a n k : Nat) : Bool := decide (a < 64 * k + 64) && decide (64 * k < a + n)
/-- The home agent recalls a line that some core holds dirty: written back, it is dirty nowhere (R82, R168). -/
def recallLines (cs : Vector Core 48) (a n : Nat) : Vector Core 48 :=
  if cs.all fun c => c.dirty = [] then cs else cs.map fun c => { c with dirty := c.dirty.filter fun k => !lineIn a n k }
/-- A write to a line ends every core's reservation of it (R98) and invalidates every core's copy of it, a dirty one
once it is written back (R82, R85). -/
def snoopWrite (cs : Vector Core 48) (a n : Nat) : Vector Core 48 :=
  let cs := recallLines cs a n
  if cs.all fun c => c.resv.isNone then cs else
  cs.map fun c => match c.resv with
    | some r => if lineIn a n (r.1 / 64) then { c with resv := none } else c
    | none => c
/-- Bytes into memory; the poison of the lines is the caller's. -/
def putRaw (s : State) (a : Nat) (bs : List Byte) : State :=
  { s with mem := memPut s.mem a bs, cores := snoopWrite s.cores a bs.length }
def wrBytes (s : State) (a : Nat) (bs : List Byte) : State :=
  { putRaw s a bs with poison := clearPoison s.poison a bs.length }
def wrLe (s : State) (a n v : Nat) : State := wrBytes s a (natLe n v)
/-- Whether a range touches a poisoned line. -/
def poisoned (s : State) (a n : Nat) : Bool :=
  s.poison.any fun k => decide (64 * k < a + n) && decide (a < 64 * k + 64) && decide (0 < n)
/-- The canonical form of memory and of the poison list. -/
def memWf (m : List Host.Cell) : Bool := spWf (0 : Byte) m

/-! ### Address classes and the region attribute table (R73, R86) -/

inductive AddrClass
  | ddr | stack (k : Fin 8) | pcie (q : Fin 8) | host (n : Fin 64) | peat (k : Fin 8) | reg | reserved
deriving DecidableEq, Repr

/-- Row of Table 4.1 that holds an address. -/
def addrClass (a : Nat) : AddrClass :=
  if a < 0x10000000000 then .ddr
  else if a < 0x13000000000 then .stack ⟨(a - 0x10000000000) / 0x600000000 % 8, Nat.mod_lt _ (by decide)⟩
  else if a < 0x20000000000 then .reserved
  else if a < 0x40000000000 then .pcie ⟨(a - 0x20000000000) / 0x4000000000 % 8, Nat.mod_lt _ (by decide)⟩
  else if a < 0xE0000000000 then .reserved
  else if a < 0xE0020000000 then .host ⟨(a - 0xE0000000000) / 0x800000 % 64, Nat.mod_lt _ (by decide)⟩
  else if a < 0xE4000000000 then .reserved
  else if a < 0xEC000000000 then .peat ⟨(a - 0xE4000000000) / 0x1000000000 % 8, Nat.mod_lt _ (by decide)⟩
  else if a < 0xF0000000000 then .reserved
  else if a < 0xF0100000000 then .reg
  else .reserved
/-- DDR5 or stacked DRAM, populated (R74, R79). -/
def isDram (s : State) (a : Nat) : Bool :=
  match addrClass a with
  | .ddr => decide (a < s.island.ddrSize)
  | .stack _ => true
  | _ => false
def stackBase (k : Fin 8) : Nat := 0x10000000000 + k * 0x600000000
def apertureBase (k : Fin 8) : Nat := 0xE4000000000 + k * 0x1000000000
def hostBase (n : Fin 64) : Nat := 0xE0000000000 + n * 0x800000

/-- Who an access comes from, as R86 tells them apart. -/
inductive Side | plain | pcie | engine
deriving DecidableEq, Repr

def RatEntry.covers (e : RatEntry) (a : Nat) : Bool :=
  e.valid && decide (e.base.toNat ≤ a / 4096) && decide (a / 4096 ≤ e.limit.toNat)
def ratFind (s : State) (a : Nat) : Option RatEntry := s.rat.entries.toList.find? (·.covers a)
def RatEntry.type (e : RatEntry) : Nat := fld e.attr.toNat 0 2
/-- Whether an access of partition `p` is held: it meets an entry of another partition that a reload has reopened and its
region stage has not yet loaded (R91). -/
def ratHeld (s : State) (p : Fin 32) (a n : Nat) : Bool :=
  match s.rat.reopened with
  | some q => decide (q ≠ p) && s.rat.entries.any fun e => decide (e.owner = some q) &&
      decide (e.base.toNat * 4096 < a + n) && decide (a < (e.limit.toNat + 1) * 4096)
  | none => false
/-- An access of the command met a held entry, so the command waits (R91). -/
def holdAccess (s : State) : State := s.modRat fun r => { r with waits := true }
/-- The rails that DRAM on a stack needs: VDRAM and the interface's VDRAMQ (Table 3.1). -/
def stackUp (s : State) : Bool := s.island.good.getLsbD 10 && s.island.good.getLsbD 11
/-- The checks of R86 in their order; `none` allows, else the CAUSE (R86, R74, R88). -/
def ratCheck (s : State) (p : Fin 32) (a : Nat) (k : AccKind) (side : Side) : Option (BitVec 3) :=
  let absent := match addrClass a with
    | .ddr => decide (s.island.ddrSize ≤ a)
    | .stack _ => !stackUp s
    | .pcie q => !(vget s.rports q).exists_
    | _ => true
  if absent then some 4 else
  match ratFind s a with
  | none => some 0
  | some e =>
    if !e.access.getLsbD p then some 1
    else if side = .pcie && !e.attr.getLsbD 6 then some 3
    else if side = .engine && !e.attr.getLsbD 7 then some 3
    else match k with
      | .load => if e.attr.getLsbD 4 then none else some 2
      | .store => if e.attr.getLsbD 5 then none else some 2
      | .fetch => if e.attr.getLsbD 3 && e.type ≠ 2 then none else some 2
/-- The check over a range, page by page: the first failing address and its CAUSE. -/
def ratCheckRange (s : State) (p : Fin 32) (a n : Nat) (k : AccKind) (side : Side) : Option (Nat × BitVec 3) :=
  if n = 0 then none else
  ((a :: (List.range ((a + n - 1) / 4096 - a / 4096)).map fun i => (a / 4096 + 1 + i) * 4096).findSome? fun x =>
    (ratCheck s p x k side).map fun c => (x, c))

/-! ### Fault causes, access errors (R90, R376) -/

def FltStat.put (f : FltStat) (bit : Nat) : FltStat :=
  if f.cause.getLsbD bit then f
  else { cause := f.cause ||| (1#12 <<< bit), first := if f.cause = 0 then BitVec.ofNat 4 bit else f.first,
         tag := f.tag.bump }
/-- A cause bit set in both copies, with no reaction. -/
def putCause (f : Fid) (bit : Nat) (s : State) : State :=
  s.modFlt (fidSlot f) fun x =>
    { x with a := x.a.put bit, b := x.b.put bit, stale := x.stale &&& ~~~(1#12 <<< bit) }
/-- RAT_ERR_INFO and RAT_ERR_ADDR take an access error, and the initiator's function sets ACCESS (R90, R376). -/
def accessError (f : Fid) (write : Bool) (cause : BitVec 3) (a : Nat) (s : State) : State :=
  putCause f 1 (s.modRat fun r => { r with
    errFid := f, errWrite := write, errCause := cause, errTag := r.errTag.bump, errAddr := BitVec.ofNat 44 a })
/-- POISON on a function that consumed a poisoned line (R378). -/
def poisonHit (f : Fid) (s : State) : State := putCause f 2 s

/-! ### Interrupt files (R109) -/

/-- An interrupt identity becomes pending; MSIs to the cores of a fenced partition are discarded (R381). -/
def pendImsic (n : Fin 48) (file : Fin 9) (ident : BitVec 8) (s : State) : State :=
  if ident = 0 || (match partOf s (fidMk 1 n) with | some p => (vget s.parts p).fenced | none => false) then s else
  s.modCore n fun c => { c with imsic := vmod c.imsic file fun i =>
    { i with pending := i.pending ||| (1#256 <<< ident.toNat) } }
def mkFin (n : Nat) (h : 0 < n) (i : Nat) : Fin n := ⟨i % n, Nat.mod_lt _ h⟩
/-- An MSI as CQ_QIRQ and MO_IRQ name it: HART, FILE, IDENT; a reserved FILE sends none (log 20). -/
def sendMsi (hart : Nat) (file : Nat) (ident : BitVec 8) (s : State) : State :=
  if h : hart < 48 ∧ file < 9 then pendImsic ⟨hart, h.1⟩ ⟨file, h.2⟩ ident s else s

/-! ### Records and events (R132 to R138) -/

def Queue.used (q : Queue) : Nat := (q.cqtail.toNat + 2 ^ q.cqlog.toNat - q.cqhead.toNat) % 2 ^ q.cqlog.toNat
/-- Free record positions of the completion ring (one position stays unused). -/
def Queue.room (q : Queue) : Nat := 2 ^ q.cqlog.toNat - 1 - q.used
/-- Free positions beyond those reserved for dispatched commands (R125, R138). -/
def Queue.spare (q : Queue) : Nat := q.room - q.disp.length
def Queue.setCode (q : Queue) (c : BitVec 8) : Queue := { q with code := c, tag := q.tag.bump }
/-- The 32 bytes of a record (R132). -/
def EvRec.bytes (r : EvRec) (seq : BitVec 32) : List Byte :=
  natLe 2 r.fid.toNat ++ natLe 1 r.cls.toNat ++ natLe 1 (b2n r.error + 2 * b2n r.holdover) ++ natLe 4 seq.toNat ++
  natLe 8 r.it.toNat ++ natLe 16 r.payload.toNat
/-- A record into a queue's completion ring, then its MSI; a write that is refused or meets poison halts the queue (R126,
R135, R136). -/
def writeRecord (n : Fin 64) (r : EvRec) (irq : Bool) (s : State) : State :=
  let q := vget s.queues n
  let a := q.cqbase.toNat * 4096 + 32 * q.cqtail.toNat
  match queuePart s n with
  | none => s.modQueue n fun q => { q.setCode 4 with halted := true }
  | some p =>
    if ratHeld s p a 32 then holdAccess s else
    match ratCheck s p a .store .plain with
    | some c => accessError (queueOwner n) true c a (s.modQueue n fun q => { q.setCode 4 with halted := true })
    | none =>
      if poisoned s a 32 then poisonHit (queueOwner n) (s.modQueue n fun q => { q.setCode 4 with halted := true }) else
      let s := wrBytes s a (r.bytes q.nextSeq)
      let s := s.modQueue n fun q => { q with
        cqtail := BitVec.ofNat 16 ((q.cqtail.toNat + 1) % 2 ^ q.cqlog.toNat),
        nextSeq := if q.nextSeq = BitVec.allOnes 32 then 1 else q.nextSeq + 1 }
      if q.all || irq || r.error || r.cls ≠ 1 then sendMsi q.hart.toNat q.file.toNat q.ident s else s
/-- The queue a partition's events go to (R138). -/
def eventQueue (s : State) (p : Fin 32) : Option (Fin 64) :=
  (List.finRange 64).find? fun n => (vget s.queues n).enable && (vget s.queues n).evt && queuePart s n = some p
/-- Installation times taken outside LOCKED carry the HOLDOVER flag (R209). -/
def holdoverFlag (s : State) : Bool := s.time.st ≠ .locked
/-- An installation time as a record takes it: with the HOLDOVER flag of that moment (R132, R209). -/
def stamp (s : State) : Stamp := { it := s.time.it, hold := holdoverFlag s }
/-- A partition's event stream can take a record now: its selvedge is open, the queue has a free record beyond those
reserved for commands, and no reload holds the ring's region (R91, R138, R381). -/
def streamOpen (s : State) (p : Fin 32) (n : Fin 64) : Bool :=
  let q := vget s.queues n
  !(vget s.parts p).fenced && decide (0 < q.spare) && !ratHeld s p (q.cqbase.toNat * 4096 + 32 * q.cqtail.toNat) 32
/-- An event record onto a partition's stream, or into its buffer, or counted lost (R138). -/
def emitTo (p : Fin 32) (f : Fid) (cls : BitVec 8) (payload : BitVec 128) (s : State) : State :=
  let r : EvRec := { fid := f, cls := cls, holdover := holdoverFlag s, it := s.time.it, payload := payload }
  let b := vget s.evbuf p
  let direct := match eventQueue s p with
    | some n => if b.recs = [] && b.lost = 0 && streamOpen s p n then some n else none
    | none => none
  match direct with
  | some n => writeRecord n r false s
  | none =>
    if b.recs.length < 64 then s.modEvbuf p fun b => { b with recs := b.recs ++ [r] }
    else s.modEvbuf p fun b => { b with lost := satInc b.lost }
/-- The stream of a function's events: its partition's, or P0's for a chip-wide function (R138). -/
def streamPart (s : State) (f : Fid) : Option (Fin 32) := if fidChipWide f then some 0 else partOf s f
/-- A function's event; an unassigned function has no stream. -/
def emit (f : Fid) (cls : BitVec 8) (payload : BitVec 128) (s : State) : State :=
  match streamPart s f with
  | some p => emitTo p f cls payload s
  | none => s
/-- A payload field: a value at bytes `off` on of the record (R132). -/
def pl (off v : Nat) : BitVec 128 := BitVec.ofNat 128 (v * 2 ^ (8 * (off - 16)))

/-! ### Console lines, the store and the free values -/

/-- An unsolicited line held for sending, at most 32; more are counted (R398). -/
def say (l : ULine) (s : State) : State :=
  s.modConsole fun c => if c.held.length < 32 then { c with held := c.held ++ [l] } else { c with lost := c.lost + 1 }
/-- A store write requested; the journal performs it in its turn (R410). -/
def storeReq (w : JWrite) (s : State) : State := s.modStore fun t => { t with queue := t.queue ++ [w] }
/-- The state block changed: the island's working copy at once, the store through the journal. -/
def setBlock (f : StateBlock → StateBlock) (s : State) : State :=
  storeReq (.block (f s.store.work)) (s.modStore fun t => { t with work := f t.work })
/-- The time that the island writes into its records: installation time, or its own count while the time base is
unpowered (R55, R209). -/
def islandTime (s : State) : Time := if s.island.vaon && s.island.good.getLsbD 0 then s.time.it else s.island.count
/-- A fault-log entry requested (R411). -/
def logEntry (e : LogEntry) (s : State) : State :=
  let n := s.store.logNext + 1
  storeReq (.log { e with lseq := n, it := islandTime s, hours := s.island.hours }) (s.modStore fun t => { t with logNext := n })
/-- A free value: an opaque constant of Config at a fresh counter (log 6). -/
def freshFree (s : State) : BitVec 64 × State := (Config.freeWord s.free, { s with free := s.free + 1 })

end Sys2Proof.Machine
end

