-- ==== Sys2Proof/Machine/Idle.lean ====
section
/-! DEFINITION. What passes on an empty queue: the clocks (R209, R330; log 2). -/
namespace Sys2Proof.Machine

/-- VSVO good: the time base counts (R209). -/
def vsvoGood (s : State) : Bool := s.island.vaon && s.island.good.getLsbD 0

/-- Powered hours count while VAON is good: 3,600 s of 16 × 10^9 TQ each (18, Words used here). -/
def tickHour (i : Island) : Island :=
  if !i.vaon then i
  else if i.hourTq + 1 = 57600000000000 then { i with hourTq := 0, hours := satInc i.hours }
  else { i with hourTq := i.hourTq + 1 }
/-- One TQ passes: installation time counts while VSVO is good, and CAN_TSC by 1 every 400 TQ; else the island's own
count runs (log 2). -/
def idle (s : State) : State :=
  let s := s.modIsland tickHour
  if vsvoGood s then
    let t := { s.time with it := s.time.it + 1, sub := (s.time.sub + 1) % 400 }
    { s with time := t, tsc := if s.time.sub + 1 = 400 then s.tsc + 1 else s.tsc }
  else if s.island.vaon then s.modIsland fun i => { i with count := i.count + 1 }
  else s

end Sys2Proof.Machine
end

