-- ==== Sys2Proof/Machine/Float.lean ====
section
/-! DEFINITION. Arithmetic on floating-point values (R179, R183, R247, R256): exact dyadic numbers, one rounding to a
format, binary32 and binary64 operations, and reference values of the functions that R185 bounds to 2 ulp. -/
namespace Sys2Proof.Machine

/-- (−1)^neg × m × 2^e. -/
structure Dy where
  neg : Bool
  m : Nat
  e : Int
deriving DecidableEq, Repr

/-- A floating-point value: NaN, an infinity or a dyadic number (a signed zero has m = 0). -/
inductive FV
  | nan
  | inf (neg : Bool)
  | fin (d : Dy)
deriving DecidableEq, Repr

/-- Rounding modes of RMODE (Table 8.1); the stochastic one with its r (R182). -/
inductive RMode | rne | rtz | rup | rdn | sto (r : Nat)
deriving DecidableEq, Repr

/-- A binary format: precision p, exponent of the least subnormal step, exponent of the greatest unit. -/
structure FFmt where
  ebits : Nat
  mbits : Nat
  /-- Largest finite magnitude, as m × 2^e. -/
  maxM : Nat
  maxE : Int
  hasInf : Bool
  hasNan : Bool
deriving DecidableEq, Repr

def FFmt.bias (f : FFmt) : Int := 2 ^ (f.ebits - 1) - 1
/-- Exponent of the least subnormal. -/
def FFmt.lsb (f : FFmt) : Int := 1 - f.bias - f.mbits
def fmt32 : FFmt := { ebits := 8, mbits := 23, maxM := 2 ^ 24 - 1, maxE := 104, hasInf := true, hasNan := true }
def fmt64 : FFmt := { ebits := 11, mbits := 52, maxM := 2 ^ 53 - 1, maxE := 971, hasInf := true, hasNan := true }
def fmt16 : FFmt := { ebits := 5, mbits := 10, maxM := 2 ^ 11 - 1, maxE := 5, hasInf := true, hasNan := true }
def fmtB16 : FFmt := { ebits := 8, mbits := 7, maxM := 2 ^ 8 - 1, maxE := 120, hasInf := true, hasNan := true }
/-- OCP MX v1.0: E4M3 has no infinity and one NaN per sign, greatest 448. -/
def fmtE4M3 : FFmt := { ebits := 4, mbits := 3, maxM := 14, maxE := 5, hasInf := false, hasNan := true }
def fmtE5M2 : FFmt := { ebits := 5, mbits := 2, maxM := 7, maxE := 13, hasInf := true, hasNan := true }
def fmtE3M2 : FFmt := { ebits := 3, mbits := 2, maxM := 7, maxE := 2, hasInf := false, hasNan := false }
def fmtE2M3 : FFmt := { ebits := 2, mbits := 3, maxM := 15, maxE := -1, hasInf := false, hasNan := false }
def fmtE2M1 : FFmt := { ebits := 2, mbits := 1, maxM := 3, maxE := 1, hasInf := false, hasNan := false }

/-! ### Exact operations -/

def Dy.zero : Dy := ⟨false, 0, 0⟩
def Dy.isZero (d : Dy) : Bool := d.m = 0
def Dy.abs (d : Dy) : Dy := { d with neg := false }
def Dy.flip (d : Dy) : Dy := { d with neg := !d.neg }
/-- The integer numerator over 2^−e at a common exponent `e ≤ d.e`. -/
def Dy.at (d : Dy) (e : Int) : Int :=
  let v : Int := d.m * 2 ^ (d.e - e).toNat
  if d.neg then -v else v
/-- From a signed integer times 2^e; a zero takes the given sign. -/
def Dy.ofInt (v : Int) (e : Int) (zneg : Bool := false) : Dy :=
  if v = 0 then ⟨zneg, 0, 0⟩ else ⟨decide (v < 0), v.natAbs, e⟩
/-- Exact sum; an exact zero sum of opposite signs is +0 (IEEE 754, to nearest). -/
def Dy.add (a b : Dy) : Dy :=
  let e := min a.e b.e
  Dy.ofInt (a.at e + b.at e) e (a.neg && b.neg)
def Dy.mul (a b : Dy) : Dy := ⟨a.neg != b.neg, a.m * b.m, a.e + b.e⟩
/-- Comparison a < b. -/
def Dy.lt (a b : Dy) : Bool := let e := min a.e b.e; decide (a.at e < b.at e)
def Dy.eq (a b : Dy) : Bool := let e := min a.e b.e; decide (a.at e = b.at e)
/-- Quotient with 320 significant bits and a sticky bit below. -/
def Dy.div (a b : Dy) : Dy :=
  let k := 320 + (Nat.log2 b.m + 1)
  let n := a.m * 2 ^ k
  let q := n / b.m
  ⟨a.neg != b.neg, 2 * q + (if n % b.m = 0 then 0 else 1), a.e - b.e - k - 1⟩
/-- Square root of a non-negative number, with a sticky bit. -/
def Dy.sqrt (a : Dy) : Dy :=
  let odd := a.e % 2 = 1
  let m := if odd then 2 * a.m else a.m
  let e := if odd then a.e - 1 else a.e
  let n := m * 2 ^ 640
  let r := Nat.sqrt n
  ⟨false, 2 * r + (if r * r = n then 0 else 1), e / 2 - 320 - 1⟩
/-- floor(log2 |d|) of a non-zero number. -/
def Dy.top (d : Dy) : Int := d.e + (Nat.log2 d.m : Int)
/-- Rounded to the nearest integer, ties to even. -/
def Dy.toInt (d : Dy) : Int :=
  let v : Int := if d.neg then -(d.m : Int) else d.m
  if 0 ≤ d.e then v * 2 ^ d.e.toNat else divRne v (2 ^ (-d.e).toNat)
def Dy.ofNat (n : Nat) : Dy := ⟨false, n, 0⟩

/-! ### Rounding -/

/-- Rounded to precision `p` with steps no finer than 2^lsb, exponent range unbounded above (R183). -/
def Dy.round (p : Nat) (lsb : Int) (r : RMode) (d : Dy) : Dy :=
  if d.m = 0 then d else
  let q := max (d.top - (p - 1 : Nat)) lsb
  if q ≤ d.e then ⟨d.neg, d.m * 2 ^ (d.e - q).toNat, q⟩ else
  let sh := (q - d.e).toNat
  let keep := d.m / 2 ^ sh
  let rem := d.m % 2 ^ sh
  let half := 2 ^ (sh - 1)
  let up := match r with
    | .rne => decide (half < rem) || (rem = half && keep % 2 = 1)
    | .rtz => false
    | .rup => !d.neg && decide (0 < rem)
    | .rdn => d.neg && decide (0 < rem)
    | .sto z => decide (2 ^ 16 ≤ (if 16 ≤ sh then rem / 2 ^ (sh - 16) else rem * 2 ^ (16 - sh)) + z)
  ⟨d.neg, keep + (if up then 1 else 0), q⟩
/-- Rounded to a format, exponent range unbounded above. -/
def FFmt.round (f : FFmt) (r : RMode) (d : Dy) : Dy := d.round (f.mbits + 1) f.lsb r
/-- Whether a rounded magnitude exceeds the format's largest finite value (R183). -/
def FFmt.over (f : FFmt) (d : Dy) : Bool := Dy.lt ⟨false, f.maxM, f.maxE⟩ d.abs
/-- A rounded finite value in the format's range as its bits. -/
def FFmt.pack (f : FFmt) (d : Dy) : Nat :=
  let s := if d.neg then 2 ^ (f.ebits + f.mbits) else 0
  if d.m = 0 then s else
  -- exponent of the leading bit
  let t := d.top
  if t < f.lsb + f.mbits then s + (d.at f.lsb).natAbs
  else
    let frac := if f.mbits ≤ Nat.log2 d.m then d.m / 2 ^ (Nat.log2 d.m - f.mbits)
      else d.m * 2 ^ (f.mbits - Nat.log2 d.m)
    s + (t + f.bias).toNat * 2 ^ f.mbits + (frac - 2 ^ f.mbits)
/-- The value of a format's bits. A set exponent of all ones is infinity or NaN where the format has them; E4M3 has the
one NaN of each sign. -/
def FFmt.unpack (f : FFmt) (v : Nat) : FV :=
  let neg := v.testBit (f.ebits + f.mbits)
  let ex := v / 2 ^ f.mbits % 2 ^ f.ebits
  let fr := v % 2 ^ f.mbits
  let allOnes := ex = 2 ^ f.ebits - 1
  if f.hasInf && allOnes then (if fr = 0 then .inf neg else .nan)
  else if !f.hasInf && f.hasNan && allOnes && fr = 2 ^ f.mbits - 1 then .nan
  else if ex = 0 then .fin ⟨neg, fr, f.lsb⟩
  else .fin ⟨neg, 2 ^ f.mbits + fr, f.lsb + ex - 1⟩

/-! ### Values in binary32 and binary64 -/

/-- A rounded result of an operation in a format, to nearest even, with infinities past the range. -/
def FFmt.norm (f : FFmt) : FV → FV
  | .fin d => let r := f.round .rne d; if f.over r then .inf d.neg else .fin r
  | v => v
def FV.flip : FV → FV
  | .nan => .nan | .inf n => .inf (!n) | .fin d => .fin d.flip
def FV.abs : FV → FV
  | .nan => .nan | .inf _ => .inf false | .fin d => .fin d.abs
def FV.isNan : FV → Bool | .nan => true | _ => false
def FV.isFin : FV → Bool | .fin _ => true | _ => false
def FV.isZero : FV → Bool | .fin d => d.m = 0 | _ => false
/-- Exact sum; ∞ − ∞ is NaN. -/
def FV.addX : FV → FV → FV
  | .nan, _ => .nan
  | _, .nan => .nan
  | .inf a, .inf b => if a = b then .inf a else .nan
  | .inf a, _ => .inf a
  | _, .inf b => .inf b
  | .fin a, .fin b => .fin (a.add b)
/-- Exact product; 0 × ∞ is NaN. -/
def FV.mulX : FV → FV → FV
  | .nan, _ => .nan
  | _, .nan => .nan
  | .inf a, .inf b => .inf (a != b)
  | .inf a, .fin d => if d.m = 0 then .nan else .inf (a != d.neg)
  | .fin d, .inf b => if d.m = 0 then .nan else .inf (d.neg != b)
  | .fin a, .fin b => .fin (a.mul b)
/-- Quotient with a sticky bit. -/
def FV.divX : FV → FV → FV
  | .nan, _ => .nan
  | _, .nan => .nan
  | .inf _, .inf _ => .nan
  | .inf a, .fin d => .inf (a != d.neg)
  | .fin d, .inf b => .fin ⟨d.neg != b, 0, 0⟩
  | .fin a, .fin b =>
    if b.m = 0 then (if a.m = 0 then .nan else .inf (a.neg != b.neg))
    else if a.m = 0 then .fin ⟨a.neg != b.neg, 0, 0⟩ else .fin (a.div b)
def FV.sqrtX : FV → FV
  | .nan => .nan
  | .inf n => if n then .nan else .inf false
  | .fin d => if d.m = 0 then .fin d else if d.neg then .nan else .fin d.sqrt
def FV.lt : FV → FV → Bool
  | .nan, _ => false
  | _, .nan => false
  | .inf a, .inf b => a && !b
  | .inf a, .fin _ => a
  | .fin _, .inf b => !b
  | .fin a, .fin b => a.lt b
def FV.ofInt (v : Int) : FV := .fin (Dy.ofInt v 0)

/-- A value already in the format, as its bits; NaN is the canonical one (R181). -/
def FFmt.bits (f : FFmt) : FV → Nat
  | .nan => if f.hasInf then (2 ^ f.ebits - 1) * 2 ^ f.mbits + 2 ^ (f.mbits - 1) else 2 ^ (f.ebits + f.mbits) - 1
  | .inf n => (if n then 2 ^ (f.ebits + f.mbits) else 0) + (2 ^ f.ebits - 1) * 2 ^ f.mbits
  | .fin d => f.pack d

abbrev F32 := BitVec 32
def f32v (x : F32) : FV := fmt32.unpack x.toNat
/-- An exact or sticky value rounded to binary32, to nearest, ties to even. -/
def f32of (v : FV) : F32 := BitVec.ofNat 32 (fmt32.bits (fmt32.norm v))
def f32add (a b : F32) : F32 := f32of ((f32v a).addX (f32v b))
def f32sub (a b : F32) : F32 := f32of ((f32v a).addX (f32v b).flip)
def f32mul (a b : F32) : F32 := f32of ((f32v a).mulX (f32v b))
def f32div (a b : F32) : F32 := f32of ((f32v a).divX (f32v b))
def f32sqrt (a : F32) : F32 := f32of (f32v a).sqrtX
/-- Fused: one rounding of a × b + c. -/
def f32fma (a b c : F32) : F32 := f32of (((f32v a).mulX (f32v b)).addX (f32v c))
def f32neg (a : F32) : F32 := a ^^^ 0x80000000#32
def f32ofInt (v : Int) : F32 := f32of (FV.ofInt v)
def f32fin (a : F32) : Bool := (f32v a).isFin
/-- Rounded to the nearest integer, ties to even, saturated to 32 bits; 0 for a NaN. -/
def f32toI32 (a : F32) : BitVec 32 :=
  match f32v a with
  | .nan => 0
  | .inf n => if n then 0x80000000#32 else 0x7FFFFFFF#32
  | .fin d => satInt 32 d.toInt

/-- Binary64 operations of the path interpolator (R256). -/
def f64add (a b : FV) : FV := fmt64.norm (a.addX b)
def f64sub (a b : FV) : FV := fmt64.norm (a.addX b.flip)
def f64mul (a b : FV) : FV := fmt64.norm (a.mulX b)
def f64div (a b : FV) : FV := fmt64.norm (a.divX b)

/-! ### Reference values of transcendental functions, on a grid of 2^−256 -/

def fxS : Nat := 256
/-- π as an integer over 10^62. -/
def pi62 : Nat := 314159265358979323846264338327950288419716939937510582097494459
/-- π in units of 2^−256. -/
def piFx : Nat := pi62 * 2 ^ fxS / 10 ^ 62
/-- Cosine and sine of an angle of a first quadrant in units of 2^−256, by their series. -/
def cosTaylor (x : Int) : Int :=
  ((List.range 40).foldl (fun (t : Int × Int) i =>
    let term := -(t.2 * x / 2 ^ fxS * x / 2 ^ fxS / ((2 * i + 1) * (2 * i + 2)))
    (t.1 + term, term)) (2 ^ fxS, 2 ^ fxS)).1
def sinTaylor (x : Int) : Int :=
  ((List.range 40).foldl (fun (t : Int × Int) i =>
    let term := -(t.2 * x / 2 ^ fxS * x / 2 ^ fxS / ((2 * i + 2) * (2 * i + 3)))
    (t.1 + term, term)) (x, x)).1
/-- Cosine and sine of n/d turns in units of 2^−256. -/
def cosSin (n : Int) (d : Nat) : Int × Int :=
  let m := n % d
  let q := 4 * m / d
  let x := (piFx / 2 : Int) * (4 * m % d) / d
  let c := cosTaylor x
  let v := sinTaylor x
  if q = 0 then (c, v) else if q = 1 then (-v, c) else if q = 2 then (-c, -v) else (v, -c)
/-- ln 2 on the grid, by Σ 1 / (n 2^n). -/
def ln2Fx : Nat := (List.range 300).foldl (fun a i => a + 2 ^ fxS / ((i + 1) * 2 ^ (i + 1))) 0
/-- √(2/π) on the grid. -/
def sqrt2OverPiFx : Nat := Nat.sqrt (2 * 10 ^ 62 * 2 ^ (2 * fxS) / pi62)
/-- e^r on the grid for a small grid number r, by its Taylor series. -/
def expTaylor (r : Int) : Int :=
  ((List.range 80).foldl (fun (t : Int × Int) i =>
    let term := t.2 * r / 2 ^ fxS / (i + 1)
    (t.1 + term, term)) ((2 ^ fxS : Int), (2 ^ fxS : Int))).1
/-- A dyadic number on the grid, floored. -/
def Dy.fx (d : Dy) : Int :=
  let v : Int := if d.neg then -(d.m : Int) else d.m
  let k := d.e + fxS
  if 0 ≤ k then v * 2 ^ k.toNat else v / 2 ^ (-k).toNat
/-- e^x of a finite number. -/
def expDy (d : Dy) : Dy :=
  let x := if d.m ≠ 0 ∧ 12 < d.top then (if d.neg then -(2 ^ 12) else 2 ^ 12) * 2 ^ fxS else d.fx
  let k := (x + ln2Fx / 2) / ln2Fx
  let r := x - k * ln2Fx
  ⟨false, (expTaylor r).toNat, k - fxS⟩
def Dy.one : Dy := ⟨false, 1, 0⟩
/-- 1 / (1 + e^−x). -/
def sigmoidDy (d : Dy) : Dy :=
  if d.neg then let e := expDy d; e.div (Dy.one.add e)
  else Dy.one.div (Dy.one.add (expDy d.flip))
/-- tanh x = (1 − e^−2|x|) / (1 + e^−2|x|) with the sign of x. -/
def tanhDy (d : Dy) : Dy :=
  if d.m = 0 then d else
  let e := expDy ⟨true, d.m, d.e + 1⟩
  let t := (Dy.one.add e.flip).div (Dy.one.add e)
  { t with neg := d.neg }
/-- x × sigmoid(x). -/
def siluDy (d : Dy) : Dy := d.mul (sigmoidDy d)
/-- The tanh form: 0.5 x (1 + tanh(√(2/π) (x + 0.044715 x³))), that is x × sigmoid of twice the inner value. -/
def geluDy (d : Dy) : Dy :=
  let c : Dy := (Dy.ofNat 44715).div (Dy.ofNat 1000000)
  let u := (⟨false, sqrt2OverPiFx, 1 - (fxS : Int)⟩ : Dy).mul (d.add (c.mul (d.mul (d.mul d))))
  d.mul (sigmoidDy u)
/-- A reference value as a binary32 within 2 ulp of it (R185): its truncation and −1 to 2 steps, as the free value of
Config says for these inputs. -/
def within2ulp (inputs : List (BitVec 32)) (code : BitVec 8) (v : FV) : F32 :=
  match v with
  | .fin d =>
    if d.m = 0 then f32of (.fin d) else
    let t := fmt32.round .rtz d
    let k : Int := (Config.ulpError inputs code % 4 : Nat) - 1
    let x := Dy.ofInt ((t.abs.at t.e) + k) t.e
    f32of (.fin (if t.neg then x.flip else x))
  | v => f32of v

end Sys2Proof.Machine
end

