-- ==== Sys2Proof/Machine/Faults.lean ====
section
/-! DEFINITION. Faults, fences and freeze requests (spec/17): the class of a cause, the reactions of Table 17.2, the
function fence and the partition fence, the conditions under which a cause can be cleared, leaving the fault state. -/
namespace Sys2Proof.Machine

/-! ### Rails, as the fence of class 4 and the sequencer use them (Table 3.1) -/

/-- Group of the rail on SEQ_ENn. -/
def railGroup : Nat → Nat
  | 0 => 1 | 1 => 2 | 2 => 2 | 3 => 3 | 4 => 4 | 5 => 4 | 6 => 4 | 7 => 4 | 8 => 4 | 9 => 5 | 10 => 5 | 11 => 6
  | 12 => 7 | _ => 8
/-- Enables whose group satisfies `f`. -/
def railMask (f : Nat → Bool) : BitVec 14 :=
  BitVec.ofNat 14 ((List.range 14).foldl (fun a n => if f (railGroup n) then a + 2 ^ n else a) 0)
/-- The enables of the servo-only set: VSVO and VANA (R55). -/
def servoRails : BitVec 14 := 0x0003
/-- Enables removed; the rails stop being good at once (log 21). -/
def dropEnables (m : BitVec 14) (s : State) : State :=
  s.modIsland fun i => { i with enabled := i.enabled &&& ~~~m, good := i.good &&& ~~~m }
/-- The highest group at or below `g` with an enable still asserted. -/
def topGroup (s : State) (g : Nat) : Option Nat :=
  ((List.range g).map fun i => g - i).find? fun k => (s.island.enabled &&& railMask (· = k)) ≠ 0

/-! ### Axis states (R239, R272) -/

def AxState.code : AxState → Nat
  | .disabled => 0 | .enabled => 1 | .stopping => 2 | .safe => 3 | .held => 4
/-- The loops drive the outputs. -/
def AxState.runs (x : AxState) : Bool := x = .enabled || x = .stopping
def axFid (a : Fin 32) : Fid := fidMk 7 a
/-- The engine that carries an axis, and the axis's slot on it (12.1). -/
def axEngine (a : Fin 32) : Fin 8 := ⟨a / 4, by omega⟩
def axSlot (a : Fin 32) : Fin 4 := ⟨a % 4, by omega⟩
def engineAxis (e : Fin 8) (i : Fin 4) : Fin 32 := ⟨4 * e + i, by omega⟩
def engineAxes (e : Fin 8) : List (Fin 32) := (List.finRange 4).map (engineAxis e)
/-- R244: with none of its axes running, the engine's grid returns to R242. -/
def rephase (e : Fin 8) (s : State) : State :=
  if (engineAxes e).any fun a => (vget s.axes a).st.runs then s
  else (engineAxes e).foldl (fun s a => s.modAxis a fun x => { x with aligned := true, phase := 0 }) s
/-- An axis moves to a state: event 0x30 and the console line of Table 18.2. Cause 0 order, 1 fault, 2 hardware stop,
3 reset. Leaving a running state ends the path and the duties (SAFE_STATE 2 holds the last duty for one period). -/
def axisTo (a : Fin 32) (new : AxState) (cause rank port : Nat) (s : State) : State :=
  let x := vget s.axes a
  if x.st = new then s else
  let hold := match x.rec_ with
    | some r => if x.st.runs && !new.runs && r.safeState = 2 then some (s.time.it + 40 * r.pwmPer.setWidth 64) else none
    | none => none
  let s := s.modAxis a fun x => { x with
    st := new, safeHold := hold, segRun := if new.runs then x.segRun else none,
    src := if new.runs then x.src else 0, pwmTest := none }
  let s := emit (axFid a) 0x30 (pl 16 x.st.code + pl 17 new.code + pl 18 cause + pl 19 rank + pl 20 port) s
  let s := if cause = 1 ∨ cause = 2 then say (.axis a new.code cause port) s else s
  if new.runs then s else rephase (axEngine a) s
/-- The safe-state logic: the SAFE_STATE pattern and SAFE; a HELD axis stays HELD (Table 11.3, R269). -/
def safeAxis (a : Fin 32) (s : State) : State :=
  if (vget s.axes a).st = .held then s else axisTo a .safe 1 1 0 s

/-! ### Commands of a function (R128, R380, Table 6.5) -/

def statusAborted : BitVec 16 := 0x0007
def statusFenced : BitVec 16 := 0x0006
def statusFwTimeout : BitVec 16 := 0x0009
/-- Every dispatched command changed. -/
def State.mapDisp (g : Fin 64 → Cmd → Cmd) (s : State) : State :=
  { s with queues := Vector.ofFn fun n =>
      let q := vget s.queues n
      { q with disp := q.disp.map (g n) } }
def Cmd.target (c : Cmd) : Fid := BitVec.ofNat 16 (leAt c.bytes 4 2)
/-- An outstanding command ends: a running one with `run`, one not yet begun with FENCED. -/
def Cmd.abort (c : Cmd) (run : BitVec 16) (it : Stamp) : Cmd :=
  match c.st with
  | .running => { c with st := .done run 0 it }
  | .ready => { c with st := .done statusFenced 0 it }
  | .waiting => { c with st := .done statusFenced 0 it }
  | .done _ _ _ => c
/-- The commands whose TARGET is `f` end (R380). -/
def abortTarget (f : Fid) (run : BitVec 16) (s : State) : State :=
  s.mapDisp fun _ c => if c.target = f then c.abort run (stamp s) else c
/-- The command of a queue and slot ends with a status and DETAIL. -/
def finishCmd (o : Fin 64 × BitVec 16) (st : BitVec 16) (detail : BitVec 32) (s : State) : State :=
  s.modQueue o.1 fun q =>
    match q.disp.findIdx? fun c => c.slot = o.2 && (match c.st with | .done _ _ _ => false | _ => true) with
    | some k => { q with disp := q.disp.modify k fun c => { c with st := .done st detail (stamp s) } }
    | none => q

/-! ### Peat engines whose operation is aborted (R166, R380) -/

/-- PEAT_STATj takes a new result. -/
def PeatEngine.result (e : PeatEngine) (tag : BitVec 32) (code : BitVec 8) : PeatEngine :=
  { e with statTag := tag, statCode := code, stat := e.stat.bump }
def PeatEngine.owns (e : PeatEngine) (p : Fin 32) : Bool := e.claimed && e.owner.toNat = p.val
/-- An operation in progress ends with ABORTED; one for a collective channel is left to its PEAT_OP_DONE, which tells the
channel. -/
def PeatEngine.aborted (e : PeatEngine) : PeatEngine :=
  match e.run with
  | some r => match r.why with
    | .channel _ _ => { e with run := some { r with result := some 5 }, modePending := none }
    | _ => { e.result r.tag 5 with run := none, modePending := none }
  | none => { e with modePending := none }
/-- A partition's work on a stack that it may share: its commands end and its engines' operations are aborted; its claims
stay, and other partitions' engines go on (R381). -/
def stopStack (k : Fin 8) (p : Fin 32) (s : State) : State :=
  let s := s.mapDisp fun n c =>
    if c.target = fidMk 4 k && queuePart s n = some p then c.abort statusAborted (stamp s) else c
  { s with peat := vmod s.peat k fun st => { st with
      eng := st.eng.map fun e => if e.owns p then e.aborted else e
      fails := st.fails.filter fun x => queuePart s x.1.1 ≠ some p } }

/-! ### Function and partition fences (R380, R381) -/

/-- A tile without work: its logic is clock-gated, but for a reflex lane's, which stays clocked; a held tile keeps its
gate (R149). -/
def Tile.idle (t : Tile) : Tile :=
  { t with jobs := [], gate := if t.lane then 0 else if t.held then t.gate else 1 }
/-- What stops at once when a function is fenced or reset: its commands end, its work is dropped (R380). -/
def stopWork (f : Fid) (run : BitVec 16) (s : State) : State :=
  let s := abortTarget f run s
  let i := fidIdx f
  match fidType f with
  | 2 => s.modTile ⟨i % 64, by omega⟩ Tile.idle
  | 3 => s.modShuttle ⟨i % 16, by omega⟩ fun sh =>
      { sh with ch := sh.ch.map fun c => { c with running := none, waiting := [], out := [] } }
  | 4 => { s with peat := vmod s.peat ⟨i % 8, by omega⟩ fun st =>
      { st with eng := st.eng.map (·.aborted), fails := [] } }
  | 7 => s
  | 8 => s.modFbk ⟨i % 40, by omega⟩ fun c => { c with good := false, ssiRun := none, hasPair := false, goodRun := 0 }
  | 9 => { s with cc := { s.cc with cmp := s.cc.cmp.map fun c => { c with high := false, prev := none } } }
  | 10 => s.modCan ⟨i % 4, by omega⟩ fun c => { c with tx := none, flag := none }
  | 13 => { s with chans := vmod s.chans ⟨i % 4, by omega⟩ fun v => v.map fun c =>
      { c with contrib := [], openCmd := none, castWait := none, waitOp := none, out := [] } }
  | _ => s
/-- A function's work stops; an axis enters SAFE (R380, R381). -/
def fenceWork (f : Fid) (s : State) : State :=
  let s := stopWork f statusAborted s
  if fidType f = 7 then safeAxis ⟨fidIdx f % 32, by omega⟩ s else s
/-- The function fence (R380). -/
def fenceFn (f : Fid) (s : State) : State :=
  fenceWork f (s.modFlt (fidSlot f) fun x => { x with fence := true })
/-- Writes of a partition in flight past its selvedge. -/
def inFlight (s : State) (p : Fin 32) : Bool := s.remote.any fun w => w.2.2.part = p
/-- SEL_PSTAT.DRAINED: no traffic of an assigned partition is in flight past its selvedge. -/
def drained (s : State) (p : Fin 32) : Bool := (vget s.parts p).assigned && !inFlight s p
/-- The partition fence (R381, R382). -/
def fencePart (p : Fin 32) (byFid : Fid) (s : State) : State :=
  if (vget s.parts p).fenced then s else
  let s := s.modPart p fun x => { x with fenced := true, byFid := byFid }
  let s := (partFids s p).foldl (fun s f =>
    if fidType f = 4 then stopStack ⟨fidIdx f % 8, by omega⟩ p s else fenceWork f s) s
  let qs := Vector.ofFn fun n =>
    if queuePart s n = some p then { vget s.queues n with enable := false, fetched := [] } else vget s.queues n
  let s := { s with queues := qs }
  let s := say (.fence p byFid) s
  if p = 0 then s else emitTo 0 byFid 0x11 (pl 16 p + pl 18 byFid.toNat) s

/-! ### Classes (R375, Table 17.3, Table 17.4) -/

/-- Class of a cause bit on a function. -/
def causeClass (f : Fid) (bit : Nat) : Nat :=
  match bit with
  | 0 => 0 | 1 => 0 | 2 => 0
  | 3 => if fidType f = 14 || fidType f = 4 then 0 else 1
  | 4 => 1 | 5 => 1 | 6 => 1
  | 7 => if fidType f = 7 || fidType f = 6 || fidType f = 8 || fidType f = 9 then 3
         else if f = islandFid then 4 else 1
  | 8 => 2 | 9 => 2 | 10 => 3 | _ => 4
/-- Greatest class among a set of causes. -/
def maskClass (f : Fid) (m : BitVec 12) : Nat :=
  (List.range 12).foldl (fun a b => if m.getLsbD b then max a (causeClass f b) else a) 0
def partFenced (s : State) (f : Fid) : Bool :=
  match partOf s f with | some p => (vget s.parts p).fenced | none => false
/-- Class of a function's fault state (R375). -/
def faultClass (s : State) (f : Fid) : Nat :=
  max (maskClass f (vget s.flt (fidSlot f)).a.cause) (if partFenced s f then 2 else 0)
/-- FLT_STAT.FAULTED (R375). -/
def faulted (s : State) (f : Fid) : Bool := decide (1 ≤ faultClass s f)
/-- Held in reset or fenced: the function takes no command (R128, R380). -/
def fencedOrFaulted (s : State) (f : Fid) : Bool := isFenced s f

/-! ### Freeze requests (R389) -/

/-- The freeze instant of a T: the least multiple of 40 TQ at or after it. -/
def frzInstant (t : Time) : Time := BitVec.ofNat 64 (ceilDiv t.toNat 40 * 40)
/-- A freeze is requested: with one pending, the lower T is kept (on equal T the lower ORIGIN, R391) and the other
counted in DISC. -/
def frzRequest (r : FrzPend) (s : State) : State :=
  s.modFrz fun f =>
    match f.pending with
    | none => { f with pending := some r }
    | some o =>
      let better := decide (r.t < o.t) || (r.t = o.t && decide (r.origin < o.origin))
      { f with pending := some (if better then r else o), disc := satInc f.disc }
/-- This chip's ID, X + 16 Y + 256 Z (9, Words used here); 0 without a fabric record. -/
def chipId (s : State) : BitVec 12 :=
  let q := fun i => (vget s.fabric.pos i).toNat
  BitVec.ofNat 12 (q 0 + 16 * q 1 + 256 * q 2)
def freezeOnFault (cls : Nat) (s : State) : State :=
  if s.frz.onFault && decide (2 ≤ cls) && !isFenced s frzFid then
    frzRequest { t := s.time.it, source := 2, late := false, origin := chipId s } s
  else s

/-! ### Reactions (Table 17.2, R377, R379) -/

/-- Class 4 (R362): every axis forced safe, the groups from 8 down dropped with no grace wait. A start in progress goes
no further, and the end of the drop gives its result; a retry is not made; with no enable asserted and nothing in progress
only the marker changes, and with a start in progress the drop ends at its first RAIL_DECAYED (log 65). -/
def criticalDrop (s : State) : State :=
  let s := (List.finRange 32).foldl (fun s a => safeAxis a s) s
  let stop := fun (g : Nat) (s : State) => s.modIsland fun i => { i with
    start := if i.seqr = .retry then none else i.start.map fun r => { r with failed := some (r.failed.getD .ok) }
    seqr := .dropping .critical g false }
  match s.island.seqr, topGroup s 8 with
  | .dropping .critical _ _, _ => s
  | .disorderly _ _, _ => s
  | _, some g => stop g (dropEnables (railMask (· = g)) s)
  | _, none =>
    if s.island.start.isSome || s.island.seqr ≠ .idle then stop 0 s
    else setBlock (fun b => { b with marker := .disorderly }) s
/-- Axes whose record names a feedback channel. -/
def axesOfFbk (s : State) (c : Fin 40) : List (Fin 32) :=
  (List.finRange 32).filter fun a => match (vget s.axes a).rec_ with
    | some r => r.fbkA.toNat = c.val || r.fbkB.toNat = c.val
    | none => false
/-- Assigned axes of an engine (R377). -/
def assignedAxes (s : State) (e : Fin 8) : List (Fin 32) :=
  (engineAxes e).filter fun a => (partOf s (axFid a)).isSome

/-- The record of a new cause of class 1 or higher: event 0x10, !FAULT, the fault log from class 2 on, and a freeze
when ONFAULT is set (R382, R389, R392). -/
def announce (f : Fid) (bit : Nat) (s : State) : State :=
  let cls := causeClass f bit
  if cls = 0 then s else
  let st := (vget s.flt (fidSlot f)).a
  let s := emit f 0x10 (pl 16 (faultClass s f) + pl 17 bit + pl 18 st.cause.toNat + pl 20 st.tag.seq.toNat) s
  let s := say (.fault f (faultClass s f) st.cause) s
  let s := if cls < 2 then s else
    logEntry { fid := f, kind := 0, cls := BitVec.ofNat 8 (faultClass s f), cause := st.cause.setWidth 16,
               bit := BitVec.ofNat 8 bit,
               part := match partOf s f with | some p => BitVec.ofNat 8 p | none => 0xFF } s
  freezeOnFault cls s
/-- OUTPUT on an axis: the cause, why it stands (R383), the SAFE_STATE pattern (R269, R375). -/
def raiseOutput (a : Fin 32) (why : Nat) (s : State) : State :=
  let f := axFid a
  let new := !(vget s.flt (fidSlot f)).a.cause.getLsbD 10
  let s := putCause f 10 s
  let s := s.modFlt (fidSlot f) fun x => { x with outWhy := x.outWhy ||| (1#5 <<< why) }
  let s := safeAxis a s
  if new then announce f 10 s else s
/-- The reaction of a cause (Table 17.2, R377, Table 17.4). -/
def react (f : Fid) (bit : Nat) (s : State) : State :=
  let i := fidIdx f
  match causeClass f bit with
  | 0 => s
  | 1 =>
    let s := fenceFn f s
    if fidType f = 6 then (assignedAxes s ⟨i % 8, by omega⟩).foldl (fun s a => raiseOutput a 2 s) s else s
  | 2 =>
    let s := fenceFn f s
    let s := if fidType f = 6 then (assignedAxes s ⟨i % 8, by omega⟩).foldl (fun s a => raiseOutput a 2 s) s else s
    match partOf s f with
    | some p => fencePart p f s
    | none => s
  | 3 =>
    match fidType f with
    | 6 => (assignedAxes (fenceFn f s) ⟨i % 8, by omega⟩).foldl (fun s a => raiseOutput a 2 s) (fenceFn f s)
    | 7 => safeAxis ⟨i % 32, by omega⟩ s
    | 8 => (axesOfFbk s ⟨i % 40, by omega⟩).foldl (fun s a => raiseOutput a (if bit = 7 then 3 else 1) s) s
    | 9 => fenceFn f s
    | _ => s
  | _ => criticalDrop s
/-- A fault cause of a function is detected (R375, R376): its bit is set in both copies, its class's reaction taken,
and, for a bit that was clear, event 0x10 and the lines and records of class 2. -/
def raiseCause (f : Fid) (bit : Nat) (s : State) : State :=
  let new := !(vget s.flt (fidSlot f)).a.cause.getLsbD bit
  let s := react f bit (putCause f bit s)
  if new then announce f bit s else s
/-- CORR with its count (R376). -/
def raiseCorr (f : Fid) (s : State) : State :=
  putCause f 0 (s.modFlt (fidSlot f) fun x => { x with corr := satInc x.corr })

/-! ### Conditions and leaving the fault state (R383, R384) -/

/-- Loss of REFCLK or of the servo PLL's lock (R54). -/
def clockLost (s : State) : Bool := !s.island.refclk || !s.island.pll
/-- Whether the condition of a set cause persists (R383). -/
def persists (s : State) (f : Fid) (bit : Nat) : Bool :=
  let x := vget s.flt (fidSlot f)
  let i := fidIdx f
  match bit with
  | 3 => !x.stale.getLsbD 3
  | 4 => !x.stale.getLsbD 4
  | 9 => !x.stale.getLsbD 9
  | 5 => if fidType f = 5 then (vget s.ports ⟨i % 16, by omega⟩).st ≠ .up
         else if fidType f = 12 then !(vget s.rports ⟨i % 8, by omega⟩).up else false
  | 6 => s.dsp.sigres.toList.any fun r => r.badLast || r.badNow
  | 7 => (x.a.cause &&& ~~~0x080#12) ≠ (x.b.cause &&& ~~~0x080#12)
  | 10 =>
    if fidType f = 8 then !(vget s.fbk ⟨i % 40, by omega⟩).good
    else if fidType f = 7 then
      let a : Fin 32 := ⟨i % 32, by omega⟩
      let chans := (List.finRange 40).filter fun c => a ∈ axesOfFbk s c
      (x.outWhy.getLsbD 0 && clockLost s) ||
      (x.outWhy.getLsbD 1 && chans.any fun c => (vget s.fbk c).cable && !(vget s.fbk c).good) ||
      (x.outWhy.getLsbD 2 && faulted s (fidMk 6 (axEngine a))) ||
      (x.outWhy.getLsbD 3 && chans.any fun c => (vget s.flt (fidSlot (fidMk 8 c))).a.cause.getLsbD 7)
    else false
  | 11 => true
  | _ => false
/-- FLT_STAT.PERSIST. -/
def persistAny (s : State) (f : Fid) : Bool :=
  (List.range 12).any fun b => (vget s.flt (fidSlot f)).a.cause.getLsbD b && persists s f b
/-- A cause bit cleared in both copies. -/
def dropCause (f : Fid) (bit : Nat) (s : State) : State :=
  let m := ~~~(1#12 <<< bit)
  s.modFlt (fidSlot f) fun x => { x with
    a := { x.a with cause := x.a.cause &&& m }, b := { x.b with cause := x.b.cause &&& m },
    outWhy := if bit = 10 then 0 else x.outWhy }
/-- R384: no cause of class 1 or higher left and no partition fence: the fault state is left. -/
def leaveFault (f : Fid) (prev : Nat) (s : State) : State :=
  if prev = 0 || faulted s f then s else
  let s := s.modFlt (fidSlot f) fun x => { x with fence := false }
  let s := emit f 0x13 (pl 16 prev) s
  if fidType f = 7 then
    let a : Fin 32 := ⟨fidIdx f % 32, by omega⟩
    if (vget s.axes a).st = .safe then axisTo a .disabled 1 1 0 s else s
  else s
/-- A write of 1 to one set cause bit: cleared, or refused while its condition persists (R383). -/
def clearOne (f : Fid) (bit : Nat) (s : State) : State :=
  if !(vget s.flt (fidSlot f)).a.cause.getLsbD bit && !(vget s.flt (fidSlot f)).b.cause.getLsbD bit then s
  else if persists s f bit then
    let s := s.modFlt (fidSlot f) fun x => { x with refused := satInc x.refused }
    emit f 0x14 (pl 16 bit + pl 20 (vget s.flt (fidSlot f)).refused.toNat) s
  else dropCause f bit s
/-- A write of a mask to CAUSE: bits in ascending order, then R384. -/
def clearCauses (f : Fid) (mask : BitVec 12) (s : State) : State :=
  let prev := faultClass s f
  leaveFault f prev ((List.range 12).foldl (fun s b => if mask.getLsbD b then clearOne f b s else s) s)

end Sys2Proof.Machine
end

