-- ==== Sys2Proof/Machine/Sources.lean ====
section
/-! DEFINITION. The APLIC's wired sources (R107, Table 5.2): each source's level as its block's condition gives it, and
the settling of levels into pending bits and MSIs that ends every command. -/
namespace Sys2Proof.Machine

/-- TJ_MAX in 1/16 °C (R361). -/
def tjMax : Int := if Config.gradeE then 1680 else 1600
/-- A slot raises its function's source while CAUSE and FLT_IEN have a bit in common (17.3). -/
def slotHigh (s : State) (f : Fid) : Bool :=
  let x := vget s.flt (fidSlot f)
  (x.a.cause &&& x.ien) ≠ 0
/-- The function of a source (Table 5.2). -/
def srcFid (n : Nat) : Option Fid :=
  if n = 1 then some islandFid
  else if 64 ≤ n ∧ n < 128 then some (fidMk 2 (n - 64))
  else if 128 ≤ n ∧ n < 144 then some (fidMk 3 (n - 128))
  else if 144 ≤ n ∧ n < 152 then some (fidMk 4 (n - 144))
  else if 152 ≤ n ∧ n < 168 then some (fidMk 5 (n - 152))
  else if 168 ≤ n ∧ n < 176 then some (fidMk 6 (n - 168))
  else if 176 ≤ n ∧ n < 208 then some (fidMk 7 (n - 176))
  else if 208 ≤ n ∧ n < 248 then some (fidMk 8 (n - 208))
  else if n = 248 then some ccFid
  else if 252 ≤ n ∧ n < 256 then some (fidMk 10 (n - 252))
  else if n = 256 then some dspFid
  else if 260 ≤ n ∧ n < 268 then some (fidMk 12 (n - 260))
  else if 268 ≤ n ∧ n < 272 then some (fidMk 13 (n - 268))
  else if 272 ≤ n ∧ n < 280 then some (fidMk 14 (n - 272))
  else if n = 280 then some timeFid
  else if n = 281 then some frzFid
  else none
/-- Sources 1 to 4, 280 and 281: configured by P0 only (R108). -/
def srcChip (n : Nat) : Bool := decide (1 ≤ n) && decide (n ≤ 4) || n = 280 || n = 281
def srcListed (n : Nat) : Bool := srcChip n || (srcFid n).isSome
/-- Conditions that a block's chapter adds to its slot (7.5, 12.8, 13.6, R329, 15.7, 16.9; log 22 for source 4). -/
def blockHigh (s : State) (n : Nat) : Bool :=
  if n = 2 then s.power.pmbErr || s.power.pacing
  else if n = 3 then s.power.temp.toList.any fun t => decide (tjMax ≤ t.toInt)
  else if n = 4 then s.rat.errTag.valid
  else if 144 ≤ n ∧ n < 152 then
    let k := vget s.peat ⟨(n - 144) % 8, by omega⟩
    (List.finRange 32).any fun j => (vget k.eng j).stat.valid && k.irqen.getLsbD j
  else if 168 ≤ n ∧ n < 176 then
    let e := vget s.trd ⟨(n - 168) % 8, by omega⟩
    e.errTag.valid && decide (1 ≤ e.errCode) && decide (e.errCode ≤ 8)
  else if 208 ≤ n ∧ n < 248 then
    let c := vget s.fbk ⟨(n - 208) % 40, by omega⟩
    c.qerr || c.amp || c.ospeed || c.frame || c.cable
  else if n = 248 then s.cc.cmp.toList.any (·.done) || s.cc.cap.toList.any (·.tag.valid)
  else if 252 ≤ n ∧ n < 256 then
    let c := vget s.can ⟨(n - 252) % 4, by omega⟩
    (List.finRange 64).any fun j => decide (8 ≤ j.val) && (vget c.mo j).cfg.getLsbD 8 && (vget c.mo j).tag.valid
  else if n = 256 then (s.dsp.ctag.valid && s.dsp.ccode ≠ 0) || s.dsp.errscr
  else false
/-- Level of a source. -/
def srcHigh (s : State) (n : Nat) : Bool :=
  (match srcFid n with | some f => slotHigh s f | none => false) || blockHigh s n
def listedSources : List Nat := (List.range 512).filter srcListed
def levels (s : State) : BitVec 512 :=
  BitVec.ofNat 512 (listedSources.foldl (fun a n => if srcHigh s n then a + 2 ^ n else a) 0)

/-- The domain in which a source is configured Level1: the supervisor's where the machine's sourcecfg delegates it. -/
def srcDomain (s : State) (n : Nat) : Option (Fin 2) :=
  let m := spGet (0 : BitVec 32) (vget s.aplic 0).sourcecfg n
  if m.getLsbD 10 then (if spGet (0 : BitVec 32) (vget s.aplic 1).sourcecfg n = 6 then some 1 else none)
  else if m = 6 then some 0 else none
/-- A pending, enabled source of a delivering domain is forwarded as an MSI and its pending bit cleared (R107). -/
def aplicForward (d : Fin 2) (n : Nat) (s : State) : State :=
  let a := vget s.aplic d
  if a.pending.getLsbD n && a.enabled.getLsbD n && a.domaincfg.getLsbD 8 then
    let t := (spGet (0 : BitVec 32) a.targets n).toNat
    let s := { s with aplic := vmod s.aplic d fun a => { a with pending := a.pending &&& ~~~(1#512 <<< n) } }
    if fld t 0 11 < 256 then
      sendMsi (fld t 18 14) (if d = 0 then 0 else 1 + fld t 12 6) (BitVec.ofNat 8 (fld t 0 11)) s
    else s
  else s
/-- One source's level against the level last seen: a rise sets its pending bit, a low level clears it. -/
def aplicSense (lv : BitVec 512) (n : Nat) (s : State) : State :=
  match srcDomain s n with
  | none => s
  | some d =>
    let f : AplicDomain → AplicDomain := fun a =>
      if !lv.getLsbD n then { a with pending := a.pending &&& ~~~(1#512 <<< n) }
      else if !s.srcLevel.getLsbD n then { a with pending := a.pending ||| (1#512 <<< n) } else a
    aplicForward d n { s with aplic := vmod s.aplic d f }
/-- The state after every source has been sensed. -/
def sensed (s : State) : State := listedSources.foldl (fun t n => aplicSense (levels s) n t) s
/-- The end of every command: the APLIC senses its sources. Only the APLIC, the cores' interrupt files and the seen
levels change. -/
def settle (s : State) : State :=
  { s with aplic := (sensed s).aplic, cores := (sensed s).cores, srcLevel := levels s }
/-- A command's outcome: its effect, settled. -/
def done (s : State) : Host.Outcome State Fault Refusal := .next (settle s)
/-- A command's outcome from state `s`: one with an access to a region entry of a partition under reload changes nothing,
since the access is held until the region stage (R91, log 75). -/
def doneFrom (s t : State) : Host.Outcome State Fault Refusal :=
  if s.rat.reopened.isSome && t.rat.waits && !s.rat.waits then .next s else done t
/-- A command whose event cannot come about in this state changes nothing (log 23). -/
def doneIf (c : Bool) (s : State) (f : State → State) : Host.Outcome State Fault Refusal :=
  if c then doneFrom s (f s) else .next s

end Sys2Proof.Machine
end

