-- ==== Sys2Proof/Machine/Access.lean ====
section
/-! DEFINITION. Accesses: the register page rule (R77, Table 4.3), the page map (Table 4.2), and reads and writes of one
aligned word by a unit, with the checks of R86, R77, R142 to R145 and the Peat aperture (R165 to R170). -/
namespace Sys2Proof.Machine

/-! ### Who runs -/

/-- Control cluster d executes: full mode, released, not stopped, not fenced (R141). -/
def clusterRuns (s : State) (d : Fin 4) : Bool :=
  s.island.mode = .full && !s.clusterHeld.getLsbD d && !s.clusterStop.getLsbD d && !isFenced s (fidMk 13 d) &&
  !resetting s (fidMk 13 d)
/-- Core n executes: full mode, released, not fenced, in no reset (R117, R118, R380). -/
def coreRuns (s : State) (n : Fin 48) : Bool :=
  s.island.mode = .full && !(vget s.cores n).held && !isFenced s (fidMk 1 n) && !resetting s (fidMk 1 n)
/-- A master that can make an access now. -/
def masterRuns (s : State) : Master → Bool
  | .core n => coreRuns s n
  | .cluster d => clusterRuns s d

/-! ### Register pages -/

/-- A page as R77 and Table 4.3 divide them. -/
inductive Page
  /-- Page of a function; its fault slot and RST set take writes while the function is fenced. -/
  | fn (f : Fid)
  | slot (f : Fid)
  /-- Read by all; written by P0 where `w`. -/
  | shared (w : Bool)
  | nvs
  | aplic
  | pstat (p : Fin 32) (ctrl : Bool)
  | rst (p : Fin 32)
  /-- Undefined offsets within a page that any holder of a function of a type reaches. -/
  | holders (type : Nat)
  | undef
deriving DecidableEq, Repr

def regBase : Nat := 0xF0000000000
/-- The page of a register-space address; none outside Table 4.2 (R74, R75). The spec names no owner of the offsets of CQ
and of RST at and above 0x2000: every partition reaches them as undefined offsets (DESIGN CHOICE, log 37). -/
def pageOf (a : Nat) : Option Page :=
  let o := a - regBase
  let off := o % 0x10000
  if o < 0x10000 then some (.shared ((0x108 ≤ off ∧ off < 0x10C) ∨ (0x130 ≤ off ∧ off < 0x134)))
  else if o / 0x10000 = 0x10 then some (.shared (0x200 ≤ off ∧ off < 0x204))
  else if o / 0x10000 = 0x20 then some (.shared false)
  else if o / 0x10000 = 0x30 then some (.shared true)
  else if o / 0x10000 = 0x40 then some (.shared false)
  else if o / 0x10000 = 0x50 then some (.shared ((0x100 ≤ off ∧ off < 0x104) ∨ (0x200 ≤ off ∧ off < 0x20C) ∨ (0x210 ≤ off ∧ off < 0x214)))
  else if o / 0x10000 = 0x60 then some .nvs
  else if o / 0x10000 = 0x70 then some (.shared false)
  else if o / 0x10000 = 0x100 then
    (if off < 0x1000 then some (.shared false)
     else if h : (off - 0x1000) / 0x40 < 64 then some (.fn (queueOwner ⟨(off - 0x1000) / 0x40, h⟩))
     else some .undef)
  else if 0x200 ≤ o / 0x10000 ∧ o / 0x10000 < 0x240 then some (.fn (fidMk 2 (o / 0x10000 - 0x200)))
  else if o / 0x10000 = 0x300 then (if off / 0x800 < 16 then some (.fn (fidMk 3 (off / 0x800))) else some (.holders 3))
  else if 0x400 ≤ o / 0x10000 ∧ o / 0x10000 < 0x408 then some (.fn (fidMk 4 (o / 0x10000 - 0x400)))
  else if 0x500 ≤ o / 0x10000 ∧ o / 0x10000 < 0x510 then some (.fn (fidMk 5 (o / 0x10000 - 0x500)))
  else if 0x600 ≤ o / 0x10000 ∧ o / 0x10000 < 0x608 then some (.fn (fidMk 6 (o / 0x10000 - 0x600)))
  else if 0x7000 ≤ o / 0x1000 ∧ o / 0x1000 < 0x7020 then some (.fn (fidMk 7 (o / 0x1000 - 0x7000)))
  else if 0x7100 ≤ o / 0x1000 ∧ o / 0x1000 < 0x7128 then some (.fn (fidMk 8 (o / 0x1000 - 0x7100)))
  else if o / 0x10000 = 0x720 then some (.fn ccFid)
  else if 0x800 ≤ o / 0x10000 ∧ o / 0x10000 < 0x804 then some (.fn (fidMk 10 (o / 0x10000 - 0x800)))
  else if o / 0x10000 = 0x900 then some (.fn dspFid)
  else if o / 0x10000 = 0xA00 then (if off < 0x8000 then some (.fn (fidMk 12 (off / 0x1000))) else some (.holders 12))
  else if o / 0x10000 = 0xB00 then
    (if off < 0x8000 then
      let f := fidMk (off / 0x20 / 64) (off / 0x20 % 64)
      if fidOk f then some (.slot f) else some .undef
     else if h : (off - 0x8000) / 0x20 < 32 then
      (if off % 0x20 < 4 then some (.pstat ⟨(off - 0x8000) / 0x20, h⟩ false)
       else if 8 ≤ off % 0x20 ∧ off % 0x20 < 12 then some (.pstat ⟨(off - 0x8000) / 0x20, h⟩ true)
       else some .undef)
     else some .undef)
  else if o / 0x10000 = 0xB10 then (if h : off / 0x100 < 32 then some (.rst ⟨off / 0x100, h⟩) else some .undef)
  else if 0xC00 ≤ o / 0x10000 ∧ o / 0x10000 < 0xC10 then some .aplic
  else if 0xD000 ≤ o / 0x1000 ∧ o / 0x1000 < 0xD030 then some (.fn (fidMk 1 (o / 0x1000 - 0xD000)))
  else if 0xE00 * 2 ≤ o / 0x8000 ∧ o / 0x8000 < 0xE00 * 2 + 48 then some (.fn (fidMk 1 (o / 0x8000 - 0xE00 * 2)))
  else none
/-- FLT_STAT and FLT_IEN of a chip-wide slot are written by P0 only (R379). -/
def Page.allows (s : State) (p : Fin 32) (write : Bool) : Page → Bool
  | .fn f => belongs s p f && (if fidType f = 12 then (vget s.rports ⟨fidIdx f % 8, by omega⟩).exists_ else true)
  | .slot f => if fidChipWide f then !write || p = 0 else belongs s p f
  | .shared w => !write || (w && p = 0)
  | .nvs => !write && p = 0
  | .aplic => (vget s.parts p).cores ≠ 0
  | .pstat q ctrl => (p = q || p = 0) && (!write || ctrl)
  | .rst q => p = q
  | .holders t => (List.range (fidCount t)).any fun i => belongs s p (fidMk t i)
  | .undef => true
/-- The page rule, judged before the width (R76, R77): none allows. An unassigned master reaches no page. -/
def regPage (s : State) (m : Master) (a : Nat) (write : Bool) : Option (BitVec 3) :=
  match pageOf a with
  | none => some 4
  | some pg => match masterPart s m with
    | none => some 5
    | some p => if pg.allows s p write then none else some 5
/-- Writes to the page of a fenced function are ignored, but for its slot and RST (R380); the queue sets and the
interrupt files are the front end's and the controllers', not the core's (log 24). -/
def pageFenced (s : State) (a : Nat) : Bool :=
  match pageOf a with
  | some (.fn f) => fidType f ≠ 1 && fidType f ≠ 13 && isFenced s f
  | _ => false
/-- A register write of a master to a location of full width: the page rule, then the effect (R76, R77, R380). -/
def regWriteAt (m : Master) (a : Nat) (eff : State → State) (s : State) : State :=
  if !masterRuns s m then s else
  match regPage s m a true with
  | some c => accessError (masterFid m) true c a s
  | none => if pageFenced s a then s else eff s

/-! ### Peat engines: READY, results and triggers (R169, R170) -/

def PeatEngine.ready (e : PeatEngine) : Bool := e.run = none && e.modePending = none
/-- Whether a range breaks R170: 256-byte multiples within the stack. -/
def peatRangeOk (k : Fin 8) (base len : Nat) : Bool :=
  base % 256 = 0 && len % 256 = 0 && decide (stackBase k ≤ base) && decide (base + len ≤ stackBase k + 0x600000000)
/-- The parameter block of an operation, read at its trigger; empty unless OPAR names 384 bytes of the stack, 64-byte
aligned (R218). -/
def paramBlock (s : State) (k : Fin 8) (par : Nat) : List Byte :=
  if par % 64 = 0 && decide (stackBase k ≤ par) && decide (par + 384 ≤ stackBase k + 0x600000000) then rdBytes s par 128
  else []
/-- An operation begins on an engine: READY falls (R169). -/
def peatBegin (k : Fin 8) (j : Fin 32) (r : PeatRun) (s : State) : State :=
  s.modEng k j fun e => { e with
    run := some { r with pblk := if r.opc = 3 || r.opc = 4 then paramBlock s k r.par else [] } }
/-- A trigger of engine j of stack k by partition p: CLAIM, BUSY, BAD_OP or RANGE at once, else the operation begins
(R166, R170). -/
def peatTrig (k : Fin 8) (j : Fin 32) (p : Fin 32) (tag : BitVec 32) (s : State) : State :=
  let e := s.eng k j
  if isFenced s (fidMk 4 k) then s
  else if !e.owns p then s.modEng k j (·.result tag 2)
  else if !e.ready then s.modEng k j (·.result tag 1)
  else if e.opc = 1 || decide (4 < e.opc) then s.modEng k j (·.result tag 6)
  else if e.opc ≠ 0 && !peatRangeOk k e.obase.toNat e.olen.toNat then s.modEng k j (·.result tag 3)
  else peatBegin k j { why := .trig, opc := e.opc, tag := tag, base := e.obase.toNat, len := e.olen.toNat,
                       par := e.opar.toNat } s

/-! ### One aligned word (R156) -/

/-- Outcome of an access. -/
inductive AccRes
  | ok (data : List Byte)
  | err (cause : BitVec 3)
  | poison
deriving DecidableEq, Repr

/-- A unit that makes accesses: its FID, its partition, how R86 sees it, and whether it is a core or control core. -/
structure Unit_ where
  fid : Fid
  part : Fin 32
  side : Side
  core : Bool
deriving DecidableEq, Repr

/-- Bytes a device returns (R145): a free value each. -/
def pcieBytes : Nat → State → List Byte × State
  | 0, s => ([], s)
  | n + 1, s =>
    let b : Byte := (Config.pcieRead s.free).setWidth 8
    let r := pcieBytes n { s with free := s.free + 1 }
    (b :: r.1, r.2)
/-- Engine of a stack offset. -/
def peatEngineOf (o : Nat) : Fin 32 := ⟨o / 256 % 32, by omega⟩
/-- An aperture access refused while READY is 0: counted, recorded with CAUSE 2 by the caller (R169). -/
def peatRefuse (k : Fin 8) (j : Fin 32) (s : State) : State := s.modEng k j fun e => { e with ref := satInc e.ref }
/-- A read of n bytes within one aligned word. -/
def wordRead (u : Unit_) (a n : Nat) (s : State) : AccRes × State :=
  match addrClass a with
  | .ddr | .stack _ =>
    if ratHeld s u.part a n then (.err 0, holdAccess s) else
    match ratCheck s u.part a .load u.side with
    | some c => (.err c, s)
    | none => if poisoned s a n then (.poison, s) else (.ok (rdBytes s a n), s)
  | .pcie q =>
    if ratHeld s u.part a n then (.err 0, holdAccess s) else
    match ratCheck s u.part a .load u.side with
    | some c => (.err c, s)
    | none =>
      if (vget s.rports q).up then let r := pcieBytes n s; (.ok r.1, r.2) else (.err 4, s)
  | .host t =>
    if !belongs s u.part (fidMk 2 t) then (.err 5, s)
    else if (vget s.tiles t).held then (.ok (List.replicate n 0), s)
    else (.ok (rdBytes s a n), s)
  | .peat k =>
    let o := a - apertureBase k
    if !belongs s u.part (fidMk 4 k) then (.err 5, s)
    else if o < 0x600000000 then
      (let j := peatEngineOf o
       if !(s.eng k j).ready then (.err 2, peatRefuse k j s)
       else if poisoned s (stackBase k + o) n then (.poison, s)
       else (.ok (rdBytes s (stackBase k + o) n), { s with cores := recallLines s.cores (stackBase k + o) n }))
    else if 0x800000000 ≤ o ∧ o < 0x800000000 + 0x40 * 32 ∧ o % 0x40 < 8 then (.ok (List.replicate n 0), s)
    else (.err 4, s)
  | .reg => (.err (if u.core then 7 else 6), s)
  | .reserved => (.err 4, s)
/-- Elements of an ACCUM write: each aligned 4 bytes inside the window is added in binary32, others are stored (R167). -/
def accumPut (e : PeatEngine) : Nat → List Byte → State → State
  | a, b0 :: b1 :: b2 :: b3 :: bs, s =>
    let el := [b0, b1, b2, b3]
    let s :=
      if e.abase.toNat ≤ a ∧ a + 3 ≤ e.alim.toNat then
        putRaw s a (natLe 4 (f32add (BitVec.ofNat 32 (rdLe s a 4)) (BitVec.ofNat 32 (leNat el))).toNat)
      else putRaw s a el
    accumPut e (a + 4) bs s
  | a, bs, s => putRaw s a bs
/-- A write of at most 8 bytes within one aligned word. A partly covered word is merged: it meets the line's poison. -/
def wordWrite (u : Unit_) (a : Nat) (bs : List Byte) (s : State) : AccRes × State :=
  match addrClass a with
  | .ddr | .stack _ =>
    if ratHeld s u.part a bs.length then (.err 0, holdAccess s) else
    match ratCheck s u.part a .store u.side with
    | some c => (.err c, s)
    | none => if bs.length < 8 && !u.core && poisoned s a bs.length then (.poison, s) else (.ok [], putRaw s a bs)
  | .pcie q =>
    if ratHeld s u.part a bs.length then (.err 0, holdAccess s) else
    match ratCheck s u.part a .store u.side with
    | some c => (.err c, s)
    | none =>
      if (vget s.rports q).up then
        (.ok [], s.modRp q fun r => { r with out := r.out ++ [(a, bs.length, BitVec.ofNat 64 (leNat bs))] })
      else (.ok [], s)
  | .host t =>
    if !belongs s u.part (fidMk 2 t) then (.err 5, s)
    else if (vget s.tiles t).lane then (.err 2, s)
    else if (vget s.tiles t).held then (.ok [], s)
    else (.ok [], putRaw s a bs)
  | .peat k =>
    let o := a - apertureBase k
    if !belongs s u.part (fidMk 4 k) then (.err 5, s)
    else if o < 0x600000000 then
      (let j := peatEngineOf o
       let e := s.eng k j
       let m := stackBase k + o
       if !e.ready then (.err 2, peatRefuse k j s)
       else if e.accum && decide (m ≤ e.alim.toNat) && decide (e.abase.toNat < m + bs.length) then
         (if m % 4 = 0 && bs.length % 4 = 0 then (.ok [], accumPut e m bs s) else (.err 7, s))
       else (.ok [], putRaw s m bs))
    else if 0x800000000 ≤ o ∧ o < 0x800000000 + 0x40 * 32 ∧ o % 0x40 = 0 then
      (if bs.length = 8 then (.ok [], peatTrig k ⟨(o - 0x800000000) / 0x40 % 32, by omega⟩ u.part
         (BitVec.ofNat 32 (leNat (bs.take 4))) s)
       else (.err 7, s))
    else (.err 4, s)
  | .reg => (.err (if u.core then 7 else 6), s)
  | .reserved => (.err 4, s)

/-! ### Rows: word by word, in ascending order (log 5) -/

/-- The aligned words of a range, as address and length. -/
def wordsOf (a n : Nat) : List (Nat × Nat) :=
  if n = 0 then [] else
  (List.range ((a + n - 1) / 8 - a / 8 + 1)).map fun i =>
    let lo := max a ((a / 8 + i) * 8)
    (lo, min (a + n) ((a / 8 + i) * 8 + 8) - lo)
/-- A read of a range; the first failing word ends it, with its address. -/
def rangeRead (u : Unit_) (a n : Nat) (s : State) : AccRes × Nat × State :=
  (wordsOf a n).foldl (fun (r : AccRes × Nat × State) w =>
    match r.1 with
    | .ok d => match wordRead u w.1 w.2 r.2.2 with
      | (.ok e, s) => (.ok (d ++ e), 0, s)
      | (x, s) => (x, w.1, s)
    | _ => r) (.ok [], 0, s)
/-- A write of a range; the words before the first failing one stay written. -/
def rangeWrite (u : Unit_) (a : Nat) (bs : List Byte) (s : State) : AccRes × Nat × State :=
  let r := (wordsOf a bs.length).foldl (fun (r : AccRes × Nat × State) w =>
    match r.1 with
    | .ok _ => match wordWrite u w.1 ((bs.drop (w.1 - a)).take w.2) r.2.2 with
      | (.ok _, s) => (.ok [], 0, s)
      | (x, s) => (x, w.1, s)
    | _ => r) (.ok [], 0, s)
  match r.1 with
  | .ok _ =>
    let m := match addrClass a with
      | .peat k => a - apertureBase k + stackBase k
      | _ => a
    (.ok [], 0, { r.2.2 with poison := clearPoison r.2.2.poison m bs.length })
  | _ => r
/-- The record of a failed access on its unit (R90, R376, R378). -/
def failAccess (u : Unit_) (write : Bool) (r : AccRes) (a : Nat) (s : State) : State :=
  match r with
  | .ok _ => s
  | .err c => accessError u.fid write c a s
  | .poison => poisonHit u.fid s

end Sys2Proof.Machine
end

