-- ==== Sys2Proof/Machine/Control.lean ====
section
/-! DEFINITION. Control laws in Q31 and binary32 (R245 to R247, Table 11.4), the sinc3 decimator (R249), and the
transforms of the current loop (R238). -/
namespace Sys2Proof.Machine

/-! ### Q31 (R245) -/

def sat32 (x : Int) : Int := max (-(2 ^ 31)) (min (2 ^ 31 - 1) x)
/-- A term of coefficient c and shift s on an input. -/
def q31Term (c : BitVec 32) (s : BitVec 8) (x : Int) : Int :=
  (c.toInt * x + 2 ^ (30 - s.toInt).toNat) / 2 ^ (31 - s.toInt).toNat
def Law.c (l : Law) (i : Nat) : BitVec 32 × BitVec 8 := l.coef.getD i (0, 0)
/-- Which coefficient is LIM. -/
def Law.limAt (l : Law) : Nat := if l.struct_ = 1 then 3 else if l.struct_ = 3 then 0 else 2
def w32 (x : Int) : BitVec 32 := BitVec.ofInt 32 (sat32 x)
/-- One biquad section, direct form I: its output and new state. -/
def bqQ31 (l : Law) (m : Nat) (st : Vector (BitVec 32) 4) (x : Int) : Int × Vector (BitVec 32) 4 :=
  let t := fun (i : Nat) (v : Int) => q31Term (l.c (1 + 5 * m + i)).1 (l.c (1 + 5 * m + i)).2 v
  let g := fun (i : Fin 4) => (vget st i).toInt
  let y := sat32 (t 0 x + t 1 (g 0) + t 2 (g 1) - t 3 (g 2) - t 4 (g 3))
  (y, #v[w32 x, vget st 0, w32 y, vget st 2])
/-- A Q31 law: output, error and new state (Table 11.4). -/
def lawQ31 (l : Law) (st : LawState) (sp fb ff : Int) : Int × Int × LawState :=
  let t := fun (i : Nat) (v : Int) => q31Term (l.c i).1 (l.c i).2 v
  let lim : Int := (l.c l.limAt).1.toNat
  let clamp := fun (v : Int) => sat32 (max (-lim) (min lim v))
  let e := sat32 (sp - fb)
  let i0 := st.i.toInt
  if l.struct_ = 3 then
    let n := (l.coef.length - 1) / 5
    let r := (List.finRange 3).foldl (fun (a : Int × Vector (Vector (BitVec 32) 4) 3) (m : Fin 3) =>
      if m.val < n then
        let b := bqQ31 l m (vget a.2 m) a.1
        (b.1, vset a.2 m b.2)
      else a) (e, st.bq)
    (clamp (sat32 (r.1 + ff)), e, { st with bq := r.2 })
  else
    let d := if l.struct_ = 1 then
        sat32 (st.d.toInt + t 5 (sat32 (t 2 (sat32 (e - st.ePrev.toInt)) - st.d.toInt)))
      else 0
    let extra := if l.struct_ = 1 then d
      else if l.struct_ = 2 then t 4 (sat32 sp) + t 5 (sat32 (sp - st.spPrev.toInt)) else 0
    let v := sat32 (t 0 e + i0 + extra + ff)
    let u := clamp v
    let kaw := if l.struct_ = 1 then 4 else 3
    let i1 := clamp (i0 + t 1 e + t kaw (sat32 (u - v)))
    (u, e, { st with i := w32 i1, d := w32 d, ePrev := w32 e, spPrev := w32 sp })

/-! ### binary32 (R247) -/

def f32max (lim v : F32) : F32 :=
  if (f32v lim).lt (f32v v) then lim else if (f32v v).lt (f32v (f32neg lim)) then f32neg lim else v
/-- One biquad section in binary32: its output, its state, and whether every result was finite. -/
def bqF32 (l : Law) (m : Nat) (st : Vector (BitVec 32) 4) (x : F32) : F32 × Vector (BitVec 32) 4 × Bool :=
  let t := fun (i : Nat) (v : F32) => f32mul (l.c (1 + 5 * m + i)).1 v
  let p := [t 0 x, t 1 (vget st 0), t 2 (vget st 1), t 3 (vget st 2), t 4 (vget st 3)]
  let a := f32add (p.getD 0 0) (p.getD 1 0)
  let b := f32add a (p.getD 2 0)
  let c := f32sub b (p.getD 3 0)
  let y := f32sub c (p.getD 4 0)
  (y, #v[x, vget st 0, y, vget st 2], (p ++ [a, b, c, y]).all f32fin)
/-- A binary32 law: output, error, new state, and whether every result of it was finite, those that a clamp hides among
them (R247). -/
def lawF32 (l : Law) (st : LawState) (sp fb ff : F32) : F32 × F32 × LawState × Bool :=
  let t := fun (i : Nat) (v : F32) => f32mul (l.c i).1 v
  let lim : F32 := (l.c l.limAt).1 &&& 0x7FFFFFFF#32
  let e := f32sub sp fb
  if l.struct_ = 3 then
    let n := (l.coef.length - 1) / 5
    let r := (List.finRange 3).foldl (fun (a : F32 × Vector (Vector (BitVec 32) 4) 3 × Bool) (m : Fin 3) =>
      if m.val < n then
        let b := bqF32 l m (vget a.2.1 m) a.1
        (b.1, vset a.2.1 m b.2.1, a.2.2 && b.2.2)
      else a) (e, st.bq, f32fin e)
    let v := f32add r.1 ff
    (f32max lim v, e, { st with bq := r.2.1 }, r.2.2 && f32fin v)
  else
    let de := f32sub e st.ePrev
    let dk := t 2 de
    let dd := f32sub dk st.d
    let df := t 5 dd
    let d := if l.struct_ = 1 then f32add st.d df else 0
    let ke := t 0 e
    let v0 := f32add ke st.i
    let k1 := t 4 sp
    let ds := f32sub sp st.spPrev
    let k2 := t 5 ds
    let w := f32add v0 k1
    let v1 := if l.struct_ = 1 then f32add v0 d else if l.struct_ = 2 then f32add w k2 else v0
    let v := f32add v1 ff
    let u := f32max lim v
    let ki := t 1 e
    let a := f32add st.i ki
    let uv := f32sub u v
    let ka := t (if l.struct_ = 1 then 4 else 3) uv
    let b := f32add a ka
    let i1 := f32max lim b
    let all := [e, ke, v0, v1, v, u, ki, a, uv, ka, b, i1] ++
      (if l.struct_ = 1 then [de, dk, dd, df, d] else if l.struct_ = 2 then [k1, ds, k2, w] else [])
    (u, e, { st with i := i1, d := d, ePrev := e, spPrev := sp }, all.all f32fin)

/-! ### Quantities at a loop's ends (R247, R262; log 28) -/

/-- A value × 2^k rounded to nearest even and saturated to 32 bits; 0 for a NaN. -/
def fvScaled (k : Int) : FV → BitVec 32
  | .nan => 0
  | .inf n => if n then 0x80000000#32 else 0x7FFFFFFF#32
  | .fin d => satInt 32 (Dy.toInt ⟨d.neg, d.m, d.e + k⟩)
/-- A Q31 fraction, or a count, as the binary32 value nearest to it. -/
def toQuantity (pu : Bool) (v : Int) : F32 := if pu then f32of (.fin (Dy.ofInt v (-31))) else f32ofInt v
/-- A binary32 value as a Q31 fraction, or as a count. -/
def fromQuantity (pu : Bool) (v : F32) : BitVec 32 := fvScaled (if pu then 31 else 0) (f32v v)
/-- Result of one law step: output, error as binary32, state, whether every result is finite. -/
structure LawOut where
  u : BitVec 32
  e : F32
  st : LawState
  ok : Bool
/-- One step of a law: setpoint and feedback as counts or Q31 fractions, feedforward as the lane gave it. -/
def lawRun (l : Law) (st : LawState) (sp fb : Int) (ff : F32) (inPu outPu : Bool) : LawOut :=
  if l.float then
    let r := lawF32 l st (toQuantity inPu sp) (toQuantity inPu fb) ff
    { u := fromQuantity outPu r.1, e := r.2.1, st := r.2.2.1, ok := r.2.2.2 }
  else
    let r := lawQ31 l st sp fb (fromQuantity outPu ff).toInt
    { u := w32 r.1, e := toQuantity inPu r.2.1, st := r.2.2, ok := true }

/-! ### sinc3 (R249) -/

/-- OSR: the largest power of two with 48 × OSR ≤ CUR_DIV, at most 256. -/
def osrOf (curDiv : Nat) : Nat :=
  (List.range 9).foldl (fun a k => if 48 * 2 ^ k ≤ curDiv then 2 ^ k else a) 1
def tri (k : Int) : Int := if k < 0 then 0 else (k + 1) * (k + 2) / 2
/-- Impulse response of three boxcars of R samples. -/
def sinc3h (r k : Nat) : Int :=
  tri k - 3 * tri ((k : Int) - r) + 3 * tri ((k : Int) - 2 * r) - tri ((k : Int) - 3 * r)
/-- The decimated sum of a window whose latest bit is bit 0. -/
def sinc3 (r : Nat) (w : BitVec 768) : Int :=
  (List.range (3 * r)).foldl (fun a k => if w.getLsbD k then a + sinc3h r k else a) 0
/-- The current 2S/OSR³ − 1 pu, as a Q31 fraction. -/
def sdiCurrent (curDiv : Nat) (w : BitVec 768) : Int :=
  let r := osrOf curDiv
  sat32 (2 * sinc3 r w * 2 ^ 31 / (r * r * r : Nat) - 2 ^ 31)

/-! ### Transforms (R238; log 27) -/

/-- √3 in units of 2^−256. -/
def sqrt3Fx : Int := Nat.sqrt (3 * 2 ^ 512)
/-- An exact value in units of 2^−31 × 2^−256 as a Q31 value: one of the two next to it, which is open. -/
def openQ31 (ins : List (BitVec 32)) (ang : BitVec 32) (k : Nat) (v : Int) : BitVec 32 :=
  w32 (sat32 (v / 2 ^ 256 + if v % 2 ^ 256 ≠ 0 && Config.transformUp ins ang k then 1 else 0))
/-- d and q currents of phase currents (MOTOR 0: U, V, W; MOTOR 1: A, B) at an electrical angle. -/
def clarkePark (motor : Nat) (cur : List (BitVec 32)) (ang : BitVec 32) : BitVec 32 × BitVec 32 :=
  let i := fun k => (cur.getD k 0).toInt
  let one : Int := 2 ^ 256
  let al := if motor = 0 then (2 * i 0 - i 1 - i 2) * one / 3 else i 0 * one
  let be := if motor = 0 then (i 1 - i 2) * sqrt3Fx / 3 else i 1 * one
  let cs := cosSin ang.toNat (2 ^ 32)
  (openQ31 cur ang 0 ((al * cs.1 + be * cs.2) / one), openQ31 cur ang 1 ((be * cs.1 - al * cs.2) / one))
/-- Duties of U, V and W from the d and q outputs: inverse transforms, min–max injection (MOTOR 0), W at 0 (MOTOR 1). -/
def inversePark (motor : Nat) (vd vq ang : BitVec 32) : Vector (BitVec 32) 3 :=
  let cs := cosSin ang.toNat (2 ^ 32)
  let al := vd.toInt * cs.1 - vq.toInt * cs.2
  let be := vd.toInt * cs.2 + vq.toInt * cs.1
  let out := fun (k : Nat) (v : Int) => openQ31 [vd, vq] ang (2 + k) v
  if motor = 0 then
    let h := be * sqrt3Fx / 2 ^ 257
    let v := -al / 2 + h
    let w := -al / 2 - h
    let off := -(max al (max v w) + min al (min v w)) / 2
    #v[out 0 (al + off), out 1 (v + off), out 2 (w + off)]
  else #v[out 0 al, out 1 be, 0]
/-- High-side share of a PWM period of P TQ at a duty (R250). -/
def pwmShare (p : Nat) (d : BitVec 32) : Nat := (divRne ((2 ^ 31 + d.toInt) * p) (2 ^ 32)).toNat

end Sys2Proof.Machine
end

