-- ==== Sys2Proof/Machine/Sample.lean ====
section
/-! DEFINITION. A feedback channel's sample, its validity and its electrical angle, the one definition every consumer
uses (R304, R307). -/
namespace Sys2Proof.Machine

def fbkFid (c : Fin 40) : Fid := fidMk 8 c
def fbkAt (n : BitVec 8) : Fin 40 := ⟨n.toNat % 40, by omega⟩
/-- The sample for the present time (R304). A sin/cos pair enters the count 800 TQ after its sampling instant, when
SINCOS_PAIR brings its result (log 11). -/
def fbkSample (s : State) (c : Fin 40) : BitVec 64 := (vget s.fbk c).count
/-- The sample is valid: the channel is GOOD (R304). -/
def fbkValid (s : State) (c : Fin 40) : Bool := (vget s.fbk c).good
/-- The electrical angle of a count (R307). -/
def elecAngle (x : Fbk) (count : BitVec 64) : BitVec 32 :=
  if x.cpr = 0 then x.eofs else
  BitVec.ofInt 32 ((count.toInt % x.cpr.toNat) * x.poles.toNat * 2 ^ 32 / x.cpr.toNat + x.eofs.toNat)
def fbkAngle (s : State) (c : Fin 40) : BitVec 32 := elecAngle (vget s.fbk c) (fbkSample s c)

end Sys2Proof.Machine
end

