-- ==== Sys2Proof/Machine/Orders.lean ====
section
/-! DEFINITION. Orders to axes (spec/11, 11.1, 11.6, 11.8): states and setpoints, setpoint sources, arbitration and
conflicts, the path queue, hardware stops. -/
namespace Sys2Proof.Machine

def axsBase (a : Fin 32) : Nat := regBase + 0x7000000 + 0x1000 * a
def Axis.mode (x : Axis) : Nat := match x.rec_ with | some r => r.mode.toNat | none => 0
def Axis.motor (x : Axis) : Nat := match x.rec_ with | some r => r.motor.toNat | none => 0
/-- The channel of the position loop: FBK_B where the record names one (R237). -/
def AxisRec.posFbk (r : AxisRec) : Fin 40 := fbkAt (if r.fbkB = 0xFF then r.fbkA else r.fbkB)
/-- An order not valid in the present state is counted (R239, R240). -/
def countIgn (a : Fin 32) (s : State) : State := s.modAxis a fun x => { x with ign := satInc x.ign }

/-! ### Setpoints (R240) -/

/-- With source 0, AXS_SP is the setpoint of the outermost loop (R255, Table 11.1). -/
def Axis.useSp (x : Axis) : Axis :=
  if x.mode = 3 then { x with spp := x.sp }
  else if x.mode = 2 then { x with spv := x.sp.setWidth 32 }
  else if x.mode = 1 then { x with spc := x.sp.setWidth 32 } else x
/-- A setpoint order applied (R240). -/
def applySetpoint (a : Fin 32) (spd : Bool) (v : BitVec 64) (s : State) : State :=
  if (vget s.axes a).st ≠ .enabled then countIgn a s else
  s.modAxis a fun x =>
    if spd then { x with spd := v.setWidth 32 }
    else
      let x := { x with sp := if x.mode = 3 then v else (v.setWidth 32).signExtend 64 }
      if x.src = 0 then x.useSp else x

/-! ### Setpoint sources (R255 to R259) -/

/-- The master's present value, where AXS_GEAR_SRC names one in the axis's partition (R258). -/
def gearMaster (s : State) (a : Fin 32) : Option Int :=
  let x := vget s.axes a
  match partOf s (axFid a) with
  | none => none
  | some p =>
    let b : Fin 32 := ⟨x.gearIndex.toNat % 32, by omega⟩
    let okAxis := decide (x.gearIndex.toNat < 32) && b ≠ a && belongs s p (axFid b)
    match (vget s.axes b).rec_ with
    | some r =>
      if x.gearKind = 0 then (if okAxis then some (vget s.axes b).spp.toInt else none)
      else if x.gearKind = 1 then (if okAxis then some (fbkSample s r.posFbk).toInt else none)
      else if x.gearKind = 2 ∧ x.gearIndex.toNat < 40 ∧ belongs s p (fbkFid (fbkAt x.gearIndex)) then
        some (fbkSample s (fbkAt x.gearIndex)).toInt
      else none
    | none =>
      if x.gearKind = 2 ∧ x.gearIndex.toNat < 40 ∧ belongs s p (fbkFid (fbkAt x.gearIndex)) then
        some (fbkSample s (fbkAt x.gearIndex)).toInt
      else none
def sat64 (v : Int) : BitVec 64 := satInt 64 v
/-- cmd of gearing (R258); none where DEN is 0. -/
def gearCmd (x : Axis) (m : Int) : Option (BitVec 64) :=
  if x.gearDen = 0 then none else
  some (sat64 (x.offset.toInt + divRne ((m - x.mRef.toInt) * x.gearNum.toInt) x.gearDen.toNat))
def camEntry (x : Axis) (bank : Bool) (i : Nat) : Int :=
  (spGet (0 : BitVec 32) (if bank then x.cam1 else x.cam0) (i % 256)).toInt
/-- cmd of a cam in a bank, and the master period n (R259); none where MPER is 0. -/
def camCmd (x : Axis) (m : Int) : Option (BitVec 64 × Int × Bool) :=
  if x.camMper = 0 then none else
  let k := x.camMper.toNat
  let d := m - x.mRef.toInt
  let n := d / k
  let r := (d % k).toNat
  let bank := if n = x.camN.toInt then x.camUse else x.camBank
  let i := r * 256 / k
  let f : Int := r * 256 % k
  let e := camEntry x bank
  let v := (x.offset.toInt + n * x.camLift.toInt + e i) * k + (e (i + 1) - e i) * f
  some (sat64 (divRne v k), n, bank)

/-- Event 0x34 (Table 11.9). -/
def segEvent (a : Fin 32) (kind : Nat) (s : State) : State :=
  emit (axFid a) 0x34 (pl 16 kind + pl 20 (vget s.axes a).segq.length) s
def lateStart (a : Fin 32) (s : State) : State := s.modAxis a fun x => { x with lateStart := true }
def AxisRec.pP (r : AxisRec) : Nat := 40 * r.posDiv.toNat
def AxisRec.pV (r : AxisRec) : Nat := 40 * r.velDiv.toNat
def AxisRec.pC (r : AxisRec) : Nat := 40 * r.curDiv.toNat
/-- The next segment is reached at a position tick: its start time, or a late start (R256). -/
def segReach (a : Fin 32) (r : AxisRec) (seg : Segment) (rest : List Segment) (s : State) : State :=
  let x := vget s.axes a
  let t := s.time.it
  let reach := match x.segEnd with
    | some e => if seg.pushed ≤ e then e else t
    | none => t
  let late := seg.startAt && decide (seg.startIt < reach)
  let t0 := if seg.startAt && !late then seg.startIt else reach
  let run : SegRun := { seg := seg, tStart := t0, dur := seg.dur.toNat * r.pP, p0 := x.spp,
                        vNum := x.segVNum, vDen := x.segVDen }
  let s := s.modAxis a fun x => { x with segq := rest, segRun := some run }
  if late then segEvent a 1 (lateStart a s) else s
/-- A circular segment begins: its partner joins, or it runs as a dwell (R257). -/
def arcBegin (a : Fin 32) (run : SegRun) (s : State) : State :=
  let b : Fin 32 := ⟨run.seg.partner.toNat % 32, by omega⟩
  let y := vget s.axes b
  let ok := decide (run.seg.partner.toNat < 32) && decide (a.val < b.val) &&
    (match partOf s (axFid a) with | some p => belongs s p (axFid b) | none => false) &&
    y.st = .enabled && y.src = 1 && y.segq = [] && y.segRun = none
  if ok then
    let s := s.modAxis a fun x => { x with segRun := some { run with role := .own, q0 := y.spp } }
    s.modAxis b fun y => { y with
      segRun := some { run with role := .partner, p0 := y.spp, q0 := run.p0, vNum := 0, vDen := 1 } }
  else (lateStart a s).modAxis a fun x => { x with segRun := some { run with role := .dwell } }
/-- The point of an arc at τ = num/den, on its own axis or the partner, in units of 2^−256; and its derivative by τ. -/
def arcPoint (run : SegRun) (num : Int) (den : Nat) : Int × Int :=
  let cs := cosSin (run.seg.angle.toInt * num) (2 ^ 32 * den)
  let ca := run.seg.ca.toInt
  let cb := run.seg.cb.toInt
  let partner := run.role = .partner
  let dx := (if partner then run.q0 else run.p0).toInt - ca
  let dy := (if partner then run.p0 else run.q0).toInt - cb
  let om := 2 * (piFx : Int) * run.seg.angle.toInt / 2 ^ 32
  if partner then
    (cb * 2 ^ 256 + dx * cs.2 + dy * cs.1, om * ((dx * cs.1 - dy * cs.2) / 2 ^ 64) / 2 ^ 192)
  else
    (ca * 2 ^ 256 + dx * cs.1 - dy * cs.2, om * ((-dx * cs.2 - dy * cs.1) / 2 ^ 64) / 2 ^ 192)
/-- Position of a running segment at τ, the binary64 value nearest to (t − T_start) / D (R256, R257). -/
def segPoint (run : SegRun) (t : Time) : BitVec 64 :=
  let tau := match f64div (FV.ofInt (t.toInt - run.tStart.toInt)) (FV.ofInt run.dur) with
    | .fin d => d
    | _ => Dy.zero
  let den := 2 ^ (-tau.e).toNat
  let n : Int := tau.m * 2 ^ tau.e.toNat
  let p0 := run.p0.toInt
  let p1 := run.seg.p1.toInt
  if run.role = .dwell then run.p0
  else if run.seg.type = 3 then sat64 (divRne (arcPoint run n den).1 (2 ^ 256))
  else if run.seg.type = 1 then sat64 (divRne (p0 * den + (p1 - p0) * n) den)
  else if run.seg.type = 2 then
    let d : Int := den
    let h00 := 2 * n ^ 3 - 3 * n ^ 2 * d + d ^ 3
    let h10 := n ^ 3 - 2 * n ^ 2 * d + n * d ^ 2
    let h01 := -2 * n ^ 3 + 3 * n ^ 2 * d
    let h11 := n ^ 3 - n ^ 2 * d
    let tt : Int := run.seg.dur.toNat
    let vd : Int := run.vDen
    let num := (h00 * p0 + h01 * p1) * vd * 2 ^ 32 + h10 * tt * run.vNum * 2 ^ 32 + h11 * tt * run.seg.v1.toInt * vd
    sat64 (divRne num (den ^ 3 * run.vDen * 2 ^ 32))
  else run.p0
/-- End point, and end velocity in counts per position tick of the axis as numerator and denominator. -/
def segFinal (run : SegRun) (pP : Nat) : BitVec 64 × Int × Nat :=
  if run.role = .dwell then (run.p0, 0, 1)
  else if run.seg.type = 3 then
    let r := arcPoint run 1 1
    (sat64 (divRne r.1 (2 ^ 256)), divRne r.2 (2 ^ 224) * pP, 2 ^ 32 * max run.dur 1)
  else if run.seg.type = 1 then (run.seg.p1, run.seg.p1.toInt - run.p0.toInt, max run.seg.dur.toNat 1)
  else if run.seg.type = 2 then (run.seg.p1, run.seg.v1.toInt, 2 ^ 32)
  else (run.p0, 0, 1)
/-- A completed segment. -/
def segFinish (a : Fin 32) (r : AxisRec) (run : SegRun) (s : State) : State :=
  let f := segFinal run r.pP
  let s := s.modAxis a fun x => { x with
    segRun := none, spp := f.1, segVNum := f.2.1, segVDen := f.2.2,
    segEnd := some (run.tStart + BitVec.ofNat 64 run.dur) }
  if run.seg.event && run.role ≠ .partner then segEvent a 0 s else s
/-- The path interpolator at a position tick (R256, R257). -/
def pathTick (a : Fin 32) (r : AxisRec) : Nat → State → State
  | 0, s => s
  | fuel + 1, s =>
    let x := vget s.axes a
    let t := s.time.it
    match x.segRun, x.segq with
    | none, [] => s
    | none, seg :: rest => pathTick a r fuel (segReach a r seg rest s)
    | some run, _ =>
      if t < run.tStart then s
      else if run.role = .ahead then
        pathTick a r fuel (if run.seg.type = 3 then arcBegin a run s
          else s.modAxis a fun x => { x with segRun := some { run with role := if run.seg.type = 0 then .dwell else .own } })
      else if run.tStart.toNat + run.dur ≤ t.toNat then pathTick a r fuel (segFinish a r run s)
      else s.modAxis a fun x => { x with spp := segPoint run t }
/-- A setpoint that the manual leaves open: a free value (log 29). -/
def openSetpoint (a : Fin 32) (s : State) : State :=
  let f := freshFree s
  f.2.modAxis a fun x => { x with spp := f.1 }
/-- The selected source's output at a position tick (R255). -/
def sourceTick (a : Fin 32) (r : AxisRec) (s : State) : State :=
  let x := vget s.axes a
  if x.src = 0 then s.modAxis a Axis.useSp
  else if x.src = 1 then pathTick a r 80 s
  else match gearMaster s a with
    | none => openSetpoint a s
    | some m =>
      if x.src = 2 then
        match gearCmd x m with
        | some v => s.modAxis a fun x => { x with spp := v }
        | none => openSetpoint a s
      else match camCmd x m with
        | some (v, n, bank) => s.modAxis a fun x => { x with spp := v, camN := BitVec.ofInt 64 n, camUse := bank }
        | none => openSetpoint a s

/-! ### State orders (R239) -/

/-- ENABLE in DISABLED (R239, R240, R251, R262). -/
def orderEnable (a : Fin 32) (r : AxisRec) (rank port : Nat) (s : State) : State :=
  let p := fbkSample s r.posFbk
  let s := s.modAxis a fun x => { x with
    lsC := {}, lsD := {}, lsV := {}, lsP := {}, spp := p, spv := 0, spc := 0, spcUsed := 0, src := 0,
    sp := if r.mode = 3 then p else 0, spd := 0, steps := p, sppV := p, sppVOld := p, errV := 0, errP := 0,
    laneFf := 0, laneHold := false, laneRun := 0, laneZeroed := false, segRun := none, segEnd := none, segVNum := 0,
    segVDen := 1, safeHold := none, duty := vrep 3 0, share := vrep 3 (pwmShare (40 * r.pwmPer.toNat) 0) }
  axisTo a .enabled 0 rank port s
/-- RUN in ENABLED: the source named, where MODE and the master allow it (R255, R258, R259). -/
def orderRun (a : Fin 32) (src : BitVec 2) (s : State) : State :=
  let x := vget s.axes a
  if src = 0 then s.modAxis a fun x => { x with src := 0, segRun := none }.useSp
  else if x.mode ≠ 3 then countIgn a s
  else if src = 1 then
    s.modAxis a fun x => { x with src := 1, segRun := none, segEnd := none, segVNum := 0, segVDen := 1 }
  else match gearMaster s a with
    | none => countIgn a s
    | some m =>
      if src = 2 ∧ x.gearDen = 0 then countIgn a s else
      s.modAxis a fun x => { x with
        src := src, segRun := none, mRef := BitVec.ofInt 64 m, offset := x.spp, camN := 0, camUse := x.camBank }
/-- STOP in ENABLED (R270): the path is flushed, gearing and cams disengage, the ramp begins. -/
def orderStop (a : Fin 32) (rank port : Nat) (s : State) : State :=
  let s := s.modAxis a fun x =>
    let v := if x.motor = 3 then w32 (x.sppV.toInt - x.sppVOld.toInt) else x.spv
    { x with
      segq := [], segRun := none, src := 0, stopRank := BitVec.ofNat 3 rank, stopPort := BitVec.ofNat 8 port,
      spc := if x.mode = 1 then 0 else x.spc,
      spv := if x.mode ≠ 1 ∧ x.decel = 0 then 0 else v }
  axisTo a .stopping 0 rank port s
/-- EXTEST, CLAMP or HIGHZ is in effect: no axis can be enabled (R429). -/
def Tap.seizes (t : Tap) : Bool := t.instr = .extest || t.instr = .clamp || t.instr = .highz
/-- A state order applied: 1 ENABLE, 2 DISABLE, 3 RUN, 4 STOP; one not valid in the state is counted (R239). -/
def applyOrder (a : Fin 32) (op : BitVec 3) (src : BitVec 2) (rank port : Nat) (s : State) : State :=
  let x := vget s.axes a
  match x.rec_ with
  | none => countIgn a s
  | some r =>
    if op = 1 && s.tap.seizes then countIgn a s
    else if op = 1 && x.st = .disabled then orderEnable a r rank port s
    else if op = 2 && x.st.runs then axisTo a .disabled 0 rank port s
    else if op = 3 && x.st = .enabled then orderRun a src s
    else if op = 4 && x.st = .enabled then orderStop a rank port s
    else countIgn a s

/-! ### Arbitration (R263 to R267) -/

/-- Hardware stop inputs that the axis names, that a pin entry enables and that are asserted (AXS_STATE.HSTOP, R268). -/
def namedStops (s : State) (a : Fin 32) : BitVec 4 :=
  match (vget s.axes a).rec_ with | some r => r.hstop &&& s.hstop &&& s.hstopOn | none => 0
/-- The standing orders of the hardware stops: every running axis that names an asserted input is DISABLED, and a forced
duty ends (R265, R268). -/
def obeyStops (s : State) : State :=
  (List.finRange 32).foldl (fun s a =>
    match (List.finRange 4).find? fun h : Fin 4 => (namedStops s a).getLsbD h with
    | some h =>
      let s := s.modAxis a fun x => { x with pwmTest := none }
      if (vget s.axes a).st.runs then axisTo a .disabled 2 0 h s else s
    | none => s) s
def rivalState (r : Rival) : Bool := decide (r.op ≤ 4)
/-- Standing DISABLE orders of the present clock (R265). -/
def standing (s : State) (a : Fin 32) : List Rival :=
  ((List.finRange 4).filter fun (h : Fin 4) => (namedStops s a).getLsbD h).map
    (fun (h : Fin 4) => { axis := a, rank := 0, port := BitVec.ofNat 8 h, op := 2, src := 0, value := 0, spd := false }) ++
  if faulted s (axFid a) then [{ axis := a, rank := 1, port := 0, op := 2, src := 0, value := 0, spd := false }] else []
/-- One order goes before another (R264). -/
def rivalBefore (x y : Rival) : Bool :=
  let k := fun (r : Rival) => if rivalState r && r.op ≠ 2 && r.op ≠ 4 then 1 else 0
  decide (k x < k y) || (k x = k y && (decide (x.rank < y.rank) || (x.rank = y.rank && decide (x.port < y.port))))
/-- The image of AXS_CONFLICT. -/
def Axis.conflict (x : Axis) : Nat :=
  x.cOrder.toNat + 2 ^ 3 * x.cLrank.toNat + 2 ^ 6 * x.cLport.toNat + 2 ^ 14 * x.cWrank.toNat + 2 ^ 17 * x.cWport.toNat +
  2 ^ 25 * b2n x.cStanding + 2 ^ 56 * x.ctag.seq.toNat + 2 ^ 63 * b2n x.ctag.valid
/-- A lost order or register write is recorded with event 0x32 (R266). -/
def conflict (a : Fin 32) (op : BitVec 3) (lrank : BitVec 3) (lport : BitVec 8) (wrank : BitVec 3) (wport : BitVec 8)
    (st : Bool) (s : State) : State :=
  let s := s.modAxis a fun x => { x with
    cOrder := op, cLrank := lrank, cLport := lport, cWrank := wrank, cWport := wport, cStanding := st, ctag := x.ctag.bump }
  emit (axFid a) 0x32 (pl 16 (vget s.axes a).conflict) s
/-- The order that goes before every other. -/
def firstRival (os : List Rival) : Option Rival :=
  os.foldl (fun (w : Option Rival) o =>
    match w with | none => some o | some x => if rivalBefore o x then some o else some x) none
/-- An order that loses to the console's TAKE (R265). -/
def beaten (s : State) (a : Fin 32) (o : Rival) : Bool := (vget s.axes a).taken && decide (3 ≤ o.rank)
/-- Orders of one group that reach an axis in one clock: the console's TAKE beats ranks 3 to 6, then exactly one
master's orders apply, in the order it gave them, and every other order is recorded as lost (R264 to R266). -/
def arbitrate (a : Fin 32) (os : List Rival) (s : State) : State :=
  let lost := os.filter (beaten s a)
  let live := os.filter fun o => !beaten s a o
  let st := if live.any rivalState then standing s a else []
  let s := lost.foldl (fun s o => conflict a o.op o.rank o.port 2 0 true s) s
  match firstRival (st ++ live) with
  | none => s
  | some w =>
    let stand := decide (w ∈ st) && !(live.any fun o => o.rank = w.rank && o.port = w.port)
    let same := fun (o : Rival) => !stand && o.rank = w.rank && o.port = w.port
    let s := live.foldl (fun s o => if same o then s else conflict a o.op o.rank o.port w.rank w.port (decide (w ∈ st)) s) s
    if stand then
      (if (vget s.axes a).st.runs then axisTo a .disabled (if w.rank = 0 then 2 else 1) w.rank.toNat w.port.toNat s else s)
    else live.foldl (fun s o =>
      if !same o then s
      else if rivalState o then applyOrder a o.op o.src o.rank.toNat o.port.toNat s
      else applySetpoint a o.spd o.value s) s
/-- All orders of one servo clock: state orders and setpoint orders do not contest each other (R263, R264). An axis takes
its setpoint orders first, as a hook's buffer is delivered (R293; for other masters log 30). -/
def orders (os : List Rival) (s : State) : State :=
  (List.finRange 32).foldl (fun s a =>
    let mine := os.filter fun o => o.axis = a
    if mine = [] then s else
    arbitrate a (mine.filter rivalState) (arbitrate a (mine.filter fun o => !(rivalState o)) s)) s
/-- A register write of an axis's page by a core or cluster: it loses while the console holds the axis (R265). -/
def masterRank : Master → BitVec 3 × BitVec 8
  | .core n => (5, BitVec.ofNat 8 n)
  | .cluster d => (4, BitVec.ofNat 8 d)
def axsWrite (who : Master) (a : Fin 32) (off : Nat) (eff : State → State) (s : State) : State :=
  regWriteAt who (axsBase a + off) (fun s =>
    if (vget s.axes a).taken then conflict a 6 (masterRank who).1 (masterRank who).2 2 0 true s else eff s) s
/-- An order arrives with others of its clock: whether its master can give it, and how it reaches the axis (Table 11.7). -/
def orderArrives (o : Rival) (off : Nat) (rivals : List Rival) (s : State) : Host.Outcome State Fault Refusal :=
  let a := o.axis
  let go := orders (o :: rivals)
  let reg := fun (m : Master) => done (regWriteAt m (axsBase a + off) go s)
  if o.rank = 0 then doneIf (o.op = 2 && decide (o.port < 4) && (namedStops s a).getLsbD o.port.toNat) s go
  else if o.rank = 1 then doneIf (o.op = 2 && o.port = 0 && faulted s (axFid a)) s go
  else if o.rank = 2 then doneIf (o.port = 0 && rivalState o && s.console.locked) s go
  else if o.rank = 3 then doneIf (o.port.toNat = (axEngine a).val) s go
  else if o.rank = 4 then (if h : o.port.toNat < 4 then reg (.cluster ⟨o.port.toNat, h⟩) else .next s)
  else if o.rank = 5 then (if h : o.port.toNat < 48 then reg (.core ⟨o.port.toNat, h⟩) else .next s)
  else doneIf ((vget s.can ⟨o.port.toNat / 64 % 4, by omega⟩).maps.any fun m => m.obj.val = o.port.toNat % 64 && m.axis = a)
    s go

def execEnable (rank : BitVec 3) (port : BitVec 8) (a : Fin 32) (rivals : List Rival) (s : State) :
    Host.Outcome State Fault Refusal :=
  orderArrives { axis := a, rank := rank, port := port, op := 1, src := 0, value := 0, spd := false } 0x40 rivals s
def execDisable (rank : BitVec 3) (port : BitVec 8) (a : Fin 32) (rivals : List Rival) (s : State) :
    Host.Outcome State Fault Refusal :=
  orderArrives { axis := a, rank := rank, port := port, op := 2, src := 0, value := 0, spd := false } 0x40 rivals s
def execRun (rank : BitVec 3) (port : BitVec 8) (a : Fin 32) (src : BitVec 2) (rivals : List Rival) (s : State) :
    Host.Outcome State Fault Refusal :=
  orderArrives { axis := a, rank := rank, port := port, op := 3, src := src, value := 0, spd := false } 0x40 rivals s
def execAxsStop (rank : BitVec 3) (port : BitVec 8) (a : Fin 32) (rivals : List Rival) (s : State) :
    Host.Outcome State Fault Refusal :=
  orderArrives { axis := a, rank := rank, port := port, op := 4, src := 0, value := 0, spd := false } 0x40 rivals s
def execAxsSpWrite (rank : BitVec 3) (port : BitVec 8) (a : Fin 32) (value : BitVec 64) (rivals : List Rival)
    (s : State) : Host.Outcome State Fault Refusal :=
  orderArrives { axis := a, rank := rank, port := port, op := 5, src := 0, value := value, spd := false } 0x48 rivals s
def execAxsSpdWrite (rank : BitVec 3) (port : BitVec 8) (a : Fin 32) (value : BitVec 32) (rivals : List Rival)
    (s : State) : Host.Outcome State Fault Refusal :=
  orderArrives { axis := a, rank := rank, port := port, op := 5, src := 0, value := value.setWidth 64, spd := true }
    0x50 rivals s

/-! ### The path queue (R256) -/

/-- The segment that AXS_SEG0–7 hold (Table 11.6). -/
def segOf (x : Axis) (now : Time) : Segment :=
  let b := x.seg.toList.flatMap fun w => natLe 8 w.toNat
  let q := fun (o n : Nat) => leAt b o n
  { type := BitVec.ofNat 8 (q 0 1), startAt := bitOf (q 1 1) 0, event := bitOf (q 1 1) 1, partner := BitVec.ofNat 8 (q 2 1),
    dur := BitVec.ofNat 32 (q 4 4), startIt := BitVec.ofNat 64 (q 8 8), p1 := BitVec.ofNat 64 (q 16 8),
    v1 := BitVec.ofNat 64 (q 24 8), ca := BitVec.ofNat 64 (q 32 8), cb := BitVec.ofNat 64 (q 40 8),
    angle := BitVec.ofNat 64 (q 48 8), pushed := now }
/-- AXS_SEGPUSH.GO: a full queue, or a segment outside Table 11.6, is refused and counted (R256; log 30). -/
def segPush (a : Fin 32) (s : State) : State :=
  s.modAxis a fun x =>
    let g := segOf x s.time.it
    if x.segq.length < 16 ∧ g.type ≤ 3 ∧ g.dur ≠ 0 then { x with segq := x.segq ++ [g] }
    else { x with segRefused := satInc x.segRefused }
def segFlush (a : Fin 32) (s : State) : State := s.modAxis a fun x => { x with segq := [] }
def execSegmentPush (who : Master) (a : Fin 32) (s : State) : Host.Outcome State Fault Refusal :=
  done (axsWrite who a 0x140 (segPush a) s)
def execSegmentFlush (who : Master) (a : Fin 32) (s : State) : Host.Outcome State Fault Refusal :=
  done (axsWrite who a 0x140 (segFlush a) s)

/-! ### Hardware stops (R265, R268) -/

/-- A hardware stop input is accepted low. Where a pin entry enables it, the orders of the same clock lose to it and every
running axis that names it is DISABLED; else the ball alone changes. -/
def hstopAssert (h : Fin 4) (rivals : List Rival) (s : State) : State :=
  obeyStops (orders rivals { s with hstop := s.hstop ||| (1#4 <<< h.val) })
def execHstopAssert (h : Fin 4) (rivals : List Rival) (s : State) : Host.Outcome State Fault Refusal :=
  done (hstopAssert h rivals s)
def execHstopDeassert (h : Fin 4) (s : State) : Host.Outcome State Fault Refusal :=
  done { s with hstop := s.hstop &&& ~~~(1#4 <<< h.val) }

end Sys2Proof.Machine
end

