-- ==== Sys2Proof/Machine/Axes.lean ====
section
/-! DEFINITION. The tick of an axis (spec/11, 11.2 to 11.5, 11.7, 11.9): the grid in installation time, the loops in
their order, feedforward, stops, observation, and the deadline of its hook. -/
namespace Sys2Proof.Machine

/-! ### The grid (R242, R244) -/

/-- Time on the engine's grid, counted from the axis's slot offset. -/
def gridTime (s : State) (a : Fin 32) (r : AxisRec) : Int :=
  (s.time.it + (vget s.axes a).phase).toNat - 10 * r.curDiv.toNat * (axSlot a).val
/-- A period of P TQ begins now. -/
def due (s : State) (a : Fin 32) (r : AxisRec) (p : Nat) : Bool := decide (gridTime s a r % p = 0)
/-- The engine of an axis works: released, not fenced. -/
def engineWorks (s : State) (e : Fin 8) : Bool := !(vget s.trd e).held && !isFenced s (fidMk 6 e)
/-- A current tick of the axis falls now; it is not HELD. -/
def tickDue (s : State) (a : Fin 32) : Option AxisRec :=
  let x := vget s.axes a
  match x.rec_ with
  | some r =>
    if vsvoGood s && x.st ≠ .held && engineWorks s (axEngine a) && due s a r r.pC && (x.lastTick ≠ s.time.it || x.lastTick = 0)
    then some r else none
  | none => none

/-! ### Hooks and their deadline (R253, R278, R279) -/

/-- An abandoned hook: its buffered port writes go, the cache is invalidated, HABAND counts (R279, R287). -/
def hookAbandon (e : Fin 8) (i : Fin 4) (s : State) : State :=
  let s := s.modAxis (engineAxis e i) fun x => { x with hookPend := false }
  s.modTrd e fun t =>
    if t.hook = some i then { t with hook := none, out := [], cache := [], filling := false, haband := satInc t.haband }
    else { t with pendHooks := t.pendHooks.filter (· ≠ i), haband := satInc t.haband }
/-- Whether a hook of the axis runs or waits. -/
def hookOpen (s : State) (a : Fin 32) : Bool :=
  let t := vget s.trd (axEngine a)
  t.hook = some (axSlot a) || decide (axSlot a ∈ t.pendHooks)
/-- The hook missed its deadline: it is abandoned, the current setpoint stays as last used, the miss is counted with
event 0x31 (R253, R279). -/
def hookMiss (a : Fin 32) (s : State) : State :=
  let s := hookAbandon (axEngine a) (axSlot a) s
  let s := s.modAxis a fun x => { x with spc := if x.mode = 1 then x.spc else x.spcUsed, dlMiss := satInc x.dlMiss }
  emit (axFid a) 0x31 (pl 20 (vget s.axes a).dlMiss.toNat) s

/-! ### Loops (R243 to R254) -/

/-- A loop whose sample is not valid does not run; it is counted with event 0x31 (R254). -/
def staleLoop (a : Fin 32) (s : State) : State :=
  let s := s.modAxis a fun x => { x with fbkStale := satInc x.fbkStale }
  emit (axFid a) 0x31 (pl 16 1 + pl 20 (vget s.axes a).dlMiss.toNat) s
def setDuty (a : Fin 32) (r : AxisRec) (d : Vector (BitVec 32) 3) (s : State) : State :=
  s.modAxis a fun x => { x with duty := d, share := d.map fun v => pwmShare (40 * r.pwmPer.toNat) v }
/-- A result of a loop's law is kept, or the axis takes the class 3 fault of a non-finite result (R247). -/
def keepLaw (a : Fin 32) (o : LawOut) (put : LawOut → Axis → Axis) (s : State) : State :=
  if o.ok then s.modAxis a (put o) else raiseOutput a 4 s
/-- Currents of the tick's windows as Q31 fractions (R249). -/
def tickCurrents (r : AxisRec) (sdi : List (BitVec 768)) : List (BitVec 32) :=
  sdi.map fun w => w32 (sdiCurrent r.curDiv.toNat w)
/-- The current stage (R238, R243): measurement always, the laws while the axis runs. -/
def currentStage (a : Fin 32) (r : AxisRec) (sdi : List (BitVec 768)) (s : State) : State :=
  let cur := tickCurrents r sdi
  let x := vget s.axes a
  let law := vget x.laws 0
  if r.motor = 3 then s
  else if r.motor = 2 then
    let i := cur.getD 0 0
    let s := s.modAxis a fun x => { x with iq := i }
    match law with
    | none => s
    | some l =>
      if !x.st.runs then s else
      let o := lawRun l x.lsC x.spc.toInt i.toInt 0 true true
      let s := s.modAxis a fun x => { x with spcUsed := x.spc, lsC := o.st }
      if o.ok then setDuty a r #v[o.u, w32 (-o.u.toInt), 0] s else raiseOutput a 4 s
  else
    let c := fbkAt r.fbkA
    if !fbkValid s c then (if x.st.runs && law.isSome then staleLoop a s else s) else
    let ang := fbkAngle s c
    let dq := clarkePark r.motor.toNat (if r.motor = 0 then cur else cur.take 2) ang
    let s := s.modAxis a fun x => { x with iq := dq.2 }
    match law with
    | none => s
    | some l =>
      if !x.st.runs then s else
      let d := lawRun l x.lsD x.spd.toInt dq.1.toInt 0 true true
      let q := lawRun l x.lsC x.spc.toInt dq.2.toInt 0 true true
      let s := s.modAxis a fun x => { x with spcUsed := x.spc, lsD := d.st, lsC := q.st }
      if d.ok && q.ok then setDuty a r (inversePark r.motor.toNat d.u q.u ang) s else raiseOutput a 4 s

/-! ### Lane feedforward (R262) -/

/-- One request's outcome at the first loop tick from its DEADLINE on: an answer is used, a miss holds. An axis that runs
no loop lets it pass, so that nothing from before an ENABLE is used after it. -/
def laneApply (a : Fin 32) (l : Fin 8) (j : Nat) (q : Time × Option (List F32)) (s : State) : State :=
  let x := vget s.axes a
  if !x.st.runs then s.modAxis a fun x => { x with laneT := q.1 } else
  match q.2 with
  | some out =>
    let s := s.modAxis a fun x => { x with
      laneT := q.1, laneFf := out.getD j 0, laneHold := false, laneRun := 0, laneZeroed := false }
    if x.laneZeroed then emit (axFid a) 0x33 (pl 16 1 + pl 17 l) s else s
  | none =>
    let run := satInc x.laneRun
    let zero := x.holdMax ≠ 0 && decide (x.holdMax ≤ run) && !x.laneZeroed
    let s := s.modAxis a fun x => { x with
      laneT := q.1, laneHold := true, laneMiss := satInc x.laneMiss, laneRun := run,
      laneFf := if zero then 0 else x.laneFf, laneZeroed := x.laneZeroed || zero }
    if zero then emit (axFid a) 0x33 (pl 17 l) s else s
/-- The axis's lane and the number of its output, where it takes one. -/
def laneOf (s : State) (a : Fin 32) (r : AxisRec) : Option (Fin 8 × Nat) :=
  if r.lane = 0xFF then none else
  let l : Fin 8 := ⟨r.lane.toNat % 8, by omega⟩
  let n := vget s.lanes l
  match n.axes.findIdx? (· = a) with
  | some j => if n.on && decide (j < n.nout) then some (l, j) else none
  | none => none
/-- Requests whose outcome is due at an axis, oldest first. -/
def laneDue (n : Lane) (after now : Time) : List (Time × Option (List F32)) :=
  let all := (n.answers.map fun q => (q.1, some q.2)) ++ (n.missed.map fun t => (t, none))
  (all.filter fun q => decide (after < q.1) && decide (q.1.toNat + n.deadline.toNat ≤ now.toNat)).mergeSort
    fun x y => decide (x.1 ≤ y.1)
def laneUse (a : Fin 32) (r : AxisRec) (s : State) : State :=
  match laneOf s a r with
  | none => s
  | some (l, j) => (laneDue (vget s.lanes l) (vget s.axes a).laneT s.time.it).foldl (fun s q => laneApply a l j q s) s
/-- Error, velocity feedback, velocity setpoint and current of a lane-loop tick (R261). -/
def laneRecord (a : Fin 32) (r : AxisRec) (s : State) : State :=
  s.modAxis a fun x => { x with
    laneInOld := x.laneIn,
    laneIn := (s.time.it,
      [if r.posLane then x.errP else x.errV, f32ofInt x.fbVel.toInt, f32ofInt x.spv.toInt,
       if r.motor = 3 then 0 else toQuantity true x.iq.toInt]) }

/-! ### Position and velocity stages -/

/-- Following error (R269): event 0x35 and the class 3 fault. -/
def following (a : Fin 32) (r : AxisRec) (s : State) : State :=
  let x := vget s.axes a
  let e := x.spp.toInt - (fbkSample s r.posFbk).toInt
  if x.felim ≠ 0 ∧ x.felim.toNat < e.natAbs then
    raiseOutput a 4 (emit (axFid a) 0x35 (pl 16 (BitVec.ofInt 64 e).toNat) s)
  else s
/-- Steps of a MOTOR 3 axis at a position tick (R251). -/
def stepTick (a : Fin 32) (r : AxisRec) (s : State) : State :=
  s.modAxis a fun x =>
    let delta := x.spp.toInt - x.steps.toInt
    let q := min delta.natAbs (r.pP / (2 * r.dead.toNat))
    { x with
      stepDir := if delta = 0 then x.stepDir else decide (0 < delta), stepQ := q,
      steps := x.steps + BitVec.ofInt 64 (if 0 < delta then q else -(q : Int)) }
/-- The position stage of a running axis: setpoint source, then steps or the position law, which the ramp of a stop takes
the place of (R243, R255, R270). -/
def positionStage (a : Fin 32) (r : AxisRec) (s : State) : State :=
  let s := if r.mode = 3 && (vget s.axes a).st = .enabled then sourceTick a r s else s
  let c := r.posFbk
  if r.motor = 3 then
    let s := stepTick a r s
    if fbkValid s c then following a r s else s
  else
    let s := if r.posLane then laneUse a r s else s
    match vget (vget s.axes a).laws 2 with
    | none => s
    | some l =>
      if (vget s.axes a).st ≠ .enabled then (if fbkValid s c then following a r s else s)
      else if !fbkValid s c then staleLoop a s
      else
        let s := following a r s
        let x := vget s.axes a
        if !x.st.runs then s else
        let o := lawRun l x.lsP x.spp.toInt (fbkSample s c).toInt (if r.posLane then x.laneFf else 0) false false
        keepLaw a o (fun o x => { x with lsP := o.st, spv := o.u, errP := o.e }) s
/-- The stop ramp at a velocity tick (R270). -/
def rampTick (a : Fin 32) (r : AxisRec) (s : State) : State :=
  s.modAxis a fun x =>
    if r.mode = 1 then x else
    let v := x.spv.toInt
    let d := x.decel.toNat
    let v1 : Int := if d = 0 ∨ v.natAbs ≤ d then 0 else if 0 < v then v - d else v + d
    { x with spv := w32 v1, spp := if r.mode = 3 then x.spp + BitVec.ofInt 64 v1 else x.spp }
/-- The stop is complete at a velocity tick with a velocity setpoint of 0 (R239, R240, R270). -/
def stopDone (a : Fin 32) (r : AxisRec) (s : State) : State :=
  let x := vget s.axes a
  if x.st = .stopping && (r.mode = 1 || x.spv = 0) then
    let s := s.modAxis a fun x => { x with sp := if r.mode = 3 then x.spp else 0, src := 0 }
    axisTo a .enabled 0 x.stopRank.toNat x.stopPort.toNat s
  else s
/-- The velocity stage of a running axis (R243). -/
def velocityStage (a : Fin 32) (r : AxisRec) (velfb : BitVec 32) (s : State) : State :=
  let s := if (vget s.axes a).st = .stopping then rampTick a r s
    else if r.mode = 2 && (vget s.axes a).st = .enabled then s.modAxis a Axis.useSp else s
  let s := if r.motor = 3 then s.modAxis a fun x => { x with sppVOld := x.sppV, sppV := x.spp } else s
  let s := if r.posLane then s else laneUse a r s
  let s := match vget (vget s.axes a).laws 1 with
    | none => s
    | some l =>
      if !fbkValid s (fbkAt r.fbkA) then staleLoop a s
      else
        let x := vget s.axes a
        let o := lawRun l x.lsV x.spv.toInt velfb.toInt (if r.posLane then 0 else x.laneFf) false true
        keepLaw a o (fun o x => { x with lsV := o.st, spc := o.u, errV := o.e }) s
  stopDone a r s

/-! ### The tick (R243) -/

/-- The image of AXS_STATE. -/
def axsState (s : State) (a : Fin 32) : BitVec 32 :=
  let x := vget s.axes a
  BitVec.ofNat 32 (x.st.code + 8 * x.src.toNat + 32 * b2n x.aligned + 64 * b2n x.laneHold + 128 * b2n x.taken +
    256 * (namedStops s a).toNat + 4096 * b2n (decide (x.segq = []) && x.segRun.isNone))
/-- The feedforward in use in the loop's quantity (port LANEFF). -/
def laneFfWord (x : Axis) (r : AxisRec) : BitVec 32 :=
  match vget x.laws (if r.posLane then 2 else 1) with
  | some l => if l.float then x.laneFf else fromQuantity (!r.posLane) x.laneFf
  | none => x.laneFf
/-- The end of a tick sequence: what the engine's ports show until the next (Table 12.7). -/
def tickImage (a : Fin 32) (r : AxisRec) (s : State) : State :=
  let st := axsState s a
  s.modAxis a fun x => { x with
    lastTick := s.time.it,
    image := { state := st, posfb := x.fbPos, velfb := x.fbVel, iq := x.iq, spp := x.spp, spv := x.spv, spc := x.spc,
               laneff := laneFfWord x r } }
/-- A hook becomes pending after a velocity tick (R278). -/
def hookPending (a : Fin 32) (s : State) : State :=
  if (vget s.axes a).hook = 0 then s else
  (s.modAxis a fun x => { x with hookPend := true }).modTrd (axEngine a) fun t =>
    { t with pendHooks := t.pendHooks ++ [axSlot a] }
/-- Feedback of a velocity tick, and the observation group (R237, R271). -/
def velocityFeedback (a : Fin 32) (r : AxisRec) (s : State) : State :=
  let v := fbkSample s (fbkAt r.fbkA)
  let valid := fbkValid s (fbkAt r.fbkA)
  let p := fbkSample s r.posFbk
  s.modAxis a fun x => { x with
    fbVel := if valid then w32 (v.toInt - x.velPos.toInt) else x.fbVel, velPos := v, fbPos := p }
def observe (a : Fin 32) (s : State) : State :=
  s.modAxis a fun x => { x with otag := x.otag.bump, obsPos := x.fbPos, obsVel := x.fbVel, obsIq := x.iq }
/-- The engine's own side of a tick: a running background program is preempted, and the occupancy in cycles, which is
bounded by Table 12.3 and otherwise open, enters MAXTICK. -/
def tickEngine (e : Fin 8) (bound : Nat) (s : State) : State :=
  let f := freshFree s
  f.2.modTrd e fun t => { t with
    preempt := if t.bg ≠ .halted && t.hook.isNone then satInc t.preempt else t.preempt,
    occ := if t.occ.toNat < 1 + f.1.toNat % bound then BitVec.ofNat 8 (1 + f.1.toNat % bound) else t.occ }
/-- A current tick of an axis, with the position and velocity stages where they are due. -/
def axisTick (a : Fin 32) (r : AxisRec) (sdi : List (BitVec 768)) (s : State) : State :=
  let vel := due s a r r.pV
  let pos := due s a r r.pP
  let s := if hookOpen s a then hookMiss a s else s
  let s := tickEngine (axEngine a) (if pos then 94 else if vel then 62 else 46) s
  let s := s.modAxis a fun x => { x with
    safeHold := match x.safeHold with | some t => if t ≤ s.time.it then none else some t | none => none }
  let s := currentStage a r sdi s
  if !vel then tickImage a r s else
  let s := velocityFeedback a r s
  let s := if !(vget s.axes a).st.runs && (!r.posLane || pos) then laneUse a r s else s
  let s := if pos && (vget s.axes a).st.runs then positionStage a r s else s
  let s := if (vget s.axes a).st.runs then velocityStage a r (vget s.axes a).fbVel s else s
  let s := observe a s
  let s := if (if r.posLane then pos else vel) then laneRecord a r s else s
  hookPending a (tickImage a r s)
def execCurrentTick (a : Fin 32) (sdi0 sdi1 sdi2 : BitVec 768) (s : State) : Host.Outcome State Fault Refusal :=
  match tickDue s a with
  | none => .next s
  | some r => done (axisTick a r [sdi0, sdi1, sdi2] s)
def execHookDeadline (a : Fin 32) (s : State) : Host.Outcome State Fault Refusal :=
  doneIf ((tickDue s a).isSome && hookOpen s a) s (hookMiss a)

end Sys2Proof.Machine
end

