-- ==== Sys2Proof/Machine/CanBits.lean ====
section
/-! DEFINITION. The bits of a CAN frame on the bus and how long each lasts (R318, R320). The frame's layout, its stuffing
and its CRCs are ISO 11898-1:2015's, which R318 names and does not print (PRESUMED, log 33). -/
namespace Sys2Proof.Machine

/-- How long a bit lasts: nominal, data, the BRS bit (its part after the sample point at the data rate) or the CRC delimiter
(its part after the sample point at the nominal rate). -/
inductive CanRate
  | nominal | toData | data | toNominal
deriving DecidableEq, Repr

/-- A bit of a frame: recessive (1) or dominant (0), and its rate. -/
structure CanBit where
  bit : Bool
  rate : CanRate := .nominal
deriving DecidableEq, Repr

/-- The n low bits of v, most significant first. -/
def msbFirst (n v : Nat) : List Bool := (List.range n).map fun i => v.testBit (n - 1 - i)
/-- The register of a CRC after one more bit. -/
def crcBit {n : Nat} (poly r : BitVec n) (b : Bool) : BitVec n :=
  if r.msb != b then (r <<< 1) ^^^ poly else r <<< 1
def crcOf {n : Nat} (poly init : BitVec n) (bits : List Bool) : BitVec n := bits.foldl (crcBit poly) init
/-- CRC-15 of a classical frame; CRC-17 and CRC-21 of an FD frame with up to 16 bytes and with more (R318). -/
def crc15 : List Bool → BitVec 15 := crcOf 0x4599 0
def crc17 : List Bool → BitVec 17 := crcOf 0x1685B 0x10000
def crc21 : List Bool → BitVec 21 := crcOf 0x102899 0x100000

/-- Payload bytes of a DLC (R318). -/
def dlcLen (fdf : Bool) (dlc : Nat) : Nat :=
  if dlc ≤ 8 then dlc else if !fdf then 8
  else match dlc with | 9 => 12 | 10 => 16 | 11 => 20 | 12 => 24 | 13 => 32 | 14 => 48 | _ => 64
def frameIdent (f : CanFrame) : BitVec 29 := if f.ide then f.id else f.id &&& 0x7FF
/-- The payload a frame carries: none in a remote frame. -/
def payload (f : CanFrame) : List Byte := if f.rtr then [] else slice f.data 0 (dlcLen f.fdf f.dlc.toNat)

/-- Stuffing: after five equal bits their complement follows; not after the last bit where `last` is false, a place that a
fixed stuff bit takes. A stuff bit after the BRS bit lasts a data bit. -/
def stuffFrom (last : Bool) : Bool → Nat → List CanBit → List CanBit
  | _, _, [] => []
  | v, run, b :: rest =>
    let n := if b.bit = v then run + 1 else 1
    if n = 5 ∧ (last ∨ rest ≠ []) then
      let r : CanRate := if b.rate = .toData then .data else b.rate
      b :: { bit := !b.bit, rate := r } :: stuffFrom last (!b.bit) 1 rest
    else b :: stuffFrom last b.bit n rest
def stuffed (last : Bool) (bits : List CanBit) : List CanBit := stuffFrom last true 0 bits
/-- Fixed stuff bits: one before every four bits, the complement of the bit before it. -/
def fixedStuff : Nat → Bool → List Bool → List Bool
  | _, _, [] => []
  | i, before, b :: rest => if i % 4 = 0 then (!before) :: b :: fixedStuff (i + 1) b rest else b :: fixedStuff (i + 1) b rest
/-- The stuff count: the dynamic stuff bits modulo 8 in Gray code, and their even parity. -/
def stuffCount (n : Nat) : List Bool :=
  let g := msbFirst 3 (n % 8 ^^^ n % 8 / 2)
  g ++ [g.foldl (· != ·) false]
/-- Start of frame to the last bit before the CRC. -/
def frameHead (f : CanFrame) : List CanBit :=
  let id := (frameIdent f).toNat
  let nom := fun (bs : List Bool) => bs.map fun b => ({ bit := b } : CanBit)
  let rtr := f.rtr && !f.fdf
  let arb := if f.ide then msbFirst 11 (id / 2 ^ 18) ++ [true, true] ++ msbFirst 18 id ++ [rtr]
    else msbFirst 11 id ++ [rtr]
  let rate : CanRate := if f.fdf && f.brs then .data else .nominal
  let ctl := if f.fdf then
      nom ((if f.ide then [] else [false]) ++ [true, false]) ++
        [{ bit := f.brs, rate := if f.brs then .toData else .nominal }, { bit := f.esi, rate := rate }]
    else nom [false, false]
  nom (false :: arb) ++ ctl ++
    (msbFirst 4 f.dlc.toNat ++ (payload f).flatMap fun b => msbFirst 8 b.toNat).map fun b => { bit := b, rate := rate }
/-- CRC field, delimiters, ACK slot (as the transmitter sends it) and end of frame. -/
def canBits (f : CanFrame) : List CanBit :=
  let head := frameHead f
  let tail := fun (del : CanRate) => { bit := true, rate := del } :: List.replicate 9 ({ bit := true } : CanBit)
  if f.fdf then
    let body := stuffed false head
    let rate : CanRate := if f.brs then .data else .nominal
    let sc := stuffCount (body.length - head.length)
    let bits := body.map (·.bit) ++ sc
    let crc := if (payload f).length ≤ 16 then msbFirst 17 (crc17 bits).toNat else msbFirst 21 (crc21 bits).toNat
    let before := match body.getLast? with | some b => b.bit | none => true
    body ++ (fixedStuff 0 before (sc ++ crc)).map (fun b => { bit := b, rate := rate }) ++
      tail (if f.brs then .toNominal else .nominal)
  else
    let crc := msbFirst 15 (crc15 (head.map (·.bit))).toNat
    stuffed true (head ++ crc.map fun b => { bit := b }) ++ tail .nominal

/-! ### Bit times (R320, Table 14.1) -/

/-- TQ of a nominal and of a data quantum; a kernel clock is five servo clocks of 40 TQ. -/
def nomQ (nbt : BitVec 32) : Nat := 200 * (fld nbt.toNat 0 9 + 1)
def dataQ (dbt : BitVec 32) : Nat := 200 * (fld dbt.toNat 0 5 + 1)
/-- TQ from a bit's start to its sample point, and from there to its end. -/
def nomBefore (nbt : BitVec 32) : Nat := nomQ nbt * (fld nbt.toNat 9 8 + 2)
def nomAfter (nbt : BitVec 32) : Nat := nomQ nbt * (fld nbt.toNat 17 7 + 1)
def dataBefore (dbt : BitVec 32) : Nat := dataQ dbt * (fld dbt.toNat 8 5 + 2)
def dataAfter (dbt : BitVec 32) : Nat := dataQ dbt * (fld dbt.toNat 16 4 + 1)
def bitTq (nbt dbt : BitVec 32) : CanRate → Nat
  | .nominal => nomBefore nbt + nomAfter nbt
  | .toData => nomBefore nbt + dataAfter dbt
  | .data => dataBefore dbt + dataAfter dbt
  | .toNominal => dataBefore dbt + nomAfter nbt
/-- TQ that a bit gains or loses at most by resynchronisation: SJW quanta (PRESUMED, log 33). -/
def jumpTq (nbt dbt : BitVec 32) : CanRate → Nat
  | .data | .toNominal => dataQ dbt * (fld dbt.toNat 24 4 + 1)
  | _ => nomQ nbt * (fld nbt.toNat 24 7 + 1)
def bitsTq (nbt dbt : BitVec 32) (bits : List CanBit) : Nat := (bits.map fun b => bitTq nbt dbt b.rate).sum
def bitsJump (nbt dbt : BitVec 32) (bits : List CanBit) : Nat := (bits.map fun b => jumpTq nbt dbt b.rate).sum
/-- The bit on the bus t TQ after the start of frame; recessive after the frame. -/
def levelAt (nbt dbt : BitVec 32) : List CanBit → Nat → Bool
  | [], _ => true
  | b :: rest, t => if t < bitTq nbt dbt b.rate then b.bit else levelAt nbt dbt rest (t - bitTq nbt dbt b.rate)
/-- A frame that becomes valid for a receiver now, at the last bit but one of its end of frame, had its start of frame at
this count of CAN_TSC, within what resynchronisation allows and a count of either reading (R330). -/
def sofFits (nbt dbt : BitVec 32) (f : CanFrame) (sof now : BitVec 32) : Bool :=
  let bits := (canBits f).dropLast
  let age := 400 * (now - sof).toNat
  decide (bitsTq nbt dbt bits ≤ age + bitsJump nbt dbt bits + 400) &&
    decide (age ≤ bitsTq nbt dbt bits + bitsJump nbt dbt bits + 400)

end Sys2Proof.Machine
end

