-- ==== Sys2Proof/Machine/CanBus.lean ====
section
/-! DEFINITION. CAN FD controllers (spec/14): matching and storing, transmission and cancellation, error states, mapped
orders, and the controllers' register writes. -/
namespace Sys2Proof.Machine

def canFid (k : Fin 4) : Fid := fidMk 10 k
def canBase (k : Fin 4) : Nat := regBase + 0x8000000 + 0x10000 * k
def moBase (k : Fin 4) (j : Fin 64) : Nat := canBase k + 0x1000 + 0x80 * j
def canIgn (k : Fin 4) (s : State) : State := s.modCan k fun c => { c with ign := satInc c.ign }

/-! ### Message objects -/

def MsgObj.en (m : MsgObj) : Bool := m.cfg.getLsbD 0
def MsgObj.tx (m : MsgObj) : Bool := m.cfg.getLsbD 1
def MsgObj.ide (m : MsgObj) : Bool := m.cfg.getLsbD 2
def MsgObj.rtr (m : MsgObj) : Bool := m.cfg.getLsbD 3
def MsgObj.fdf (m : MsgObj) : Bool := m.cfg.getLsbD 4
def MsgObj.brs (m : MsgObj) : Bool := m.cfg.getLsbD 5
def MsgObj.oneshot (m : MsgObj) : Bool := m.cfg.getLsbD 6
def MsgObj.hold (m : MsgObj) : Bool := m.cfg.getLsbD 7
def MsgObj.dlcOf (m : MsgObj) : Nat := fld m.cfg.toNat 12 4
/-- The identifier: bits [10:0] when IDE is 0. -/
def MsgObj.ident (m : MsgObj) : BitVec 29 := if m.ide then m.id else m.id &&& 0x7FF
/-- The object that takes a frame (R323). -/
def matchObj (c : Can) (f : CanFrame) : Option (Fin 64) :=
  let all := List.finRange 64
  let same := fun (m : MsgObj) => m.ide = f.ide && m.ident = frameIdent f
  match all.find? fun j => (vget c.mo j).mapped && same (vget c.mo j) with
  | some j => some j
  | none =>
    let rx := fun (m : MsgObj) => m.en && !m.tx
    match all.find? fun j => decide (j.val < 8) && rx (vget c.mo j) && (vget c.mo j).ide = f.ide &&
        ((vget c.mo j).ident ^^^ frameIdent f) &&& (vget c.mo j).mask = 0 with
    | some j => some j
    | none => all.find? fun j => decide (8 ≤ j.val) && rx (vget c.mo j) && same (vget c.mo j)
/-- The MSI of an object of 0–7 (R329). -/
def moIrq (k : Fin 4) (j : Fin 64) (s : State) : State :=
  let q := (vget (vget s.can k).mo j).irq.toNat
  if j.val < 8 ∧ fld q 16 8 ≠ 0 then sendMsi (fld q 0 6) (fld q 6 4) (BitVec.ofNat 8 (fld q 16 8)) s else s
/-- A frame stored in an object (R324). -/
def moStore (f : CanFrame) (sof : BitVec 32) (m : MsgObj) : MsgObj :=
  let d := payload f
  { m with
    rxid := frameIdent f, ts := sof, data := Vector.ofFn fun i => BitVec.ofNat 32 (leAt d (4 * i) 4), tag := m.tag.bump,
    lost := m.lost || m.tag.valid, dlc := f.dlc,
    rxf := BitVec.ofNat 5 (b2n f.rtr + 2 * b2n f.ide + 4 * b2n f.fdf + 8 * b2n f.brs + 16 * b2n f.esi) }
def moTake (k : Fin 4) (j : Fin 64) (f : CanFrame) (sof : BitVec 32) (s : State) : State :=
  let m := vget (vget s.can k).mo j
  if j.val < 8 && m.hold && m.tag.valid then s.modMo k j fun m => { m with lost := true }
  else moIrq k j (s.modMo k j (moStore f sof))

/-! ### Mapped orders (R333) -/

/-- Payload bytes a target needs (Table 14.2). -/
def targetBytes (t : BitVec 8) : Nat := if t = 1 then 8 else if t = 4 then 1 else 4
/-- Axis MODE of a setpoint target. -/
def targetMode (t : BitVec 8) : Option Nat := if t = 1 then some 3 else if t = 2 then some 2 else if t = 3 then some 1 else none
/-- Why a mapped frame gives no order: 2 remote frame, 0 short, 1 MODE differs. -/
def mapErr (s : State) (f : CanFrame) (m : CanMap) : Option Nat :=
  if f.rtr then some 2
  else if (payload f).length < targetBytes m.target then some 0
  else match targetMode m.target with
    | some n => if (vget s.axes m.axis).mode = n then none else some 1
    | none => none
/-- The order of a mapped frame, rank 6, port 64 × k + j. -/
def mapOrder (k : Fin 4) (f : CanFrame) (m : CanMap) : Option Rival :=
  let d := payload f
  let o : Rival := { axis := m.axis, rank := 6, port := BitVec.ofNat 8 (64 * k + m.obj), op := 5, src := 0,
                     value := 0, spd := false }
  if m.target = 0 then
    let v := leAt d 0 4
    if 1 ≤ fld v 0 3 ∧ fld v 0 3 ≤ 4 then some { o with op := BitVec.ofNat 3 (fld v 0 3), src := BitVec.ofNat 2 (fld v 3 2) }
    else none
  else if m.target = 1 then some { o with value := BitVec.ofNat 64 (leAt d 0 8) }
  else if m.target = 4 then some { o with op := if byteAt d 0 ≠ 0 then 1 else 2 }
  else some { o with value := (BitVec.ofNat 32 (leAt d 0 4)).signExtend 64 }
def mapped (k : Fin 4) (j : Fin 64) (f : CanFrame) (rivals : List Rival) (s : State) : State :=
  match (vget s.can k).maps.find? (·.obj = j) with
  | none => orders rivals s
  | some m =>
    match mapErr s f m with
    | some why =>
      let s := s.modCan k fun c => { c with maperr := satInc c.maperr }
      orders rivals (emit (canFid k) 0x49
        (pl 16 j + pl 17 why + pl 18 m.axis + pl 20 (vget s.can k).maperr.toNat) s)
    | none => orders ((mapOrder k f m).toList ++ rivals) s

/-! ### Error states (R332; log 33 for the counting rules of ISO 11898-1) -/

def CanState.code : CanState → Nat | .active => 0 | .passive => 1 | .busOff => 2 | .integrating => 3
/-- A change of error state with its event. -/
def canTo (k : Fin 4) (new : CanState) (s : State) : State :=
  let c := vget s.can k
  if c.st = new then s else
  emit (canFid k) 0x48 (pl 16 c.st.code + pl 17 new.code + pl 18 (min c.tec.toNat 255) + pl 19 (min c.rec_.toNat 255) +
    pl 20 c.lec.toNat) (s.modCan k fun c => { c with st := new })
/-- A transmit object's new result (R328). -/
def txDone (k : Fin 4) (j : Fin 64) (res : BitVec 3) (s : State) : State :=
  moIrq k j (s.modMo k j fun m => { m with
    pend := false, txres := res, tag := m.tag.bump, ts := m.att.getD m.ts, att := none })
/-- Bus-off: every pending object completes with BUSOFF, and recovery begins where AUTOREC is 1. -/
def busOff (k : Fin 4) (s : State) : State :=
  let s := canTo k .busOff (s.modCan k fun c => { c with tx := none })
  let s := (List.finRange 64).foldl (fun s j => if (vget (vget s.can k).mo j).pend then txDone k j 2 s else s) s
  if (vget s.can k).autorec then canTo k .integrating (s.modCan k fun c => { c with recovering := true }) else s
/-- The error state that the counters give. -/
def canState (k : Fin 4) (s : State) : State :=
  let c := vget s.can k
  if 256 ≤ c.tec.toNat then busOff k s
  else canTo k (if 128 ≤ c.tec.toNat ∨ 128 ≤ c.rec_.toNat then .passive else .active) s
/-- A valid frame received: REC falls by 1, or to a value of 119 to 127 that ISO 11898-1 leaves open. -/
def recGood (k : Fin 4) (s : State) : State :=
  let c := vget s.can k
  if c.rec_ = 0 then s
  else if c.rec_.toNat ≤ 127 then s.modCan k fun c => { c with rec_ := c.rec_ - 1 }
  else
    let f := freshFree s
    canState k (f.2.modCan k fun c => { c with rec_ := BitVec.ofNat 9 (119 + f.1.toNat % 9) })
/-- A controller takes part in bus traffic: released, MODE not 0, error-active or error-passive. -/
def canWorks (s : State) (k : Fin 4) : Bool :=
  let c := vget s.can k
  s.island.vaon && s.island.good.getLsbD 0 && !c.held && !isFenced s (canFid k) && !resetting s (canFid k) && c.mode ≠ 0
def canOnBus (s : State) (k : Fin 4) : Bool :=
  canWorks s k && ((vget s.can k).st = .active || (vget s.can k).st = .passive)

/-- A frame becomes valid for the receiver (R323, R324, R333). -/
def receive (k : Fin 4) (f : CanFrame) (sof : BitVec 32) (rivals : List Rival) (s : State) : State :=
  let s := recGood k s
  match matchObj (vget s.can k) f with
  | none => orders rivals (s.modCan k fun c => { c with unmatched := satInc c.unmatched })
  | some j =>
    let s := moTake k j f sof s
    if (vget (vget s.can k).mo j).mapped then mapped k j f rivals s else orders rivals s

/-! ### Transmission (R325 to R328) -/

/-- The arbitration field of an object's frame as 32 bits; the lower number wins on the bus (R326). -/
def arbField (m : MsgObj) : Nat :=
  let r := b2n (m.rtr && !m.fdf)
  if m.ide then fld m.id.toNat 18 11 * 2 ^ 21 + 2 ^ 20 + 2 ^ 19 + fld m.id.toNat 0 18 * 2 + r
  else fld m.id.toNat 0 11 * 2 ^ 21 + r * 2 ^ 20
/-- The pending object that a controller offers. -/
def offer (c : Can) : Option (Fin 64) :=
  (List.finRange 64).foldl (fun (w : Option (Fin 64)) j =>
    if !(vget c.mo j).pend then w else
    match w with
    | none => some j
    | some i => if arbField (vget c.mo j) < arbField (vget c.mo i) then some j else some i) none
/-- An attempt begins at its SOF, whose timestamp is the counter now (R326, R330). -/
def execTransmissionAttempt (k : Fin 4) (s : State) : Host.Outcome State Fault Refusal :=
  let c := vget s.can k
  match offer c with
  | none => .next s
  | some j => doneIf (canOnBus s k && c.tx.isNone && !c.listen && !c.stopTx) s fun s =>
      (s.modCan k fun c => { c with tx := some (j, s.tsc), sofAt := s.time.it, flag := none }).modMo k j fun m =>
        { m with att := some s.tsc }
/-- The frame of an object. -/
def moFrame (m : MsgObj) : CanFrame :=
  { ide := m.ide, id := m.ident, rtr := m.rtr && !m.fdf, fdf := m.fdf, brs := m.brs && m.fdf, esi := false,
    dlc := BitVec.ofNat 4 m.dlcOf, data := m.data.toList.flatMap fun w => natLe 4 w.toNat }
/-- The delay of a frame sent with BRS is measured: TDC set, and CANk_RX not ignored (R319, R321). -/
def tdcRuns (c : Can) (m : MsgObj) : Bool := c.dbt.getLsbD 28 && m.fdf && m.brs && !c.loop
/-- 400 ns in kernel clocks: a longer delay is a bit error (R321). -/
def tdcMax : BitVec 8 := 32
def tdcMeasure (k : Fin 4) (m : MsgObj) (delay : BitVec 8) (s : State) : State :=
  s.modCan k fun c => if tdcRuns c m then { c with tdcv := delay } else c
/-- The attempt's frame is valid: SENT; in loopback the controller also receives it (R319, R328). -/
def frameSent (k : Fin 4) (j : Fin 64) (sof : BitVec 32) (delay : BitVec 8) (s : State) : State :=
  let m := vget (vget s.can k).mo j
  let esi := (vget s.can k).st = .passive
  let s := tdcMeasure k m delay s
  let s := s.modCan k fun c => { c with tx := none, tec := if c.tec = 0 then 0 else c.tec - 1 }
  let s := canState k (txDone k j 0 s)
  if (vget s.can k).loop then receive k { moFrame m with esi := esi && m.fdf } sof [] s else s
/-- `delay` is the measured transmitter delay, where TDC measures one: a frame with more than 400 ns is not sent. -/
def execFrameSent (k : Fin 4) (delay : BitVec 8) (s : State) : Host.Outcome State Fault Refusal :=
  let c := vget s.can k
  match c.tx with
  | none => .next s
  | some (j, sof) => doneIf (canOnBus s k && (!tdcRuns c (vget c.mo j) || decide (delay ≤ tdcMax))) s (frameSent k j sof delay)
/-- An attempt ends without success: ONESHOT completes the object, else it stays pending (R326). -/
def attemptFails (k : Fin 4) (j : Fin 64) (s : State) : State :=
  let s := s.modCan k fun c => { c with tx := none }
  if (vget (vget s.can k).mo j).oneshot then txDone k j 3 s else s
def execArbitrationLost (k : Fin 4) (s : State) : Host.Outcome State Fault Refusal :=
  match (vget s.can k).tx with
  | none => .next s
  | some (j, _) => doneIf (canOnBus s k && !(vget s.can k).loop) s fun s =>
      attemptFails k j (s.modCan k fun c => { c with arblost := satInc c.arblost })
/-- An error frame begins: an error-active controller that is not listen-only sends six dominant bits (R318, R319). -/
def errFlag (tx : Bool) (s : State) (c : Can) : CanFlag := { tx := tx, active := c.st = .active && !c.listen, start := s.time.it }
/-- The measured delay of an attempt that an error ends, where it came that far (R321). -/
def errDelay (k : Fin 4) (e : CanErr) (s : State) : State :=
  match e.delay, (vget s.can k).tx with
  | some d, some (j, _) => tdcMeasure k (vget (vget s.can k).mo j) d s
  | _, _ => s
/-- A detected error (R332). One of the transmitter's ends its attempt; one within its own error flag ends none. The two
exceptions of ISO 11898-1 leave TEC as it is. -/
def canError (k : Fin 4) (e : CanErr) (s : State) : State :=
  let c := vget s.can k
  let s := errDelay k e s
  let s := s.modCan k fun c => { c with lec := e.lec, lecData := e.dataPhase, flag := some (errFlag e.tx s c) }
  let s := match c.tx with | some (j, _) => if e.tx then attemptFails k j s else s | none => s
  canState k (s.modCan k fun c =>
    if e.tx then (if e.exempt then c else { c with tec := BitVec.ofNat 9 (c.tec.toNat + 8) })
    else { c with rec_ := BitVec.ofNat 9 (min 255 (c.rec_.toNat + if e.heavy then 8 else 1)) })
/-- An error the controller can detect now: a transmitter's in its attempt or in the error flag that ended it; a receiver's
with no attempt of its own; the exceptions (an ACK error of an error-passive transmitter that sees no dominant bit in its
flag, a stuff error in arbitration) at a transmitter; and a delay above 400 ns only as a bit error (R321). -/
def errFits (c : Can) (e : CanErr) : Bool :=
  let inFlag := match c.flag with | some g => g.tx | none => false
  !c.loop && (if e.tx then c.tx.isSome || inFlag else c.tx.isNone) &&
  (!e.exempt || (e.tx && c.tx.isSome && (e.lec = 1 || (e.lec = 3 && c.st = .passive)))) &&
  (match e.delay with
    | none => true
    | some d => e.tx && (match c.tx with | some (j, _) => tdcRuns c (vget c.mo j) | none => false) &&
        (decide (d ≤ tdcMax) || e.lec = 4 || e.lec = 5))
def execCanError (k : Fin 4) (err : CanErr) (s : State) : Host.Outcome State Fault Refusal :=
  doneIf (canOnBus s k && errFits (vget s.can k) err && decide (1 ≤ err.lec) && decide (err.lec ≤ 6)) s (canError k err)

/-! ### Reception (R319, R323) -/

/-- The form error of a recessive bit in the position of FDF. -/
def fdfError : CanErr := { lec := 2, dataPhase := false, tx := false, heavy := false, exempt := false, delay := none }
/-- A frame from the bus is valid, its SOF one frame ago (R330). A controller of MODE 1 takes the FDF bit of an FD frame for
a form error. -/
def execFrameReceived (k : Fin 4) (f : CanFrame) (sof : BitVec 32) (rivals : List Rival) (s : State) :
    Host.Outcome State Fault Refusal :=
  let c := vget s.can k
  if f.fdf && c.mode = 1 then doneIf (canOnBus s k && errFits c fdfError) s fun s => orders rivals (canError k fdfError s)
  else doneIf (canOnBus s k && !c.loop && c.tx.isNone && !(f.fdf && f.rtr) && sofFits c.nbt c.dbt f sof s.tsc) s fun s =>
    receive k f sof rivals (s.modCan k fun c => { c with flag := none })

/-! ### Register writes (R322, R325, R327, R329) -/

/-- Bus-off, or recovering from it. -/
def Can.off (c : Can) : Bool := c.st = .busOff || c.recovering
/-- MO_CTRL.TXREQ (R325). -/
def txReq (k : Fin 4) (j : Fin 64) (s : State) : State :=
  let c := vget s.can k
  let m := vget c.mo j
  if !m.en || !m.tx || m.pend || c.listen || c.off || c.mode = 0 || (m.fdf && c.mode = 1) || (m.fdf && m.rtr) then canIgn k s
  else s.modMo k j fun m => { m with pend := true, att := none }
def execTxreq (who : Master) (k : Fin 4) (j : Fin 64) (s : State) : Host.Outcome State Fault Refusal :=
  done (regWriteAt who (moBase k j + 0x1C) (txReq k j) s)
/-- MO_CTRL.CANCEL (R327). -/
def cancelTx (k : Fin 4) (j : Fin 64) (s : State) : State :=
  let c := vget s.can k
  if !(vget c.mo j).pend then canIgn k s
  else if c.tx.any fun t => t.1 = j then
    s.modCan k fun c => { c with canref := satInc c.canref }
  else txDone k j 1 s
def execCancel (who : Master) (k : Fin 4) (j : Fin 64) (s : State) : Host.Outcome State Fault Refusal :=
  done (regWriteAt who (moBase k j + 0x1C) (cancelTx k j) s)
/-- CAN_CTRL.RECOVER (R332). -/
def recover (k : Fin 4) (s : State) : State :=
  if (vget s.can k).st = .busOff then canTo k .integrating (s.modCan k fun c => { c with recovering := true }) else canIgn k s
def execRecover (who : Master) (k : Fin 4) (s : State) : Host.Outcome State Fault Refusal :=
  done (regWriteAt who (canBase k + 0x10) (recover k) s)
def execBusOffRecoveryDone (k : Fin 4) (s : State) : Host.Outcome State Fault Refusal :=
  doneIf (canWorks s k && (vget s.can k).recovering && (vget s.can k).st = .integrating) s fun s =>
    canTo k .active (s.modCan k fun c => { c with recovering := false, tec := 0, rec_ := 0 })
def execBusIntegrationDone (k : Fin 4) (s : State) : Host.Outcome State Fault Refusal :=
  doneIf (canWorks s k && !(vget s.can k).recovering && (vget s.can k).st = .integrating) s (canTo k .active)
/-- Another enabled object of 8–63 has the same identifier and IDE (R322). -/
def clashes (c : Can) (j : Fin 64) (m : MsgObj) : Bool :=
  decide (8 ≤ j.val) && (List.finRange 64).any fun i =>
    decide (8 ≤ i.val) && i ≠ j && (vget c.mo i).en && (vget c.mo i).ide = m.ide && (vget c.mo i).ident = m.ident
/-- A write that enables an object, or keeps it enabled, or changes its identifier (R322). -/
def claimsIdent (id : Bool) (old new : MsgObj) : Bool := if id then new.ident ≠ old.ident || new.en else new.en
/-- A write of MO_CFG or MO_ID (R322, R325). -/
def moConfig (k : Fin 4) (j : Fin 64) (id : Bool) (v : BitVec 32) (s : State) : State :=
  let c := vget s.can k
  let m := vget c.mo j
  let bits : BitVec 16 := if j.val < 8 then 0xF0FF else 0xF17F
  let n := if id then { m with id := v.setWidth 29 } else { m with cfg := v.setWidth 16 &&& bits }
  if m.mapped then s
  else if m.pend || (claimsIdent id m n && clashes c j n) then canIgn k s
  else s.modMo k j fun _ => n
def execMoConfigWrite (who : Master) (k : Fin 4) (j : Fin 64) (id : Bool) (value : BitVec 32) (s : State) :
    Host.Outcome State Fault Refusal :=
  done (regWriteAt who (moBase k j + if id then 4 else 0) (moConfig k j id value) s)
/-- A write of MO_DATAn: ignored and counted while PEND is 1 (R325). -/
def moDataWrite (k : Fin 4) (j : Fin 64) (i : Fin 16) (v : BitVec 32) (s : State) : State :=
  if (vget (vget s.can k).mo j).pend then canIgn k s
  else s.modMo k j fun m => { m with data := vset m.data i v }
/-- A write of MO_IRQ: objects 0–7, a core of the controller's partition (R329). -/
def moIrqWrite (k : Fin 4) (j : Fin 64) (v : BitVec 32) (s : State) : State :=
  match partOf s (canFid k) with
  | some p =>
    if j.val < 8 ∧ belongs s p (fidMk 1 (fld v.toNat 0 6)) then
      s.modMo k j fun m => { m with irq := v.setWidth 24 &&& 0xFF03FF }
    else s
  | none => s
def moMaskWrite (k : Fin 4) (j : Fin 64) (v : BitVec 32) (s : State) : State :=
  if j.val < 8 then s.modMo k j fun m => { m with mask := v.setWidth 29 } else s

end Sys2Proof.Machine
end

