-- ==== Sys2Proof/Machine/Display.lean ====
section
/-! DEFINITION. The display compositor (spec/15): formats, blending, scaling, the commit check, frames and commits,
the flatten cache, signatures, the error screen, the link. -/
namespace Sys2Proof.Machine

/-- FPER in TQ (15, Words used here). -/
def fPer : Nat := 266666667
def dspBase : Nat := 0xF0009000000

/-! ### Pixels: formats, scaling, blending (R340 to R342) -/

/-- Bytes of a pixel (Table 15.1). -/
def fmtBytes (f : BitVec 3) : Nat := if f = 2 then 2 else if f = 4 || f = 5 then 1 else 4
/-- Red, green, blue in 10 bits, alpha in 8. -/
structure Pix where
  r : Nat
  g : Nat
  b : Nat
  a : Nat
deriving DecidableEq, Repr
/-- A 30-bit colour, R from bit 20, G from bit 10, B from bit 0, with an alpha. -/
def pixOf (c : BitVec 30) (a : Nat) : Pix :=
  { r := fld c.toNat 20 10, g := fld c.toNat 10 10, b := fld c.toNat 0 10, a := a }
def Pix.colour (p : Pix) : BitVec 30 := BitVec.ofNat 30 (p.r * 2 ^ 20 + p.g * 2 ^ 10 + p.b)
def expand8 (v : Nat) : Nat := v * 4 + v / 64
/-- An ARGB8888 word. -/
def pix8888 (v : Nat) : Pix :=
  { r := expand8 (fld v 16 8), g := expand8 (fld v 8 8), b := expand8 (fld v 0 8), a := fld v 24 8 }
/-- A source word expanded (Table 15.1). -/
def expandPix (l : LayerCfg) (v : Nat) : Pix :=
  if l.fmt = 0 then pix8888 v
  else if l.fmt = 1 then { pix8888 v with a := 255 }
  else if l.fmt = 2 then
    { r := fld v 11 5 * 33, g := fld v 5 6 * 16 + fld v 5 6 / 4, b := fld v 0 5 * 33, a := 255 }
  else if l.fmt = 3 then { pixOf (BitVec.ofNat 30 v) 0 with a := fld v 30 2 * 85 }
  else if l.fmt = 4 then pix8888 (spGet (0 : BitVec 32) l.clut v).toNat
  else { pixOf l.colour 0 with a := v }
/-- Address of a source pixel. -/
def srcAddr (l : LayerCfg) (x y : Nat) : Nat := l.addr.toNat + y * l.stride.toNat + x * fmtBytes l.fmt
/-- The access error that a fetch of the display meets at an address; CAUSE 6 outside DRAM (R344). -/
def fetchCause (s : State) (a : Nat) : Option (BitVec 3) :=
  match partOf s dspFid with
  | none => some 1
  | some p => match addrClass a with
    | .ddr | .stack _ => ratCheck s p a .load .plain
    | _ => some 6
/-- A fetch that a region reopened by another partition's reload holds: its data does not arrive (R91). -/
def fetchHeld (s : State) (a : Nat) : Bool :=
  match partOf s dspFid with | some p => ratHeld s p a 1 | none => false
/-- Whether the fetch at an address ends in poison, or else in an access error. -/
def fetchFails (s : State) (poison : Bool) (a : Nat) : Bool :=
  !fetchHeld s a && if poison then fetchCause s a = none && poisoned s a 1 else fetchCause s a ≠ none
def fetchGood (s : State) (a : Nat) : Bool := !fetchHeld s a && fetchCause s a = none && !poisoned s a 1
/-- A source pixel, read from memory. -/
def srcPix (s : State) (l : LayerCfg) (x y : Nat) : Pix := expandPix l (rdLe s (srcAddr l x y) (fmtBytes l.fmt))

/-- Coefficient t of a phase; vertical phases follow the horizontal (R342). -/
def coefReset : BitVec 64 := 0x0000000001000000
def coefAt (l : LayerCfg) (vert : Bool) (ph t : Nat) : Int :=
  (BitVec.ofNat 10 (fld (spGet coefReset l.coef (ph + if vert then 64 else 0)).toNat (16 * t) 10)).toInt
/-- 16.16 position of output j. -/
def scalePos (src dst j : Nat) : Int := ((2 * j + 1) * (src * 2 ^ 16 / dst) / 2 : Nat) - (2 ^ 15 : Int)
def clampIdx (i : Int) (n : Nat) : Nat := (max 0 (min i (n - 1 : Int))).toNat
def clampTo (v : Int) (top : Nat) : Nat := (max 0 (min v top)).toNat
/-- One filtered output over the source pixels of a direction (R342). -/
def filter1 (l : LayerCfg) (vert : Bool) (src dst j : Nat) (x : Nat → Pix) : Pix :=
  let p := scalePos src dst j
  let i := p / 2 ^ 16
  let ph := ((p / 2 ^ 10) % 64).toNat
  let sum := fun ch : Pix → Nat =>
    ((List.range 4).foldl (fun (n : Int) t => n + coefAt l vert ph t * (ch (x (clampIdx (i - 1 + t) src)) : Int)) 0 + 128) / 256
  { r := clampTo (sum (·.r)) 1023, g := clampTo (sum (·.g)) 1023, b := clampTo (sum (·.b)) 1023, a := clampTo (sum (·.a)) 255 }
/-- A row's pixel after the horizontal filter; layers 4 and 5 do not scale. -/
def rowPix (s : State) (n : Fin 6) (l : LayerCfg) (x y : Nat) : Pix :=
  if n.val < 4 && l.srcW ≠ l.dstW then filter1 l false l.srcW.toNat l.dstW.toNat x fun i => srcPix s l i y
  else srcPix s l x y
/-- A layer's pixel at a position of its destination rectangle. -/
def layerPix (s : State) (n : Fin 6) (l : LayerCfg) (x y : Nat) : Pix :=
  if n.val < 4 && l.srcH ≠ l.dstH then filter1 l true l.srcH.toNat l.dstH.toNat y fun j => rowPix s n l x j
  else rowPix s n l x y
/-- Source positions of a direction that an output takes (R342). -/
def srcTaps (scaled : Bool) (src dst j : Nat) : List Nat :=
  if scaled then (List.range 4).map fun t => clampIdx (scalePos src dst j / 2 ^ 16 - 1 + t) src else [j]
/-- Addresses of the source pixels that a layer's pixel at a position of its destination takes. -/
def layerAddrs (n : Fin 6) (l : LayerCfg) (x y : Nat) : List Nat :=
  (srcTaps (n.val < 4 && l.srcH ≠ l.dstH) l.srcH.toNat l.dstH.toNat y).flatMap fun j =>
    (srcTaps (n.val < 4 && l.srcW ≠ l.dstW) l.srcW.toNat l.dstW.toNat x).map fun i => srcAddr l i j
/-- One component blended (R341). -/
def blend1 (premul : Bool) (sc ga a d : Nat) : Nat :=
  if premul then min 1023 ((sc * ga + 127) / 255 + (d * (255 - a) + 127) / 255)
  else (sc * a + d * (255 - a) + 127) / 255
def blend (l : LayerCfg) (p d : Pix) : Pix :=
  let ga := l.ga.toNat
  let a := (p.a * ga + 127) / 255
  { r := blend1 l.premul p.r ga a d.r, g := blend1 l.premul p.g ga a d.g, b := blend1 l.premul p.b ga a d.b, a := 255 }
def outByte (c : Nat) : Byte := BitVec.ofNat 8 (min 255 ((c + 2) / 4))

/-! ### Composition -/

def LayerCfg.inside (l : LayerCfg) (x y : Nat) : Bool :=
  decide (l.posX.toNat ≤ x) && decide (x < l.posX.toNat + l.dstW.toNat) &&
  decide (l.posY.toNat ≤ y) && decide (y < l.posY.toNat + l.dstH.toNat)
/-- A layer that an error or an underflow makes transparent at a raster pixel (R344). -/
def Display.clear (d : Display) (n : Fin 6) (px : Nat) : Bool :=
  (d.dead.any fun e => e.1 = n && decide (e.2 ≤ px)) || d.missed.any fun e => e.1 = n && e.2 = px
/-- Addresses of a layer's fetches for a raster pixel; none outside its rectangle. -/
def pixAddrs (s : State) (hact : Nat) (n : Fin 6) (px : Nat) : List Nat :=
  let l := vget s.dsp.active.layer n
  let x := px % hact
  let y := px / hact
  if l.en && l.inside x y then layerAddrs n l (x - l.posX.toNat) (y - l.posY.toNat) else []
/-- One layer over what lies below it: transparent where a fetch fails, and where one is held (R344). -/
def overLayer (s : State) (hact x y : Nat) (p : Pix) (n : Fin 6) : Pix :=
  let l := vget s.dsp.active.layer n
  if l.en && l.inside x y && !s.dsp.clear n (y * hact + x) && (pixAddrs s hact n (y * hact + x)).all (fetchGood s) then
    blend l (layerPix s n l (x - l.posX.toNat) (y - l.posY.toNat)) p
  else p
/-- The cached pixel, in a frame that starts from the cache (R346). -/
def cachedPix (d : Display) (x y : Nat) : Option (BitVec 30) :=
  match d.cacheRect with
  | some (rx, ry, rw, rh) =>
    if d.flat && !d.cacheNew && decide (rx ≤ x) && decide (x < rx + rw) && decide (ry ≤ y) && decide (y < ry + rh) then
      some (d.cache.getD ((y - ry) * rw + (x - rx)) 0)
    else none
  | none => none
/-- A pixel of the output before any error screen (R341, R346, R351). -/
def compose (s : State) (hact x y : Nat) : Pix :=
  let d := s.dsp
  if d.blank then pixOf d.active.bg 255 else
  match cachedPix d x y with
  | some c => ((List.finRange 6).filter fun n => decide (d.flatn.toNat ≤ n.val)).foldl (overLayer s hact x y) (pixOf c 255)
  | none => (List.finRange 6).foldl (overLayer s hact x y) (pixOf d.active.bg 255)
/-- The display record of a compositor with power: full mode, released, ENABLE 1. Its link follows the sink whatever fence
stands (R339, R380). -/
def dpRec (s : State) : Option DspRec := if s.island.mode = .full && !s.dsp.held then s.dsp.rec_ else none
/-- Positions of a rectangle in raster order. -/
def raster (x y w h : Nat) : List (Nat × Nat) :=
  (List.range h).flatMap fun j => (List.range w).map fun i => (x + i, y + j)
/-- The static stack over DSP_BG inside a rectangle, as the first frame after the commit composes it (R346). -/
def composeStack (s : State) (hact k : Nat) (r : Nat × Nat × Nat × Nat) : List (BitVec 30) :=
  (raster r.1 r.2.1 r.2.2.1 r.2.2.2).map fun q =>
    (((List.finRange 6).filter fun n => decide (n.val < k)).foldl (overLayer s hact q.1 q.2) (pixOf s.dsp.active.bg 255)).colour

/-! ### The commit check (R345, Table 15.3) -/

def LayerCfg.rangeOk (l : LayerCfg) (r : DspRec) : Bool :=
  decide (l.posX.toNat + l.dstW.toNat ≤ r.hact.toNat) && decide (l.posY.toNat + l.dstH.toNat ≤ r.vact.toNat) &&
  decide (1 ≤ l.srcW.toNat) && decide (l.srcW.toNat ≤ 4096) && decide (1 ≤ l.srcH.toNat) && decide (l.srcH.toNat ≤ 4096)
def LayerCfg.formatOk (n : Fin 6) (l : LayerCfg) : Bool :=
  decide (l.fmt.toNat ≤ 5) && (decide (n.val < 4) || (l.srcW = l.dstW && l.srcH = l.dstH))
def LayerCfg.alignOk (l : LayerCfg) : Bool :=
  decide (l.addr.toNat % 64 = 0) && decide (l.stride.toNat % 64 = 0) &&
  decide (l.srcW.toNat * fmtBytes l.fmt ≤ l.stride.toNat)
def ratioOk (src dst : Nat) : Bool := decide (dst ≤ 8 * src) && decide (src ≤ 4 * dst)
def LayerCfg.scaleOk (n : Fin 6) (l : LayerCfg) : Bool :=
  decide (4 ≤ n.val) || (ratioOk l.srcW.toNat l.dstW.toNat && ratioOk l.srcH.toNat l.dstH.toNat)
def LayerCfg.lineOk (n : Fin 6) (l : LayerCfg) : Bool :=
  decide (4 ≤ n.val) || decide ((ceilDiv l.srcH.toNat l.dstH.toNat + 3) * l.srcW.toNat ≤ 16384)
def LayerCfg.filterOk (n : Fin 6) (l : LayerCfg) : Bool :=
  decide (4 ≤ n.val) || (List.range 128).all fun i =>
    (List.range 4).foldl (fun (a : Int) t => a + coefAt l (decide (64 ≤ i)) (i % 64) t) 0 = 256
/-- The code of the first breach of the enabled layers, in the order of Table 15.3. -/
def commitCode (r : DspRec) (d : DspSet) : BitVec 8 :=
  let all := fun (f : Fin 6 → LayerCfg → Bool) => (List.finRange 6).all fun n => !(vget d.layer n).en || f n (vget d.layer n)
  if !all fun _ l => l.rangeOk r then 2
  else if !all fun n l => l.formatOk n then 3
  else if !all fun _ l => l.alignOk then 4
  else if !all fun n l => l.scaleOk n then 5
  else if !all fun n l => l.lineOk n then 6
  else if !all fun n l => l.filterOk n then 7
  else 0

/-! ### Fetch errors and underflow (R344) -/

/-- The compositor runs: full mode, released, assigned, with a display record; a signature fault does not stop it
(R349), another fence does. -/
def dspRuns (s : State) : Option DspRec :=
  let sig := (vget s.flt (fidSlot dspFid)).a.cause.getLsbD 6 && !partFenced s dspFid
  if !isFenced s dspFid || sig then dpRec s else none
/-- A pixel as the link sends it: DSP_ERRCOL under the error screen, but DSP_BG in a power-down; none while the link is not
up, or the display is fenced and does not run (R339, R349, R351, R380; log 52). -/
def sentPix (s : State) (hact x y : Nat) : Option (Byte × Byte × Byte) :=
  let p := if s.dsp.errscr && !s.dsp.blank then pixOf s.dsp.active.errcol 255 else compose s hact x y
  if s.dsp.link = .up && (dspRuns s).isSome then some (outByte p.r, outByte p.g, outByte p.b) else none
/-- The layer reads memory in this frame: enabled, and not taken from the cache. -/
def layerReads (s : State) (n : Fin 6) : Bool :=
  (vget s.dsp.active.layer n).en && !(s.dsp.flat && !s.dsp.cacheNew && decide (n.val < s.dsp.flatn.toNat))
/-- Class 0x51. -/
def fetchEvent (n : Fin 6) (cause : Nat) (a : Nat) (s : State) : State :=
  emit dspFid 0x51 (pl 16 n + pl 17 cause + pl 20 s.dsp.under.toNat + pl 24 a) s
/-- A fetch that ends in an access error or poison: the layer is transparent from the pixel on. -/
def fetchFail (n : Fin 6) (poison : Bool) (a : Nat) (px : Nat) (s : State) : State :=
  let s := s.modDsp fun d => { d with dead := d.dead ++ [(n, px)], fetchErr := satInc d.fetchErr }
  let s := if poison then poisonHit dspFid s
    else match fetchCause s a with
      | some c => accessError dspFid false c a s
      | none => s
  fetchEvent n (if poison then 2 else 1) a s
/-- Layer n takes data of this address's line for the pixel, and shows there. -/
def fetchesAt (s : State) (hact : Nat) (n : Fin 6) (a px : Nat) : Bool :=
  layerReads s n && !s.dsp.clear n px && (pixAddrs s hact n px).any fun b => b / 64 = a / 64
def execLayerFetchError (n : Fin 6) (poison : Bool) (addr : Pa) (pixel : Nat) (s : State) :
    Host.Outcome State Fault Refusal :=
  match dspRuns s with
  | none => .next s
  | some r => doneIf (fetchesAt s r.hact.toNat n addr.toNat pixel && fetchFails s poison addr.toNat) s
      (fetchFail n poison addr.toNat pixel)
/-- The first fetch of a layer that fails in a frame before a raster pixel, with its pixel. -/
def firstFailure (s : State) (hact : Nat) (n : Fin 6) (px : Nat) : Option (Bool × Nat × Nat) :=
  if !layerReads s n then none else
  (List.range px).findSome? fun i => if s.dsp.clear n i then none else
    (pixAddrs s hact n i).findSome? fun a =>
      if fetchFails s false a then some (false, a, i) else if fetchFails s true a then some (true, a, i) else none
/-- Every fetch of the frame before a raster pixel has been made: what failed and no row reported is reported. -/
def fetchUpTo (hact px : Nat) (s : State) : State :=
  (List.finRange 6).foldl (fun s n => match firstFailure s hact n px with
    | some (poison, a, i) => fetchFail n poison a i s
    | none => s) s
/-- An underflow: counted and reported once in a frame. Where a filter takes several source pixels, which of them is late
and gives the event's address is a free value (log 52). -/
def underflowAt (hact : Nat) (n : Fin 6) (px : Nat) (s : State) : State :=
  let addrs := pixAddrs s hact n px
  let first := s.dsp.missed = []
  let s := s.modDsp fun d => { d with missed := d.missed ++ [(n, px)], under := if first then satInc d.under else d.under }
  if first then
    let f := freshFree s
    fetchEvent n 0 (addrs.getD (f.1.toNat % addrs.length) 0) f.2
  else s
def execUnderflow (n : Fin 6) (pixel : Nat) (s : State) : Host.Outcome State Fault Refusal :=
  match dspRuns s with
  | none => .next s
  | some r => doneIf (layerReads s n && !s.dsp.clear n pixel && pixAddrs s r.hact.toNat n pixel ≠ []) s
      (underflowAt r.hact.toNat n pixel)

/-! ### Commits, frames and the cache -/

def dspIgn (s : State) : State := s.modDsp fun d => { d with ign := satInc d.ign }
/-- A new commit result and its event (Table 15.4). -/
def commitResult (code : BitVec 8) (ck : Time) (send : Bool) (s : State) : State :=
  let s := s.modDsp fun d => { d with ccode := code, ctag := d.ctag.bump, cit := if code = 0 then ck else d.cit }
  if send then emit dspFid 0x50 (pl 16 code.toNat + pl 17 s.dsp.ctag.seq.toNat + pl 24 ck.toNat) s else s
/-- DSP_COMMIT.GO (R345). -/
def commitGo (s : State) : State :=
  if s.dsp.pend then dspIgn s else
  match s.dsp.rec_ with
  | none => commitResult 1 0 true s
  | some r =>
    let c := commitCode r s.dsp.shadow
    if c = 0 then s.modDsp fun d => { d with pend := true, goIt := s.time.it }
    else commitResult c 0 true s
def execDspCommitGo (who : Master) (evt : Bool) (s : State) : Host.Outcome State Fault Refusal :=
  done (regWriteAt who (dspBase + 0x008) (fun s => commitGo (s.modDsp fun d => { d with evt := evt })) s)
/-- FLAT and FLATN; a change of either sends class 0x55. -/
def setFlat (flat : Bool) (k : BitVec 3) (pixels : Nat) (s : State) : State :=
  let chg := s.dsp.flat ≠ flat || s.dsp.flatn ≠ k
  let s := s.modDsp fun d => { d with flat := flat, flatn := k }
  if chg then emit dspFid 0x55 (pl 16 (b2n flat) + pl 17 k.toNat + pl 20 pixels) s else s
/-- k of the static stack: the layers from 0 up that have STATIC set. -/
def staticCount (d : DspSet) : Nat := (d.layer.toList.takeWhile (·.static_)).length
/-- The bounding rectangle of the enabled layers of a stack. -/
def stackRect (d : DspSet) (k : Nat) : Nat × Nat × Nat × Nat :=
  let ls := (d.layer.toList.take k).filter (·.en)
  let x0 := ls.foldl (fun a l => min a l.posX.toNat) 8192
  let y0 := ls.foldl (fun a l => min a l.posY.toNat) 8192
  let x1 := ls.foldl (fun a l => max a (l.posX.toNat + l.dstW.toNat)) 0
  let y1 := ls.foldl (fun a l => max a (l.posY.toNat + l.dstH.toNat)) 0
  if x1 ≤ x0 || y1 ≤ y0 then (0, 0, 0, 0) else (x0, y0, x1 - x0, y1 - y0)
/-- The static stack evaluated at an applied commit (R346). -/
def evalStack (s : State) : State :=
  let k := staticCount s.dsp.active
  let r := stackRect s.dsp.active k
  let n := r.2.2.1 * r.2.2.2
  let ok := decide (1 ≤ k) && decide (n ≤ 4194304)
  let s := s.modDsp fun d => { d with cacheRect := if ok then some r else none, cache := [], cacheNew := ok }
  setFlat ok (if ok then BitVec.ofNat 3 k else 0) n s
/-- The active set takes the shadow set (R345); a region newly in MODE 2 has its value to learn (R348). -/
def commitApply (s : State) : State :=
  let s := s.modDsp fun d =>
    let res := Vector.ofFn fun i =>
      { vget d.sigres i with
        learned := (vget d.sigres i).learned && (vget d.active.sig i).mode = 2 && (vget d.shadow.sig i).mode = 2 }
    { d with active := d.shadow, pend := false, dead := [], sigres := res }
  evalStack (commitResult 0 s.time.it s.dsp.evt s)
/-- The frame that ends: the cache filled during it serves from now on, and its comparisons are complete. -/
def frameEnd (r : DspRec) (s : State) : State :=
  let hact := r.hact.toNat
  let s := fetchUpTo hact (hact * r.vact.toNat) s
  let cache := match s.dsp.cacheNew, s.dsp.cacheRect with
    | true, some r => composeStack s hact s.dsp.flatn.toNat r
    | _, _ => s.dsp.cache
  s.modDsp fun d =>
    let res := Vector.ofFn fun i => { vget d.sigres i with badLast := (vget d.sigres i).badNow, badNow := false }
    { d with cache := cache, cacheNew := false, sigres := res, dead := d.dead.map fun e => (e.1, 0), missed := [] }
/-- The error screen at a commit point: ended by a CLEAR if every compared region matched (R350), begun after a
mismatch (R349). -/
def errScreen (s : State) : State :=
  let bad := s.dsp.sigres.toList.any (·.badLast)
  let s := if s.dsp.clearReq && bad then dspIgn s else s
  s.modDsp fun d => { d with errscr := (d.errscr && !(d.clearReq && !bad)) || d.errNext, clearReq := false, errNext := false }
/-- A commit point is due. -/
def commitDue (s : State) : Bool := s.time.it.toNat % fPer = 0
def execCommitPoint (s : State) : Host.Outcome State Fault Refusal :=
  match dspRuns s with
  | none => .next s
  | some r => doneIf (commitDue s) s fun s =>
    let s := errScreen (frameEnd r s)
    let s := s.modDsp fun d => { d with frame := s.time.it }
    if s.dsp.pend && decide (s.dsp.goIt.toNat + 16000 ≤ s.time.it.toNat) then commitApply s else s

/-! ### Signatures (R347 to R350) -/

/-- The bytes R, G, B of a region's output pixels in raster order. -/
def sigBytes (s : State) (hact : Nat) (g : SigCfg) : List Byte :=
  (raster g.x.toNat g.y.toNat g.w.toNat g.h.toNat).flatMap fun q =>
    let p := compose s hact q.1 q.2
    [outByte p.r, outByte p.g, outByte p.b]
/-- A region that is computed: enabled by the plan, its MODE not 0, inside the active area. -/
def sigOn (r : DspRec) (n : Fin 8) (g : SigCfg) : Bool :=
  r.sigmask.getLsbD n && g.mode ≠ 0 && decide (1 ≤ g.w.toNat) && decide (1 ≤ g.h.toNat) &&
  decide (g.x.toNat + g.w.toNat ≤ r.hact.toNat) && decide (g.y.toNat + g.h.toNat ≤ r.vact.toNat)
def DspSet.setExp (d : DspSet) (n : Fin 8) (v : BitVec 32) : DspSet :=
  { d with sig := vmod d.sig n fun g => { g with exp := v } }
/-- A mismatch and the plan's reaction (R349). -/
def sigMismatch (r : DspRec) (n : Fin 8) (crc exp : BitVec 32) (s : State) : State :=
  let s := s.modDsp fun d => { d with mismatch := satInc d.mismatch, errNext := d.errNext || r.sigreact ≠ 0 }
  let s := emit dspFid 0x52 (pl 16 n + pl 17 r.sigreact.toNat + pl 20 crc.toNat + pl 24 exp.toNat) s
  if r.sigreact = 2 then raiseCause dspFid 6 s else s
/-- A region's result, once its last pixel is composed. -/
def sigResult (r : DspRec) (n : Fin 8) (s : State) : State :=
  let g := vget s.dsp.active.sig n
  let s := fetchUpTo r.hact.toNat ((g.y.toNat + g.h.toNat - 1) * r.hact.toNat + g.x.toNat + g.w.toNat) s
  let x := vget s.dsp.sigres n
  let crc := crc32 (sigBytes s r.hact.toNat g)
  let cmp := g.mode = 1 || (g.mode = 2 && x.learned)
  let learn := g.mode = 2 && !x.learned
  let ok := crc = g.exp
  let s := s.modDsp fun d =>
    let res := vset d.sigres n { x with
      crc := crc, compared := cmp, match_ := cmp && ok, tag := x.tag.bump, it := d.frame,
      learned := x.learned || learn, badNow := cmp && !ok }
    let d := { d with sigres := res }
    if learn then { d with active := d.active.setExp n crc, shadow := d.shadow.setExp n crc } else d
  if cmp && !ok then sigMismatch r n crc g.exp s else s
def execSignatureResult (n : Fin 8) (s : State) : Host.Outcome State Fault Refusal :=
  match dspRuns s with
  | none => .next s
  | some r =>
    doneIf (sigOn r n (vget s.dsp.active.sig n) && (vget s.dsp.sigres n).it ≠ s.dsp.frame) s (sigResult r n)
def execSigackClear (who : Master) (s : State) : Host.Outcome State Fault Refusal :=
  done (regWriteAt who (dspBase + 0x040) (fun s => s.modDsp fun d => { d with clearReq := true }) s)

/-! ### The link (R336, R339) and the reset (R351) -/

/-- Video stops: class 0x53. -/
def dpDown (cause : Nat) (s : State) : State :=
  emit dspFid 0x53 (pl 16 cause) (s.modDsp fun d => { d with link := .down, lanes := 0, rate := 0 })
def execHpdFall (lockLost : Bool) (s : State) : Host.Outcome State Fault Refusal :=
  if lockLost then doneIf ((dpRec s).isSome && s.dsp.link = .up) s (dpDown 2)
  else done (let t := s.modDsp fun d => { d with hpd := false }
             if (dpRec s).isSome && s.dsp.hpd then dpDown 0 t else t)
/-- Training starts when HPD is high (R339). -/
def dpTrain (s : State) : State := s.modDsp fun d => { d with link := if d.hpd then .training else .down, lanes := 0, rate := 0 }
def execHpdRise (s : State) : Host.Outcome State Fault Refusal :=
  done (let t := s.modDsp fun d => { d with hpd := true }
        if (dpRec s).isSome && s.dsp.link ≠ .up then dpTrain t else t)
def execDpTrainingDone (s : State) : Host.Outcome State Fault Refusal :=
  match dpRec s with
  | none => .next s
  | some r => doneIf (s.dsp.link = .training) s fun s =>
    emit dspFid 0x54 (pl 16 r.lanes.toNat + pl 17 (r.rate.toNat % 4))
      (s.modDsp fun d => { d with link := .up, lanes := r.lanes, rate := r.rate.setWidth 2 })
/-- Training failed, or the link is down with a sink there: a further attempt at the same lanes and rate. -/
def execDpTrainingRetry (s : State) : Host.Outcome State Fault Refusal :=
  doneIf ((dpRec s).isSome && s.dsp.hpd && s.dsp.link ≠ .up) s fun s =>
    dpTrain (if s.dsp.link = .training then dpDown 1 s else s)
/-- A reset of the display (R351): its registers, cache and error screen; the plan's record and the ball's level stay. -/
def dspReset (s : State) : State :=
  let s := setFlat false 0 0 s
  let s := s.modDsp fun d => { held := false, rec_ := d.rec_, hpd := d.hpd, frame := d.frame }
  match s.dsp.rec_ with
  | some _ => dpTrain s
  | none => s

end Sys2Proof.Machine
end

