-- ==== Sys2Proof/Machine/Frames.lean ====
section
/-! DEFINITION. Link frames and packets as bytes (spec/09): the 256-byte frame with its CRC, the control and time
payloads, the transport header, in both directions. -/
namespace Sys2Proof.Machine

/-! ### Packets (R201, Table 9.3) -/

/-- TFLAGS of a packet. -/
def packetFlags (k : Packet) : Nat := b2n k.final + 2 * b2n k.detour
/-- A packet as bytes: the 32-byte header and its data. -/
def packetBytes (k : Packet) : List Byte :=
  [k.ttype, BitVec.ofNat 8 (packetFlags k)] ++ natLe 2 k.dchip.toNat ++ natLe 2 k.schip.toNat ++ [k.spart, k.hops] ++
  natLe 8 k.daddr.toNat ++ natLe 2 k.data.length ++ [k.cause, 0] ++ natLe 4 k.tid.toNat ++ natLe 4 k.stream.toNat ++
  natLe 4 0 ++ k.data
/-- The packet that `n` bytes hold. A LEN above 208 or unlike `n`, and a chip ID of 4,096 or more, make none (log 16). -/
def packetOf (bs : List Byte) (n : Nat) : Option Packet :=
  let len := leAt bs 16 2
  if 208 < len ∨ n ≠ 32 + len ∨ 4096 ≤ leAt bs 2 2 ∨ 4096 ≤ leAt bs 4 2 then none else
  some {
    ttype := BitVec.ofNat 8 (byteAt bs 0), final := bitOf (byteAt bs 1) 0, detour := bitOf (byteAt bs 1) 1,
    dchip := BitVec.ofNat 12 (leAt bs 2 2), schip := BitVec.ofNat 12 (leAt bs 4 2),
    spart := BitVec.ofNat 8 (byteAt bs 6), hops := BitVec.ofNat 8 (byteAt bs 7),
    daddr := BitVec.ofNat 44 (leAt bs 8 8), cause := BitVec.ofNat 8 (byteAt bs 18), tid := BitVec.ofNat 32 (leAt bs 20 4),
    stream := BitVec.ofNat 16 (leAt bs 24 2), data := slice bs 32 len }

/-! ### Payloads (Tables 9.2 and 9.4) -/

/-- Table 9.2: CTL, CHIP, NAK_SEQ, INSTALL_ID and CREDITS. -/
def ctlBytes : Ctl → List Byte
  | .hello chip inst cr =>
    natLe 4 0 ++ natLe 2 chip.toNat ++ natLe 2 0 ++ natLe 8 inst.toNat ++ cr.toList.flatMap fun c => natLe 2 c.toNat
  | .nak seq => natLe 4 1 ++ natLe 2 0 ++ natLe 2 seq.toNat
/-- Table 9.4 with the order of R391 in bytes 40 to 55 of the frame. -/
def timeBytes (f : TimeFrame) : List Byte :=
  natLe 8 f.tx.toNat ++ natLe 8 f.echoTx.toNat ++ natLe 8 f.echoRx.toNat ++ natLe 2 f.gmId.toNat ++
  [f.stratum, BitVec.ofNat 8 (b2n f.locked + 2 * b2n f.holdover + 4 * b2n f.refLost)] ++ natLe 4 f.tseq.toNat ++
  match f.order with
  | some o => natLe 8 o.t.toNat ++ natLe 2 o.origin.toNat ++ natLe 2 o.oseq.toNat ++ natLe 4 0
  | none => []
/-- The time payload of a frame: PLEN 48 says that it carries an order (R391). -/
def timeOf (bs : List Byte) (n : Nat) : TimeFrame :=
  { tx := BitVec.ofNat 64 (leAt bs 0 8), echoTx := BitVec.ofNat 64 (leAt bs 8 8), echoRx := BitVec.ofNat 64 (leAt bs 16 8),
    gmId := BitVec.ofNat 12 (leAt bs 24 2), stratum := BitVec.ofNat 8 (byteAt bs 26),
    locked := bitOf (byteAt bs 27) 0, holdover := bitOf (byteAt bs 27) 1, refLost := bitOf (byteAt bs 27) 2,
    tseq := BitVec.ofNat 32 (leAt bs 28 4)
    order := if n = 48 then some {
        t := BitVec.ofNat 64 (leAt bs 32 8), origin := BitVec.ofNat 12 (leAt bs 40 2), oseq := BitVec.ofNat 16 (leAt bs 42 2) }
      else none }

/-! ### Link frames (R196, Table 9.1) -/

/-- A frame: LTYPE, CVC, LSEQ, ACK, CREDIT, the payload, PLEN and the CRC-32 over bytes 0 to 251. -/
def linkFrame (ltype : Byte) (lseq : BitVec 16) (h : LinkHdr) (pay : List Byte) : List Byte :=
  let b := [ltype, BitVec.ofNat 8 h.cvc.val] ++ natLe 2 lseq.toNat ++ natLe 2 h.ack.toNat ++ natLe 2 h.credit.toNat ++
    slice pay 0 240 ++ natLe 2 pay.length ++ natLe 2 0
  b ++ natLe 4 (crc32 b).toNat
/-- The bytes of a frame sent with a header. -/
def outBytes (h : LinkHdr) : OutFrame → List Byte
  | .data seq k => linkFrame 1 seq h (packetBytes k)
  | .time f => linkFrame 2 0 h (timeBytes f)
  | .ctl c => linkFrame 3 0 h (ctlBytes c)
/-- The frame that a port sent last, as bytes. -/
def Port.sentBytes (x : Port) : List Byte :=
  match x.sent with | some (h, o) => outBytes h o | none => []
/-- The CRC of a received frame holds. -/
def frameOk (b : List Byte) : Bool := leAt b 252 4 == (crc32 (slice b 0 252)).toNat
def frameType (b : List Byte) : Nat := byteAt b 0
def framePay (b : List Byte) : List Byte := slice b 8 240
def framePlen (b : List Byte) : Nat := leAt b 248 2
/-- The header of a received frame, with the symbols that FEC corrected in it. -/
def frameHdr (fec : BitVec 16) (b : List Byte) : LinkHdr :=
  { ack := BitVec.ofNat 16 (leAt b 4 2), cvc := ⟨byteAt b 1 % 8, by omega⟩, credit := BitVec.ofNat 12 (leAt b 6 2), fec := fec }
/-- A received control frame's CTL. -/
def frameCtl (b : List Byte) : Nat := byteAt b 8

/-! ### Virtual channels and buffers (R197) -/

/-- Traffic class of a packet (R197, R232, R235). -/
def trafficClass (t : BitVec 8) : Nat :=
  match t.toNat with
  | 0x01 => 0 | 0x02 => 1 | 0x03 => 1 | 0x10 => 2 | _ => 3
/-- The virtual channel of a packet in a dateline class. -/
def vcOf (k : Packet) (cls : Bool) : Fin 8 := ⟨(2 * trafficClass k.ttype + b2n cls) % 8, by omega⟩
/-- Frames of receive buffer that a channel has, as a HELLO advertises them. -/
def vcFrames (v : Fin 8) : Nat := if v.val / 2 % 2 = 0 then 128 else 32
def ownCredits : Vector (BitVec 16) 8 := Vector.ofFn fun v => BitVec.ofNat 16 (vcFrames v)
/-- Frames of a channel's buffer that received packets occupy: delivered ones not yet taken, and transit ones that wait
for a credit of the next link. -/
def vcHeld (s : State) (p : Fin 16) (v : Fin 8) : Nat :=
  ((vget s.ports p).rx.filter fun e => e.1 = some v).length +
  s.ports.toList.foldl (fun n x => n + (x.txq.filter fun e => e.2.2 = some (p, v)).length) 0
/-- A buffer is free again: its credit goes back with a later frame. -/
def freeBuf (o : Option (Fin 16 × Fin 8)) (s : State) : State :=
  match o with
  | some (p, v) => s.modPort p fun x => { x with freed := vmod x.freed v (· + 1) }
  | none => s
/-- Packets received over a link that has gone hold no buffer of it. -/
def forgetBufs (p : Fin 16) (s : State) : State :=
  let s := s.modPort p fun x => { x with rx := x.rx.map fun e => (none, e.2) }
  { s with ports := s.ports.map fun x => { x with
      txq := x.txq.map fun e => match e.2.2 with
        | some (q, _) => if q = p then (e.1, e.2.1, none) else e
        | none => e } }

/-! ### Sending frames (R197, R198) -/

/-- Credits to return: the lowest channel that has any. -/
def creditOut (x : Port) : Fin 8 × BitVec 12 :=
  match (List.finRange 8).find? fun v => vget x.freed v ≠ 0 with
  | some v => (v, BitVec.ofNat 12 (min (vget x.freed v).toNat 4095))
  | none => (0, 0)
/-- A frame leaves: it carries the ACK of the last data frame received in order, and credits. -/
def Port.send (x : Port) (o : OutFrame) : Port :=
  let c := creditOut x
  { x with
    sent := some ({ ack := x.rxSeq - 1, cvc := c.1, credit := c.2, fec := 0 }, o)
    freed := vmod x.freed c.1 (· - c.2.setWidth 16) }
/-- One packet to a port: framed while a credit and replay room are there and no earlier packet of its channel waits. -/
def pushPort (p : Fin 16) (e : Fin 8 × Packet × Option (Fin 16 × Fin 8)) (s : State) : State :=
  let x := vget s.ports p
  if vget x.credits e.1 ≠ 0 && decide (x.replayBuf.length < 1024) && !(x.txq.any (·.1 = e.1)) then
    freeBuf e.2.2 (s.modPort p fun x => { x.send (.data x.txSeq e.2.1) with
      replayBuf := x.replayBuf ++ [(x.txSeq, e.1, e.2.1)], txSeq := x.txSeq + 1, credits := vmod x.credits e.1 (· - 1) })
  else s.modPort p fun x => { x with txq := x.txq ++ [e] }
/-- Waiting packets are framed as far as credits allow. -/
def pumpPort (p : Fin 16) (s : State) : State :=
  (vget s.ports p).txq.foldl (fun s e => pushPort p e s) (s.modPort p fun x => { x with txq := [] })

/-! ### Lanes (R194) -/

/-- The lane at the package that carries a port's lane, and whether its polarity is inverted. LANES names an inversion for
each lane and a rotation; that the rotation is towards higher lanes, and that the inversion's bit is the package lane's,
is the model's reading (log 16). -/
def Port.lane (x : Port) (i : Fin 4) : Fin 4 × Bool :=
  let j : Fin 4 := ⟨(i.val + fld x.laneCfg.toNat 4 2) % 4, by omega⟩
  (j, x.laneCfg.getLsbD j)

end Sys2Proof.Machine
end

