-- ==== Sys2Proof/Machine/Fabric.lean ====
section
/-! DEFINITION. The Grenhild fabric and installation time as other families use them (spec/09): routes, sending and
landing of packets, a link going down and up, the choice of grandmaster, freeze results. -/
namespace Sys2Proof.Machine

/-! ### Routes (R202 to R204) -/

def portFid (p : Fin 16) : Fid := fidMk 5 p
/-- Coordinate `i` (0 X, 1 Y, 2 Z) of a chip ID. -/
def coord (id : BitVec 12) (i : Fin 3) : Nat := fld id.toNat (4 * i) 4
/-- DIR code of a direction (Table 2.7). -/
def dirCode (i : Fin 3) (plus : Bool) : Nat := 2 * i + (if plus then 1 else 2)
/-- Live ports of a direction; in a dimension of size 2 both directions are one trunk (R202). -/
def trunk (s : State) (i : Fin 3) (plus : Bool) : List (Fin 16) :=
  (List.finRange 16).filter fun p =>
    let x := vget s.ports p
    x.st = .up && (x.dir.toNat = dirCode i plus || ((vget s.fabric.dims i) = 2 && x.dir.toNat = dirCode i (!plus)))
/-- How a packet arrived: dimension and direction of travel, and its dateline class past the link it came by. -/
structure Arrival where
  dim : Fin 3
  plus : Bool
  cls : Bool
/-- A packet that arrives on port p in a virtual channel: it moved from the neighbour towards this chip, and has crossed
the wrap link where that link joins coordinates n − 1 and 0. -/
def arrivalOf (s : State) (p : Fin 16) (vc : Fin 8) : Option Arrival :=
  let x := vget s.ports p
  let d := x.dir.toNat
  if d = 0 ∨ 6 < d then none else
  let i : Fin 3 := ⟨(d - 1) / 2 % 3, by omega⟩
  let plus := d % 2 = 0
  let n := (vget s.fabric.dims i).toNat
  let here := (vget s.fabric.pos i).toNat
  let wrap := if plus then here = 0 else here + 1 = n
  some ⟨i, plus, wrap || bitOf vc.val 0⟩
/-- A route: the trunk's ports, the dateline class and DETOUR. -/
structure Route where
  ports : List (Fin 16)
  cls : Bool
  detour : Bool
/-- The route of a packet to `dst` in one dimension (R202, R203). -/
def routeDim (s : State) (dst : BitVec 12) (detour : Bool) (from_ : Option Arrival) (i : Fin 3) : Option Route :=
  let n := (vget s.fabric.dims i).toNat
  let here := (vget s.fabric.pos i).toNat
  let d := (coord dst i + n - here) % n
  if n ≤ coord dst i ∨ d = 0 then none else
  let same := match from_ with | some a => a.dim = i | none => false
  let cls := match from_ with | some a => same && a.cls | none => false
  let want := match from_ with
    | some a => if same && detour then a.plus else decide (2 * d ≤ n)
    | none => decide (2 * d ≤ n)
  let t := trunk s i want
  let u := trunk s i (!want)
  if t ≠ [] then some ⟨t, cls || (same && detour), same && detour⟩
  else if u ≠ [] then some ⟨u, true, true⟩
  else none
/-- The route: the first dimension in the order X, Y, Z that is still to go and has a live link (R202, R203). -/
def route (s : State) (dst : BitVec 12) (detour : Bool) (from_ : Option Arrival) : Option Route :=
  (List.finRange 3).findSome? (routeDim s dst detour from_)
/-- The port of a trunk that carries a stream (R204; log 12). -/
def trunkPort (r : Route) (pkt : Packet) : Option (Fin 16) :=
  r.ports[Config.trunkHash pkt.schip pkt.dchip (pkt.stream.setWidth 32) % r.ports.length]?
/-- A packet leaves this chip, or is delivered locally (R208), or finds no live link and is discarded (R203). `buf` is the
receive buffer that a transit packet holds until it is framed (R197). -/
def sendFrom (from_ : Option Arrival) (buf : Option (Fin 16 × Fin 8)) (pkt : Packet) (s : State) : State :=
  if pkt.dchip = chipId s then { s with loopback := s.loopback ++ [pkt] } else
  match (route s pkt.dchip pkt.detour from_).bind fun r => (trunkPort r pkt).map fun p => (r, p) with
  | none => freeBuf buf s
  | some (r, p) => pushPort p (vcOf pkt r.cls, { pkt with detour := r.detour }, buf) s
def sendPacket (pkt : Packet) (s : State) : State := sendFrom none none pkt s
/-- The port that a packet of this chip would take now. -/
def portNow (s : State) (pkt : Packet) : Option (Fin 16) :=
  if pkt.dchip = chipId s then none else (route s pkt.dchip false none).bind fun r => trunkPort r pkt

/-! ### Writes over the fabric (R157, R204, R207) -/

/-- STREAM of Table 9.3: source channel in [6:0], stream in [15:8]. -/
def streamWord (g : Fin 16) (c : Fin 8) (w : NetWrite) : BitVec 16 :=
  BitVec.ofNat 16 (8 * g + c + 256 * w.stream.toNat)
/-- The WRITE or collective packet of a write. -/
def writePacket (s : State) (g : Fin 16) (c : Fin 8) (w : NetWrite) : Packet :=
  { ttype := if w.coll then 0x10 else 0x01, final := w.final, detour := false, dchip := w.dst, schip := chipId s,
    spart := BitVec.ofNat 8 w.part, hops := 48, daddr := BitVec.ofNat 44 w.addr, cause := 0, tid := w.tid,
    stream := streamWord g c w, data := w.data }
/-- Outstanding writes of a stream. -/
def outstanding (s : State) (g : Fin 16) (c : Fin 8) (coll : Bool) (stream : BitVec 8) : List NetWrite :=
  (s.remote.filter fun r => r.1 = g && r.2.1 = c && r.2.2.coll = coll && r.2.2.stream = stream).map (·.2.2)
/-- R204: the route of an earlier write of the stream to the same chip has changed, and it is not yet answered. -/
def routeChanged (s : State) (g : Fin 16) (c : Fin 8) (w : NetWrite) : Bool :=
  (outstanding s g c w.coll w.stream).any fun o =>
    o.dst = w.dst && (o.moved || o.port ≠ portNow s (writePacket s g c w))
/-- A link went down or came up: outstanding writes whose route is another now are marked, also where it changes back
before they are answered (R204). -/
def reroute (s : State) : State :=
  { s with remote := s.remote.map fun r => (r.1, r.2.1, { r.2.2 with
      moved := r.2.2.moved || r.2.2.port ≠ portNow s (writePacket s r.1 r.2.1 r.2.2) }) }
/-- A write is sent: it takes the next transaction ID and is outstanding until answered (R207). -/
def sendWrite (g : Fin 16) (c : Fin 8) (w : NetWrite) (s : State) : State :=
  let w := { w with tid := s.nextTid, port := portNow s (writePacket s g c w) }
  sendPacket (writePacket s g c w) { s with nextTid := s.nextTid + 1, remote := s.remote ++ [(g, c, w)] }

/-! ### Inboxes and answers (R206, R207, R208) -/

/-- Packets delivered to this chip: by port, 16 for its own. -/
def inbox (s : State) (p : Fin 17) : List Packet :=
  if h : p.val < 16 then (vget s.ports ⟨p, h⟩).rx.map (·.2) else s.loopback
/-- The first delivered packet that satisfies `f`. -/
def firstPacket (s : State) (p : Fin 17) (f : Packet → Bool) : Option Packet := (inbox s p).find? f
/-- A delivered packet is taken: its receive buffer is free again (R197). -/
def dropPacket (p : Fin 17) (k : Packet) (s : State) : State :=
  if h : p.val < 16 then
    let q : Fin 16 := ⟨p, h⟩
    match (vget s.ports q).rx.find? (·.2 = k) with
    | some e => freeBuf (e.1.map fun v => (q, v)) (s.modPort q fun x => { x with rx := x.rx.erase e })
    | none => s
  else { s with loopback := s.loopback.erase k }
/-- FID that a refused or failed delivery is recorded on: the arriving port, or for a chip's own write the Shuttle group
that sent it. -/
def arriveFid (p : Fin 17) (k : Packet) : Fid :=
  if p.val < 16 then fidMk 5 p else fidMk 3 (k.stream.toNat % 128 / 8)
/-- The ACK or NACK of a packet (R207). -/
def answer (k : Packet) (cause : Option (BitVec 8)) (s : State) : State :=
  sendPacket { k with
    ttype := if cause.isSome then 0x03 else 0x02, final := false, detour := false, dchip := k.schip,
    schip := chipId s, hops := 48, daddr := 0, cause := cause.getD 0, data := [] } s
/-- A partition under partial reload (R42). -/
def reloading (s : State) (p : Fin 32) : Bool :=
  match s.loader.job with | .reloadStages q _ => p = q | _ => false
/-- Every function of a partition that a reset holds is held. -/
def partHeld (s : State) (p : Fin 32) : Bool :=
  let l := (partFids s p).filter fun f => fidType f = 1 || fidType f = 2 || fidType f = 3 || fidType f = 6 || fidType f = 13
  !l.isEmpty && l.all fun f =>
    let i := fidIdx f
    match fidType f with
    | 1 => (vget s.cores ⟨i % 48, by omega⟩).held
    | 2 => (vget s.tiles ⟨i % 64, by omega⟩).held
    | 3 => (vget s.shuttle ⟨i % 16, by omega⟩).held
    | 6 => (vget s.trd ⟨i % 8, by omega⟩).held
    | _ => s.clusterHeld.getLsbD i
/-- R206: whether a partition takes remote writes. -/
def partTakes (s : State) (p : Fin 32) : Bool :=
  (vget s.parts p).assigned && !(vget s.parts p).fenced && !reloading s p && !partHeld s p
/-- R206, Table 9.5: why a word of a WRITE is refused: NACK cause and CAUSE of RAT_ERR_INFO (none for poison). -/
def wordRefused (s : State) (p : Fin 32) (a n : Nat) : Option (BitVec 8 × Option (BitVec 3)) :=
  match addrClass a with
  | .ddr | .stack _ =>
    match ratCheck s p a .store .engine with
    | some c => some (1, some c)
    | none => if n < 8 && poisoned s a n then some (6, none) else none
  | .host t =>
    if !belongs s p (fidMk 2 t) then some (2, some 5) else if (vget s.tiles t).lane then some (2, some 2) else none
  | .peat k =>
    let o := a - apertureBase k
    if !belongs s p (fidMk 4 k) then some (3, some 5)
    else if 0x600000000 ≤ o then some (5, some 6)
    else
      let e := s.eng k (peatEngineOf o)
      let m := stackBase k + o
      if !e.ready then some (3, some 2)
      else if e.accum && decide (m ≤ e.alim.toNat) && decide (e.abase.toNat < m + n) && (m % 4 ≠ 0 || n % 4 ≠ 0) then
        some (3, some 7)
      else if n < 8 && poisoned s m n then some (6, none) else none
  | _ => some (5, some 6)
/-- The partition that a packet names. -/
def packetPart (k : Packet) : Fin 32 := ⟨k.spart.toNat % 32, by omega⟩
/-- The verdict on a whole WRITE: the first refused word, with its address. -/
def writeRefused (s : State) (k : Packet) : Option (Nat × BitVec 8 × Option (BitVec 3)) :=
  let p := packetPart k
  let a := k.daddr.toNat
  let n := k.data.length
  if 32 ≤ k.spart.toNat || !partTakes s p then some (a, 4, some 1)
  else (wordsOf a n).findSome? fun w => (wordRefused s p w.1 w.2).map fun r => (w.1, r)
/-- A refusal of engine j's granule for READY 0 is counted (R169). -/
def countRefused (a : Nat) (c : BitVec 8) (s : State) : State :=
  match addrClass a with
  | .peat k => if c = 3 && decide (a - apertureBase k < 0x600000000) && !(s.eng k (peatEngineOf (a - apertureBase k))).ready
      then peatRefuse k (peatEngineOf (a - apertureBase k)) s else s
  | _ => s
/-- A refusal recorded in RAT_ERR_INFO with the arriving port's FID (R207, R378). A WRITE refused for a poisoned line is
recorded too, and is poison that the port met; RAT_ERR_INFO has no CAUSE for it, which is a free value (log 6). -/
def recordRefusal (f : Fid) (r : Nat × BitVec 8 × Option (BitVec 3)) (s : State) : State :=
  match r.2.2 with
  | some c => accessError f true c r.1 (countRefused r.1 r.2.1 s)
  | none => let c := freshFree s; poisonHit f (accessError f true (c.1.setWidth 3) r.1 c.2)

/-! ### Time (R209 to R214) -/

def absInt (x : Int) : Nat := x.natAbs
/-- A time state event (R214). -/
def timeEvent (cls : BitVec 8) (s : State) : State :=
  emit timeFid cls (pl 16 s.time.gmId.toNat + pl 18 s.time.stratum.toNat + pl 20 s.time.ofs.toNat) s
/-- Ports that carry time: up, measured, within 1,600 TQ, with a peer that has a grandmaster (R195, R210). -/
def timePorts (s : State) : List (Fin 16) :=
  (List.finRange 16).filter fun p =>
    let x := vget s.ports p
    x.st = .up && x.timeUse && decide (x.stratum < 62)
/-- The lowest candidate in reach, this chip among them where its TIME_ROLE is 1 (R210). With the rails of groups 3 to 8
down, as in servo-only mode, there is no fabric and no reference: the time base is no grandmaster (R55). -/
def bestGm (s : State) : Option (BitVec 12) :=
  let l := (timePorts s).map fun p => (vget s.ports p).gmId
  let l := if s.fabric.joined && s.fabric.candidate && s.island.good.getLsbD 4 then chipId s :: l else l
  l.foldl (fun (m : Option (BitVec 12)) x => match m with | none => some x | some y => some (if x < y then x else y)) none
/-- Neighbours that a follower takes time from: those of the least stratum towards its grandmaster (R211). -/
def timeRefs (s : State) (g : BitVec 12) : List (Fin 16) :=
  let l := (timePorts s).filter fun p => (vget s.ports p).gmId = g
  let m := l.foldl (fun (m : Nat) p => min m (vget s.ports p).stratum.toNat) 63
  l.filter fun p => (vget s.ports p).stratum.toNat = m
/-- A change of grandmaster is announced (class 0x64, R214), in every state but before the first lock, when there was
none to change from. -/
def gmEvent (old : BitVec 12) (had : Bool) (s : State) : State :=
  if had && old ≠ s.time.gmId then timeEvent 0x64 s else s
/-- Grandmaster, stratum and time state after a change of links or of neighbours (R209, R210, R211). -/
def timeSelect (s : State) : State :=
  let old := s.time.gmId
  let had := s.time.st = .locked
  let ever := s.time.everLocked
  match bestGm s with
  | none =>
    let t := { s.time with gm := false, noGm := true, stratum := 63, slew := false }
    if had then timeEvent 0x63 { s with time := { t with st := .holdover } } else { s with time := t }
  | some g =>
    if g = chipId s && s.fabric.candidate then
      let t := { s.time with
        gm := true, noGm := false, stratum := 0, gmId := g, slew := false, st := .locked, everLocked := true }
      let s' := gmEvent old ever { s with time := t }
      if had then s' else timeEvent 0x62 s'
    else
      let m := (timeRefs s g).foldl (fun (m : Nat) p => min m (vget s.ports p).stratum.toNat) 62
      gmEvent old ever { s with time := { s.time with
        gm := false, noGm := false, stratum := BitVec.ofNat 6 (m + 1), gmId := g } }

/-! ### Links down and up (R199, R200) -/

def PortState.code : PortState → Nat
  | .off => 0 | .down => 1 | .training => 2 | .hello => 3 | .up => 4
/-- Event of a link going down or coming up (R200). -/
def linkEvent (p : Fin 16) (cls : BitVec 8) (s : State) : State :=
  let x := vget s.ports p
  emit (portFid p) cls (pl 16 x.st.code + pl 17 x.cause.toNat + pl 18 x.peer.toNat) s
/-- A link goes down: its replay buffer is discarded, packets not yet framed take another route, a class 1 fault is
raised unless a reset of the port asked for it (R199, R200, R203, R376). -/
def portDown (p : Fin 16) (cause : BitVec 4) (s : State) : State :=
  let s := forgetBufs p s
  let q := (vget s.ports p).txq
  let s := s.modPort p fun x => { x with
    st := .down, cause := cause, downs := satInc x.downs, lanes := 0, timeUse := false, helloRx := false,
    helloBad := cause = 4 || cause = 5, replayBuf := [], txq := [], credits := vrep 8 0, freed := vrep 8 0,
    nakSent := false, naks := [], txTimes := [], stratum := 0xFF, peerLocked := false }
  let s := reroute (q.foldl (fun s e => sendFrom none e.2.2 e.2.1 s) s)
  let s := linkEvent p 0x60 s
  let s := say (.linkDown p cause) s
  let s := timeSelect s
  if cause = 6 then s else raiseCause (portFid p) 5 s
/-- A link comes up. -/
def portUp (p : Fin 16) (s : State) : State :=
  let s := (forgetBufs p s).modPort p fun x => { x with
    st := .up, txSeq := 0, rxSeq := 0, nakSent := false, naks := [], freed := vrep 8 0, txTimes := [] }
  say (.linkUp p) (linkEvent p 0x61 (reroute s))

/-! ### Freeze results and installation orders (R390, R391) -/

/-- FRZ_RES and FRZ_IT take a new result. -/
def frzResult (code : BitVec 8) (source : BitVec 4) (late holdover : Bool) (it : Time) (s : State) : State :=
  s.modFrz fun f => { f with
    code := code, source := source, late := late, holdover := holdover, fseq := f.images, tag := f.tag.bump, it := it }
/-- A received installation order (R391). -/
def orderRx (o : FrzOrder) (s : State) : State :=
  if isFenced s frzFid || s.frz.seen.contains (o.origin, o.oseq) then s else
  let s := s.modFrz fun f => { f with seen := f.seen ++ [(o.origin, o.oseq)] }
  if o.t < s.time.it then
    emit frzFid 0x17 (pl 18 o.origin.toNat + pl 24 o.t.toNat) (frzResult 4 1 false (holdoverFlag s) (frzInstant o.t) s)
  else
    let s := s.modFrz fun f => { f with orders := f.orders ++ [o] }
    if s.frz.fabric then frzRequest { t := o.t, source := 1, late := false, origin := o.origin } s else s

end Sys2Proof.Machine
end

