-- ==== Sys2Proof/Machine/Feedback.lean ====
section
/-! DEFINITION. Position feedback, compare and capture (spec/13): counting, interpolation, SSI frames, validity, cable
faults, the observation and index groups, compare outputs and capture latches. -/
namespace Sys2Proof.Machine

/-! ### Compare (R311 to R314) -/

def listEntry (s : State) (i : Nat) : Int := (spGet (0 : BitVec 64) s.cc.list (i % 4096)).toInt
/-- A target lies on the way of an update (R311). -/
def reached (dir : BitVec 2) (prev cur p : Int) : Bool :=
  let up := decide (prev < p) && decide (p ≤ cur)
  let down := decide (p < prev) && decide (cur ≤ p)
  if dir = 1 then up else if dir = 2 then down else up || down
/-- Targets consumed from a list, at most LLEN of them, and the pointer after them; PTR = LLEN ends a plain list. -/
def listTake (s : State) (c : Cmp) (prev cur : Int) : Nat → Nat → Nat → Nat × Nat
  | 0, n, ptr => (n, ptr)
  | fuel + 1, n, ptr =>
    if ptr < c.llen.toNat ∧ reached c.dir prev cur (listEntry s (c.lbase.toNat + ptr)) then
      listTake s c prev cur fuel (n + 1) (if c.cyclic ∧ ptr + 1 = c.llen.toNat then 0 else ptr + 1)
    else (n, ptr)
/-- Periodic targets START + k × STEP that an update consumes from k on: consecutive ones while each is reached. -/
def periodicTake (c : Cmp) (prev cur : Int) : Nat :=
  let p := c.start.toInt + c.k.toNat * c.step.toInt
  if !reached c.dir prev cur p then 0 else
  let lo := min (prev + 1) cur
  let hi := max cur (prev - 1)
  let st := c.step.toInt
  if 0 < st then ((hi - p) / st).toNat + 1 else if st < 0 then ((p - lo) / (-st)).toNat + 1 else 1
/-- A firing of one pulse for `n` consumed targets (R312, R313). -/
def fire (i : Fin 16) (n : Nat) (ptr : BitVec 13) (s : State) : State :=
  let it := s.time.it
  let s := s.modCmp i fun c => { c with
    ptr := ptr, k := if c.periodic then c.k + BitVec.ofNat 64 n else c.k, fired := satInc c.fired, nfired := c.nfired + 1,
    skipped := satAdd c.skipped (n - 1), merged := if c.high then satInc c.merged else c.merged, high := true,
    pulseEnd := it + 40 * c.pw.setWidth 64 }
  let c := vget s.cc.cmp i
  let stop := if c.periodic then decide (c.count ≠ 0) && decide (c.count ≤ c.nfired) else c.ptr.toNat = c.llen.toNat
  if stop then
    emit ccFid 0x41 (pl 16 i + pl 17 (b2n c.periodic) + pl 20 c.fired.toNat) (s.modCmp i fun c => { c with done := true })
  else s
/-- One output evaluates an update of its source (R311). -/
def evalCmp (good : Bool) (cur : BitVec 64) (i : Fin 16) (s : State) : State :=
  let c := vget s.cc.cmp i
  if !good then s.modCmp i fun c => { c with prev := none }
  else match c.prev with
    | none => s.modCmp i fun c => { c with prev := some cur }
    | some p =>
      let s := s.modCmp i fun c => { c with prev := some cur }
      if c.done then s
      else if c.periodic then
        let n := periodicTake c p.toInt cur.toInt
        if n = 0 then s else fire i n c.ptr s
      else
        let r := listTake s c p.toInt cur.toInt c.llen.toNat 0 c.ptr.toNat
        if r.1 = 0 then s else fire i r.1 (BitVec.ofNat 13 r.2) s
/-- The compare and capture block works. -/
def ccWorks (s : State) : Bool := vsvoGood' s && !s.cc.held && !isFenced s ccFid
where vsvoGood' (s : State) : Bool := s.island.vaon && s.island.good.getLsbD 0
/-- Every enabled output with this source evaluates its update. -/
def updateCmps (c : Fin 40) (s : State) : State :=
  if !ccWorks s then s else
  let x := vget s.fbk c
  (List.finRange 16).foldl (fun s i =>
    if (vget s.cc.cmp i).en && (vget s.cc.cmp i).src.toNat = c.val then evalCmp x.good x.count i s else s) s

/-! ### Validity (R305, R306) -/

def Fbk.fltLow (x : Fbk) : Nat := b2n x.qerr + 2 * b2n x.amp + 4 * b2n x.ospeed + 8 * b2n x.frame
/-- The image of FBK_FLT. -/
def Fbk.flt (x : Fbk) : Nat := x.fltLow + 256 * b2n x.cable + 512 * b2n x.good
/-- A channel becomes BAD: event 0x40 where it was GOOD. -/
def becomeBad (c : Fin 40) (s : State) : State :=
  let x := vget s.fbk c
  if !x.good then s else
  let s := s.modFbk c fun x => { x with good := false, badSince := s.time.it, badFault := false }
  emit (fbkFid c) 0x40 (pl 16 x.fltLow + pl 17 x.mode.toNat + pl 24 x.count.toNat) s
/-- A channel works: on, released, not fenced. -/
def fbkWorks (s : State) (c : Fin 40) : Bool :=
  s.island.vaon && s.island.good.getLsbD 0 && !(vget s.fbk c).held && (vget s.fbk c).mode ≠ 0 && !isFenced s (fbkFid c)

/-! ### The stability filter (R298) -/

/-- An edge at the ball at `ball` is accepted now, with FILTER n and the signal's edge before it at `last`: the new level
has been sampled on n + 1 servo clocks, and no later than n + 3 clocks after the edge; the level before it lasted at least
n clocks, for one that lasts less is never accepted. -/
def filterOk (s : State) (n : BitVec 8) (last ball : Time) : Bool :=
  let d := s.time.it.toNat - ball.toNat
  decide (ball ≤ s.time.it) && decide (40 * n.toNat ≤ d) && decide (d ≤ 40 * (n.toNat + 3)) &&
  decide (last.toNat + 40 * n.toNat ≤ ball.toNat)
/-- Signals of a channel whose accepted level changes. -/
def newLevels (x : Fbk) (a b z : Bool) : List (Fin 3) :=
  (if a ≠ x.levA then [0] else []) ++ (if b ≠ x.levB then [1] else []) ++ (if z ≠ x.levZ then [2] else [])

/-! ### Incremental modes (R300) -/

/-- Place of a pair of levels in the quadrature cycle with A leading. -/
def quadPhase (a b : Bool) : Nat := if a then (if b then 2 else 1) else (if b then 3 else 0)
/-- Counts of an accepted change of levels, and whether the transition is illegal. -/
def countStep (x : Fbk) (a b : Bool) : Int × Bool :=
  let up := a && !x.levA
  let down := b && !x.levB
  let d : Int × Bool :=
    if x.mode = 1 then
      match (quadPhase a b + 4 - quadPhase x.levA x.levB) % 4 with
      | 0 => (0, false) | 1 => (1, false) | 3 => (-1, false) | _ => (0, true)
    else if x.mode = 2 then (if up then (if b then 1 else -1) else 0, false)
    else if x.mode = 3 then (((b2n up : Nat) : Int) - (b2n down : Nat), false)
    else (0, false)
  (if x.invDir then -d.1 else d.1, d.2)
/-- The index group latches (R300, R308). -/
def indexLatch (c : Fin 40) (ball : Time) (s : State) : State :=
  let x := vget s.fbk c
  let s := s.modFbk c fun x => { x with itag := x.itag.bump, ipos := x.count, iit := ball }
  if x.zevt then emit (fbkFid c) 0x42 (pl 16 x.count.toNat) s else s
/-- Newly accepted levels of a channel in one servo clock. -/
def levels1 (c : Fin 40) (a b z : Bool) (ball : Time) (s : State) : State :=
  let x := vget s.fbk c
  let s := if z && !x.levZ && x.zlatch && x.mode ≠ 5 then indexLatch c ball s else s
  let d := countStep x a b
  let s := s.modFbk c fun x => { x with
    levA := a, levB := b, levZ := z, edges := (newLevels x a b z).foldl (fun v i => vset v i ball) x.edges, count := x.count + BitVec.ofInt 64 d.1, qerr := x.qerr || d.2 }
  let s := if d.2 then becomeBad c s else s
  if d.1 ≠ 0 then updateCmps c s else s
/-- Levels accepted in this servo clock; `ball` is the time at the ball of the edge of Z where Z changes, else of A, else
of B, which is the one that is used. -/
def execFbkLevelAccepted (c : Fin 40) (a b z : Bool) (ball : Time) (s : State) : Host.Outcome State Fault Refusal :=
  let x := vget s.fbk c
  let i : Fin 3 := if z ≠ x.levZ then 2 else if a ≠ x.levA then 0 else 1
  doneIf (fbkWorks s c && newLevels x a b z ≠ [] && filterOk s (vget x.filt i) (vget x.edges i) ball) s (levels1 c a b z ball)

/-! ### Sin/cos (R301, R302) -/

/-- floor(atan2(s, c) / 2π × 2^20) mod 2^20: the quadrant by signs, then the greatest k whose direction is not past
(c, s). -/
def atanFine (s c : Int) : Nat :=
  let r : Nat × Int × Int :=
    if 0 < c ∧ 0 ≤ s then (0, c, s) else if c ≤ 0 ∧ 0 < s then (1, s, -c)
    else if c < 0 ∧ s ≤ 0 then (2, -c, -s) else if 0 ≤ c ∧ s < 0 then (3, -s, c) else (0, 1, 0)
  let k := (List.range 18).foldl (fun (k : Nat) i =>
    let j : Nat := k + 2 ^ (17 - i)
    let cs := cosSin (j : Int) (2 ^ 20)
    if 0 ≤ r.2.2 * cs.1 - r.2.1 * cs.2 then j else k) 0
  (r.1 * 2 ^ 18 + k) % 2 ^ 20
/-- A pair's s and c, the cosine corrected by GAINC, both × 2^14. -/
def sincosOf (x : Fbk) (sin cos : BitVec 16) : Int × Int :=
  ((sin.toInt - x.sofs.toInt) * 2 ^ 14, (cos.toInt - x.cofs.toInt) * x.gainc.toNat)
/-- fine with the interpolation error that R301 allows (log 11). -/
def pairFine (x : Fbk) (sin cos : BitVec 16) : BitVec 20 :=
  let sc := sincosOf x sin cos
  BitVec.ofInt 20 ((atanFine sc.1 sc.2 : Int) + ((Config.sincosError sin cos % 5 : Nat) : Int) - 2)
/-- a2: s² + c² with 0.5 V peak at 0x4000, saturated to 16 bits (log 11). -/
def pairA2 (x : Fbk) (sin cos : BitVec 16) : BitVec 16 :=
  let sc := sincosOf x sin cos
  BitVec.ofNat 16 (min 65535 ((sc.1 * sc.1 + sc.2 * sc.2).toNat * 9 / 2 ^ 46))
/-- Two fines differ by a quarter period or more. -/
def quarterApart (a b : BitVec 20) : Bool :=
  let d := (a - b).toNat
  decide (2 ^ 18 ≤ d) && decide (d ≤ 2 ^ 20 - 2 ^ 18)
/-- The result of a pair: it was sampled 800 TQ ago, and is the channel's position from now on (R301, R302, R304). -/
def sincosPair (c : Fin 40) (sin cos : BitVec 16) (s : State) : State :=
  let x := vget s.fbk c
  let fine := pairFine x sin cos
  let a2 := pairA2 x sin cos
  let amp := decide (a2 < x.amin) || decide (x.amax < a2)
  let fast := x.hasPair && quarterApart fine x.rawFine
  let s := s.modFbk c fun x => { x with a2 := a2, rawFine := fine, hasPair := true }
  if amp || fast then
    becomeBad c (s.modFbk c fun x => { x with amp := x.amp || amp, ospeed := x.ospeed || fast, goodRun := 0 })
  else
    let q := fun (v : BitVec 20) => v.toNat / 2 ^ 18
    let step : BitVec 64 :=
      if !x.hasPair then 0 else if q x.fine = 3 ∧ q fine = 0 then 1 else if q x.fine = 0 ∧ q fine = 3 then -1 else 0
    let per := x.periods + step
    let pos := per * 2 ^ 20 + fine.setWidth 64
    let s := s.modFbk c fun x => { x with
      fine := fine, periods := per, count := if x.invDir then -pos else pos, goodRun := x.goodRun + 1,
      good := x.good || decide (8 ≤ x.goodRun + 1) }
    updateCmps c s
def execSincosPair (c : Fin 40) (sin cos : BitVec 16) (s : State) : Host.Outcome State Fault Refusal :=
  doneIf (fbkWorks s c && (vget s.fbk c).mode = 4 && s.time.it.toNat % 800 = 0) s (sincosPair c sin cos)

/-! ### SSI (R303) -/

def Fbk.ssiDiv (x : Fbk) : Nat := fld x.ssi.toNat 0 16
def Fbk.ssiPh (x : Fbk) : Nat := fld x.ssi.toNat 16 16
def Fbk.clkDiv (x : Fbk) : Nat := fld x.ssi.toNat 32 11
def Fbk.mono (x : Fbk) : Nat := fld x.ssi.toNat 48 16
def frameError (c : Fin 40) (s : State) : State :=
  becomeBad c (s.modFbk c fun x => { x with frame := true, ssiRun := none, ssiEnd := s.time.it })
/-- A frame may start at this instant. -/
def ssiDue (s : State) (c : Fin 40) : Bool :=
  let x := vget s.fbk c
  fbkWorks s c && x.mode = 5 && x.ssiDiv ≠ 0 && x.ssiRun = none &&
  s.time.it.toNat % (40 * x.ssiDiv) = 40 * x.ssiPh && decide (x.ssiEnd.toNat + 40 * x.mono ≤ s.time.it.toNat)
def execSsiFrameStart (c : Fin 40) (dataHigh : Bool) (s : State) : Host.Outcome State Fault Refusal :=
  doneIf (ssiDue s c) s fun s =>
    if dataHigh then s.modFbk c fun x => { x with ssiRun := some s.time.it } else frameError c s
/-- Gray code decoded: each bit is the parity of the bits from it upwards. -/
def grayDecode (n v : Nat) : Nat :=
  (List.range n).foldl (fun a i => if ((List.range (n - i)).filter fun j => bitOf v (i + j)).length % 2 = 1 then a + 2 ^ i else a) 0
def bitCount (n v : Nat) : Nat := ((List.range n).filter (bitOf v)).length
/-- A frame's value: the data bits are the low SSI_BITS bits, above the parity bit where SSI_PAR is 1. -/
def frameData (x : Fbk) (bits : BitVec 49) : Nat × Bool :=
  let n := x.bits.toNat
  let d := fld bits.toNat (b2n x.par) n
  (if x.gray then grayDecode n d else d, !x.par || bitCount (n + 1) bits.toNat % 2 = 0)
def ssiFrame (c : Fin 40) (bits : BitVec 49) (s : State) : State :=
  let x := vget s.fbk c
  let r := frameData x bits
  if !r.2 then frameError c s else
  let n := x.bits.toNat
  let v : Int := r.1
  let s := s.modFbk c fun x => { x with
    ssiRun := none, ssiEnd := s.time.it, ssiPrev := some (BitVec.ofNat 48 r.1), good := true,
    count := match x.ssiPrev with
      | none => BitVec.ofInt 64 (if x.invDir then -v else v)
      | some p =>
        let m := (v - p.toNat) % 2 ^ n
        let d := if m < 2 ^ (n - 1) then m else m - 2 ^ n
        x.count + BitVec.ofInt 64 (if x.invDir then -d else d) }
  if (vget s.fbk c).count ≠ x.count || !x.good then updateCmps c s else s
def execSsiFrameEnd (c : Fin 40) (bits : BitVec 49) (s : State) : Host.Outcome State Fault Refusal :=
  doneIf (fbkWorks s c && (vget s.fbk c).mode = 5 && (vget s.fbk c).ssiRun.isSome) s (ssiFrame c bits)

/-! ### Cable fault, observation, configuration (R306, R308, R309) -/

def execCableTimeout (c : Fin 40) (s : State) : Host.Outcome State Fault Refusal :=
  let x := vget s.fbk c
  doneIf (fbkWorks s c && !x.good && !x.badFault &&
      decide (x.badSince.toNat + 16000 * x.cableT.toNat ≤ s.time.it.toNat)) s fun s =>
    raiseCause (fbkFid c) 10 (s.modFbk c fun x => { x with cable := true, badFault := true })
def obsUpdate (c : Fin 40) (s : State) : State :=
  let v := fbkSample s c
  s.modFbk c fun x => { x with
    otag := x.otag.bump, ogood := x.good, opos := v, oang := elecAngle x v, oa2 := if x.mode = 4 then x.a2 else 0 }
def execFbkObsUpdate (c : Fin 40) (s : State) : Host.Outcome State Fault Refusal :=
  doneIf (s.island.vaon && s.island.good.getLsbD 0 && !(vget s.fbk c).held && s.time.it.toNat % 16000 = 0) s (obsUpdate c)
/-- The channel serves a running axis, a gearing master, a compare or a capture source (R309). -/
def fbkInUse (s : State) (c : Fin 40) : Bool :=
  (axesOfFbk s c).any (fun a => (vget s.axes a).st.runs) ||
  (List.finRange 32).any (fun a =>
    let x := vget s.axes a
    x.st = .enabled && (x.src = 2 || x.src = 3) && x.gearKind = 2 && x.gearIndex.toNat = c.val) ||
  s.cc.cmp.toList.any (fun m => m.en && m.src.toNat = c.val) ||
  s.cc.cap.toList.any (fun m => m.edge ≠ 0 && m.src.toNat = c.val)
/-- SSI_DIV leaves room for a frame and the pause after it. -/
def ssiFits (x : Fbk) : Bool :=
  decide ((x.bits.toNat + b2n x.par + 1) * 2 * x.clkDiv + x.mono ≤ x.ssiDiv)
def ssiRangeOk (x : Fbk) : Bool :=
  decide (20 ≤ x.clkDiv) && decide (x.clkDiv ≤ 2000) && decide (x.ssiPh < x.ssiDiv) && ssiFits x
/-- A configuration register written, where its ranges hold; none otherwise (13.6). -/
def fbkConfig (x : Fbk) (off : Nat) (v : BitVec 64) : Option Fbk :=
  let n := v.toNat
  match off with
  | 0x000 =>
    let y := { x with
      invDir := bitOf n 3, zlatch := bitOf n 4, zevt := bitOf n 5, gray := bitOf n 6, par := bitOf n 7,
      bits := BitVec.ofNat 6 (fld n 8 6), cableT := BitVec.ofNat 8 (fld n 16 8) }
    if 8 ≤ y.bits.toNat ∧ y.bits.toNat ≤ 48 ∧ y.cableT ≠ 0 ∧ (y.mode = 5 → y.ssiDiv ≠ 0 → ssiFits y) then some y else none
  | 0x008 => if n % 2 ^ 32 = 0 then none else some { x with cpr := v.setWidth 32 }
  | 0x00C => if 1 ≤ n % 256 ∧ n % 256 ≤ 64 then some { x with poles := v.setWidth 8 } else none
  | 0x010 => some { x with eofs := v.setWidth 32 }
  | 0x018 =>
    let y := { x with ssi := v &&& 0xFFFF07FFFFFFFFFF }
    if ssiRangeOk y then some y else none
  | 0x020 => some { x with
      sofs := v.setWidth 16, cofs := BitVec.ofNat 16 (fld n 16 16), gainc := BitVec.ofNat 16 (fld n 32 16) }
  | 0x028 => some { x with amin := v.setWidth 16, amax := BitVec.ofNat 16 (fld n 16 16) }
  | _ => none
def fbkConfigReg (off : Nat) : Bool := [0x000, 0x008, 0x00C, 0x010, 0x018, 0x020, 0x028].contains off
/-- A write of a configuration register: ignored and counted while the channel is in use or out of range (R309). -/
def fbkConfigWrite (c : Fin 40) (off : Nat) (v : BitVec 64) (s : State) : State :=
  let x := vget s.fbk c
  match if fbkInUse s c then none else fbkConfig x off v with
  | some y => s.modFbk c fun _ => y
  | none => s.modFbk c fun x => { x with ign := satInc x.ign }
def fbkBase (c : Fin 40) : Nat := regBase + 0x7100000 + 0x1000 * c
def execFbkConfigWrite (who : Master) (c : Fin 40) (off : BitVec 12) (value : BitVec 64) (s : State) :
    Host.Outcome State Fault Refusal :=
  doneIf (fbkConfigReg off.toNat) s (regWriteAt who (fbkBase c + off.toNat) (fbkConfigWrite c off.toNat value))
/-- A write of FBK_FLT clears the sticky bits it names; clearing QERR makes an incremental channel GOOD (R305). -/
def fbkFltClear (c : Fin 40) (v : Nat) (s : State) : State :=
  s.modFbk c fun x =>
    let cable := x.cable && !(bitOf v 8 && x.good)
    let q := x.qerr && bitOf v 0
    { x with
      qerr := x.qerr && !bitOf v 0, amp := x.amp && !bitOf v 1, ospeed := x.ospeed && !bitOf v 2,
      frame := x.frame && !bitOf v 3, cable := cable,
      good := x.good || (q && (x.mode = 1 || x.mode = 2 || x.mode = 3) && !x.held) }

/-! ### Registers of compare and capture (R314 to R316) -/

def ccBase : Nat := regBase + 0x7200000
/-- A source field: written where it names a channel of the block's partition. -/
def srcField (s : State) (old new : BitVec 6) : BitVec 6 :=
  match partOf s ccFid with
  | some p => if belongs s p (fidMk 8 new.toNat) then new else old
  | none => old
def cmpOn (s : State) (c : Cmp) : Cmp :=
  let x := vget s.fbk ⟨c.src.toNat % 40, by omega⟩
  { c with en := true, ptr := 0, k := 0, done := false, nfired := 0, prev := if x.good then some x.count else none }
/-- A write of CMP_CFGn (R314). -/
def cmpCfgWrite (i : Fin 16) (v : Nat) (s : State) : State :=
  s.modCmp i fun c =>
    if c.en then (if bitOf v 6 then c else { c with en := false, high := false })
    else
      let c := { c with
        src := srcField s c.src (BitVec.ofNat 6 (fld v 0 6)), dir := BitVec.ofNat 2 (fld v 7 2), periodic := bitOf v 9,
        cyclic := bitOf v 10, pw := if fld v 16 16 = 0 then c.pw else BitVec.ofNat 16 (fld v 16 16) }
      if bitOf v 6 then cmpOn s c else c
def execCmpEnable (who : Master) (n : Fin 16) (value : BitVec 32) (s : State) : Host.Outcome State Fault Refusal :=
  doneIf (value.getLsbD 6) s (regWriteAt who (ccBase + 0x100 * n) (cmpCfgWrite n value.toNat))
def execCmpPulseEnd (n : Fin 16) (s : State) : Host.Outcome State Fault Refusal :=
  let c := vget s.cc.cmp n
  doneIf (ccWorks s && c.high && decide (c.pulseEnd ≤ s.time.it)) s fun s => s.modCmp n fun c => { c with high := false }
/-- A write of CMP_LISTn, STARTn, STEPn or COUNTn: ignored while ENABLE is 1 or out of range (R314). -/
def cmpRegWrite (i : Fin 16) (off : Nat) (v : BitVec 64) (s : State) : State :=
  s.modCmp i fun c =>
    if c.en then c else
    match off with
    | 0x08 =>
      let b := fld v.toNat 0 12
      let l := fld v.toNat 16 13
      if 1 ≤ l ∧ l ≤ 4096 ∧ b + l ≤ 4096 then { c with lbase := BitVec.ofNat 12 b, llen := BitVec.ofNat 13 l } else c
    | 0x10 => { c with start := v }
    | 0x18 => if v = 0 then c else { c with step := v }
    | 0x20 => { c with count := v.setWidth 32 }
    | _ => c
/-- A write of CAP_CFGn. -/
def capCfgWrite (i : Fin 16) (v : Nat) (s : State) : State :=
  s.modCap i fun c => { c with
    edge := BitVec.ofNat 2 (fld v 0 2), keep := bitOf v 2,
    src := if fld v 8 6 = 63 then 63 else srcField s c.src (BitVec.ofNat 6 (fld v 8 6)) }
/-- VALID of a capture cleared; OVERRUN with it. -/
def capClear (i : Fin 16) (s : State) : State := s.modCap i fun c => { c with tag := c.tag.retire, ovr := 0 }
/-- An accepted edge at a capture input (R315, R316). Edges that EDGE does not select are not recorded. -/
def captureEdge (i : Fin 16) (rising : Bool) (ball : Time) (s : State) : State :=
  let c := vget s.cc.cap i
  let late := c.tag.valid
  let s := s.modCap i fun c => { c with edgeIt := ball }
  let s := if late then s.modCap i fun c => { c with ovr := satInc c.ovr } else s
  let s := if late && c.ovr = 0 then emit ccFid 0x43 (pl 16 i + pl 20 1) s else s
  if c.keep && late then s else
  let src : Fin 40 := ⟨c.src.toNat % 40, by omega⟩
  let has := c.src ≠ 63
  let p := fbkSample s src
  let v := fbkValid s src
  s.modCap i fun c => { c with
    tag := c.tag.bump, level := rising, it := ball, pos := if has then p else 0, posValid := has && v }
def execCaptureEdge (n : Fin 16) (rising : Bool) (ball : Time) (s : State) : Host.Outcome State Fault Refusal :=
  let e := (vget s.cc.cap n).edge
  doneIf (ccWorks s && (if rising then e = 1 || e = 3 else e = 2 || e = 3) &&
      filterOk s (vget s.cc.cap n).filt (vget s.cc.cap n).edgeIt ball) s (captureEdge n rising ball)

end Sys2Proof.Machine
end

