-- ==== Sys2Proof/Machine/Balls.lean ====
section
/-! DEFINITION. The ball map (R414 to R417) and the signal groups with their owners and function codes (R419). -/
namespace Sys2Proof.Machine

/-- What a signal ball carries. -/
inductive Signal
  | pwm (a : Nat) (leg : Nat)
  | sdi (n : Nat)
  | sdclk (e : Nat)
  /-- Ball A, B or Z of a feedback channel: 0, 1, 2. -/
  | fbk (c : Nat) (ball : Nat)
  /-- SIN P, SIN N, COS P, COS N: 0 to 3. -/
  | analog (c : Nat) (ball : Nat)
  | pcmp (n : Nat)
  | pcap (n : Nat)
  | hstop (n : Nat)
  | can (k : Nat) (rx : Bool)
  | perst (q : Nat)
  /-- Not configurable; whether the boundary register covers it. -/
  | fixed (scan : Bool)
deriving DecidableEq, Repr

/-- One signal, or a pair in two adjacent slots. -/
inductive BallItem
  | one (a : Signal)
  | pair (a b : Signal)
deriving DecidableEq, Repr

def fixedPairs (n : Nat) : List BallItem := List.replicate n (.pair (.fixed false) (.fixed false))
def fixedOnes (scan : Bool) (n : Nat) : List BallItem := List.replicate n (.one (.fixed scan))
/-- Table 19.3, North: Grenhild, PCIe lanes and clocks, PERST, REFCLK, DisplayPort. -/
def northList : List BallItem :=
  fixedPairs 128 ++ fixedPairs 64 ++ fixedPairs 8 ++ (List.range 8).map (fun q => .one (.perst q)) ++ fixedPairs 1 ++
  fixedPairs 4 ++ fixedPairs 1 ++ fixedOnes false 1
/-- One DDR5 channel's signals. -/
def ddrList : List BallItem :=
  let sub := fixedOnes true 40 ++ fixedPairs 10 ++ fixedOnes true 10 ++ fixedPairs 1
  sub ++ sub ++ fixedOnes true 4
def westList : List BallItem := ddrList ++ ddrList ++ ddrList ++ ddrList
/-- Table 19.3, South. -/
def southList : List BallItem :=
  fixedOnes false 43 ++ fixedPairs 1 ++ fixedOnes false 5 ++
  (List.range 4).map (fun n => .one (.hstop n)) ++ (List.range 16).map (fun n => .one (.pcap n)) ++
  (List.range 16).map (fun n => .one (.pcmp n)) ++ (List.range 8).map (fun e => .one (.sdclk e)) ++
  (List.range 96).map (fun n => .one (.sdi n)) ++
  (List.range 120).map (fun i => .one (.fbk (i / 3) (i % 3))) ++
  (List.range 192).map (fun i => .one (.pwm (i / 6) (i % 6))) ++
  (List.range 8).map (fun i => .one (.can (i / 2) (decide (i % 2 = 1)))) ++
  (List.range 32).map fun i => .pair (.analog (i / 2) (2 * (i % 2))) (.analog (i / 2) (2 * (i % 2) + 1))
/-- Free slots of a region in raster order, as row and column from 1 (R416, R417). -/
def freeSlots (r0 r1 c0 c1 : Nat) (vss : Nat → Nat → Bool) : List (Nat × Nat) :=
  (List.range (r1 - r0 + 1)).flatMap fun i => ((List.range (c1 - c0 + 1)).map fun j => (r0 + i, c0 + j)).filter fun p =>
    !vss p.1 p.2
/-- Signal index of a ball (R415). -/
def ballIndex (p : Nat × Nat) : Nat := 72 * (p.1 - 1) + (p.2 - 1)
/-- Letters that name the rows. -/
def rowLetters : List Char :=
  ['A', 'B', 'C', 'D', 'E', 'F', 'G', 'H', 'J', 'K', 'L', 'M', 'N', 'P', 'T', 'U', 'V', 'W', 'Y']
/-- Name of the ball of a signal index: its row's letters, then its column (R414). -/
def ballName (i : Nat) : String :=
  let r := i / 72
  String.ofList ((if r < 19 then [] else [rowLetters.getD (r / 19 - 1) 'A']) ++ [rowLetters.getD (r % 19) 'A']) ++ toString (i % 72 + 1)
/-- A signal list laid on free slots; a slot with no free neighbour in its row is skipped for a pair (R417). -/
def layBalls : List (Nat × Nat) → List BallItem → List (Nat × Signal)
  | [], _ => []
  | _ :: _, [] => []
  | p :: ps, .one a :: is => (ballIndex p, a) :: layBalls ps is
  | [_], .pair _ _ :: _ => []
  | p :: q :: ps, .pair a b :: is =>
    if q.1 = p.1 ∧ q.2 = p.2 + 1 then (ballIndex p, a) :: (ballIndex q, b) :: layBalls ps is
    else layBalls (q :: ps) (.pair a b :: is)
/-- Every signal ball: index and signal. -/
def ballMap : List (Nat × Signal) :=
  layBalls (freeSlots 1 12 1 72 fun r _ => decide (r % 2 = 1)) northList ++
  layBalls (freeSlots 13 72 1 16 fun r c => decide ((r + c) % 6 = 0)) westList ++
  layBalls (freeSlots 13 72 57 72 fun r c => decide ((r + c) % 6 = 0)) westList ++
  layBalls (freeSlots 55 72 17 56 fun r c => decide ((r + c) % 8 = 0)) southList
/-- The rail of a Core ball that is not VSS, numbered as SEQ_ENn, 14 VAON, 15 VIO33 (R418, Table 19.4). -/
def coreRail (r c : Nat) : Option Nat :=
  let west := decide (c ≤ 36)
  if c < 17 ∨ 56 < c then none
  else if 13 ≤ r ∧ r ≤ 16 then some (if west then 12 else 13)
  else if 17 ≤ r ∧ r ≤ 26 then some (if west then 5 else 6)
  else if 27 ≤ r ∧ r ≤ 40 then
    some (if c ≤ 22 ∨ 51 ≤ c then 9 else if c ≤ 24 ∨ 49 ≤ c then 3 else if c ≤ 26 then 10 else if 47 ≤ c then 11 else 4)
  else if 41 ≤ r ∧ r ≤ 50 then some (if west then 7 else 8)
  else if 51 ≤ r ∧ r ≤ 54 then
    some (if c ≤ 24 then 0 else if c ≤ 30 then 1 else if c ≤ 36 then 2 else if c ≤ 42 then 15 else if c ≤ 44 then 14 else 3)
  else none
def signalOf (i : Nat) : Option Signal := (ballMap.find? (·.1 = i)).map (·.2)
/-- What a ball is: ground, a rail or a signal (R416 to R418). -/
inductive BallKind
  | vss | rail (n : Nat) | signal (g : Signal)
deriving DecidableEq, Repr
def ballKind (i : Nat) : BallKind :=
  let r := i / 72 + 1
  let c := i % 72 + 1
  match signalOf i with
  | some g => .signal g
  | none => if (r + c) % 2 = 1 then (match coreRail r c with | some n => .rail n | none => .vss) else .vss
/-- Index of a signal. -/
def indexOf (g : Signal) : Option Nat := (ballMap.find? (·.2 = g)).map (·.1)

/-- The function that owns a configurable signal; HSTOP balls have none (R419). -/
def Signal.owner : Signal → Option Fid
  | .pwm a _ => some (fidMk 7 a)
  | .sdi n => some (fidMk 6 (n / 12))
  | .sdclk e => some (fidMk 6 e)
  | .fbk c _ => some (fidMk 8 c)
  | .analog c _ => some (fidMk 8 c)
  | .pcmp _ => some ccFid
  | .pcap _ => some ccFid
  | .hstop _ => none
  | .can k _ => some (fidMk 10 k)
  | .perst q => some (fidMk 12 q)
  | .fixed _ => none
/-- FUNC codes that Table 19.5 lists for a signal; none for a signal that is not configurable (R415). -/
def Signal.funcOk (g : Signal) (f : Nat) : Bool :=
  match g with
  | .fixed _ => false
  | .fbk _ 0 => decide (f ≤ 3) || f = 5
  | .fbk _ 1 => decide (f ≤ 3) || f = 5
  | .analog _ _ => f = 0 || f = 4
  | .perst q => if q = 0 || q = 4 then decide (f ≤ 5) else decide (f ≤ 1)
  | _ => decide (f ≤ 1)
/-- Configurable outputs; FBKc_B is one in SSI mode. -/
def Signal.output (g : Signal) (func : Nat) : Bool :=
  match g with
  | .pwm _ _ | .sdclk _ | .pcmp _ | .perst _ => true
  | .can _ rx => !rx
  | .fbk _ b => b = 1 && func = 5
  | _ => false
/-- The level at which the board's pull holds a configurable ball that nothing drives, by the INVERT of its entry; none
without a pull (R427, Table 19.7). -/
def Signal.pull (g : Signal) (invert : Bool) : Option Bool :=
  match g with
  | .pwm _ _ => some invert
  | .sdclk _ | .pcmp _ | .perst _ | .hstop _ | .sdi _ => some false
  | .can _ _ | .pcap _ | .fbk _ _ => some true
  | .analog _ _ | .fixed _ => none
/-- Root ports of a lane group under a FUNC of its PERST entry, as offsets from the group (Table 6.7). -/
def bifurcation : Nat → List Nat
  | 1 => [0]
  | 2 => [0, 2]
  | 3 => [0, 2, 3]
  | 4 => [0, 1, 2]
  | 5 => [0, 1, 2, 3]
  | _ => []
/-- Lanes of the root port at an offset from the group under that FUNC (Table 6.7). -/
def portLanes (func i : Nat) : Nat :=
  if i ∉ bifurcation func then 0
  else match func, i with
    | 1, _ => 16
    | 2, _ | 3, 0 | 4, 2 => 8
    | _, _ => 4

end Sys2Proof.Machine
end

