-- ==== Sys2Proof/Machine/Crypto.lean ====
section
/-! DEFINITION. SHA-384 (FIPS 180-4) and ECDSA P-384 verification (FIPS 186-5), which R34, R402 and R404 name. -/
namespace Sys2Proof.Machine

/-! ### SHA-384

FIPS 180-4 gives its constants by what they are, the leading fraction bits of roots of primes; so they are computed
here. -/

/-- The primes up to `n`. -/
def primesTo (n : Nat) : List Nat :=
  (List.range (n + 1)).filter fun p => decide (2 ≤ p) && (List.range p).all fun d => d < 2 || p % d ≠ 0
/-- The largest number of at most `bits` bits whose k-th power does not exceed `n`. -/
def rootFloor (k n : Nat) : Nat → Nat
  | 0 => 0
  | bits + 1 =>
    let r := 2 * rootFloor k (n / 2 ^ k) bits
    if (r + 1) ^ k ≤ n then r + 1 else r
/-- The first 64 bits of the fraction of the k-th root of a prime below 2^9. -/
def rootBits (k p : Nat) : BitVec 64 := BitVec.ofNat 64 (rootFloor k (p * 2 ^ (64 * k)) 70)
/-- Round constants: cube roots of the first eighty primes. -/
def shaRoundKeys : List (BitVec 64) := (primesTo 409).map (rootBits 3)
/-- Initial hash value: square roots of the ninth to the sixteenth prime. -/
def shaStart : List (BitVec 64) := ((primesTo 53).drop 8).map (rootBits 2)
/-- A word's rotations by the given counts, summed bit by bit. -/
def rotSum (x : BitVec 64) (counts : List Nat) : BitVec 64 := counts.foldl (fun a n => a ^^^ x.rotateRight n) 0
/-- The padding of a message of `n` bytes: a one bit, zeros, the length in bits over 16 bytes. -/
def shaTail (n : Nat) : List Byte := 0x80 :: (List.replicate (127 - (n + 16) % 128) 0 ++ (natLe 16 (8 * n)).reverse)
/-- The next word of the message schedule from the sixteen before it, newest first. -/
def shaNext (w : List (BitVec 64)) : BitVec 64 :=
  let at_ := fun back => w.getD (back - 1) 0
  at_ 16 + (rotSum (at_ 15) [1, 8] ^^^ at_ 15 >>> 7) + at_ 7 + (rotSum (at_ 2) [19, 61] ^^^ at_ 2 >>> 6)
/-- A block's message schedule of eighty words. -/
def shaSchedule (block : List Byte) : List (BitVec 64) :=
  let first := (List.range 16).map fun i => BitVec.ofNat 64 (beNat (slice block (8 * i) 8))
  (Nat.repeat (fun w => shaNext w :: w) 64 first.reverse).reverse
/-- One round with the round key and schedule word already added up. -/
def shaRound : List (BitVec 64) → BitVec 64 → List (BitVec 64)
  | [a, b, c, d, e, f, g, h], kw =>
    let x := kw + h + rotSum e [14, 18, 41] + (g ^^^ e &&& (f ^^^ g))
    let y := rotSum a [28, 34, 39] + (a &&& (b ||| c) ||| b &&& c)
    [x + y, a, b, c, d + x, e, f, g]
  | v, _ => v
/-- The hash value after one more block. -/
def shaBlock (hash : List (BitVec 64)) (block : List Byte) : List (BitVec 64) :=
  List.zipWith (· + ·) hash ((List.zipWith (· + ·) shaRoundKeys (shaSchedule block)).foldl shaRound hash)
/-- The SHA-384 digest, first byte most significant. -/
def sha384 (m : List Byte) : BitVec 384 :=
  let padded := m ++ shaTail m.length
  let hash := (List.range (padded.length / 128)).foldl (fun h i => shaBlock h (slice padded (128 * i) 128)) shaStart
  BitVec.ofNat 384 ((hash.take 6).foldl (fun a w => a * 2 ^ 64 + w.toNat) 0)

/-! ### The curve P-384 -/

def p384P : Nat := 2 ^ 384 - 2 ^ 128 - 2 ^ 96 + 2 ^ 32 - 1
def p384N : Nat := 0xffffffffffffffffffffffffffffffffffffffffffffffffc7634d81f4372ddf581a0db248b0a77aecec196accc52973
def p384B : Nat := 0xb3312fa7e23ee7e4988e056be3f82d19181d9c6efe8141120314088f5013875ac656398d8a2ed19d2a85c8edd3ec2aef
def p384Gx : Nat := 0xaa87ca22be8b05378eb1c71ef320ad746e1d3b628ba79b9859f741e082542a385502f25dbf55296c3a545e3872760ab7
def p384Gy : Nat := 0x3617de4a96262c6f5d9e98bf9292dc29f8f41dbd289a147ce9da3113b5f0b8c00a60b1ce1d7e819d7a431d7c90ea0e5f
/-- A power modulo m, over the low `n` bits of the exponent. -/
def powMod (m : Nat) : Nat → Nat → Nat → Nat
  | 0, _, _ => 1 % m
  | n + 1, b, e =>
    let r := powMod m n (b * b % m) (e / 2)
    if e % 2 = 1 then r * b % m else r
/-- The inverse modulo a prime of at most 384 bits. -/
def invMod (m a : Nat) : Nat := powMod m 384 (a % m) (m - 2)
/-- A point of the curve; none is the point at infinity. -/
abbrev EcPoint := Option (Nat × Nat)
def ecAdd (a b : EcPoint) : EcPoint :=
  match a, b with
  | none, q => q
  | p, none => p
  | some (x1, y1), some (x2, y2) =>
    if x1 = x2 && (y1 + y2) % p384P = 0 then none else
    let l := if x1 = x2 then (3 * x1 * x1 + p384P - 3) * invMod p384P (2 * y1) % p384P
             else (y2 + p384P - y1) * invMod p384P (x2 + p384P - x1) % p384P
    let x := (l * l + 2 * p384P - x1 - x2) % p384P
    some (x, (l * (x1 + p384P - x) + p384P - y1) % p384P)
/-- A multiple of a point, over the low `n` bits of the factor. -/
def ecMul : Nat → Nat → EcPoint → EcPoint
  | 0, _, _ => none
  | n + 1, k, p =>
    let r := ecMul n (k / 2) (ecAdd p p)
    if k % 2 = 1 then ecAdd p r else r
/-- An affine point of the curve. -/
def ecOn (x y : Nat) : Bool :=
  decide (x < p384P) && decide (y < p384P) && (y * y) % p384P = (x * x * x + p384P * 3 - 3 * x + p384B) % p384P
/-- ECDSA P-384 with SHA-384 over a message (FIPS 186-5). -/
def ecdsaOk (key : BitVec 384 × BitVec 384) (m : List Byte) (r s : Nat) : Bool :=
  decide (1 ≤ r) && decide (r < p384N) && decide (1 ≤ s) && decide (s < p384N) && ecOn key.1.toNat key.2.toNat &&
    let w := invMod p384N s
    let u1 := (sha384 m).toNat * w % p384N
    let u2 := r * w % p384N
    match ecAdd (ecMul 384 u1 (some (p384Gx, p384Gy))) (ecMul 384 u2 (some (key.1.toNat, key.2.toNat))) with
    | some (x, _) => x % p384N = r
    | none => false

end Sys2Proof.Machine
end

