-- ==== Sys2Proof/Machine/Plan.lean ====
section
/-! DEFINITION. The warp plan: image, records, stage 1 in the order of R451 (R23 to R34, R87, R237, R246, R320, R322,
R337, R420, R421), the checks of the law, lane and axis stages (R189, R191, R242, R246, R260), and the comparison of
R40. -/
namespace Sys2Proof.Machine

/-! ### Records -/

/-- A record of the stream: its offset in the image and its bytes. -/
structure PlanRec where
  off : Nat
  b : List Byte
deriving DecidableEq, Repr
def PlanRec.type (r : PlanRec) : Nat := byteAt r.b 0
def PlanRec.owner (r : PlanRec) : Nat := byteAt r.b 1
def PlanRec.inst (r : PlanRec) : Nat := leAt r.b 4 2
/-- A field by offset and bytes. -/
def PlanRec.f (r : PlanRec) (off n : Nat) : Nat := leAt r.b off n
def PlanRec.byte (r : PlanRec) (off : Nat) : Nat := byteAt r.b off
/-- Repeated parts of `n` bytes from an offset on. -/
def PlanRec.parts (r : PlanRec) (base n : Nat) : List (List Byte) :=
  (List.range ((r.b.length - base) / n)).map fun i => slice r.b (base + n * i) n
/-- The stream walked by RLEN: the records, and the offset at which the walk broke (R24). -/
def walkRecs : Nat → Nat → List Byte → List PlanRec × Option Nat
  | 0, _, _ => ([], none)
  | fuel + 1, off, bs =>
    if bs = [] then ([], none) else
    let n := leAt bs 2 2
    if bs.length < 8 || n < 8 || n % 8 ≠ 0 || bs.length < n then ([], some off)
    else
      let r := walkRecs fuel (off + n) (bs.drop n)
      ({ off := off, b := bs.take n } :: r.1, r.2)
def planWalk (img : List Byte) : List PlanRec × Option Nat :=
  walkRecs (img.length + 1) 64 ((img.take (img.length - 112)).drop 64)
def planRecs (img : List Byte) : List PlanRec := (planWalk img).1
def planSeq (img : List Byte) : BitVec 64 := BitVec.ofNat 64 (leAt img 16 8)
/-- The plan hash: SHA-384 of the signed area (R34). -/
def planHash (img : List Byte) : BitVec 384 := sha384 (img.take (img.length - 112))
def ofType (rs : List PlanRec) (t : Nat) : List PlanRec := rs.filter fun r => r.type = t
/-- A breach: a code of Table 2.11 and WRP_RESULT_OFS. -/
abbrev Breach := Option (BitVec 8 × Nat)
/-- A breach unless a condition holds. -/
def need (ok : Bool) (code : BitVec 8) (off : Nat) : Breach := if ok then none else some (code, off)
/-- The first breach of a list. -/
def firstOf (l : List Breach) : Breach := l.findSome? id

/-! ### Header, trailer, signature (R23, R33, R34, R451 items 1 to 3) -/

/-- The key of a fuse slot: programmed and not revoked (R34). -/
abbrev KeySlots := Vector (Option (Option (BitVec 384 × BitVec 384))) 4
def keyOf (k : KeySlots) (i : Nat) : Option (BitVec 384 × BitVec 384) :=
  if h : i < 4 then (vget k ⟨i, h⟩).join else none
def headerCheck (k : KeySlots) (img : List Byte) : Breach :=
  let l := img.length
  let t := l - 112
  firstOf [
    need (leAt img 0 4 = 0x4C505257) 0x01 0,
    need (leAt img 4 2 = 1 && leAt img 6 2 = 64) 0x02 0,
    need (leAt img 24 2 = 9 && byteAt img 26 = 0xB0) 0x04 0,
    need (leAt img 8 4 = l && l % 8 = 0 && decide (l ≤ 4194304) && decide (176 ≤ l)) 0x03 0,
    need (zeroAt img 36 28) 0x09 0,
    need (leAt img t 4 = 0x47495357) 0x01 t,
    need (leAt img (t + 4) 4 = t) 0x03 t,
    need (byteAt img (t + 8) = byteAt img 27 && (keyOf k (byteAt img 27)).isSome) 0x05 t,
    need (zeroAt img (t + 9) 7) 0x09 t,
    need (match keyOf k (byteAt img 27) with
      | some key => ecdsaOk key (img.take t) (beNat (slice img (t + 16) 48)) (beNat (slice img (t + 64) 48))
      | none => false) 0x06 t]

/-! ### Each record (R451 item 4) -/

/-- RLEN as Table 2.3 gives it; an unknown type has none. -/
def lenOk (r : PlanRec) : Bool :=
  let n := r.b.length
  match r.type with
  | 1 => n = 48
  | 2 => true
  | 3 => n = 32
  | 4 => n = 24
  | 5 => n = 16
  | 6 => n = 16
  | 7 => n = 16 + 8 * r.byte 10
  | 8 => n = 32
  | 9 => n = 32
  | 10 => decide (24 ≤ n)
  | 11 => n = 24
  | _ => true
/-- TYPE, OWNER and INSTANCE as Table 2.3 allows them (R25). -/
def typeOk (r : PlanRec) : Bool :=
  let part := decide (r.owner < 32)
  let chip := r.owner = 0xFF
  match r.type with
  | 1 => part && r.inst = r.owner
  | 2 => part && decide (r.inst ≤ 255)
  | 3 => (part || chip) && decide (r.inst ≤ 63)
  | 4 => chip && r.inst = 0
  | 5 => chip && decide (r.inst ≤ 15)
  | 6 => (chip && r.inst = 0) || (part && r.inst = r.owner + 1)
  | 7 => part && decide (r.inst ≤ 255)
  | 8 => part && decide (r.inst ≤ 7)
  | 9 => part && decide (r.inst ≤ 31)
  | 10 => part && decide (r.inst ≤ 3)
  | 11 => part && r.inst = 0
  | _ => false
/-- Ascending TYPE, INSTANCE, OWNER, strictly (R24). -/
def recKey (r : PlanRec) : Nat := (r.type * 65536 + r.inst) * 256 + r.owner
/-- Reserved bits of a record, as offset and mask. -/
def reservedOf (r : PlanRec) : List (Nat × Nat) :=
  let all := fun l : List Nat => l.map fun i => (i, 0xFF)
  let upTo := fun a n : Nat => (List.range n).map (a + ·)
  let rep := fun (base n : Nat) (l : List (Nat × Nat)) =>
    (List.range ((r.b.length - base) / n)).flatMap fun i => l.map fun e => (base + n * i + e.1, e.2)
  all [6, 7] ++ match r.type with
  | 1 => [(29, 0xC0), (31, 0xF0)] ++ all (upTo 40 8)
  | 2 => rep 8 8 [(3, 0xE0), (6, 0xFF), (7, 0xFF)]
  | 4 => all [15]
  | 5 => (9, 0xC0) :: all (upTo 12 4)
  | 6 => all (upTo 12 4)
  | 7 => all (upTo 11 5) ++ rep 16 8 [(5, 0xFF), (6, 0xFF), (7, 0xFF)]
  | 8 => all [15]
  | 9 => (27, 0xF0) :: all [30, 31]
  | 10 => (9, 0xFC) :: all (upTo 10 6) ++ [(19, 0x80), (20, 0xE0), (21, 0xE0), (22, 0xF0), (23, 0xE0)] ++
      rep 24 8 [(3, 0xFF)]
  | 11 => (9, 0xC0) :: all [10, 11, 22, 23]
  | _ => []
def reservedOk (r : PlanRec) : Bool := (reservedOf r).all fun e => r.byte e.1 &&& e.2 = 0
/-- Sigma-delta inputs of a motor kind (Table 11.2). -/
def motorSdi (m : Nat) : Nat := if m = 0 then 3 else if m = 1 then 2 else if m = 2 then 1 else 0
/-- The bit timing images of a CAN record (R320). -/
def timingOk (mode nbt dbt : Nat) : Bool :=
  let n1 := fld nbt 9 8 + 1
  let n2 := fld nbt 17 7 + 1
  let d1 := fld dbt 8 5 + 1
  let d2 := fld dbt 16 4 + 1
  let nOk := decide (2 ≤ n1) && decide (2 ≤ n2) && decide (fld nbt 24 7 + 1 ≤ n2) &&
    decide (80 ≤ (fld nbt 0 9 + 1) * (1 + n1 + n2))
  let dOk := decide (2 ≤ d1) && decide (2 ≤ d2) && decide (fld dbt 24 4 + 1 ≤ d2) &&
    decide (10 ≤ (fld dbt 0 5 + 1) * (1 + d1 + d2))
  if mode = 0 then nbt = 0 && dbt = 0 else if mode = 1 then nOk && dbt = 0 else nOk && dOk
/-- VTOTAL: PCLK × 1,000 / (HTOTAL × 60), an exact half upward (R337). -/
def vTotal (hact pclk : Nat) : Nat := (2 * pclk * 1000 + (hact + 80) * 60) / (2 * (hact + 80) * 60)
/-- A display record's limits (R32, R337, R349). -/
def displayOk (r : PlanRec) : Bool :=
  let lanes := fld (r.byte 9) 0 3
  let rate := fld (r.byte 9) 3 3
  let hact := r.f 12 2
  let vact := r.f 14 2
  let pclk := r.f 16 4
  let mb := if rate = 0 then 1620 else if rate = 1 then 2700 else if rate = 2 then 5400 else 8100
  decide (r.byte 8 ≤ 1) && (r.byte 8 = 0 ||
    ((lanes = 1 || lanes = 2 || lanes = 4) && decide (rate ≤ 3) && hact % 8 = 0 && decide (640 ≤ hact) &&
      decide (hact ≤ 3840) && decide (480 ≤ vact) && decide (vact ≤ 2160) && decide (pclk ≤ 600000) &&
      decide (vact + 15 ≤ vTotal hact pclk) && decide (pclk * 24 ≤ lanes * mb * 780) && decide (r.byte 21 ≤ 2)))
/-- An identifier field with no bit beyond its kind's width. -/
def mapIdOk (v : Nat) : Bool := decide (fld v 0 31 < if bitOf v 31 then 2 ^ 29 else 2 ^ 11)
/-- The fields that can be judged on the record alone, with the code of their rule. -/
def fieldsCheck (r : PlanRec) : Breach :=
  match r.type with
  | 2 => need ((r.parts 8 8).all fun e =>
      (match signalOf (leAt e 0 2) with | some g => g.funcOk (byteAt e 2) | none => false) &&
      fld (byteAt e 3) 2 2 ≠ 3 && decide (byteAt e 4 ≤ 2)) 0x0A r.off
  | 3 =>
    let base := r.f 8 8
    let lim := r.f 16 8
    let attr := r.f 24 4
    need (base % 4096 = 0 && lim % 4096 = 4095 && decide (base ≤ lim) && decide (attr < 256) && attr % 4 ≠ 3 &&
      (decide (lim < 0x13000000000) || (decide (0x20000000000 ≤ base) && decide (lim < 0x40000000000))) &&
      !(attr % 4 = 0 && decide (0x20000000000 ≤ base))) 0x0F r.off
  | 4 =>
    let d := fun i => r.byte (8 + i)
    let n := d 0 * d 1 * d 2
    need ((List.range 3).all (fun i => decide (1 ≤ d i) && decide (d i ≤ 16) && decide (r.byte (11 + i) < d i)) &&
      decide (64 ≤ n) && decide (n ≤ 4096) && decide (r.byte 14 ≤ 1)) 0x0C r.off
  | 5 => need (decide (r.byte 8 ≤ 6)) 0x0C r.off
  | 6 => need (if r.owner = 0xFF then decide (r.f 8 2 ≤ 1800) && decide (r.byte 10 ≤ 1) && r.byte 11 = 0
               else r.byte 10 = 0 && decide (r.byte 11 ≤ 7)) 0x0D r.off
  | 7 => need (decide (r.byte 8 ≤ 1) && decide (r.byte 9 ≤ 3) && decide (1 ≤ r.byte 10) && decide (r.byte 10 ≤ 16) &&
      (r.parts 16 8).all fun c => decide (byteAt c 4 ≤ 15) || decide (248 ≤ byteAt c 4)) 0x0A r.off
  | 8 =>
    let n := r.byte 8
    let ts := (List.range 4).map fun i => r.byte (9 + i)
    let used := ts.take n
    need (decide (1 ≤ n) && decide (n ≤ 4) && used.all (fun t => decide (t < 64)) && (ts.drop n).all (· = 0xFF) &&
      used.Nodup && used.all (fun t => t / 16 = used.headD 0 / 16) && decide (1 ≤ r.byte 13) && decide (r.byte 13 ≤ 64) &&
      decide (1 ≤ r.byte 14) && decide (r.byte 14 ≤ 4) && decide (1 ≤ r.f 28 4) && decide (r.f 28 4 ≤ 96000)) 0x0E r.off
  | 9 => need (decide (r.byte 8 ≤ 3) && decide (r.byte 9 ≤ 3) && decide (r.byte 10 ≤ 39) &&
      (decide (r.byte 11 ≤ 39) || r.byte 11 = 0xFF) && decide (r.byte 20 + motorSdi (r.byte 9) ≤ 96) &&
      (decide (r.byte 24 ≤ 7) || r.byte 24 = 0xFF) && decide (r.byte 25 ≤ 1) && decide (r.byte 26 ≤ 2)) 0x0A r.off
  | 10 =>
    let maps := r.parts 24 8
    need (decide (r.byte 8 ≤ 2) && timingOk (r.byte 8) (r.f 16 4) (r.f 20 4) &&
      maps.all (fun m => decide (8 ≤ byteAt m 0) && decide (byteAt m 0 ≤ 63) && decide (byteAt m 1 ≤ 31) &&
        decide (byteAt m 2 ≤ 4) && mapIdOk (leAt m 4 4)) &&
      (maps.map fun m => byteAt m 0).Nodup) 0x0A r.off
  | 11 => need (displayOk r) 0x10 r.off
  | _ => none
/-- One record after the one before it. -/
def recCheck (prev : Option PlanRec) (r : PlanRec) : Breach :=
  firstOf [
    need (lenOk r) 0x03 r.off,
    need (typeOk r) 0x08 r.off,
    need (match prev with | some p => decide (recKey p < recKey r) | none => true) 0x07 r.off,
    need (reservedOk r) 0x09 r.off,
    fieldsCheck r]
def recsCheck : Option PlanRec → List PlanRec → Breach
  | _, [] => none
  | prev, r :: rs => match recCheck prev r with
    | some e => some e
    | none => recsCheck (some r) rs

/-! ### Between records (R451 item 5) -/

/-- The membership that a partition record gives (Table 2.4). -/
def membership (r : PlanRec) : Part :=
  { assigned := true, tiles := BitVec.ofNat 64 (r.f 8 8), cores := BitVec.ofNat 48 (r.f 16 6),
    shuttle := BitVec.ofNat 16 (r.f 22 2), axes := BitVec.ofNat 32 (r.f 24 4), treadle := BitVec.ofNat 8 (r.byte 28),
    units := BitVec.ofNat 8 (r.byte 29), rports := BitVec.ofNat 8 (r.byte 30), clusters := BitVec.ofNat 8 (r.byte 31),
    fbk := BitVec.ofNat 40 (r.f 32 5), peat := BitVec.ofNat 8 (r.byte 37), grh := BitVec.ofNat 16 (r.f 38 2) }
def recHolds (r : PlanRec) (f : Fid) : Bool := (membership r).holds f
/-- The partition record that names a function. -/
def recOwner (rs : List PlanRec) (f : Fid) : Option PlanRec := (ofType rs 1).find? fun r => recHolds r f
def ownedBy (rs : List PlanRec) (p : Nat) (f : Fid) : Bool :=
  match recOwner rs f with | some r => r.owner = p | none => false
/-- Each element with those before it. -/
def withPrior {α β : Type} (g : List α → α → Option β) (l : List α) : Option β :=
  (List.range l.length).findSome? fun i => match l[i]? with
    | some x => g (l.take i) x
    | none => none
/-- R24: one INSTANCE claimed by two records. -/
def checkTwice (rs : List PlanRec) : Breach :=
  withPrior (fun ps r => need (r.type = 2 || r.type = 7 || ps.all fun p => p.type ≠ r.type || p.inst ≠ r.inst)
    (if r.type = 3 then 0x0F else 0x0A) r.off) rs
/-- R25: owners with a partition record, and claims of the instance. -/
def checkOwners (rs : List PlanRec) : Breach :=
  rs.findSome? fun r =>
    if r.type = 1 || r.owner = 0xFF then none else
    match (ofType rs 1).find? fun p => p.owner = r.owner with
    | none => some (0x0B, r.off)
    | some p =>
      need (if r.type = 9 then recHolds p (fidMk 7 r.inst) else if r.type = 10 then recHolds p (fidMk 10 r.inst)
            else if r.type = 11 then recHolds p dspFid else true) 0x0B r.off
/-- R26: a resource in two partition records; Peat stacks may be shared. -/
def checkMembers (rs : List PlanRec) : Breach :=
  withPrior (fun ps r => need (allFids.all fun f => fidType f = 4 || !recHolds r f || ps.all fun p => !recHolds p f)
    0x0A r.off) (ofType rs 1)
/-- R27: an axis and its engine. -/
def checkEngines (rs : List PlanRec) : Breach :=
  (ofType rs 1).findSome? fun r => (List.finRange 32).findSome? fun a =>
    if !recHolds r (fidMk 7 a) then none else
    match recOwner rs (fidMk 6 (a / 4)) with
    | some e => need (e.owner = r.owner) 0x0A (max r.off e.off)
    | none => some (0x0A, r.off)
/-- Pin entries of the plan in image order: signal, FUNC, record. -/
def pinEntries (rs : List PlanRec) : List (Nat × Signal × Nat × PlanRec) :=
  (ofType rs 2).flatMap fun r => (r.parts 8 8).filterMap fun e =>
    (signalOf (leAt e 0 2)).map fun g => (leAt e 0 2, g, byteAt e 2, r)
/-- R29: a signal in two entries, or of another partition. -/
def checkPins (es : List (Nat × Signal × Nat × PlanRec)) (rs : List PlanRec) : Breach :=
  withPrior (fun ps e => firstOf [
    need (ps.all fun p => p.1 ≠ e.1) 0x0A e.2.2.2.off,
    need (match e.2.1.owner with | some f => ownedBy rs e.2.2.2.owner f | none => true) 0x0B e.2.2.2.off]) es
/-- FUNC of a signal; 0 without an entry. -/
def pinFunc (es : List (Nat × Signal × Nat × PlanRec)) (g : Signal) : Nat :=
  match es.find? fun e => e.2.1 = g with | some e => e.2.2.1 | none => 0
/-- Latest record that gives one of the signals an entry. -/
def pinsAt (es : List (Nat × Signal × Nat × PlanRec)) (gs : List Signal) : Nat :=
  (es.filter fun e => decide (e.2.1 ∈ gs)).foldl (fun a e => max a e.2.2.2.off) 0
def fbkBalls (c : Nat) : List Signal := [.fbk c 0, .fbk c 1]
def anaBalls (c : Nat) : List Signal := [.analog c 0, .analog c 1, .analog c 2, .analog c 3]
/-- A channel's mode: the code its entries share; none where they break R420. -/
def fbkMode (es : List (Nat × Signal × Nat × PlanRec)) (c : Nat) : Option (BitVec 3) :=
  let a := pinFunc es (.fbk c 0)
  let b := pinFunc es (.fbk c 1)
  let z := pinFunc es (.fbk c 2)
  let an := (anaBalls c).map (pinFunc es)
  let codes := ([a, b] ++ an).filter (· ≠ 0)
  match codes with
  | [] => if z = 0 then some 0 else none
  | m :: _ =>
    if !codes.all (· = m) then none
    else if m = 4 then (if an.all (· = 4) then some 4 else none)
    else if a ≠ m || b ≠ m || (m = 5 && z ≠ 0) then none
    else some (BitVec.ofNat 3 m)
def checkFbk (es : List (Nat × Signal × Nat × PlanRec)) : Breach :=
  (List.range 40).findSome? fun c =>
    need (fbkMode es c).isSome 0x0A (pinsAt es (fbkBalls c ++ [.fbk c 2] ++ anaBalls c))
/-- R421: root ports exist exactly where their PERST entry says so. -/
def checkPcie (es : List (Nat × Signal × Nat × PlanRec)) : Breach :=
  ([0, 4] : List Nat).findSome? fun g =>
    let ports := bifurcation (pinFunc es (.perst g))
    ([1, 2, 3] : List Nat).findSome? fun i =>
      need (decide (pinFunc es (.perst (g + i)) = 1) = decide (i ∈ ports)) 0x0A (pinsAt es [.perst g, .perst (g + i)])
/-- R30: overlapping regions, then link records. -/
def neighbourId (f : PlanRec) (dir : Nat) : Nat :=
  let dim := (dir - 1) / 2
  let co := fun i => if i = dim then
      (f.byte (11 + i) + if dir % 2 = 1 then 1 else f.byte (8 + i) - 1) % f.byte (8 + i) else f.byte (11 + i)
  co 0 + 16 * co 1 + 256 * co 2
def checkTopology (rs : List PlanRec) : Breach :=
  firstOf [
    withPrior (fun ps r => need (ps.all fun p => decide (p.f 16 8 < r.f 8 8) || decide (r.f 16 8 < p.f 8 8)) 0x0F r.off)
      (ofType rs 3),
    (ofType rs 5).findSome? fun r =>
      let d := r.byte 8
      if d = 0 then none else
      match (ofType rs 4).head? with
      | none => some (0x0C, r.off)
      | some f => need (f.byte (8 + (d - 1) / 2) ≠ 1 && r.f 10 2 = neighbourId f d) 0x0C r.off]
/-- Tiles of a lane record. -/
def laneTiles (r : PlanRec) : List Nat := (List.range (r.byte 8)).map fun i => r.byte (9 + i)
/-- R31 for lane records: the tiles' partition, no tile in two lanes, a readable MODEL range. -/
def checkLanes (rs : List PlanRec) : Breach :=
  withPrior (fun ps r => firstOf [
    need ((laneTiles r).all fun t => ownedBy rs r.owner (fidMk 2 t)) 0x0B r.off,
    need ((laneTiles r).all fun t => ps.all fun p => decide (t ∉ laneTiles p)) 0x0E r.off,
    need (decide (1 ≤ r.f 24 4) && (ofType rs 3).any fun g => bitOf (g.f 28 4) r.owner && bitOf (g.f 24 4) 4 &&
      decide (g.f 8 8 ≤ r.f 16 8) && decide (r.f 16 8 + r.f 24 4 ≤ g.f 16 8 + 1)) 0x0E r.off]) (ofType rs 8)
/-- R31 for axis records: channels, laws, lane and sigma-delta inputs of the same partition. -/
def checkAxes (rs : List PlanRec) : Breach :=
  (ofType rs 9).findSome? fun r => need (
    ownedBy rs r.owner (fidMk 8 (r.byte 10)) &&
    (r.byte 11 = 0xFF || ownedBy rs r.owner (fidMk 8 (r.byte 11))) &&
    ([21, 22, 23] : List Nat).all (fun i => r.byte i = 0xFF ||
      (ofType rs 7).any fun l => l.owner = r.owner && l.inst = r.byte i) &&
    (r.byte 24 = 0xFF || (ofType rs 8).any fun l => l.owner = r.owner && l.inst = r.byte 24) &&
    (List.range (motorSdi (r.byte 9))).all fun k => ownedBy rs r.owner (fidMk 6 ((r.byte 20 + k) / 12))) 0x0B r.off
/-- R32: the mapped axes' partition, and identifiers mapped twice. -/
def checkCan (rs : List PlanRec) : Breach :=
  (ofType rs 10).findSome? fun r => firstOf [
    need ((r.parts 24 8).all fun m => ownedBy rs r.owner (fidMk 7 (byteAt m 1))) 0x0B r.off,
    need ((r.parts 24 8).map fun m => leAt m 4 4).Nodup 0x0A r.off]
/-- Stage 1 (R35, R451): none accepts. An INSTALL_ID of the header that is not the fabric record's is reported at the fabric
record's offset: the spec does not say which of the two is at fault (DESIGN CHOICE, log 53). -/
def stage1 (k : KeySlots) (img : List Byte) : Breach :=
  match headerCheck k img with
  | some e => some e
  | none =>
    let w := planWalk img
    let rs := w.1
    let es := pinEntries rs
    match recsCheck none rs with
    | some e => some e
    | none => firstOf [
        (match w.2 with | some off => some (0x03, off) | none => none),
        need (rs.length = leAt img 12 4) 0x03 0,
        checkTwice rs, checkOwners rs, checkMembers rs, checkEngines rs, checkPins es rs, checkFbk es, checkPcie es,
        checkTopology rs, checkLanes rs, checkAxes rs, checkCan rs,
        (ofType rs 4).findSome? fun f => need (f.f 16 8 = leAt img 28 8) 0x0C f.off]

/-! ### The law, lane and axis stages -/

/-- N of a STRUCT (Table 11.4). -/
def structN (st n : Nat) : Bool :=
  if st = 0 then n = 4 else if st = 1 then n = 6 else if st = 2 then n = 6 else n = 6 || n = 11 || n = 16
/-- R246. -/
def lawCheck (r : PlanRec) : Breach :=
  need (structN (r.byte 9) (r.byte 10) && (r.byte 8 = 0 || (r.parts 16 8).all fun c => byteAt c 4 = 0)) 0x0A r.off
/-- Bytes of one row of weights, padding and scales included (R189). -/
def rowBytes (wfmt nin : Nat) : Nat := if wfmt = 2 then ceilDiv nin 32 * 33 else 2 * nin
/-- Layers of a model image (Table 8.9). -/
def modelLayers (m : List Byte) : List Layer :=
  (List.range (byteAt m 6)).map fun k =>
    let e := 64 + 16 * k
    { nin := leAt m e 2, nout := leAt m (e + 2) 2, act := BitVec.ofNat 8 (byteAt m (e + 4)), wofs := leAt m (e + 8) 4,
      bofs := leAt m (e + 12) 4 }
/-- Each layer's IN follows the OUT before it. -/
def chained (n : Nat) : List Layer → Option Nat
  | [] => some n
  | l :: ls => if l.nin = n then chained l.nout ls else none
/-- The layout rules of R189 for a lane of `t` tiles. -/
def modelOk (m : List Byte) (nin nout t : Nat) : Bool :=
  let len := m.length
  let ls := modelLayers m
  let w := byteAt m 7
  let norm := leAt m 16 4
  decide (64 ≤ len) && leAt m 0 4 = 0x584C4652 && leAt m 4 2 = 1 && decide (1 ≤ byteAt m 6) && decide (byteAt m 6 ≤ 8) &&
  decide (w ≤ 2) && leAt m 8 2 = nin && byteAt m 10 = nout && byteAt m 11 = 0 && leAt m 12 4 = len && zeroAt m 20 44 &&
  decide (64 + 16 * byteAt m 6 ≤ len) && (norm = 0 || decide (norm + 8 * nin ≤ len)) &&
  (List.range (byteAt m 6)).all (fun k => zeroAt m (64 + 16 * k + 5) 3) &&
  ls.all (fun l => decide (1 ≤ l.nin) && decide (l.nin ≤ 1024) && decide (1 ≤ l.nout) && decide (l.nout ≤ 1024) &&
    decide (l.act.toNat ≤ 5) && decide (l.wofs + l.nout * rowBytes w l.nin ≤ len) &&
    (l.bofs = 0 || decide (l.bofs + 4 * l.nout ≤ len))) &&
  chained nin ls = some nout &&
  decide (ls.foldl (fun a l => a + ceilDiv l.nout t * rowBytes w l.nin) 0 ≤ 8126464)
/-- L of R191 in TQ, at 1.6 GHz. -/
def laneLatency (m : List Byte) (t : Nat) : Nat :=
  let w := if byteAt m 7 = 2 then 2 else 4
  3200 + 10 * (modelLayers m).foldl (fun a l =>
    a + 40 + w * ceilDiv l.nin 32 * ceilDiv l.nout (32 * t) + if 1 < t then 24 else 0) 0
/-- Axis records that name a lane. -/
def laneAxes (rs : List PlanRec) (lane : Nat) : List PlanRec := (ofType rs 9).filter fun a => a.byte 24 = lane
/-- Period of the lane's loop on an axis, TQ. -/
def lanePeriod (a : PlanRec) : Nat := 40 * if a.byte 25 = 1 then a.f 16 2 else a.f 14 2
/-- R189, R191 and R260 for one lane record; `img` is what the read of the model gave. -/
def laneCheck (rs : List PlanRec) (r : PlanRec) (img : Option (List Byte)) : Breach :=
  let ax := laneAxes rs r.inst
  let one := fun f : PlanRec → Nat => ax.all fun a => ax.all fun b => f a = f b
  need ((ax = [] || (one (·.byte 25) && one lanePeriod && decide (r.byte 13 ≤ 4 * ax.length) &&
      decide (r.byte 14 ≤ ax.length))) &&
    (match img with
     | some m => modelOk m (r.byte 13) (r.byte 14) (r.byte 8) && decide (laneLatency m (r.byte 8) ≤ r.f 28 4)
     | none => false) &&
    ax.all fun a => decide (r.f 28 4 ≤ lanePeriod a)) 0x0E r.off
/-- R237 and R242 for one axis record. -/
def axisCheck (rs : List PlanRec) (r : PlanRec) : Breach :=
  let mode := r.byte 8
  let law := fun (i : Nat) (runs : Bool) => decide (r.byte i ≠ 0xFF) = runs
  let cur := r.f 12 2
  let vel := r.f 14 2
  let pos := r.f 16 2
  let pwm := r.f 18 2
  firstOf [
    need (if r.byte 9 = 3 then mode = 3 && law 21 false && law 22 false && law 23 false && r.byte 24 = 0xFF && r.f 28 2 ≠ 0
          else law 21 (decide (1 ≤ mode)) && law 22 (decide (2 ≤ mode)) && law 23 (decide (3 ≤ mode))) 0x0A r.off,
    need (decide (1000 ≤ cur) && decide (1 ≤ vel) && vel % cur = 0 && decide (1 ≤ pos) && pos % vel = 0 &&
      (pwm = cur || pwm = 2 * cur) &&
      (ofType rs 9).all fun a => a.inst / 4 ≠ r.inst / 4 || decide (r.off < a.off) || a.f 12 2 = cur) 0x11 r.off]

/-! ### The comparison of R40 -/

/-- Whether a plan that passes stage 1 is a partial reload of p: headers, records of other owners, claims. -/
def isPartial (new old : List Byte) (p : Nat) : Bool :=
  let other := fun img => ((planRecs img).filter fun r => r.owner ≠ p).map (·.b)
  new.take 8 = old.take 8 && (new.drop 24).take 40 = (old.drop 24).take 40 && other new = other old &&
  match (ofType (planRecs new) 1).find? fun r => r.owner = p with
  | none => true
  | some r => allFids.all fun f => fidType f = 4 || !recHolds r f ||
      (ofType (planRecs old) 1).all fun q => q.owner = p || !recHolds q f

end Sys2Proof.Machine
end

