-- ==== Sys2Proof/Machine/FrontEnd.lean ====
section
/-! DEFINITION. The command front end (spec/06): queue registers, fetch, dispatch, the NOP and WRITE_INLINE opcodes,
completion, event buffers, and the supervision of R141 and R376. -/
namespace Sys2Proof.Machine

/-! ### Queue registers (R119 to R123, R136, R137) -/

/-- A ring lies in valid TYPE 0 entries that allow the queue's partition and the access kind (R120). -/
def ringOk (s : State) (p : Fin 32) (a n : Nat) (k : AccKind) : Bool :=
  (ratCheckRange s p a n k .plain).isNone &&
  ((List.range ((a + n - 1) / 4096 - a / 4096 + 1)).all fun i =>
    match ratFind s ((a / 4096 + i) * 4096) with
    | some e => e.type = 0
    | none => false)
/-- R120 and R121: the configuration can be enabled. -/
def queueCfgOk (s : State) (n : Fin 64) : Bool :=
  let q := vget s.queues n
  let sq := q.sqbase.toNat * 4096
  let cq := q.cqbase.toNat * 4096
  let sz := 256 * 2 ^ q.sqlog.toNat
  let cz := 32 * 2 ^ q.cqlog.toNat
  match queuePart s n with
  | none => false
  | some p =>
    decide (4 ≤ q.sqlog) && decide (4 ≤ q.cqlog) &&
    decide (sq % max sz 4096 = 0) && decide (cq % max cz 4096 = 0) && ringOk s p sq sz .load && ringOk s p cq cz .store
/-- A write of CQ_QCFGn (R121, R122). HALTED returns to 0 at the write of ENABLE 1 that enables the queue again (DESIGN
CHOICE, log 36: R126 names both writes and no moment). -/
def qcfgWrite (n : Fin 64) (sqlog cqlog : BitVec 4) (enable evt : Bool) (s : State) : State :=
  let q := vget s.queues n
  if enable then
    if q.enable then s.modQueue n fun q => { q with evt := evt }
    else
      let s := s.modQueue n fun q => { q with sqlog := sqlog, cqlog := cqlog, evt := evt }
      if queueCfgOk s n then
        s.modQueue n fun q => { q with
          enable := true, halted := false, sqhead := 0, sqtail := 0, cqhead := 0, cqtail := 0, nextSeq := 1 }
      else s.modQueue n (·.setCode 1)
  else if q.enable then
    s.modQueue n fun q => { q with enable := false, evt := evt, fetched := [] }
  else s.modQueue n fun q => { q with enable := false, sqlog := sqlog, cqlog := cqlog, evt := evt }
/-- A write of CQ_SQTAILn (R123). -/
def sqTailWrite (n : Fin 64) (v : BitVec 16) (s : State) : State :=
  s.modQueue n fun q => if v.toNat < 2 ^ q.sqlog.toNat then { q with sqtail := v } else q.setCode 2
/-- A write of CQ_CQHEADn (R137). -/
def cqHeadWr (n : Fin 64) (v : BitVec 16) (s : State) : State :=
  s.modQueue n fun q =>
    let m := 2 ^ q.cqlog.toNat
    if v.toNat < m ∧ (v.toNat + m - q.cqhead.toNat) % m ≤ q.used then { q with cqhead := v } else q.setCode 5
/-- A write of CQ_QIRQn: a HART outside the queue's partition leaves the register as it was. -/
def qirqWrite (n : Fin 64) (v : BitVec 32) (s : State) : State :=
  match queuePart s n with
  | some p =>
    if belongs s p (fidMk 1 (fld v.toNat 0 6)) then
      s.modQueue n fun q => { q with
        hart := v.setWidth 6, file := BitVec.ofNat 4 (fld v.toNat 6 4),
        ident := BitVec.ofNat 8 (fld v.toNat 16 8), all := v.getLsbD 24 }
    else s
  | none => s
/-- Address of queue n's register set (6.9). -/
def cqSet (n : Fin 64) : Nat := regBase + 0x1000000 + 0x1000 + 0x40 * n

def execQueueEnable (who : Master) (n : Fin 64) (sqlog cqlog : BitVec 4) (evt : Bool) (s : State) :
    Host.Outcome State Fault Refusal :=
  done (regWriteAt who (cqSet n + 0x10) (qcfgWrite n sqlog cqlog true evt) s)
def execQueueDisable (who : Master) (n : Fin 64) (sqlog cqlog : BitVec 4) (evt : Bool) (s : State) :
    Host.Outcome State Fault Refusal :=
  done (regWriteAt who (cqSet n + 0x10) (qcfgWrite n sqlog cqlog false evt) s)
def execSqDoorbell (who : Master) (n : Fin 64) (tail : BitVec 32) (s : State) : Host.Outcome State Fault Refusal :=
  done (regWriteAt who (cqSet n + 0x18) (sqTailWrite n (tail.setWidth 16)) s)
def execCqHeadWrite (who : Master) (n : Fin 64) (head : BitVec 32) (s : State) : Host.Outcome State Fault Refusal :=
  done (regWriteAt who (cqSet n + 0x24) (cqHeadWr n (head.setWidth 16)) s)

/-! ### The command header (Table 6.2) -/

def Cmd.opcode (c : Cmd) : Nat := leAt c.bytes 0 2
def Cmd.flags (c : Cmd) : Nat := byteAt c.bytes 2
def Cmd.fence (c : Cmd) : Bool := bitOf c.flags 0
def Cmd.nocomp (c : Cmd) : Bool := bitOf c.flags 1
def Cmd.irq (c : Cmd) : Bool := bitOf c.flags 2
def Cmd.inlineLen (c : Cmd) : Nat := byteAt c.bytes 3
def Cmd.inline (c : Cmd) : List Byte := slice c.bytes 64 c.inlineLen
def Cmd.tag (c : Cmd) : Nat := leAt c.bytes 8 8
def Cmd.startIt (c : Cmd) : Nat := leAt c.bytes 16 8
def Cmd.deadlineIt (c : Cmd) : Nat := leAt c.bytes 24 8
def Cmd.isDone (c : Cmd) : Bool := match c.st with | .done _ _ _ => true | _ => false
/-- Reserved bits of the header, or INLINE_LEN above 192 (R127). -/
def Cmd.badHeader (c : Cmd) : Bool := decide (8 ≤ c.flags) || !zeroAt c.bytes 6 2 || decide (192 < c.inlineLen)

/-- Whether a function is held in reset (R128, Table 17.7). -/
def isHeld (s : State) (f : Fid) : Bool :=
  let i := fidIdx f
  match fidType f with
  | 1 => (vget s.cores ⟨i % 48, by omega⟩).held
  | 2 => (vget s.tiles ⟨i % 64, by omega⟩).held
  | 3 => (vget s.shuttle ⟨i % 16, by omega⟩).held
  | 6 => (vget s.trd ⟨i % 8, by omega⟩).held
  | 7 => (vget s.axes ⟨i % 32, by omega⟩).st = .held
  | 8 => (vget s.fbk ⟨i % 40, by omega⟩).held
  | 9 => s.cc.held
  | 10 => (vget s.can ⟨i % 4, by omega⟩).held
  | 11 => s.dsp.held
  | 13 => s.clusterHeld.getLsbD i
  | _ => false
/-- The function type that an opcode's TARGET has (Table 6.3); NOP takes any. -/
def targetOk (n : Fin 64) (op : Nat) (f : Fid) : Bool :=
  match op with
  | 0x0000 => true
  | 0x0001 => f = queueOwner n
  | 0x0010 => fidType f = 2
  | 0x0020 => fidType f = 3
  | 0x0030 => fidType f = 4
  | _ => fidType f = 13
def opListed (op : Nat) : Bool := op = 0 || op = 1 || op = 0x10 || op = 0x20 || op = 0x30 || op = 0x40
/-- Die whose control cluster runs the command (R131). -/
def cmdDie (c : Cmd) : Option (Fin 4) :=
  if c.opcode = 0x10 then some ⟨fidIdx c.target / 16 % 4, by omega⟩
  else if c.opcode = 0x40 then some ⟨fidIdx c.target % 4, by omega⟩ else none
/-- The status with which a command ends at dispatch, none where it goes to its target (R127 to R131, Table 6.5). Where
several hold, the first in the order below is given (DESIGN CHOICE, log 36: the spec gives no precedence). -/
def dispatchStatus (s : State) (n : Fin 64) (c : Cmd) : Option (BitVec 16) :=
  let f := c.target
  if c.badHeader then some 2
  else if c.deadlineIt ≠ 0 ∧ c.deadlineIt < s.time.it.toNat then some 5
  else if !opListed c.opcode then some 1
  else
    let mine := match queuePart s n with
      | some p => belongs s p f || (c.opcode = 0 && f = islandFid)
      | none => false
    if !mine || !targetOk n c.opcode f then some 3
    else if fidType f = 2 && (vget s.tiles ⟨fidIdx f % 64, by omega⟩).lane then some 0xA
    else if isHeld s f || isFenced s f then some 6
    else match cmdDie c with
      | none => none
      | some d =>
        if !(match queuePart s n with | some p => belongs s p (fidMk 13 d) | none => false) then some 0xB
        else if !clusterRuns s d then some 9 else none
/-- The command may leave its queue now: a free record, its START_IT and its FENCE (R125, R129). A bad header, and a
command past its DEADLINE_IT, waits on neither. A halt stops fetching alone: what was fetched is still dispatched (DESIGN
CHOICE, log 36). -/
def mayDispatch (s : State) (n : Fin 64) (c : Cmd) : Bool :=
  let q := vget s.queues n
  q.enable && decide (0 < q.spare) &&
  (c.badHeader || (c.deadlineIt ≠ 0 && decide (c.deadlineIt < s.time.it.toNat)) ||
   ((c.timed || decide (c.startIt ≤ s.time.it.toNat)) && (!c.fence || q.disp = [])))

def execCommandFetch (n : Fin 64) (s : State) : Host.Outcome State Fault Refusal :=
  let q := vget s.queues n
  let a := q.sqbase.toNat * 4096 + 256 * q.sqhead.toNat
  doneIf (q.enable && !q.halted && q.sqhead ≠ q.sqtail && s.island.mode = .full) s fun s =>
    match queuePart s n with
    | none => s
    | some p =>
      if ratHeld s p a 256 then holdAccess s else
      match ratCheck s p a .load .plain with
      | some c => accessError (queueOwner n) false c a (s.modQueue n fun q => { q.setCode 3 with halted := true })
      | none =>
        if poisoned s a 256 then poisonHit (queueOwner n) (s.modQueue n fun q => { q.setCode 3 with halted := true })
        else s.modQueue n fun q => { q with
          fetched := q.fetched ++ [{ slot := q.sqhead, bytes := rdBytes s a 256 }],
          sqhead := BitVec.ofNat 16 ((q.sqhead.toNat + 1) % 2 ^ q.sqlog.toNat) }
def execStartItReached (n : Fin 64) (s : State) : Host.Outcome State Fault Refusal :=
  match (vget s.queues n).fetched with
  | [] => .next s
  | c :: cs => doneIf (c.startIt ≠ 0 && decide (c.startIt ≤ s.time.it.toNat)) s fun s =>
      s.modQueue n fun q => { q with fetched := { c with timed := true } :: cs }
def execCommandDispatch (n : Fin 64) (s : State) : Host.Outcome State Fault Refusal :=
  match (vget s.queues n).fetched with
  | [] => .next s
  | c :: cs => doneIf (mayDispatch s n c) s fun s =>
      let st : CmdState := match dispatchStatus s n c with | some e => .done e 0 (stamp s) | none => .ready
      { s with dispatched := s.dispatched + 1 }.modQueue n fun q => { q with
        fetched := cs, disp := q.disp ++ [{ c with st := st, ord := s.dispatched }] }

/-! ### Executing a dispatched command (R125, R130, R133) -/

/-- Two commands contend for one tile, or for one Shuttle channel: they start in the order they were dispatched, whatever
their queues (R160, R174). -/
def Cmd.contends (c e : Cmd) : Bool :=
  e.opcode = c.opcode && e.target = c.target && (c.opcode = 0x10 || c.opcode = 0x20 && byteAt c.bytes 32 = byteAt e.bytes 32)
/-- Command k of a queue's dispatched list, where it may begin: it is ready, every earlier command of its target has begun
(R125), and of those that contend with it, in any queue, none dispatched earlier is still to begin. -/
def beginCmd (s : State) (n : Fin 64) (k : Nat) (op : Nat) : Option Cmd :=
  let d := (vget s.queues n).disp
  match d[k]? with
  | none => none
  | some c =>
    let first := s.queues.all fun q => q.disp.all fun e => !c.contends e || e.st ≠ .ready || decide (c.ord ≤ e.ord)
    if c.st = .ready && c.opcode = op && (d.take k).all (fun e => e.target ≠ c.target || e.st ≠ .ready) && first
    then some c else none
/-- State of command k of a queue's dispatched list set. -/
def setCmd (n : Fin 64) (k : Nat) (st : CmdState) (s : State) : State :=
  s.modQueue n fun q => { q with disp := q.disp.modify k fun c => { c with st := st } }
def endCmd (n : Fin 64) (k : Nat) (status : Nat) (detail : Nat) (s : State) : State :=
  setCmd n k (.done (BitVec.ofNat 16 status) (BitVec.ofNat 32 detail) (stamp s)) s

def execNop (n : Fin 64) (k : Nat) (s : State) : Host.Outcome State Fault Refusal :=
  doneIf (beginCmd s n k 0).isSome s (endCmd n k 0 0)
/-- The write of WRITE_INLINE (R130): its status and DETAIL. -/
def writeInline (n : Fin 64) (k : Nat) (c : Cmd) (s : State) : State :=
  let a := leAt c.bytes 32 8
  match queuePart s n with
  | none => endCmd n k 3 0 s
  | some p =>
    let u : Unit_ := { fid := c.target, part := p, side := .plain, core := false }
    let reach := match addrClass a with
      | .ddr | .stack _ | .host _ | .reserved => true
      | _ => false
    if c.inlineLen = 0 then endCmd n k 0 0 s
    else if !reach then endCmd n k 4 (a % 2 ^ 32) (accessError u.fid true 6 a s)
    else match rangeWrite u a c.inline s with
      | (.ok _, _, s) => endCmd n k 0 c.inlineLen s
      | (.err e, b, s) => endCmd n k 4 (b % 2 ^ 32) (accessError u.fid true e b s)
      | (.poison, b, s) => endCmd n k 8 (b - a) (poisonHit u.fid s)
def execWriteInline (n : Fin 64) (k : Nat) (s : State) : Host.Outcome State Fault Refusal :=
  match beginCmd s n k 1 with
  | none => .next s
  | some c => doneIf true s (writeInline n k c)

/-- A command's completion record (R133, Table 6.4). -/
def completionRec (c : Cmd) (st : BitVec 16) (detail : BitVec 32) (at_ : Stamp) : EvRec :=
  { fid := c.target, cls := 1, error := st ≠ 0, holdover := at_.hold, it := at_.it,
    payload := pl 16 c.tag + pl 24 st.toNat + pl 26 c.slot.toNat + pl 28 detail.toNat }
/-- The record of an ended command is written, unless NOCOMP and OK, and the command leaves the queue (R125, R134). -/
def completeCmd (n : Fin 64) (k : Nat) (c : Cmd) (st : BitVec 16) (detail : BitVec 32) (at_ : Stamp) (s : State) : State :=
  let r := completionRec c st detail at_
  let s := s.modQueue n fun q => { q with disp := q.disp.eraseIdx k }
  if c.nocomp && st = 0 then s else writeRecord n r c.irq s
/-- A record can be written: one that is left out needs no place, else a position that CQHEAD has passed (R137). -/
def hasPlace (q : Queue) (c : Cmd) (st : BitVec 16) : Bool := (c.nocomp && st = 0) || decide (0 < q.room)
def execCommandComplete (n : Fin 64) (k : Nat) (s : State) : Host.Outcome State Fault Refusal :=
  let d := (vget s.queues n).disp
  match d[k]? with
  | none => .next s
  | some c =>
    match c.st with
    | .done st detail at_ =>
      doneIf ((d.take k).all (fun e => e.target ≠ c.target) && hasPlace (vget s.queues n) c st) s
        (completeCmd n k c st detail at_)
    | _ => .next s

/-! ### Event buffers (R138) -/

/-- The queue that can take a partition's events now. -/
def drainQueue (s : State) (p : Fin 32) : Option (Fin 64) :=
  match eventQueue s p with
  | some n =>
    if streamOpen s p n then some n else none
  | none => none
/-- Buffered events in order, then the count of the lost ones, as far as the ring has room. -/
def drain (p : Fin 32) : Nat → State → State
  | 0, s => s
  | fuel + 1, s =>
    match drainQueue s p with
    | none => s
    | some n =>
      let b := vget s.evbuf p
      match b.recs with
      | r :: rs => drain p fuel (writeRecord n r false (s.modEvbuf p fun b => { b with recs := rs }))
      | [] =>
        if b.lost = 0 then s else
        let r : EvRec := { fid := islandFid, cls := 2, holdover := holdoverFlag s, it := s.time.it,
                           payload := pl 16 b.lost.toNat }
        writeRecord n r false (s.modEvbuf p fun b => { b with lost := 0 })
def execEventBufferDrain (p : Fin 32) (s : State) : Host.Outcome State Fault Refusal :=
  doneFrom s (drain p 66 s)

/-! ### Supervision (R141, R376) -/

/-- A control cluster stops: every command it holds ends with FW_TIMEOUT, that is its COLLECTIVE commands and the
OPERATOR commands of its die (R131, R141). -/
def clusterStops (d : Fin 4) (s : State) : State :=
  let s := { s with clusterStop := s.clusterStop ||| (1#4 <<< d.val) }
  let s := s.mapDisp fun _ c =>
    if cmdDie c = some d && !c.isDone then { c with st := .done statusFwTimeout 0 (stamp s) } else c
  { s with tiles := Vector.ofFn fun n => if n.val / 16 = d.val then (vget s.tiles n).idle else vget s.tiles n }
/-- A unit is at work, so that it can fail to complete a step for 10 ms (R376). -/
def atWork (s : State) (f : Fid) : Bool :=
  let i := fidIdx f
  !isFenced s f && match fidType f with
  | 2 => (vget s.tiles ⟨i % 64, by omega⟩).jobs.any (·.started)
  | 3 => (vget s.shuttle ⟨i % 16, by omega⟩).ch.toList.any (·.running.isSome)
  | 4 => (vget s.peat ⟨i % 8, by omega⟩).eng.toList.any (·.run.isSome)
  | 13 => clusterRuns s ⟨i % 4, by omega⟩
  | _ => false
def watchdogOf (f : Fid) (s : State) : State :=
  raiseCause f 4 (if fidType f = 13 then clusterStops ⟨fidIdx f % 4, by omega⟩ s else s)
def execWatchdog (fid : Fid) (s : State) : Host.Outcome State Fault Refusal :=
  doneIf (fidOk fid && atWork s fid) s (watchdogOf fid)

end Sys2Proof.Machine
end

