-- ==== Sys2Proof/Machine/Numeric.lean ====
section
/-! DEFINITION. Element formats of the operator library, the output conversion with its exception flags (R177 to R183),
and the activation functions (R185). -/
namespace Sys2Proof.Machine

/-- Exception flags of Table 8.4, bit by bit. -/
abbrev Exc := BitVec 5
def exInvalid : Exc := 1
def exNanIn : Exc := 2
def exOverflow : Exc := 4
def exSaturated : Exc := 8
def exUnderflow : Exc := 16

/-- Element kinds. -/
inductive ElKind
  | flt (f : FFmt)
  /-- Two's complement of a width, in steps of 2^lsb. -/
  | int (w : Nat) (lsb : Int)
deriving DecidableEq, Repr

/-- A format code of Table 8.3: element kind, bits, block scale, emax of R183. -/
structure ElFmt where
  kind : ElKind
  bits : Nat
  mx : Bool
  emax : Int
deriving DecidableEq, Repr

def elFmt : Nat → Option ElFmt
  | 0x00 => some ⟨.flt fmt32, 32, false, 0⟩
  | 0x01 => some ⟨.flt fmt16, 16, false, 0⟩
  | 0x02 => some ⟨.flt fmtB16, 16, false, 0⟩
  | 0x03 => some ⟨.flt fmtE4M3, 8, false, 8⟩
  | 0x04 => some ⟨.flt fmtE5M2, 8, false, 15⟩
  | 0x05 => some ⟨.int 8 0, 8, false, 0⟩
  | 0x06 => some ⟨.int 32 0, 32, false, 0⟩
  | 0x10 => some ⟨.flt fmtE4M3, 8, true, 8⟩
  | 0x11 => some ⟨.flt fmtE5M2, 8, true, 15⟩
  | 0x12 => some ⟨.flt fmtE3M2, 6, true, 4⟩
  | 0x13 => some ⟨.flt fmtE2M3, 6, true, 2⟩
  | 0x14 => some ⟨.flt fmtE2M1, 4, true, 2⟩
  | 0x15 => some ⟨.int 8 (-6), 8, true, 0⟩
  | _ => none
/-- Bytes of a packed row (R177). -/
def ElFmt.rowBytes (f : ElFmt) (cols : Nat) : Nat := (cols * f.bits + 7) / 8
/-- Element `i` of a packed row, as bits. -/
def ElFmt.raw (f : ElFmt) (row : Nat) (i : Nat) : Nat := row / 2 ^ (f.bits * i) % 2 ^ f.bits
/-- Value of an element's bits. -/
def ElKind.value (k : ElKind) (v : Nat) : FV :=
  match k with
  | .flt f => f.unpack v
  | .int w l => .fin (Dy.ofInt (BitVec.ofNat w v).toInt l)
/-- Value of an E8M0 scale: 0xFF is NaN, else 2^(e − 127) (R177). -/
def scaleVal (b : Byte) : FV := if b = 0xFF then .nan else .fin ⟨false, 1, (b.toNat : Int) - 127⟩
/-- The values of a stored row; an MX block is scaled exactly. -/
def ElFmt.row (f : ElFmt) (bytes : List Byte) (scales : List Byte) (cols : Nat) : List FV :=
  let n := leNat bytes
  (List.range cols).map fun i =>
    let v := f.kind.value (f.raw n i)
    if f.mx then v.mulX (scaleVal (scales.getD (i / 32) 0)) else v

/-! ### Output conversion (R181 to R183) -/

/-- r of R182 for linear index i. -/
def stoRand (seed : BitVec 64) (i : Nat) : Nat :=
  let z := seed + BitVec.ofNat 64 (i + 1) * 0x9E3779B97F4A7C15#64
  let z := (z ^^^ (z >>> 30)) * 0xBF58476D1CE4E5B9#64
  let z := (z ^^^ (z >>> 27)) * 0x94D049BB133111EB#64
  (z ^^^ (z >>> 31)).toNat % 2 ^ 16
/-- RMODE for element i. -/
def rmodeOf (rm : Nat) (seed : BitVec 64) (i : Nat) : RMode :=
  match rm with
  | 0 => .rne | 1 => .rtz | 2 => .rup | 3 => .rdn | _ => .sto (stoRand seed i)
/-- One element converted to its kind's bits with the flags it sets (R181, R183). -/
def ElKind.conv (k : ElKind) (sat : Bool) (r : RMode) (v : FV) : Nat × Exc :=
  match k with
  | .flt f =>
    let maxBits := fun (neg : Bool) => f.pack ⟨neg, f.maxM, f.maxE⟩
    let overflow := fun (neg : Bool) =>
      if sat || (!f.hasInf && !f.hasNan) then (maxBits neg, exOverflow ||| exSaturated)
      else if f.hasInf then (f.bits (.inf neg), exOverflow) else (f.bits .nan, exOverflow)
    match v with
    | .nan => if f.hasNan then (f.bits .nan, 0) else (0, exInvalid)
    | .inf neg => overflow neg
    | .fin d =>
      let x := f.round r d
      if f.over x then overflow d.neg
      else (f.pack x, if x.m = 0 && d.m ≠ 0 then exUnderflow else 0)
  | .int w l =>
    let maxv : Int := 2 ^ (w - 1) - 1
    let clip := fun (neg : Bool) =>
      ((BitVec.ofInt w (if neg then -maxv else maxv)).toNat, exOverflow ||| exSaturated)
    match v with
    | .nan => (0, exInvalid)
    | .inf neg => clip neg
    | .fin d =>
      let x := d.round (w + 64) l r
      let n := (if x.neg then -(x.m : Int) else x.m) * 2 ^ (x.e - l).toNat
      if n.natAbs > maxv.natAbs then clip d.neg
      else ((BitVec.ofInt w n).toNat, if x.m = 0 && d.m ≠ 0 then exUnderflow else 0)
/-- Scale byte of an output block (R183). -/
def blockScale (emax : Int) (vs : List FV) : Byte × Exc :=
  if vs.any fun v => !v.isFin && !v.isNan then (0xFF, exInvalid)
  else if vs.any (·.isNan) then (0xFF, 0)
  else
    let amax := vs.foldl (fun (a : Dy) v => match v with | .fin d => if a.lt d.abs then d.abs else a | _ => a) Dy.zero
    if amax.m = 0 then (0, 0)
    else
      let x := max (-127) (min 127 (amax.top - emax))
      (BitVec.ofNat 8 (x + 127).toNat, 0)
def chunk32 {α : Type} : Nat → List α → List (List α)
  | 0, _ => []
  | n + 1, l => if l.isEmpty then [] else l.take 32 :: chunk32 n (l.drop 32)
/-- A row of binary32 results converted: packed bytes, scale bytes, flags. `i0` is the row's first linear index. -/
def ElFmt.convRow (f : ElFmt) (sat : Bool) (rm : Nat) (seed : BitVec 64) (i0 : Nat) (vs : List FV) :
    List Byte × List Byte × Exc :=
  let blocks := if f.mx then chunk32 vs.length vs else [vs]
  let res : List (List (Nat × Exc) × Byte × Exc) := blocks.zipIdx.map fun bk =>
    let se : Byte × Exc := if f.mx then blockScale f.emax bk.1 else (0, 0)
    let scaled : List FV := bk.1.map fun (v : FV) =>
      if f.mx then (if se.1 = 0xFF then .fin Dy.zero else v.mulX (.fin ⟨false, 1, 127 - (se.1.toNat : Int)⟩)) else v
    let out : List (Nat × Exc) := scaled.zipIdx.map fun vj =>
      f.kind.conv sat (rmodeOf rm seed (i0 + 32 * bk.2 + vj.2)) vj.1
    (out, se.1, out.foldl (fun (a : Exc) x => a ||| x.2) se.2)
  let els := res.flatMap (·.1)
  let n := els.zipIdx.foldl (fun (a : Nat) xj => a + xj.1.1 * 2 ^ (f.bits * xj.2)) 0
  (natLe (f.rowBytes vs.length) n, if f.mx then res.map (·.2.1) else [], res.foldl (fun (a : Exc) x => a ||| x.2.2) 0)

/-! ### Activations (R185) -/

/-- Function codes 0 to 6 of ACT on a binary32 value. -/
def actFn (code : Nat) (x : F32) : F32 :=
  let ref := fun (v : FV) => within2ulp [x] (BitVec.ofNat 8 code) v
  match f32v x, code with
  | .nan, _ => f32of .nan
  | _, 0 => x
  | v, 1 => if (FV.fin Dy.zero).lt v then x else 0
  | .inf n, 2 => if n then 0 else x
  | .fin d, 2 => ref (.fin (geluDy d))
  | .inf n, 3 => if n then 0 else x
  | .fin d, 3 => ref (.fin (siluDy d))
  | .inf n, 4 => f32of (.fin ⟨n, 1, 0⟩)
  | .fin d, 4 => ref (.fin (tanhDy d))
  | .inf n, 5 => if n then 0 else f32of (.fin Dy.one)
  | .fin d, 5 => ref (.fin (sigmoidDy d))
  | .inf n, _ => if n then 0 else x
  | .fin d, _ => ref (.fin (expDy d))

/-! ### Dot products (R180) -/

/-- Exact sum of the products of one block. -/
def dotBlock (xs ys : List FV) : FV := (xs.zip ys).foldl (fun a p => a.addX (p.1.mulX p.2)) (.fin Dy.zero)
/-- Block sums added in ascending order to the binary32 accumulator. -/
def dotTensor (xs ys : List FV) : F32 :=
  ((chunk32 xs.length xs).zip (chunk32 ys.length ys)).foldl
    (fun (a : F32) p => f32of ((f32v a).addX (dotBlock p.1 p.2))) 0
/-- INT8 products: block sums into an INT32 accumulator that saturates at ±(2^31 − 1); and whether it did. -/
def dotInt (xs ys : List Int) : Int × Bool :=
  ((chunk32 xs.length xs).zip (chunk32 ys.length ys)).foldl (fun (a : Int × Bool) p =>
    let t := a.1 + ((p.1.zip p.2).map fun q => q.1 * q.2).sum
    if t > 2 ^ 31 - 1 then (2 ^ 31 - 1, true) else if t < -(2 ^ 31 - 1) then (-(2 ^ 31 - 1), true) else (t, a.2)) (0, false)
/-- The vector unit's binary32 product: fused multiply-adds in ascending order (log 25). -/
def dotVector (xs ys : List F32) : F32 := (xs.zip ys).foldl (fun a p => f32fma p.1 p.2 a) 0

end Sys2Proof.Machine
end

