-- ==== Sys2Proof/Machine/Shuttle.lean ====
section
/-! DEFINITION. Shuttle channels (spec/07, 7.4): the SHUTTLE opcode, chains, descriptors, held writes, chain ends. -/
namespace Sys2Proof.Machine

def shuttleFid (g : Fin 16) : Fid := fidMk 3 g
/-- A group's accesses are engine accesses of its partition (R86, R162). -/
def shuttleUnit (g : Fin 16) (p : Fin 32) : Unit_ := { fid := shuttleFid g, part := p, side := .engine, core := false }
/-- A group runs: released, not fenced, in no reset (R380). -/
def shuttleRuns (s : State) (g : Fin 16) : Bool :=
  !(vget s.shuttle g).held && !isFenced s (shuttleFid g) && !resetting s (shuttleFid g)

/-! ### Chains (R160, R161, R164) -/

/-- The command of a chain as running. -/
def markRunning (o : Fin 64 × BitVec 16) (s : State) : State :=
  s.modQueue o.1 fun q => { q with disp := q.disp.map fun c =>
    if c.slot = o.2 && c.st = .waiting then { c with st := .running } else c }
/-- A chain whose descriptors have ended, and whose writes are all answered, ends its command and frees the channel
(R164). -/
def chainSettle (g : Fin 16) (c : Fin 8) (s : State) : State :=
  let x := s.channel g c
  match x.running with
  | some ch =>
    match ch.result with
    | some (st, d) =>
      if x.out = [] && !(s.remote.any fun r => r.1 = g && r.2.1 = c && !r.2.2.coll) then
        finishCmd ch.origin st d (s.modChannel g c fun x => { x with running := none, desc := 0 })
      else s
    | none => s
  | none => s
/-- The chain in progress ends with a status and DETAIL; the first end of a chain stands, but for a remote failure of a
chain that had ended OK. -/
def chainEnd (g : Fin 16) (c : Fin 8) (st detail : Nat) (s : State) : State :=
  s.modChannel g c fun x => { x with running := x.running.map fun ch =>
    match ch.result with
    | none => { ch with result := some (BitVec.ofNat 16 st, BitVec.ofNat 32 detail), waitPeat := none }
    | some (r, _) => if r = 0 then { ch with result := some (BitVec.ofNat 16 st, BitVec.ofNat 32 detail) } else ch }
/-- R208: REMOTE_FAIL, and the later held writes of the failing write's stream are dropped. -/
def remoteFail (g : Fin 16) (c : Fin 8) (w : NetWrite) (cause : Nat) (s : State) : State :=
  let s := s.modChannel g c fun x => { x with out := x.out.filter fun o => o.stream ≠ w.stream || decide (o.ord < w.ord) }
  chainEnd g c 0x103 (cause % 256 + 256 * min w.idx 0xFFFFFF) s
/-- SHUTTLE's descriptor chain (R161): a bad layout ends the command, else the chain waits for its channel. -/
def shuttleBegin (n : Fin 64) (k : Nat) (c : Cmd) (s : State) : State :=
  let g : Fin 16 := ⟨fidIdx c.target % 16, by omega⟩
  let b := byteAt c.bytes 32
  let ch : Fin 8 := ⟨b % 8, by omega⟩
  let a := leAt c.bytes 40 8
  let il := c.inlineLen
  let ok := if a = 0 then il = 64 ∨ il = 128 ∨ il = 192 else a % 64 = 0 ∧ il = 0
  if 8 ≤ b ∨ !zeroAt c.bytes 33 7 ∨ !ok then endCmd n k 0x100 0 s else
  let ds := if a = 0 then (List.range (il / 64)).map fun i => slice c.inline (64 * i) 64 else []
  let chain : Chain := { origin := (n, c.slot), inline := ds, next := if a = 0 then none else some a }
  setCmd n k .waiting (s.modChannel g ch fun x => { x with waiting := x.waiting ++ [chain] })
def execShuttle (n : Fin 64) (k : Nat) (s : State) : Host.Outcome State Fault Refusal :=
  match beginCmd s n k 0x20 with
  | none => .next s
  | some c => done (shuttleBegin n k c s)
/-- The first waiting chain of a free channel starts (R160). -/
def execShuttleChainStart (g : Fin 16) (c : Fin 8) (s : State) : Host.Outcome State Fault Refusal :=
  match (s.channel g c).waiting with
  | [] => .next s
  | ch :: rest => doneIf ((s.channel g c).running.isNone && shuttleRuns s g && s.island.mode = .full) s fun s =>
      markRunning ch.origin (s.modChannel g c fun x => { x with running := some ch, waiting := rest })

/-! ### Writes of a channel (R156, R157, R159) -/

/-- The byte that an address names: an aperture address names a byte of its stack (Table 7.4). -/
def byteNamed (a : Nat) : Nat := match addrClass a with | .peat k => a - apertureBase k + stackBase k | _ => a
/-- Two writes touch one aligned 8-byte word of one chip, over the fabric or not (R157, R208). -/
def sameWord (a b : NetWrite) : Bool :=
  let x := byteNamed a.addr
  let y := byteNamed b.addr
  a.dst = b.dst && decide (0 < a.data.length) && decide (0 < b.data.length) &&
  decide (x / 8 ≤ (y + b.data.length - 1) / 8) && decide (y / 8 ≤ (x + a.data.length - 1) / 8)
/-- A write may go: a FINAL once every earlier write of its stream has landed; any other once no earlier held write of its
stream touches one of its words, and, over the fabric, R204 allows; one of this chip's own space waits for a write to the
same word that went over the fabric to this chip and has not landed (R208). `out` are the channel's held writes. -/
def mayIssue (s : State) (g : Fin 16) (c : Fin 8) (out : List NetWrite) (w : NetWrite) : Bool :=
  let earlier := out.filter fun o => o.stream = w.stream && decide (o.ord < w.ord)
  if w.final then
    earlier.isEmpty && ((outstanding s g c false w.stream).all fun o => decide (w.ord < o.ord)) &&
    !(w.remote && routeChanged s g c w)
  else earlier.all (fun o => !sameWord o w) &&
    (if w.remote then !routeChanged s g c w else (outstanding s g c false w.stream).all fun o => !sameWord o w)
/-- One write is performed or sent; a failing local one ends the chain. -/
def issueWrite (g : Fin 16) (c : Fin 8) (w : NetWrite) (s : State) : State :=
  if w.remote then sendWrite g c w s else
  let u := shuttleUnit g w.part
  if addrClass w.addr = .reg then
    chainEnd g c 4 (w.addr % 2 ^ 32) (accessError u.fid true 6 w.addr s)
  else
  match rangeWrite u w.addr w.data s with
  | (.ok _, _, s) => s
  | (.err e, b, s) => chainEnd g c 4 (b % 2 ^ 32) (accessError u.fid true e b s)
  | (.poison, b, s) => chainEnd g c 8 (b % 2 ^ 32) (poisonHit u.fid s)
/-- A new write of a channel: issued, or held in its channel. -/
def channelWrite (g : Fin 16) (c : Fin 8) (w : NetWrite) (s : State) : State :=
  let x := s.channel g c
  let w := { w with ord := x.ord }
  let s := s.modChannel g c fun x => { x with ord := x.ord + 1 }
  if mayIssue s g c x.out w then issueWrite g c w s else s.modChannel g c fun x => { x with out := x.out ++ [w] }
/-- The first held write that satisfies `f` and may go is issued. -/
def releaseOne (g : Fin 16) (c : Fin 8) (f : NetWrite → Bool) (s : State) : State :=
  let x := s.channel g c
  match x.out.find? fun w => f w && mayIssue s g c x.out w with
  | none => s
  | some w => issueWrite g c w (s.modChannel g c fun x => { x with out := x.out.erase w })
/-- Every held write but a FINAL that may go is issued, in order. -/
def releasePlain (g : Fin 16) (c : Fin 8) (s : State) : State :=
  ((s.channel g c).out).foldl (fun s _ => releaseOne g c (fun w => !w.final) s) s
/-- Every earlier write of its stream has landed: the held FINAL is issued (R157, R159), and with it what waited behind
it. -/
def execFinalWriteRelease (g : Fin 16) (c : Fin 8) (s : State) : Host.Outcome State Fault Refusal :=
  let x := s.channel g c
  doneIf (shuttleRuns s g && x.out.any fun w => w.final && mayIssue s g c x.out w) s fun s =>
    chainSettle g c (releasePlain g c (releaseOne g c (·.final) s))

/-! ### Descriptors (Table 7.2, R162, R163) -/

/-- A descriptor's fields. -/
structure SDesc where
  ctrl : Nat
  stream : BitVec 8
  len : Nat
  src : Nat
  dst : Nat
  dchip : Nat
  peatEng : Fin 32
  peatStack : Fin 8
  rows : Nat
  sstride : Nat
  dstride : Nat
  next : Nat
  reserved : Bool
def sdesc (d : List Byte) : SDesc :=
  let ctrl := leAt d 0 2
  let pw := byteAt d 26
  { ctrl := ctrl, stream := BitVec.ofNat 8 (byteAt d 2), len := leAt d 4 4, src := leAt d 8 8, dst := leAt d 16 8,
    dchip := leAt d 24 2, peatEng := ⟨pw % 32, by omega⟩, peatStack := ⟨pw / 32 % 8, by omega⟩,
    rows := max 1 (leAt d 28 4), sstride := leAt d 32 8, dstride := leAt d 40 8, next := leAt d 48 8,
    reserved := decide (32 ≤ ctrl) || !zeroAt d 3 1 || !zeroAt d 27 1 || !zeroAt d 56 8 ||
      (bitOf ctrl 2 && decide (4096 ≤ leAt d 24 2)) }
def SDesc.final (d : SDesc) : Bool := bitOf d.ctrl 0
def SDesc.fence (d : SDesc) : Bool := bitOf d.ctrl 1
def SDesc.remote (d : SDesc) : Bool := bitOf d.ctrl 2
def SDesc.waitPeat (d : SDesc) : Bool := bitOf d.ctrl 3
def SDesc.last (d : SDesc) : Bool := bitOf d.ctrl 4
/-- The next descriptor of a chain: its 64 bytes, or why it cannot be read. -/
def fetchDesc (g : Fin 16) (p : Fin 32) (ch : Chain) (s : State) : AccRes × Nat × State :=
  match ch.inline, ch.next with
  | d :: _, _ => (.ok d, 0, s)
  | [], some a =>
    (match addrClass a with
    | .reg => (.err 6, a, s)
    | .peat _ => (.err 6, a, s)
    | _ => rangeRead (shuttleUnit g p) a 64 s)
  | [], none => (.ok [], 0, s)
/-- BAD_DESC (Table 7.3); NEXT matters where the chain continues from it. -/
def SDesc.bad (d : SDesc) (usesNext : Bool) : Bool :=
  d.reserved || d.len = 0 || decide (0x40000000 < d.len) || (usesNext && decide (d.next % 64 ≠ 0))
/-- BAD_FINAL (R162). -/
def SDesc.badFinal (d : SDesc) : Bool := d.final && (d.len ≠ 8 || d.rows ≠ 1 || decide (d.dst % 8 ≠ 0))
/-- The WRITE packets of a remote row: cut at 8-byte boundaries, at most 208 bytes (R206). -/
def packetsOf : Nat → Nat → Nat → List (Nat × Nat)
  | 0, _, _ => []
  | _, _, 0 => []
  | fuel + 1, a, n =>
    let m := min n ((a + 208) / 8 * 8 - a)
    (a, m) :: packetsOf fuel (a + m) (n - m)
/-- Whether the chain has ended. -/
def chainEnded (s : State) (g : Fin 16) (c : Fin 8) : Bool :=
  match (s.channel g c).running with
  | some ch => ch.result.isSome
  | none => true
/-- One row of a descriptor: read, then written or sent. -/
def shuttleRow (g : Fin 16) (c : Fin 8) (p : Fin 32) (d : SDesc) (idx : Nat) (i : Nat) (s : State) : State :=
  if chainEnded s g c then s else
  let src := (d.src + i * d.sstride) % 2 ^ 64
  let dst := (d.dst + i * d.dstride) % 2 ^ 64
  let u := shuttleUnit g p
  let r : AccRes × Nat × State := match addrClass src with
    | .reg => (.err 6, src, s)
    | .peat _ => (.err 6, src, s)
    | _ => rangeRead u src d.len s
  match r with
  | (.ok bs, _, s) =>
    let w : NetWrite := { remote := d.remote, dst := if d.remote then BitVec.ofNat 12 d.dchip else chipId s, part := p,
                          addr := dst, data := bs, stream := d.stream, final := d.final, idx := idx }
    if d.remote && decide (2 ^ 44 ≤ dst + d.len) then
      chainEnd g c 4 (dst % 2 ^ 32) (accessError u.fid true 4 dst s)
    else if d.remote then
      (packetsOf (d.len + 1) dst d.len).foldl (fun s q =>
        channelWrite g c { w with addr := q.1, data := (bs.drop (q.1 - dst)).take q.2 } s) s
    else channelWrite g c w s
  | (.err e, b, s) => chainEnd g c 4 (b % 2 ^ 32) (accessError u.fid false e b s)
  | (.poison, b, s) => chainEnd g c 8 (b % 2 ^ 32) (poisonHit u.fid s)
/-- A channel's next descriptor (R163): CHAIN_LIMIT, its own checks, then its rows. WAITPEAT holds it while the engine is
not READY, FENCE while writes of the chain are outstanding. -/
def shuttleDesc (g : Fin 16) (c : Fin 8) (p : Fin 32) (ch : Chain) (s : State) : State :=
  if 65536 ≤ ch.done then chainEnd g c 0x102 ch.done s else
  match fetchDesc g p ch s with
  | (.err e, b, s) => chainEnd g c 4 (b % 2 ^ 32) (accessError (shuttleFid g) false e b s)
  | (.poison, b, s) => chainEnd g c 8 (b % 2 ^ 32) (poisonHit (shuttleFid g) s)
  | (.ok raw, _, s) =>
    let d := sdesc raw
    let s := s.modChannel g c fun x => { x with
      desc := match ch.inline with | [] => BitVec.ofNat 44 (ch.next.getD 0) | _ => 0 }
    let usesNext := !d.last && decide (ch.inline.length ≤ 1)
    if d.bad usesNext then chainEnd g c 0x100 ch.done s
    else if d.badFinal then chainEnd g c 0x101 ch.done s
    else if d.waitPeat && !(s.eng d.peatStack d.peatEng).ready then
      s.modChannel g c fun x => { x with running := some { ch with waitPeat := some (d.peatStack, d.peatEng) } }
    else if d.fence && ((s.channel g c).out ≠ [] || s.remote.any fun r => r.1 = g && r.2.1 = c && !r.2.2.coll) then s
    else
      let s := s.modChannel g c fun x => { x with running := some { ch with waitPeat := none } }
      let s := (List.range d.rows).foldl (fun s i => shuttleRow g c p d ch.done i s) s
      if chainEnded s g c then s else
      let next := if d.last then none else if ch.inline.length ≤ 1 then some d.next else none
      let s := s.modChannel g c fun x => { x with
        running := some { ch with inline := ch.inline.drop 1, next := next, done := ch.done + 1, waitPeat := none } }
      if d.last then chainEnd g c 0 (ch.done + 1) s else s
def execShuttleDescriptor (g : Fin 16) (c : Fin 8) (s : State) : Host.Outcome State Fault Refusal :=
  match (s.channel g c).running, partOf s (shuttleFid g) with
  | some ch, some p => doneIf (ch.result.isNone && shuttleRuns s g) s fun s => chainSettle g c (shuttleDesc g c p ch s)
  | _, _ => .next s
/-- The engine that a running chain waits for, not READY (R163). -/
def peatAwaited (s : State) (g : Fin 16) (c : Fin 8) : Option Chain :=
  match (s.channel g c).running with
  | some ch => match ch.waitPeat with
    | some (k, j) => if !(s.eng k j).ready && ch.result.isNone then some ch else none
    | none => none
  | none => none
/-- READY stays 0 for 10 ms: PEAT_WAIT (R163). -/
def execWaitpeatTimeout (g : Fin 16) (c : Fin 8) (s : State) : Host.Outcome State Fault Refusal :=
  match peatAwaited s g c with
  | some ch => done (chainSettle g c (chainEnd g c 0x104 ch.done s))
  | none => .next s

end Sys2Proof.Machine
end

