-- ==== Sys2Proof/Machine/PeatOps.lean ====
section
/-! DEFINITION. What Peat operations compute (R170, R171, R218 to R220), and claims (R166). -/
namespace Sys2Proof.Machine

/-! ### The parameter block (Table 10.1, R218) -/

structure Param where
  alg : Nat
  zg : Bool
  sfmt : Nat
  lr : F32
  b1 : F32
  b2 : F32
  eps : F32
  wd : F32
  bc1 : F32
  bc2 : F32
  gscale : F32
  clip : F32
  gbase : Nat
  mbase : Nat
  vbase : Nat
  sbase : Nat
  sscale : Nat
def paramOf (b : List Byte) : Param :=
  let w := fun o => BitVec.ofNat 32 (leAt b o 4)
  { alg := byteAt b 0, zg := bitOf (byteAt b 1) 0, sfmt := byteAt b 2, lr := w 4, b1 := w 8, b2 := w 12, eps := w 16,
    wd := w 20, bc1 := w 24, bc2 := w 28, gscale := w 32, clip := w 36, gbase := leAt b 40 8, mbase := leAt b 48 8,
    vbase := leAt b 56 8, sbase := leAt b 64 8, sscale := leAt b 72 8 }
/-- Bytes of an element of the short format (R216). -/
def shortBytes (sfmt : Nat) : Nat := if sfmt = 2 then 1 else 2
/-- A range of stack k. -/
def inStack (k : Fin 8) (a n : Nat) : Bool := decide (stackBase k ≤ a) && decide (a + n ≤ stackBase k + 0x600000000)
/-- An array alongside the masters: an offset that is a multiple of 0x2000, within the stack (R218). -/
def arrayOk (k : Fin 8) (base obase len : Nat) : Bool := base % 0x2000 = obase % 0x2000 && inStack k base len
/-- R218: the operation's CODE is PARAM unless this holds. -/
def paramOk (k : Fin 8) (r : PeatRun) : Bool :=
  let p := paramOf r.pblk
  r.pblk ≠ [] && decide (p.alg ≤ 1) && decide (p.sfmt ≤ 2) &&
  arrayOk k p.gbase r.base r.len && arrayOk k p.mbase r.base r.len && (p.alg = 0 || arrayOk k p.vbase r.base r.len) &&
  inStack k p.sbase (r.len / 4 * shortBytes p.sfmt) && (p.sfmt ≠ 2 || inStack k p.sscale (r.len / 128))

/-! ### Granules and elements (R81, R170) -/

/-- Granules of engine j in a range. -/
def granules (j : Fin 32) (base len : Nat) : List Nat :=
  ((List.range (len / 256)).map fun i => base + 256 * i).filter fun a => a / 256 % 32 = j.val
def rd32 (s : State) (a : Nat) : F32 := BitVec.ofNat 32 (rdLe s a 4)
def wr32 (s : State) (a : Nat) (v : F32) : State := putRaw s a (natLe 4 v.toNat)
/-- min(max(g, −CLIP), CLIP) where CLIP > 0 (R219). -/
def clipTo (clip g : F32) : F32 :=
  if (f32v 0).lt (f32v clip) then
    let g := if (f32v g).lt (f32v (f32neg clip)) then f32neg clip else g
    if (f32v clip).lt (f32v g) then clip else g
  else g
/-- One element of OPT_STEP: masters at `a`; the state, and the count of skipped elements (R219). -/
def optElem (p : Param) (base : Nat) (a : Nat) (sn : State × Nat) : State × Nat :=
  let s := sn.1
  let ga := p.gbase + (a - base)
  let ma := p.mbase + (a - base)
  let va := p.vbase + (a - base)
  let g := f32mul (rd32 s ga) p.gscale
  let zero := fun (s : State) => if p.zg then wr32 s ga 0 else s
  if !f32fin g then (zero s, sn.2 + 1) else
  let g := clipTo p.clip g
  let w := rd32 s a
  if p.alg = 0 then
    let m := f32add (f32mul p.b1 (rd32 s ma)) g
    let w := f32sub w (f32mul p.lr (f32add m (f32mul p.wd w)))
    (zero (wr32 (wr32 s ma m) a w), sn.2)
  else
    let one : F32 := 0x3F800000
    let m := f32add (f32mul p.b1 (rd32 s ma)) (f32mul (f32sub one p.b1) g)
    let v := f32add (f32mul p.b2 (rd32 s va)) (f32mul (f32mul (f32sub one p.b2) g) g)
    let w := f32sub w (f32mul p.lr (f32add (f32div (f32mul m p.bc1) (f32add (f32sqrt (f32mul v p.bc2)) p.eps))
      (f32mul p.wd w)))
    (zero (wr32 (wr32 (wr32 s ma m) va v) a w), sn.2)
/-- OPT_STEP over an engine's granules; NONFIN_j takes the count of skipped elements (Table 10.1). -/
def optStep (j : Fin 32) (r : PeatRun) (s : State) : State :=
  let p := paramOf r.pblk
  let els := (granules j r.base r.len).flatMap fun a => (List.range 64).map fun i => a + 4 * i
  let x := els.foldl (fun sn a => optElem p r.base a sn) (s, 0)
  putRaw x.1 (r.par + 128 + 8 * j) (natLe 8 x.2)
/-- Library format of a short format (Table 10.1). -/
def shortFmt (sfmt : Nat) : ElFmt :=
  match sfmt with
  | 0 => ⟨.flt fmtB16, 16, false, 0⟩
  | 1 => ⟨.flt fmt16, 16, false, 0⟩
  | _ => ⟨.flt fmtE4M3, 8, true, 8⟩
/-- CAST of one block of 32 masters at `a` (R220). -/
def castBlock (p : Param) (base : Nat) (a : Nat) (s : State) : State :=
  let i := (a - base) / 4
  let vs := (List.range 32).map fun q => f32v (rd32 s (a + 4 * q))
  let r := (shortFmt p.sfmt).convRow true 0 0 0 vs
  let s := putRaw s (p.sbase + i * shortBytes p.sfmt) r.1
  if p.sfmt = 2 then putRaw s (p.sscale + i / 32) r.2.1 else s
def castRange (j : Fin 32) (r : PeatRun) (s : State) : State :=
  let p := paramOf r.pblk
  ((granules j r.base r.len).flatMap fun a => [a, a + 128]).foldl (fun s a => castBlock p r.base a s) s
def zeroRange (j : Fin 32) (r : PeatRun) (s : State) : State :=
  (granules j r.base r.len).foldl (fun s a => wrBytes s a (List.replicate 256 0)) s
/-- A granule that an operation reads is poisoned (CODE POISON). -/
def rangePoisoned (s : State) (j : Fin 32) (r : PeatRun) : Bool :=
  let p := paramOf r.pblk
  poisoned s r.par 128 || (granules j r.base r.len).any fun a =>
    poisoned s a 256 ||
    (r.opc = 3 && (poisoned s (p.gbase + (a - r.base)) 256 || poisoned s (p.mbase + (a - r.base)) 256 ||
      (p.alg = 1 && poisoned s (p.vbase + (a - r.base)) 256)))

/-! ### Claims (R166) -/

/-- An engine as a release by a reset or reload leaves it: unclaimed, DIRECT, its operation ended with ABORTED. -/
def PeatEngine.released (e : PeatEngine) : PeatEngine :=
  let e := match e.run with | some r => e.result r.tag 5 | none => e
  { e with claimed := false, owner := 0, accum := false, run := none, modePending := none }
/-- Every claim of a partition on a stack is released. -/
def releaseClaims (k : Fin 8) (f : PeatEngine → Bool) (s : State) : State :=
  { s with peat := vmod s.peat k fun st => { st with eng := st.eng.map fun e => if f e then e.released else e } }
/-- All engines of a stack claimed by a partition (R217). -/
def allClaimed (s : State) (k : Fin 8) (p : Fin 32) : Bool := (vget s.peat k).eng.toList.all (·.owns p)

end Sys2Proof.Machine
end

