-- ==== Sys2Proof/Machine/Store.lean ====
section
/-! DEFINITION. The non-volatile store (18.7): what a journal entry changes, a power loss within one, recovery at start
step 1 (Table 18.9), and the firmware copy to run (R404). -/
namespace Sys2Proof.Machine

/-- Item of Table 18.6 that a write changes. -/
def JWrite.item : JWrite → Nat
  | .block _ => 0 | .training _ => 1 | .trim _ => 2 | .log _ => 3 | .slot s _ => 4 + s | .slotData s _ _ => 4 + s
  | .fw c _ => 6 + c
/-- The 64 bytes of a fault log entry (Table 18.8). -/
def LogEntry.bytes (e : LogEntry) : List Byte :=
  let b := natLe 8 e.it.toNat ++ natLe 4 e.lseq.toNat ++ natLe 2 e.fid.toNat ++ natLe 1 e.kind.toNat ++
    natLe 1 e.cls.toNat ++ natLe 2 e.cause.toNat ++ natLe 1 e.bit.toNat ++ natLe 1 e.part.toNat ++ natLe 4 e.hours.toNat ++
    natLe 32 e.detail.toNat ++ natLe 4 0
  b ++ natLe 4 (crc32 b).toNat
/-- The 16 bytes of a trim record (Table 18.6). -/
def TrimRec.bytes (r : TrimRec) : List Byte :=
  let b := natLe 1 r.domain ++ natLe 1 r.trim.toNat ++ natLe 2 0 ++ natLe 4 r.hours.toNat ++ natLe 4 r.d.toNat
  b ++ natLe 4 (crc32 b).toNat
/-- The data of a write; none for the items whose bytes the manual does not lay out. -/
def JWrite.data : JWrite → Option (List Byte)
  | .block _ | .training _ => none
  | .trim r => some r.bytes
  | .log e => some e.bytes
  | .slot _ (.valid img _) => some img
  | .slotData _ _ d => some d
  | .fw _ (.valid _ b) => some b
  | .slot _ .empty | .fw _ .empty => some []
/-- Bytes that a write writes (R408, R410). -/
def JWrite.len (w : JWrite) : Nat :=
  match w with
  | .block _ => 64
  | .training _ => 65536
  | w => (w.data.getD []).length
/-- Where in its item the data goes: the copy not in effect, the next ring position, a place in the slot (R408). -/
def Store.place (t : Store) : JWrite → BitVec 8 × Nat
  | .block _ => (if t.copies.getLsbD 0 then 0 else 1, 0)
  | .training _ => (if t.copies.getLsbD 1 then 0 else 1, 0)
  | .trim _ => (0, 16 * t.trimNext.toNat)
  | .log e => (0, 64 * ((e.lseq - 1).toNat % 512))
  | .slotData _ off _ => (0, off.toNat)
  | .slot _ _ | .fw _ _ => (0, 0)
/-- The journal entry that carries a write, as far as its steps came (Table 18.7). -/
def Store.entry (t : Store) (it : Time) (w : JWrite) (committed released : Bool) : JEntry :=
  { jseq := t.jseq + 1, item := BitVec.ofNat 8 w.item, copy := (t.place w).1, len := BitVec.ofNat 32 w.len
    offset := BitVec.ofNat 32 (t.place w).2
    dcrc := match w.data with | some b => crc32 b | none => Config.itemCrc (t.jseq + 1)
    it := it, committed := committed, released := released }
/-- The 64 bytes of an entry (Table 18.7). -/
def JEntry.bytes (e : JEntry) : List Byte :=
  let b := natLe 8 e.jseq.toNat ++ natLe 1 e.item.toNat ++ natLe 1 e.copy.toNat ++ natLe 2 0 ++ natLe 4 e.len.toNat ++
    natLe 4 e.offset.toNat ++ natLe 4 e.dcrc.toNat ++ natLe 8 e.it.toNat ++ natLe 12 0
  b ++ natLe 4 (crc32 b).toNat ++ natLe 8 (if e.committed then (~~~e.jseq).toNat else 0) ++
    natLe 8 (if e.released then e.jseq.toNat else 0)
/-- An entry into the ring of 2,048. -/
def Store.logged (t : Store) (e : JEntry) : Store := { t with jseq := e.jseq, journal := (e :: t.journal).take 2048 }
def Store.setSlot (t : Store) (i : Fin 2) (v : Slot) : Store := if i = 0 then { t with slotA := v } else { t with slotB := v }
def Store.getSlot (t : Store) (i : Fin 2) : Slot := if i = 0 then t.slotA else t.slotB
def Store.setFw (t : Store) (i : Fin 2) (v : FwCopy) : Store := if i = 0 then { t with fw0 := v } else { t with fw1 := v }
def Store.getFw (t : Store) (i : Fin 2) : FwCopy := if i = 0 then t.fw0 else t.fw1
/-- A released entry: the new data is in effect (R408). -/
def Store.release (t : Store) : JWrite → Store
  | .block b => { t with block := b, copies := t.copies ^^^ 1 }
  | .training r => { t with training := some r, copies := t.copies ^^^ 2 }
  | .trim r => { t with trims := (r :: t.trims).take 4096, trimNext := t.trimNext + 1 }
  | .log e => { t with log := (e :: t.log).take 512, logSeq := e.lseq }
  | .slot i v => t.setSlot i v
  | .slotData i _ _ => t.setSlot i .empty
  | .fw c v => t.setFw c v
/-- One write performed: its entry with its four steps done, and its data in effect (R408). -/
def Store.perform (it : Time) (t : Store) (w : JWrite) : Store := (t.release w).logged (t.entry it w true true)
/-- An entry at its turn: stage, data, commit, release (R408, R410). -/
def journalEntry (s : State) : State :=
  match s.store.queue with
  | [] => s
  | w :: q => s.modStore fun t => { t.perform (islandTime s) w with queue := q }
/-- Every requested write performed in its order: step 1 of a start is complete only once its marker is written (R59, R71,
R410). -/
def journalFlush (s : State) : State :=
  s.modStore fun t => t.queue.foldl (Store.perform (islandTime s)) { t with queue := [] }
def execJournalEntry (s : State) : Host.Outcome State Fault Refusal :=
  doneIf (s.island.vaon && !s.store.queue.isEmpty) s journalEntry

/-! ### Power loss and recovery (R407, R409, Table 18.9) -/

/-- VAON is lost: the entry in progress stays as far as it came, one still in its stage being no entry (Table 18.9); later
requests are gone. -/
def Store.powerLoss (t : Store) (it : Time) (at_ : LossPoint) : Store :=
  match t.queue with
  | [] => t
  | w :: _ =>
    let u := { t with lost := some (w, at_), queue := [] }
    match at_ with
    | .stage => u
    | .data => u.logged (t.entry it w false false)
    | .committed => u.logged (t.entry it w true false)
    | .released => u.logged (t.entry it w true true)
/-- What remains of an update lost in its data step: a slot or firmware copy reads empty. -/
def Store.dataLost (t : Store) : JWrite → Store
  | .slot i _ | .slotData i _ _ => t.setSlot i .empty
  | .fw c _ => t.setFw c .empty
  | _ => t
/-- An item whose two pointer-word copies are damaged reads empty. -/
def Store.itemEmpty (t : Store) : Nat → Store
  | 0 => { t with block := {} }
  | 1 => { t with training := none }
  | 2 => { t with trims := [] }
  | 3 => { t with log := [], logSeq := 0 }
  | 4 => { t with slotA := .empty }
  | 5 => { t with slotB := .empty }
  | 6 => { t with fw0 := .empty }
  | _ => { t with fw1 := .empty }
/-- The newest entry judged: the store after it, its outcome (RECOV). -/
def judgeEntry (t : Store) (d : StoreDamage) : Store × Nat :=
  match t.lost with
  | none => (t, 0)
  | some (w, .stage) => let _ := w; (t, 0)
  | some (w, .data) => (t.dataLost w, 2)
  | some (w, .committed) => if d.dcrcFails then (t.dataLost w, 3) else (t.release w, 1)
  | some (w, .released) => (t.release w, 0)
/-- Outcome of an item at recovery: the entry's, or 3 where a copy of its words is damaged. -/
def itemOutcome (t : Store) (d : StoreDamage) (i : Nat) : Nat :=
  let e := match t.lost with | some (w, _) => if w.item = i then (judgeEntry t d).2 else 0 | none => 0
  if d.ptr0.getLsbD i || d.ptr1.getLsbD i || (i = 0 && (d.state0 || d.state1)) then 3 else e
/-- The entry by which recovery settles an item: its release names the state found in effect, with no data (R409). -/
def Store.settled (it : Time) (t : Store) (i : Nat) : Store :=
  t.logged { jseq := t.jseq + 1, item := BitVec.ofNat 8 i, copy := 0, len := 0, offset := 0, dcrc := crc32 [], it := it
             committed := true, released := true }
/-- The item whose committed entry recovery releases. -/
def releasedItem (t : Store) (d : StoreDamage) : Option Nat :=
  match t.lost with
  | some (w, .committed) => if d.dcrcFails then none else some w.item
  | _ => none
/-- Recovery at start step 1: items judged, damaged copies rewritten, the outcome in NVS_STAT (R409). A committed entry is
released; every other item whose outcome is not 0 is settled by one entry. -/
def Store.recover (t : Store) (d : StoreDamage) (it : Time := 0) : Store :=
  let outs := (List.range 8).map fun i => itemOutcome t d i
  let r := (judgeEntry t d).1
  let r := (List.range 8).foldl (fun r i => if d.ptr0.getLsbD i && d.ptr1.getLsbD i then r.itemEmpty i else r) r
  let r := if d.state0 && d.state1 then { r with block := {} } else r
  let r := match releasedItem t d with
    | some _ => { r with journal := r.journal.modify 0 fun e => { e with released := true } }
    | none => r
  let open_ := (List.range 8).filter fun i => outs.getD i 0 ≠ 0 && releasedItem t d ≠ some i
  { open_.foldl (Store.settled it) r with
    lost := none, logNext := if t.queue.isEmpty then r.logSeq else r.logNext
    work := if t.queue.isEmpty then r.block else r.work
    recov := BitVec.ofNat 2 (outs.foldl max 0)
    items := BitVec.ofNat 8 ((List.range 8).foldl (fun a i => if itemOutcome t d i ≠ 0 then a + 2 ^ i else a) 0) }

/-! ### Firmware (R404) -/

def FwCopy.version : FwCopy → Option (BitVec 64)
  | .empty => none
  | .valid v _ => some v
/-- The layout of a firmware image (R404). -/
def fwForm (b : List Byte) : Bool :=
  leAt b 0 4 = 0x49574657 && leAt b 4 4 = b.length && b.length % 8 = 0 && decide (160 ≤ b.length) &&
  decide (b.length ≤ 262144) && zeroAt b 16 48
/-- Its signature under Clamowin's firmware key (R404). -/
def fwSigned (b : List Byte) : Bool :=
  let n := b.length
  ecdsaOk Config.fwKey (b.take (n - 96)) (beNat (slice b (n - 96) 48)) (beNat (slice b (n - 48) 48))
/-- VERSION of a copy that passes its verification as it is loaded (R141, R404). The copy as shipped, whose bytes the model
does not hold, passes (R452; log 8). -/
def FwCopy.verified : FwCopy → Option (BitVec 64)
  | .empty => none
  | .valid v b => if b = [] || (fwForm b && fwSigned b) then some v else none
/-- The copy that is loaded: the one with the higher VERSION, copy 0 of two equals; the other where it fails its
verification. -/
def fwChoice (t : Store) : Option (Fin 2 × BitVec 64) :=
  match t.fw0.verified, t.fw1.verified with
  | some a, some b => if a < b then some (1, b) else some (0, a)
  | some a, none => some (0, a)
  | none, some b => some (1, b)
  | none, none => none
/-- The island loads the firmware of a control cluster (R141, R404). -/
def loadFirmware (s : State) : State :=
  match fwChoice s.store with
  | some (c, v) => { s with fwver := v, island := { s.island with fwRun := some c } }
  | none => s

end Sys2Proof.Machine
end

