-- ==== Sys2Proof/Machine/Resets.lean ====
section
/-! DEFINITION. Detected faults, clears, reopening a partition, reset and release by FID (17.2 to 17.6), freeze (17.7). -/
namespace Sys2Proof.Machine

/-! ### Power of functions (Table 3.1) -/

/-- The enable of the rail that supplies a function; none for the island, on VAON. -/
def railOf (f : Fid) : Option Nat :=
  match fidType f with
  | 0 => none
  | 1 => some 4
  | 2 => some (5 + fidIdx f / 16 % 4)
  | 3 => some (5 + fidIdx f / 4 % 4)
  | 4 => some 10
  | 5 => some 12
  | 13 => some (5 + fidIdx f % 4)
  | 14 => some 9
  | _ => some 0
/-- Whether a function has power; in servo-only mode the display and PCIe have none (R55). -/
def powered (s : State) (f : Fid) : Bool :=
  s.island.vaon && (match railOf f with | some n => s.island.good.getLsbD n | none => true) &&
  !((fidType f = 11 || fidType f = 12) && s.island.mode = .servoOnly) && (fidType f ≠ 4 || stackUp s)

/-! ### Reset by FID (R386, R387, Table 17.7) -/

/-- The state that an axis has when nothing runs it: HELD, SAFE while in the fault state, else DISABLED (Table 11.3). -/
def axisHome (s : State) (a : Fin 32) : AxState :=
  let x := vget s.axes a
  if (partOf s (axFid a)).isNone || x.rec_.isNone || (vget s.trd (axEngine a)).held then .held
  else if faulted s (axFid a) then .safe else .disabled
def axisGoHome (cause : Nat) (a : Fin 32) (s : State) : State := axisTo a (axisHome s a) cause 0 0 s
/-- Reset vector of a core: the first region entry of TYPE 0 that its partition may fetch from (R116). -/
def coreVector (s : State) (n : Fin 48) : Option (BitVec 64) :=
  match partOf s (fidMk 1 n) with
  | none => none
  | some p => (s.rat.entries.toList.find? fun e =>
      e.valid && e.access.getLsbD p && e.type = 0 && e.attr.getLsbD 3 && e.attr.getLsbD 4).map fun e =>
        BitVec.ofNat 64 (e.base.toNat * 4096)
/-- Dirty lines of a core whose data is uncorrectable when a reset writes them back: which ones is open (log 6). -/
def lostLines (n : Fin 48) (s : State) : List Nat := (vget s.cores n).dirty.filter fun k => Config.dirtyLost n k s.free
/-- R118: the core stops, its dirty lines are written back, an uncorrectable one as poisoned, its caches, CSRs and
interrupt files are reset, and it is held. -/
def coreReset (n : Fin 48) (s : State) : State :=
  { s with poison := (lostLines n s).foldl (fun l k => insertNat k l) s.poison, free := s.free + 1 }.modCore n
    fun c => { released := c.released, pc := c.pc, x := c.x, f := c.f, v := c.v }
/-- The fields of Table 11.8 and AXS_CONFLICT at their reset values, the path queue flushed (R271). -/
def axisClear (x : Axis) : Axis :=
  { rec_ := x.rec_, laws := x.laws, st := x.st, aligned := x.aligned, taken := x.taken, phase := x.phase,
    lastTick := x.lastTick, fbPos := x.fbPos, fbVel := x.fbVel, velPos := x.velPos, iq := x.iq, image := x.image,
    safeHold := x.safeHold, stepDir := x.stepDir, steps := x.steps, duty := x.duty, share := x.share }
/-- A compare output's position before the next update: that of a source restarted from 0 (R310, R311). -/
def Cmp.restart (c : Fin 40) (good : Bool) (m : Cmp) : Cmp :=
  if m.src.toNat = c.val then { m with prev := if good then some 0 else none } else m
/-- R310: count 0, faults but CABLE clear, result groups at reset; BAD until R305 makes it GOOD. -/
def fbkReset (c : Fin 40) (s : State) : State :=
  let x := vget s.fbk c
  let s := { s with cc := { s.cc with cmp := s.cc.cmp.map (Cmp.restart c (!x.held && (x.mode = 1 || x.mode = 2 || x.mode = 3))) } }
  s.modFbk c fun x => { x with
    count := 0, badFault := false, qerr := false, amp := false, ospeed := false, frame := false, ign := 0,
    good := !x.held && (x.mode = 1 || x.mode = 2 || x.mode = 3), badSince := s.time.it, goodRun := 0, periods := 0,
    fine := 0, rawFine := 0, hasPair := false, a2 := 0, ssiRun := none, ssiPrev := none, otag := {}, ogood := false,
    opos := 0, oang := 0, oa2 := 0, itag := {}, ipos := 0, iit := 0 }
/-- The message objects that mappings set (R322). -/
def mappedObjs (maps : List (CanMap × BitVec 32)) : Vector MsgObj 64 :=
  Vector.ofFn fun j => match maps.find? fun m => m.1.obj = j with
    | some m => { cfg := if m.2.getLsbD 31 then 5 else 1, id := m.2.setWidth 29, mapped := true }
    | none => {}
/-- R334: every register at its reset value but the fields of the plan; integrating. -/
def canReset (k : Fin 4) (s : State) : State :=
  s.modCan k fun c => {
    held := c.held, mode := c.mode, listen := c.listen, loop := c.loop, nbt := c.nbt, dbt := c.dbt, maps := c.maps
    mo := c.mo.map fun m => if m.mapped then { cfg := m.cfg &&& 5, id := m.id, mapped := true } else {} }
/-- A Peat engine after a reset of its stack: its registers at their reset values, but for the ABORTED result of an
operation that the reset ends (R11, R166). -/
def resetEngine (had now : PeatEngine) : PeatEngine :=
  match had.run with
  | some _ => { statTag := now.statTag, statCode := now.statCode, stat := now.stat, run := now.run }
  | none => {}
/-- What a reset does to the function it names, its fault status apart (Table 17.7). -/
def resetEffect (f : Fid) (s : State) : State :=
  let had := vget s.peat ⟨fidIdx f % 8, by omega⟩
  let s := stopWork f statusAborted s
  let i := fidIdx f
  match fidType f with
  | 1 => coreReset ⟨i % 48, by omega⟩ s
  | 2 =>
    let n : Fin 64 := ⟨i % 64, by omega⟩
    { s.modTile n fun t => { lane := t.lane, gate := if t.lane then 0 else 2 } with
      lanes := s.lanes.map fun l => if l.on && l.tiles.head? = some n then
        { l with last := 0, max := 0, tag := {}, requests := 0, late := 0, nonfinite := 0, wcl := 0 } else l }
  | 3 =>
    let g : Fin 16 := ⟨i % 16, by omega⟩
    { s.modShuttle g fun _ => {} with remote := s.remote.filter fun r => r.1 ≠ g || r.2.2.coll }
  | 4 =>
    let k : Fin 8 := ⟨i % 8, by omega⟩
    { s with peat := vmod s.peat k fun st => { eng := Vector.ofFn fun j => resetEngine (vget had.eng j) (vget st.eng j) } }
  | 5 =>
    let p : Fin 16 := ⟨i % 16, by omega⟩
    let s := s.modPort p fun x => { x with
      fec := 0, replay := 0, downs := 0, delay := 0, ofs := 0, dtag := {}, peer := 0 }
    if (vget s.ports p).st = .off then s else portDown p 6 s
  | 6 =>
    let e : Fin 8 := ⟨i % 8, by omega⟩
    (engineAxes e).foldl (fun s a => axisGoHome 3 a s) (s.modTrd e fun _ => {})
  | 7 => s.modAxis ⟨i % 32, by omega⟩ axisClear
  | 8 => fbkReset ⟨i % 40, by omega⟩ s
  | 9 => { s with cc := { held := s.cc.held } }
  | 10 => canReset ⟨i % 4, by omega⟩ s
  | 11 => dspReset s
  | 12 =>
    let q : Fin 8 := ⟨i % 8, by omega⟩
    if (vget s.rports q).up then
      emit f 0x58 (pl 16 (vget s.rports q).width.toNat + pl 17 (vget s.rports q).rate.toNat)
        (s.modRp q fun r => { r with up := false, width := 0, rate := 0 })
    else s
  | 13 => { s with clusterHeld := s.clusterHeld ||| (1#4 <<< (i % 4)) }
  | 15 =>
    if i = 0 then
      let old := s.time.st
      let lost := !s.island.refclk
      let s := s.modTime fun t =>
        { it := t.it, sub := t.sub, everLocked := t.everLocked, refLost := lost,
          st := if t.everLocked then .holdover else .free }
      timeSelect (if old = .locked then timeEvent 0x63 s else s)
    else s.modFrz fun f => { images := f.images, seen := f.seen, oseq := f.oseq, writing := f.writing }
  | _ => s
/-- R387: causes whose condition is absent after the reset are cleared in both copies, DUP last; R384 follows. -/
def resetCauses (f : Fid) (s : State) : State :=
  let s := s.modFlt (fidSlot f) fun x => { x with stale := 0x218 }
  ([0, 1, 2, 3, 4, 5, 6, 8, 9, 10, 11, 7] : List Nat).foldl (fun s b => if persists s f b then s else dropCause f b s) s
/-- A reset by FID: what the function is afterwards, then its causes, then the state an axis is left in. A line written
back as poisoned at a core's reset sets SHARED on the core (Table 17.3). -/
def resetFn (f : Fid) (s : State) : State :=
  let prev := faultClass s f
  let lost := fidType f = 1 && lostLines ⟨fidIdx f % 48, by omega⟩ s ≠ []
  let s := resetCauses f (resetEffect f s)
  let s := if fidType f = 7 then axisGoHome 3 ⟨fidIdx f % 32, by omega⟩ s else s
  let s := leaveFault f prev s
  if lost then raiseCause f 9 s else s

/-! ### Release (R116, R388) -/

/-- A core begins at its reset vector in M-mode (R116). -/
def coreRelease (n : Fin 48) (v : BitVec 64) (s : State) : State :=
  s.modCore n fun c => { c with held := false, released := true, pc := v, priv := .m }
/-- A held function runs again. -/
def releaseFn (f : Fid) (s : State) : State :=
  let i := fidIdx f
  match fidType f with
  | 1 =>
    match coreVector s ⟨i % 48, by omega⟩ with
    | some v => coreRelease ⟨i % 48, by omega⟩ v s
    | none => s
  | 2 => s.modTile ⟨i % 64, by omega⟩ fun t => { t with held := false, gate := if t.lane then 0 else 1 }
  | 3 => s.modShuttle ⟨i % 16, by omega⟩ fun sh => { sh with held := false }
  | 6 =>
    let e : Fin 8 := ⟨i % 8, by omega⟩
    (engineAxes e).foldl (fun s a => axisGoHome 3 a s) (s.modTrd e fun t => { t with held := false })
  | 13 =>
    let m := ~~~(1#4 <<< (i % 4))
    loadFirmware { s with clusterHeld := s.clusterHeld &&& m, clusterStop := s.clusterStop &&& m }
  | _ => s

/-! ### Requests (R386, R388, Table 17.8) -/

/-- What a reset stops at once, before it is done: a CAN controller drives recessive and abandons its frame and requests
(R334); a core, a tile and a Shuttle group stop (R118, Table 17.7). -/
def resetBegin (f : Fid) (s : State) : State :=
  match fidType f with
  | 2 | 3 => stopWork f statusAborted s
  | 10 => canReset ⟨fidIdx f % 4, by omega⟩ (stopWork f statusAborted s)
  | _ => s
def rstBase (p : Fin 32) : Nat := regBase + 0xB100000 + 0x100 * p
/-- Refusal of a request by set 0 to 31, or 32 for the console; none accepts. An axis is held through its engine alone, so
a release of the axis itself is NOT_HELD (DESIGN CHOICE, log 54). -/
def rstRefusal (s : State) (set : Fin 33) (f : Fid) (act : BitVec 2) : Option (BitVec 8) :=
  let chip := f = timeFid || f = frzFid
  let mine := if h : set.val < 32 then belongs s ⟨set, h⟩ f || (set.val = 0 && chip) else chip || (partOf s f).isSome
  let busyPart := if h : set.val < 32 then reloading s ⟨set, h⟩
    else match partOf s f with | some p => reloading s p | none => false
  if 2 ≤ act then some 8
  else if !fidOk f then some 2
  else if f = islandFid || fidType f = 14 then some 3
  else if !mine then some 1
  else if (vget s.flt (fidSlot f)).busy.isSome || busyPart then some 4
  else if act = 0 then none
  else if !isHeld s f || fidType f = 7 then some 5
  else if faulted s f then some 7
  else if fidType f = 1 && (coreVector s ⟨fidIdx f % 48, by omega⟩).isNone then some 6
  else none
/-- The result of a request: RST_RES of its set, and event 0x15 (R392). -/
def rstResult (set : Fin 33) (f : Fid) (act : BitVec 2) (code : BitVec 8) (s : State) : State :=
  let payload := pl 16 act.toNat + pl 17 code.toNat + pl 18 (if set.val = 32 then 0xFF else set.val)
  if h : set.val < 32 then
    emitTo ⟨set, h⟩ f 0x15 payload (s.modPart ⟨set, h⟩ fun x => { x with
      resFid := f, resAct := act, resCode := code, resTag := x.resTag.bump, reqBusy := false })
  else
    let p := if fidChipWide f then 0 else (partOf s f).getD 0
    emitTo p f 0x15 payload s
/-- A request made: refused with its code, or in progress until RESET_DONE. -/
def rstRequest (set : Fin 33) (f : Fid) (act : BitVec 2) (s : State) : State :=
  match rstRefusal s set f act with
  | some c => rstResult set f act c s
  | none =>
    let s := (if act = 0 then resetBegin f s else s).modFlt (fidSlot f) fun x => { x with busy := some (decide (act = 1), set) }
    if h : set.val < 32 then s.modPart ⟨set, h⟩ fun x => { x with reqBusy := true } else s
/-- A write of RST_REQp: its fields, and GO (R386). -/
def rstWrite (p : Fin 32) (f : Fid) (act : BitVec 2) (go : Bool) (s : State) : State :=
  let s := s.modPart p fun x => { x with reqFid := f, reqAct := act }
  if !go then s
  else if (vget s.parts p).reqBusy then s.modPart p fun x => { x with ign := satInc x.ign }
  else rstRequest ⟨p, by omega⟩ f act s
def execRstReset (who : Master) (p : Fin 32) (fid : Fid) (s : State) : Host.Outcome State Fault Refusal :=
  done (regWriteAt who (rstBase p) (rstWrite p fid 0 true) s)
def execRstRelease (who : Master) (p : Fin 32) (fid : Fid) (s : State) : Host.Outcome State Fault Refusal :=
  done (regWriteAt who (rstBase p) (rstWrite p fid 1 true) s)
/-- The request in progress for a function completes with DONE. -/
def resetDone (f : Fid) (s : State) : State :=
  match (vget s.flt (fidSlot f)).busy with
  | none => s
  | some (rel, set) =>
    let s := s.modFlt (fidSlot f) fun x => { x with busy := none }
    rstResult set f (if rel then 1 else 0) 0 (if rel then releaseFn f s else resetFn f s)
def execResetDone (fid : Fid) (s : State) : Host.Outcome State Fault Refusal :=
  doneIf (fidOk fid && (vget s.flt (fidSlot fid)).busy.isSome) s (resetDone fid)

/-! ### Faults and clears (R375 to R383) -/

/-- Which causes a function can detect of itself (Table 17.3). -/
def causeOn (f : Fid) (bit : Nat) : Bool :=
  let t := fidType f
  match bit with
  | 4 => t = 2 || t = 3 || t = 4 || t = 13
  | 5 => t = 5 || t = 12
  | 6 => t = 11
  | 9 => t = 1
  | 10 => t = 7 || t = 8
  | 11 => t = 0
  | _ => true
def faultDetected (f : Fid) (bit : Nat) (s : State) : State :=
  if bit = 0 then raiseCorr f s
  else if bit = 10 && fidType f = 7 then raiseOutput ⟨fidIdx f % 32, by omega⟩ 4 s
  else raiseCause f bit s
def execFaultDetected (fid : Fid) (cause : Fin 12) (s : State) : Host.Outcome State Fault Refusal :=
  doneIf (fidOk fid && powered s fid && causeOn fid cause) s (faultDetected fid cause)
/-- Bits of the second copy change by themselves: DUP in both copies where they differ (R379). -/
def dupMismatch (f : Fid) (flip : BitVec 12) (s : State) : State :=
  let s := s.modFlt (fidSlot f) fun x => { x with b := { x.b with cause := x.b.cause ^^^ flip } }
  let x := vget s.flt (fidSlot f)
  if x.a.cause = x.b.cause then s else raiseCause f 7 s
def execDupMismatch (fid : Fid) (flip : BitVec 12) (s : State) : Host.Outcome State Fault Refusal :=
  doneIf (fidOk fid && powered s fid) s (dupMismatch fid flip)
def execDrainTimeout (fid : Fid) (s : State) : Host.Outcome State Fault Refusal :=
  doneIf (fidOk fid && powered s fid && isFenced s fid) s (raiseCause fid 8)
def slotBase (f : Fid) : Nat := regBase + 0xB000000 + 0x20 * (fidSlot f).val
def execFaultCauseClear (who : Master) (fid : Fid) (mask : BitVec 12) (s : State) : Host.Outcome State Fault Refusal :=
  doneIf (fidOk fid) s (regWriteAt who (slotBase fid) (clearCauses fid mask))

/-! ### Reopening a partition (R385) -/

/-- Every function of a partition reset by FID; of a Peat stack, which partitions may share, its claims (R42, R166). -/
def resetPart (p : Fin 32) (s : State) : State :=
  let s := (partFids s p).foldl (fun s f =>
    if fidType f = 4 then stopStack ⟨fidIdx f % 8, by omega⟩ p s else resetFn f s) s
  (List.finRange 8).foldl (fun s k => releaseClaims k (·.owns p) s) s
/-- A cause of class 1 or higher other than DRAIN and SHARED on a function of p. -/
def reopenBlocked (s : State) (p : Fin 32) : Bool :=
  (partFids s p).any fun f => decide (1 ≤ maskClass f ((vget s.flt (fidSlot f)).a.cause &&& 0xCFF))
/-- The fence of a partition opens: DRAIN and SHARED cleared, FAULTED 0 on each function. -/
def openPart (p : Fin 32) (s : State) : State :=
  let prev := fun f => faultClass s f
  let t := (partFids s p).foldl (fun s f => dropCause f 9 (dropCause f 8 s)) s
  let t := t.modPart p fun x => { x with fenced := false }
  (partFids s p).foldl (fun t f => leaveFault f (prev f) t) t
/-- The partition's lowest-numbered core is released (R116). -/
def releaseFirstCore (p : Fin 32) (s : State) : State :=
  match (List.finRange 48).find? fun n => belongs s p (fidMk 1 n) with
  | some n => if faulted s (fidMk 1 n) then s else releaseFn (fidMk 1 n) s
  | none => s
/-- Steps 2 to 5 of R385. -/
def openEnd (p : Fin 32) (s : State) : State :=
  emitTo p (vget s.parts p).byFid 0x12 (pl 16 p) (releaseFirstCore p (openPart p s))
def reopen (p : Fin 32) (s : State) : State :=
  if !(vget s.parts p).fenced then s
  else if reopenBlocked s p then s.modPart p fun x => { x with refused := satInc x.refused }
  else openEnd p (resetPart p s)
def pctrlAddr (p : Fin 32) : Nat := regBase + 0xB008008 + 0x20 * p
def execReopen (who : Master) (p : Fin 32) (s : State) : Host.Outcome State Fault Refusal :=
  done (regWriteAt who (pctrlAddr p) (reopen p) s)

/-! ### Freeze (R389 to R391) -/

def frzBase : Nat := regBase + 0x300000
/-- FRZ_CTRL.LOCAL (R389). -/
def frzLocal (s : State) : State :=
  let late := decide (s.frz.arm < s.time.it + 16000)
  frzRequest { t := if late then s.time.it + 16000 else s.frz.arm, source := 0, late := late, origin := chipId s } s
/-- FRZ_CTRL.INSTALL: refused when T is less than 200 µs away, else an order of this chip (R389, R391). -/
def frzInstall (s : State) : State :=
  if s.frz.arm < s.time.it + 3200000 then
    say (.freeze 3 s.frz.fseq)
      (emit frzFid 0x16 (pl 16 3 + pl 17 1 + pl 20 s.frz.images.toNat) (frzResult 3 1 false (holdoverFlag s) 0 s))
  else
    let o : FrzOrder := { t := s.frz.arm, origin := chipId s, oseq := s.frz.oseq }
    let s := s.modFrz fun f => { f with oseq := f.oseq + 1, seen := f.seen ++ [(o.origin, o.oseq)], orders := f.orders ++ [o] }
    frzRequest { t := o.t, source := 1, late := false, origin := o.origin } s
/-- A write to a register of the freeze block that a fence does not stop. -/
def frzWrite (who : Master) (off : Nat) (eff : State → State) (s : State) : State :=
  regWriteAt who (frzBase + off) (fun s => if isFenced s frzFid then s else eff s) s
def execFrzLocal (who : Master) (s : State) : Host.Outcome State Fault Refusal := done (frzWrite who 0x28 frzLocal s)
def execFrzInstall (who : Master) (s : State) : Host.Outcome State Fault Refusal := done (frzWrite who 0x28 frzInstall s)
/-- The present servo clock: the first at or after T in which the freeze's command stands, T's own but where installation
time was loaded past it; time and counter are thus of one instant (R331, R390). -/
def frzAt (s : State) : Time := BitVec.ofNat 64 (s.time.it.toNat / 40 * 40)
/-- What the freeze instant latches (R390, R331). -/
def frzLatch (q : FrzPend) (s : State) : FrzImage :=
  { it := frzAt s, source := q.source, late := q.late, holdover := holdoverFlag s, origin := q.origin, tsc := s.tsc
    fbk := Vector.ofFn fun c => (fbkSample s c, fbkValid s c)
    axes := Vector.ofFn fun a =>
      let x := vget s.axes a
      (x.spp, x.fbPos, x.fbVel, x.iq, BitVec.ofNat 3 x.st.code) }
/-- The end of a freeze: its result, event 0x16 and console line. -/
def frzEnd (code : BitVec 8) (m : FrzImage) (s : State) : State :=
  let s := frzResult code m.source m.late m.holdover m.it s
  let s := emit frzFid 0x16 (pl 16 code.toNat + pl 17 m.source.toNat + pl 20 s.frz.fseq.toNat + pl 24 m.it.toNat) s
  say (.freeze code s.frz.fseq) s
def freezeNow (q : FrzPend) (s : State) : State :=
  let s := s.modFrz fun f => { f with pending := none }
  if s.frz.writing.isSome then s.modFrz fun f => { f with skip := satInc f.skip } else
  let m := frzLatch q s
  let s := (List.finRange 4).foldl (fun s k => if (partOf s (canFid k)).isNone then s else
    s.modCan k fun c => { c with frzTag := c.frzTag.bump, frzTs := s.tsc, frzIt := m.it }) s
  if s.island.mode = .full then s.modFrz fun f => { f with writing := some m } else frzEnd 5 m s
def freezeDue (s : State) : Option FrzPend :=
  match s.frz.pending with
  | some q => if powered s frzFid && !isFenced s frzFid && decide (frzInstant q.t ≤ s.time.it) then some q else none
  | none => none
def execFreezeInstant (s : State) : Host.Outcome State Fault Refusal :=
  match freezeDue s with
  | some q => done (freezeNow q s)
  | none => .next s
/-- The bytes of a freeze image; entries of functions whose partition is not captured are 0 (Table 17.9). -/
def imageBytes (s : State) (m : FrzImage) (fseq : BitVec 32) (cap : List Byte) : List Byte :=
  let on := fun f => match partOf s f with | some p => s.frz.pmask.getLsbD p | none => false
  natLe 8 m.it.toNat ++ natLe 4 fseq.toNat ++ natLe 1 m.source.toNat ++ natLe 1 (b2n m.holdover + 2 * b2n m.late) ++
  natLe 2 m.origin.toNat ++ natLe 4 m.tsc.toNat ++ natLe 12 0 ++
  ((List.finRange 40).flatMap fun c => if on (fbkFid c) then
    natLe 8 (vget m.fbk c).1.toNat ++ natLe 8 (b2n (vget m.fbk c).2) else natLe 16 0) ++
  ((List.finRange 32).flatMap fun a => if on (axFid a) then
    let x := vget m.axes a
    natLe 8 x.1.toNat ++ natLe 8 x.2.1.toNat ++ natLe 4 x.2.2.1.toNat ++ natLe 4 x.2.2.2.1.toNat ++
    natLe 8 x.2.2.2.2.toNat else natLe 32 0) ++
  natLe 352 0 ++ slice cap 0 2048
/-- The image goes to its place in the ring as writes of P0; the capture is read as P0's (R390). -/
def imageWrite (m : FrzImage) (s : State) : State :=
  let s := s.modFrz fun f => { f with writing := none }
  let fseq := s.frz.images + 1
  let a := s.frz.base.toNat * 2 ^ 15 + fseq.toNat % 8 * 4096
  let ca := s.frz.maddr.toNat * 8
  let len := s.frz.mlen.toNat
  if ratHeld s 0 ca len || ratHeld s 0 a 4096 then holdAccess s else
  let bad := ratCheckRange s 0 ca len .load .plain
  let s := match bad with
    | some e => accessError frzFid false e.2 e.1 s
    | none => if poisoned s ca len then poisonHit frzFid s else s
  let capBad := bad.isSome || poisoned s ca len
  match ratCheckRange s 0 a 4096 .store .plain with
  | some e => frzEnd 1 m (accessError frzFid true e.2 e.1 s)
  | none =>
    let bytes := imageBytes s m fseq (if capBad then [] else rdBytes s ca len)
    frzEnd (if capBad then 2 else 0) m ((wrBytes s a bytes).modFrz fun f => { f with images := fseq })
def execFreezeImageWritten (s : State) : Host.Outcome State Fault Refusal :=
  match s.frz.writing with
  | some m => doneFrom s (imageWrite m s)
  | none => .next s

end Sys2Proof.Machine
end

