-- ==== Sys2Proof/Machine/Stages.lean ====
section
/-! DEFINITION. Applying a plan: stages 2 to 12 of Table 2.9 (R35), for a whole start, for the servo-only set (R57), for
the raise to full mode (R58) and for one partition of a partial reload (R42); results and their events (R45). -/
namespace Sys2Proof.Machine

/-- What an application covers. -/
inductive Scope | full | servo | raise | part (p : Fin 32)
deriving DecidableEq, Repr

/-- Functions of the servo-only set (R55). -/
def servoType (t : Nat) : Bool := decide (6 ≤ t) && decide (t ≤ 10)
/-- Whether a function is inside the scope. -/
def Scope.fn (sc : Scope) (s : State) (f : Fid) : Bool :=
  match sc with
  | .full => true
  | .servo => servoType (fidType f)
  | .raise => !servoType (fidType f)
  | .part p => belongs s p f
/-- Whether a record is applied; pin entries are judged one by one. -/
def Scope.takes (sc : Scope) (r : PlanRec) : Bool :=
  match sc with
  | .full => true
  | .servo => r.type = 1 || r.type = 2 || r.type = 7 || r.type = 9 || r.type = 10
  | .raise => r.type ≠ 1 && r.type ≠ 7 && r.type ≠ 9 && r.type ≠ 10
  | .part p => r.owner = p.val
def Scope.recs (sc : Scope) (rs : List PlanRec) (t : Nat) : List PlanRec := (ofType rs t).filter sc.takes

/-! ### Stage 2, partition -/

/-- Membership of a partition replaced; its runtime registers stay. -/
def Part.member (x m : Part) : Part :=
  { x with assigned := m.assigned, tiles := m.tiles, cores := m.cores, shuttle := m.shuttle, axes := m.axes,
           treadle := m.treadle, units := m.units, rports := m.rports, clusters := m.clusters, fbk := m.fbk,
           peat := m.peat, grh := m.grh }
def memberOf (rs : List PlanRec) (p : Fin 32) : Part :=
  match (ofType rs 1).find? fun r => r.owner = p.val with | some r => membership r | none => {}
/-- An unassigned function is held in reset; an assigned one, cores and control clusters apart, runs (R28). -/
def holdFn (f : Fid) (s : State) : State :=
  let held := (partOf s f).isNone
  let i := fidIdx f
  match fidType f with
  | 1 => if held then coreReset ⟨i % 48, by omega⟩ s else s
  | 5 => if held then s.modPort ⟨i % 16, by omega⟩ fun x => { x with st := .off } else s
  | 7 => if held then axisGoHome 3 ⟨i % 32, by omega⟩ (s.modAxis ⟨i % 32, by omega⟩ fun x => { x with
      rec_ := none, laws := vrep 3 none }) else s
  | 13 => if held then { s with clusterHeld := s.clusterHeld ||| (1#4 <<< (i % 4)) } else s
  | 2 => s.modTile ⟨i % 64, by omega⟩ fun t => { t with held := held, gate := if held then 2 else 1 }
  | 4 => if held then { s with peat := vset s.peat ⟨i % 8, by omega⟩ {} } else s
  | 12 => if held then { s with rports := vset s.rports ⟨i % 8, by omega⟩ {} } else s
  | 3 => s.modShuttle ⟨i % 16, by omega⟩ fun x => { x with held := held }
  | 6 => s.modTrd ⟨i % 8, by omega⟩ fun x => { x with held := held }
  | 8 => s.modFbk ⟨i % 40, by omega⟩ fun x => if held then { x with
      held := true, mode := 0, good := false, badFault := false, badSince := s.time.it } else { x with held := false }
  | 9 => { s with cc := { s.cc with held := held } }
  | 10 => s.modCan ⟨i % 4, by omega⟩ fun x => { x with held := held }
  | 11 => s.modDsp fun x => { x with held := held }
  | _ => s
/-- A start opens every selvedge and lifts every fence; functions without a cause leave the fault state (R384), and a cause
that persists is taken again as newly detected (R385). -/
def openAll (s : State) : State :=
  let prev := fun f => faultClass s f
  let t := { s with
    parts := s.parts.map fun x => { x with fenced := false }
    flt := s.flt.map fun x => { x with fence := false } }
  let t := allFids.foldl (fun t f => leaveFault f (prev f) t) t
  allFids.foldl (fun s f => (List.range 12).foldl (fun s b =>
    if (vget s.flt (fidSlot f)).a.cause.getLsbD b && decide (1 ≤ causeClass f b) && persists s f b
    then announce f b (react f b s) else s) s) t
def stagePartition (sc : Scope) (rs : List PlanRec) (s : State) : State :=
  let left := match sc with
    | .part p => partFids s p
    | _ => []
  let s := match sc with
    | .raise => s
    | .part p => s.modPart p fun x => x.member (memberOf rs p)
    | _ => { s with parts := Vector.ofFn fun p => (vget s.parts p).member (memberOf rs p) }
  let s := match sc with
    | .part _ | .raise => s
    | _ => openAll s
  (left ++ allFids.filter (sc.fn s)).foldl (fun s f => holdFn f s) s

/-! ### Stages 3 to 6: pins, regions, fabric, power -/

def pinCfg (owner : Nat) (e : List Byte) : PinCfg :=
  { func := BitVec.ofNat 8 (byteAt e 2), drive := BitVec.ofNat 2 (byteAt e 3),
    pull := BitVec.ofNat 2 (fld (byteAt e 3) 2 2), invert := bitOf (byteAt e 3) 4,
    safe := BitVec.ofNat 2 (byteAt e 4), filter := BitVec.ofNat 8 (byteAt e 5), owner := BitVec.ofNat 5 owner }
/-- Pin entries of a plan: index, signal, settings. -/
def pinCfgs (rs : List PlanRec) : List (Nat × Signal × PinCfg) :=
  (ofType rs 2).flatMap fun r => (r.parts 8 8).filterMap fun e =>
    (signalOf (leAt e 0 2)).map fun g => (leAt e 0 2, g, pinCfg r.owner e)
/-- A signal of the servo-only set: a servo function's, or a hardware stop. -/
def Signal.servo (g : Signal) : Bool := match g.owner with | some f => servoType (fidType f) | none => true
/-- Hardware stop inputs that an entry enables: FUNC 1 on HSTOPn_N, in any partition's record (R419). -/
def stopInputs (s : State) : BitVec 4 :=
  s.pins.foldl (fun (m : BitVec 4) (c : Nat × PinCfg) =>
    match signalOf c.1 with
    | some (.hstop n) => if c.2.func = 1#8 then m ||| (1#4 <<< n) else m
    | _ => m) 0#4
/-- Stage 3: entries, feedback modes, hardware stops, root ports. -/
def stagePin (sc : Scope) (rs : List PlanRec) (s : State) : State :=
  let cs := pinCfgs rs
  let pick : Nat × Signal × PinCfg → Bool := fun c => match sc with
    | .full => true
    | .servo => c.2.1.servo
    | .raise => !c.2.1.servo
    | .part p => decide (c.2.2.owner.toNat = p.val)
  let old := match sc with
    | .full | .servo => []
    | .raise => s.pins
    | .part p => s.pins.filter fun c => c.2.owner.toNat ≠ p.val
  let s := { s with pins := old ++ (cs.filter pick).map (fun c => (c.1, c.2.2)), pinsUp := true }
  let es := pinEntries rs
  let filt : Signal → BitVec 8 := fun g => match cs.find? (·.2.1 = g) with | some c => c.2.2.filter | none => 0
  let s := (List.finRange 40).foldl (fun s c =>
    if !sc.fn s (fbkFid c) then s else
    let m := (fbkMode es c).getD 0
    s.modFbk c fun x => { x with
      mode := m, good := !x.held && (m = 1 || m = 2 || m = 3), badSince := s.time.it, badFault := false
      filt := Vector.ofFn fun b => filt (.fbk c b) }) s
  let s := if !sc.fn s ccFid then s else
    { s with cc := { s.cc with cap := Vector.ofFn fun n => { vget s.cc.cap n with filt := filt (.pcap n) } } }
  let s := obeyStops { s with hstopOn := stopInputs s }
  if sc = .servo then s else
  (List.finRange 8).foldl (fun (s : State) (q : Fin 8) =>
    if !sc.fn s (fidMk 12 q) then s else
    let g := q.val / 4 * 4
    let n := portLanes (pinFunc es (.perst g)) (q.val - g)
    s.modRp q fun r => { r with exists_ := n ≠ 0, lanes := n }) s
def ratOf (r : PlanRec) : RatEntry :=
  { valid := true, base := BitVec.ofNat 32 (r.f 8 8 / 4096), limit := BitVec.ofNat 32 (r.f 16 8 / 4096),
    attr := BitVec.ofNat 32 (r.f 24 4), access := BitVec.ofNat 32 (r.f 28 4),
    owner := if h : r.owner < 32 then some ⟨r.owner, h⟩ else none }
/-- Stage 4. -/
def stageRegion (sc : Scope) (rs : List PlanRec) (s : State) : State :=
  let keep : RatEntry → Bool := fun e => match sc with | .part p => decide (e.owner ≠ some p) | _ => false
  let clear := s.rat.entries.map fun e => if keep e then e else {}
  let es := (sc.recs rs 3).foldl (fun (v : Vector RatEntry 64) r => vset v (mkFin 64 (by omega) r.inst) (ratOf r)) clear
  s.modRat fun r => { r with entries := es, reopened := none }
def fabricOf (rs : List PlanRec) : Fabric :=
  match (ofType rs 4).head? with
  | none => {}
  | some r => { joined := true, dims := Vector.ofFn fun i => BitVec.ofNat 8 (r.byte (8 + i)),
                pos := Vector.ofFn fun i => BitVec.ofNat 8 (r.byte (11 + i)), candidate := r.byte 14 = 1,
                installId := BitVec.ofNat 64 (r.f 16 8) }
/-- Stage 5: the fabric record and the links; an assigned port with a direction begins training. -/
def stageFabric (sc : Scope) (rs : List PlanRec) (s : State) : State :=
  let s := match sc with | .part _ => s | _ => { s with fabric := fabricOf rs }
  let s := (List.finRange 16).foldl (fun s p =>
    if !sc.fn s (portFid p) then s else
    let l := (ofType rs 5).find? fun r => r.inst = p.val
    let dir := match l with | some r => r.byte 8 | none => 0
    let peer := match l with | some r => r.f 10 2 | none => 0
    let lanes := match l with | some r => r.byte 9 | none => 0
    let on := decide (dir ≠ 0) && (partOf s (portFid p)).isSome
    s.modPort p fun x => { x with
      dir := BitVec.ofNat 3 dir, peerPlan := BitVec.ofNat 12 peer, laneCfg := BitVec.ofNat 6 lanes, st := if on then .training else .off }) s
  match sc with | .part _ => s | _ => timeSelect s
/-- Stage 6: the package limit and mode, budgets and priorities; a partition that has no budget or none that applies is
limited no longer (R360). A partition without a record has no budget, and
priority 8 (log 34). -/
def stagePower (sc : Scope) (rs : List PlanRec) (s : State) : State :=
  let per := fun (p : Fin 32) => (ofType rs 6).find? fun (r : PlanRec) => r.owner = p.val
  let upd : Fin 32 → Bool := fun p => match sc with | .part q => decide (p = q) | _ => true
  let s := match sc with
    | .part _ => s
    | _ => match (ofType rs 6).find? fun (r : PlanRec) => r.owner = 0xFF with
      | some r => s.modPower fun w => { w with limited := true, limit := BitVec.ofNat 11 (r.f 8 2), mode1 := r.byte 10 = 1 }
      | none => s.modPower fun w => { w with limited := false, limit := 0, mode1 := false }
  s.modPower fun w => { w with
    issue := Vector.ofFn fun p => if upd p && (w.mode1 || (per p).isNone) then 8 else vget w.issue p
    budget := Vector.ofFn fun p => if upd p then (match per p with | some r => BitVec.ofNat 16 (r.f 8 2) | none => 0xFFFF)
      else vget w.budget p
    prio := Vector.ofFn fun p => if upd p then (match per p with | some r => BitVec.ofNat 8 (r.byte 11) | none => 8)
      else vget w.prio p }

/-! ### Stages 7 to 11 -/

def lawOf (r : PlanRec) : Law :=
  { float := r.byte 8 = 1, struct_ := BitVec.ofNat 8 (r.byte 9),
    coef := (r.parts 16 8).map fun c => (BitVec.ofNat 32 (leAt c 0 4), BitVec.ofNat 8 (byteAt c 4)) }
/-- The law that an axis record names. -/
def lawNamed (rs : List PlanRec) (r : PlanRec) (i : Nat) : Option Law :=
  if r.byte i = 0xFF then none
  else ((ofType rs 7).find? fun l => l.owner = r.owner && l.inst = r.byte i).map lawOf
/-- The model image as the lane's partition reads it; none where the read fails (R86, R189). -/
def modelRead (s : State) (r : PlanRec) : Option (List Byte) :=
  let a := r.f 16 8
  let n := r.f 24 4
  match ratCheckRange s (mkFin 32 (by omega) r.owner) a n .load .plain with
  | some _ => none
  | none => if poisoned s a n then none else some (rdBytes s a n)
/-- A lane as stage 8 loads it. -/
def laneOfRec (rs : List PlanRec) (r : PlanRec) (m : List Byte) : Lane :=
  let ax := laneAxes rs r.inst
  { on := true, part := mkFin 32 (by omega) r.owner, tiles := (laneTiles r).map (mkFin 64 (by omega)),
    nin := r.byte 13, nout := r.byte 14, deadline := BitVec.ofNat 32 (r.f 28 4), wfmt := BitVec.ofNat 8 (byteAt m 7),
    model := m, layers := modelLayers m, normOfs := leAt m 16 4, axes := ax.map fun a => mkFin 32 (by omega) a.inst,
    posLoop := (match ax with | a :: _ => a.byte 25 = 1 | [] => false),
    period := (match ax with | a :: _ => lanePeriod a | [] => 0), wcl := BitVec.ofNat 24 (laneLatency m (r.byte 8)) }
/-- Lanes of the scope unloaded: their tiles are free again. -/
def clearLanes (sc : Scope) (s : State) : State :=
  (List.finRange 8).foldl (fun s l =>
    let x := vget s.lanes l
    if (match sc with | .part p => x.on && x.part = p | _ => true) then
      x.tiles.foldl (fun s t => s.modTile t fun y => Tile.idle { y with lane := false }) (s.modLane l fun _ => {})
    else s) s
/-- Stage 8: each lane in turn; the first breach ends it. -/
def stageLanes (rs : List PlanRec) : List PlanRec → State → State × Breach
  | [], s => (s, none)
  | r :: ls, s =>
    let img := modelRead s r
    match laneCheck rs r img with
    | some e => (s, some e)
    | none =>
      let n := laneOfRec rs r (img.getD [])
      let s := s.modLane (mkFin 8 (by omega) r.inst) fun _ => n
      stageLanes rs ls (n.tiles.foldl (fun s t => s.modTile t fun y => Tile.idle { y with lane := true }) s)
def axisRecOf (r : PlanRec) : AxisRec :=
  let b := fun i => BitVec.ofNat 8 (r.byte i)
  let h := fun i => BitVec.ofNat 16 (r.f i 2)
  { mode := b 8, motor := b 9, fbkA := b 10, fbkB := b 11, curDiv := h 12, velDiv := h 14, posDiv := h 16, pwmPer := h 18,
    sdiBase := b 20, lawC := b 21, lawV := b 22, lawP := b 23, lane := b 24, posLane := r.byte 25 = 1, safeState := b 26,
    hstop := BitVec.ofNat 4 (r.byte 27), dead := h 28 }
/-- Stage 9: records and laws; every axis is left disabled, or held. -/
def stageAxes (sc : Scope) (rs : List PlanRec) (s : State) : State :=
  (List.finRange 32).foldl (fun s a =>
    if !sc.fn s (axFid a) then s else
    let r := (ofType rs 9).find? fun r => r.inst = a.val
    let s := match r with
      | some r => s.modAxis a fun x => { x with
          rec_ := some (axisRecOf r), laws := Vector.ofFn fun i : Fin 3 => lawNamed rs r (21 + i) }
      | none => s.modAxis a fun x => { x with rec_ := none, laws := vrep 3 none }
    axisGoHome 3 a s) s
/-- Stage 10. -/
def stageCan (sc : Scope) (rs : List PlanRec) (s : State) : State :=
  (List.finRange 4).foldl (fun s k =>
    if !sc.fn s (canFid k) then s else
    let held := (partOf s (canFid k)).isNone
    match (ofType rs 10).find? fun r => r.inst = k.val with
    | none => s.modCan k fun _ => { held := held }
    | some r =>
      let maps := (r.parts 24 8).map fun m =>
        (({ obj := mkFin 64 (by omega) (byteAt m 0), axis := mkFin 32 (by omega) (byteAt m 1),
            target := BitVec.ofNat 8 (byteAt m 2) } : CanMap), BitVec.ofNat 32 (leAt m 4 4))
      s.modCan k fun _ => {
        held := held, mode := BitVec.ofNat 2 (r.byte 8), listen := bitOf (r.byte 9) 0, loop := bitOf (r.byte 9) 1,
        nbt := BitVec.ofNat 32 (r.f 16 4), dbt := BitVec.ofNat 32 (r.f 20 4), maps := maps.map (·.1),
        mo := mappedObjs maps }) s
/-- Stage 11. -/
def stageDisplay (sc : Scope) (rs : List PlanRec) (s : State) : State :=
  if !sc.fn s dspFid then s else
  match (ofType rs 11).head? with
  | some r =>
    if r.byte 8 = 0 then s.modDsp fun d => { d with rec_ := none, link := .off }
    else dpTrain (s.modDsp fun d => { d with rec_ := some {
      lanes := BitVec.ofNat 3 (r.byte 9), rate := BitVec.ofNat 3 (fld (r.byte 9) 3 3), hact := BitVec.ofNat 16 (r.f 12 2),
      vact := BitVec.ofNat 16 (r.f 14 2), pclk := BitVec.ofNat 32 (r.f 16 4), sigmask := BitVec.ofNat 8 (r.byte 20),
      sigreact := BitVec.ofNat 8 (r.byte 21) } })
  | none => s.modDsp fun d => { d with rec_ := none, link := .off }
/-- Stages 2 to 11 in order; a rejection names its stage, code and offset (R35). -/
def runStages (sc : Scope) (img : List Byte) (s : State) : State × Option (Nat × BitVec 8 × Nat) :=
  let rs := planRecs img
  let s := stagePin sc rs (stagePartition sc rs s)
  let s := if sc = .servo then timeSelect s else stageFabric sc rs (stageRegion sc rs s)
  let s := if sc = .servo then s else stagePower sc rs s
  match (sc.recs rs 7).findSome? lawCheck with
  | some e => (s, some (7, e.1, e.2))
  | none =>
    let l := if sc = .servo then (clearLanes sc s, none) else stageLanes rs (sc.recs rs 8) (clearLanes sc s)
    match l.2 with
    | some e => (l.1, some (8, e.1, e.2))
    | none =>
      match (sc.recs rs 9).findSome? (axisCheck rs) with
      | some e => (l.1, some (9, e.1, e.2))
      | none =>
        let s := if sc = .raise then l.1 else stageCan sc rs (stageAxes sc rs l.1)
        (if sc = .servo then s else stageDisplay sc rs s, none)

/-! ### Results (R45) and the active plan -/

/-- The image of WRP_RESULT. -/
def wrpResultWord (l : Loader) : BitVec 32 :=
  BitVec.ofNat 32 (l.code.toNat + l.rstage.toNat * 2 ^ 8 + l.part.toNat * 2 ^ 12 + l.kind.toNat * 2 ^ 17 +
    l.tag.seq.toNat * 2 ^ 24 + b2n l.tag.valid * 2 ^ 31)
/-- An apply (0), reload (1) or store (2) completes: WRP_RESULT and event 0x20. -/
def planResult (kind : Nat) (code : BitVec 8) (stage part ofs : Nat) (seq : BitVec 64) (s : State) : State :=
  let s := s.modLoader fun l => { l with
    code := code, rstage := BitVec.ofNat 4 stage, part := BitVec.ofNat 5 part, kind := BitVec.ofNat 2 kind,
    tag := l.tag.bump, ofs := BitVec.ofNat 32 ofs, job := .none, stage := 0 }
  emit islandFid 0x20 (pl 16 (wrpResultWord s.loader).toNat + pl 20 seq.toNat + pl 28 ofs) s
/-- The slot whose plan is in effect, sealed (R37). -/
def activate (i : Fin 2) (img : List Byte) (s : State) : State :=
  s.modLoader fun l => { l with
    active := some i, plan := img, isSealed := true, seq := planSeq img, hash := planHash img }
def rejected (b : StateBlock) (i : Fin 2) : Bool := if i = 0 then b.rejA else b.rejB
def setRejected (i : Fin 2) (v : Bool) (s : State) : State :=
  setBlock (fun b => if i = 0 then { b with rejA := v } else { b with rejB := v }) s
/-- The image a slot holds. -/
def slotImage (s : State) (i : Fin 2) : Option (List Byte) :=
  match s.store.getSlot i with | .valid img _ => some img | .empty => none
/-- A slot that verifies as in stage 1 and is not marked rejected (R38). -/
def slotValid (s : State) (i : Fin 2) : Option (List Byte) :=
  match slotImage s i with
  | some img => if rejected s.store.work i || (stage1 s.island.keys img).isSome then none else some img
  | none => none
/-- The slots to try, in order: the higher SEQ first, A of two equals (R38). -/
def slotOrder (s : State) : List (Fin 2 × List Byte) :=
  match slotValid s 0, slotValid s 1 with
  | some a, some b => if (planSeq a).toNat < (planSeq b).toNat then [(1, b), (0, a)] else [(0, a), (1, b)]
  | some a, none => [(0, a)]
  | none, some b => [(1, b)]
  | none, none => []
/-- With no slot to apply: the breach of the slot of higher SEQ, or SLOT_INVALID. -/
def noSlot (s : State) : BitVec 8 × Nat × Nat × BitVec 64 :=
  let bad := fun (i : Fin 2) => match slotImage s i with
    | some img => (stage1 s.island.keys img).map fun e => (e, planSeq img)
    | none => none
  match bad 0, bad 1 with
  | some a, some b => if a.2.toNat < b.2.toNat then (b.1.1, 1, b.1.2, b.2) else (a.1.1, 1, a.1.2, a.2)
  | some a, none => (a.1.1, 1, a.1.2, a.2)
  | none, some b => (b.1.1, 1, b.1.2, b.2)
  | none, none => (0x17, 0, 0, 0)
/-- The application at a start: each slot in turn until one is accepted (R38). -/
def applySlots (sc : Scope) : List (Fin 2 × List Byte) → State → State × Bool
  | [], s => (s, false)
  | (i, img) :: rest, s =>
    match runStages sc img s with
    | (s, none) => (planResult 0 0 12 0 0 (planSeq img) (activate i img s), true)
    | (s, some e) =>
      applySlots sc rest (planResult 0 e.2.1 e.1 0 e.2.2 (planSeq img) (setRejected i true s))

end Sys2Proof.Machine
end

