-- ==== Sys2Proof/Machine/Loader.lean ====
section
/-! DEFINITION. Partial reload and store of a plan (2.5, 2.6): WRP_RELOAD, WRP_STORE and what follows their GO. -/
namespace Sys2Proof.Machine

def wrpBase : Nat := regBase + 0x500000
def wrpIgn (s : State) : State := s.modLoader fun l => { l with ign := satInc l.ign }
def wrpBusy (s : State) : Bool := s.loader.job ≠ .none

/-! ### Partial reload (R40 to R43) -/

/-- A write of WRP_RELOAD (R44). -/
def reloadWrite (part : Fin 32) (slot : Fin 2) (force go : Bool) (s : State) : State :=
  let s := s.modLoader fun l => { l with relPart := BitVec.ofNat 5 part, relSlot := slot = 1, relForce := force }
  if !go then s
  else if wrpBusy s then wrpIgn s
  else s.modLoader fun l => { l with job := .reloadCompare part slot force }
def execWrpReloadGo (who : Master) (part : Fin 32) (slot : Fin 2) (force : Bool) (s : State) :
    Host.Outcome State Fault Refusal :=
  done (regWriteAt who (wrpBase + 0x100) (reloadWrite part slot force true) s)
/-- Running axes of a partition (R41). -/
def runningAxes (s : State) (p : Fin 32) : List (Fin 32) :=
  (List.finRange 32).filter fun a => belongs s p (axFid a) && (vget s.axes a).st.runs
/-- Why a reload is refused: code, stage, offset (R40, R41, R451). -/
def reloadRefusal (s : State) (p : Fin 32) (i : Fin 2) (force : Bool) : Option (BitVec 8 × Nat × Nat) :=
  match slotImage s i with
  | none => some (0x17, 0, 0)
  | some img =>
    if rejected s.store.work i then some (0x17, 0, 0) else
    match stage1 s.island.keys img with
    | some e => some (e.1, 1, e.2)
    | none =>
      if s.loader.active.isNone || !isPartial img s.loader.plan p then some (0x12, 0, 0)
      else if !force && !(runningAxes s p).isEmpty then some (0x13, 0, 0)
      else none
def slotSeq (s : State) (i : Fin 2) : BitVec 64 := match slotImage s i with | some img => planSeq img | none => 0
/-- The region entries of a partition are reopened: invalid until the region stage loads them (R91, step 3 of R42). -/
def reopenEntries (p : Fin 32) (s : State) : State :=
  s.modRat fun r => { r with
    reopened := some p, entries := r.entries.map fun e => if e.owner = some p then { e with valid := false } else e }
/-- The comparison of R40 is done: refused, or steps 1 to 3 of R42. Closing p's selvedge is a partition fence (17, Words
used here); no cause closes it, so BYFID reads 0x0000 (log 56). -/
def reloadCompare (p : Fin 32) (i : Fin 2) (force : Bool) (s : State) : State :=
  match reloadRefusal s p i force with
  | some e => planResult 1 e.1 e.2.1 p e.2.2 (slotSeq s i) s
  | none =>
    let s := (runningAxes s p).foldl (fun s a => axisTo a .safe 0 1 0 s) s
    let s := resetPart p (fencePart p islandFid s)
    (reopenEntries p s).modLoader fun l => { l with job := .reloadStages p i, stage := 2 }
def execReloadCompareDone (s : State) : Host.Outcome State Fault Refusal :=
  match s.loader.job with
  | .reloadCompare p i force => done (reloadCompare p i force s)
  | _ => .next s
/-- The selvedge reopens as R385 states, refusal included; step 2 of R42 was the reset of every function of p, and the
stages since have configured them, so they are not reset again (log 56). -/
def reloadOpen (p : Fin 32) (s : State) : State :=
  if reopenBlocked s p then s.modPart p fun x => { x with refused := satInc x.refused }
  else openEnd p s
/-- Stages 2 to 11 for p, then re-seal and activation, or the old share again (R42, R43). The spec does not say what a
rejection of the old share leaves, when its lane model can no longer be read: it is not reported, and the stages from the
rejecting one on stay unapplied (DESIGN CHOICE, log 56). -/
def reloadStages (p : Fin 32) (i : Fin 2) (s : State) : State :=
  match slotImage s i with
  | none => s.modLoader fun l => { l with job := .none, stage := 0 }
  | some img =>
    match runStages (.part p) img s with
    | (s, none) => reloadOpen p (planResult 1 0 12 p 0 (planSeq img) (activate i img s))
    | (s, some e) =>
      let s := setRejected i true (runStages (.part p) s.loader.plan s).1
      reloadOpen p (planResult 1 e.2.1 e.1 p e.2.2 (planSeq img) s)
def execReloadDone (s : State) : Host.Outcome State Fault Refusal :=
  match s.loader.job with
  | .reloadStages p i => done (reloadStages p i s)
  | _ => .next s

/-! ### Store (R39) -/

/-- Bytes of the plan area that a slot may take: the area less the other slot's image, at most 4 MiB (R406). -/
def slotRoom (s : State) (i : Fin 2) : Nat :=
  let other := match slotImage s (1 - i) with | some img => img.length | none => 0
  min 4194304 (7264 * 1024 - other)
/-- Refusals of a store that the verified image decides: SLOT_ACTIVE, stage 1, SEQ_OLD. -/
def storeRefusal (s : State) (i : Fin 2) (img : List Byte) : Option (BitVec 8 × Nat × Nat) :=
  if s.loader.active = some i then some (0x15, 0, 0) else
  match stage1 s.island.keys img with
  | some e => some (e.1, 1, e.2)
  | none =>
    if s.loader.active.isSome && decide ((planSeq img).toNat ≤ s.loader.seq.toNat) then some (0x14, 0, 0) else none
/-- Refusals that need no image: TOO_LARGE, REGION, LENGTH; 0 where there is none (R406, R450). -/
def storeReadable (s : State) (i : Fin 2) (a n : Nat) : BitVec 8 :=
  if slotRoom s i < n then 0x16
  else if n = 0 || !isDram s a || !isDram s (a + n - 1) then 0x03
  else if (ratCheckRange s 0 a n .load .plain).isSome then 0x0F
  else if poisoned s a n then 0x03
  else 0
/-- A write of WRP_STORE_CTRL: at GO the island reads the image as P0 (R44, R450). -/
def storeWrite (slot : Fin 2) (go : Bool) (s : State) : State :=
  let s := s.modLoader fun l => { l with storeSlot := slot = 1 }
  if !go then s
  else if wrpBusy s then wrpIgn s
  else
    let a := s.loader.storeAddr.toNat
    let n := s.loader.storeLen.toNat
    let c := storeReadable s slot a n
    s.modLoader fun l => { l with job := .store slot (if c = 0 then rdBytes s a n else []) c, stage := 1 }
def execWrpStoreGo (who : Master) (slot : Fin 2) (s : State) : Host.Outcome State Fault Refusal :=
  done (regWriteAt who (wrpBase + 0x210) (storeWrite slot true) s)
/-- An accepted image goes into its slot, its rejected mark cleared (R39). -/
def storeAccept (i : Fin 2) (img : List Byte) (s : State) : State :=
  setRejected i false (storeReq (.slot i (.valid img (planSeq img))) s)
/-- The end of a store (R39, R45). Refused before an image is read, there is no plan whose SEQ event 0x20 could carry; the
model sends 0 (DESIGN CHOICE, log 56; a reload of an empty slot and a start with no image do the same). -/
def storeVerify (i : Fin 2) (img : List Byte) (c : BitVec 8) (s : State) : State :=
  if c ≠ 0 then planResult 2 c 0 0 0 0 s else
  match storeRefusal s i img with
  | some e => planResult 2 e.1 e.2.1 0 e.2.2 (planSeq img) s
  | none => planResult 2 0 1 0 0 (planSeq img) (storeAccept i img s)
def execStoreVerifyDone (s : State) : Host.Outcome State Fault Refusal :=
  match s.loader.job with
  | .store i img c => done (storeVerify i img c s)
  | _ => .next s

end Sys2Proof.Machine
end

