-- ==== Sys2Proof/Machine/Loom.lean ====
section
/-! DEFINITION. Loom tiles: scratchpad modes and the read cache (R149 to R155), the OPERATOR command and descriptor
(R173 to R176), and the operators (R184 to R187). -/
namespace Sys2Proof.Machine

/-! ### Tile registers (7.1) -/

/-- LOOM_ERR takes a new error (7.1). -/
def loomErr (n : Fin 64) (code : BitVec 8) (a : Nat) (s : State) : State :=
  s.modTile n fun t => { t with errCode := code, errAddr := BitVec.ofNat 16 (a / 2 ^ 16), errTag := t.errTag.bump }
/-- The read cache is discarded (R155). -/
def loomInvalidate (n : Fin 64) (s : State) : State := s.modTile n fun t => { t with cache := [] }
/-- LOOM_STAT.STATE. -/
def tileState (s : State) (n : Fin 64) : Nat :=
  let t := vget s.tiles n
  if t.held then 2 else if isFenced s (fidMk 2 n) then 3 else if t.jobs.any (·.started) then 1 else 0
/-- A write of LOOM_CFG.SPMODE: ignored on a lane tile, and with code 4 while STATE is not 0; entry into windowed mode
invalidates the cache (R155). -/
def spmodeSet (n : Fin 64) (w : Bool) (s : State) : State :=
  let t := vget s.tiles n
  if t.lane then s
  else if tileState s n ≠ 0 then loomErr n 4 0 s
  else
    let s := if w && !t.windowed then loomInvalidate n s else s
    s.modTile n fun t => { t with windowed := w }
def loomBase (n : Fin 64) : Nat := regBase + 0x2000000 + n * 0x10000
def execSpmodeWrite (who : Master) (n : Fin 64) (windowed : Bool) (s : State) : Host.Outcome State Fault Refusal :=
  done (regWriteAt who (loomBase n) (spmodeSet n windowed) s)
def execLoomInval (who : Master) (n : Fin 64) (s : State) : Host.Outcome State Fault Refusal :=
  done (regWriteAt who (loomBase n + 0x10) (loomInvalidate n) s)

/-! ### Tile space (R151 to R154) -/

/-- What a tile-space address reaches: a scratchpad byte, through the cache or not; or a LOOM_ERR code. -/
inductive TileRef
  | pad (m : Fin 64) (off : Nat) (cached : Bool)
  | bad (code : BitVec 8)
deriving DecidableEq, Repr

def tileRef (s : State) (n : Fin 64) (p : Fin 32) (a : Nat) : TileRef :=
  let win := fun (b : Nat) (c : Bool) =>
    let m : Fin 64 := ⟨(a - b) / 0x800000 % 64, by omega⟩
    if !(vget s.tiles n).windowed then TileRef.bad 1
    else if !belongs s p (fidMk 2 m) || (vget s.tiles m).lane then .bad 2
    else .pad m ((a - b) % 0x800000) c
  if a < 0x800000 then .pad n a false
  else if 0x40000000 ≤ a ∧ a < 0x60000000 then win 0x40000000 true
  else if 0x60000000 ≤ a ∧ a < 0x80000000 then win 0x60000000 false
  else .bad 3
/-- A failed access of a tile: LOOM_ERR, and CAUSE 6 for an address class it cannot reach (R150, R90). A reserved
physical address takes the check's CAUSE 4 alone (R74, R176). -/
def tileBad (n : Fin 64) (code : BitVec 8) (write : Bool) (a : Nat) (s : State) : State :=
  accessError (fidMk 2 n) write 6 a (loomErr n code a s)
/-- The line of a cached read, filled on a miss; the oldest of 1,024 lines makes room (R154, log 26). -/
def cacheLine (n : Fin 64) (m : Fin 64) (off : Nat) (s : State) : List Byte × State :=
  let key := m.val * 0x20000 + off / 64
  match (vget s.tiles n).cache.find? (·.1 = key) with
  | some l => (l.2, s)
  | none =>
    let l := rdBytes s (hostBase m + off / 64 * 64) 64
    (l, s.modTile n fun t => { t with cache := (t.cache ++ [(key, l)]).drop (t.cache.length + 1 - 1024) })
/-- An operand address: SPACE, and the address in tile space or DRAM (Table 8.2). -/
structure OpAddr where
  phys : Bool
  addr : Nat
deriving DecidableEq, Repr
def opAddr (v : Nat) : OpAddr := ⟨bitOf v 63, if bitOf v 63 then v % 2 ^ 44 else v % 2 ^ 32⟩
/-- Reserved bits of an ADDR field are clear. -/
def opAddrOk (v : Nat) : Bool := if bitOf v 63 then fld v 44 19 = 0 else fld v 32 31 = 0
def tileUnit (n : Fin 64) (p : Fin 32) : Unit_ := { fid := fidMk 2 n, part := p, side := .engine, core := false }
/-- A read of n bytes within an aligned word, by tile n of partition p. -/
def tileWordRead (n : Fin 64) (p : Fin 32) (x : OpAddr) (len : Nat) (s : State) : AccRes × State :=
  if x.phys then
    (match addrClass x.addr with
     | .ddr | .stack _ =>
       match wordRead (tileUnit n p) x.addr len s with
       | (.ok d, s) => (.ok d, s)
       | (r, s) => (r, failAccess (tileUnit n p) false r x.addr s)
     | .reserved => (.err 4, failAccess (tileUnit n p) false (.err 4) x.addr s)
     | _ => (.err 6, tileBad n 3 false x.addr s))
  else match tileRef s n p x.addr with
    | .pad m off c =>
      if c then let l := cacheLine n m off s; (.ok ((l.1.drop (off % 64)).take len), l.2)
      else (.ok (rdBytes s (hostBase m + off) len), s)
    | .bad code => (.err 6, tileBad n code false x.addr s)
/-- A write within an aligned word. Through a window, tile n's own cached copy of the line takes the bytes too (R154). -/
def tileWordWrite (n : Fin 64) (p : Fin 32) (x : OpAddr) (bs : List Byte) (s : State) : AccRes × State :=
  if x.phys then
    (match addrClass x.addr with
     | .ddr | .stack _ =>
       match wordWrite (tileUnit n p) x.addr bs s with
       | (.ok d, s) => (.ok d, s)
       | (r, s) => (r, failAccess (tileUnit n p) true r x.addr s)
     | .reserved => (.err 4, failAccess (tileUnit n p) true (.err 4) x.addr s)
     | _ => (.err 6, tileBad n 3 true x.addr s))
  else match tileRef s n p x.addr with
    | .pad m off _ =>
      let key := m.val * 0x20000 + off / 64
      let s := putRaw s (hostBase m + off) bs
      let upd := fun (l : Nat × List Byte) =>
        if l.1 = key then (key, l.2.take (off % 64) ++ bs ++ l.2.drop (off % 64 + bs.length)) else l
      (.ok [], if x.addr < 0x800000 then s else s.modTile n fun t => { t with cache := t.cache.map upd })
    | .bad code => (.err 6, tileBad n code true x.addr s)
/-- How an operator's accesses went: data, or the status and DETAIL that end it. -/
abbrev OpM (α : Type) := Except (Nat × Nat) α × State
def accEnd : AccRes → Nat → Nat × Nat
  | .poison, a => (8, a % 2 ^ 32)
  | _, a => (4, a % 2 ^ 32)
/-- A read of a range by an operator. -/
def tileRead (n : Fin 64) (p : Fin 32) (x : OpAddr) (len : Nat) (s : State) : OpM (List Byte) :=
  (wordsOf x.addr len).foldl (fun (r : OpM (List Byte)) w =>
    match r with
    | (.ok d, s) => match tileWordRead n p ⟨x.phys, w.1⟩ w.2 s with
      | (.ok e, s) => (.ok (d ++ e), s)
      | (f, s) => (.error (accEnd f w.1), s)
    | r => r) (.ok [], s)
/-- A write of a range by an operator; words already written stay written (R176). -/
def tileWrite (n : Fin 64) (p : Fin 32) (x : OpAddr) (bs : List Byte) (s : State) : OpM Unit :=
  let r := (wordsOf x.addr bs.length).foldl (fun (r : OpM Unit) w =>
    match r with
    | (.ok _, s) => match tileWordWrite n p ⟨x.phys, w.1⟩ ((bs.drop (w.1 - x.addr)).take w.2) s with
      | (.ok _, s) => (.ok (), s)
      | (f, s) => (.error (accEnd f w.1), s)
    | r => r) (.ok (), s)
  match r with
  | (.ok _, s) => (.ok (), if x.phys then { s with poison := clearPoison s.poison x.addr bs.length } else s)
  | r => r

/-! ### Descriptors and operands (Table 8.1, Table 8.2, Table 8.5) -/

/-- DLEN of an operator; none for an OPID not listed. -/
def opDlen : Nat → Option Nat
  | 0x0000 => some 32 | 0x0001 => some 192 | 0x0010 => some 160 | 0x0011 => some 128 | 0x0020 => some 128
  | 0x0021 => some 128 | 0x0022 => some 192 | 0x0030 => some 128 | 0x0040 => some 160 | _ => none
/-- How many operands it has. -/
def opCount : Nat → Nat
  | 0x0001 => 4 | 0x0010 => 3 | 0x0011 => 2 | 0x0020 => 2 | 0x0021 => 2 | 0x0022 => 4 | 0x0030 => 2 | 0x0040 => 3
  | _ => 0
structure Opd where
  addr : OpAddr
  fmt : Nat
  trans : Bool
  rows : Nat
  cols : Nat
  stride : Nat
  saddr : OpAddr
  sraw : Nat
  /-- Reserved bits are clear. -/
  clean : Bool
deriving DecidableEq, Repr
def opdAt (d : List Byte) (off : Nat) : Opd :=
  { addr := opAddr (leAt d off 8), fmt := byteAt d (off + 8), trans := bitOf (byteAt d (off + 9)) 0,
    rows := leAt d (off + 12) 4, cols := leAt d (off + 16) 4, stride := leAt d (off + 20) 4,
    saddr := opAddr (leAt d (off + 24) 8), sraw := leAt d (off + 24) 8,
    clean := opAddrOk (leAt d off 8) && opAddrOk (leAt d (off + 24) 8) && decide (byteAt d (off + 9) < 2) &&
      zeroAt d (off + 10) 2 }
def Opd.absent (o : Opd) : Bool := o.fmt = 0xFF
def Opd.ef (o : Opd) : ElFmt := (elFmt o.fmt).getD ⟨.flt fmt32, 32, false, 0⟩
/-- Rows and columns as read, after TRANS. -/
def Opd.lrows (o : Opd) : Nat := if o.trans then o.cols else o.rows
def Opd.lcols (o : Opd) : Nat := if o.trans then o.rows else o.cols
/-- Dimensions, MX columns and RSTRIDE in range (BAD_SHAPE). -/
def Opd.shapeOk (o : Opd) : Bool :=
  decide (1 ≤ o.rows) && decide (o.rows ≤ 65536) && decide (1 ≤ o.cols) && decide (o.cols ≤ 65536) &&
  (!o.ef.mx || o.cols % 32 = 0) && o.stride % 8 = 0 && decide (o.ef.rowBytes o.cols ≤ o.stride)
/-- Byte ranges of an operand: space, first byte, length (R187). -/
def Opd.ranges (o : Opd) : List (Bool × Nat × Nat) :=
  if o.absent then [] else
  (o.addr.phys, o.addr.addr, (o.rows - 1) * o.stride + o.ef.rowBytes o.cols) ::
  (if o.ef.mx then [(o.saddr.phys, o.saddr.addr, o.rows * o.cols / 32)] else [])
def rangesMeet (a b : Bool × Nat × Nat) : Bool :=
  a.1 = b.1 && decide (a.2.1 < b.2.1 + b.2.2) && decide (b.2.1 < a.2.1 + a.2.2)
def opdsMeet (a b : Opd) : Bool := a.ranges.any fun x => b.ranges.any fun y => rangesMeet x y
/-- D coincides with X exactly (R187). -/
def opdSame (a b : Opd) : Bool :=
  a.addr = b.addr && a.fmt = b.fmt && a.stride = b.stride && a.rows = b.rows && a.cols = b.cols
/-- D overlaps a coinciding X elsewhere than in the array they share: in the scales of one and the elements of the other,
or in scale arrays that differ. -/
def opdsMeetElse (a b : Opd) : Bool :=
  (a.ranges.drop 1).any (fun x => (b.ranges.take 1).any fun y => rangesMeet x y) ||
  (a.ranges.take 1).any (fun x => (b.ranges.drop 1).any fun y => rangesMeet x y) ||
  (a.sraw ≠ b.sraw && (a.ranges.drop 1).any fun x => (b.ranges.drop 1).any fun y => rangesMeet x y)
/-- An operator as its descriptor gives it. -/
structure OpDesc where
  opid : Nat
  dlen : Nat
  inv : Bool
  sat : Bool
  rmode : Nat
  wstream : Nat
  seed : BitVec 64
  flagAddr : Nat
  flagValue : Nat
  opds : List Opd
  /-- The parameter block. -/
  par : List Byte
  raw : List Byte
deriving DecidableEq, Repr
def opDesc (d : List Byte) : OpDesc :=
  let opid := leAt d 0 2
  { opid := opid, dlen := leAt d 2 2, inv := bitOf (byteAt d 4) 0, sat := bitOf (byteAt d 4) 1, rmode := byteAt d 5,
    wstream := byteAt d 6, seed := BitVec.ofNat 64 (leAt d 8 8), flagAddr := leAt d 16 8, flagValue := leAt d 24 8,
    opds := (List.range (opCount opid)).map fun i => opdAt d (32 + 32 * i),
    par := slice d (32 + 32 * opCount opid) 32, raw := d }
def OpDesc.opd (o : OpDesc) (i : Nat) : Opd := o.opds.getD i (opdAt [] 0)
/-- The output operand: the last one. -/
def OpDesc.dst (o : OpDesc) : Opd := o.opd (o.opds.length - 1)
/-- Parameter bytes an operator uses, all others reserved (Table 8.6), and codes in range. -/
def parOk (o : OpDesc) : Bool :=
  let z := fun off n => zeroAt o.par off n
  match o.opid with
  | 0x0001 => z 9 7 && z 24 8 && decide (byteAt o.par 8 ≤ 6) && opAddrOk (leAt o.par 16 8)
  | 0x0010 => z 1 3 && z 12 20 && decide (byteAt o.par 0 ≤ 4)
  | 0x0011 => z 1 31 && decide (byteAt o.par 0 ≤ 6)
  | 0x0020 => z 2 30 && decide (byteAt o.par 0 ≤ 4) && decide (byteAt o.par 1 ≤ 1)
  | 0x0022 => z 1 3 && z 8 24 && decide (byteAt o.par 0 ≤ 1)
  | 0x0040 => z 4 28
  | _ => z 0 32
/-- BAD_DESC (0x0121): DLEN, reserved fields, SADDR without an MX format. -/
def descOk (o : OpDesc) : Bool :=
  opDlen o.opid = some o.dlen && decide (byteAt o.raw 4 < 4) && decide (o.rmode ≤ 4) && decide (o.wstream ≤ 3) &&
  zeroAt o.raw 7 1 && o.opds.all (fun x => x.absent || (x.clean && (x.ef.mx || (elFmt x.fmt).isNone || x.sraw = 0))) &&
  (o.opid = 0 || parOk o)
/-- BAD_FORMAT (0x0122): a code not of Table 8.3, an operand absent where it may not be, a transposed MX operand, and
each operator's own rules (R178, R184 to R186). -/
def formatOk (o : OpDesc) : Bool :=
  let mayMiss := fun i => (o.opid = 0x0001 && i = 2) || (o.opid = 0x0022 && (i = 1 || i = 2))
  (o.opds.zipIdx.all fun (x, i) => (x.absent && mayMiss i) || (elFmt x.fmt).isSome) &&
  (o.opds.zipIdx.all fun (x, i) =>
    x.absent || !x.ef.mx || x.trans = (o.opid = 0x0001 && i = 1)) &&
  match o.opid with
  | 0x0001 => (o.opd 0).fmt = (o.opd 1).fmt && (o.opd 0).fmt ≠ 6
  | 0x0020 => decide (byteAt o.par 0 < 3) || o.dst.fmt = 6
  | 0x0022 => ((o.opd 1).absent || (o.opd 1).fmt = 0) && ((o.opd 2).absent || (o.opd 2).fmt = 0)
  | 0x0040 => (o.opd 1).fmt = 6
  | _ => true
/-- BAD_SHAPE (0x0123). -/
def shapesOk (o : OpDesc) : Bool :=
  let x := o.opd 0
  let d := o.dst
  (o.opds.all fun y => y.absent || y.shapeOk) &&
  match o.opid with
  | 0x0001 => x.lcols = (o.opd 1).lrows && d.rows = x.lrows && d.cols = (o.opd 1).lcols &&
      ((o.opd 2).absent || ((o.opd 2).lrows = d.rows && (o.opd 2).lcols = d.cols))
  | 0x0010 => let y := o.opd 1
      (y.lrows = x.lrows || y.lrows = 1) && (y.lcols = x.lcols || y.lcols = 1) && d.rows = x.lrows && d.cols = x.lcols
  | 0x0020 => if byteAt o.par 1 = 0 then d.rows = x.lrows && d.cols = 1 else d.rows = 1 && d.cols = x.lcols
  | 0x0022 => d.rows = x.lrows && d.cols = x.lcols && ([o.opd 1, o.opd 2].all fun g =>
      g.absent || (g.rows * g.cols = x.lcols && (g.rows = 1 || g.cols = 1)))
  | 0x0040 => (o.opd 1).lrows = 1 && d.rows = (o.opd 1).lcols && d.cols = x.lcols
  | 0x0000 => true
  | _ => d.rows = x.lrows && d.cols = x.lcols
/-- OVERLAP (0x0124, R187). The bias of GEMM is an input range. -/
def overlapOk (o : OpDesc) : Bool :=
  if o.opid = 0 then true else
  let d := o.dst
  let ins := o.opds.take (o.opds.length - 1)
  let own := o.opid = 0x0010 || o.opid = 0x0011 || o.opid = 0x0030
  let bias := opAddr (leAt o.par 16 8)
  (ins.zipIdx.all fun (x, i) => if own && i = 0 && opdSame x d then !opdsMeetElse x d else !opdsMeet x d) &&
  (o.opid ≠ 0x0001 || leAt o.par 16 8 = 0 ||
    d.ranges.all fun r => !rangesMeet r (bias.phys, bias.addr, 4 * d.cols))
/-- The checks made before anything is read or written, in the order of Table 8.7. -/
def descCheck (o : OpDesc) : Option Nat :=
  if (opDlen o.opid).isNone then some 0x120
  else if !descOk o then some 0x121
  else if !formatOk o then some 0x122
  else if !shapesOk o then some 0x123
  else if !overlapOk o then some 0x124
  else if o.flagAddr % 8 ≠ 0 then some 0x126
  else none

/-! ### Reading and writing tensors -/

/-- An operator in progress: its tile and its partition. -/
structure OpCtx where
  n : Fin 64
  p : Fin 32
deriving DecidableEq, Repr
/-- Rows of an operand as exact values, after TRANS. -/
def transpose {α : Type} (d : α) (rows cols : Nat) (m : List (List α)) : List (List α) :=
  (List.range cols).map fun j => (List.range rows).map fun i => (m.getD i []).getD j d
def readOpd (c : OpCtx) (o : Opd) (s : State) : OpM (List (List FV)) :=
  let f := o.ef
  let r := (List.range o.rows).foldl (fun (r : OpM (List (List FV))) i =>
    match r with
    | (.ok acc, s) =>
      match tileRead c.n c.p ⟨o.addr.phys, o.addr.addr + i * o.stride⟩ (f.rowBytes o.cols) s with
      | (.error e, s) => (.error e, s)
      | (.ok bs, s) =>
        if f.mx then
          match tileRead c.n c.p ⟨o.saddr.phys, o.saddr.addr + i * (o.cols / 32)⟩ (o.cols / 32) s with
          | (.error e, s) => (.error e, s)
          | (.ok sc, s) => (.ok (acc ++ [f.row bs sc o.cols]), s)
        else (.ok (acc ++ [f.row bs [] o.cols]), s)
    | r => r) (.ok [], s)
  match r with
  | (.ok m, s) => (.ok (if o.trans then transpose .nan o.rows o.cols m else m), s)
  | r => r
def nanFlag (m : List (List FV)) : Exc := if m.any (·.any (·.isNan)) then exNanIn else 0
/-- Rows of results written to D with the output conversion; the flags it set. -/
def writeOpd (c : OpCtx) (o : OpDesc) (rows : List (List FV)) (s : State) : OpM Exc :=
  let d := o.dst
  let f := d.ef
  rows.zipIdx.foldl (fun (r : OpM Exc) vi =>
    match r with
    | (.ok e, s) =>
      let out := f.convRow o.sat o.rmode o.seed (vi.2 * d.cols) vi.1
      match tileWrite c.n c.p ⟨d.addr.phys, d.addr.addr + vi.2 * d.stride⟩ out.1 s with
      | (.error x, s) => (.error x, s)
      | (.ok _, s) =>
        if f.mx then
          match tileWrite c.n c.p ⟨d.saddr.phys, d.saddr.addr + vi.2 * (d.cols / 32)⟩ out.2.1 s with
          | (.error x, s) => (.error x, s)
          | (.ok _, s) => (.ok (e ||| out.2.2), s)
        else (.ok (e ||| out.2.2), s)
    | r => r) (.ok 0, s)

/-! ### What the operators compute -/

/-- NAN_IN for the parameters that an operator uses (R181; DEDUCED, log 25: a parameter is an input of the operator). -/
def parNan (l : List F32) : Exc := if l.any fun x => (f32v x).isNan then exNanIn else 0
/-- ALPHA and BETA of GEMM; BETA is used where C is present. -/
def gemmPars (o : OpDesc) : List F32 :=
  BitVec.ofNat 32 (leAt o.par 0 4) :: (if (o.opd 2).absent then [] else [BitVec.ofNat 32 (leAt o.par 4 4)])
/-- ALPHA and BETA of ELTWISE. -/
def eltPars (o : OpDesc) : List F32 := [BitVec.ofNat 32 (leAt o.par 4 4), BitVec.ofNat 32 (leAt o.par 8 4)]
/-- A binary32 result with INVALID where a NaN came from no NaN (R181). -/
def invFlag (ins : List F32) (out : F32) : Exc :=
  if (f32v out).isNan && !(ins.any fun x => (f32v x).isNan) then exInvalid else 0
def toF32 (v : FV) : F32 := f32of v
/-- Rows computed by an element function with flags. -/
def mapRows (m : List (List FV)) (f : Nat → Nat → F32 → F32 × Exc) : List (List FV) × Exc :=
  let r := m.zipIdx.map fun ri => ri.1.zipIdx.map fun vj => f ri.2 vj.2 (toF32 vj.1)
  (r.map fun row => row.map fun x => f32v x.1, (r.flatten).foldl (fun (a : Exc) x => a ||| x.2) 0)
/-- D := act(ALPHA op(A) op(B) + BETA C + bias) (R184). `bT` holds B by columns. -/
def gemmRows (o : OpDesc) (a bT : List (List FV)) (cm : Option (List (List FV))) (bias : List F32) :
    List (List FV) × Exc :=
  let alpha : F32 := BitVec.ofNat 32 (leAt o.par 0 4)
  let beta : F32 := BitVec.ofNat 32 (leAt o.par 4 4)
  let fmt := (o.opd 0).fmt
  let r : List (List (F32 × Exc)) := a.zipIdx.map fun ri => bT.zipIdx.map fun cj =>
    let dot : F32 × Exc :=
      if fmt = 5 then
        let ints := fun (l : List FV) => l.map fun v => match v with | .fin d => d.toInt | _ => 0
        let x := dotInt (ints ri.1) (ints cj.1)
        (f32ofInt x.1, if x.2 then exOverflow else 0)
      else
        let x := if fmt = 0 then dotVector (ri.1.map toF32) (cj.1.map toF32) else dotTensor ri.1 cj.1
        (x, if (f32v x).isNan && !(ri.1.any (·.isNan)) && !(cj.1.any (·.isNan)) then exInvalid else 0)
    let t := f32mul alpha dot.1
    let e := invFlag [alpha, dot.1] t
    let (t, e) := match cm with
      | none => (t, e)
      | some m =>
        let cv := toF32 ((m.getD ri.2 []).getD cj.2 .nan)
        let bc := f32mul beta cv
        let u := f32add t bc
        (u, e ||| invFlag [beta, cv] bc ||| invFlag [t, bc] u)
    let (t, e) := match bias[cj.2]? with
      | none => (t, e)
      | some b => (f32add t b, e ||| invFlag [t, b] (f32add t b))
    (actFn (byteAt o.par 8) t, e ||| dot.2)
  (r.map fun row => row.map fun x => f32v x.1, r.flatten.foldl (fun (a : Exc) x => a ||| x.2) 0)
/-- OP(ALPHA x, BETA y) (Table 8.6). -/
def eltOp (op : Nat) (alpha beta x y : F32) : F32 × Exc :=
  let a := f32mul alpha x
  let b := f32mul beta y
  let e := invFlag [alpha, x] a ||| invFlag [beta, y] b
  let nan := (f32v a).isNan || (f32v b).isNan
  let r := match op with
    | 0 => f32add a b
    | 1 => f32sub a b
    | 2 => f32mul a b
    | 3 => if nan then f32of .nan else if (f32v a).lt (f32v b) then b else a
    | _ => if nan then f32of .nan else if (f32v b).lt (f32v a) then b else a
  (r, e ||| invFlag [a, b] r)
def eltRows (o : OpDesc) (x y : List (List FV)) : List (List FV) × Exc :=
  mapRows x fun i j v =>
    let row := if y.length = 1 then y.getD 0 [] else y.getD i []
    let w := if row.length = 1 then row.getD 0 .nan else row.getD j .nan
    eltOp (byteAt o.par 0) (BitVec.ofNat 32 (leAt o.par 4 4)) (BitVec.ofNat 32 (leAt o.par 8 4)) v (toF32 w)
/-- Reduction of one line (R185): sums in ascending order (log 25). -/
def reduceLine (op : Nat) (l : List F32) : F32 × Exc :=
  let anyNan := l.any fun x => (f32v x).isNan
  let best := fun (less : F32 → F32 → Bool) => l.zipIdx.foldl (fun (b : F32 × Nat) vi =>
    if vi.2 = 0 then (vi.1, 0) else if less vi.1 b.1 then (vi.1, vi.2) else b) (0, 0)
  let up := best fun a b => (f32v b).lt (f32v a)
  let dn := best fun a b => (f32v a).lt (f32v b)
  let firstNan := (l.findIdx? fun x => (f32v x).isNan).getD 0
  match op with
  | 0 => l.foldl (fun (a : F32 × Exc) x => (f32add a.1 x, a.2 ||| invFlag [a.1, x] (f32add a.1 x))) (0, 0)
  | 1 => (if anyNan then f32of .nan else up.1, 0)
  | 2 => (if anyNan then f32of .nan else dn.1, 0)
  | 3 => (f32ofInt (if anyNan then firstNan else up.2), 0)
  | _ => (f32ofInt (if anyNan then firstNan else dn.2), 0)
def reduceRows (o : OpDesc) (x : List (List FV)) : List (List FV) × Exc :=
  let lines := if byteAt o.par 1 = 0 then x else transpose .nan x.length ((x.getD 0 []).length) x
  let r := lines.map fun l => reduceLine (byteAt o.par 0) (l.map toF32)
  let vals := r.map fun v => f32v v.1
  (if byteAt o.par 1 = 0 then vals.map fun v => [v] else [vals], r.foldl (fun (a : Exc) x => a ||| x.2) 0)
/-- One row of SOFTMAX, within 2 ulp, the row maximum subtracted first (R185). -/
def softmaxRow (row : List FV) : List FV × Exc :=
  let l := row.map toF32
  if l.any fun x => (f32v x).isNan then (row.map fun _ => .nan, 0) else
  let mx := l.foldl (fun (b : Option F32) x => match b with
    | none => some x | some y => if (f32v y).lt (f32v x) then some x else some y) none
  let m := f32v (mx.getD 0)
  let d := l.map fun x => (f32v x).addX m.flip
  if d.any (·.isNan) then (row.map fun _ => .nan, exInvalid) else
  let e := d.map fun v => match v with | .fin x => FV.fin (expDy x) | .inf _ => .fin Dy.zero | .nan => .nan
  let sum := e.foldl FV.addX (.fin Dy.zero)
  (e.zipIdx.map fun vj => f32v (within2ulp (BitVec.ofNat 32 vj.2 :: l) 0x21 (vj.1.divX sum)), 0)
/-- One row of NORM, within 2 ulp (R185). -/
def normRow (kind : Nat) (eps : F32) (g h : List F32) (row : List FV) : List FV × Exc :=
  let l := row.map fun v => f32v (toF32 v)
  let n : FV := .fin (Dy.ofNat l.length)
  let mean := if kind = 0 then (l.foldl FV.addX (.fin Dy.zero)).divX n else .fin Dy.zero
  let dev := l.map fun v => v.addX mean.flip
  let var := (dev.foldl (fun (a v : FV) => a.addX (v.mulX v)) (FV.fin Dy.zero)).divX n
  let den := (var.addX (f32v eps)).sqrtX
  let out := dev.zipIdx.map fun vj =>
    ((vj.1.divX den).mulX (f32v (g.getD vj.2 0x3F800000))).addX (f32v (h.getD vj.2 0))
  let ins := row.map toF32 ++ g ++ h
  let res := out.zipIdx.map fun vj => within2ulp (BitVec.ofNat 32 vj.2 :: eps :: ins) (BitVec.ofNat 8 (0x22 + 0x80 * kind)) vj.1
  (res.map f32v, res.foldl (fun (a : Exc) x => a ||| invFlag (eps :: ins) x) 0)

/-! ### Running an operator (R174, R175) -/

/-- The head job of a tile ends: its command's status and DETAIL; an idle tile's clock is gated (R149). -/
def opEnd (n : Fin 64) (j : OpJob) (st detail : Nat) (s : State) : State :=
  finishCmd j.origin (BitVec.ofNat 16 st) (BitVec.ofNat 32 detail)
    (s.modTile n fun t => { t with jobs := t.jobs.drop 1, gate := if t.jobs.length ≤ 1 && !t.lane then 1 else 0 })
/-- The flag write after every output (R175), then OK with the exception flags as DETAIL. -/
def opFlag (c : OpCtx) (o : OpDesc) (j : OpJob) (e : Exc) (s : State) : State :=
  if o.flagAddr = 0 then opEnd c.n j 0 e.toNat s else
  match tileWrite c.n c.p (opAddr o.flagAddr) (natLe 8 o.flagValue) s with
  | (.ok _, s) => opEnd c.n j 0 e.toNat s
  | (.error x, s) => opEnd c.n j x.1 x.2 s
/-- Results of an operator written out, the flag after them, the status. -/
def opStore (c : OpCtx) (o : OpDesc) (j : OpJob) (r : List (List FV) × Exc) (s : State) : State :=
  match writeOpd c o r.1 s with
  | (.error x, s) => opEnd c.n j x.1 x.2 s
  | (.ok e, s) => opFlag c o j (r.2 ||| e) s
/-- An operand read, then the rest; an absent one is `none`. -/
def withOpd (c : OpCtx) (j : OpJob) (o : Opd) (s : State) (k : List (List FV) → State → State) : State :=
  if o.absent then k [] s else
  match readOpd c o s with
  | (.error x, s) => opEnd c.n j x.1 x.2 s
  | (.ok m, s) => k m s
/-- The bias of GEMM. -/
def withBias (c : OpCtx) (j : OpJob) (o : OpDesc) (s : State) (k : List F32 → State → State) : State :=
  let v := leAt o.par 16 8
  if v = 0 then k [] s else
  match tileRead c.n c.p (opAddr v) (4 * o.dst.cols) s with
  | (.error x, s) => opEnd c.n j x.1 x.2 s
  | (.ok bs, s) => k ((List.range o.dst.cols).map fun i => BitVec.ofNat 32 (leAt bs (4 * i) 4)) s
/-- The job that operator row OPID of tile n runs: the head job, started, with that OPID. -/
def opJob (s : State) (n : Fin 64) (opid : Nat) : Option OpJob :=
  match (vget s.tiles n).jobs with
  | j :: _ => if j.started && leAt j.desc 0 2 = opid && !(vget s.tiles n).held && !isFenced s (fidMk 2 n) then some j
              else none
  | [] => none
/-- The checks before anything is read, the INV step, then the operator. -/
def opRun (n : Fin 64) (j : OpJob) (body : OpCtx → OpDesc → State → State) (s : State) : State :=
  let o := opDesc j.desc
  match descCheck o with
  | some st => opEnd n j st 0 s
  | none => body ⟨n, j.part⟩ o (if o.inv then loomInvalidate n s else s)
def opRow (n : Fin 64) (opid : Nat) (body : OpJob → OpCtx → OpDesc → State → State) (s : State) :
    Host.Outcome State Fault Refusal :=
  match opJob s n opid with
  | none => .next s
  | some j => doneFrom s (opRun n j (body j) s)

/-- OPERATOR: the cluster takes the descriptor and hands the operator to its tile (R173, R174). -/
def operatorBegin (n : Fin 64) (k : Nat) (c : Cmd) (s : State) : State :=
  let a := leAt c.bytes 32 8
  let t : Fin 64 := ⟨fidIdx c.target % 64, by omega⟩
  match queuePart s n with
  | none => endCmd n k 3 0 s
  | some p =>
    let give := fun (d : List Byte) (s : State) =>
      setCmd n k .waiting (s.modTile t fun x => { x with jobs := x.jobs ++ [{ origin := (n, c.slot), desc := d, part := p }] })
    let u : Unit_ := { fid := match cmdDie c with | some d => fidMk 13 d | none => c.target, part := p, side := .plain,
                       core := true }
    if !zeroAt c.bytes 40 24 then endCmd n k 0x121 0 s
    else if a = 0 then
      (if c.inlineLen = leAt c.inline 2 2 && decide (32 ≤ c.inlineLen) then give c.inline s else endCmd n k 0x121 0 s)
    else if a % 64 ≠ 0 then endCmd n k 0x121 0 s
    else
      let dram := match addrClass a with | .ddr | .stack _ => true | _ => false
      if !dram then endCmd n k 4 (a % 2 ^ 32) (accessError u.fid false 6 a s) else
      match rangeRead u a 32 s with
      | (.ok h, _, s) =>
        match rangeRead u a (max 32 (min 192 (leAt h 2 2))) s with
        | (.ok d, _, s) => give d s
        | (r, b, s) => endCmd n k (accEnd r b).1 (accEnd r b).2 (failAccess u false r b s)
      | (r, b, s) => endCmd n k (accEnd r b).1 (accEnd r b).2 (failAccess u false r b s)
def execOperator (n : Fin 64) (k : Nat) (s : State) : Host.Outcome State Fault Refusal :=
  match beginCmd s n k 0x10 with
  | none => .next s
  | some c => doneFrom s (operatorBegin n k c s)
/-- The first waiting operator of a tile starts: its command runs, the tile's clock with it; an OPID that Table 8.5 does
not list ends it (R173). -/
def operatorStartOf (n : Fin 64) (j : OpJob) (s : State) : State :=
  let s := s.modTile n fun t => { t with gate := 0, jobs := { j with started := true } :: t.jobs.drop 1 }
  let s := s.modQueue j.origin.1 fun q => { q with disp := q.disp.map fun c =>
    if c.slot = j.origin.2 && c.st = .waiting then { c with st := .running } else c }
  if (opDlen (leAt j.desc 0 2)).isNone then opEnd n j 0x120 0 s else s
def execOperatorStart (n : Fin 64) (s : State) : Host.Outcome State Fault Refusal :=
  match (vget s.tiles n).jobs with
  | [] => .next s
  | j :: _ => doneIf (!j.started && !(vget s.tiles n).held && !isFenced s (fidMk 2 n) && s.island.mode = .full) s
      (operatorStartOf n j)

def execOpNop (n : Fin 64) (s : State) : Host.Outcome State Fault Refusal :=
  opRow n 0x0000 (fun j c o s => opFlag c o j 0 s) s
def execGemm (n : Fin 64) (s : State) : Host.Outcome State Fault Refusal :=
  opRow n 0x0001 (fun j c o s =>
    withOpd c j (o.opd 0) s fun a s => withOpd c j (o.opd 1) s fun b s => withOpd c j (o.opd 2) s fun m s =>
    withBias c j o s fun bias s =>
      let bT := transpose .nan b.length ((b.getD 0 []).length) b
      let r := gemmRows o a bT (if (o.opd 2).absent then none else some m) bias
      opStore c o j (r.1, r.2 ||| nanFlag a ||| nanFlag b ||| nanFlag m |||
        parNan (gemmPars o ++ bias)) s) s
def execEltwise (n : Fin 64) (s : State) : Host.Outcome State Fault Refusal :=
  opRow n 0x0010 (fun j c o s =>
    withOpd c j (o.opd 0) s fun x s => withOpd c j (o.opd 1) s fun y s =>
      let r := eltRows o x y
      opStore c o j (r.1, r.2 ||| nanFlag x ||| nanFlag y ||| parNan (eltPars o)) s) s
def execAct (n : Fin 64) (s : State) : Host.Outcome State Fault Refusal :=
  opRow n 0x0011 (fun j c o s =>
    withOpd c j (o.opd 0) s fun x s =>
      let r := mapRows x fun _ _ v => (actFn (byteAt o.par 0) v, 0)
      opStore c o j (r.1, r.2 ||| nanFlag x) s) s
def execReduce (n : Fin 64) (s : State) : Host.Outcome State Fault Refusal :=
  opRow n 0x0020 (fun j c o s =>
    withOpd c j (o.opd 0) s fun x s =>
      let r := reduceRows o x
      opStore c o j (r.1, r.2 ||| nanFlag x) s) s
def execSoftmax (n : Fin 64) (s : State) : Host.Outcome State Fault Refusal :=
  opRow n 0x0021 (fun j c o s =>
    withOpd c j (o.opd 0) s fun x s =>
      let r := x.map softmaxRow
      opStore c o j (r.map (·.1), r.foldl (fun (a : Exc) y => a ||| y.2) (nanFlag x)) s) s
def execNorm (n : Fin 64) (s : State) : Host.Outcome State Fault Refusal :=
  opRow n 0x0022 (fun j c o s =>
    withOpd c j (o.opd 0) s fun x s => withOpd c j (o.opd 1) s fun g s => withOpd c j (o.opd 2) s fun h s =>
      let r := x.map (normRow (byteAt o.par 0) (BitVec.ofNat 32 (leAt o.par 4 4)) (g.flatten.map toF32) (h.flatten.map toF32))
      opStore c o j (r.map (·.1), r.foldl (fun (a : Exc) y => a ||| y.2)
        (nanFlag x ||| nanFlag g ||| nanFlag h ||| parNan [BitVec.ofNat 32 (leAt o.par 4 4)])) s) s
def execConvert (n : Fin 64) (s : State) : Host.Outcome State Fault Refusal :=
  opRow n 0x0030 (fun j c o s =>
    withOpd c j (o.opd 0) s fun x s => opStore c o j ((mapRows x fun _ _ v => (v, 0)).1, nanFlag x) s) s
/-- Rows of X named by the indices, up to the first one out of range (R186). -/
def gatherRows (limit : Nat) (x : List (List FV)) (idx : List Int) : List (List FV) × Bool :=
  let ok := idx.takeWhile fun (i : Int) => decide (0 ≤ i) && decide (i.toNat < limit) && decide (i.toNat < x.length)
  (ok.map fun i => (x.getD i.toNat []).map fun v => f32v (toF32 v), decide (ok.length < idx.length))
def execGather (n : Fin 64) (s : State) : Host.Outcome State Fault Refusal :=
  opRow n 0x0040 (fun j c o s =>
    withOpd c j (o.opd 0) s fun x s => withOpd c j (o.opd 1) s fun i s =>
      let idx := (i.getD 0 []).map fun v => match v with | .fin d => d.toInt | _ => -1
      let r := gatherRows (leAt o.par 0 4) x idx
      if r.2 then
        (match writeOpd c o r.1 s with
         | (.error e, s) => opEnd c.n j e.1 e.2 s
         | (.ok _, s) => opEnd c.n j 0x125 0 s)
      else opStore c o j (r.1, nanFlag r.1) s) s

end Sys2Proof.Machine
end

