-- ==== Sys2Proof/Machine/TrainOps.lean ====
section
/-! DEFINITION. Collective channels (spec/10): the descriptor, compression, sending, landing of contributions, the close of
a step, checkpoints, recovery. The rows are in Training.lean. -/
namespace Sys2Proof.Machine

def clusterFid (d : Fin 4) : Fid := fidMk 13 d
/-- Accesses of a channel are engine accesses of its partition (R216, R217). -/
def chanUnit (d : Fin 4) (p : Fin 32) : Unit_ := { fid := clusterFid d, part := p, side := .engine, core := false }
/-- The collective engine as a source on the fabric. -/
def collGroup (d : Fin 4) : Fin 16 := ⟨d, by omega⟩

/-! ### The descriptor (Table 10.2, R216, R217) -/

def chanDesc (b : List Byte) : ChanDesc :=
  let nm := leAt b 4 2
  let ns := leAt b 6 2
  let fl := byteAt b 13
  let all := slice b 0 (128 + 2 * (nm + ns))
  { id := BitVec.ofNat 16 (leAt b 0 2), drop := byteAt b 2 = 1, fmt := BitVec.ofNat 8 (byteAt b 3), nmemb := nm,
    nspare := ns, self := leAt b 8 2, staleMax := byteAt b 10, missMax := byteAt b 11, paceGrace := byteAt b 12,
    earlyClose := bitOf fl 0, stepEvents := bitOf fl 1, kper := leAt b 14 2, t0 := BitVec.ofNat 64 (leAt b 16 8),
    period := BitVec.ofNat 64 (leAt b 24 8), deadlineOfs := BitVec.ofNat 64 (leAt b 32 8), nelem := leAt b 40 8,
    ckptEvery := leAt b 48 4, recover := BitVec.ofNat 64 (leAt b 56 8), grad := leAt b 64 8, resid := leAt b 72 8,
    master := leAt b 80 8, param := leAt b 88 8, acc := leAt b 96 8, short := leAt b 104 8, stage := leAt b 112 8,
    ckpt := leAt b 120 8, members := (List.range (nm + ns)).map fun i => BitVec.ofNat 12 (leAt b (128 + 2 * i) 2),
    crc := crc32 (all.take 8 ++ all.drop 10) }
/-- S, the elements of a shard. -/
def ChanDesc.S (c : ChanDesc) : Nat := c.nelem / c.nmemb
/-- CBYTES (Table 10.4). -/
def ChanDesc.cbytes (c : ChanDesc) : Nat :=
  match c.fmt.toNat with
  | 0 => 4 * c.S | 1 => 2 * c.S | 2 => c.S / 4096 * (8 + 4 * c.kper) | _ => c.S / 4096 * 520
/-- The stack that holds an address. -/
def stackOf (a : Nat) : Option (Fin 8) := match addrClass a with | .stack k => some k | _ => none
/-- The parameter block of a channel. -/
def chanParam (s : State) (c : ChanDesc) : Param := paramOf (rdBytes s c.param 128)
/-- CKSZ (R216). -/
def chanCksz (s : State) (c : ChanDesc) : Nat := if (chanParam s c).alg = 0 then 8 * c.S else 12 * c.S
/-- Descriptor fields within their ranges (Table 10.2); `b` are the descriptor's bytes. -/
def descInRange (s : State) (b : List Byte) (c : ChanDesc) : Bool :=
  decide (byteAt b 2 ≤ 1) && decide (c.fmt.toNat ≤ 3) && decide (2 ≤ c.nmemb) && decide (c.nmemb ≤ 4096) &&
  decide (c.nspare ≤ 64) && decide (c.self < c.nmemb + c.nspare) && c.members[c.self]? = some (chipId s) &&
  decide (1 ≤ c.staleMax) && decide (c.staleMax ≤ 7) && decide (1 ≤ c.missMax) && decide (byteAt b 13 < 4) &&
  decide (1 ≤ c.kper) && decide (c.kper ≤ 4096) &&
  ((List.range (c.nmemb + c.nspare)).all fun i => decide (leAt b (128 + 2 * i) 2 < 4096)) && decide (1600000 ≤ c.period) &&
  decide (c.deadlineOfs < c.period) && decide (0 < c.nelem) && decide (c.nelem % (4096 * c.nmemb) = 0) &&
  (match c.fmt.toNat with | 0 => c.resid = 0 | 1 => true | _ => c.resid ≠ 0)
/-- A range that lies wholly in DDR5, or in one stack. -/
def inDram (s : State) (a n : Nat) : Bool :=
  (decide (a + n ≤ s.island.ddrSize) && decide (a + n ≤ 0x10000000000)) || (List.finRange 8).any fun k => inStack k a n
/-- R217: masters, accumulators, short copies with their scales, parameters and moments in one stack of the partition, at
offsets that keep an element's arrays in one engine; the other areas in DRAM. A chip ID of the list has 12 bits. -/
def descPlaced (s : State) (p : Fin 32) (c : ChanDesc) : Bool :=
  match stackOf c.master with
  | none => false
  | some k =>
    let q := chanParam s c
    belongs s p (fidMk 4 k) && decide (c.master % 256 = 0) && inStack k c.master (4 * c.S) &&
    inStack k c.param 384 && decide (c.param % 64 = 0) && inStack k c.acc (8 * c.S) &&
    decide (c.acc % 0x2000 = c.master % 0x2000) && inStack k c.short (c.nelem * shortBytes q.sfmt) &&
    inStack k q.mbase (4 * c.S) && (q.alg = 0 || inStack k q.vbase (4 * c.S)) &&
    (q.sfmt ≠ 2 || (decide (c.self * (c.S / 32) ≤ q.sscale) && inStack k (q.sscale - c.self * (c.S / 32)) (c.nelem / 32))) &&
    inDram s c.grad (4 * c.nelem) && (c.resid = 0 || inDram s c.resid (4 * c.nelem)) &&
    inDram s c.stage (2 * c.nmemb * c.cbytes) && (c.ckptEvery = 0 || inDram s c.ckpt (4 * chanCksz s c))
def stepIt (c : ChanDesc) (n : BitVec 32) : Time := c.t0 + n.setWidth 64 * c.period
def deadlineOf (c : ChanDesc) (n : BitVec 32) : Time := stepIt c n + c.deadlineOfs

/-! ### Areas (R216, R217) -/

/-- A read of an area as the channel's partition; a failing one is recorded. -/
def areaRead (d : Fin 4) (p : Fin 32) (a n : Nat) (s : State) : Option (List Byte) × State :=
  match rangeRead (chanUnit d p) a n s with
  | (.ok b, _, s) => (some b, s)
  | (x, a, s) => (none, failAccess (chanUnit d p) false x a s)
/-- A write of an area as the channel's partition, and whether all of it was made. -/
def areaWrite (d : Fin 4) (p : Fin 32) (a : Nat) (bs : List Byte) (s : State) : Bool × State :=
  match rangeWrite (chanUnit d p) a bs s with
  | (.ok _, _, s) => (true, s)
  | (x, a, s) => (false, failAccess (chanUnit d p) true x a s)
def areaZero (d : Fin 4) (p : Fin 32) (a n : Nat) (s : State) : Bool × State := areaWrite d p a (List.replicate n 0) s
/-- Bytes moved within this chip by a channel. -/
def areaCopy (d : Fin 4) (p : Fin 32) (dst src n : Nat) (s : State) : Bool × State :=
  match areaRead d p src n s with
  | (some b, s) => areaWrite d p dst b s
  | (none, s) => (false, s)

/-! ### Events and lookups -/

/-- An event of a channel (R236). -/
def chanEvent (d : Fin 4) (c : ChanDesc) (cls : BitVec 8) (p : BitVec 128) (s : State) : State :=
  emit (clusterFid d) cls (pl 16 c.id.toNat + p) s
/-- The slot that a packet's channel is open in (R235). -/
def findChan (s : State) (part : Fin 32) (id : Nat) : Option (Fin 4 × Fin 8) :=
  ((List.finRange 4).flatMap fun d => (List.finRange 8).map fun k => (d, k)).find? fun dk =>
    let c := s.chan dk.1 dk.2
    c.st ≠ .closed && c.part = part && match c.desc with | some e => e.id.toNat = id | none => false
/-- A pace notice of a chip in force now (R232). -/
def paced (s : State) (chip : BitVec 12) : Bool :=
  s.paceFrom.any fun x => x.1 = chip && decide (s.time.it ≤ x.2.until_)
def lookupN (l : List (Nat × Nat)) (i : Nat) : Nat := ((l.find? (·.1 = i)).map (·.2)).getD 0
def setN (l : List (Nat × Nat)) (i v : Nat) : List (Nat × Nat) :=
  let l := l.filter (·.1 ≠ i)
  if v = 0 then l else l ++ [(i, v)]

/-! ### Compression (R225, R226) -/

/-- A binary32 rounded to nearest even at bit 12, kept finite: the 20-bit VALUE of TOPK. -/
def topkValue (e : F32) : Nat :=
  let m := e.toNat % 2 ^ 31
  let q := m / 4096
  let r := m % 4096
  let q := if r > 2048 || (r = 2048 && q % 2 = 1) then q + 1 else q
  (if e.getLsbD 31 then 2 ^ 19 else 0) + min q 0x7F7FF
/-- An element sent: its place in the shard and the decoded value. -/
abbrev Coded := List (Nat × F32)
/-- |e| as an order key: the bits without the sign. -/
def magn (e : F32) : Nat := e.toNat % 2 ^ 31
/-- Whether entry i of a chunk is among the k of greatest magnitude, the lower index first on ties. -/
def topkKeeps (l : List F32) (k : Nat) (i : Nat) (e : F32) : Bool :=
  decide ((l.zipIdx.filter fun x => decide (magn e < magn x.1) || (magn x.1 = magn e && decide (x.2 < i))).length < k)
/-- One chunk coded: its bytes and what they decode to, at offset `b` of the shard. -/
def codeChunk (fmt kper : Nat) (n b : Nat) (es : List F32) : List Byte × Coded :=
  match fmt with
  | 0 => (es.flatMap fun e => natLe 4 e.toNat, es.zipIdx.map fun x => (b + x.2, x.1))
  | 1 =>
    let vs := es.map fun e => fmtB16.bits (fmtB16.norm (f32v e))
    (vs.flatMap (natLe 2), vs.zipIdx.map fun x => (b + x.2, BitVec.ofNat 32 (x.1 * 2 ^ 16)))
  | 2 =>
    let keep := es.zipIdx.filter fun x => topkKeeps es kper x.2 x.1
    (natLe 4 n ++ natLe 4 kper ++ keep.flatMap (fun x => natLe 4 (x.2 + 4096 * topkValue x.1)),
     keep.map fun x => (b + x.2, BitVec.ofNat 32 (topkValue x.1 * 4096)))
  | _ =>
    let sum := es.foldl (fun (a : F32) e => f32add a (BitVec.ofNat 32 (magn e))) 0
    let sc := f32mul sum 0x39800000
    let bits := es.zipIdx.foldl (fun (a : Nat) x => if x.1.getLsbD 31 then a + 2 ^ x.2 else a) 0
    (natLe 4 n ++ natLe 4 sc.toNat ++ natLe 512 bits,
     es.zipIdx.map fun x => (b + x.2, if x.1.getLsbD 31 then f32neg sc else sc))
def chunks (n : Nat) (es : List F32) : Nat → List (List F32)
  | 0 => []
  | k + 1 => es.take n :: chunks n (es.drop n) k
/-- A shard coded: its stream, and what it decodes to (Table 10.4). -/
def codeShard (c : ChanDesc) (es : List F32) : List Byte × Coded :=
  let r := ((chunks 4096 es (c.S / 4096)).zipIdx.map fun x => codeChunk c.fmt.toNat c.kper x.2 (4096 * x.2) x.1)
  (r.flatMap (·.1), r.flatMap (·.2))
/-- What a stored contribution decodes to (R227). -/
def decodeShard (c : ChanDesc) (b : List Byte) : Coded :=
  let w := fun o => BitVec.ofNat 32 (leAt b o 4)
  match c.fmt.toNat with
  | 0 => (List.range c.S).map fun i => (i, w (4 * i))
  | 1 => (List.range c.S).map fun i => (i, BitVec.ofNat 32 (leAt b (2 * i) 2 * 2 ^ 16))
  | 2 => (List.range (c.S / 4096)).flatMap fun q =>
      let o := q * (8 + 4 * c.kper)
      (List.range (min c.kper (fld (leAt b o 8) 32 13))).map fun i =>
        let x := leAt b (o + 8 + 4 * i) 4
        (4096 * leAt b o 4 + x % 4096, BitVec.ofNat 32 (x / 4096 * 4096))
  | _ => (List.range (c.S / 4096)).flatMap fun q =>
      let o := q * 520
      let sc := w (o + 4)
      (List.range 4096).map fun i =>
        (4096 * leAt b o 4 + i, if bitOf (byteAt b (o + 8 + i / 8)) (i % 8) then f32neg sc else sc)

/-! ### Sending (R235, R207) -/

/-- Bytes 0 to 15 of a collective packet's data. -/
def subHeader (c : ChanDesc) (ckind : Nat) (step : BitVec 32) (ofs : Nat) : List Byte :=
  natLe 2 c.id.toNat ++ [BitVec.ofNat 8 ckind, 0] ++ natLe 4 step.toNat ++ natLe 4 ofs ++ natLe 2 c.self ++ [0, 0]
/-- A held packet of a channel may go: a FINAL once every earlier packet is answered (R207), any other under R204. -/
def mayColl (s : State) (d : Fin 4) (k : Fin 8) (out : List NetWrite) (w : NetWrite) : Bool :=
  !routeChanged s (collGroup d) k w && (!w.final ||
    ((out.all fun o => decide (w.ord ≤ o.ord)) &&
     (outstanding s (collGroup d) k true w.stream).all fun o => decide (w.ord < o.ord)))
/-- A packet of a channel: sent, or held in its order. -/
def collSend (d : Fin 4) (k : Fin 8) (w : NetWrite) (s : State) : State :=
  let c := s.chan d k
  let w := { w with ord := c.ord }
  let s := s.modChan d k fun c => { c with ord := c.ord + 1 }
  if mayColl s d k c.out w then sendWrite (collGroup d) k w s
  else s.modChan d k fun c => { c with out := c.out ++ [w] }
/-- Held packets that may go, in order. -/
def collRelease (d : Fin 4) (k : Fin 8) (s : State) : State :=
  ((s.chan d k).out).foldl (fun s _ =>
    let c := s.chan d k
    match c.out.find? (mayColl s d k c.out) with
    | none => s
    | some w => sendWrite (collGroup d) k w (s.modChan d k fun c => { c with out := c.out.erase w })) s
def collPacket (c : ChanDesc) (p : Fin 32) (dst : BitVec 12) (ckind : Nat) (step : BitVec 32) (ofs : Nat) (final : Bool)
    (data : List Byte) : NetWrite :=
  { dst := dst, part := p, addr := 0, data := subHeader c ckind step ofs ++ data, stream := 0, final := final,
    coll := true }
/-- A stream of bytes in packets of at most 192, FINAL on the last. -/
def collStream (d : Fin 4) (k : Fin 8) (c : ChanDesc) (p : Fin 32) (dst : BitVec 12) (ckind : Nat) (step : BitVec 32)
    (data : List Byte) (s : State) : State :=
  let n := max 1 (ceilDiv data.length 192)
  (List.range n).foldl (fun s i =>
    collSend d k (collPacket c p dst ckind step (192 * i) (i + 1 = n) ((data.drop (192 * i)).take 192)) s) s
/-- CKIND and STEP of a packet's or write's data. -/
def ckindOf (data : List Byte) : Nat := byteAt data 2
def cstepOf (data : List Byte) : Nat := leAt data 4 4
/-- Packets of a kind and up to a step that are held or unanswered. -/
def collPending (s : State) (d : Fin 4) (k : Fin 8) (f : List Byte → Bool) : Bool :=
  ((s.chan d k).out.any fun w => f w.data) || (outstanding s (collGroup d) k true 0).any fun w => f w.data

/-! ### Engines of a channel's stack -/

/-- Every engine of a stack set to a mode and window. -/
def stackMode (k : Fin 8) (accum : Bool) (base lim : Nat) (s : State) : State :=
  { s with peat := vmod s.peat k fun st => { st with eng := st.eng.map fun e =>
      { e with accum := accum, abase := BitVec.ofNat 44 base, alim := BitVec.ofNat 44 lim } } }
/-- Engines back to DIRECT (R223). -/
def stackDirect (k : Fin 8) (s : State) : State :=
  { s with peat := vmod s.peat k fun st => { st with eng := st.eng.map fun e => { e with accum := false } } }
/-- Operations of a channel in progress are abandoned. -/
def chanAbort (d : Fin 4) (k : Fin 8) (c : ChanDesc) (s : State) : State :=
  match stackOf c.master with
  | none => s
  | some q => { s with peat := vmod s.peat q fun st => { st with eng := st.eng.map fun e =>
      match e.run with
      | some r => if r.why = .channel d k then { e.result r.tag 5 with run := none } else e
      | none => e } }
/-- Every engine of the channel's stack is READY (R169). -/
def stackReady (s : State) (c : ChanDesc) : Bool :=
  match stackOf c.master with | some q => (vget s.peat q).eng.toList.all (·.ready) | none => false
/-- An operation over the shard on all 32 engines, with the slice, the accumulator and ZG of the step (R230). It waits
until every engine is READY (log 43). -/
def chanOp (d : Fin 4) (k : Fin 8) (c : ChanDesc) (opc : BitVec 8) (step : BitVec 32) (ph : CastPhase) (s : State) : State :=
  match stackOf c.master with
  | none => s
  | some q =>
    if !stackReady s c then s.modChan d k fun x => { x with castWait := some (step, ph, 32), waitOp := some opc } else
    let pb := rdBytes s c.param 128
    let b := shortBytes (byteAt pb 2)
    let pb := (pb.take 1 ++ [BitVec.ofNat 8 (byteAt pb 1 ||| 1)] ++ (pb.drop 2).take 38) ++
      natLe 8 (c.acc + step.toNat % 2 * (4 * c.S)) ++ (pb.drop 48).take 16 ++
      natLe 8 (c.short + c.self * c.S * b) ++ pb.drop 72
    let t := freshFree s
    let s := (List.finRange 32).foldl (fun s j => s.modEng q j fun e => { e with
      run := some { why := .channel d k, opc := opc, tag := t.1.setWidth 32, base := c.master, len := 4 * c.S,
                    par := c.param, pblk := pb } }) t.2
    s.modChan d k fun x => { x with castWait := some (step, ph, 32), waitOp := none }

/-! ### Halting and failing (R234) -/

/-- CONTRIBs in progress end with a status. -/
def endContribs (d : Fin 4) (k : Fin 8) (st : BitVec 16) (s : State) : State :=
  let l := (s.chan d k).contrib
  l.foldl (fun s r => finishCmd r.origin st 0 s) (s.modChan d k fun c => { c with contrib := [] })
/-- The channel halts (class 0x6C). -/
def haltChan (d : Fin 4) (k : Fin 8) (cause : Nat) (s : State) : State :=
  match (s.chan d k).desc with
  | none => s
  | some c =>
    let step := (s.chan d k).openStep
    let s := chanAbort d k c (s.modChan d k fun x => { x with st := .halted, out := [], castWait := none, waitOp := none, recover := none })
    chanEvent d c 0x6C (pl 18 cause + pl 20 step.toNat) (endContribs d k 0x144 s)
/-- Masters and moments from a local generation, then the CAST of the step it holds (R234 steps 2 and 5). A refused copy
leaves the shard unrestored. -/
def restoreShard (d : Fin 4) (k : Fin 8) (c : ChanDesc) (cr : BitVec 32) (s : State) : State :=
  let p := (s.chan d k).part
  let q := chanParam s c
  let n := 4 * c.S
  let g := c.ckpt + cr.toNat / c.ckptEvery % 2 * chanCksz s c
  let r := areaCopy d p c.master g n s
  let r1 := areaCopy d p q.mbase (g + n) n r.2
  let r2 := if q.alg = 0 then (true, r1.2) else areaCopy d p q.vbase (g + 2 * n) n r1.2
  if r.1 && r1.1 && r2.1 then chanOp d k c 4 cr .cast r2.2 else r2.2
/-- c_r of R234: the greatest step of a checkpoint whose STEP_IT(c + CKPT_EVERY) is not above F_IT. -/
def ckptStep (c : ChanDesc) (fit : Time) : Option (BitVec 32) :=
  if c.ckptEvery = 0 ∨ c.period = 0 ∨ fit.toNat < (stepIt c (BitVec.ofNat 32 c.ckptEvery)).toNat then none
  else some (BitVec.ofNat 32 (((fit - c.t0).toNat / c.period.toNat / c.ckptEvery - 1) * c.ckptEvery))
/-- r_it of R234. -/
def resumeIt (c : ChanDesc) (fit : Time) : Time :=
  c.t0 + c.period * BitVec.ofNat 64 (ceilDiv (fit + c.recover - c.t0).toNat c.period.toNat)
/-- The spare that replaces a failed member. -/
def nextSpare (c : ChanDesc) (x : Chan) : Option Nat :=
  ((List.range c.nspare).map (· + c.nmemb)).find? fun i => i ∈ x.hellos && !(i ∈ x.sparesUsed)
/-- What a recovery needs before it may run, as the cause of class 0x6C when it is missing: a checkpoint step, a spare, a
member's local copy and the mirror copies, lost where the successor of a failed member has failed too (R234). `fails` are
the failed members, this chip's index is `me`, and `sp` the spare for the member that the notice names. -/
def recoverHalts (c : ChanDesc) (x : Chan) (me : Nat) (fails : List Nat) (cr : Option (BitVec 32)) (sp : Option Nat) : Option Nat :=
  match cr, sp with
  | none, _ => some 4
  | some _, none => some 0
  | some cr, some _ =>
    let g : Fin 2 := ⟨cr.toNat / c.ckptEvery % 2, by omega⟩
    let old := decide (me < c.nmemb) && !(me ∈ fails)
    let succ := fails.any fun m => me = (m + 1) % c.nmemb
    if (fails.any fun m => (m + 1) % c.nmemb ∈ fails) || (old && vget x.localGen g ≠ some cr) ||
      (old && succ && vget x.mirrorGen g ≠ some cr) then some 1 else none
/-- The restore of a recovery on a live chip (R234 steps 2 to 5): RESID, ACC and STAGE zeroed, the shard restored, and the
mirror copies of failed predecessors pushed to the spares that replace them. A spare that replaces a member waits for
its copy. -/
def recoverWork (d : Fin 4) (k : Fin 8) (c : ChanDesc) (fails : List Nat) (cr : BitVec 32) (s : State) : State :=
  let p := (s.chan d k).part
  let s := if c.resid = 0 then s else (areaZero d p c.resid (4 * c.nelem) s).2
  let s := (areaZero d p c.stage (2 * c.nmemb * c.cbytes) (areaZero d p c.acc (8 * c.S) s).2).2
  if c.nmemb ≤ c.self then s.modChan d k fun x => { x with restored := true }
  else if c.self ∈ fails then s
  else
    let n := chanCksz s c
    let s := (fails.filter fun m => c.self = (m + 1) % c.nmemb).foldl (fun s m =>
      match areaRead d p (c.ckpt + (2 + cr.toNat / c.ckptEvery % 2) * n) n s with
      | (some b, s) => collStream d k c p (c.members.getD m 0) 4 cr b s
      | (none, s) => s) s
    restoreShard d k c cr s
/-- A recovery starts or is joined by a notice that names member `m` with F_IT (R234). A notice that names a member
already replaced by the recovery, as another owner of it sends, joins it without a further spare. -/
def failNotice (d : Fin 4) (k : Fin 8) (m : Nat) (fit : Time) (s : State) : State :=
  let x := s.chan d k
  match x.desc with
  | none => s
  | some c =>
    let again := m ∈ x.replaced
    if x.st ≠ .run ∧ x.st ≠ .recovering then s
    else if !again && c.members[m]? = some (chipId s) && m = c.self then
      let s := chanAbort d k c (s.modChan d k fun x => { x with
        st := .expelled, out := [], castWait := none, waitOp := none, recover := none })
      endContribs d k 0x146 s
    else if x.st = .run && (match x.lastRit with | some t => decide (fit < t) | none => false) then haltChan d k 3 s
    else
      let fMin := match x.recover with | some r => if fit < r.fMin then fit else r.fMin | none => fit
      let fMax := match x.recover with | some r => if r.fMax < fit then fit else r.fMax | none => fit
      let cr := ckptStep c fMin
      let sp := if again then some m else nextSpare c x
      let fails := if again then x.replaced else x.replaced ++ [m]
      match recoverHalts c x c.self fails cr sp, cr, sp with
      | some h, _, _ => haltChan d k h s
      | none, some cr, some sp =>
        let rit := resumeIt c fMax
        let c' := if again then c else
          { c with members := c.members.set m (c.members.getD sp 0), self := if c.self = sp then m else c.self }
        let same := again && (x.recover.map (·.cr)) = some cr
        let s := s.modChan d k fun x => { x with
          st := .recovering, desc := some c', replaced := fails,
          sparesUsed := if again then x.sparesUsed else x.sparesUsed ++ [sp]
          recover := some { cr := cr, fMin := fMin, fMax := fMax, rit := rit } }
        if same then s else
        let s := s.modChan d k fun x => { x with
          out := [], castWait := none, waitOp := none, ckptPend := none, ckptLost := false, landed := [], added := [],
          stale := [], gathers := [], restored := false, miss := setN x.miss m 0, grace := setN x.grace m 0 }
        let s := endContribs d k 0x145 (chanAbort d k c s)
        let s := if again then s else chanEvent d c 0x6A (pl 18 m + pl 20 cr.toNat + pl 24 rit.toNat) s
        recoverWork d k c' fails cr s
      | none, _, _ => s
/-- A member is declared failed: a FAIL notice to every other chip of the list, and this chip acts on it (R234). -/
def declareFailed (d : Fin 4) (k : Fin 8) (m : Nat) (step : BitVec 32) (s : State) : State :=
  let x := s.chan d k
  match x.desc with
  | none => s
  | some c =>
    let fit := s.time.it
    let s := failNotice d k m fit s
    (c.members.zipIdx.filter fun y => y.2 ≠ c.self).foldl (fun s y =>
      sendWrite (collGroup d) k (collPacket c x.part y.1 2 step 0 false
        (natLe 2 m ++ natLe 6 0 ++ natLe 8 fit.toNat)) s) s

/-! ### Accumulators (R227 to R229) -/

/-- Where a contribution is staged: two slots per member, by the parity of its step. -/
def stageSlot (c : ChanDesc) (m : Nat) (step : BitVec 32) : Nat := c.stage + (2 * m + step.toNat % 2) * c.cbytes
/-- A staged contribution added to the accumulator of a step, element by element, through the ACCUM aperture (R227). A
chunk number or index that names no element of the shard adds nothing, and a contribution that cannot be read from STAGE
is not added (log 43). -/
def addContribution (d : Fin 4) (p : Fin 32) (c : ChanDesc) (m : Nat) (step target : BitVec 32) (s : State) : Bool × State :=
  match areaRead d p (stageSlot c m step) c.cbytes s, stackOf c.acc with
  | (some b, s), some q =>
    let base := c.acc + target.toNat % 2 * (4 * c.S) - stackBase q + apertureBase q
    (true, ((decodeShard c b).filter fun e => decide (e.1 < c.S)).foldl (fun s e =>
      (areaWrite d p (base + 4 * e.1) (natLe 4 e.2.toNat) s).2) s)
  | r, _ => (false, r.2)
/-- ACC(s mod 2) is open for step s (R228). -/
def accOpen (x : Chan) (step : BitVec 32) : Bool := decide (step.toNat < x.optRead.toNat + 2)
/-- A late contribution's event (R236). -/
def lateEvent (d : Fin 4) (c : ChanDesc) (outcome diff : Nat) (step : BitVec 32) (m : Nat) (it : Time) (s : State) : State :=
  if c.stepEvents then
    chanEvent d c 0x69 (pl 18 outcome + pl 19 (diff % 256) + pl 20 step.toNat + pl 24 m +
      pl 28 (min (it - deadlineOf c step).toNat (2 ^ 32 - 1))) s
  else s
/-- A landed contribution is added, waits for its accumulator to open and the engines to be READY, or is late (R169,
R228, R229). -/
def landOne (d : Fin 4) (k : Fin 8) (c : ChanDesc) (e : BitVec 32 × Nat × Time) (s : State) : State :=
  let x := s.chan d k
  let wait := s.modChan d k fun x => { x with landed := x.landed ++ [e] }
  let late := decide (e.1 < x.openStep)
  let diff := (x.openStep - e.1).toNat
  let target := if late then x.openStep else e.1
  if late && (c.drop || decide (c.staleMax < diff)) then
    lateEvent d c 1 diff e.1 e.2.1 e.2.2 (s.modChan d k fun x => { x with dropCnt := x.dropCnt + 1 })
  else if !late && (e.1, e.2.1) ∈ x.added then s
  else if !accOpen x target || !stackReady s c then wait
  else
    let r := addContribution d x.part c e.2.1 e.1 target s
    if !r.1 then r.2
    else if late then
      lateEvent d c 0 diff e.1 e.2.1 e.2.2 (r.2.modChan d k fun x => { x with
        stale := x.stale ++ [(x.openStep, e.2.1)], lateCnt := x.lateCnt + 1 })
    else r.2.modChan d k fun x => { x with added := x.added ++ [(e.1, e.2.1)] }
/-- Contributions that wait in STAGE are looked at again. -/
def admitWaiting (d : Fin 4) (k : Fin 8) (s : State) : State :=
  match (s.chan d k).desc with
  | none => s
  | some c =>
    let l := (s.chan d k).landed
    l.foldl (fun s e => landOne d k c e s) (s.modChan d k fun x => { x with landed := [] })

/-! ### The close of a step (R228, R230, R231) -/

/-- A binary32 to the power n in exact arithmetic, rounded to binary64; then 1 / (1 − B^n), rounded to binary32 (R230). -/
def biasCorr (b : F32) (n : Nat) : F32 :=
  let pw : FV := match f32v b with
    | .fin d => fmt64.norm (.fin ⟨d.neg && n % 2 = 1, d.m ^ n, d.e * n⟩)
    | v => v
  f32of (f64div (FV.ofInt 1) (f64sub (FV.ofInt 1) pw))
/-- Misses of the members at the close of step o; the members that reach MISS_MAX (R231). -/
def countMisses (d : Fin 4) (k : Fin 8) (c : ChanDesc) (o : BitVec 32) (s : State) : List Nat × State :=
  (List.range c.nmemb).foldl (fun (r : List Nat × State) m =>
    let s := r.2
    let x := s.chan d k
    if (o, m) ∈ x.added then
      (r.1, s.modChan d k fun x => { x with miss := setN x.miss m 0, grace := setN x.grace m 0 })
    else if paced s (c.members.getD m 0) && decide (lookupN x.grace m < c.paceGrace) then
      (r.1, s.modChan d k fun x => { x with grace := setN x.grace m (lookupN x.grace m + 1) })
    else
      let n := lookupN x.miss m + 1
      (if n = c.missMax then r.1 ++ [m] else r.1, s.modChan d k fun x => { x with miss := setN x.miss m n }))
    ([], s)
/-- The owner's slice of SHORT, elements then, for MXFP8, scales (R216, R230); none where an area cannot be read. -/
def sliceBytes (d : Fin 4) (p : Fin 32) (c : ChanDesc) (s : State) : Option (List Byte) × State :=
  let q := chanParam s c
  let b := shortBytes q.sfmt
  match areaRead d p (c.short + c.self * c.S * b) (c.S * b) s with
  | (none, s) => (none, s)
  | (some v, s) =>
    if q.sfmt ≠ 2 then (some v, s) else
    match areaRead d p q.sscale (c.S / 32) s with
    | (some w, s) => (some (v ++ w), s)
    | (none, s) => (none, s)
/-- The gather of a step: the slice, or the marker alone, to every other member; the own slice has landed. -/
def sendGather (d : Fin 4) (k : Fin 8) (c : ChanDesc) (step : BitVec 32) (marker : Bool) (s : State) : State :=
  let p := (s.chan d k).part
  let r : Option (List Byte) × State := if marker then (some [], s) else sliceBytes d p c s
  let s := match r.1 with
    | none => r.2
    | some data => (((c.members.take c.nmemb).zipIdx).filter fun (y : BitVec 12 × Nat) => y.2 ≠ c.self).foldl
        (fun (s : State) (y : BitVec 12 × Nat) => collStream d k c p y.1 1 step data s) r.2
  s.modChan d k fun x => { x with gathers := x.gathers ++ [(step, c.self)] }
/-- The owner closes its open step. -/
def closeStep (d : Fin 4) (k : Fin 8) (c : ChanDesc) (s : State) : State :=
  let x := s.chan d k
  let o := x.openStep
  let on := (x.added.filter (·.1 = o)).length
  let st := (x.stale.filter (·.1 = o)).length
  let n := on + st
  let r := countMisses d k c o s
  let s := r.2.modChan d k fun x => { x with
    openStep := o + 1, added := x.added.filter (·.1 ≠ o), stale := x.stale.filter (·.1 ≠ o),
    gathers := x.gathers.filter fun g => decide (o.toNat < g.1.toNat + 4) }
  let s := if c.stepEvents then
      chanEvent d c 0x68 (pl 18 on + pl 20 o.toNat + pl 24 st + pl 26 (c.nmemb - on)) s
    else s
  let s := if n = 0 then sendGather d k c o true (s.modChan d k fun x => { x with optRead := o + 1 })
    else
      let q := chanParam s c
      let put := fun (off : Nat) (v : F32) (s : State) => (areaWrite d x.part (c.param + off) (natLe 4 v.toNat) s).2
      let s := put 32 (f32of (f64div (FV.ofInt 1) (FV.ofInt n))) s
      let s := put 28 (biasCorr q.b2 (o.toNat + 1)) (put 24 (biasCorr q.b1 (o.toNat + 1)) s)
      if x.ckptPend.isSome then s.modChan d k fun x => { x with castWait := some (o, .waitCkpt, 0) }
      else chanOp d k c 3 o .opt s
  let s := r.1.foldl (fun s m => declareFailed d k m o s) s
  admitWaiting d k s
/-- A step may close: the channel runs as an owner, the step before has been worked through, and every engine is READY,
so that nothing that landed waits for one (R169, R228). -/
def mayClose (s : State) (x : Chan) (c : ChanDesc) : Bool :=
  x.st = .run && decide (c.self < c.nmemb) && x.castWait.isNone && stackReady s c
/-- EARLY_CLOSE (R228). -/
def earlyCloses (s : State) (x : Chan) (c : ChanDesc) : Bool :=
  c.earlyClose && mayClose s x c && x.added.any (·.1 = x.openStep) &&
  (List.range c.nmemb).all fun m => (x.openStep, m) ∈ x.added || paced s (c.members.getD m 0)
def tryEarlyClose (d : Fin 4) (k : Fin 8) (s : State) : State :=
  match (s.chan d k).desc with
  | some c => if earlyCloses s (s.chan d k) c then closeStep d k c s else s
  | none => s
/-- The checkpoint after OPT_STEP of a step, where it is due (R233). A copy that is refused is never complete. -/
def checkpoint (d : Fin 4) (k : Fin 8) (c : ChanDesc) (step : BitVec 32) (s : State) : State :=
  if c.ckptEvery = 0 ∨ step.toNat % c.ckptEvery ≠ 0 then s else
  let p := (s.chan d k).part
  let q := chanParam s c
  let n := 4 * c.S
  let g : Fin 2 := ⟨step.toNat / c.ckptEvery % 2, by omega⟩
  let r := areaRead d p c.master n s
  let r1 := areaRead d p q.mbase n r.2
  let r2 := if q.alg = 0 then (some [], r1.2) else areaRead d p q.vbase n r1.2
  let s := r2.2.modChan d k fun x => { x with ckptPend := some step, ckptLost := false }
  match r.1, r1.1, r2.1 with
  | some w, some m, some v =>
    let data := w ++ m ++ v
    let y : Bool × State := areaWrite d p (c.ckpt + g.val * chanCksz s c) data s
    let s := y.2.modChan d k fun x =>
      if y.1 then { x with localGen := vset x.localGen g (some step) }
      else { x with localGen := vset x.localGen g none, ckptLost := true }
    collStream d k c p (c.members.getD ((c.self + 1) % c.nmemb) 0) 3 step data s
  | _, _, _ => s.modChan d k fun x => { x with localGen := vset x.localGen g none, ckptLost := true }
/-- The last engine of a phase has finished (R230, R233). -/
def phaseDone (d : Fin 4) (k : Fin 8) (c : ChanDesc) (step : BitVec 32) (ph : CastPhase) (s : State) : State :=
  match ph with
  | .waitCkpt => s
  | .opt =>
    let s := s.modChan d k fun x => { x with optRead := step + 1 }
    chanOp d k c 4 step .cast (checkpoint d k c step s)
  | .cast =>
    let s := sendGather d k c step false (s.modChan d k fun x => { x with castWait := none })
    if (s.chan d k).st = .recovering then s.modChan d k fun x => { x with restored := true } else s
/-- An engine has finished its operation for a channel. -/
def chanOpDone (d : Fin 4) (k : Fin 8) (s : State) : State :=
  let x := s.chan d k
  match x.desc, x.castWait with
  | some c, some (step, ph, n) =>
    if n ≤ 1 then phaseDone d k c step ph s else s.modChan d k fun x => { x with castWait := some (step, ph, n - 1) }
  | _, _ => s
/-- An engine of a stack has become READY: operations of channels that waited for it start, contributions that waited in
STAGE are added, and early closes are judged again (R169, R228, R230). -/
def stackWake (q : Fin 8) (s : State) : State :=
  ((List.finRange 4).flatMap fun d => (List.finRange 8).map fun k => (d, k)).foldl (fun s dk =>
    let x := s.chan dk.1 dk.2
    match x.desc with
    | none => s
    | some c =>
      if stackOf c.master ≠ some q ∨ !stackReady s c then s else
      match x.waitOp, x.castWait with
      | some opc, some (step, ph, _) => chanOp dk.1 dk.2 c opc step ph s
      | _, _ => tryEarlyClose dk.1 dk.2 (admitWaiting dk.1 dk.2 s)) s

end Sys2Proof.Machine
end

