-- ==== Sys2Proof/Machine/Peat.lean ====
section
/-! DEFINITION. The rows of Peat engines (spec/07, 7.5; spec/10, 10.2): claims, modes, the PEAT command, operations. -/
namespace Sys2Proof.Machine

/-- Address of a per-engine register (Table 7.6). -/
def peatReg (k : Fin 8) (j : Fin 32) (off : Nat) : Nat := regBase + 0x4000000 + k * 0x10000 + 0x1000 + 0x40 * j + off
/-- TAKE by a partition (R166). -/
def peatTake (k : Fin 8) (j : Fin 32) (p : Fin 32) (s : State) : State :=
  s.modEng k j fun e => if e.claimed then e else { e with claimed := true, owner := BitVec.ofNat 5 p }
/-- RELEASE, by the claimant alone (R166). -/
def peatRelease (k : Fin 8) (j : Fin 32) (p : Fin 32) (s : State) : State :=
  s.modEng k j fun e => if e.owns p then { e with claimed := false, owner := 0 } else e
/-- A write of MODE, ABASE or ALIM: CLAIM or BUSY, else a pending mode change (R169, R170). Such a result's TAG is open
(log 6). -/
def peatModeWr (k : Fin 8) (j : Fin 32) (p : Fin 32) (r : PeatReg) (v : BitVec 64) (s : State) : State :=
  let e := s.eng k j
  if !e.owns p then let t := freshFree s; t.2.modEng k j (·.result (t.1.setWidth 32) 2)
  else if !e.ready then let t := freshFree s; t.2.modEng k j (·.result (t.1.setWidth 32) 1)
  else s.modEng k j fun e => { e with modePending := some (r, v) }
/-- A Peat page write of a master: its partition acts. -/
def peatPage (who : Master) (a : Nat) (eff : Fin 32 → State → State) (s : State) : State :=
  regWriteAt who a (fun s => match masterPart s who with | some p => eff p s | none => s) s
def execPeatTake (who : Master) (k : Fin 8) (j : Fin 32) (s : State) : Host.Outcome State Fault Refusal :=
  done (peatPage who (peatReg k j 0) (peatTake k j) s)
def execPeatRelease (who : Master) (k : Fin 8) (j : Fin 32) (s : State) : Host.Outcome State Fault Refusal :=
  done (peatPage who (peatReg k j 0) (peatRelease k j) s)
def peatRegOff : PeatReg → Nat | .mode => 8 | .abase => 0x10 | .alim => 0x18
def execPeatModeWrite (who : Master) (k : Fin 8) (j : Fin 32) (reg : PeatReg) (value : BitVec 64) (s : State) :
    Host.Outcome State Fault Refusal :=
  done (peatPage who (peatReg k j (peatRegOff reg)) (fun p => peatModeWr k j p reg value) s)
/-- Earlier aperture accesses have completed: the change takes effect and READY rises (R169). -/
def modeSettled (k : Fin 8) (j : Fin 32) (r : PeatReg) (v : BitVec 64) (s : State) : State :=
  s.modEng k j fun e =>
    let e := { e with modePending := none }
    match r with
    | .mode => { e with accum := v.getLsbD 0 }
    | .abase => { e with abase := v.setWidth 44 }
    | .alim => { e with alim := v.setWidth 44 }
def execPeatModeSettled (k : Fin 8) (j : Fin 32) (s : State) : Host.Outcome State Fault Refusal :=
  match (s.eng k j).modePending with
  | some (r, v) => doneFrom s (stackWake k (modeSettled k j r v s))
  | none => .next s

/-! ### The PEAT command (R172) -/

def peatCmd (n : Fin 64) (q : Nat) (c : Cmd) (s : State) : State :=
  let k : Fin 8 := ⟨fidIdx c.target % 8, by omega⟩
  let mask := leAt c.bytes 32 4
  let opc := byteAt c.bytes 36
  let base := leAt c.bytes 40 8
  let len := leAt c.bytes 48 8
  let js : List (Fin 32) := (List.finRange 32).filter fun j => bitOf mask j.val
  match queuePart s n with
  | none => endCmd n q 3 0 s
  | some p =>
    if !(js.all fun j => (s.eng k j).owns p) then endCmd n q 0x110 0 s
    else if !(js.all fun j => (s.eng k j).ready) then endCmd n q 0x111 0 s
    else if 2 ≤ opc ∧ opc ≤ 4 ∧ !peatRangeOk k base len then endCmd n q 0x112 0 s
    else if js = [] then endCmd n q 0 0 s
    else
      let s := js.foldl (fun s j => peatBegin k j {
        why := .command n c.slot, opc := BitVec.ofNat 8 opc, tag := BitVec.ofNat 32 (leAt c.bytes 8 4),
        mode := bitOf (byteAt c.bytes 37) 0, base := base, len := len, par := leAt c.bytes 56 8,
        result := if 4 < opc then some 6 else none } s) s
      setCmd n q .running s
def execPeat (n : Fin 64) (k : Nat) (s : State) : Host.Outcome State Fault Refusal :=
  match beginCmd s n k 0x30 with
  | none => .next s
  | some c => done (peatCmd n k c s)

/-! ### Operations (R170, R171, R218 to R220) -/

/-- The operation of an engine that a row runs: in progress, with that OPC, not yet worked through. -/
def peatRun (s : State) (k : Fin 8) (j : Fin 32) (opc : BitVec 8) : Option PeatRun :=
  match (s.eng k j).run with
  | some r => if r.opc = opc && r.result.isNone && !isFenced s (fidMk 4 k) then some r else none
  | none => none
def setResult (k : Fin 8) (j : Fin 32) (code : BitVec 8) (s : State) : State :=
  s.modEng k j fun e => { e with run := e.run.map fun r => { r with result := some code } }
/-- An operation's effect, then its CODE, DONE. -/
def peatRow (k : Fin 8) (j : Fin 32) (opc : BitVec 8) (eff : PeatRun → State → BitVec 8 × State) (s : State) :
    Host.Outcome State Fault Refusal :=
  match peatRun s k j opc with
  | some r => let x := eff r s; done (setResult k j x.1 x.2)
  | none => .next s
def execPeatNone (k : Fin 8) (j : Fin 32) (s : State) : Host.Outcome State Fault Refusal :=
  peatRow k j 0 (fun _ s => (0, s)) s
def execPeatSetMode (k : Fin 8) (j : Fin 32) (s : State) : Host.Outcome State Fault Refusal :=
  peatRow k j 1 (fun r s => (0, s.modEng k j fun e => { e with
    accum := r.mode, abase := BitVec.ofNat 44 r.base, alim := BitVec.ofNat 44 (r.base + r.len + (2 ^ 44 - 1)) })) s
def execPeatZero (k : Fin 8) (j : Fin 32) (s : State) : Host.Outcome State Fault Refusal :=
  peatRow k j 2 (fun r s => (0, zeroRange j r s)) s
/-- OPT_STEP and CAST: PARAM, POISON, or the operation. -/
def paramRow (k : Fin 8) (j : Fin 32) (r : PeatRun) (op : State → State) (s : State) : BitVec 8 × State :=
  if !paramOk k r then (7, s)
  else if rangePoisoned s j r then (4, poisonHit (fidMk 4 k) s)
  else (0, op s)
def execOptStep (k : Fin 8) (j : Fin 32) (s : State) : Host.Outcome State Fault Refusal :=
  peatRow k j 3 (fun r s => paramRow k j r (optStep j r) s) s
def execCast (k : Fin 8) (j : Fin 32) (s : State) : Host.Outcome State Fault Refusal :=
  peatRow k j 4 (fun r s => paramRow k j r (castRange j r) s) s

/-- The record follows the last engine of a PEAT command (R172). -/
def peatCmdDone (k : Fin 8) (j : Fin 32) (o : Fin 64 × BitVec 16) (code : BitVec 8) (s : State) : State :=
  let st := vget s.peat k
  let old := ((st.fails.find? (·.1 = o)).map (·.2)).getD 0
  let m := if code = 0 then old else old ||| (1#32 <<< j.val)
  let rest := st.fails.filter (·.1 ≠ o)
  let more := st.eng.toList.any fun e => match e.run with
    | some r => r.why = .command o.1 o.2
    | none => false
  if more then { s with peat := vmod s.peat k fun st => { st with fails := if m = 0 then rest else rest ++ [(o, m)] } }
  else
    let s := { s with peat := vmod s.peat k fun st => { st with fails := rest } }
    if m = 0 then finishCmd o 0 0 s else finishCmd o 0x113 m s
/-- An operation finishes: PEAT_STATj is written and READY rises (R169, R171). -/
def opDone (k : Fin 8) (j : Fin 32) (r : PeatRun) (code : BitVec 8) (s : State) : State :=
  let s := s.modEng k j fun e => { e.result r.tag code with run := none }
  stackWake k (match r.why with
    | .trig => s
    | .command n slot => peatCmdDone k j (n, slot) code s
    | .channel d c => chanOpDone d c s)
def execPeatOpDone (k : Fin 8) (j : Fin 32) (s : State) : Host.Outcome State Fault Refusal :=
  match (s.eng k j).run with
  | some r => match r.result with
    | some c => doneFrom s (opDone k j r c s)
    | none => .next s
  | none => .next s

end Sys2Proof.Machine
end

