-- ==== Sys2Proof/Machine/Rails.lean ====
section
/-! DEFINITION. Rails, clocks, starts and stops (spec/03): power loss of blocks, the steps of a start, group by group
raising and dropping, failures, the orderly power-down, VAON. -/
namespace Sys2Proof.Machine

/-! ### Blocks whose rail is off (Table 3.1) -/

/-- DRAM and scratchpad bytes whose contents are not guaranteed: free values (R61; log 35). -/
def loseBytes (f : Nat → Bool) (s : State) : State :=
  let r := s.mem.foldl (fun (r : List Host.Cell × Nat) c =>
    if f c.1 then (spPut 0 r.1 c.1 ((Config.freeWord r.2).setWidth 8), r.2 + 1)
    else (spPut 0 r.1 c.1 c.2, r.2)) (([] : List Host.Cell), s.free)
  { s with mem := r.1, free := r.2 }
/-- What a block holds once its rail has been off: its reset values (R11). -/
def clearUnpowered (s : State) : State :=
  let on := fun n => s.island.good.getLsbD n
  let die := fun (d : Nat) => on (5 + d % 4)
  let s := if on 4 then s else
    { s with cores := vrep 48 {}, queues := vrep 64 {}, aplic := vrep 2 {}, srcLevel := 0, rat := {}, fwver := 0 }
  let s := { s with
    tiles := Vector.ofFn fun n => if die (n.val / 16) then vget s.tiles n else {}
    shuttle := Vector.ofFn fun g => if die (g.val / 4) then vget s.shuttle g else {}
    chans := Vector.ofFn fun d => if die d.val then vget s.chans d else vrep 8 {}
    lanes := s.lanes.map fun l => if l.tiles.all fun t => die (t.val / 16) then l else {}
    clusterHeld := s.clusterHeld ||| BitVec.ofNat 4 ((List.range 4).foldl (fun a d => if die d then a else a + 2 ^ d) 0)
    power := { s.power with dom := Vector.ofFn fun d => if on (4 + d.val) then vget s.power.dom d else
      { trim := (vget s.power.dom d).trim, d := (vget s.power.dom d).d, ageHours := (vget s.power.dom d).ageHours,
        ageTag := (vget s.power.dom d).ageTag } } }
  let s := if on 10 then s else { s with peat := vrep 8 {} }
  let s := loseBytes (fun a => match addrClass a with
    | .host n => !(die (n.val / 16) && on 3) | .stack _ => !on 10 | .ddr => !on 9 | _ => false) s
  let s := if on 9 && on 10 && on 11 then s else s.modIsland fun i => { i with
    ddrSize := if on 9 then i.ddrSize else 0, trained := false }
  let s := if on 12 && on 13 then s else
    { s with
      ports := vrep 16 {}, remote := [], rports := s.rports.map fun r => { exists_ := r.exists_, lanes := r.lanes, out := r.out }
      dsp := if s.dsp.link = .off then s.dsp else { s.dsp with link := .down, lanes := 0, rate := 0 } }
  if on 0 then s else
    let count := if s.time.it = 0 then s.island.count else s.time.it
    { s with
      axes := vrep 32 {}, trd := vrep 8 {}, fbk := vrep 40 {}, cc := {}, can := vrep 4 {}, dsp := { hpd := s.dsp.hpd }
      rports := vrep 8 {}, flt := vrep 1024 {}, parts := vrep 32 {}, frz := {}, time := {}, tsc := 0, pins := []
      pinsUp := false, fabric := {}, evbuf := vrep 32 {}, island := { s.island with count := count, pll := false } }
/-- Links that a rail failure takes down without a request (R148, R199, R376). -/
def failLinks (s : State) : State :=
  let s := if s.island.good.getLsbD 12 && s.island.good.getLsbD 13 then s else
    (List.finRange 16).foldl (fun s p => if (vget s.ports p).st = .up then portDown p 1 s else s) s
  let s := if s.dsp.link = .up && !(s.island.good.getLsbD 12 && s.island.good.getLsbD 13) then dpDown 2 s else s
  if s.island.good.getLsbD 12 && s.island.good.getLsbD 13 then s else
    (List.finRange 8).foldl (fun s q =>
      let r := vget s.rports q
      if !r.up then s else
      raiseCause (fidMk 12 q) 5 (emit (fidMk 12 q) 0x58 (pl 16 r.width.toNat + pl 17 r.rate.toNat)
        (s.modRp q fun r => { r with up := false, width := 0, rate := 0 }))) s
def isRam (a : Nat) : Bool := match addrClass a with | .ddr => true | .stack _ => true | _ => false

/-! ### Clocks (R51, R52, R54) -/

/-- Loss of REFCLK or of the servo PLL's lock: OUTPUT on every axis (R54, R376). -/
def clockLoss (s : State) : State :=
  let s := s.modTime fun t => { t with refLost := t.refLost || !s.island.refclk }
  (List.finRange 32).foldl (fun s a => raiseOutput a 0 s) s
/-- The loss reaches every axis while VSVO powers them, and REF_LOST stands while REFCLK is absent (R54, R213). -/
def refclkLoss (pllOnly : Bool) (s : State) : State :=
  let s := s.modIsland fun i => { i with refclk := i.refclk && pllOnly, pll := false }
  if s.island.good.getLsbD 0 then clockLoss s else s
def execRefclkLoss (pllOnly : Bool) (s : State) : Host.Outcome State Fault Refusal :=
  doneIf (s.island.refclk && (!pllOnly || s.island.pll)) s (refclkLoss pllOnly)
/-- REFCLK returns, or the PLL locks again; IT is disciplined again (R213). -/
def execRefclkReturn (s : State) : Host.Outcome State Fault Refusal :=
  doneIf (!s.island.refclk || !s.island.pll) s fun s =>
    (s.modIsland fun i => { i with refclk := true, pll := i.good.getLsbD 0 && i.good.getLsbD 1 }).modTime fun t =>
      { t with refLost := false,
               slew := if t.refLost && t.st = .locked && !t.gm then decide (4 < absInt t.ofs.toInt) else t.slew }

/-! ### Start results (R65) -/

def StartCode.code : StartCode → Nat
  | .ok => 0 | .rail => 1 | .clock => 2 | .fuse => 3 | .plan => 4 | .train => 5 | .bist => 6 | .latched => 7
def StartKind.code : StartKind → Nat
  | .warm => 0 | .cold => 1 | .extended => 2 | .raise => 3
def Mode.code : Mode → Nat
  | .serviceOnly => 0 | .servoOnly => 1 | .full => 2
def startStep (s : State) : Nat := match s.island.start with | some r => r.step.toNat | none => 0
/-- The image of ELV_START_STATUS: every field, STEP too, reads 0 until the first result after VAON became good (3.7). -/
def startStatusWord (s : State) : BitVec 32 :=
  let i := s.island
  if !i.hasResult then 0 else
  BitVec.ofNat 32 (i.mode.code + startStep s * 2 ^ 2 + i.kind.code * 2 ^ 6 + b2n s.store.work.latch * 2 ^ 8 +
    s.store.work.failCnt.toNat * 2 ^ 9 + b2n i.reused * 2 ^ 11 + i.code.code * 2 ^ 16 + i.tag.seq.toNat * 2 ^ 24 +
    b2n i.tag.valid * 2 ^ 31)
/-- A new result in ELV_START_STATUS: alone, the refusal of a request while the latch is set (R68). -/
def startCode (code : StartCode) (s : State) : State :=
  s.modIsland fun i => { i with code := code, tag := i.tag.bump, hasResult := true }
/-- A CODE that the spec does not state: a free value (log 65). -/
def freeCode (s : State) : StartCode × State :=
  let w := freshFree s
  (match fld w.1.toNat 0 3 with
    | 0 => .ok | 1 => .rail | 2 => .clock | 3 => .fuse | 4 => .plan | 5 => .train | 6 => .bist | _ => .latched, w.2)
/-- The end of a start: a new SSEQ, event 0x21 once the host runs, the console line. -/
def startResult (code : StartCode) (s : State) : State :=
  let s := startCode code s
  let s := if s.island.everFull && s.island.mode = .full
    then emit islandFid 0x21 (pl 16 (startStatusWord s).toNat) s else s
  say (.start s.island.mode code) s

/-! ### Raising and dropping (R46, R49, R69) -/

/-- The rails a start raises. -/
def wantedRails (r : StartRun) : BitVec 14 :=
  if r.kind = .raise then ~~~servoRails else if r.target = 1 then servoRails else 0x3FFF
/-- The first group after `g` with a rail to raise. -/
def nextGroup (r : StartRun) (g : Nat) : Option Nat :=
  ((List.range 9).filter (g < ·)).find? fun k => (wantedRails r &&& railMask (· = k)) ≠ 0
def setRun (f : StartRun → StartRun) (s : State) : State := s.modIsland fun i => { i with start := i.start.map f }
/-- A group's enables are asserted (R49). -/
def raiseGroup (r : StartRun) (g : Nat) (s : State) : State :=
  let m := wantedRails r &&& railMask (· = g)
  (s.modIsland fun i => { i with enabled := i.enabled ||| m }).modIsland fun i => { i with
    start := some { r with step := 4, group := g, waiting := false } }
/-- Step 4 of a start that raises rails. -/
def raiseFirst (r : StartRun) (s : State) : State :=
  match nextGroup r 0 with
  | some g => raiseGroup r g s
  | none => s.modIsland fun i => { i with start := some { r with step := 5 } }
/-- Enables that a group by group drop takes down. -/
def DropWhy.mask : DropWhy → BitVec 14
  | .trim => ~~~servoRails
  | _ => 0x3FFF
def nextDrop (s : State) (why : DropWhy) (below : Nat) : Option Nat :=
  ((List.range below).map fun i => below - 1 - i).find? fun k => (s.island.enabled &&& why.mask &&& railMask (· = k)) ≠ 0
def dropGroup (why : DropWhy) (g : Nat) (s : State) : State :=
  clearUnpowered ((dropEnables (why.mask &&& railMask (· = g)) s).modIsland fun i => { i with seqr := .dropping why g false })

/-- The part is left in servo-only mode: display and PCIe are unpowered, and installation time has no reference (R55). -/
def toServoOnly (s : State) : State :=
  timeSelect { s with
    dsp := { hpd := s.dsp.hpd }, rports := vrep 8 {}, island := { s.island with mode := .servoOnly } }

/-! ### Ends of a drop -/

/-- Every retained function is reset by FID; a warm start keeps the island (R61). -/
def warmReset (s : State) : State :=
  let s := allFids.foldl (fun s f => if f = islandFid then s else resetFn f s) s
  let s := { s with queues := vrep 64 {}, loader := { s.loader with job := .none, stage := 0, isSealed := false } }
  loseBytes isRam s
/-- A cold start gives the island's own registers their reset values (R11); the console and held fields stay. -/
def coldReset (s : State) : State :=
  let s := s.modIsland fun i => { i with cold := false, target := 2, grace := 20, fusesHeld := false }
  { s with loader := {}, power := {}, poison := [] }
/-- Step 3 of a cold start; its rails and the memories they held are gone. -/
def coldStep3 (r : StartRun) (s : State) : State :=
  (loseBytes (fun _ => true) (coldReset s)).modIsland fun i => { i with
    start := some { r with step := 3 }, seqr := .idle, mode := .serviceOnly }
/-- A warm start at step 4: each rail checked good; else the start is cold and every rail is raised again (R61). -/
def warmCheck (r : StartRun) (s : State) : State :=
  if (wantedRails r &&& ~~~s.island.good) = 0 then
    s.modIsland fun i => { i with start := some { r with step := 5 }, seqr := .idle }
  else
    let r := { r with kind := .cold, step := 4 }
    let s := s.modIsland fun i => { i with start := some r, kind := .cold, seqr := .idle }
    match nextDrop s .restart 9 with
    | some g => dropGroup .restart g s
    | none => raiseFirst r (loseBytes (fun _ => true) (coldReset s))
/-- FAILCNT, the latch, the marker and the result of a failed start whose rails are down (R67, R68, R71). -/
def failEnd (r : StartRun) (code : StartCode) (s : State) : State :=
  let n := s.store.work.failCnt
  let fc := if n = 3 then 3 else n + 1
  let latch := decide (fc = 3)
  let retry := !latch && code ≠ .plan
  let s := setBlock (fun b => { b with
    failCnt := fc, latch := b.latch || latch, marker := if r.bad then .disorderly else .orderly }) s
  let s := s.modIsland fun i => { i with
    mode := .serviceOnly, kind := r.kind, reused := false, prevFailed := true,
    start := if retry then some { r with step := 0, failed := none } else none,
    seqr := if retry then .retry else .idle }
  startResult code s
/-- A start fails: its log entry, and what the loader did for it ends. -/
def startFailed (code : StartCode) (r : StartRun) (s : State) : State :=
  (logEntry { fid := islandFid, kind := 2, detail := BitVec.ofNat 256 (code.code + 256 * r.step.toNat) } s).modLoader
    fun l => { l with job := .none, stage := 0 }
/-- A start fails (R67): the log entry, then the orderly drop of every rail. -/
def startFail (code : StartCode) (s : State) : State :=
  match s.island.start with
  | none => s
  | some r =>
    let s := startFailed code r s
    let r := { r with failed := some code }
    let s := s.modIsland fun i => { i with start := some r }
    match nextDrop s .failedStart 9 with
    | some g => dropGroup .failedStart g s
    | none => failEnd r code s
/-- The result of a start that a class 4 fault ended (R65). It failed, so FAILCNT counts it (R67); no rule gives it a
CODE, which is a free value, nor a retry (log 65). -/
def criticalEnd (r : StartRun) (s : State) : State :=
  let n := s.store.work.failCnt
  let fc := if n = 3 then 3 else n + 1
  let s := setBlock (fun b => { b with failCnt := fc, latch := b.latch || decide (fc = 3) }) s
  let s := s.modIsland fun i => { i with kind := r.kind, reused := false, prevFailed := true }
  let c := freeCode s
  startResult c.1 c.2
/-- Everything is down: what follows depends on why it was dropped. -/
def dropEnd (why : DropWhy) (s : State) : State :=
  let s := s.modIsland fun i => { i with seqr := .idle }
  match why with
  | .powerDown =>
    let s := setBlock (fun b => { b with marker := .orderly }) s
    let s := s.modIsland fun i => { i with mode := .serviceOnly, stopStart := false }
    let t := say (.stop .orderly) s
    t
  | .critical =>
    let r := s.island.start
    let asStart := s.island.stopStart
    let s := say (.stop .disorderly) ((setBlock (fun b => { b with marker := .disorderly }) s).modIsland fun i => { i with
      mode := .serviceOnly, start := none, stopStart := false })
    match r with
    | some r => criticalEnd r s
    | none => if asStart then startResult .ok s else s
  | .failedStart =>
    match s.island.start with
    | some r => failEnd r (r.failed.getD .rail) s
    | none => s
  | .restart =>
    match s.island.start with
    | some r => if r.step = 4 then
        raiseFirst r ((loseBytes (fun _ => true) (coldReset s)).modIsland fun i => { i with mode := .serviceOnly })
      else coldStep3 r s
    | none => s
  | .trim =>
    match s.island.start with
    | some r => warmCheck r (toServoOnly s)
    | none => s
def railDecayed (s : State) : State :=
  match s.island.seqr with
  | .dropping why g false =>
    let s := clearUnpowered s
    match nextDrop s why g with
    | some _ => s.modIsland fun i => { i with seqr := .dropping why g true }
    | none =>
      let stopped := why = .powerDown && s.island.stopStart
      let s := dropEnd why s
      if stopped then startResult .ok s else s
  | _ => s
def execRailDecayed (s : State) : Host.Outcome State Fault Refusal :=
  doneIf (s.island.vaon && match s.island.seqr with | .dropping _ _ false => true | _ => false) s railDecayed

/-! ### Rails becoming good (R48, R49) -/

/-- A rail is good; its ramp, as its monitor saw it, is judged in a start with extended checks alone: one that does not
agree fails the start (R62). -/
def railGood (n : Fin 14) (ramp : Bool) (s : State) : State :=
  let s := s.modIsland fun i => { i with good := i.good ||| (1#14 <<< n.val) }
  let s := if n = 0 then s.modTime fun t => { t with refLost := !s.island.refclk } else s
  match s.island.start with
  | some r =>
    let m := wantedRails r &&& railMask (· = r.group)
    if r.step = 4 && r.kind = .extended && r.failed.isNone && s.island.seqr = .idle && !ramp then startFail .rail s
    else if r.step = 4 && !r.waiting && r.failed.isNone && (m &&& ~~~s.island.good) = 0 then
      match nextGroup r r.group with
      | some _ => setRun (fun r => { r with waiting := true }) s
      | none => setRun (fun r => { r with step := 5 }) s
    else s
  | none => s
def execSeqRailGood (n : Fin 14) (ramp : Bool) (s : State) : Host.Outcome State Fault Refusal :=
  doneIf (s.island.vaon && s.island.enabled.getLsbD n && !s.island.good.getLsbD n) s (railGood n ramp)
/-- 200 µs after a group is good, or after a dropped group has decayed (R49, R69). -/
def groupDelay (s : State) : State :=
  match s.island.seqr, s.island.start with
  | .dropping why g true, _ =>
    match nextDrop s why g with
    | some k => dropGroup why k s
    | none => dropEnd why s
  | .idle, some r =>
    if r.step = 4 && r.waiting then
      match nextGroup r r.group with
      | some g => raiseGroup r g s
      | none => s
    else s
  | _, _ => s
def execSeqGroupDelay (s : State) : Host.Outcome State Fault Refusal := doneIf s.island.vaon s groupDelay
/-- A rail not good within 10 ms of its enable (R49). -/
def execRailEnableTimeout (n : Fin 14) (s : State) : Host.Outcome State Fault Refusal :=
  doneIf (match s.island.start with
    | some r => r.step = 4 && !r.waiting && r.failed.isNone && s.island.seqr = .idle && s.island.enabled.getLsbD n &&
        !s.island.good.getLsbD n && railGroup n = r.group
    | none => false) s (startFail .rail)

/-! ### Starting (R57 to R62, R66, R71) -/

/-- What a start request comes to (R60, R66, R68). -/
inductive StartAnswer | ok | latched | busy | stop | nothing
deriving DecidableEq, Repr

def starting (s : State) : Bool := s.island.start.isSome || s.island.seqr ≠ .idle
/-- Which kind a start is (R58, R61, R62). In service-only mode no rail is held, so step 4 would find none good: such a
start is taken as cold from the outset, fuses sensed at step 3 (DEDUCED, log 65). -/
def startKind (t : BitVec 2) (coldReq boot : Bool) (s : State) : StartKind :=
  let i := s.island
  let marker := s.store.work.marker
  let cond := boot || coldReq || i.recovDamaged || marker = .disorderly || i.prevFailed
  if i.mode = .servoOnly && t = 2 && !cond then .raise
  else if !cond && i.mode ≠ .serviceOnly then .warm
  else if marker = .disorderly || (boot && marker = .running) then .extended
  else .cold
/-- Step 1 from the decision on: target servo-only or full, latch clear (R61, R62, R71). No later step begins before the
marker stands in the store. -/
def startBegin (t : BitVec 2) (coldReq boot : Bool) (s : State) : State :=
  let kind := startKind t coldReq boot s
  let rais := kind = .raise
  let cold := kind = .cold || kind = .extended
  let r : StartRun := { step := 2, kind := kind, target := t }
  let s := s.modIsland fun i => { i with kind := kind, reused := false, start := some r, seqr := .idle }
  let s := journalFlush (setBlock (fun b => { b with marker := .running }) s)
  if rais then raiseFirst r s
  else if cold then
    match nextDrop s .restart 9 with
    | some g => dropGroup .restart g s
    | none => coldStep3 r s
  else
    let s := warmReset s
    match nextDrop s .trim 9 with
    | some g => if t = 1 then dropGroup .trim g s else warmCheck r s
    | none => warmCheck r s
/-- Step 1: journal recovery, the marker and the latch read, then the start, or its end in service-only mode. A raise
recovers nothing (R60). -/
def startStep1 (target : Option (BitVec 2)) (coldReq boot : Bool) (d : StoreDamage) (s : State) : State :=
  let rais := s.island.mode = .servoOnly && target.getD s.store.work.target = 2 && !coldReq && !s.island.prevFailed
  let s := if rais && !boot then s.modIsland fun i => { i with recovDamaged := false } else
    let t := s.modStore fun t => t.recover d (islandTime s)
    t.modIsland fun i => { i with recovDamaged := t.store.recov = 3 }
  let t := target.getD s.store.work.target
  let s := s.modIsland fun i => { i with dis := s.store.work.marker = .disorderly }
  let idle := s.modIsland fun i => { i with kind := startKind t coldReq boot s, reused := false }
  if s.store.work.latch then startResult .latched idle
  else if t = 0 then startResult .ok idle
  else startBegin t coldReq boot s
/-- An orderly power-down begins: event 0x22, outputs safe, the grace wait (R69). -/
def pdnBegin (asStart : Bool) (s : State) : State :=
  let s := emit islandFid 0x22 (pl 16 s.island.grace.toNat) s
  let s := (List.finRange 32).foldl (fun s a => if (vget s.axes a).st.runs then axisTo a .safe 0 1 0 s else s) s
  let s := (List.finRange 4).foldl (fun s k => s.modCan k fun c => { c with stopTx := true }) s
  let s := s.modDsp fun d => { d with blank := true }
  let s := s.modIsland fun i => { i with stopStart := asStart, seqr := .grace }
  s
/-- The grace wait ends: the groups drop from 8 down. -/
def pdnDrop (s : State) : State :=
  match nextDrop s .powerDown 9 with
  | some g => dropGroup .powerDown g s
  | none => dropEnd .powerDown s
def pdnRequest (asStart : Bool) (s : State) : State :=
  let s := pdnBegin asStart s
  if s.island.grace = 0 then pdnDrop s else s
def startAnswer (s : State) (target : Option (BitVec 2)) : StartAnswer :=
  let t := target.getD s.store.work.target
  if !s.island.vaon then .nothing
  else if s.store.work.latch then .latched
  else if starting s then .busy
  else if t = 3 then .nothing
  else if t = 0 then (if s.island.mode = .serviceOnly then .nothing else .stop)
  else .ok
/-- A start request other than VAON becoming good (R60, R66, R68). -/
def startRequest (target : Option (BitVec 2)) (cold : Bool) (s : State) : State :=
  match startAnswer s target with
  | .nothing => s
  | .latched => startCode .latched s
  | .busy => s.modIsland fun i => { i with ign := satInc i.ign }
  | .stop => pdnRequest true (s.modIsland fun i => { i with kind := startKind 0 cold false s, reused := false })
  | .ok => startStep1 target cold false {} s
def execSysResetN (s : State) : Host.Outcome State Fault Refusal := done (startRequest none false s)
/-- A write of ELV_START_CTRL. -/
def startCtrlWrite (cold : Bool) (target : BitVec 2) (go : Bool) (s : State) : State :=
  let s := s.modIsland fun i => { i with cold := cold, target := target }
  if go then startRequest (some target) cold s else s
def elvBase : Nat := regBase
def execElvStartGo (who : Master) (cold : Bool) (target : BitVec 2) (s : State) : Host.Outcome State Fault Refusal :=
  done (regWriteAt who (elvBase + 0x108) (startCtrlWrite cold target true) s)
/-- 500 ms after a failed start (R67): the same start is retried, so it keeps its target (DESIGN CHOICE, log 65). -/
def execStartRetry (s : State) : Host.Outcome State Fault Refusal :=
  match s.island.seqr, s.island.start with
  | .retry, some r => done (startStep1 (some r.target) true false {} (s.modIsland fun i => { i with seqr := .idle, start := none }))
  | _, _ => .next s

/-! ### VAON (R47, R56, R407) -/

/-- VAON and VIO33 become good: the island boots. -/
def vaonGood (d : StoreDamage) (s : State) : State :=
  let i := s.island
  let s := { s with
    island := { vaon := true, refclk := i.refclk, keys := i.keys, hours := i.hours, hourTq := i.hourTq }
    console := {}, loader := {}, power := {} }
  let s := clearUnpowered s
  startStep1 none false true d s
def execVaonGood (damage : StoreDamage) (s : State) : Host.Outcome State Fault Refusal :=
  doneIf (!s.island.vaon) s (vaonGood damage)
/-! ### The service lock (R399) -/

/-- A signed transfer is open: begun, neither ended nor abandoned (R402). -/
def Console.xferOpen (c : Console) : Bool := match c.xfer with | some x => !x.ended | none => false
/-- The event of a take or a release; cause 0 command, 1 lapse, 2 VAON. -/
def lockEvent (taken : Bool) (cause : Nat) (s : State) : State :=
  emit islandFid 0x23 (pl 16 (b2n taken) + pl 17 cause) s
/-- What was held under the lock is given back: axes, forced duties and compare tests, an open transfer. -/
def lockGive (s : State) : State :=
  { s with
    axes := s.axes.map fun x => { x with taken := false, pwmTest := none }
    cc := { s.cc with cmp := s.cc.cmp.map fun c => { c with test := false } }
    console := { s.console with
      locked := false, xfer := if s.console.xferOpen then none else s.console.xfer } }
def lockRelease (cause : Nat) (s : State) : State :=
  if s.console.locked then lockEvent false cause (lockGive s) else s
/-- VAON is lost: the lock is released, every rail goes with it, and the store keeps what was written. -/
def vaonLoss (at_ : LossPoint) (s : State) : State :=
  let i := s.island
  let s := lockRelease 2 s
  let s := s.modStore fun t => t.powerLoss (islandTime s) at_
  let s := { s with
    island := { vaon := false, refclk := i.refclk, keys := i.keys, hours := i.hours, hourTq := i.hourTq }
    console := {}, loader := {}, power := {}, tap := {}, poison := [] }
  loseBytes (fun _ => true) (clearUnpowered s)
def execVaonLoss (at_ : LossPoint) (s : State) : Host.Outcome State Fault Refusal :=
  doneIf s.island.vaon s (vaonLoss at_)

/-! ### Stopping (R69) -/

/-- A request for an orderly power-down; one made while a start or a power-down runs, or in service-only mode, changes
nothing. -/
def stopRequest (s : State) : State :=
  if !s.island.vaon || starting s || s.island.mode = .serviceOnly then s else pdnRequest false s
def pdnAck (s : State) : State := if s.island.seqr = .grace then pdnDrop s else s
/-- A write of ELV_PDN_CTRL. -/
def pdnWrite (grace : BitVec 8) (ack go : Bool) (s : State) : State :=
  let s := s.modIsland fun i => { i with grace := grace }
  let s := if ack then pdnAck s else s
  if go then stopRequest s else s
def execSysOffN (s : State) : Host.Outcome State Fault Refusal := done (stopRequest s)
def execElvPdnGo (who : Master) (grace : BitVec 8) (s : State) : Host.Outcome State Fault Refusal :=
  done (regWriteAt who (elvBase + 0x130) (pdnWrite grace false true) s)
def execElvPdnAck (who : Master) (grace : BitVec 8) (s : State) : Host.Outcome State Fault Refusal :=
  done (regWriteAt who (elvBase + 0x130) (pdnWrite grace true false) s)
def execGraceExpiry (s : State) : Host.Outcome State Fault Refusal :=
  doneIf (s.island.vaon && s.island.seqr = .grace) s pdnDrop

/-! ### A rail fails (R50, R70) -/

/-- A disorderly power-down in the store and the log, with the rail and the power-down's step (R50, R70). -/
def recordDisorderly (rail step : Nat) (s : State) : State :=
  let s := setBlock (fun b => { b with marker := .disorderly }) s
  logEntry { fid := islandFid, kind := 1, detail := BitVec.ofNat 256 (rail + 256 * step) } s
/-- The mode that the rails still up allow. -/
def railMode (s : State) : Mode :=
  if !s.island.good.getLsbD 0 then .serviceOnly
  else if s.island.mode = .full && !s.island.good.getLsbD 4 then .servoOnly else s.island.mode
/-- The failed rail and every rail that depends on it (R46, R50). -/
def railsLost (n : Fin 14) (s : State) : State :=
  let s := s.modIsland fun i => { i with good := i.good &&& ~~~(1#14 <<< n.val) }
  let s := dropEnables (railMask (railGroup n < ·)) s
  let s := if n = 1 then
    (let t := s.modIsland fun i => { i with pll := false }
     if s.island.good.getLsbD 0 then clockLoss t else t) else s
  clearUnpowered (failLinks s)
def railFailure (n : Fin 14) (s : State) : State :=
  let s := railsLost n s
  match s.island.seqr, s.island.start with
  | .dropping .critical _ _, _ => s
  | .grace, _ => s.modIsland fun i => { i with seqr := .disorderly n 3 }
  | .dropping .powerDown _ _, _ => s.modIsland fun i => { i with seqr := .disorderly n 4 }
  | .dropping why g w, some r =>
    let s := setRun (fun x => { x with bad := true, failed := some (r.failed.getD .rail) }) (recordDisorderly n 0 s)
    if why = .failedStart then s else
    (startFailed .rail r s).modIsland fun i => { i with seqr := .dropping .failedStart g w }
  | .idle, some _ => startFail .rail (setRun (fun x => { x with bad := true }) (recordDisorderly n 0 s))
  | .disorderly _ _, _ => s
  | _, _ =>
    let s := recordDisorderly n 0 s
    match railMode s with
    | .serviceOnly => say (.stop .disorderly) (s.modIsland fun i => { i with mode := .serviceOnly })
    | .servoOnly => if s.island.mode = .full then toServoOnly s else s
    | .full => s
def execRailFailure (n : Fin 14) (s : State) : Host.Outcome State Fault Refusal :=
  doneIf (s.island.vaon && s.island.enabled.getLsbD n && s.island.good.getLsbD n) s (railFailure n)
/-- 200 µs after a rail failed during an orderly power-down: every enable is dropped (R70). -/
def disorderlyDrop (s : State) : State :=
  match s.island.seqr with
  | .disorderly n k =>
    let s := clearUnpowered (dropEnables 0x3FFF s)
    let asStart := s.island.stopStart
    let s := recordDisorderly n k s
    let s := say (.stop .disorderly) (s.modIsland fun i => { i with
      mode := .serviceOnly, seqr := .idle, stopStart := false, start := none })
    if asStart then startResult .ok s else s
  | _ => s
def execDisorderlyDropDelay (s : State) : Host.Outcome State Fault Refusal :=
  doneIf (s.island.vaon && match s.island.seqr with | .disorderly _ _ => true | _ => false) s disorderlyDrop

end Sys2Proof.Machine
end

