-- ==== Sys2Proof/Machine/Power.lean ====
section
/-! DEFINITION. The power manager and the monitors (spec/16): steps and voltages, droop, the current loop, the thermal
loop, issue limits, pace notices, ageing, PMBus, energy. -/
namespace Sys2Proof.Machine

/-! ### Domains (R352 to R354, R358) -/

/-- A managed domain runs: full mode, its rail good. -/
def domLive (s : State) (d : Fin 5) : Bool := s.island.mode = .full && s.island.good.getLsbD (4 + d)
def allDoms : List (Fin 5) := List.finRange 5
/-- Whether a partition owns a resource of a domain (R358). -/
def Part.inDomain (p : Part) (d : Nat) : Bool :=
  p.assigned && if d = 0 then p.cores ≠ 0 else
    fld p.tiles.toNat (16 * (d - 1)) 16 ≠ 0 || fld p.shuttle.toNat (4 * (d - 1)) 4 ≠ 0 || p.clusters.getLsbD (d - 1)
/-- The priority of a domain: the least PRIO of its partitions, 8 with none (R358). -/
def domPrio (s : State) (d : Fin 5) : Nat :=
  (allParts.filter fun p => (vget s.parts p).inDomain d).foldl (fun m p => min m (vget s.power.prio p).toNat) 8
/-- V(step) + TRIM in mV, clamped to 0.60–0.95 V (R353; log 9). -/
def voltOf (d : Fin 5) (step : BitVec 6) (trim : BitVec 5) : BitVec 10 :=
  let half := 2 * (Config.voltTable d step).toNat + 5 * trim.toNat
  let mv := half / 2 + b2n (half % 2 = 1 && Config.voutRound d)
  BitVec.ofNat 10 (max 600 (min 950 mv))
/-- The least of the current loop's step, the thermal cap and 40 (R354). -/
def Domain.goal (x : Domain) : BitVec 6 := bvMin (bvMin x.loop x.cap) 40
/-- The step follows the goal: down at once, up once the voltage of the new step has settled. A raise commands no voltage
below the present one, which a lowered step keeps for 1 ms (R353). -/
def Domain.follow (d : Fin 5) (it : Time) (x : Domain) : Domain :=
  if x.goal < x.step then { x with step := x.goal, lowers := satInc x.lowers, lowSince := it, raiseTo := none }
  else if x.goal = x.step then { x with raiseTo := none }
  else if x.raiseTo = some x.goal then x
  else { x with raiseTo := some x.goal, vout := bvMax x.vout (voltOf d x.goal x.trim) }

/-! ### PMBus transactions (R368) -/

/-- Command codes of PMBus 1.3 (PRESUMED, log 77). -/
def PmbCmd.code : PmbCmd → Nat
  | .page => 0x00 | .clearFaults => 0x03 | .voutMode => 0x20 | .voutCommand => 0x21 | .statusWord => 0x79
  | .readVout => 0x8B | .readIout => 0x8C | .readTemperature1 => 0x8D | .readPout => 0x96
/-- The regulator of the rail on SEQ_ENn answers at 0x40 + n. -/
def pmbAddr (n : Fin 14) : Nat := 0x40 + n
/-- The packet error code of SMBus: CRC-8, x^8 + x^2 + x + 1 (PRESUMED, log 77). -/
def pec (bytes : List Byte) : Byte :=
  bytes.foldl (fun (c : Byte) b => (List.range 8).foldl (fun (c : Byte) _ =>
    if c.msb then (c <<< 1) ^^^ 0x07 else c <<< 1) (c ^^^ b)) 0
/-- What the island sends: address, command and data with the packet error code of a write, or address, command and the
repeated address of a read, whose data and code the regulator sends. -/
def PmbTx.bytes (t : PmbTx) : List Byte :=
  let head := [BitVec.ofNat 8 (2 * pmbAddr t.rail), BitVec.ofNat 8 t.cmd.code]
  match t.cmd with
  | .page | .voutCommand | .clearFaults => head ++ t.data ++ [pec (head ++ t.data)]
  | _ => head ++ [BitVec.ofNat 8 (2 * pmbAddr t.rail + 1)]
/-- LINEAR16: mantissa × 2^exponent volts. The comparison of a mantissa with a voltage in mV is exact. -/
def linear16 (exp : BitVec 5) (mv : Nat) : BitVec 16 :=
  let e := exp.toInt
  if e < 0 then BitVec.ofNat 16 ((mv * 2 ^ (-e).toNat + 500) / 1000) else BitVec.ofNat 16 ((mv + 500 * 2 ^ e.toNat) / (1000 * 2 ^ e.toNat))
/-- A LINEAR16 reading is within 1 % of a voltage in mV. -/
def nearVolt (exp : BitVec 5) (read : BitVec 16) (mv : Nat) : Bool :=
  let e := exp.toInt
  let got := 1000 * read.toNat * (if e < 0 then 1 else 2 ^ e.toNat)
  let want := mv * (if e < 0 then 2 ^ (-e).toNat else 1)
  decide (99 * want ≤ 100 * got) && decide (100 * got ≤ 101 * want)
/-- The rail of a managed domain. -/
def domRail (d : Fin 5) : Fin 14 := ⟨4 + d, by omega⟩
/-- The transactions of a step that used the bus. -/
def onBus (l : List PmbTx) (s : State) : State := if l = [] then s else s.modPower fun w => { w with bus := l }
/-- Every commanded voltage that a change of the domains has moved goes to its regulator as VOUT_COMMAND. -/
def commandVolts (change : State → State) (s : State) : State :=
  let t := change s
  onBus ((allDoms.filter fun d => (vget t.power.dom d).vout ≠ (vget s.power.dom d).vout).map fun d =>
    { rail := domRail d, cmd := .voutCommand, data := natLe 2 (linear16 (vget t.power.dom d).vexp (vget t.power.dom d).vout.toNat).toNat }) t
def followAll (s : State) : State :=
  commandVolts (fun s => allDoms.foldl (fun (s : State) (d : Fin 5) =>
    if domLive s d then s.modDom d (Domain.follow d s.time.it) else s) s) s
/-- What limits a domain: 0 none, 1 its current, 2 its thermal cap, 3 the package. -/
def Domain.limit (x : Domain) : BitVec 2 :=
  if x.cap ≤ x.loop && x.cap < 40 then 2 else if 40 ≤ x.loop then 0 else if x.byCur then 1 else 3

/-! ### RATIO and pace notices (R232, R363, R364) -/

/-- Numerator of an accelerator die's clock over 1.6 GHz with its stretches: step × (2^17 − fraction), over 40 × 2^17. -/
def dieClock (s : State) (d : Fin 4) : Nat :=
  (vget s.power.dom ⟨d + 1, by omega⟩).step.toNat * (2 ^ 17 - (vget s.power.frac d).toNat)
def liveDies (s : State) : List (Fin 4) := (List.finRange 4).filter fun d => domLive s ⟨d + 1, by omega⟩
/-- The die with the lowest effective clock. -/
def slowDie (s : State) : Option (Fin 4) :=
  (liveDies s).foldl (fun (m : Option (Fin 4)) d => match m with
    | none => some d
    | some e => if dieClock s d < dieClock s e then some d else m) none
/-- RATIO: the slowest die's clock times 256, rounded, at most 255. -/
def paceRatio (s : State) : Nat :=
  match slowDie s with
  | some d => min 255 ((dieClock s d * 256 + 20 * 2 ^ 17) / (40 * 2 ^ 17))
  | none => 0
def paceCause (s : State) : Nat :=
  match slowDie s with
  | some d =>
    let x := vget s.power.dom ⟨d + 1, by omega⟩
    if x.step < 40 && x.cap = x.step then 3 else if x.step < 40 then 2 else 1
  | none => 2
/-- The present RATIO, and since when it has been on its side of THRESH; a notice whose UNTIL_IT has passed is no longer
in force. -/
def ratioNow (s : State) : State :=
  let slow := decide (paceRatio s < s.power.thresh.toNat)
  s.modPower fun w => { w with
    ratio := BitVec.ofNat 8 (paceRatio s), pacing := w.pacing && decide (s.time.it ≤ w.lastUntil)
    slow := slow, slowSince := if slow = w.slow then w.slowSince else s.time.it }
/-- Members and spares of every open channel whose list holds this chip, this chip among them, each chip once, with the
channel's partition (R232). -/
def pacePeers (s : State) : List (BitVec 12 × Fin 32) :=
  ((List.finRange 4).flatMap fun d => (List.finRange 8).map fun k => s.chan d k).foldl (fun l c =>
    match c.desc with
    | some x => if c.st ≠ .closed && x.members.contains (chipId s) then
        x.members.foldl (fun (l : List (BitVec 12 × Fin 32)) m =>
          if l.any (fun e => e.1 = m) then l else l ++ [(m, c.part)]) l else l
    | none => l) []
/-- A notice sent: its packets, PACECNT, event 0x71. -/
def paceSend (ends : Bool) (s : State) : State :=
  let it := s.time.it
  let until_ := if ends then it else it + BitVec.ofNat 64 (16000 * s.power.hold.toNat)
  let cause := paceCause s
  let ratio := paceRatio s
  let data := natLe 8 (cause + 256 * ratio) ++ natLe 8 it.toNat ++ natLe 8 until_.toNat ++ natLe 8 0
  let s := (pacePeers s).foldl (fun s e => sendPacket
    { ttype := 0x20, final := false, detour := false, dchip := e.1, schip := chipId s, spart := BitVec.ofNat 8 e.2,
      hops := 48, daddr := 0, cause := 0, tid := 0, stream := 0, data := data } s) s
  let s := s.modPower fun w => { w with
    paceCnt := satInc w.paceCnt, pacing := !ends, pcause := BitVec.ofNat 2 cause, lastRatio := BitVec.ofNat 8 ratio,
    lastSent := it, lastUntil := until_ }
  emit islandFid 0x71 (pl 16 cause + pl 17 ratio + pl 24 until_.toNat) s
/-- Whether a notice is due: with RATIO below THRESH none in force for 10 µs of it, RATIO changed by 8, or half of the hold
gone; else one in force, for 100 µs of it (R363, R364). -/
def paceDue (s : State) : Bool :=
  let w := s.power
  let r := paceRatio s
  let gap := s.time.it - w.lastSent
  let side := s.time.it - w.slowSince
  (w.paceCnt = 0 || decide (1600000 ≤ gap)) &&
  if r < w.thresh.toNat then
    (!w.pacing && decide (160000 ≤ side)) || w.pacing && (decide (8 ≤ r - w.lastRatio.toNat) || decide (8 ≤ w.lastRatio.toNat - r) ||
      decide ((w.lastUntil - w.lastSent).toNat ≤ 2 * gap.toNat))
  else w.pacing && decide (1600000 ≤ side)
def paceNoticeSend (stretched : Vector (BitVec 16) 4) (s : State) : State :=
  let s := ratioNow (s.modPower fun w => { w with frac := stretched })
  if paceDue s then paceSend (decide (s.power.thresh.toNat ≤ paceRatio s)) s else s
/-- 10 µs below THRESH, a change, half a hold, or 100 µs at or above it. -/
def execPaceNoticeSend (stretched : Vector (BitVec 16) 4) (s : State) : Host.Outcome State Fault Refusal :=
  doneIf (s.island.mode = .full) s (paceNoticeSend stretched)

/-! ### Current loop (R356 to R359, R373) -/

/-- Current limit in mA (R357). -/
def curLimit (d : Fin 5) : Nat := if d = 0 then 260000 else 180000
/-- A domain's estimate, of power in mW or of current in mA, with its gain: 1.25 while PMBERR stands (R356, R359). -/
def calibrated (s : State) (d : Fin 5) (raw : BitVec 32) : Nat :=
  raw.toNat * (if s.power.pmbErr then 0x14000 else (vget s.power.dom d).gain.toNat) / 2 ^ 16
def domPower (s : State) (d : Fin 5) : Nat := calibrated s d (vget s.power.dom d).raw
/-- The power of the other sequenced rails that are good, as READ_POUT last gave it (R356). -/
def otherPower (s : State) : Nat :=
  ((List.finRange 14).filter fun (n : Fin 14) => s.island.good.getLsbD n && !(decide (4 ≤ n.val) && decide (n.val < 9))).foldl
    (fun a n => a + (vget s.power.railPow n).toNat) 0
def loopDown (byCur : Bool) (d : Fin 5) (s : State) : State :=
  s.modDom d fun x => { x with loop := if 10 < x.loop then x.loop - 1 else x.loop, byCur := byCur }
/-- The first case of R357 that holds; `cur` holds the raw estimates of the currents. -/
def currentLoop (cur : Vector (BitVec 32) 5) (s : State) : State :=
  let live := allDoms.filter (domLive s)
  let amps := fun (d : Fin 5) => calibrated s d (vget cur d)
  let hot := live.filter fun (d : Fin 5) => decide (curLimit d < amps d)
  let pest := s.power.pest.toNat
  let lim := s.power.limit.toNat * 250
  let good := (live.all fun (d : Fin 5) => decide (amps d < curLimit d)) && (!s.power.limited || decide (pest * 100 < lim * 95))
  let calm := if good then s.power.calm + 1 else 0
  let s := s.modPower fun w => { w with calm := calm }
  if hot ≠ [] then hot.foldl (fun (s : State) (d : Fin 5) => loopDown true d s) s
  else if s.power.limited && decide (lim < pest) then
    let c := live.filter fun (d : Fin 5) => decide (10 < (vget s.power.dom d).loop)
    let top := c.foldl (fun m d => max m (domPrio s d)) 0
    (c.filter fun (d : Fin 5) => domPrio s d = top).foldl (fun (s : State) (d : Fin 5) => loopDown false d s) s
  else if 11 ≤ calm then
    let c := live.filter fun (d : Fin 5) => decide ((vget s.power.dom d).loop < (vget s.power.dom d).cap)
    let low := c.foldl (fun m d => min m (domPrio s d)) 8
    let s := (c.filter fun (d : Fin 5) => domPrio s d = low).foldl (fun (s : State) (d : Fin 5) => s.modDom d fun x => { x with loop := x.loop + 1 }) s
    s.modPower fun w => { w with calm := if c = [] then 11 else 1 }
  else s
/-- PWR_DOMd takes a new result; a change of LIMITER sends event 0x70. -/
def domResult (d : Fin 5) (s : State) : State :=
  if !domLive s d then s else
  let x := vget s.power.dom d
  let s := s.modDom d fun x => { x with limiter := x.limit, tag := x.tag.bump }
  if x.limiter = x.limit then s
  else emit islandFid 0x70 (pl 16 d + pl 17 x.limit.toNat + pl 18 x.step.toNat + pl 19 x.cap.toNat +
    pl 20 s.power.pest.toNat) s
/-- The estimate: every domain's calibrated power, the other rails, 2 W for VAON and VIO33 (R356). The chip's energy
integrates it over the 1 µs (R370). -/
def estimate (raw : Vector (BitVec 32) 5) (s : State) : State :=
  let s := allDoms.foldl (fun (s : State) (d : Fin 5) => s.modDom d fun x => { x with raw := if domLive s d then vget raw d else 0 }) s
  let sum := allDoms.foldl (fun a (d : Fin 5) => a + domPower s d) 0
  let pest := sum + otherPower s + 2000
  s.modPower fun w => { w with pest := BitVec.ofNat 32 pest, ptag := w.ptag.bump, energy := w.energy + pest }
def currentLoopEval (cur raw : Vector (BitVec 32) 5) (s : State) : State :=
  let s := followAll (currentLoop cur (estimate raw s))
  ratioNow (allDoms.foldl (fun (s : State) (d : Fin 5) => domResult d s) s)
def execCurrentLoopEval (cur raw : Vector (BitVec 32) 5) (s : State) : Host.Outcome State Fault Refusal :=
  doneIf (s.island.mode = .full) s (currentLoopEval cur raw)

/-! ### Voltages and droop (R353, R355) -/

def voutSettled (d : Fin 5) (mode : BitVec 5) (s : State) : State :=
  onBus [{ rail := domRail d, cmd := .voutMode }, { rail := domRail d, cmd := .readVout }]
    (s.modDom d fun x => match x.raiseTo with
      | some t => { x with step := t, raises := satInc x.raises, raiseTo := none, vexp := mode }
      | none => x)
/-- READ_VOUT, in the format that VOUT_MODE gives, is within 1 % of the commanded voltage: the raised step takes effect. -/
def execVoutSettled (d : Fin 5) (mode : BitVec 5) (read : BitVec 16) (s : State) : Host.Outcome State Fault Refusal :=
  let x := vget s.power.dom d
  doneIf (domLive s d && x.raiseTo.isSome && !s.power.pmbErr && nearVolt mode read x.vout.toNat) s (voutSettled d mode)
def voltageLower (d : Fin 5) (s : State) : State :=
  commandVolts (fun s => s.modDom d fun x => { x with vout := voltOf d x.step x.trim }) s
/-- 1 ms at or below the lower step: the voltage follows. -/
def execVoltageLower (d : Fin 5) (s : State) : Host.Outcome State Fault Refusal :=
  let x := vget s.power.dom d
  doneIf (domLive s d && x.raiseTo.isNone && decide (voltOf d x.step x.trim < x.vout) &&
    decide (16000000 ≤ (s.time.it - x.lowSince).toNat)) s (voltageLower d)
def execDroop (d : Fin 5) (s : State) : Host.Outcome State Fault Refusal :=
  doneIf (domLive s d && !(vget s.power.dom d).stretching) s fun s =>
    s.modDom d fun x => { x with stretching := true, stretchCnt := satInc x.stretchCnt }
def execStretchEnd (d : Fin 5) (s : State) : Host.Outcome State Fault Refusal :=
  doneIf (domLive s d && (vget s.power.dom d).stretching) s fun s => s.modDom d fun x => { x with stretching := false }

/-! ### Thermal loop (R361, R362, R365) -/

/-- Groups that a thermal evaluation reads: all in full mode, else the I/O die's. -/
def tempLive (s : State) (g : Fin 14) : Bool :=
  g = 5 || (s.island.mode = .full &&
    if g.val < 5 then s.island.good.getLsbD (4 + g) else s.island.good.getLsbD 10)
def allGroups : List (Fin 14) := List.finRange 14
def tempOf (s : State) (g : Fin 14) : Int := (vget s.power.temp g).toInt
/-- The lowest live group whose temperature satisfies `f`. -/
def tempWhere (s : State) (f : Fin 14 → Int → Bool) : Option (Fin 14) :=
  allGroups.find? fun g => tempLive s g && f g (tempOf s g)
/-- A domain's cap follows its hottest sensor, the I/O die and the base dies. -/
def capStep (d : Fin 5) (s : State) : State :=
  let t := tempOf s ⟨d, by omega⟩
  let hot := decide (tjMax - 48 ≤ t) || decide (tjMax - 48 ≤ tempOf s 5) ||
    (d ≠ 0 && (tempWhere s fun g t => decide (6 ≤ g.val) && decide (1520 ≤ t)).isSome)
  s.modDom d fun x => { x with cap :=
    if hot then (if 12 ≤ x.cap then x.cap - 2 else if 10 ≤ x.cap then 10 else x.cap)
    else if t < tjMax - 128 && x.cap < 40 then x.cap + 1 else x.cap }
/-- Stacks with doubled refresh: from 95 °C until below 90 °C. -/
def refreshMask (s : State) : BitVec 8 :=
  BitVec.ofNat 8 ((List.finRange 8).foldl (fun a (k : Fin 8) =>
    let t := tempOf s ⟨6 + k, by omega⟩
    if decide (1520 ≤ t) || (s.power.refresh2.getLsbD k && decide (1440 ≤ t)) then a + 2 ^ k.val else a) 0)
def tempWord (s : State) (g : Fin 14) : BitVec 128 := pl 16 g + pl 18 (vget s.power.temp g).toNat
/-- TJ_MAX reached: once, until every sensor has cooled by 8 °C. -/
def tempHot (s : State) : State :=
  if !s.power.hotSent then
    match tempWhere s fun _ t => decide (tjMax ≤ t) with
    | some g =>
      say (.temp g (vget s.power.temp g)) (emit islandFid 0x73 (tempWord s g) (s.modPower fun w => { w with hotSent := true }))
    | none => s
  else if (tempWhere s fun _ t => decide (tjMax - 128 ≤ t)).isNone then s.modPower fun w => { w with hotSent := false }
  else s
/-- A sensor at TJ_MAX + 10 °C twice running: class 4 (R362). -/
def tempCritical (prev : Vector Bool 14) (s : State) : State :=
  match tempWhere s fun g _ => vget s.power.crit g && vget prev g with
  | some g =>
    let t := vget s.power.temp g
    let s := say (.temp g t) (emit islandFid 0x74 (tempWord s g) s)
    let s := logEntry { fid := islandFid, kind := 3, cls := 4, cause := 0x800, bit := 11,
                        detail := BitVec.ofNat 256 (g.val + 2 ^ 16 * t.toNat) } s
    raiseCause islandFid 11 s
  | none => s
def thermalEval (temps : Vector (BitVec 16) 14) (s : State) : State :=
  let prev := s.power.crit
  let s := s.modPower fun w => { w with
    temp := Vector.ofFn fun g => if tempLive s g then vget temps g else vget w.temp g
    tempTag := Vector.ofFn fun g => if tempLive s g then (vget w.tempTag g).bump else vget w.tempTag g }
  if s.island.mode = .serviceOnly then s else
  let s := s.modPower fun w => { w with
    crit := Vector.ofFn fun g => tempLive s g && decide (tjMax + 160 ≤ tempOf s g), refresh2 := refreshMask s }
  let s := allDoms.foldl (fun (s : State) (d : Fin 5) => if domLive s d then capStep d s else s) s
  tempCritical prev (tempHot (followAll s))
def execThermalEval (temps : Vector (BitVec 16) 14) (s : State) : Host.Outcome State Fault Refusal :=
  doneIf s.island.vaon s (thermalEval temps)
/-- Every rail monitor reports (R365). -/
def railMonitorReport (mv : Vector (BitVec 16) 16) (s : State) : State :=
  s.modPower fun w => { w with rail := mv, railTag := w.railTag.map Tag.bump }
def execRailMonitorReport (mv : Vector (BitVec 16) 16) (s : State) : Host.Outcome State Fault Refusal :=
  doneIf s.island.vaon s (railMonitorReport mv)

/-! ### Issue limits (R360) -/

/-- One partition's issue rate by its average power in mW: down by an eighth above its budget, up below 90 % of it. -/
def budgetPart (avg : Vector (BitVec 32) 32) (s : State) (p : Fin 32) : State :=
  let b := vget s.power.budget p
  if !(vget s.parts p).assigned || b = 0xFFFF then s else
  let cap := b.toNat * 250
  let a := (vget avg p).toNat
  let i := vget s.power.issue p
  let j := if cap < a then (if 1 < i then i - 1 else i)
    else if a * 100 < cap * 90 then (if i < 8 then i + 1 else i) else i
  s.modPower fun w => { w with issue := vset w.issue p j }
/-- Eighths of the full issue rate that a tile works at: its partition's; a reflex lane's tile is never limited. -/
def tileIssue (s : State) (t : Fin 64) : BitVec 4 :=
  match partOf s (fidMk 2 t) with
  | some p => if (vget s.tiles t).lane then 8 else vget s.power.issue p
  | none => 8
def execBudgetEval (avg : Vector (BitVec 32) 32) (s : State) : Host.Outcome State Fault Refusal :=
  doneIf (s.island.mode = .full && !s.power.mode1) s fun s => allParts.foldl (budgetPart avg) s

/-! ### Ageing (R366, R367) -/

/-- A domain's newest trim record, one still in the journal's queue first. -/
def newestTrim (s : State) (d : Fin 5) : Option TrimRec :=
  let q := s.store.queue.reverse.filterMap fun w => match w with | .trim r => some r | _ => none
  (q ++ s.store.trims).find? fun r => r.domain = d
/-- The trim in effect or on record. -/
def presentTrim (s : State) (d : Fin 5) : BitVec 5 :=
  bvMax (vget s.power.dom d).trim (match newestTrim s d with | some r => r.trim | none => 0)
/-- One measurement: the trim rises by at most one unit of 2.5 mV, to at most 20 units. -/
def ageMeasure (d : Fin 5) (ppm : BitVec 24) (s : State) : State :=
  let old := presentTrim s d
  let want := ceilDiv ppm.toNat 1500
  let new : BitVec 5 := if old.toNat < want && decide (old < 20) then old + 1 else old
  let s := storeReq (.trim { domain := d, trim := new, hours := s.island.hours, d := ppm }) s
  let s := s.modDom d fun x => { x with
    trim := new, d := ppm, ageHours := s.island.hours.setWidth 24, ageTag := x.ageTag.bump,
    vout := if x.step = 0 then x.vout else bvMax x.vout (voltOf d (x.raiseTo.getD x.step) new) }
  let w := pl 16 d + pl 17 new.toNat + pl 20 ppm.toNat
  if new = old then s else
  let s := emit islandFid 0x75 w s
  if new = 20 then emit islandFid 0x76 w s else s
def ageAll (ppm : Vector (BitVec 24) 5) (s : State) : State :=
  commandVolts (fun s => allDoms.foldl (fun (s : State) (d : Fin 5) => ageMeasure d (vget ppm d) s) s) s
/-- Every 24 powered hours in full mode. -/
def execAgeingMeasurement (d : Vector (BitVec 24) 5) (s : State) : Host.Outcome State Fault Refusal :=
  doneIf (s.island.mode = .full) s (ageAll d)
/-- Step 9: each trim from its latest record. -/
def trimsFromStore (s : State) : State :=
  allDoms.foldl (fun (s : State) (d : Fin 5) => match newestTrim s d with
    | some r => s.modDom d fun x => { x with trim := r.trim }
    | none => s) s
/-- The domains as full mode begins: step 40 at its voltage. -/
def domainsFull (s : State) : State :=
  commandVolts (fun s => allDoms.foldl (fun (s : State) (d : Fin 5) => s.modDom d fun x => { x with
    loop := 40, cap := 40, step := 40, raiseTo := none, byCur := false, vout := voltOf d 40 x.trim }) s) s

/-! ### PMBus (R356, R368, R369) -/

def allRails : List (Fin 14) := List.finRange 14
/-- A transaction failed three times: PMBERR and event 0x72. -/
def pmbFail (n : Fin 14) (cmd : PmbCmd) (s : State) : State :=
  emit islandFid 0x72 (pl 16 (pmbAddr n) + pl 17 cmd.code) (s.modPower fun w => { w with pmbErr := true })
/-- A read of every regulator, sent three times where it fails (R369). -/
def pmbReads (cmd : PmbCmd) (good : Fin 14 → Bool) : List PmbTx :=
  allRails.flatMap fun n => List.replicate (if good n then 1 else 3) { rail := n, cmd := cmd }
/-- The gain of a domain from its regulator's READ_POUT, clamped to 0.80–1.25. -/
def gainOf (pout raw old : BitVec 32) : BitVec 32 :=
  if raw = 0 then old else BitVec.ofNat 32 (max 52429 (min 81920 (pout.toNat * 2 ^ 16 / raw.toNat)))
def pmbusCalibration (pout : Vector PmbAnswer 14) (s : State) : State :=
  let good := fun (n : Fin 14) => match vget pout n with | .value _ => true | _ => false
  let s := (onBus (pmbReads .readPout good) s).modPower fun w => { w with
    pmbErr := w.pmbErr && !allRails.all good
    railPow := Vector.ofFn fun n => match vget pout n with | .value mw => mw | _ => vget w.railPow n }
  let s := allDoms.foldl (fun (s : State) (d : Fin 5) => match vget pout ⟨4 + d, by omega⟩ with
    | .value mw => s.modDom d fun x => { x with gain := gainOf mw x.raw x.gain }
    | _ => s) s
  allRails.foldl (fun (s : State) (n : Fin 14) => match vget pout n with | .value _ => s | _ => pmbFail n .readPout s) s
def execPmbusCalibration (pout : Vector PmbAnswer 14) (s : State) : Host.Outcome State Fault Refusal :=
  doneIf (s.island.mode = .full) s (pmbusCalibration pout)
/-- PMB_ALERT_N: every STATUS_WORD read, and the faults of those that report one cleared; a regulator that turned its rail off is a rail failure. -/
def pmbAlert (status : Vector (Option (BitVec 16)) 14) (off : BitVec 14) (s : State) : State :=
  let s := onBus (pmbReads .statusWord (fun n => (vget status n).isSome) ++
    (allRails.filter fun n => match vget status n with | some w => w ≠ 0 | none => false).map fun n =>
      { rail := n, cmd := .clearFaults }) s
  let s := allRails.foldl (fun (s : State) (n : Fin 14) => match vget status n with
    | none => pmbFail n .statusWord s
    | some w => if w = 0 then s else emit islandFid 0x77 (pl 16 (pmbAddr n) + pl 18 w.toNat) s) s
  allRails.foldl (fun (s : State) (n : Fin 14) =>
    if off.getLsbD n && s.island.enabled.getLsbD n && s.island.good.getLsbD n then railFailure n s else s) s
def execPmbAlert (status : Vector (Option (BitVec 16)) 14) (off : BitVec 14) (s : State) :
    Host.Outcome State Fault Refusal := doneIf s.island.vaon s (pmbAlert status off)

/-! ### Energy (R370 to R372) -/

/-- The totals of 1 ms in µJ: the chip's is the integral of P_est, whose part of a µJ waits for the next; the others are
scaled so that they and the common total make the chip's; in mode 1 all is common. -/
def energyUpdate (common : BitVec 64) (parts : Vector (BitVec 64) 32) (s : State) : State :=
  let chip := BitVec.ofNat 64 (s.power.energy / 1000)
  let sum := parts.toList.foldl (fun a e => a + e.toNat) common.toNat
  let share : Fin 32 → Nat := fun p =>
    if s.power.mode1 || sum = 0 then 0 else (vget parts p).toNat * chip.toNat / sum
  let used := allParts.foldl (fun a p => a + share p) 0
  s.modPower fun w => { w with
    energy := w.energy % 1000, etag := w.etag.bump, echip := w.echip + chip
    ecommon := if w.mode1 then w.echip + chip else w.ecommon + BitVec.ofNat 64 (chip.toNat - used)
    epart := Vector.ofFn fun p => if w.mode1 then 0 else vget w.epart p + BitVec.ofNat 64 (share p) }
def execEnergyUpdate (common : BitVec 64) (parts : Vector (BitVec 64) 32) (s : State) :
    Host.Outcome State Fault Refusal := doneIf (s.island.mode = .full) s (energyUpdate common parts)

end Sys2Proof.Machine
end

