-- ==== Sys2Proof/Machine/RootPorts.lean ====
section
/-! DEFINITION. PCIe root ports (spec/04 R85, spec/05 R109, spec/06 R145 to R148): inbound accesses, MSIs, links. -/
namespace Sys2Proof.Machine

def rpFid (q : Fin 8) : Fid := fidMk 12 q
/-- A root port takes inbound traffic: its link is up and neither it nor its partition is fenced (R380, R381). -/
def rpOpen (s : State) (q : Fin 8) : Bool :=
  s.island.mode = .full && (vget s.rports q).exists_ && (vget s.rports q).up && !isFenced s (rpFid q)
/-- Address of an interrupt file's page (Table 4.2). -/
def imsicAddr (core : Fin 48) (file : Fin 9) : Nat :=
  if file = 0 then regBase + 0xD000000 + 0x1000 * core else regBase + 0xE000000 + 0x8000 * core + 0x1000 * (file - 1)
/-- The interrupt file whose seteipnum an address is. -/
def imsicAt (a : Nat) : Option (Fin 48 × Fin 9) :=
  let o := a - regBase
  if h : 0xD000000 ≤ o ∧ (o - 0xD000000) / 0x1000 < 48 then
    (if o % 0x1000 = 0 then some (⟨(o - 0xD000000) / 0x1000, h.2⟩, 0) else none)
  else if h : 0xE000000 ≤ o ∧ (o - 0xE000000) / 0x8000 < 48 then
    (if o % 0x1000 = 0 then some (⟨(o - 0xE000000) / 0x8000, h.2⟩, ⟨1 + o % 0x8000 / 0x1000, by omega⟩) else none)
  else none
/-- An MSI from a root port: pending at the core's file, or discarded and recorded with CAUSE 5 across a partition
(R109). -/
def msiWrite (q : Fin 8) (core : Fin 48) (file : Fin 9) (ident : BitVec 8) (s : State) : State :=
  match partOf s (rpFid q) with
  | some p =>
    if belongs s p (fidMk 1 core) then pendImsic core file ident s
    else accessError (rpFid q) true 5 (imsicAddr core file) s
  | none => accessError (rpFid q) true 5 (imsicAddr core file) s
def execMsiWrite (q : Fin 8) (core : Fin 48) (file : Fin 9) (ident : BitVec 8) (s : State) :
    Host.Outcome State Fault Refusal :=
  doneIf (rpOpen s q) s (msiWrite q core file ident)
/-- What refuses an inbound access of n bytes at an address before the table check (R74, R146). -/
def inboundErr (a : Nat) : Option (BitVec 3) :=
  if 2 ^ 44 ≤ a then some 4 else
  match addrClass a with
  | .ddr | .stack _ => none
  | .reserved => some 4
  | _ => some 6
/-- An inbound access: an MSI, a table-checked access of the port's partition, or refused (R86, R109, R146). A read's
data and an Unsupported Request or Completer Abort go to the endpoint. -/
def inbound (q : Fin 8) (write : Bool) (a : Nat) (len : Nat) (data : List Byte) (s : State) : State :=
  match partOf s (rpFid q) with
  | none => accessError (rpFid q) write (match inboundErr a with | some c => c | none => 1) a s
  | some p =>
    let u : Unit_ := { fid := rpFid q, part := p, side := .pcie, core := false }
    match inboundErr a with
    | some c => accessError u.fid write c a s
    | none =>
      if write then
        let r := rangeWrite u a data s
        failAccess u true r.1 r.2.1 r.2.2
      else
        let r := rangeRead u a len s
        failAccess u false r.1 r.2.1 r.2.2
/-- A request within the limits of Table 6.7: a payload of at most 512 bytes, a read of at most 4,096, in one 4 KiB page;
another is malformed and reaches nothing (log 12). -/
def tlpOk (write : Bool) (a len : Nat) (data : List Byte) : Bool :=
  let n := if write then data.length else len
  decide (n ≤ if write then 512 else 4096) && decide (a % 4096 + n ≤ 4096)
def execInboundPcieAccess (q : Fin 8) (write : Bool) (addr : BitVec 64) (len : Nat) (data : List Byte) (s : State) :
    Host.Outcome State Fault Refusal :=
  doneIf (rpOpen s q && tlpOk write addr.toNat len data) s fun s =>
    match if write ∧ data.length = 4 ∧ addr.toNat < 2 ^ 44 ∧ addrClass addr.toNat = .reg then imsicAt addr.toNat else none with
    | some (c, f) => msiWrite q c f (if leNat data < 256 then BitVec.ofNat 8 (leNat data) else 0) s
    | none => inbound q write addr.toNat len data s
/-- The event of a link (R148). -/
def rpEvent (q : Fin 8) (cls : BitVec 8) (s : State) : State :=
  let r := vget s.rports q
  emit (rpFid q) cls (pl 16 r.width.toNat + pl 17 r.rate.toNat) s
/-- A link goes down without a request: class 0x58, then the class 1 fault (R148). -/
def pcieDown (q : Fin 8) (s : State) : State :=
  raiseCause (rpFid q) 5 ((rpEvent q 0x58 s).modRp q fun r => { r with up := false, width := 0, rate := 0 })
def execPcieLinkDown (q : Fin 8) (s : State) : Host.Outcome State Fault Refusal :=
  doneIf (vget s.rports q).up s (pcieDown q)
/-- Widths a link trains at, and the codes of the five rates in ascending order (R145, Table 6.7; log 12). -/
def linkOk (r : RootPort) (width rate : BitVec 8) : Bool :=
  ([1, 2, 4, 8, 16] : List Nat).contains width.toNat && decide (width.toNat ≤ r.lanes) &&
  decide (1 ≤ rate.toNat) && decide (rate.toNat ≤ 5)
/-- A link comes up, class 0x59; its own retraining continues under a fence (R148, R380). -/
def execPcieLinkUp (q : Fin 8) (width rate : BitVec 8) (s : State) : Host.Outcome State Fault Refusal :=
  let r := vget s.rports q
  doneIf (s.island.mode = .full && r.exists_ && !r.up && linkOk r width rate) s fun s =>
    rpEvent q 0x59 (s.modRp q fun r => { r with up := true, width := width, rate := rate })

/-! ### A root port's own configuration space (R449, Table 6.7; log 12) -/

/-- A word of the space: the bits that the standard fixes, and under a mask what software wrote last. -/
structure CfgWord where
  reset : Nat
  mask : Nat := 0
deriving DecidableEq, Repr
/-- The word last written at an offset. -/
def RootPort.wrote (r : RootPort) (off : Nat) : Option Nat :=
  (r.cfg.find? fun w => w.1.toNat = off).map (·.2.toNat)
def RootPort.word (r : RootPort) (off : Nat) (w : CfgWord) : Nat :=
  match r.wrote off with
  | some v => (w.reset &&& (2 ^ 32 - 1 - w.mask)) ||| (v &&& w.mask)
  | none => w.reset
/-- What the standard leaves to the part (IDs, latencies): a constant of Config under a mask. -/
def cfgFree (q : Fin 8) (off mask : Nat) : Nat := (Config.rpConfig q (BitVec.ofNat 12 off) [] (0, 0)).toNat &&& mask
/-- Offset of a capability structure: 0 PCI Express, 1 power management, 2 MSI, 3 AER (the standard leaves them open). -/
def capAt (i : Fin 4) : Nat := (Config.rpCap i).toNat
/-- The Type 1 header, by offset: IDs; command, and status with a capability list; the class of a PCI-to-PCI bridge;
header type 1; the bus numbers; no I/O window; the memory windows, the prefetchable one 64 bits wide; the first
capability; no interrupt pin (INTx is not supported); bridge control. -/
def cfgHeader (q : Fin 8) (off : Nat) : CfgWord :=
  match off with
  | 0x00 => { reset := cfgFree q 0 (2 ^ 32 - 1) }
  | 0x04 => { reset := 0x100000, mask := 0x0547 }
  | 0x08 => { reset := 0x06040000 + cfgFree q 8 0xFF }
  | 0x0C => { reset := 0x10000, mask := 0xFF }
  | 0x18 => { reset := 0, mask := 0xFFFFFF }
  | 0x20 => { reset := 0, mask := 0xFFF0FFF0 }
  | 0x24 => { reset := 0x00010001, mask := 0xFFF0FFF0 }
  | 0x28 | 0x2C => { reset := 0, mask := 0xFFFFFFFF }
  | 0x34 => { reset := capAt 0 % 256 }
  | 0x3C => { reset := 0, mask := 0x005B00FF }
  | _ => { reset := 0 }
/-- Device control holds a payload size of at most 512 bytes and a read request of at most 4,096 (Table 6.7): a greater
code reads as the greatest. -/
def devCtl (v : Nat) : Nat :=
  v - fld v 5 3 * 2 ^ 5 - fld v 12 3 * 2 ^ 12 + min (fld v 5 3) 2 * 2 ^ 5 + min (fld v 12 3) 5 * 2 ^ 12
/-- The PCI Express capability: a root port with no slot; 512-byte payloads; 10-bit tags; ASPM L1 without L0s; the port's
lanes and the five rates; the link as it stands. -/
def cfgExpress (q : Fin 8) (r : RootPort) (at_ o : Nat) : Nat :=
  match o with
  | 0x00 => 0x00420010 + capAt 1 % 256 * 2 ^ 8
  | 0x04 => 0x8022
  | 0x08 => devCtl (r.word (at_ + o) { reset := 0x2810, mask := 0x7FFF })
  | 0x0C => 5 + r.lanes * 2 ^ 4 + 2 * 2 ^ 10 + cfgFree q o 0x38000 + 2 ^ 20 + q.val * 2 ^ 24
  | 0x10 => r.word (at_ + o) { reset := 0, mask := 0x00D2 } + r.rate.toNat * 2 ^ 16 + r.width.toNat * 2 ^ 20 +
      cfgFree q o (2 ^ 28) + b2n r.up * 2 ^ 29
  | 0x1C => r.word (at_ + o) { reset := 0, mask := 0x1F }
  | 0x24 => 0x30000
  | 0x28 => r.word (at_ + o) { reset := 0, mask := 0x101F }
  | 0x2C => 0x3E
  | 0x30 => r.word (at_ + o) { reset := 5, mask := 0x0F }
  | _ => 0
/-- Power management (D0 and D3hot) and MSI with a 64-bit address. -/
def cfgPower (r : RootPort) (at_ o : Nat) : Nat :=
  match o with
  | 0x00 => 0x00030001 + capAt 2 % 256 * 2 ^ 8
  | 0x04 => r.word (at_ + o) { reset := 0, mask := 0x3 }
  | _ => 0
def cfgMsi (r : RootPort) (at_ o : Nat) : Nat :=
  match o with
  | 0x00 => r.word (at_ + o) { reset := 0x00800005, mask := 0x00010000 }
  | 0x04 => r.word (at_ + o) { reset := 0, mask := 0xFFFFFFFC }
  | 0x08 => r.word (at_ + o) { reset := 0, mask := 0xFFFFFFFF }
  | 0x0C => r.word (at_ + o) { reset := 0, mask := 0xFFFF }
  | _ => 0
/-- Advanced Error Reporting: its masks and severity; no error is recorded, since the model's links carry none. -/
def cfgAer (r : RootPort) (at_ o : Nat) : Nat :=
  match o with
  | 0x00 => 0x00020001
  | 0x08 => r.word (at_ + o) { reset := 0, mask := 0x07FFF030 }
  | 0x0C => r.word (at_ + o) { reset := 0x00462030, mask := 0x07FFF030 }
  | 0x14 => r.word (at_ + o) { reset := 0x2000, mask := 0xF1C1 }
  | 0x18 => r.word (at_ + o) { reset := 0, mask := 0x140 }
  | 0x2C => r.word (at_ + o) { reset := 0, mask := 0x7 }
  | _ => 0
/-- A word of root port q's configuration space; outside the structures above, what the part has there is open. -/
def cfgWord (q : Fin 8) (r : RootPort) (off : Nat) : Nat :=
  let inCap := fun i n => decide (capAt i ≤ off) && decide (off < capAt i + n)
  if off < 0x40 then r.word off (cfgHeader q off)
  else if inCap 0 0x3C then cfgExpress q r (capAt 0) (off - capAt 0)
  else if inCap 1 8 then cfgPower r (capAt 1) (off - capAt 1)
  else if inCap 2 0x10 then cfgMsi r (capAt 2) (off - capAt 2)
  else if inCap 3 0x38 then cfgAer r (capAt 3) (off - capAt 3)
  else (Config.rpConfig q (BitVec.ofNat 12 off) r.cfg (r.width, r.rate)).toNat

end Sys2Proof.Machine
end

