-- ==== Sys2Proof/Machine/Flags.lean ====
section
/-! DEFINITION. The flags of a Treadle bank (Table 12.2) and the arithmetic that sets them (R289). -/
namespace Sys2Proof.Machine

/-- N and Z from a result; V is whether it wrapped (Table 12.2; log 31). -/
def Bank.flags (b : Bank) (neg zero wrapped : Bool) : Bank := { b with n := neg, z := zero, v := wrapped }
def Bank.flags32 (b : Bank) (r : BitVec 32) (wrapped : Bool) : Bank := b.flags r.msb (r = 0) wrapped
def Bank.flags72 (b : Bank) (r : BitVec 72) (wrapped : Bool) : Bank := b.flags r.msb (r = 0) wrapped
/-- SAT is sticky: set by a result that was saturated (R289). -/
def Bank.satIf (b : Bank) (c : Bool) : Bank := { b with sat := b.sat || c }
/-- The image of SR. -/
def Bank.sr (b : Bank) : BitVec 16 :=
  BitVec.ofNat 16 (b2n b.n + 2 * b2n b.z + 4 * b2n b.v + 8 * b2n b.sat + 16 * b2n b.int + 32 * b2n b.dm + 64 * b2n b.lip)
/-- A write of SR: LIP is read-only, reserved bits stay 0. -/
def Bank.srWrite (b : Bank) (v : BitVec 16) : Bank :=
  { b with n := v.getLsbD 0, z := v.getLsbD 1, v := v.getLsbD 2, sat := v.getLsbD 3, int := v.getLsbD 4, dm := v.getLsbD 5 }

/-- An exact sum narrowed to 32 bits with wrap, and whether it wrapped. -/
def wrap32 (x : Int) : BitVec 32 × Bool := (BitVec.ofInt 32 x, decide ((BitVec.ofInt 32 x).toInt ≠ x))
def wrap72 (x : Int) : BitVec 72 × Bool := (BitVec.ofInt 72 x, decide ((BitVec.ofInt 72 x).toInt ≠ x))
/-- An exact result saturated to 32 bits, and whether it saturated. -/
def sat32f (x : Int) : BitVec 32 × Bool := (satInt 32 x, decide ((satInt 32 x).toInt ≠ x))
/-- The product of R289: exact, doubled where INT is 0. -/
def Bank.product (b : Bank) (x y : BitVec 32) : Int := if b.int then x.toInt * y.toInt else 2 * (x.toInt * y.toInt)
/-- The rounded accumulator of RND, and whether it was saturated (R289). -/
def Bank.rounded (b : Bank) (a : BitVec 72) : BitVec 32 × Bool :=
  if b.int then sat32f a.toInt
  else
    let x := a.toInt + 2 ^ 31
    if -(2 ^ 63) ≤ x ∧ x ≤ 2 ^ 63 - 1 then (BitVec.ofInt 32 (x / 2 ^ 32), false)
    else (if 0 ≤ x then 0x7FFFFFFF#32 else 0x80000000#32, true)
/-- The arithmetic shift of ASH, and whether it saturated (R289). -/
def ashOf (x amt : BitVec 32) : BitVec 32 × Bool :=
  let k := max (-32) (min 31 amt.toInt)
  if 0 ≤ k then sat32f (x.toInt * 2 ^ k.toNat) else (BitVec.ofInt 32 (x.toInt / 2 ^ (-k).toNat), false)
/-- The logical shift of LSH: left for a positive amount, 0 outside −31 to 31 (Table 12.5). -/
def lshOf (x amt : BitVec 32) : BitVec 32 :=
  let k := amt.toInt
  if 31 < k ∨ k < -31 then 0 else if 0 ≤ k then x <<< k.toNat else x >>> (-k).toNat
/-- Conditions of Bcc (Table 12.6). -/
def Bank.cond (b : Bank) : Nat → Option Bool
  | 0 => some true | 1 => some b.z | 2 => some !b.z | 3 => some b.n | 4 => some !b.n
  | 5 => some (!b.z && !b.n) | 6 => some (b.z || b.n) | 7 => some b.v | 8 => some !b.v | _ => none

end Sys2Proof.Machine
end

