-- ==== Sys2Proof/Machine/Operands.lean ====
section
/-! DEFINITION. Operand forms of the Treadle engine: register codes (Table 12.1), data addresses and post-modify (R281,
R282), the moves of format A (R286, R288), fields of the formats (Tables 12.4 and 12.6). -/
namespace Sys2Proof.Machine

/-! ### Registers by code (Table 12.1) -/

def Bank.acc (b : Bank) (k : Nat) : BitVec 72 := if k % 2 = 0 then b.a0 else b.a1
def Bank.setAcc (b : Bank) (k : Nat) (v : BitVec 72) : Bank := if k % 2 = 0 then { b with a0 := v } else { b with a1 := v }
def reg8 (k : Nat) : Fin 8 := ⟨k % 8, by omega⟩
def Bank.dReg (b : Bank) (k : Nat) : BitVec 32 := vget b.d (reg8 k)
def Bank.setD (b : Bank) (k : Nat) (v : BitVec 32) : Bank := { b with d := vset b.d (reg8 k) v }
/-- A register by its code, zero-extended; none for a code the table does not list. -/
def Bank.get (b : Bank) (code : Nat) : Option (BitVec 32) :=
  if code < 0x08 then some (b.dReg code)
  else if code < 0x10 then some ((vget b.i (reg8 code)).setWidth 32)
  else if code < 0x18 then some ((vget b.m (reg8 code)).setWidth 32)
  else if code < 0x20 then some ((vget b.b (reg8 code)).setWidth 32)
  else if code < 0x28 then some ((vget b.l (reg8 code)).setWidth 32)
  else match code with
    | 0x28 => some (b.c.setWidth 32) | 0x29 => some (b.cb.setWidth 32) | 0x2A => some (b.cl.setWidth 32)
    | 0x2B => some (b.lc.setWidth 32) | 0x2C => some (b.sr.setWidth 32) | 0x2D => some (b.scnt.setWidth 32)
    | 0x2E => some (b.spos.setWidth 32)
    | 0x30 => some (b.a0.setWidth 32) | 0x31 => some ((b.a0 >>> 32).setWidth 32) | 0x32 => some ((b.a0 >>> 64).setWidth 32)
    | 0x33 => some (b.a1.setWidth 32) | 0x34 => some ((b.a1 >>> 32).setWidth 32) | 0x35 => some ((b.a1 >>> 64).setWidth 32)
    | _ => none
/-- Bits of an accumulator replaced. -/
def accPut (a : BitVec 72) (lo len : Nat) (v : BitVec 32) : BitVec 72 :=
  BitVec.ofNat 72 (a.toNat - fld a.toNat lo len * 2 ^ lo + v.toNat % 2 ^ len * 2 ^ lo)
/-- A register by its code takes the low bits of a value; none for an unlisted code. -/
def Bank.put (b : Bank) (code : Nat) (v : BitVec 32) : Option Bank :=
  if code < 0x08 then some (b.setD code v)
  else if code < 0x10 then some { b with i := vset b.i (reg8 code) (v.setWidth 13) }
  else if code < 0x18 then some { b with m := vset b.m (reg8 code) (v.setWidth 16) }
  else if code < 0x20 then some { b with b := vset b.b (reg8 code) (v.setWidth 13) }
  else if code < 0x28 then some { b with l := vset b.l (reg8 code) (v.setWidth 13) }
  else match code with
    | 0x28 => some { b with c := v.setWidth 10 } | 0x29 => some { b with cb := v.setWidth 10 }
    | 0x2A => some { b with cl := v.setWidth 10 } | 0x2B => some { b with lc := v.setWidth 12 }
    | 0x2C => some (b.srWrite (v.setWidth 16)) | 0x2D => some { b with scnt := v.setWidth 16 }
    | 0x2E => some { b with spos := v.setWidth 16 }
    | 0x30 => some { b with a0 := accPut b.a0 0 32 v } | 0x31 => some { b with a0 := accPut b.a0 32 32 v }
    | 0x32 => some { b with a0 := accPut b.a0 64 8 v } | 0x33 => some { b with a1 := accPut b.a1 0 32 v }
    | 0x34 => some { b with a1 := accPut b.a1 32 32 v } | 0x35 => some { b with a1 := accPut b.a1 64 8 v }
    | _ => none

/-! ### Data memory (R281, R282) -/

def Engine.bank (t : Engine) (hook : Bool) : Bank := if hook then t.bank1 else t.bank0
def Engine.setBank (t : Engine) (hook : Bool) (b : Bank) : Engine :=
  if hook then { t with bank1 := b } else { t with bank0 := b }
/-- Word at a 13-bit data address: XM below 0x1000, YM from there on. -/
def Engine.data (t : Engine) (a : BitVec 13) : BitVec 32 :=
  spGet 0 (if a.getLsbD 12 then t.ym else t.xm) (a.toNat % 4096)
def Engine.setData (t : Engine) (a : BitVec 13) (v : BitVec 32) : Engine :=
  if a.getLsbD 12 then { t with ym := spPut 0 t.ym (a.toNat % 4096) v } else { t with xm := spPut 0 t.xm (a.toNat % 4096) v }
/-- The address that Ik gives: in dual-memory mode bit 12 is 0 for I0–I3 and 1 for I4–I7 (R281). -/
def Bank.addr (b : Bank) (k : Nat) : BitVec 13 :=
  let i := vget b.i (reg8 k)
  if b.dm then BitVec.ofNat 13 (i.toNat % 4096 + if 4 ≤ k % 8 then 4096 else 0) else i
/-- An index i stepped by m under base and length, modulo 2^w (R282). -/
def stepIndex (w : Nat) (i base len : Nat) (m : Int) : BitVec w :=
  if len = 0 then BitVec.ofInt w (i + m) else BitVec.ofInt w (base + ((i : Int) + m - base) % len)
def Bank.step (b : Bank) (k : Nat) (m : Int) : Bank :=
  let i := stepIndex 13 (vget b.i (reg8 k)).toNat (vget b.b (reg8 k)).toNat (vget b.l (reg8 k)).toNat m
  { b with i := vset b.i (reg8 k) i }
/-- Ik stepped by Mk. -/
def Bank.stepM (b : Bank) (k : Nat) : Bank := b.step k (vget b.m (reg8 k)).toInt

/-! ### Instruction words (Table 12.4) -/

def opc (w : BitVec 32) : Nat := fld w.toNat 26 6
/-- Opcodes of Tables 12.5 and 12.6. -/
def opcDefined (n : Nat) : Bool :=
  decide (n ≤ 0x16) || (decide (0x20 ≤ n) && decide (n ≤ 0x25)) || (decide (0x28 ≤ n) && decide (n ≤ 0x32)) ||
  (decide (0x38 ≤ n) && decide (n ≤ 0x3A))
/-- Format A's fields. -/
structure FmtA where
  d : Nat
  s1 : Nat
  s2 : Nat
  cf : Bool
  xop : Nat
  xi : Nat
  xu : Bool
  xd : Nat
  yop : Nat
  yi : Nat
  yu : Bool
  yd : Nat
def fmtA (w : BitVec 32) : FmtA :=
  let f := fun lo n => fld w.toNat lo n
  { d := f 23 3, s1 := f 20 3, s2 := f 17 3, cf := bitOf w.toNat 16, xop := f 14 2, xi := f 12 2, xu := bitOf w.toNat 11,
    xd := f 8 3, yop := f 6 2, yi := 4 + f 4 2, yu := bitOf w.toNat 3, yd := f 0 3 }
/-- A move's memory side: a load's value, or the stored word. -/
def moveMem (t : Engine) (b0 : Bank) (op i d : Nat) : Engine × Option (BitVec 32) :=
  match op with
  | 1 => (t, some (t.data (b0.addr i)))
  | 2 => (t.setData (b0.addr i) (b0.dReg d), none)
  | _ => (t, none)
/-- The moves of a format A instruction: X, then Y, then the C bus's load of D7. `b0` is the bank before the
instruction, `b` the bank with the operation's result; loads override it, and Y's load overrides X's (R286, R288). A C
bus load and a move's load of D7 in one instruction leave D7 open (log 32). -/
def moves (f : FmtA) (b0 b : Bank) (open_ : BitVec 32) (t : Engine) : Engine × Bank :=
  let x := moveMem t b0 f.xop f.xi f.xd
  let y := moveMem x.1 b0 f.yop f.yi f.yd
  let b := match x.2 with | some v => b.setD f.xd v | none => b
  let b := match y.2 with | some v => b.setD f.yd v | none => b
  let b := if (f.xop = 1 ∨ f.xop = 2) ∧ f.xu then b.stepM f.xi else b
  let b := if (f.yop = 1 ∨ f.yop = 2) ∧ f.yu then b.stepM f.yi else b
  if f.cf then
    let clash := (f.xop = 1 && f.xd = 7) || (f.yop = 1 && f.yd = 7)
    let b := b.setD 7 (if clash then open_ else spGet 0 t.cm b0.c.toNat)
    (y.1, { b with c := stepIndex 10 b.c.toNat b.cb.toNat b.cl.toNat 1 })
  else (y.1, b)

end Sys2Proof.Machine
end

