-- ==== Sys2Proof/Machine/Treadle.lean ====
section
/-! DEFINITION. The Treadle engine's programs (spec/12): who runs, program faults, sequencing, the instructions of Tables
12.5 and 12.6, ports and axis orders, and the host's commands. -/
namespace Sys2Proof.Machine

/-! ### Faults and sequencing (R274, R285, R287, R294) -/

def Engine.invalidate (t : Engine) : Engine := { t with cache := [], filling := false }
/-- A program fault: the background program halts at the instruction, or the hook is abandoned (R294). -/
def progFault (e : Fin 8) (hook : Bool) (code : BitVec 8) (s : State) : State :=
  let s := s.modTrd e fun t =>
    let b := t.bank hook
    let t := { t with
      errCode := code, errPc := b.pc, errBank := hook, errTag := t.errTag.bump, pfault := satInc t.pfault }
    if hook then t else { t with bg := .halted, bank0 := { t.bank0 with lip := false } }
  match (vget s.trd e).hook with
  | some i => if hook then hookAbandon e i s else s
  | none => s
/-- A host access code into TRD_ERR (R280, R284, R295). -/
def hostErr (code : BitVec 8) (t : Engine) : Engine :=
  { t with errCode := code, errPc := 0, errBank := false, errTag := t.errTag.bump }
/-- Loop levels after the instruction at pc has completed: where the next pass begins, or the levels that remain. -/
def loopsAfter (pc : BitVec 12) (depth : Nat) :
    List (BitVec 12 × BitVec 12 × BitVec 12 × Nat) → Option (BitVec 12) × List (BitVec 12 × BitVec 12 × BitVec 12 × Nat)
  | [] => (none, [])
  | (st, en, left, d) :: rest =>
    if en = pc ∧ d = depth then
      (if 1 < left then (some st, (st, en, left - 1, d) :: rest) else loopsAfter pc depth rest)
    else (none, (st, en, left, d) :: rest)
/-- The instruction at PC has completed: it repeats under REP, or PC moves on, through the ends of loops. -/
def Bank.next (b : Bank) : Bank :=
  if b.inRep ∧ 1 < b.repeat_ then { b with repeat_ := b.repeat_ - 1 }
  else
    let r := loopsAfter b.pc b.calls.length b.loops
    match r.1 with
    | some st => { b with inRep := false, repeat_ := 0, pc := st, loops := r.2 }
    | none => { b with inRep := false, repeat_ := 0, pc := b.pc + 1, past := decide (b.pc = 4095), loops := r.2 }
/-- A bank replaced; the cache follows its loops: a level opened or left empties it, and a new pass of a body of at most
64 instructions fills it where it is empty (R285, R287). -/
def Engine.into (t : Engine) (hook : Bool) (b : Bank) : Engine :=
  let old := t.bank hook
  let t := t.setBank hook b
  if b.loops.length ≠ old.loops.length then { t with cache := [], filling := decide (old.loops.length < b.loops.length) }
  else if b.loops ≠ old.loops then { t with filling := decide (t.cache = []) }
  else t
/-- The instruction at PC enters the cache during a filling pass of the innermost loop. -/
def Engine.fill (t : Engine) (hook : Bool) : Engine :=
  let b := t.bank hook
  match b.loops with
  | (st, en, _, d) :: _ =>
    if t.filling && decide (st ≤ b.pc) && decide (b.pc ≤ en) && d = b.calls.length && decide (en.toNat - st.toNat < 64)
        && !(t.cache.contains b.pc) then { t with cache := t.cache ++ [b.pc] } else t
  | [] => t
/-- No hook runs or is pending: the engine is free for the background program (R276, R280). -/
def Engine.free (t : Engine) : Bool := t.hook.isNone && t.pendHooks = []
/-- The program that runs now: a hook before the background program (R276). -/
def trdActive (s : State) (e : Fin 8) : Option Bool :=
  let t := vget s.trd e
  if !(vsvoGood s && engineWorks s e) then none
  else if t.hook.isSome then some true
  else if t.free && t.bg = .running then some false else none
/-- The word at a bank's PC. -/
def Engine.word (t : Engine) (b : Bank) : BitVec 32 := spGet 0 t.pm b.pc.toNat
/-- One instruction of an opcode: PC past 4,095 and an undefined opcode are faults; another opcode is another row's. -/
def trdRow (e : Fin 8) (op : Nat) (body : Bool → BitVec 32 → State → State) (s : State) :
    Host.Outcome State Fault Refusal :=
  match trdActive s e with
  | none => .next s
  | some h =>
    let t := vget s.trd e
    let b := t.bank h
    let w := t.word b
    if b.past then done (progFault e h 4 s)
    else if !opcDefined (opc w) then done (progFault e h 1 s)
    else if opc w ≠ op then .next s
    else done (body h w (s.modTrd e fun t => t.fill h))
/-- The bank of an engine replaced by its successor after an instruction. -/
def commit (e : Fin 8) (h : Bool) (b : Bank) (s : State) : State := s.modTrd e fun t => t.into h b

/-! ### Format A (Table 12.5) -/

/-- A format A instruction: its operation on the bank, then its moves (R288). -/
def rowA (e : Fin 8) (op : Nat) (f : FmtA → Bank → Bank) (s : State) : Host.Outcome State Fault Refusal :=
  trdRow e op (fun h w s =>
    let a := fmtA w
    if a.xop = 3 ∨ a.yop = 3 then progFault e h 1 s else
    let fr := freshFree s
    let t := vget fr.2.trd e
    let b := t.bank h
    let r := moves a b (f a b) (fr.1.setWidth 32) t
    { fr.2 with trd := vset fr.2.trd e (r.1.into h r.2.next) }) s
def Bank.add72 (b : Bank) (d : Nat) (x : Int) : Bank :=
  let r := wrap72 ((b.acc d).toInt + x)
  (b.setAcc d r.1).flags72 r.1 r.2
def Bank.result (b : Bank) (d : Nat) (r : BitVec 32) (wrapped sat : Bool) : Bank :=
  ((b.setD d r).flags32 r wrapped).satIf sat
def FmtA.x (a : FmtA) (b : Bank) : BitVec 32 := b.dReg a.s1
def FmtA.y (a : FmtA) (b : Bank) : BitVec 32 := b.dReg a.s2

def execTrdNop (e : Fin 8) (s : State) : Host.Outcome State Fault Refusal := rowA e 0x00 (fun _ b => b) s
def execMpy (e : Fin 8) (s : State) : Host.Outcome State Fault Refusal :=
  rowA e 0x01 (fun a b =>
    let r := wrap72 (b.product (a.x b) (a.y b))
    (b.setAcc a.d r.1).flags72 r.1 r.2) s
def execMac (e : Fin 8) (s : State) : Host.Outcome State Fault Refusal :=
  rowA e 0x02 (fun a b => b.add72 a.d (b.product (a.x b) (a.y b))) s
def execMsu (e : Fin 8) (s : State) : Host.Outcome State Fault Refusal :=
  rowA e 0x03 (fun a b => b.add72 a.d (-(b.product (a.x b) (a.y b)))) s
def execAdd (e : Fin 8) (s : State) : Host.Outcome State Fault Refusal :=
  rowA e 0x04 (fun a b => let r := wrap32 ((a.x b).toInt + (a.y b).toInt); b.result a.d r.1 r.2 false) s
def execSub (e : Fin 8) (s : State) : Host.Outcome State Fault Refusal :=
  rowA e 0x05 (fun a b => let r := wrap32 ((a.x b).toInt - (a.y b).toInt); b.result a.d r.1 r.2 false) s
def execAdds (e : Fin 8) (s : State) : Host.Outcome State Fault Refusal :=
  rowA e 0x06 (fun a b => let r := sat32f ((a.x b).toInt + (a.y b).toInt); b.result a.d r.1 false r.2) s
def execSubs (e : Fin 8) (s : State) : Host.Outcome State Fault Refusal :=
  rowA e 0x07 (fun a b => let r := sat32f ((a.x b).toInt - (a.y b).toInt); b.result a.d r.1 false r.2) s
def execAnd (e : Fin 8) (s : State) : Host.Outcome State Fault Refusal :=
  rowA e 0x08 (fun a b => b.result a.d (a.x b &&& a.y b) false false) s
def execOr (e : Fin 8) (s : State) : Host.Outcome State Fault Refusal :=
  rowA e 0x09 (fun a b => b.result a.d (a.x b ||| a.y b) false false) s
def execXor (e : Fin 8) (s : State) : Host.Outcome State Fault Refusal :=
  rowA e 0x0A (fun a b => b.result a.d (a.x b ^^^ a.y b) false false) s
def execMov (e : Fin 8) (s : State) : Host.Outcome State Fault Refusal :=
  rowA e 0x0B (fun a b => b.result a.d (a.x b) false false) s
def execNeg (e : Fin 8) (s : State) : Host.Outcome State Fault Refusal :=
  rowA e 0x0C (fun a b => let r := sat32f (-(a.x b).toInt); b.result a.d r.1 false r.2) s
def execAbs (e : Fin 8) (s : State) : Host.Outcome State Fault Refusal :=
  rowA e 0x0D (fun a b => let r := sat32f ((a.x b).toInt.natAbs : Int); b.result a.d r.1 false r.2) s
def execMax2 (e : Fin 8) (s : State) : Host.Outcome State Fault Refusal :=
  rowA e 0x0E (fun a b => b.result a.d (if (a.x b).slt (a.y b) then a.y b else a.x b) false false) s
def execMin2 (e : Fin 8) (s : State) : Host.Outcome State Fault Refusal :=
  rowA e 0x0F (fun a b => b.result a.d (if (a.y b).slt (a.x b) then a.y b else a.x b) false false) s
def execAsh (e : Fin 8) (s : State) : Host.Outcome State Fault Refusal :=
  rowA e 0x10 (fun a b => let r := ashOf (a.x b) (a.y b); b.result a.d r.1 false r.2) s
def execLsh (e : Fin 8) (s : State) : Host.Outcome State Fault Refusal :=
  rowA e 0x11 (fun a b => b.result a.d (lshOf (a.x b) (a.y b)) false false) s
def execRnd (e : Fin 8) (s : State) : Host.Outcome State Fault Refusal :=
  rowA e 0x12 (fun a b => let r := b.rounded (b.acc a.s1); b.result a.d r.1 false r.2) s
def execAcc (e : Fin 8) (s : State) : Host.Outcome State Fault Refusal :=
  rowA e 0x13 (fun a b => b.add72 a.d ((a.x b).toInt * 2 ^ 32)) s
def execClr (e : Fin 8) (s : State) : Host.Outcome State Fault Refusal :=
  rowA e 0x14 (fun a b => b.setAcc a.d 0) s
def execCmp (e : Fin 8) (s : State) : Host.Outcome State Fault Refusal :=
  rowA e 0x15 (fun a b => let r := wrap32 ((a.x b).toInt - (a.y b).toInt); b.flags32 r.1 r.2) s
def execMva (e : Fin 8) (s : State) : Host.Outcome State Fault Refusal :=
  rowA e 0x16 (fun a b => (b.setAcc a.d (b.acc a.s1)).flags72 (b.acc a.s1) false) s

/-! ### Formats B and C (Table 12.6) -/

/-- Outcome of a format B instruction on its bank: the successor bank, or a fault code. -/
abbrev BOut := Except (BitVec 8) Bank
/-- A format B instruction: set reserved bits are ILLEGAL; `res` masks them. -/
def rowB (e : Fin 8) (op : Nat) (res : Nat) (f : State → Bool → BitVec 32 → Bank → BOut) (s : State) :
    Host.Outcome State Fault Refusal :=
  trdRow e op (fun h w s =>
    if w.toNat &&& res ≠ 0 then progFault e h 1 s else
    match f s h w ((vget s.trd e).bank h) with
    | .ok b => commit e h b s
    | .error c => progFault e h c s) s
def ofGet (o : Option Bank) : BOut := match o with | some b => .ok b.next | none => .error 1

def execLdi (e : Fin 8) (s : State) : Host.Outcome State Fault Refusal :=
  rowB e 0x20 0x000F0000 (fun _ _ w b =>
    let c := fld w.toNat 20 6
    let v : BitVec 32 := if c < 8 then (w.setWidth 16).signExtend 32 else (w.setWidth 16).setWidth 32
    ofGet (b.put c v)) s
def execLdih (e : Fin 8) (s : State) : Host.Outcome State Fault Refusal :=
  rowB e 0x21 0x007F0000 (fun _ _ w b =>
    let d := fld w.toNat 23 3
    .ok (b.setD d (((w.setWidth 16).setWidth 32 <<< 16) ||| (b.dReg d &&& 0xFFFF#32))).next) s
def execMvr (e : Fin 8) (s : State) : Host.Outcome State Fault Refusal :=
  rowB e 0x22 0x00003FFF (fun _ _ w b =>
    match b.get (fld w.toNat 14 6) with
    | some v => ofGet (b.put (fld w.toNat 20 6) v)
    | none => .error 1) s
def execModi (e : Fin 8) (s : State) : Host.Outcome State Fault Refusal :=
  rowB e 0x23 0x007F0000 (fun _ _ w b => .ok (b.step (fld w.toNat 23 3) (w.setWidth 16).toInt).next) s
def execLdm (e : Fin 8) (s : State) : Host.Outcome State Fault Refusal :=
  rowB e 0x24 0x007FE000 (fun s _ w b => .ok (b.setD (fld w.toNat 23 3) ((vget s.trd e).data (w.setWidth 13))).next) s
def execStm (e : Fin 8) (s : State) : Host.Outcome State Fault Refusal :=
  trdRow e 0x25 (fun h w s =>
    if w.toNat &&& 0x007FE000 ≠ 0 then progFault e h 1 s else
    s.modTrd e fun t =>
      let b := t.bank h
      (t.setData (w.setWidth 13) (b.dReg (fld w.toNat 23 3))).into h b.next) s
/-- A taken jump: out of the innermost loop's body it ends that loop (12.5). -/
def Bank.jump (b : Bank) (target : BitVec 12) : Bank :=
  match b.loops with
  | (st, en, _, d) :: rest =>
    if d = b.calls.length ∧ (target < st ∨ en < target) then { b with pc := target, loops := rest } else { b with pc := target }
  | [] => { b with pc := target }
def execJmp (e : Fin 8) (s : State) : Host.Outcome State Fault Refusal :=
  rowB e 0x28 0x03FFF000 (fun _ _ w b => .ok (b.jump (w.setWidth 12))) s
def execBcc (e : Fin 8) (s : State) : Host.Outcome State Fault Refusal :=
  rowB e 0x29 0x003FF000 (fun _ _ w b =>
    match b.cond (fld w.toNat 22 4) with
    | none => .error 1
    | some true => .ok (b.jump (w.setWidth 12))
    | some false => .ok b.next) s
def execCall (e : Fin 8) (s : State) : Host.Outcome State Fault Refusal :=
  rowB e 0x2A 0x03FFF000 (fun _ _ w b =>
    if b.calls.length < 8 then .ok { b with pc := w.setWidth 12, calls := (b.pc + 1) :: b.calls } else .error 3) s
def execRet (e : Fin 8) (s : State) : Host.Outcome State Fault Refusal :=
  rowB e 0x2B 0x03FFF000 (fun _ _ _ b =>
    match b.calls with
    | r :: rest => .ok ({ b with pc := r - 1, calls := rest }).next
    | [] => .error 3) s
/-- A count of 0 takes LC. -/
def Bank.count (b : Bank) (n : Nat) : BitVec 12 := if n = 0 then b.lc else BitVec.ofNat 12 n
def execRep (e : Fin 8) (s : State) : Host.Outcome State Fault Refusal :=
  rowB e 0x2C 0x03FFF000 (fun s _ w b =>
    let n := b.count (fld w.toNat 0 12)
    let b1 := b.next
    if !b1.past ∧ 0x16 < opc ((vget s.trd e).word b1) then .error 5
    else if n = 0 then .ok (if b1.past then b1 else b1.next)
    else .ok { b1 with inRep := true, repeat_ := n }) s
def execLoop (e : Fin 8) (s : State) : Host.Outcome State Fault Refusal :=
  rowB e 0x2D 0x03000000 (fun _ _ w b =>
    let en := BitVec.ofNat 12 (fld w.toNat 12 12)
    let n := b.count (fld w.toNat 0 12)
    if en ≤ b.pc then .error 5
    else if n = 0 then .ok ({ b with pc := en }).next
    else if 4 ≤ b.loops.length then .error 3
    else .ok { b with pc := b.pc + 1, loops := (b.pc + 1, en, n, b.calls.length) :: b.loops }) s

/-! ### Ports (Table 12.7, R293) -/

/-- Value of an IN port, a pair's two words as one; none for a port that is not an IN port. -/
def portIn (s : State) (e : Fin 8) (port : Nat) : Option (BitVec 64) :=
  if port < 0x40 then
    let m := (vget s.axes (engineAxis e ⟨port / 16 % 4, by omega⟩)).image
    match port % 16 with
    | 0 => some (m.state.setWidth 64) | 1 => some m.posfb | 2 => some (m.posfb >>> 32) | 3 => some (m.velfb.setWidth 64)
    | 4 => some (m.iq.setWidth 64) | 5 => some m.spp | 6 => some (m.spp >>> 32) | 7 => some (m.spv.setWidth 64)
    | 8 => some (m.spc.setWidth 64) | 9 => some (m.laneff.setWidth 64) | _ => none
  else if port = 0x40 then some s.time.it
  else if port = 0x41 then some (s.time.it >>> 32)
  else if port = 0x42 then some (match (vget s.trd e).hook with | some i => BitVec.ofNat 64 i | none => 0xFFFFFFFF)
  else if port = 0x43 then some (BitVec.ofNat 64 e)
  else none
def pairIn (port : Nat) : Bool := port = 0x40 || (decide (port < 0x40) && (port % 16 = 1 || port % 16 = 5))
def execIn (e : Fin 8) (s : State) : Host.Outcome State Fault Refusal :=
  rowB e 0x2E 0x003FFF00 (fun s _ w b =>
    let d := fld w.toNat 23 3
    let pair := bitOf w.toNat 22
    let port := fld w.toNat 0 8
    if pair ∧ d % 2 = 1 then .error 1
    else match portIn s e port with
      | none => .error 6
      | some v =>
        if pair then (if pairIn port then .ok ((b.setD d (v.setWidth 32)).setD (d + 1) ((v >>> 32).setWidth 32)).next else .error 6)
        else .ok (b.setD d (v.setWidth 32)).next) s
/-- The order that a port write gives: 0 SP, 1 SPD, 2 ORDER (an AXS_CMD image). -/
def portOrder (e : Fin 8) (i : Fin 4) (k : Fin 3) (v : BitVec 64) : Option Rival :=
  let o : Rival := { axis := engineAxis e i, rank := 3, port := BitVec.ofNat 8 e, op := 5, src := 0, value := v, spd := false }
  if k = 0 then some o
  else if k = 1 then some { o with spd := true }
  else
    let op := fld v.toNat 0 3
    if 1 ≤ op ∧ op ≤ 4 then some { o with op := BitVec.ofNat 3 op, src := BitVec.ofNat 2 (fld v.toNat 3 2) } else none
/-- An OUT port, its kind and slot. -/
def portOut (port : Nat) : Option (Fin 4 × Fin 3) :=
  if port < 0x40 then
    let i : Fin 4 := ⟨port / 16 % 4, by omega⟩
    match port % 16 with | 0xA => some (i, 0) | 0xB => some (i, 0) | 0xC => some (i, 1) | 0xD => some (i, 2) | _ => none
  else none
/-- A port write: an order at once from the background program, buffered from a hook (R293). -/
def outPort (e : Fin 8) (h : Bool) (i : Fin 4) (k : Fin 3) (v : BitVec 64) (rivals : List Rival) (s : State) : State :=
  if h then s.modTrd e fun t => { t with out := t.out.filter (fun o => !(o.1 = i && o.2.1 = k)) ++ [(i, k, v)] }
  else orders ((portOrder e i k v).toList ++ rivals) s
def execOut (e : Fin 8) (rivals : List Rival) (s : State) : Host.Outcome State Fault Refusal :=
  trdRow e 0x2F (fun h w s =>
    let d := fld w.toNat 23 3
    let pair := bitOf w.toNat 22
    let port := fld w.toNat 0 8
    let b := (vget s.trd e).bank h
    if w.toNat &&& 0x003FFF00 ≠ 0 ∨ (pair ∧ d % 2 = 1) then progFault e h 1 s
    else match portOut port with
      | none => progFault e h 6 s
      | some (i, k) =>
        if pair ∧ port % 16 ≠ 0xA then progFault e h 6 s
        else
          let v : BitVec 64 := if pair then (b.dReg (d + 1)).setWidth 64 <<< 32 ||| (b.dReg d).setWidth 64
            else if k = 0 then (b.dReg d).signExtend 64 else (b.dReg d).setWidth 64
          outPort e h i k v rivals (commit e h b.next s)) s
/-- The buffered orders of a hook in slot order, and within a slot SP, SPD, ORDER. -/
def hookOrders (e : Fin 8) (out : List (Fin 4 × Fin 3 × BitVec 64)) : List Rival :=
  (List.finRange 4).flatMap fun i => (List.finRange 3).flatMap fun k =>
    (out.filter fun o => o.1 = i && o.2.1 = k).filterMap fun o => portOrder e i k o.2.2
/-- A hook ends: its orders are delivered, the cache is invalidated (R278, R287, R293). -/
def hookEnd (e : Fin 8) (i : Fin 4) (rivals : List Rival) (s : State) : State :=
  let out := (vget s.trd e).out
  let s := s.modTrd e fun t => { t.invalidate with hook := none, out := [] }
  let s := s.modAxis (engineAxis e i) fun x => { x with hookPend := false }
  orders (hookOrders e out ++ rivals) s
def execReth (e : Fin 8) (rivals : List Rival) (s : State) : Host.Outcome State Fault Refusal :=
  trdRow e 0x30 (fun h w s =>
    if w.toNat &&& 0x03FFFFFF ≠ 0 then progFault e h 1 s
    else match (vget s.trd e).hook with
      | some i => hookEnd e i rivals (s.modTrd e fun t => { t with bank1 := t.bank1.next })
      | none => progFault e h 5 s) s
def execHalt (e : Fin 8) (s : State) : Host.Outcome State Fault Refusal :=
  trdRow e 0x31 (fun h w s =>
    if w.toNat &&& 0x03FFFFFF ≠ 0 then progFault e h 1 s
    else if h then progFault e h 5 s
    else (commit e h (vget s.trd e).bank0.next s).modTrd e fun t => { t with bg := .halted }) s
/-- The time that WAITIT waits for. -/
def waitTime (b : Bank) (d : Nat) : Time := (b.dReg (d + 1)).setWidth 64 <<< 32 ||| (b.dReg d).setWidth 64
def execWaitit (e : Fin 8) (s : State) : Host.Outcome State Fault Refusal :=
  trdRow e 0x32 (fun h w s =>
    let d := fld w.toNat 23 3
    let b := (vget s.trd e).bank0
    if w.toNat &&& 0x007FFFFF ≠ 0 ∨ d % 2 = 1 then progFault e h 1 s
    else if h then progFault e h 5 s
    else if waitTime b d ≤ s.time.it then commit e h b.next s
    else s.modTrd e fun t => { t with bg := .waitit }) s
def execWaititWake (e : Fin 8) (s : State) : Host.Outcome State Fault Refusal :=
  let t := vget s.trd e
  let d := fld (t.word t.bank0).toNat 23 3
  doneIf (vsvoGood s && engineWorks s e && t.free && t.bg = .waitit && decide (waitTime t.bank0 d ≤ s.time.it)) s
    fun s => (commit e false (vget s.trd e).bank0.next s).modTrd e fun t => { t with bg := .running }

/-! ### Long instructions (R290 to R292) -/

/-- The number of elements: N, or LC where N is 0. -/
def longN (b : Bank) (w : BitVec 32) : Nat := (b.count (fld w.toNat 0 12)).toNat
/-- One element of MAXI (max) or MINI. -/
def scanElem (t : Engine) (max : Bool) (w : BitVec 32) (n : Nat) (b : Bank) : Bank :=
  let dv := fld w.toNat 23 3
  let k := fld w.toNat 16 3
  let x := t.data (b.addr k)
  let j := BitVec.ofInt 16 ((n : Int) - b.scnt.toNat)
  let best := b.dReg dv
  let b := if (if max then best.slt x else x.slt best) then { b.setD dv x with spos := j } else b
  { b.stepM k with scnt := b.scnt - 1 }
/-- One element pair of BMAC. -/
def bmacElem (t : Engine) (w : BitVec 32) (n : Nat) (b : Bank) : Bank :=
  let a := fld w.toNat 25 1
  let xi := fld w.toNat 23 2
  let yi := 4 + fld w.toNat 21 2
  let p := b.product (t.data (b.addr xi)) (t.data (b.addr yi))
  let r := wrap72 ((b.acc a).toInt + if bitOf w.toNat 20 then -p else p)
  let b := { b.setAcc a r.1 with v := b.v || r.2 }
  let b := (b.stepM xi).stepM yi
  { b with scnt := b.scnt - 1, spos := BitVec.ofInt 16 ((n : Int) - b.scnt.toNat + 1) }
/-- Up to `k` elements. -/
def elems (f : Bank → Bank) : Nat → Bank → Bank
  | 0, b => b
  | k + 1, b => if b.scnt = 0 then b else elems f k (f b)
/-- A long instruction goes on from its bank's progress for at most `budget` elements: it completes, or stops at an
element boundary with LIP set and PC on it (R291). -/
def longRun (e : Fin 8) (h : Bool) (budget : Option (BitVec 12)) (f : Bank → Bank) (fin_ : Bank → Bank) (b : Bank)
    (s : State) : State :=
  let k := match budget with | some n => n.toNat | none => 65536
  let b := elems f (min k b.scnt.toNat) b
  if b.scnt = 0 then commit e h ({ fin_ b with lip := false }).next s
  else s.modTrd e fun t => t.setBank h { b with lip := true }
def scanReserved (w : BitVec 32) : Bool := w.toNat &&& 0x0008F000 ≠ 0 || fld w.toNat 23 3 = fld w.toNat 20 3
/-- MAXI or MINI from its beginning, or resumed. -/
def scan (e : Fin 8) (max : Bool) (h : Bool) (w : BitVec 32) (resume : Bool) (budget : Option (BitVec 12)) (s : State) :
    State :=
  if scanReserved w then progFault e h 1 s else
  let t := vget s.trd e
  let b := t.bank h
  let n := longN b w
  let dv := fld w.toNat 23 3
  let dx := fld w.toNat 20 3
  let b0 := b.setD dv (if max then 0x80000000#32 else 0x7FFFFFFF#32)
  if resume then longRun e h budget (scanElem t max w n) (fun b => b.setD dx (b.spos.setWidth 32)) b s
  else if n = 0 then commit e h (b0.setD dx 0xFFFFFFFF#32).next s
  else longRun e h budget (scanElem t max w n) (fun b => b.setD dx (b.spos.setWidth 32))
    { b0 with scnt := BitVec.ofNat 16 n, spos := 0 } s
def bmacRun (e : Fin 8) (h : Bool) (w : BitVec 32) (resume : Bool) (budget : Option (BitVec 12)) (s : State) : State :=
  if w.toNat &&& 0x000FF000 ≠ 0 then progFault e h 1 s else
  let t := vget s.trd e
  let b := t.bank h
  let n := longN b w
  if resume then longRun e h budget (bmacElem t w n) id b s
  else longRun e h budget (bmacElem t w n) id { b with scnt := BitVec.ofNat 16 n, spos := 0 } s
/-- A long instruction's first run; a partly done one is resumed by its own row. -/
def longFirst (e : Fin 8) (h : Bool) (f : State → State) (s : State) : State :=
  if ((vget s.trd e).bank h).lip then s else f s
def execMaxi (e : Fin 8) (budget : Option (BitVec 12)) (s : State) : Host.Outcome State Fault Refusal :=
  trdRow e 0x38 (fun h w s => longFirst e h (scan e true h w false budget) s) s
def execMini (e : Fin 8) (budget : Option (BitVec 12)) (s : State) : Host.Outcome State Fault Refusal :=
  trdRow e 0x39 (fun h w s => longFirst e h (scan e false h w false budget) s) s
def execBmac (e : Fin 8) (budget : Option (BitVec 12)) (s : State) : Host.Outcome State Fault Refusal :=
  trdRow e 0x3A (fun h w s => longFirst e h (bmacRun e h w false budget) s) s
/-- Resumption (R291): the fields are read again from PM, progress from SCNT and SPOS. -/
def resumeLong (e : Fin 8) (h : Bool) (w : BitVec 32) (budget : Option (BitVec 12)) (s : State) : State :=
  if opc w = 0x38 then scan e true h w true budget s
  else if opc w = 0x39 then scan e false h w true budget s
  else bmacRun e h w true budget s
def execLongInstructionResume (e : Fin 8) (budget : Option (BitVec 12)) (s : State) : Host.Outcome State Fault Refusal :=
  match trdActive s e with
  | none => .next s
  | some h =>
    let t := vget s.trd e
    let b := t.bank h
    let w := t.word b
    doneIf (b.lip && !b.past && decide (0x38 ≤ opc w) && decide (opc w ≤ 0x3A)) s (resumeLong e h w budget)

/-! ### Hooks start; the host's commands (R278, R280, R284, R295) -/

/-- Stacks, repeat counter and LIP of a bank cleared, and PC set. -/
def Bank.enter (b : Bank) (pc : Nat) : Bank :=
  { b with calls := [], loops := [], repeat_ := 0, inRep := false, lip := false, pc := BitVec.ofNat 12 pc,
           past := decide (4096 ≤ pc) }
def hookStart (e : Fin 8) (i : Fin 4) (rest : List (Fin 4)) (s : State) : State :=
  let pc := (vget s.axes (engineAxis e i)).hook.toNat
  s.modTrd e fun t => { t.invalidate with
    hook := some i, pendHooks := rest, bank1 := t.bank1.enter pc,
    preempt := if t.bg = .halted then t.preempt else satInc t.preempt }
def execHookStart (e : Fin 8) (s : State) : Host.Outcome State Fault Refusal :=
  match (vget s.trd e).pendHooks with
  | [] => .next s
  | i :: rest => doneIf (vsvoGood s && engineWorks s e && (vget s.trd e).hook.isNone) s (hookStart e i rest)
def trdBase (e : Fin 8) : Nat := regBase + 0x6000000 + 0x10000 * e
def trdStart (e : Fin 8) (s : State) : State :=
  s.modTrd e fun t =>
    if t.held then t
    else if t.bg ≠ .halted then hostErr 0x0B t
    else { t.invalidate with bg := .running, bank0 := t.bank0.enter t.entry.toNat }
def trdStop (e : Fin 8) (s : State) : State := s.modTrd e fun t => { t with bg := .halted }
def trdResume (e : Fin 8) (s : State) : State :=
  s.modTrd e fun t => if t.held || t.bg ≠ .halted then t else { t with bg := .running }
def execTrdStart (who : Master) (e : Fin 8) (s : State) : Host.Outcome State Fault Refusal :=
  done (regWriteAt who (trdBase e) (trdStart e) s)
def execTrdStop (who : Master) (e : Fin 8) (s : State) : Host.Outcome State Fault Refusal :=
  done (regWriteAt who (trdBase e) (trdStop e) s)
def execTrdResume (who : Master) (e : Fin 8) (s : State) : Host.Outcome State Fault Refusal :=
  done (regWriteAt who (trdBase e) (trdResume e) s)
/-- A host write of PM or CM (R284, R287). -/
def pmWrite (e : Fin 8) (cm : Bool) (i : Nat) (v : BitVec 32) (s : State) : State :=
  let idle := (vget s.trd e).bg = .halted && (engineAxes e).all fun a => (vget s.axes a).hook = 0
  s.modTrd e fun t =>
    if !idle then hostErr 0x09 t
    else if cm then { t.invalidate with cm := spPut 0 t.cm i v } else { t.invalidate with pm := spPut 0 t.pm i v }
def execPmCmWrite (who : Master) (e : Fin 8) (cm : Bool) (idx : BitVec 12) (value : BitVec 32) (s : State) :
    Host.Outcome State Fault Refusal :=
  doneIf (!cm || decide (idx < 1024)) s
    (regWriteAt who (trdBase e + (if cm then 0x3000 else 0x4000) + 4 * idx.toNat) (pmWrite e cm idx.toNat value))
/-- A host write of a bank register: PC also clears LIP; an unlisted code takes nothing (R291, R295). -/
def bankWrite (e : Fin 8) (hook : Bool) (code : Nat) (v : BitVec 32) (s : State) : State :=
  s.modTrd e fun t =>
    if if hook then t.hook.isSome else t.bg ≠ .halted then hostErr 0x0A t
    else
      let b := t.bank hook
      if code = 0x3F then t.setBank hook { b with pc := v.setWidth 12, past := false, lip := false }
      else match b.put code v with
        | some b => t.setBank hook b
        | none => t
def execBankRegisterWrite (who : Master) (e : Fin 8) (bank : Fin 2) (code : BitVec 6) (value : BitVec 32) (s : State) :
    Host.Outcome State Fault Refusal :=
  done (regWriteAt who (trdBase e + 0x100 + 0x100 * bank + 4 * code.toNat) (bankWrite e (bank = 1) code.toNat value) s)
def dataWrite (e : Fin 8) (ym : Bool) (i : Nat) (v : BitVec 32) (s : State) : State :=
  s.modTrd e fun t => t.setData (BitVec.ofNat 13 (i % 4096 + if ym then 4096 else 0)) v
def execXmYmWrite (who : Master) (e : Fin 8) (ym : Bool) (idx : BitVec 12) (value : BitVec 32) (s : State) :
    Host.Outcome State Fault Refusal :=
  done (regWriteAt who (trdBase e + (if ym then 0xC000 else 0x8000) + 4 * idx.toNat) (dataWrite e ym idx.toNat value) s)

end Sys2Proof.Machine
end

