-- ==== Sys2Proof/Machine/RegMap.lean ====
section
/-! DEFINITION. The register map as reads see it: for each block, the width of the register at an offset and the value
it reads (R7, R8, R75, R76). An offset with no register answers none (R10). -/
namespace Sys2Proof.Machine

/-- A register at an offset: whether it is 64 bits wide, and its value. -/
abbrev RegVal := Option (Bool × Nat)
def r32 (v : Nat) : RegVal := some (false, v % 2 ^ 32)
def r64 (v : Nat) : RegVal := some (true, v % 2 ^ 64)
/-- Sequence and VALID at the top of a 32-bit, of a 64-bit register, and with the sequence at bit 0. -/
def Tag.w32 (t : Tag) : Nat := t.seq.toNat * 2 ^ 24 + b2n t.valid * 2 ^ 31
def Tag.w64 (t : Tag) : Nat := t.seq.toNat * 2 ^ 56 + b2n t.valid * 2 ^ 63
def Tag.low (t : Tag) : Nat := t.seq.toNat + b2n t.valid * 2 ^ 31

/-! ### The island's blocks (3.7, 2.7, 18, 4.4, 16.9, 17.7, 9.7) -/

def regElv (s : State) (off : Nat) : RegVal :=
  let i := s.island
  match off with
  | 0x100 => r32 (startStatusWord s).toNat
  | 0x108 => r32 (b2n i.cold + 2 * i.target.toNat)
  | 0x110 => r32 i.ign.toNat
  | 0x120 => r32 (i.enabled.toNat + i.good.toNat * 2 ^ 14 + b2n i.dis * 2 ^ 28)
  | 0x130 => r32 i.grace.toNat
  | 0x140 => r32 (b2n s.console.locked + 2 * s.console.baud.toNat + 16 * b2n s.console.xferOpen)
  | _ => none
def Domain.word (x : Domain) : Nat :=
  x.step.toNat + x.cap.toNat * 2 ^ 8 + x.loop.toNat * 2 ^ 16 + x.vout.toNat * 2 ^ 24 + x.limiter.toNat * 2 ^ 34 + x.tag.w64
def regPwr (s : State) (off : Nat) : RegVal :=
  let w := s.power
  if off = 0 then
    r32 (w.limit.toNat + b2n w.mode1 * 2 ^ 11 + b2n w.pmbErr * 2 ^ 12 + b2n w.pacing * 2 ^ 13 + w.pcause.toNat * 2 ^ 14 +
      w.ratio.toNat * 2 ^ 16)
  else if off = 8 then r64 (w.pest.toNat + w.ptag.w64)
  else if off = 0x200 then r32 (w.thresh.toNat + w.hold.toNat * 2 ^ 8)
  else if off = 0x208 then r32 w.paceCnt.toNat
  else if off = 0x400 then r32 (w.etag.low)
  else if off = 0x408 then r64 w.echip.toNat
  else if off = 0x410 then r64 w.ecommon.toNat
  else if 0x100 ≤ off ∧ off < 0x150 ∧ off % 8 = 0 then
    let x := vget w.dom (mkFin 5 (by omega) ((off - 0x100) / 16))
    if off % 16 = 0 then r64 x.word
    else r64 (x.stretchCnt.toNat + x.lowers.toNat * 2 ^ 32 + x.raises.toNat * 2 ^ 48)
  else if 0x500 ≤ off ∧ off < 0x600 ∧ off % 8 = 0 then r64 (vget w.epart (mkFin 32 (by omega) ((off - 0x500) / 8))).toNat
  else none
def regMon (s : State) (off : Nat) : RegVal :=
  let w := s.power
  let n := off / 8 % 32
  if off % 8 ≠ 0 then none
  else if off < 0x70 then
    r64 ((vget w.temp (mkFin 14 (by omega) n)).toNat + (vget w.tempTag (mkFin 14 (by omega) n)).w64)
  else if 0x100 ≤ off ∧ off < 0x128 then
    let x := vget w.dom (mkFin 5 (by omega) n)
    r64 (x.trim.toNat + x.d.toNat * 2 ^ 8 + x.ageHours.toNat * 2 ^ 32 + x.ageTag.w64)
  else if 0x200 ≤ off ∧ off < 0x280 then
    r64 ((vget w.rail (mkFin 16 (by omega) n)).toNat + (vget w.railTag (mkFin 16 (by omega) n)).w64)
  else none
def regFrz (s : State) (off : Nat) : RegVal :=
  let f := s.frz
  match off with
  | 0x000 => r32 (b2n f.onFault + 2 * b2n f.fabric)
  | 0x004 => r32 f.pmask.toNat
  | 0x008 => r64 (f.base.toNat * 2 ^ 15)
  | 0x010 => r64 (f.maddr.toNat * 8)
  | 0x018 => r32 f.mlen.toNat
  | 0x020 => r64 f.arm.toNat
  | 0x028 => r32 0
  | 0x030 => r32 (b2n f.pending.isSome + 2 * b2n f.writing.isSome +
      (match f.pending with | some q => q.origin.toNat | none => 0) * 2 ^ 16)
  | 0x038 => r64 (f.code.toNat + f.source.toNat * 2 ^ 8 + b2n f.late * 2 ^ 12 + b2n f.holdover * 2 ^ 13 +
      f.fseq.toNat * 2 ^ 16 + f.tag.w64)
  | 0x040 => r64 f.it.toNat
  | 0x048 => r32 (f.skip.toNat + f.disc.toNat * 2 ^ 16)
  | _ => none
def regRat (s : State) (off : Nat) : RegVal :=
  let t := s.rat
  let bits := (List.finRange 64).foldl (fun a (n : Fin 64) => if (vget t.entries n).valid then a + 2 ^ n.val else a) 0
  if off < 0x800 then
    let e := vget t.entries (mkFin 64 (by omega) (off / 0x20))
    match off % 0x20 with
    | 0x00 => r64 (e.base.toNat * 4096)
    | 0x08 => r64 (e.limit.toNat * 4096 + 0xFFF)
    | 0x10 => r32 e.attr.toNat
    | 0x14 => r32 e.access.toNat
    | _ => none
  else match off with
    | 0x800 => r32 (t.errFid.toNat + b2n t.errWrite * 2 ^ 16 + t.errCause.toNat * 2 ^ 17 + t.errTag.w32)
    | 0x808 => r64 t.errAddr.toNat
    | 0x810 => r64 bits
    | _ => none
def regWrp (s : State) (off : Nat) : RegVal :=
  let l := s.loader
  if 0x040 ≤ off ∧ off < 0x070 ∧ off % 8 = 0 then r64 (leAt (natLe 48 l.hash.toNat).reverse (off - 0x040) 8) else
  match off with
  | 0x000 => r32 ((match l.active with | some i => 1 + i.val | none => 0) + b2n l.isSealed * 4 + b2n (wrpBusy s) * 8 +
      l.stage.toNat * 16 + b2n s.store.work.rejA * 256 + b2n s.store.work.rejB * 512)
  | 0x008 => r64 l.seq.toNat
  | 0x010 => r32 (wrpResultWord l).toNat
  | 0x014 => r32 l.ofs.toNat
  | 0x018 => r32 l.ign.toNat
  | 0x100 => r32 (l.relPart.toNat + b2n l.relSlot * 32 + b2n l.relForce * 64)
  | 0x200 => r64 l.storeAddr.toNat
  | 0x208 => r32 l.storeLen.toNat
  | 0x210 => r32 (b2n l.storeSlot)
  | _ => none
def regNvs (s : State) (off : Nat) : RegVal :=
  let t := s.store
  if off = 0 then r32 (t.recov.toNat + b2n (!t.queue.isEmpty) * 4 + t.items.toNat * 8)
  else if off = 8 then r32 t.logSeq.toNat
  else if 0x8000 ≤ off ∧ off % 8 = 0 then
    match t.log.find? fun e => e.lseq ≠ 0 && (e.lseq.toNat - 1) % 512 = (off - 0x8000) / 64 with
    | some e => r64 (leAt e.bytes (off % 64) 8)
    | none => r64 0
  else none
def TimeState.code : TimeState → Nat | .free => 0 | .locked => 1 | .holdover => 2
def regTim (s : State) (off : Nat) : RegVal :=
  let t := s.time
  match off with
  | 0x000 => r64 t.it.toNat
  | 0x008 => r32 (t.st.code + b2n t.gm * 4 + b2n t.slew * 8 + b2n t.refLost * 16 + b2n t.noGm * 32 +
      t.stratum.toNat * 64 + t.gmId.toNat * 2 ^ 12)
  | 0x010 => r64 (t.ofs.toNat + t.otag.w64)
  | _ => none

/-! ### Queues, tiles, Shuttle, Peat, ports (6.9, 7.1, 7.4, 7.5, 8.6, 9.7) -/

def regQueue (q : Queue) (off : Nat) : RegVal :=
  match off with
  | 0x00 => r64 (q.sqbase.toNat * 4096)
  | 0x08 => r64 (q.cqbase.toNat * 4096)
  | 0x10 => r32 (q.sqlog.toNat + q.cqlog.toNat * 16 + b2n q.enable * 256 + b2n q.evt * 512 + b2n q.halted * 1024 +
      b2n q.disp.isEmpty * 2048)
  | 0x14 => r32 (q.hart.toNat + q.file.toNat * 64 + q.ident.toNat * 2 ^ 16 + b2n q.all * 2 ^ 24)
  | 0x18 => r32 q.sqtail.toNat
  | 0x1C => r32 q.sqhead.toNat
  | 0x20 => r32 q.cqtail.toNat
  | 0x24 => r32 q.cqhead.toNat
  | 0x28 => r32 (q.code.toNat + q.tag.w32)
  | 0x30 => r32 q.nextSeq.toNat
  | _ => none
def regCq (s : State) (off : Nat) : RegVal :=
  if off = 0 then r32 64
  else if off = 8 then r64 s.fwver.toNat
  else if 0x1000 ≤ off ∧ off < 0x2000 then
    regQueue (vget s.queues (mkFin 64 (by omega) ((off - 0x1000) / 0x40))) (off % 0x40)
  else none
/-- The lane whose TILE0 a tile is. -/
def laneOf0 (s : State) (n : Fin 64) : Lane :=
  (s.lanes.toList.find? fun l => l.on && l.tiles.head? = some n).getD {}
def regLoom (s : State) (n : Fin 64) (off : Nat) : RegVal :=
  let t := vget s.tiles n
  let l := laneOf0 s n
  match off with
  | 0x000 => r32 (b2n t.windowed)
  | 0x008 => r32 (tileState s n + t.gate.toNat * 4 + b2n t.lane * 16 + b2n t.windowed * 32)
  | 0x010 => r32 0
  | 0x018 => r32 (t.errCode.toNat + t.errAddr.toNat * 256 + t.errTag.w32)
  | 0x020 => r64 (l.last.toNat + l.max.toNat * 2 ^ 24 + l.tag.w64)
  | 0x028 => r64 (l.requests.toNat + l.late.toNat * 2 ^ 32 + l.nonfinite.toNat * 2 ^ 48)
  | 0x030 => r32 l.wcl.toNat
  | _ => none
/-- SHT_CSTAT.STATE: a channel also runs while its chain's writes are not answered. -/
def chanState (sh : Shuttle) (c : Fin 8) : Nat :=
  if sh.held then 3 else match (vget sh.ch c).running with
    | none => 0
    | some x => if x.waitPeat.isSome then 2 else 1
def regSht (s : State) (off : Nat) : RegVal :=
  if 0x8000 ≤ off ∨ 0x80 ≤ off % 0x800 then none else
  let sh := vget s.shuttle (mkFin 16 (by omega) (off / 0x800))
  let c := mkFin 8 (by omega) (off % 0x800 / 0x10)
  match off % 0x10 with
  | 0 => r32 (chanState sh c)
  | 8 => r64 (vget sh.ch c).desc.toNat
  | _ => none
def readyBits (k : Stack) : Nat :=
  (List.finRange 32).foldl (fun a (j : Fin 32) => if (vget k.eng j).ready then a + 2 ^ j.val else a) 0
def regPeat (s : State) (k : Fin 8) (off : Nat) : RegVal :=
  let st := vget s.peat k
  if off = 0 then r32 (readyBits st)
  else if off = 8 then r32 st.irqen.toNat
  else if 0x1000 ≤ off ∧ off < 0x1800 then
    let e := vget st.eng (mkFin 32 (by omega) ((off - 0x1000) / 0x40))
    match off % 0x40 with
    | 0x00 => r32 (e.owner.toNat + b2n e.claimed * 32)
    | 0x08 => r32 (b2n e.accum)
    | 0x10 => r64 e.abase.toNat
    | 0x18 => r64 e.alim.toNat
    | 0x20 => r32 e.opc.toNat
    | 0x28 => r64 e.obase.toNat
    | 0x30 => r64 e.olen.toNat
    | 0x38 => r64 e.opar.toNat
    | _ => none
  else if 0x2000 ≤ off ∧ off < 0x2200 then
    let e := vget st.eng (mkFin 32 (by omega) ((off - 0x2000) / 0x10))
    match off % 0x10 with
    | 0 => r32 e.ref.toNat
    | 8 => r64 (e.statTag.toNat + e.statCode.toNat * 2 ^ 32 + b2n e.ready * 2 ^ 40 + e.stat.w64)
    | _ => none
  else none
def regGrh (s : State) (p : Fin 16) (off : Nat) : RegVal :=
  let x := vget s.ports p
  match off with
  | 0x000 => r32 (x.st.code + x.lanes.toNat * 8 + x.dir.toNat * 2 ^ 7 + b2n x.timeUse * 2 ^ 10 + x.peer.toNat * 2 ^ 12 +
      x.cause.toNat * 2 ^ 24)
  | 0x008 => r64 (x.delay.toNat + x.ofs.toNat * 2 ^ 20 + x.dtag.w64)
  | 0x010 => r64 (x.fec.toNat + x.replay.toNat * 2 ^ 32 + x.downs.toNat * 2 ^ 48)
  | _ => none

/-! ### The servo subsystem (11.10, 12.8, 13.6, 14.10) -/

def bgCode (t : Engine) : Nat := if t.held then 3 else match t.bg with | .halted => 0 | .running => 1 | .waitit => 2
/-- Words of the law store: value and SHIFT of each coefficient of the laws that the engine's axes name, in the order of
the law records (Table 12.8). -/
def lawWords (s : State) (e : Fin 8) : List (BitVec 32) :=
  let rs := planRecs s.loader.plan
  let used := fun (l : PlanRec) => (ofType rs 9).any fun r =>
    r.inst / 4 = e.val && r.owner = l.owner && ([r.byte 21, r.byte 22, r.byte 23].contains l.inst)
  ((ofType rs 7).filter used).flatMap fun l => (lawOf l).coef.flatMap fun c => [c.1, c.2.setWidth 32]
def regTrd (s : State) (e : Fin 8) (off : Nat) : RegVal :=
  let t := vget s.trd e
  if off % 4 ≠ 0 then none
  else if off = 0 then r32 0
  else if off = 4 then r32 t.entry.toNat
  else if off = 8 then
    r32 (bgCode t + b2n t.hook.isSome * 4 + (match t.hook with | some i => i.val | none => 0) * 8 + b2n t.bank0.lip * 32 +
      t.bank0.pc.toNat * 64)
  else if off = 0xC then r32 (t.errCode.toNat + t.errPc.toNat * 2 ^ 8 + b2n t.errBank * 2 ^ 20 + t.errTag.w32)
  else if off = 0x10 then r32 (t.preempt.toNat + t.haband.toNat * 2 ^ 16 + t.pfault.toNat * 2 ^ 24)
  else if off = 0x14 then r32 t.occ.toNat
  else if 0x100 ≤ off ∧ off < 0x300 then
    let b := t.bank (decide (0x200 ≤ off))
    let code := off % 0x100 / 4
    if code = 0x3F then r32 b.pc.toNat else r32 ((b.get code).getD 0).toNat
  else if 0x2000 ≤ off ∧ off < 0x3000 then r32 (((lawWords s e)[(off - 0x2000) / 4]?).getD 0).toNat
  else if 0x3000 ≤ off ∧ off < 0x4000 then r32 (spGet (0 : BitVec 32) t.cm ((off - 0x3000) / 4)).toNat
  else if 0x4000 ≤ off ∧ off < 0x8000 then r32 (spGet (0 : BitVec 32) t.pm ((off - 0x4000) / 4)).toNat
  else if 0x8000 ≤ off ∧ off < 0xC000 then r32 (spGet (0 : BitVec 32) t.xm ((off - 0x8000) / 4)).toNat
  else if 0xC000 ≤ off ∧ off < 0x10000 then r32 (spGet (0 : BitVec 32) t.ym ((off - 0xC000) / 4)).toNat
  else none
def regAxs (s : State) (a : Fin 32) (off : Nat) : RegVal :=
  let x := vget s.axes a
  if 0x100 ≤ off ∧ off < 0x140 ∧ off % 8 = 0 then r64 (vget x.seg (mkFin 8 (by omega) ((off - 0x100) / 8))).toNat
  else if 0x800 ≤ off ∧ off < 0x1000 ∧ off % 4 = 0 then
    r32 (spGet (0 : BitVec 32) (if off < 0xC00 then x.cam0 else x.cam1) (off % 0x400 / 4)).toNat
  else match off with
    | 0x000 => r32 (axsState s a).toNat
    | 0x040 => r32 0
    | 0x048 => r64 x.sp.toNat
    | 0x050 => r32 x.spd.toNat
    | 0x058 => r32 x.decel.toNat
    | 0x05C => r32 x.felim.toNat
    | 0x060 => r32 x.hook.toNat
    | 0x068 => r32 x.holdMax.toNat
    | 0x070 => r64 (x.dlMiss.toNat + x.fbkStale.toNat * 2 ^ 16 + x.laneMiss.toNat * 2 ^ 32 + x.ign.toNat * 2 ^ 48)
    | 0x080 => r64 x.conflict
    | 0x0C0 => r32 x.otag.low
    | 0x0C8 => r64 x.obsPos.toNat
    | 0x0D0 => r64 (x.obsVel.toNat + x.obsIq.toNat * 2 ^ 32)
    | 0x140 => r32 0
    | 0x148 => r32 (x.segq.length + x.segRefused.toNat * 256 + b2n x.lateStart * 2 ^ 16)
    | 0x180 => r32 (x.gearKind.toNat + x.gearIndex.toNat * 256)
    | 0x188 => r64 (x.gearNum.toNat + x.gearDen.toNat * 2 ^ 32)
    | 0x190 => r64 (x.camMper.toNat + b2n x.camBank * 2 ^ 32)
    | 0x198 => r64 x.camLift.toNat
    | _ => none
/-- FBK_FLT: bits [8:0] sticky, GOOD at bit 9. -/
def Fbk.fltWord (x : Fbk) : Nat :=
  b2n x.qerr + 2 * b2n x.amp + 4 * b2n x.ospeed + 8 * b2n x.frame + 256 * b2n x.cable
def regFbk (s : State) (c : Fin 40) (off : Nat) : RegVal :=
  let x := vget s.fbk c
  match off with
  | 0x000 => r32 (x.mode.toNat + b2n x.invDir * 8 + b2n x.zlatch * 16 + b2n x.zevt * 32 + b2n x.gray * 64 + b2n x.par * 128 +
      x.bits.toNat * 256 + x.cableT.toNat * 2 ^ 16)
  | 0x008 => r32 x.cpr.toNat
  | 0x00C => r32 x.poles.toNat
  | 0x010 => r32 x.eofs.toNat
  | 0x018 => r64 x.ssi.toNat
  | 0x020 => r64 (x.sofs.toNat + x.cofs.toNat * 2 ^ 16 + x.gainc.toNat * 2 ^ 32)
  | 0x028 => r32 (x.amin.toNat + x.amax.toNat * 2 ^ 16)
  | 0x040 => r32 (x.fltWord + 512 * b2n x.good)
  | 0x048 => r32 x.ign.toNat
  | 0x080 => r32 (x.otag.low + 128 * b2n x.ogood)
  | 0x088 => r64 x.opos.toNat
  | 0x090 => r64 (x.oang.toNat + x.oa2.toNat * 2 ^ 32)
  | 0x0C0 => r32 x.itag.low
  | 0x0C8 => r64 x.ipos.toNat
  | 0x0D0 => r64 x.iit.toNat
  | _ => none
def regCc (s : State) (off : Nat) : RegVal :=
  if off < 0x1000 then
    let c := vget s.cc.cmp (mkFin 16 (by omega) (off / 0x100))
    match off % 0x100 with
    | 0x00 => r32 (c.src.toNat + b2n c.en * 64 + c.dir.toNat * 128 + b2n c.periodic * 512 + b2n c.cyclic * 1024 +
        c.pw.toNat * 2 ^ 16)
    | 0x08 => r32 (c.lbase.toNat + c.llen.toNat * 2 ^ 16)
    | 0x10 => r64 c.start.toNat
    | 0x18 => r64 c.step.toNat
    | 0x20 => r32 c.count.toNat
    | 0x28 => r32 (c.ptr.toNat + b2n c.done * 2 ^ 13 + b2n c.high * 2 ^ 14 + c.fired.toNat * 2 ^ 16)
    | 0x2C => r32 (c.skipped.toNat + c.merged.toNat * 2 ^ 16)
    | _ => none
  else if 0x2000 ≤ off ∧ off < 0x2400 then
    let c := vget s.cc.cap (mkFin 16 (by omega) ((off - 0x2000) / 0x40))
    match off % 0x40 with
    | 0x00 => r32 (c.edge.toNat + b2n c.keep * 4 + c.src.toNat * 256)
    | 0x08 => r32 (c.tag.low + b2n c.level * 128 + b2n c.posValid * 256)
    | 0x10 => r64 c.it.toNat
    | 0x18 => r64 c.pos.toNat
    | 0x20 => r32 c.ovr.toNat
    | _ => none
  else if 0x8000 ≤ off ∧ off < 0x10000 ∧ off % 8 = 0 then r64 (spGet (0 : BitVec 64) s.cc.list ((off - 0x8000) / 8)).toNat
  else none
def MsgObj.stat (m : MsgObj) : Nat :=
  m.tag.seq.toNat + b2n m.lost * 128 + b2n m.pend * 256 + m.rxf.toNat * 512 + m.dlc.toNat * 2 ^ 16 +
  m.txres.toNat * 2 ^ 24 + b2n m.tag.valid * 2 ^ 31
def regMo (m : MsgObj) (off : Nat) : RegVal :=
  if 0x40 ≤ off ∧ off % 4 = 0 then r32 (vget m.data (mkFin 16 (by omega) ((off - 0x40) / 4))).toNat else
  match off with
  | 0x00 => r32 m.cfg.toNat
  | 0x04 => r32 m.id.toNat
  | 0x08 => r32 m.mask.toNat
  | 0x0C => r32 m.irq.toNat
  | 0x10 => r32 m.stat
  | 0x14 => r32 m.rxid.toNat
  | 0x18 => r32 m.ts.toNat
  | 0x1C => r32 0
  | _ => none
def regCan (s : State) (k : Fin 4) (off : Nat) : RegVal :=
  let c := vget s.can k
  if 0x1000 ≤ off ∧ off < 0x3000 then regMo (vget c.mo (mkFin 64 (by omega) ((off - 0x1000) / 0x80))) (off % 0x80) else
  match off with
  | 0x000 => r32 (c.mode.toNat + b2n c.listen * 4 + b2n c.loop * 8 + b2n c.autorec * 16)
  | 0x008 => r32 c.nbt.toNat
  | 0x00C => r32 c.dbt.toNat
  | 0x010 => r32 0
  | 0x018 => r32 (min 255 c.tec.toNat + min 255 c.rec_.toNat * 2 ^ 8 + c.st.code * 2 ^ 16 + c.lec.toNat * 2 ^ 18 +
      b2n c.lecData * 2 ^ 21 + c.tdcv.toNat * 2 ^ 24)
  | 0x020 => r32 s.tsc.toNat
  | 0x028 => r64 (c.unmatched.toNat + c.canref.toNat * 2 ^ 16 + c.maperr.toNat * 2 ^ 32 + c.arblost.toNat * 2 ^ 48)
  | 0x030 => r32 c.ign.toNat
  | 0x040 => r32 c.frzTag.low
  | 0x044 => r32 c.frzTs.toNat
  | 0x048 => r64 c.frzIt.toNat
  | _ => none

/-! ### Display, root ports, faults, resets (15.7, 6.8, 17.3 to 17.6) -/

def DpLink.code : DpLink → Nat | .off => 0 | .down => 1 | .training => 2 | .up => 3
def regLayer (l : LayerCfg) (off : Nat) : RegVal :=
  match off with
  | 0x00 => r32 (b2n l.en + l.fmt.toNat * 2 + b2n l.premul * 16 + b2n l.static_ * 32 + l.ga.toNat * 256)
  | 0x08 => r64 l.addr.toNat
  | 0x10 => r32 l.stride.toNat
  | 0x14 => r32 (l.srcW.toNat + l.srcH.toNat * 2 ^ 16)
  | 0x18 => r32 (l.posX.toNat + l.posY.toNat * 2 ^ 16)
  | 0x1C => r32 (l.dstW.toNat + l.dstH.toNat * 2 ^ 16)
  | 0x20 => r32 l.colour.toNat
  | _ => none
def regSig (g : SigCfg) (r : SigRes) (off : Nat) : RegVal :=
  match off with
  | 0x00 => r32 g.mode.toNat
  | 0x04 => r32 (g.x.toNat + g.y.toNat * 2 ^ 16)
  | 0x08 => r32 (g.w.toNat + g.h.toNat * 2 ^ 16)
  | 0x0C => r32 g.exp.toNat
  | 0x10 => r64 (r.crc.toNat + b2n r.compared * 2 ^ 32 + b2n r.match_ * 2 ^ 33 + r.tag.w64)
  | 0x18 => r64 r.it.toNat
  | _ => none
def dspStatWord (d : Display) : Nat :=
  d.link.code + d.lanes.toNat * 4 + d.rate.toNat * 32 + b2n d.hpd * 128 + b2n d.flat * 256 + d.flatn.toNat * 512 +
  b2n d.errscr * 2 ^ 12 + b2n d.pend * 2 ^ 13
def regDsp (s : State) (off : Nat) : RegVal :=
  let d := s.dsp
  if 0x100 ≤ off ∧ off < 0x280 then regLayer (vget d.shadow.layer (mkFin 6 (by omega) ((off - 0x100) / 0x40))) (off % 0x40)
  else if 0x300 ≤ off ∧ off < 0x400 then
    let n := mkFin 8 (by omega) ((off - 0x300) / 0x20)
    regSig (vget d.shadow.sig n) (vget d.sigres n) (off % 0x20)
  else if 0x4000 ≤ off ∧ off < 0x5800 ∧ off % 4 = 0 then
    r32 (spGet (0 : BitVec 32) (vget d.shadow.layer (mkFin 6 (by omega) ((off - 0x4000) / 0x400))).clut (off % 0x400 / 4)).toNat
  else if 0x6000 ≤ off ∧ off < 0x7000 ∧ off % 8 = 0 then
    r64 (spGet coefReset (vget d.shadow.layer (mkFin 6 (by omega) ((off - 0x6000) / 0x400))).coef (off % 0x400 / 8)).toNat
  else match off with
    | 0x000 => r32 (dspStatWord d)
    | 0x008 => r32 (2 * b2n d.evt)
    | 0x010 => r32 (d.ccode.toNat + d.ctag.w32)
    | 0x018 => r64 d.cit.toNat
    | 0x020 => r64 (d.under.toNat + d.fetchErr.toNat * 2 ^ 16 + d.mismatch.toNat * 2 ^ 32 + d.ign.toNat * 2 ^ 48)
    | 0x030 => r32 d.shadow.errcol.toNat
    | 0x038 => r32 d.shadow.bg.toNat
    | 0x040 => r32 0
    | _ => none
/-- A root port's configuration space (R449; log 12). -/
def regPci (s : State) (off : Nat) : RegVal :=
  if off < 0x8000 ∧ off % 4 = 0 then
    let q := mkFin 8 (by omega) (off / 0x1000)
    r32 (cfgWord q (vget s.rports q) (off % 0x1000))
  else none
/-- FLT_STAT of a slot, and its duplicate: the live fields are the function's. -/
def fltWord (s : State) (f : Fid) (x : FltStat) : Nat :=
  let pers := (List.range 12).any fun b => x.cause.getLsbD b && persists s f b
  x.cause.toNat + faultClass s f * 2 ^ 16 + b2n (faulted s f) * 2 ^ 19 + b2n pers * 2 ^ 20 + x.first.toNat * 2 ^ 32 + x.tag.w64
def regSel (s : State) (off : Nat) : RegVal :=
  if off < 0x8000 then
    let f := fidMk (off / 0x20 / 64) (off / 0x20 % 64)
    if !fidOk f then none else
    let x := vget s.flt (fidSlot f)
    match off % 0x20 with
    | 0x00 => r64 (fltWord s f x.a)
    | 0x08 => r64 (fltWord s f x.b)
    | 0x10 => r32 x.ien.toNat
    | 0x14 => r32 (x.corr.toNat + x.refused.toNat * 2 ^ 16)
    | _ => none
  else if off < 0x8400 then
    let i := mkFin 32 (by omega) ((off - 0x8000) / 0x20)
    let p := vget s.parts i
    match off % 0x20 with
    | 0 => r32 (b2n p.fenced + 2 * b2n (drained s i) + p.byFid.toNat * 4 + p.refused.toNat * 2 ^ 18)
    | 8 => r32 0
    | _ => none
  else none
def regRst (s : State) (off : Nat) : RegVal :=
  if 0x2000 ≤ off then none else
  let p := vget s.parts (mkFin 32 (by omega) (off / 0x100))
  match off % 0x100 with
  | 0x00 => r32 (p.reqFid.toNat + p.reqAct.toNat * 2 ^ 16)
  | 0x08 => r64 (p.resFid.toNat + p.resAct.toNat * 2 ^ 16 + p.resCode.toNat * 2 ^ 18 + p.resTag.w64)
  | 0x10 => r32 p.ign.toNat
  | _ => none

/-! ### APLIC and interrupt files (R107 to R109; the offsets are the RISC-V AIA's, log 15) -/

/-- Whether a partition reaches a source's sourcecfg and target (R108). -/
def srcMine (s : State) (p : Fin 32) (n : Nat) : Bool :=
  if srcChip n then p = 0 else match srcFid n with | some f => belongs s p f | none => false
/-- A source is active in a domain. -/
def srcActive (s : State) (d : Fin 2) (n : Nat) : Bool := srcDomain s n = some d
/-- 32 bits of a set over sources, from source 32 k on. -/
def word32 (v : BitVec 512) (k : Nat) : Nat := fld v.toNat (32 * k) 32
def regAplic (s : State) (p : Fin 32) (off : Nat) : RegVal :=
  if off % 4 ≠ 0 ∨ 0x4000 ≤ off % 0x80000 then none else
  let d : Fin 2 := mkFin 2 (by omega) (off / 0x80000)
  let a := vget s.aplic d
  let o := off % 0x80000
  let n := o % 0x1000 / 4
  if o = 0 then r32 a.domaincfg.toNat
  else if o < 0x1000 then r32 (if srcMine s p n then (spGet (0 : BitVec 32) a.sourcecfg n).toNat else 0)
  else if o = 0x1BC0 then r32 (a.mmsi.toNat)
  else if o = 0x1BC4 then r32 (a.mmsi.toNat / 2 ^ 32)
  else if o = 0x1BC8 then r32 (a.smsi.toNat)
  else if o = 0x1BCC then r32 (a.smsi.toNat / 2 ^ 32)
  else if 0x1C00 ≤ o ∧ o < 0x1C40 then r32 (word32 a.pending ((o - 0x1C00) / 4))
  else if 0x1D00 ≤ o ∧ o < 0x1D40 then
    r32 (word32 (BitVec.ofNat 512 ((listedSources.filter fun n => srcActive s d n && srcHigh s n).foldl
      (fun v n => v + 2 ^ n) 0)) ((o - 0x1D00) / 4))
  else if 0x1E00 ≤ o ∧ o < 0x1E40 then r32 (word32 a.enabled ((o - 0x1E00) / 4))
  else if o = 0x1CDC ∨ o = 0x1DDC ∨ o = 0x1EDC ∨ o = 0x1FDC ∨ o = 0x2000 ∨ o = 0x2004 ∨ o = 0x3000 then r32 0
  else if 0x1F00 ≤ o ∧ o < 0x1F40 then r32 0
  else if 0x3004 ≤ o then r32 (if srcMine s p n then (spGet (0 : BitVec 32) a.targets n).toNat else 0)
  else none
/-- seteipnum_le and seteipnum_be of an interrupt file. -/
def regImsic (off : Nat) : RegVal := if off % 0x1000 = 0 ∨ off % 0x1000 = 4 then r32 0 else none

/-! ### The whole map (Table 4.2) -/

/-- The register at an offset of register space, as partition p reads it. -/
def regAt (s : State) (p : Fin 32) (o : Nat) : RegVal :=
  let off := o % 0x10000
  let b := o / 0x10000
  if b = 0 then regElv s off
  else if b = 0x10 then regPwr s off
  else if b = 0x20 then regMon s off
  else if b = 0x30 then regFrz s off
  else if b = 0x40 then regRat s off
  else if b = 0x50 then regWrp s off
  else if b = 0x60 then regNvs s off
  else if b = 0x70 then regTim s off
  else if b = 0x100 then regCq s off
  else if 0x200 ≤ b ∧ b < 0x240 then regLoom s (mkFin 64 (by omega) b) off
  else if b = 0x300 then regSht s off
  else if 0x400 ≤ b ∧ b < 0x408 then regPeat s (mkFin 8 (by omega) b) off
  else if 0x500 ≤ b ∧ b < 0x510 then regGrh s (mkFin 16 (by omega) b) off
  else if 0x600 ≤ b ∧ b < 0x608 then regTrd s (mkFin 8 (by omega) b) off
  else if 0x700 ≤ b ∧ b < 0x702 then regAxs s (mkFin 32 (by omega) (o / 0x1000)) (o % 0x1000)
  else if 0x710 ≤ b ∧ b < 0x713 then regFbk s (mkFin 40 (by omega) (o / 0x1000 - 0x7100)) (o % 0x1000)
  else if b = 0x720 then regCc s off
  else if 0x800 ≤ b ∧ b < 0x804 then regCan s (mkFin 4 (by omega) b) off
  else if b = 0x900 then regDsp s off
  else if b = 0xA00 then regPci s off
  else if b = 0xB00 then regSel s off
  else if b = 0xB10 then regRst s off
  else if 0xC00 ≤ b ∧ b < 0xC10 then regAplic s p (o - 0xC000000)
  else if 0xD00 ≤ b ∧ b < 0xF00 then regImsic off
  else none

end Sys2Proof.Machine
end

