-- ==== Sys2Proof/Machine/RegWrite.lean ====
section
/-! DEFINITION. Writes and reads of register space: what a write of each register does (R7), the width rule (R76), the
page rule (R77) and fenced pages (R380). -/
namespace Sys2Proof.Machine

/-! ### Chip-wide blocks -/

def putElv (off v : Nat) (s : State) : State :=
  if off = 0x108 then startCtrlWrite (bitOf v 0) (BitVec.ofNat 2 (fld v 1 2)) (bitOf v 31) s
  else if off = 0x130 then pdnWrite (BitVec.ofNat 8 v) (bitOf v 8) (bitOf v 31) s
  else s
/-- PWR_PACE: a HOLD below 100 is ignored. -/
def putPwr (off v : Nat) (s : State) : State :=
  if off = 0x200 then
    s.modPower fun w => { w with
      thresh := BitVec.ofNat 8 v, hold := if fld v 8 16 < 100 then w.hold else BitVec.ofNat 16 (fld v 8 16) }
  else s
/-- FRZ registers (Table 17.10). FRZ_CTRL takes LOCAL before INSTALL. -/
def putFrz (off v : Nat) (s : State) : State :=
  if isFenced s frzFid then s else
  match off with
  | 0x000 => s.modFrz fun f => { f with onFault := bitOf v 0, fabric := bitOf v 1 }
  | 0x004 => s.modFrz fun f => { f with pmask := BitVec.ofNat 32 v }
  | 0x008 => s.modFrz fun f => { f with base := BitVec.ofNat 29 (v / 2 ^ 15) }
  | 0x010 => s.modFrz fun f => { f with maddr := BitVec.ofNat 41 (v / 8) }
  | 0x018 =>
    if fld v 0 12 % 8 = 0 ∧ fld v 0 12 ≤ 2048 then s.modFrz fun f => { f with mlen := BitVec.ofNat 12 v } else s
  | 0x020 => s.modFrz fun f => { f with arm := BitVec.ofNat 64 v }
  | 0x028 =>
    let s := if bitOf v 0 then frzLocal s else s
    if bitOf v 1 then frzInstall s else s
  | 0x038 => if bitOf v 63 then s.modFrz fun f => { f with tag := f.tag.retire } else s
  | _ => s
def putWrp (off v : Nat) (s : State) : State :=
  match off with
  | 0x100 => reloadWrite (mkFin 32 (by omega) v) (mkFin 2 (by omega) (fld v 5 1)) (bitOf v 6) (bitOf v 31) s
  | 0x200 => s.modLoader fun l => { l with storeAddr := BitVec.ofNat 44 v }
  | 0x208 => s.modLoader fun l => { l with storeLen := BitVec.ofNat 23 v }
  | 0x210 => storeWrite (mkFin 2 (by omega) v) (bitOf v 31) s
  | _ => s

/-! ### Queues, tiles, Peat, ports -/

def putQueue (n : Fin 64) (off v : Nat) (s : State) : State :=
  let off_ := (vget s.queues n).enable
  match off with
  | 0x00 => if off_ then s else s.modQueue n fun q => { q with sqbase := BitVec.ofNat 32 (v / 4096) }
  | 0x08 => if off_ then s else s.modQueue n fun q => { q with cqbase := BitVec.ofNat 32 (v / 4096) }
  | 0x10 => qcfgWrite n (BitVec.ofNat 4 v) (BitVec.ofNat 4 (fld v 4 4)) (bitOf v 8) (bitOf v 9) s
  | 0x14 => qirqWrite n (BitVec.ofNat 32 v) s
  | 0x18 => sqTailWrite n (BitVec.ofNat 16 v) s
  | 0x24 => cqHeadWr n (BitVec.ofNat 16 v) s
  | 0x28 => if bitOf v 31 then s.modQueue n fun q => { q with tag := q.tag.retire } else s
  | _ => s
def putLoom (n : Fin 64) (off v : Nat) (s : State) : State :=
  match off with
  | 0x000 => spmodeSet n (bitOf v 0) s
  | 0x010 => if bitOf v 0 then loomInvalidate n s else s
  | 0x018 => if bitOf v 31 then s.modTile n fun t => { t with errTag := t.errTag.retire } else s
  | 0x020 =>
    if bitOf v 63 then
      { s with lanes := s.lanes.map fun l => if l.on && l.tiles.head? = some n then { l with tag := l.tag.retire } else l }
    else s
  | _ => s
/-- A per-engine register: the claimant writes the operation's registers (R166, R170, Table 7.6). -/
def putEng (k : Fin 8) (j : Fin 32) (p : Fin 32) (off v : Nat) (s : State) : State :=
  let own := fun (f : PeatEngine → PeatEngine) => s.modEng k j fun e => if e.owns p then f e else e
  match off with
  | 0x00 =>
    let s := if bitOf v 30 then peatTake k j p s else s
    if bitOf v 31 then peatRelease k j p s else s
  | 0x08 => peatModeWr k j p .mode (BitVec.ofNat 64 v) s
  | 0x10 => peatModeWr k j p .abase (BitVec.ofNat 64 v) s
  | 0x18 => peatModeWr k j p .alim (BitVec.ofNat 64 v) s
  | 0x20 => own fun e => { e with opc := BitVec.ofNat 8 v }
  | 0x28 => own fun e => { e with obase := BitVec.ofNat 44 v }
  | 0x30 => own fun e => { e with olen := BitVec.ofNat 44 v }
  | 0x38 => own fun e => { e with opar := BitVec.ofNat 44 v }
  | _ => s
def putPeat (k : Fin 8) (p : Fin 32) (off v : Nat) (s : State) : State :=
  if off = 8 then { s with peat := vmod s.peat k fun st => { st with irqen := BitVec.ofNat 32 v } }
  else if 0x1000 ≤ off ∧ off < 0x1800 then putEng k (mkFin 32 (by omega) ((off - 0x1000) / 0x40)) p (off % 0x40) v s
  else if 0x2000 ≤ off ∧ off < 0x2200 ∧ off % 0x10 = 8 ∧ bitOf v 63 then
    s.modEng k (mkFin 32 (by omega) ((off - 0x2000) / 0x10)) fun e => { e with stat := e.stat.retire }
  else s
def putGrh (p : Fin 16) (off v : Nat) (s : State) : State :=
  if off = 8 ∧ bitOf v 63 then s.modPort p fun x => { x with dtag := x.dtag.retire } else s

/-! ### The servo subsystem -/

/-- A register of an engine; START, STOP and RESUME in this order. -/
def putTrd (e : Fin 8) (off v : Nat) (s : State) : State :=
  let w := BitVec.ofNat 32 v
  if off = 0 then
    let s := if bitOf v 0 then trdStart e s else s
    let s := if bitOf v 1 then trdStop e s else s
    if bitOf v 2 then trdResume e s else s
  else if off = 4 then s.modTrd e fun t => { t with entry := BitVec.ofNat 12 v }
  else if off = 0xC then (if bitOf v 31 then s.modTrd e fun t => { t with errTag := t.errTag.retire } else s)
  else if 0x100 ≤ off ∧ off < 0x300 then bankWrite e (decide (0x200 ≤ off)) (off % 0x100 / 4) w s
  else if 0x3000 ≤ off ∧ off < 0x4000 then pmWrite e true ((off - 0x3000) / 4) w s
  else if 0x4000 ≤ off ∧ off < 0x8000 then pmWrite e false ((off - 0x4000) / 4) w s
  else if 0x8000 ≤ off ∧ off < 0xC000 then dataWrite e false ((off - 0x8000) / 4) w s
  else if 0xC000 ≤ off then dataWrite e true ((off - 0xC000) / 4) w s
  else s
/-- The bits of AXS_SEGn that Table 11.6 defines: bits [7:2] of SFLAGS, byte 3 and bytes 56 to 63 are reserved (R10). -/
def segMask (n : Nat) : BitVec 64 := if n = 0 then 0xFFFFFFFF00FF03FF else if n = 7 then 0 else 0xFFFFFFFFFFFFFFFF
/-- An axis register that is no order. -/
def putAxsReg (a : Fin 32) (off v : Nat) (s : State) : State :=
  if 0x100 ≤ off ∧ off < 0x140 then
    s.modAxis a fun x => { x with
      seg := vset x.seg (mkFin 8 (by omega) ((off - 0x100) / 8)) (BitVec.ofNat 64 v &&& segMask ((off - 0x100) / 8)) }
  else if 0x800 ≤ off ∧ off < 0xC00 then
    s.modAxis a fun x => { x with cam0 := spPut 0 x.cam0 (off % 0x400 / 4) (BitVec.ofNat 32 v) }
  else if 0xC00 ≤ off then
    s.modAxis a fun x => { x with cam1 := spPut 0 x.cam1 (off % 0x400 / 4) (BitVec.ofNat 32 v) }
  else match off with
    | 0x058 => s.modAxis a fun x => { x with decel := BitVec.ofNat 32 v }
    | 0x05C => s.modAxis a fun x => { x with felim := BitVec.ofNat 32 v }
    | 0x060 => s.modAxis a fun x => { x with hook := BitVec.ofNat 32 v }
    | 0x068 => s.modAxis a fun x => { x with holdMax := BitVec.ofNat 8 v }
    | 0x080 => if bitOf v 63 then s.modAxis a fun x => { x with ctag := x.ctag.retire } else s
    | 0x0C0 => if bitOf v 31 then s.modAxis a fun x => { x with otag := x.otag.retire } else s
    | 0x140 =>
      let s := if bitOf v 0 then segPush a s else s
      if bitOf v 1 then segFlush a s else s
    | 0x148 => if bitOf v 16 then s.modAxis a fun x => { x with lateStart := false } else s
    | 0x180 => s.modAxis a fun x => { x with
        gearKind := BitVec.ofNat 2 v, gearIndex := BitVec.ofNat 8 (fld v 8 8) }
    | 0x188 => s.modAxis a fun x => { x with gearNum := BitVec.ofNat 32 v, gearDen := BitVec.ofNat 32 (fld v 32 32) }
    | 0x190 => s.modAxis a fun x => { x with camMper := BitVec.ofNat 32 v, camBank := bitOf v 32 }
    | 0x198 => s.modAxis a fun x => { x with camLift := BitVec.ofNat 64 v }
    | _ => s
/-- The order that a register write is, if any (Table 11.7). -/
def axsOrder (who : Master) (a : Fin 32) (off v : Nat) : Option Rival :=
  let r := masterRank who
  if off = 0x040 ∧ 1 ≤ fld v 0 3 ∧ fld v 0 3 ≤ 4 then
    some { axis := a, rank := r.1, port := r.2, op := BitVec.ofNat 3 v, src := BitVec.ofNat 2 (fld v 3 2), value := 0, spd := false }
  else if off = 0x048 ∨ off = 0x050 then
    some { axis := a, rank := r.1, port := r.2, op := 5, src := 0, value := BitVec.ofNat 64 v, spd := off = 0x050 }
  else none
/-- A write of an axis's page: an order, or a register; under TAKE a register write loses too (R263 to R266). -/
def putAxs (who : Master) (a : Fin 32) (off v : Nat) (s : State) : State :=
  match axsOrder who a off v with
  | some o => orders [o] s
  | none =>
    if (vget s.axes a).taken then conflict a 6 (masterRank who).1 (masterRank who).2 2 0 true s else putAxsReg a off v s
def putFbk (c : Fin 40) (off v : Nat) (s : State) : State :=
  if fbkConfigReg off then fbkConfigWrite c off (BitVec.ofNat 64 v) s
  else match off with
    | 0x040 => fbkFltClear c v s
    | 0x080 => if bitOf v 31 then s.modFbk c fun x => { x with otag := x.otag.retire } else s
    | 0x0C0 => if bitOf v 31 then s.modFbk c fun x => { x with itag := x.itag.retire } else s
    | _ => s
def putCc (off v : Nat) (s : State) : State :=
  if off < 0x1000 then
    let n := mkFin 16 (by omega) (off / 0x100)
    if off % 0x100 = 0 then cmpCfgWrite n v s else cmpRegWrite n (off % 0x100) (BitVec.ofNat 64 v) s
  else if off < 0x2400 then
    let n := mkFin 16 (by omega) ((off - 0x2000) / 0x40)
    if off % 0x40 = 0 then capCfgWrite n v s
    else if off % 0x40 = 8 ∧ bitOf v 31 then capClear n s
    else s
  else if 0x8000 ≤ off then { s with cc := { s.cc with list := spPut 0 s.cc.list ((off - 0x8000) / 8) (BitVec.ofNat 64 v) } }
  else s
def putMo (k : Fin 4) (j : Fin 64) (off v : Nat) (s : State) : State :=
  let w := BitVec.ofNat 32 v
  if 0x40 ≤ off then moDataWrite k j (mkFin 16 (by omega) ((off - 0x40) / 4)) w s else
  match off with
  | 0x00 => moConfig k j false w s
  | 0x04 => moConfig k j true w s
  | 0x08 => moMaskWrite k j w s
  | 0x0C => moIrqWrite k j w s
  | 0x10 => s.modMo k j fun m => { m with
      lost := m.lost && !bitOf v 7, tag := if bitOf v 31 then m.tag.retire else m.tag }
  | 0x1C =>
    let s := if bitOf v 0 then txReq k j s else s
    if bitOf v 1 then cancelTx k j s else s
  | _ => s
/-- The bits of CAN_NBT and CAN_DBT that Table 14.1 defines (R10). -/
def nbtMask : BitVec 32 := 0x7FFFFFFF
def dbtMask : BitVec 32 := 0x1F0F1F1F
/-- A register of a CAN controller. MODE, LISTEN, LOOP and the bit timing are RWL: kept once the plan is sealed (R7). -/
def putCan (k : Fin 4) (off v : Nat) (s : State) : State :=
  let w := BitVec.ofNat 32 v
  let rwl := fun (f : Can → Can) => if s.loader.isSealed then s else s.modCan k f
  if 0x1000 ≤ off then putMo k (mkFin 64 (by omega) ((off - 0x1000) / 0x80)) (off % 0x80) v s else
  match off with
  | 0x000 =>
    let s := rwl fun c => { c with mode := BitVec.ofNat 2 v, listen := bitOf v 2, loop := bitOf v 3 }
    s.modCan k fun c => { c with autorec := bitOf v 4 }
  | 0x008 => rwl fun c => { c with nbt := w &&& nbtMask }
  | 0x00C => rwl fun c => { c with dbt := w &&& dbtMask }
  | 0x010 => if bitOf v 0 then recover k s else s
  | 0x040 => if bitOf v 31 then s.modCan k fun c => { c with frzTag := c.frzTag.retire } else s
  | _ => s

/-! ### Display, root ports, faults, resets -/

def putLayer (l : LayerCfg) (off v : Nat) : LayerCfg :=
  match off with
  | 0x00 => { l with
      en := bitOf v 0, fmt := BitVec.ofNat 3 (fld v 1 3), premul := bitOf v 4, static_ := bitOf v 5,
      ga := BitVec.ofNat 8 (fld v 8 8) }
  | 0x08 => { l with addr := BitVec.ofNat 44 v }
  | 0x10 => { l with stride := BitVec.ofNat 16 v }
  | 0x14 => { l with srcW := BitVec.ofNat 13 v, srcH := BitVec.ofNat 13 (fld v 16 13) }
  | 0x18 => { l with posX := BitVec.ofNat 13 v, posY := BitVec.ofNat 13 (fld v 16 13) }
  | 0x1C => { l with dstW := BitVec.ofNat 13 v, dstH := BitVec.ofNat 13 (fld v 16 13) }
  | 0x20 => { l with colour := BitVec.ofNat 30 v }
  | _ => l
def putSig (g : SigCfg) (off v : Nat) : SigCfg :=
  match off with
  | 0x00 => { g with mode := BitVec.ofNat 2 v }
  | 0x04 => { g with x := BitVec.ofNat 13 v, y := BitVec.ofNat 13 (fld v 16 13) }
  | 0x08 => { g with w := BitVec.ofNat 13 v, h := BitVec.ofNat 13 (fld v 16 13) }
  | 0x0C => { g with exp := BitVec.ofNat 32 v }
  | _ => g
/-- The bits of a coefficient word: four fields of 10 bits. -/
def coefMask : BitVec 64 := 0x03FF03FF03FF03FF
/-- A register of the shadow set written; none where the offset is no shadow register (Table 15.2). -/
def putShadow (d : DspSet) (off v : Nat) : Option DspSet :=
  if 0x100 ≤ off ∧ off < 0x280 then
    some { d with layer := vmod d.layer (mkFin 6 (by omega) ((off - 0x100) / 0x40)) fun l => putLayer l (off % 0x40) v }
  else if 0x300 ≤ off ∧ off < 0x400 ∧ off % 0x20 < 0x10 then
    some { d with sig := vmod d.sig (mkFin 8 (by omega) ((off - 0x300) / 0x20)) fun g => putSig g (off % 0x20) v }
  else if 0x4000 ≤ off ∧ off < 0x5800 then
    some { d with layer := vmod d.layer (mkFin 6 (by omega) ((off - 0x4000) / 0x400)) fun l =>
      { l with clut := spPut 0 l.clut (off % 0x400 / 4) (BitVec.ofNat 32 v) } }
  else if 0x6000 ≤ off ∧ off < 0x7000 then
    some { d with layer := vmod d.layer (mkFin 6 (by omega) ((off - 0x6000) / 0x400)) fun l =>
      { l with coef := spPut coefReset l.coef (off % 0x400 / 8) (BitVec.ofNat 64 v &&& coefMask) } }
  else if off = 0x030 then some { d with errcol := BitVec.ofNat 30 v }
  else if off = 0x038 then some { d with bg := BitVec.ofNat 30 v }
  else none
/-- A write of block DSP: a shadow write while PEND is 1 is ignored and counted (R345). -/
def putDsp (off v : Nat) (s : State) : State :=
  match putShadow s.dsp.shadow off v with
  | some d => if s.dsp.pend then dspIgn s else s.modDsp fun x => { x with shadow := d }
  | none =>
    if 0x300 ≤ off ∧ off < 0x400 then
      (if off % 0x20 = 0x10 ∧ bitOf v 63 then
        s.modDsp fun d => { d with
          sigres := vmod d.sigres (mkFin 8 (by omega) ((off - 0x300) / 0x20)) fun r => { r with tag := r.tag.retire } }
       else s)
    else match off with
      | 0x008 =>
        let s := s.modDsp fun d => { d with evt := bitOf v 1 }
        if bitOf v 0 then commitGo s else s
      | 0x010 => if bitOf v 31 then s.modDsp fun d => { d with ctag := d.ctag.retire } else s
      | 0x040 => if bitOf v 0 then s.modDsp fun d => { d with clearReq := true } else s
      | _ => s
/-- A write to a root port's configuration space: kept, newest first (R449; log 12). -/
def putPci (off v : Nat) (s : State) : State :=
  s.modRp (mkFin 8 (by omega) (off / 0x1000)) fun r => { r with cfg := (BitVec.ofNat 12 off, BitVec.ofNat 32 v) :: r.cfg }
/-- FLT_STAT: causes by R383 in both copies, then VALID; FLT_IEN. -/
def putSel (off v : Nat) (s : State) : State :=
  if off < 0x8000 then
    let f := fidMk (off / 0x20 / 64) (off / 0x20 % 64)
    if off % 0x20 = 0 then
      let s := clearCauses f (BitVec.ofNat 12 v) s
      if bitOf v 63 then
        s.modFlt (fidSlot f) fun x => { x with
          a := { x.a with tag := x.a.tag.retire }, b := { x.b with tag := x.b.tag.retire } }
      else s
    else if off % 0x20 = 0x10 then s.modFlt (fidSlot f) fun x => { x with ien := BitVec.ofNat 12 v }
    else s
  else if off < 0x8400 ∧ off % 0x20 = 8 ∧ bitOf v 0 then reopen (mkFin 32 (by omega) ((off - 0x8000) / 0x20)) s
  else s
def putRst (off v : Nat) (s : State) : State :=
  let p := mkFin 32 (by omega) (off / 0x100)
  if off % 0x100 = 0 then rstWrite p (BitVec.ofNat 16 v) (BitVec.ofNat 2 (fld v 16 2)) (bitOf v 31) s
  else if off % 0x100 = 8 ∧ bitOf v 63 then s.modPart p fun x => { x with resTag := x.resTag.retire }
  else s

/-! ### APLIC and interrupt files (R107 to R109; the rest is the RISC-V AIA's, log 15) -/

def State.modDomain (d : Fin 2) (f : AplicDomain → AplicDomain) (s : State) : State := { s with aplic := vmod s.aplic d f }
def bit512 (n : Nat) : BitVec 512 := 1#512 <<< n
/-- A pending bit set: only of an active source whose level is high. -/
def setPend (d : Fin 2) (n : Nat) (s : State) : State :=
  if n < 512 && srcActive s d n && srcHigh s n then
    aplicForward d n (s.modDomain d fun a => { a with pending := a.pending ||| bit512 n })
  else s
def clrPend (d : Fin 2) (n : Nat) (s : State) : State := s.modDomain d fun a => { a with pending := a.pending &&& ~~~bit512 n }
/-- An enable bit set: only of an active source. -/
def setEnable (d : Fin 2) (n : Nat) (s : State) : State :=
  if n < 512 && srcActive s d n then
    aplicForward d n (s.modDomain d fun a => { a with enabled := a.enabled ||| bit512 n })
  else s
def clrEnable (d : Fin 2) (n : Nat) (s : State) : State := s.modDomain d fun a => { a with enabled := a.enabled &&& ~~~bit512 n }
/-- An operation on every source of a 32-bit set. -/
def eachBit (f : Nat → State → State) (k v : Nat) (s : State) : State :=
  (List.range 32).foldl (fun s i => if bitOf v i then f (32 * k + i) s else s) s
/-- sourcecfg: Level1 (6) and, in the machine domain, delegation (bit 10) are kept; any other mode sets Inactive (R107).
A source no longer active in a domain loses its bits there; a newly active one is sensed afresh. -/
def putSourcecfg (d : Fin 2) (n v : Nat) (s : State) : State :=
  let w : BitVec 32 := if d = 0 ∧ bitOf v 10 then 0x400 else if fld v 0 3 = 6 then 6 else 0
  let gone := fun (e : Fin 2) (old new : State) => if srcActive old e n && !srcActive new e n then
    clrEnable e n (clrPend e n new) else new
  if d = 1 ∧ !((spGet (0 : BitVec 32) (vget s.aplic 0).sourcecfg n).getLsbD 10) then s else
  let t := s.modDomain d fun a => { a with sourcecfg := spPut 0 a.sourcecfg n w }
  let t := if w.getLsbD 10 || d = 1 then t else t.modDomain 1 fun a => { a with sourcecfg := spPut 0 a.sourcecfg n 0 }
  let t := gone 1 s (gone 0 s t)
  if srcDomain t n ≠ srcDomain s n then { t with srcLevel := t.srcLevel &&& ~~~bit512 n } else t
/-- target: Hart Index, Guest Index and EIID, where the hart lies in the source's partition (R108). -/
def putTarget (d : Fin 2) (n v : Nat) (s : State) : State :=
  let part := if srcChip n then some 0 else match srcFid n with | some f => partOf s f | none => none
  match part with
  | some p =>
    if belongs s p (fidMk 1 (fld v 18 14 % 256)) ∧ fld v 18 14 < 48 ∧ srcActive s d n then
      s.modDomain d fun a => { a with targets := spPut 0 a.targets n (BitVec.ofNat 32 v &&& 0xFFFFF7FF) }
    else s
  | none => s
/-- The bytes of a register in the other order. -/
def swap32 (v : Nat) : Nat := leNat (natLe 4 v).reverse
/-- A write of the APLIC's page by partition p. -/
def putAplic (p : Fin 32) (off v : Nat) (s : State) : State :=
  if off % 4 ≠ 0 ∨ 0x4000 ≤ off % 0x80000 then s else
  let d : Fin 2 := mkFin 2 (by omega) (off / 0x80000)
  let o := off % 0x80000
  let n := o % 0x1000 / 4
  let lo := fun (w : BitVec 64) => w &&& 0xFFFFFFFF00000000 ||| BitVec.ofNat 64 (v % 2 ^ 32)
  let hi := fun (w : BitVec 64) => w &&& 0x00000000FFFFFFFF ||| BitVec.ofNat 64 (v % 2 ^ 32 * 2 ^ 32)
  let own := fun (t : State) => if p = 0 then t else s
  if o = 0 then
    own ((List.range 512).foldl (fun t n => aplicForward d n t)
      (s.modDomain d fun a => { a with domaincfg := a.domaincfg &&& ~~~0x100 ||| BitVec.ofNat 32 (fld v 8 1 * 256) }))
  else if o < 0x1000 then (if srcListed n && srcMine s p n then putSourcecfg d n v s else s)
  else if o = 0x1BC0 ∧ d = 0 then own (s.modDomain d fun a => { a with mmsi := lo a.mmsi })
  else if o = 0x1BC4 ∧ d = 0 then own (s.modDomain d fun a => { a with mmsi := hi a.mmsi })
  else if o = 0x1BC8 ∧ d = 0 then own (s.modDomain d fun a => { a with smsi := lo a.smsi })
  else if o = 0x1BCC ∧ d = 0 then own (s.modDomain d fun a => { a with smsi := hi a.smsi })
  else if 0x1C00 ≤ o ∧ o < 0x1C40 then eachBit (setPend d) ((o - 0x1C00) / 4) v s
  else if o = 0x1CDC then setPend d (v % 2 ^ 32) s
  else if 0x1D00 ≤ o ∧ o < 0x1D40 then eachBit (clrPend d) ((o - 0x1D00) / 4) v s
  else if o = 0x1DDC then clrPend d (v % 2 ^ 32) s
  else if 0x1E00 ≤ o ∧ o < 0x1E40 then eachBit (setEnable d) ((o - 0x1E00) / 4) v s
  else if o = 0x1EDC then setEnable d (v % 2 ^ 32) s
  else if 0x1F00 ≤ o ∧ o < 0x1F40 then eachBit (clrEnable d) ((o - 0x1F00) / 4) v s
  else if o = 0x1FDC then clrEnable d (v % 2 ^ 32) s
  else if o = 0x2000 then setPend d (v % 2 ^ 32) s
  else if o = 0x2004 then setPend d (swap32 v) s
  else if o = 0x3000 then
    (if fld v 0 11 < 256 ∧ belongs s p (fidMk 1 (fld v 18 14 % 256)) then
      sendMsi (fld v 18 14) (if d = 0 then 0 else 1) (BitVec.ofNat 8 v) s else s)
  else if 0x3004 ≤ o then (if srcListed n && srcMine s p n then putTarget d n v s else s)
  else s
/-- A write of a core's interrupt file page: seteipnum_le or seteipnum_be; identities above 255 have no effect (R109). -/
def putImsic (o v : Nat) (s : State) : State :=
  let off := o % 0x1000
  let w := if off = 4 then swap32 v else v
  if (off = 0 ∨ off = 4) ∧ w % 2 ^ 32 < 256 then
    (if o < 0xE000000 then sendMsi ((o - 0xD000000) / 0x1000) 0 (BitVec.ofNat 8 w) s
     else sendMsi ((o - 0xE000000) / 0x8000) (1 + o % 0x8000 / 0x1000) (BitVec.ofNat 8 w) s)
  else s

/-! ### Register accesses (R76, R77, R380) -/

/-- The effect of a write that the rules admit, at offset o of register space. -/
def regPut (who : Master) (p : Fin 32) (o v : Nat) (s : State) : State :=
  let off := o % 0x10000
  let b := o / 0x10000
  if b = 0 then putElv off v s
  else if b = 0x10 then putPwr off v s
  else if b = 0x30 then putFrz off v s
  else if b = 0x50 then putWrp off v s
  else if b = 0x100 then
    (if 0x1000 ≤ off ∧ off < 0x2000 then putQueue (mkFin 64 (by omega) ((off - 0x1000) / 0x40)) (off % 0x40) v s else s)
  else if 0x200 ≤ b ∧ b < 0x240 then putLoom (mkFin 64 (by omega) b) off v s
  else if 0x400 ≤ b ∧ b < 0x408 then putPeat (mkFin 8 (by omega) b) p off v s
  else if 0x500 ≤ b ∧ b < 0x510 then putGrh (mkFin 16 (by omega) b) off v s
  else if 0x600 ≤ b ∧ b < 0x608 then putTrd (mkFin 8 (by omega) b) off v s
  else if 0x700 ≤ b ∧ b < 0x702 then putAxs who (mkFin 32 (by omega) (o / 0x1000)) (o % 0x1000) v s
  else if 0x710 ≤ b ∧ b < 0x713 then putFbk (mkFin 40 (by omega) (o / 0x1000 - 0x7100)) (o % 0x1000) v s
  else if b = 0x720 then putCc off v s
  else if 0x800 ≤ b ∧ b < 0x804 then putCan (mkFin 4 (by omega) b) off v s
  else if b = 0x900 then putDsp off v s
  else if b = 0xA00 then putPci off v s
  else if b = 0xB00 then putSel off v s
  else if b = 0xB10 then putRst off v s
  else if 0xC00 ≤ b ∧ b < 0xC10 then putAplic p (o - 0xC000000) v s
  else if 0xD00 ≤ b ∧ b < 0xF00 then putImsic o v s
  else s
/-- A register lies at the offset. -/
def regDefined (s : State) (p : Fin 32) (o : Nat) : Bool := (regAt s p o).isSome
/-- A register access of n bytes has a form that R76 and R10 accept. An aligned 64-bit access at an undefined offset is
accepted whatever lies in its upper word, and does not reach it (R10; DEDUCED, log 37). -/
def regFormOk (s : State) (p : Fin 32) (o n : Nat) (write : Bool) : Bool :=
  let upper := o % 8 = 4 && (match regAt s p (o - 4) with | some (true, _) => true | _ => false)
  (n = 4 || n = 8) && o % n = 0 && (match regAt s p o with
    | some (true, _) => n = 8 || !write
    | some (false, _) => n = 4
    | none => !(upper && write))
/-- What a register access of n bytes at a physical address errs with, if it does: the page rule first (R76, R77). -/
def regErr (s : State) (who : Master) (a n : Nat) (write : Bool) : Option (BitVec 3) :=
  match regPage s who a write, masterPart s who with
  | some c, _ => some c
  | none, none => some 5
  | none, some p => if regFormOk s p (a - regBase) n write then none else some 7
/-- A register write of n bytes. -/
def regStore (who : Master) (a n v : Nat) (s : State) : State :=
  match regErr s who a n true, masterPart s who with
  | some c, _ => accessError (masterFid who) true c a s
  | none, some p => if pageFenced s a || !regDefined s p (a - regBase) then s else regPut who p (a - regBase) v s
  | none, none => s
/-- The value of a register read: the register, either half of a 64-bit one, 0 at an undefined offset (R10, R76). -/
def regLoad (s : State) (p : Fin 32) (o n : Nat) : Nat :=
  match regAt s p o with
  | some (_, v) => v % 2 ^ (8 * n)
  | none => match regAt s p (o - 4) with
    | some (true, v) => if o % 8 = 4 then v / 2 ^ 32 else 0
    | _ => 0

def execRegisterWrite (who : Master) (addr : Pa) (wide : Bool) (value : BitVec 64) (s : State) :
    Host.Outcome State Fault Refusal :=
  doneIf (masterRuns s who && addrClass addr.toNat = .reg) s
    (regStore who addr.toNat (if wide then 8 else 4) value.toNat)
def execAplicWrite (who : Master) (off : BitVec 20) (value : BitVec 32) (s : State) : Host.Outcome State Fault Refusal :=
  doneIf (masterRuns s who) s (regStore who (regBase + 0xC000000 + off.toNat) 4 value.toNat)

end Sys2Proof.Machine
end

