-- ==== Sys2Proof/Machine/Translate.lean ====
section
/-! DEFINITION. From an address of an instruction to the physical parts of its access (spec/05, R101, R102): PMP, the page
tables of satp, vsatp and hgatp, and the checks that each part must pass. What the manual takes from the RISC-V privileged
specification by name is PRESUMED (log 15). No translation is kept: every access walks the tables in memory. -/
namespace Sys2Proof.Machine

def coreFid (n : Fin 48) : Fid := fidMk 1 n
def Priv.virt : Priv → Bool | .vs => true | .vu => true | _ => false

/-! ### PMP (Table 5.1; log 15) -/

/-- The range of a PMP entry, 4 KiB granules: TOR or NAPOT; none where it is off. -/
def pmpRange (c : Core) (i : Fin 16) : Option (Nat × Nat) :=
  let a := (vget c.pmpaddr i).toNat
  let mode := fld (vget c.pmpcfg i).toNat 3 2
  if mode = 1 then
    let lo := if h : 0 < i.val then (vget c.pmpaddr ⟨i.val - 1, by omega⟩).toNat else 0
    some (lo / 1024 * 4096, a / 1024 * 4096)
  else if mode = 3 then
    let a := a ||| 0x1FF
    let k := ((List.range 54).find? fun b => !bitOf a b).getD 54
    some (a / 2 ^ (k + 1) * 2 ^ (k + 1) * 4, (a / 2 ^ (k + 1) + 1) * 2 ^ (k + 1) * 4)
  else none
/-- The mode an access is made in: with MPRV, a load or store of M-mode takes MPP's. -/
def accPriv (c : Core) (k : AccKind) : Priv :=
  if c.priv = .m && k ≠ .fetch && c.status.getLsbD 17 then
    (match fld c.status.toNat 11 2, c.status.getLsbD 39 with
     | 3, _ => .m | 1, false => .hs | 1, true => .vs | _, true => .vu | _, false => .u)
  else c.priv
/-- PMP lets an access made in a mode pass: the lowest entry that matches a byte covers all of it and permits it; none
matching, only M-mode passes. -/
def pmpPass (c : Core) (p : Priv) (k : AccKind) (a n : Nat) : Bool :=
  match (List.finRange 16).findSome? fun (i : Fin 16) => match pmpRange c i with
      | some r => if a < r.2 ∧ r.1 < a + n then some (i, r) else none
      | none => none with
  | none => p = .m
  | some (i, r) =>
    let g := vget c.pmpcfg i
    let whole := decide (r.1 ≤ a) && decide (a + n ≤ r.2)
    whole && ((p = .m && !g.getLsbD 7) || (match k with
      | .load => g.getLsbD 0 | .store => g.getLsbD 1 | .fetch => g.getLsbD 2))
/-- The same for an access of the core as its mode stands. -/
def pmpOk (c : Core) (k : AccKind) (a n : Nat) : Bool := pmpPass c (accPriv c k) k a n

/-! ### Why an access is not performed -/

inductive Stop
  /-- R91: a region entry under reload holds it. -/
  | held
  | page
  /-- A guest-page fault, with the guest physical address. -/
  | guest (gpa : Nat)
  /-- An access fault: of PMP or of an address above bit 43 (`none`, R102), or refused (R74, recorded with WRITE and CAUSE). -/
  | access (rec_ : Option (Bool × BitVec 3)) (a : Nat)
  | poison
deriving DecidableEq, Repr

/-! ### Page tables (Table 5.1: Sv39, Sv48, Sv39x4, Sv48x4) -/

/-- The level of the root table by MODE; none is Bare. -/
def rootLevel (atp : BitVec 64) : Option Nat :=
  match fld atp.toNat 60 4 with | 8 => some 2 | 9 => some 3 | _ => none
/-- A leaf: one of R, W, X is set. -/
def pteLeaf (e : Nat) : Bool := fld e 1 3 ≠ 0
/-- Valid, with no reserved bit or encoding; a pointer to the next table has D, A, U, PBMT and N clear. -/
def pteOk (e : Nat) : Bool :=
  bitOf e 0 && fld e 54 7 = 0 && (bitOf e 1 || !bitOf e 2) &&
  (if pteLeaf e then fld e 61 2 ≠ 3 else fld e 61 3 = 0 && !bitOf e 4 && !bitOf e 6 && !bitOf e 7)
/-- Pages that a leaf maps: 512 per level, 16 with N (Svnapot). -/
def leafPages (e lvl : Nat) : Nat := if bitOf e 63 then 16 else 2 ^ (9 * lvl)
def leafPa (e lvl va : Nat) : Nat :=
  let m := leafPages e lvl
  (fld e 10 44 / m * m + va / 4096 % m) * 4096 + va % 4096
/-- A leaf permits an access: aligned, A set and for a store D (the hardware never sets them, Table 5.1), the kind, and
the user bit; SUM lets a supervisor's data access through. -/
def leafOk (k : AccKind) (user sum mxr : Bool) (e lvl : Nat) : Bool :=
  (if bitOf e 63 then lvl = 0 && fld e 10 4 = 8 else fld e 10 44 % 2 ^ (9 * lvl) = 0) &&
  bitOf e 6 && (k ≠ .store || bitOf e 7) &&
  (match k with | .load => bitOf e 1 || (mxr && bitOf e 3) | .store => bitOf e 2 | .fetch => bitOf e 3) &&
  (if bitOf e 4 then user || (sum && k ≠ .fetch) else !user)
/-- A walk from a table down to the leaf that maps an address; `ix` gives the index at each level. -/
def walk (rd : Nat → Except Stop Nat) (ix : Nat → Nat) (bad : Stop) : Nat → Nat → Except Stop (Nat × Nat)
  | lvl, base =>
    match rd (base + 8 * ix lvl) with
    | .error x => .error x
    | .ok e =>
      if !pteOk e then .error bad
      else if pteLeaf e then .ok (e, lvl)
      else match lvl with
        | 0 => .error bad
        | l + 1 => walk rd ix bad l (fld e 10 44 * 4096)
/-- One page-table entry read from memory, with the checks of an access of the core's partition in S-mode (R102). A table
that does not lie in DRAM takes an access fault. -/
def pteRead (s : State) (n : Fin 48) (p : Fin 32) (a : Nat) : Except Stop Nat :=
  if 2 ^ 44 ≤ a ∨ !pmpPass (vget s.cores n) .hs .load a 8 then .error (.access none a)
  else if ratHeld s p a 8 then .error .held
  else match ratCheck s p a .load .plain with
    | some c => .error (.access (some (false, c)) a)
    | none =>
      if !isDram s a then .error (.access none a) else if poisoned s a 8 then .error .poison else .ok (rdLe s a 8)
/-- PBMT of a leaf. -/
def leafPbmt (e : Nat) : Pbmt := match fld e 61 2 with | 1 => .nc | 2 => .io | _ => .pma
/-- The G-stage of hgatp: a guest physical address to a physical one. Its root table has four pages, and every access
counts as one of U-mode. -/
def gStage (s : State) (n : Fin 48) (p : Fin 32) (k : AccKind) (gpa : Nat) : Except Stop (Nat × Pbmt) :=
  let c := vget s.cores n
  match rootLevel c.hgatp with
  | none => .ok (gpa, .pma)
  | some top =>
    if 2 ^ (23 + 9 * top) ≤ gpa then .error (.guest gpa) else
    match walk (pteRead s n p) (fun l => gpa / 2 ^ (12 + 9 * l) % (if l = top then 2048 else 512)) (.guest gpa) top
        (fld c.hgatp.toNat 0 44 / 4 * 4 * 4096) with
    | .error x => .error x
    | .ok (e, l) =>
      if leafOk k true false (c.status.getLsbD 19) e l then .ok (leafPa e l gpa, leafPbmt e) else .error (.guest gpa)
/-- One stage of satp or vsatp: the upper bits of the address equal the sign bit, and a leaf permits the access. -/
def vStage (atp : BitVec 64) (rd : Nat → Except Stop Nat) (user sum mxr : Bool) (k : AccKind) (va : Nat) :
    Except Stop (Nat × Pbmt) :=
  match rootLevel atp with
  | none => .ok (va, .pma)
  | some top =>
    let hi := va / 2 ^ (20 + 9 * top)
    if hi ≠ 0 && hi ≠ 2 ^ (44 - 9 * top) - 1 then .error .page else
    match walk rd (fun l => va / 2 ^ (12 + 9 * l) % 512) .page top (fld atp.toNat 0 44 * 4096) with
    | .error x => .error x
    | .ok (e, l) => if leafOk k user sum mxr e l then .ok (leafPa e l va, leafPbmt e) else .error .page
/-- The translation of an address as the mode of the access asks: none in M-mode, satp's in HS-mode and U-mode, vsatp's
and then hgatp's in VS-mode and VU-mode, where a page type of the first stage overrides the second's. -/
def xlate (s : State) (n : Fin 48) (p : Fin 32) (k : AccKind) (va : Nat) : Except Stop (Nat × Pbmt) :=
  let c := vget s.cores n
  match accPriv c k with
  | .m => .ok (va, .pma)
  | .hs => vStage c.satp (pteRead s n p) false (c.status.getLsbD 18) (c.status.getLsbD 19) k va
  | .u => vStage c.satp (pteRead s n p) true false (c.status.getLsbD 19) k va
  | v =>
    let rd := fun a => match gStage s n p .load a with | .error x => .error x | .ok q => pteRead s n p q.1
    match vStage c.vsatp rd (v = .vu) (c.vsstatus.getLsbD 18) (c.vsstatus.getLsbD 19 || c.status.getLsbD 19) k va with
    | .error x => .error x
    | .ok q => match gStage s n p k q.1 with
      | .error x => .error x
      | .ok g => .ok (g.1, if q.2 = .pma then g.2 else q.2)

/-! ### The checks of one part (R74, R76, R86, R88, R93, R103, R142) -/

/-- Device-type access: the stronger of the region's TYPE and the page's (R103); other spaces carry TYPE 2 (R86). -/
def devType (s : State) (a : Nat) (pb : Pbmt) : Bool :=
  pb = .io || (match addrClass a with
    | .ddr | .stack _ | .pcie _ => (match ratFind s a with | some e => e.type = 2 | none => false)
    | _ => true)
/-- Cacheable: TYPE 0 coherent memory through an ordinary page. -/
def cacheable (s : State) (a : Nat) (pb : Pbmt) : Bool :=
  pb = .pma && isDram s a && (match ratFind s a with | some e => e.type = 0 | none => false)
/-- EWA 0 regions acknowledge late (R89); the fixed attributes have EWA 0. -/
def lateAck (s : State) (a : Nat) : Bool :=
  match addrClass a with
  | .ddr | .stack _ | .pcie _ => (match ratFind s a with | some e => !e.attr.getLsbD 2 | none => false)
  | _ => true
/-- What refuses an access of n bytes at a physical address; `mis` says that the whole access is misaligned. A fetch
from a page of type IO is refused as one from a TYPE 2 region is (R88, R103). -/
def coreErr (s : State) (c : Fin 48) (p : Fin 32) (k : AccKind) (pb : Pbmt) (a n : Nat) (mis : Bool) : Option (BitVec 3) :=
  let cut := if k = .fetch && pb = .io then some 2 else if mis && devType s a pb then some 7 else none
  match addrClass a with
  | .ddr | .stack _ | .pcie _ => match ratCheck s p a k .plain with | some e => some e | none => cut
  | .host t => if !belongs s p (fidMk 2 t) then some 5 else if k = .fetch then some 2 else cut
  | .peat t => if !belongs s p (fidMk 4 t) then some 5 else if k = .fetch then some 2 else cut
  | .reg => match regPage s (.core c) a (k = .store) with
    | some e => some e
    | none => if k = .fetch then some 2 else if mis then some 7
      else if regFormOk s p (a - regBase) n (k = .store) then none else some 7
  | .reserved => some 4
/-- A part of an access that lies in one page. -/
structure Piece where
  va : BitVec 64
  pa : Nat
  len : Nat
  pb : Pbmt
deriving DecidableEq, Repr
/-- The shares of an access of at most a page in the pages it touches. -/
def pageParts (ad : BitVec 64) (len : Nat) : List (BitVec 64 × Nat) :=
  let k := 4096 - ad.toNat % 4096
  if len ≤ k then [(ad, len)] else [(ad, k), (ad + BitVec.ofNat 64 k, len - k)]
/-- One part, translated and checked. -/
def corePart (s : State) (n : Fin 48) (p : Fin 32) (k : AccKind) (mis : Bool) (va : BitVec 64) (len : Nat) :
    Except Stop Piece :=
  match xlate s n p k va.toNat with
  | .error x => .error x
  | .ok (pa, pb) =>
    if 2 ^ 44 ≤ pa ∨ !pmpOk (vget s.cores n) k pa len then .error (.access none pa)
    else if ratHeld s p pa len then .error .held
    else match coreErr s n p k pb pa len mis with
      | some e => .error (.access (some (k = .store, e)) pa)
      | none => .ok { va := va, pa := pa, len := len, pb := pb }
def spanParts (s : State) (n : Fin 48) (p : Fin 32) (k : AccKind) (mis : Bool) :
    List (BitVec 64 × Nat) → Except (BitVec 64 × Stop) (List Piece)
  | [] => .ok []
  | (va, len) :: r =>
    match corePart s n p k mis va len with
    | .error x => .error (va, x)
    | .ok q => match spanParts s n p k mis r with
      | .error x => .error x
      | .ok qs => .ok (q :: qs)
/-- The whole access: its parts in ascending order, or the first one that is not performed and why. -/
def coreSpan (s : State) (n : Fin 48) (k : AccKind) (ad : BitVec 64) (len : Nat) :
    Except (BitVec 64 × Stop) (List Piece) :=
  match partOf s (coreFid n) with
  | none => .error (ad, .access (some (k = .store, 0)) ad.toNat)
  | some p => spanParts s n p k (ad.toNat % len ≠ 0) (pageParts ad len)

end Sys2Proof.Machine
end

