-- ==== Sys2Proof/Machine/Cores.lean ====
section
/-! DEFINITION. The application cores (spec/04, 4.4 to 4.6; spec/05): accesses and the exceptions they take, atomics,
barriers, cache-block operations, vectors, counters, timers and interrupts. What the manual takes from the RISC-V
specifications by name is marked log 15. -/
namespace Sys2Proof.Machine

/-! ### Privilege, traps and registers (R101, R104, R110; log 15) -/

/-- Encoding of a mode in MPP and SPP, V apart. -/
def Priv.code : Priv → Nat | .m => 3 | .hs => 1 | .vs => 1 | .u => 0 | .vu => 0
def setBits (w : BitVec 64) (mask v : Nat) : BitVec 64 := (w &&& ~~~BitVec.ofNat 64 mask) ||| BitVec.ofNat 64 v
/-- Where a trap goes: the vector's base, for an interrupt in vectored mode plus four times its code. -/
def vecTarget (tvec : BitVec 64) (code : Nat) (intr : Bool) : BitVec 64 :=
  let base := tvec &&& ~~~3#64
  if intr && tvec.getLsbD 0 then base + BitVec.ofNat 64 (4 * code) else base
def causeWord (code : Nat) (intr : Bool) : BitVec 64 := BitVec.ofNat 64 (code + if intr then 2 ^ 63 else 0)
/-- xstatus of a supervisor trap: SPIE takes SIE, SIE 0, SPP the mode left. -/
def sTrap (st : BitVec 64) (p : Priv) : BitVec 64 :=
  setBits st 0x122 (b2n (st.getLsbD 1) * 0x20 + (if p.code = 1 then 0x100 else 0))
/-- What a trap reports: its code, the value for xtval, the guest physical address of a guest-page fault, and whether
the value is a guest virtual address. -/
structure Trap where
  code : Nat
  tval : BitVec 64 := 0
  gpa : Nat := 0
  gva : Bool := false
deriving DecidableEq, Repr
/-- A trap into M-mode, HS-mode or VS-mode: the saved pc, cause and values, the status and the mode, the handler. -/
def trapInto (mode : Priv) (t : Trap) (intr : Bool) (pc : BitVec 64) (c : Core) : Core :=
  match mode with
  | .m => { c with
      epc := pc, cause := causeWord t.code intr, tval := t.tval, priv := .m, pc := vecTarget c.tvec t.code intr,
      mtval2 := BitVec.ofNat 64 (t.gpa / 4),
      status := setBits c.status (0x1888 + 2 ^ 38 + 2 ^ 39)
        (b2n (c.status.getLsbD 3) * 0x80 + c.priv.code * 0x800 + b2n t.gva * 2 ^ 38 + b2n c.priv.virt * 2 ^ 39) }
  | .vs => { c with
      vsepc := pc, vscause := causeWord t.code intr, vstval := t.tval, priv := .vs, pc := vecTarget c.vstvec t.code intr,
      vsstatus := sTrap c.vsstatus c.priv }
  | _ => { c with
      sepc := pc, scause := causeWord t.code intr, stval := t.tval, priv := .hs, pc := vecTarget c.stvec t.code intr,
      htval := BitVec.ofNat 64 (t.gpa / 4),
      status := sTrap c.status c.priv,
      hstatus := setBits c.hstatus 0x1C0 (b2n t.gva * 0x40 + b2n c.priv.virt * 0x80 +
        (if c.priv.virt then (if c.priv.code = 1 then 0x100 else 0) else c.hstatus.toNat &&& 0x100)) }
/-- The mode that takes an exception (medeleg, hedeleg); guest-page faults never go to VS-mode. -/
def excMode (c : Core) (code : Nat) : Priv :=
  if c.priv = .m || !c.medeleg.getLsbD code then .m
  else if c.priv.virt && c.hedeleg.getLsbD code && decide (code < 20) then .vs else .hs
/-- A core takes an exception. -/
def takeExc (n : Fin 48) (t : Trap) (pc : BitVec 64) (s : State) : State :=
  s.modCore n fun c => trapInto (excMode c t.code) t false pc c
/-- x0 discards writes. -/
def setX (n : Fin 48) (rd : Fin 32) (v : BitVec 64) (s : State) : State :=
  if rd = 0 then s else s.modCore n fun c => { c with x := vset c.x rd v }
/-- The address of the instruction that a core performs. -/
def atPc (n : Fin 48) (pc : BitVec 64) (s : State) : State := s.modCore n fun c => { c with pc := pc }

/-! ### Counters (R115; log 15) -/

/-- A counter's event, and its mode not inhibited (Sscofpmf). -/
def counts (c : Core) (i : Fin 29) (ev : Nat) : Bool :=
  let e := vget c.hpmEvent i
  decide (e.toNat % 65536 = ev) &&
  !e.getLsbD (match c.priv with | .m => 62 | .hs => 61 | .u => 60 | .vs => 59 | .vu => 58)
/-- `k` occurrences of an event: a counter that wraps sets OF and, where OF was 0, raises code 13. -/
def tally (ev k : Nat) (c : Core) : Core :=
  (List.finRange 29).foldl (fun c i =>
    if counts c i ev then
      let v := (vget c.hpm i).toNat + k
      let c := { c with hpm := vset c.hpm i (BitVec.ofNat 64 v) }
      if v < 2 ^ 64 then c else
        let e := vget c.hpmEvent i
        { c with hpmEvent := vset c.hpmEvent i (e ||| BitVec.ofNat 64 (2 ^ 63)),
                 mip := if e.getLsbD 63 then c.mip else c.mip ||| 0x2000 }
    else c) c
/-- An instruction retires: minstret and the counters of event 1. -/
def Core.retired (c : Core) : Core := tally 1 1 { c with minstret := c.minstret + 1 }
def retireAt (n : Fin 48) (s : State) : State := s.modCore n Core.retired

/-! ### One access of a core (R74, R86, R88, R93, R102, R103, R142) -/

/-- The exception of an access that is not performed; `k` names the kind of the instruction's access. -/
def stopTrap (c : Core) (k : AccKind) (va : BitVec 64) (x : Stop) : Trap :=
  let i := match k with | .fetch => 0 | .load => 1 | .store => 3
  { code := (match x with | .page => 12 + i | .guest _ => 20 + i | _ => if k = .fetch then 1 else if k = .load then 5 else 7),
    tval := va, gpa := (match x with | .guest g => g | _ => 0), gva := (accPriv c k).virt }
/-- What such an access leaves behind: the record of R90, POISON, or a command that waits (R91). -/
def stopEffect (n : Fin 48) (x : Stop) (s : State) : State :=
  match x with
  | .held => holdAccess s
  | .access (some (w, c)) a => accessError (coreFid n) w c a s
  | .poison => poisonHit (coreFid n) s
  | _ => s
/-- The channel or stack whose ECC covers an address (R80, R81). -/
def eccFid (a : Nat) : Option Fid :=
  match addrClass a with
  | .ddr => some (fidMk 14 (a / 256 % 8))
  | .stack k => some (fidMk 4 k)
  | _ => none
/-- The ECC outcome of a line read from DRAM: corrected, or poisoned (R80, R81, R376). -/
def eccRead (e : Ecc) (a : Nat) (s : State) : State :=
  match eccFid a, e with
  | some f, .corrected => raiseCorr f s
  | some f, .uncorrectable => raiseCause f 3 { s with poison := insertNat (a / 64) s.poison }
  | _, _ => s
def coreUnit (n : Fin 48) (p : Fin 32) : Unit_ := { fid := coreFid n, part := p, side := .plain, core := true }
/-- The bytes of one part, its checks passed; X alone permits a fetch (Table 4.4, R88). -/
def partRead (n : Fin 48) (p : Fin 32) (k : AccKind) (q : Piece) (s : State) : AccRes × Nat × State :=
  match addrClass q.pa with
  | .reg => (.ok (natLe q.len (regLoad s p (q.pa - regBase) q.len)), 0, s)
  | .ddr | .stack _ => if poisoned s q.pa q.len then (.poison, q.pa, s) else (.ok (rdBytes s q.pa q.len), 0, s)
  | .pcie r =>
    if (vget s.rports r).up then let b := pcieBytes q.len s; (.ok b.1, 0, b.2) else (.err 4, q.pa, s)
  | _ => if k = .fetch then (.err 2, q.pa, s) else rangeRead (coreUnit n p) q.pa q.len s
/-- The bytes of the parts, in ascending order; the first that fails ends it. -/
def partsRead (n : Fin 48) (p : Fin 32) (k : AccKind) : List Piece → State → Except (Piece × AccRes × Nat) (List Byte) × State
  | [], s => (.ok [], s)
  | q :: qs, s =>
    match partRead n p k q s with
    | (.ok d, _, s) => match partsRead n p k qs s with
      | (.ok e, s) => (.ok (d ++ e), s)
      | (x, s) => (x, s)
    | (r, a, s) => (.error (q, r, a), s)
/-- A read by a core: the bytes, or the exception that it takes. -/
def coreRead (n : Fin 48) (k : AccKind) (ad : BitVec 64) (len : Nat) (s : State) : Except Trap (List Byte) × State :=
  let c := vget s.cores n
  match coreSpan s n k ad len, partOf s (coreFid n) with
  | .error (va, x), _ => (.error (stopTrap c k va x), stopEffect n x s)
  | _, none => (.ok [], s)
  | .ok ps, some p => match partsRead n p k ps s with
    | (.ok d, s) => (.ok d, s)
    | (.error (q, r, a), s) => (.error (stopTrap c k q.va .poison), failAccess (coreUnit n p) false r a s)
/-- The caches after a core's store: its lines are dirty there and nowhere else (R82, R118). -/
def ownLines (n : Fin 48) (a len : Nat) (s : State) : State :=
  { s with cores := Vector.ofFn fun i =>
      let c := vget s.cores i
      { c with dirty := if i = n then insertNat (a / 64) (insertNat ((a + len - 1) / 64) c.dirty)
                        else c.dirty.filter fun l => !lineIn a len l } }
/-- One part written, and what it leaves in the caches and among the writes not yet acknowledged. -/
def partWrite (n : Fin 48) (p : Fin 32) (q : Piece) (bs : List Byte) (s : State) : AccRes × Nat × State :=
  let late := lateAck s q.pa
  let own := cacheable s q.pa q.pb
  let r := if addrClass q.pa = .reg then (.ok [], 0, regStore (.core n) q.pa bs.length (leNat bs) s)
    else rangeWrite (coreUnit n p) q.pa bs s
  match r with
  | (.ok _, _, s) =>
    let s := if own then ownLines n q.pa bs.length s else s
    (.ok [], 0, if late then s.modCore n fun c => { c with unacked := insertNat q.pa c.unacked } else s)
  | r => r
def partsWrite (n : Fin 48) (p : Fin 32) : List Piece → List Byte → State → Option (Piece × AccRes × Nat) × State
  | [], _, s => (none, s)
  | q :: qs, bs, s =>
    match partWrite n p q (bs.take q.len) s with
    | (.ok _, _, s) => partsWrite n p qs (bs.drop q.len) s
    | (r, a, s) => (some (q, r, a), s)
/-- A write by a core: the exception that it takes, or none. Every part is checked before the first is written, so a
refused access has written nothing (R74). -/
def coreWrite (n : Fin 48) (ad : BitVec 64) (bs : List Byte) (s : State) : Option Trap × State :=
  let c := vget s.cores n
  match coreSpan s n .store ad bs.length, partOf s (coreFid n) with
  | .error (va, x), _ => (some (stopTrap c .store va x), stopEffect n x s)
  | _, none => (none, s)
  | .ok ps, some p => match partsWrite n p ps bs s with
    | (none, s) => (none, s)
    | (some (q, r, a), s) => (some (stopTrap c .store q.va .poison), failAccess (coreUnit n p) true r a s)

/-! ### LOAD_STORE and AMO_LR_SC (R93, R98) -/

def signTo64 (n v : Nat) : BitVec 64 := BitVec.ofInt 64 (BitVec.ofNat (8 * n) v).toInt
/-- The value a load leaves in its register: extended, or boxed in a floating-point register. -/
def loadValue (acc : MemAcc) (bs : List Byte) : BitVec 64 :=
  let v := leNat bs
  let n := bs.length
  if acc.fp then BitVec.ofNat 64 (v + (2 ^ 64 - 2 ^ (8 * n)))
  else if acc.signed then signTo64 n v else BitVec.ofNat 64 v
/-- The ECC outcome of the line that a permitted read begins in. -/
def eccAt (n : Fin 48) (k : AccKind) (ad : BitVec 64) (len : Nat) (e : Ecc) (s : State) : State :=
  match coreSpan s n k ad len with
  | .ok (q :: _) => eccRead e q.pa s
  | _ => s
/-- A load, store or fetch; a fetch retires nothing by itself. -/
def loadStore (n : Fin 48) (acc : MemAcc) (ecc : Ecc) (s : State) : State :=
  let len := 2 ^ acc.size.toNat
  let s := atPc n acc.pc s
  match acc.kind with
  | .store =>
    match coreWrite n acc.addr (natLe len acc.data.toNat) s with
    | (none, s) => retireAt n s
    | (some t, s) => takeExc n t acc.pc s
  | k =>
    match coreRead n k acc.addr len (eccAt n k acc.addr len ecc s) with
    | (.error t, s) => takeExc n t acc.pc s
    | (.ok bs, s) =>
      if k = .fetch then s
      else retireAt n (if acc.fp then s.modCore n fun c => { c with f := vset c.f acc.rd (loadValue acc bs) }
        else setX n acc.rd (loadValue acc bs) s)
def execLoadStore (n : Fin 48) (acc : MemAcc) (ecc : Ecc) (s : State) : Host.Outcome State Fault Refusal :=
  doneIf (coreRuns s n) s (loadStore n acc ecc)

/-- What an AMO stores, at its width. -/
def amoValue (op : AmoOp) (w : Nat) (old src : Nat) : Nat :=
  let a := BitVec.ofNat w old
  let b := BitVec.ofNat w src
  match op with
  | .add => (a + b).toNat
  | .xor => (a ^^^ b).toNat
  | .and => (a &&& b).toNat
  | .or => (a ||| b).toNat
  | .min => if a.slt b then a.toNat else b.toNat
  | .max => if a.slt b then b.toNat else a.toNat
  | .minu => (bvMin a b).toNat
  | .maxu => (bvMax a b).toNat
  | _ => b.toNat
/-- An AMO: its read and its write are one indivisible access, permitted as a write is (R93, Table 4.4). -/
def amo (n : Fin 48) (pc : BitVec 64) (op : AmoOp) (ad : BitVec 64) (len : Nat) (rs2 : BitVec 64) (rd : Fin 32)
    (s : State) : State :=
  let c := vget s.cores n
  match coreSpan s n .store ad len, partOf s (coreFid n) with
  | .error (va, x), _ => takeExc n (stopTrap c .store va x) pc (stopEffect n x s)
  | _, none => s
  | .ok ps, some p =>
    if ps.any fun q => !pmpOk c .load q.pa q.len then takeExc n (stopTrap c .store ad .poison) pc s else
    match partsRead n p .load ps s with
    | (.error (q, r, a), s) => takeExc n (stopTrap c .store q.va .poison) pc (failAccess (coreUnit n p) true r a s)
    | (.ok d, s) =>
      match coreWrite n ad (natLe len (amoValue op (8 * len) (leNat d) rs2.toNat)) s with
      | (none, s) => retireAt n (setX n rd (signTo64 len (leNat d)) s)
      | (some t, s) => takeExc n t pc s
/-- LR and SC keep and compare the physical address (R98, log 15). -/
def amoLrSc (n : Fin 48) (pc : BitVec 64) (op : AmoOp) (ad : BitVec 64) (dbl : Bool) (rs2 : BitVec 64)
    (rd : Fin 32) (s : State) : State :=
  let len := if dbl then 8 else 4
  let s := atPc n pc s
  let c := vget s.cores n
  if ad.toNat % len ≠ 0 then
    takeExc n { code := if op = .lr then 4 else 6, tval := ad, gva := (accPriv c .load).virt } pc s else
  match op with
  | .lr =>
    match coreSpan s n .load ad len, coreRead n .load ad len s with
    | .ok (q :: _), (.ok bs, s) =>
      retireAt n ((setX n rd (signTo64 len (leNat bs)) s).modCore n fun c => { c with resv := some (q.pa, dbl) })
    | _, (.error t, s) => takeExc n t pc s
    | _, (_, s) => s
  | .sc =>
    match coreSpan s n .store ad len with
    | .error (va, x) => takeExc n (stopTrap c .store va x) pc (stopEffect n x s)
    | .ok ps =>
      let held := ps.any fun q => decide (c.resv = some (q.pa, dbl))
      let s := s.modCore n fun c => { c with resv := none }
      if held then
        match coreWrite n ad (natLe len rs2.toNat) s with
        | (none, s) => retireAt n (setX n rd 0 s)
        | (some t, s) => takeExc n t pc s
      else retireAt n (setX n rd 1 s)
  | op => amo n pc op ad len rs2 rd s
/-- The aq and rl bits order; every command here is whole and in order, so they add nothing (R98). -/
def execAmoLrSc (n : Fin 48) (pc : BitVec 64) (op : AmoOp) (addr : BitVec 64) (dbl : Bool) (rs2 : BitVec 64)
    (rd : Fin 32) (_aq _rl : Bool) (s : State) : Host.Outcome State Fault Refusal :=
  doneIf (coreRuns s n) s (amoLrSc n pc op addr dbl rs2 rd)

/-! ### Barriers and cache blocks (R97, R99) -/

/-- The full barrier: every earlier write of the core is acknowledged (R97). -/
def fullBarrier (n : Fin 48) (s : State) : State := retireAt n (s.modCore n fun c => { c with unacked := [] })
def execFence (n : Fin 48) (_pred _succ : BitVec 4) (_tso : Bool) (s : State) : Host.Outcome State Fault Refusal :=
  doneIf (coreRuns s n) s (fullBarrier n)
/-- Memory is one, so a fetch already observes every earlier store. -/
def execFenceI (n : Fin 48) (s : State) : Host.Outcome State Fault Refusal :=
  doneIf (coreRuns s n) s (fullBarrier n)
/-- The full barrier; its wait ends at once (log 15). -/
def execPause (n : Fin 48) (s : State) : Host.Outcome State Fault Refusal :=
  doneIf (coreRuns s n) s (fullBarrier n)
/-- The checks of a cache-block operation: a line readable or writable by the core's partition. -/
def cboErr (s : State) (n : Fin 48) (p : Fin 32) (a : Nat) : Option (BitVec 3) :=
  match addrClass a with
  | .ddr | .stack _ | .pcie _ =>
    if (ratCheck s p a .load .plain).isNone then none else ratCheck s p a .store .plain
  | .host t => if belongs s p (fidMk 2 t) then none else some 5
  | .peat t => if belongs s p (fidMk 4 t) then none else some 5
  | .reg => regPage s (.core n) a false
  | .reserved => some 4
/-- The physical line of a cache-block operation, or why it is not performed: translated as a load or else as a store is,
and its faults are a store's. -/
def cboLine (s : State) (n : Fin 48) (ad : BitVec 64) : Except Stop Nat :=
  let c := vget s.cores n
  match partOf s (coreFid n) with
  | none => .error (.access (some (true, 0)) ad.toNat)
  | some p =>
    match (match xlate s n p .load ad.toNat with | .ok q => Except.ok q | .error _ => xlate s n p .store ad.toNat) with
    | .error x => .error x
    | .ok (pa, _) =>
      let a := pa / 64 * 64
      if 2 ^ 44 ≤ pa ∨ !(pmpOk c .load a 64 || pmpOk c .store a 64) then .error (.access none a)
      else if ratHeld s p a 64 then .error .held
      else match cboErr s n p a with
        | some e => .error (.access (some (true, e)) a)
        | none => .ok a
/-- CBO.CLEAN and CBO.FLUSH: the line is dirty nowhere, its write back not yet acknowledged (R99). -/
def cboClean (n : Fin 48) (pc ad : BitVec 64) (s : State) : State :=
  let s := atPc n pc s
  match cboLine s n ad with
  | .error x => takeExc n (stopTrap (vget s.cores n) .store ad x) pc (stopEffect n x s)
  | .ok a =>
    let dirty := s.cores.toList.any fun c => c.dirty.contains (a / 64)
    let late := dirty && lateAck s a
    let s := { s with cores := recallLines s.cores a 64 }
    retireAt n (if late then s.modCore n fun c => { c with unacked := insertNat a c.unacked } else s)
def execCboClean (n : Fin 48) (pc addr : BitVec 64) (s : State) : Host.Outcome State Fault Refusal :=
  doneIf (coreRuns s n) s (cboClean n pc addr)
/-- The caches hold no data of their own in the model, so invalidating after the write back changes nothing more. -/
def execCboFlush (n : Fin 48) (pc addr : BitVec 64) (s : State) : Host.Outcome State Fault Refusal :=
  doneIf (coreRuns s n) s (cboClean n pc addr)
/-- CBO.INVAL of a TYPE 0 line is a flush; of another, no cache holds the line (R99). -/
def execCboInval (n : Fin 48) (pc addr : BitVec 64) (s : State) : Host.Outcome State Fault Refusal :=
  doneIf (coreRuns s n) s (cboClean n pc addr)

/-! ### Vectors (R111 to R114) -/

/-- An element of a vector register replaced. -/
def putElem (v : BitVec 256) (size : BitVec 2) (elem : Nat) (x : Nat) : BitVec 256 :=
  let w := 8 * 2 ^ size.toNat
  let lo := elem * w % 256
  let m := BitVec.ofNat 256 ((2 ^ w - 1) * 2 ^ lo)
  (v &&& ~~~m) ||| (BitVec.ofNat 256 (x % 2 ^ w * 2 ^ lo) &&& m)
/-- One element access, and the exception it takes. Register space takes no vector access (R76). -/
def vectorElem (n : Fin 48) (e : VElem) (s : State) : Option Trap × State :=
  let len := 2 ^ e.size.toNat
  let k := if e.store then AccKind.store else .load
  let reg : Bool := match coreSpan s n k e.addr len with
    | .ok (q :: _) => addrClass q.pa = .reg
    | _ => false
  if reg then
    let a := match coreSpan s n k e.addr len with | .ok (q :: _) => q.pa | _ => 0
    (some (stopTrap (vget s.cores n) k e.addr .poison), accessError (coreFid n) e.store 7 a s)
  else if e.store then coreWrite n e.addr (natLe len e.data.toNat) s
  else match coreRead n .load e.addr len s with
    | (.error t, s) => (some t, s)
    | (.ok bs, s) => (none, s.modCore n fun c => { c with
        v := vset c.v e.vd (putElem (vget c.v e.vd) e.size e.elem.toNat (leNat bs)) })
/-- The accesses of one element, or of one segment: all performed, or none of them and the exception of the first that
fails (R111). -/
def vectorSeg (n : Fin 48) (before : State) : List VElem → State → Option Trap × State
  | [], s => (none, s.modCore n (tally 10 1))
  | e :: es, s =>
    match vectorElem n e s with
    | (none, s) => vectorSeg n before es s
    | (some _, _) => vectorElem n e before
/-- The element accesses grouped by element or segment. -/
def segments (es : List VElem) : List (List VElem) := es.splitBy fun a b => a.idx = b.idx
def segIdx (g : List VElem) : Nat := match g with | e :: _ => e.idx.toNat | [] => 0
def setVstart (n : Fin 48) (i : Nat) (s : State) : State := s.modCore n fun c => { c with vstart := BitVec.ofNat 64 i }
/-- The segments in turn, up to an interruption before element `stop`: vstart keeps the first not performed. -/
def vectorRun (n : Fin 48) (pc : BitVec 64) (stop : Option Nat) : List (List VElem) → State → State
  | [], s => retireAt n (setVstart n 0 s)
  | g :: gs, s =>
    if stop.any (· ≤ segIdx g) then setVstart n (segIdx g) s
    else match vectorSeg n s g s with
      | (none, s) => vectorRun n pc stop gs s
      | (some t, s) => takeExc n t pc (setVstart n (segIdx g) s)
/-- Elements below vstart were performed before and are not performed again (R111, R112). -/
def execVectorLoadStore (n : Fin 48) (pc : BitVec 64) (elems : List VElem) (stopAt : Option Nat) (s : State) :
    Host.Outcome State Fault Refusal :=
  doneIf (coreRuns s n) s fun s =>
    vectorRun n pc stopAt (segments (elems.filter fun e => (vget s.cores n).vstart.toNat ≤ e.idx.toNat)) (atPc n pc s)
/-- What a vector instruction of R113 leaves: vector registers, a scalar or floating-point one, vl and vtype. -/
def putVResult (r : VResult) (c : Core) : Core :=
  let c := r.vregs.foldl (fun c q => { c with v := vset c.v q.1 q.2 }) c
  let c := match r.xd with | some (rd, v) => if rd = 0 then c else { c with x := vset c.x rd v } | none => c
  let c := match r.fd with | some (rd, v) => { c with f := vset c.f rd v } | none => c
  match r.setvl with | some (vl, vt) => { c with vl := vl.setWidth 64, vtype := vt } | none => c
/-- R113: never interrupted; with vstart not 0 an illegal instruction. The result comes from the core's vector unit. -/
def execVectorArithmetic (n : Fin 48) (pc : BitVec 64) (res : VResult) (s : State) : Host.Outcome State Fault Refusal :=
  doneIf (coreRuns s n) s fun s =>
    let s := atPc n pc s
    if (vget s.cores n).vstart ≠ 0 then takeExc n { code := 2 } pc s else retireAt n (s.modCore n (putVResult res))
/-- A fault-only-first load: element 0 traps, a later fault shortens vl to its index (R114). -/
def fofRun (n : Fin 48) (pc : BitVec 64) : List (List VElem) → State → State
  | [], s => retireAt n (setVstart n 0 s)
  | g :: gs, s =>
    match vectorSeg n s g s with
    | (none, s) => fofRun n pc gs s
    | (some t, s) =>
      if segIdx g = 0 then takeExc n t pc (setVstart n 0 s)
      else retireAt n ((setVstart n 0 s).modCore n fun c => { c with vl := BitVec.ofNat 64 (segIdx g) })
def execFaultOnlyFirstLoad (n : Fin 48) (pc : BitVec 64) (elems : List VElem) (s : State) :
    Host.Outcome State Fault Refusal :=
  doneIf (coreRuns s n) s fun s =>
    fofRun n pc (segments ((elems.filter fun e => (vget s.cores n).vstart.toNat ≤ e.idx.toNat).map
      fun e => { e with store := false })) (atPc n pc s)

/-! ### Time, timers and interrupts (R105, R106, R110, R115) -/

/-- The time CSR: bits [63:4] of installation time (R105). -/
def timeCsr (s : State) : BitVec 64 := s.time.it >>> 4
/-- MTIP exactly while time ≥ CLW_MTIMECMP (R106). -/
def mtip (s : State) (c : Core) : Bool := decide (c.mtimecmp ≤ timeCsr s)
def stip (s : State) (c : Core) : Bool := decide (c.stimecmp ≤ timeCsr s)
def vstip (s : State) (c : Core) : Bool := c.hvip.getLsbD 6 || decide (c.vstimecmp ≤ timeCsr s + c.htimedelta)
/-- An interrupt file has an enabled identity pending. -/
def ImsicFile.asserts (f : ImsicFile) : Bool := (f.pending &&& f.enable) ≠ 0
/-- mip as software reads it, with its external, timer and guest bits (R104 to R106; log 15). -/
def mipNow (s : State) (c : Core) : Nat :=
  let guest := fun (g : Nat) => if h : 1 ≤ g ∧ g ≤ 7 then (vget c.imsic ⟨g + 1, by omega⟩).asserts else false
  let vgein := fld c.hstatus.toNat 12 6
  2 ^ 1 * b2n (c.mip.getLsbD 1) + 2 ^ 2 * b2n (c.hvip.getLsbD 2) + 2 ^ 3 * b2n (c.mip.getLsbD 3) +
  2 ^ 5 * b2n (stip s c) + 2 ^ 6 * b2n (vstip s c) + 2 ^ 7 * b2n (mtip s c) +
  2 ^ 9 * b2n ((vget c.imsic 1).asserts || c.mip.getLsbD 9) +
  2 ^ 10 * b2n (c.hvip.getLsbD 10 || guest vgein) + 2 ^ 11 * b2n (vget c.imsic 0).asserts +
  2 ^ 12 * b2n ((List.range 8).any fun g => guest g && c.hgeie.getLsbD g) + 2 ^ 13 * b2n (c.mip.getLsbD 13)
/-- Interrupt codes in the order in which they are taken. -/
def intrOrder : List Nat := [11, 3, 7, 9, 1, 5, 12, 10, 2, 6, 13]
/-- The mode that an interrupt goes to; the VS-level ones and code 12 never stay in M-mode. -/
def intrMode (c : Core) (code : Nat) : Priv :=
  if code = 2 || code = 6 || code = 10 then (if c.hideleg.getLsbD code then .vs else .hs)
  else if code = 12 || c.mideleg.getLsbD code then .hs else .m
/-- Interrupts to a mode are enabled in the core's present mode. -/
def intrOn (c : Core) : Priv → Bool
  | .m => c.priv ≠ .m || c.status.getLsbD 3
  | .vs => c.priv = .vu || (c.priv = .vs && c.vsstatus.getLsbD 1)
  | _ => c.priv = .u || c.priv.virt || (c.priv = .hs && c.status.getLsbD 1)
/-- The interrupt that the core takes now: M-mode's before HS-mode's before VS-mode's. -/
def intrNow (s : State) (c : Core) : Option (Nat × Priv) :=
  let live := intrOrder.filter fun k => bitOf (mipNow s c) k && c.mie.getLsbD k
  [Priv.m, Priv.hs, Priv.vs].findSome? fun p =>
    if intrOn c p then (live.find? fun k => intrMode c k = p).map (·, p) else none
/-- A pending, enabled interrupt is taken; the saved pc is the instruction's that was not completed (R110). -/
def execInterruptTaken (n : Fin 48) (pc : BitVec 64) (s : State) : Host.Outcome State Fault Refusal :=
  match intrNow s (vget s.cores n) with
  | none => .next s
  | some (code, p) => doneIf (coreRuns s n) s fun s => s.modCore n fun c =>
      trapInto p { code := if p = .vs then code - 1 else code } true pc c
/-- CLW_MTIMECMP: an illegal instruction below M-mode (R106). -/
def execClwMtimecmpAccess (n : Fin 48) (pc : BitVec 64) (write : Option (BitVec 64)) (rd : Fin 32) (s : State) :
    Host.Outcome State Fault Refusal :=
  doneIf (coreRuns s n) s fun s =>
    let s := atPc n pc s
    let c := vget s.cores n
    if c.priv ≠ .m then takeExc n { code := 2 } pc s else
    let s := setX n rd c.mtimecmp s
    retireAt n (match write with
    | some v =>
      let s := s.modCore n fun c => { c with mtimecmp := v }
      s.modCore n fun c => { c with mip := setBits c.mip 0x80 (b2n (mtip s c) * 0x80) }
    | none => s)
/-- What a read of a counter, time or identity CSR returns, by its address (Table 5.1, R105, R106, R115); in VS-mode and
VU-mode time reads with htimedelta added (log 15). -/
def csrRead (s : State) (n : Fin 48) (ad : BitVec 12) : Option (BitVec 64) :=
  let c := vget s.cores n
  let k := ad.toNat
  if k = 0xC00 || k = 0xB00 then some c.mcycle
  else if k = 0xC01 then some (timeCsr s + if c.priv.virt then c.htimedelta else 0)
  else if k = 0xC02 || k = 0xB02 then some c.minstret
  else if h : (0xC03 ≤ k ∧ k < 0xC20) ∨ (0xB03 ≤ k ∧ k < 0xB20) then some (vget c.hpm ⟨k % 32 - 3, by omega⟩)
  else if h : 0x323 ≤ k ∧ k < 0x340 then some (vget c.hpmEvent ⟨k - 0x323, by omega⟩)
  else if k = 0xF11 then some 0
  else if k = 0xF12 then some 0x8000000000000009
  else if k = 0xF13 then some 0xB0
  else if k = 0xF14 then some (BitVec.ofNat 64 n.val)
  else if k = 0x7C0 then some c.mtimecmp
  else none
/-- The time CSR (R105). -/
def execTimeCsrRead (n : Fin 48) (rd : Fin 32) (s : State) : Host.Outcome State Fault Refusal :=
  doneIf (coreRuns s n) s fun s => retireAt n (setX n rd ((csrRead s n 0xC01).getD 0) s)
/-- Installation time reaches CLW_MTIMECMP: mip.MTIP becomes 1 (R106). -/
def execMachineTimer (n : Fin 48) (s : State) : Host.Outcome State Fault Refusal :=
  doneIf (s.island.mode = .full && mtip s (vget s.cores n)) s fun s =>
    s.modCore n fun c => { c with mip := setBits c.mip 0x80 0x80 }
/-- time reaches stimecmp, or time plus htimedelta vstimecmp (R105). -/
def execSupervisorTimer (n : Fin 48) (s : State) : Host.Outcome State Fault Refusal :=
  let c := vget s.cores n
  doneIf (s.island.mode = .full && (stip s c || vstip s c)) s fun s =>
    s.modCore n fun c => { c with
      mip := setBits c.mip 0x60 (b2n (stip s c) * 0x20 + b2n (vstip s c) * 0x40) }
/-- Counter 3 + i overflows: it selects a listed event, wraps, sets OF, and raises code 13 where OF was 0 (R115). -/
def execCounterOverflow (n : Fin 48) (i : Fin 29) (s : State) : Host.Outcome State Fault Refusal :=
  let ev := (vget (vget s.cores n).hpmEvent i).toNat
  doneIf (coreRuns s n && decide (1 ≤ ev % 65536) && decide (ev % 65536 ≤ 12)) s fun s => s.modCore n fun c => { c with
    hpm := vset c.hpm i 0, hpmEvent := vset c.hpmEvent i (BitVec.ofNat 64 ev ||| BitVec.ofNat 64 (2 ^ 63)),
    mip := if ev < 2 ^ 63 then c.mip ||| 0x2000 else c.mip }

/-! ### The patrol scrubber (R80, R81) -/

/-- The line that the scrubber reads after line `k`: the populated DDR5 lines, then those of the stacks, then the first. -/
def scrubNext (s : State) (k : Nat) : Nat :=
  let a := 64 * (k + 1)
  if a < s.island.ddrSize then k + 1
  else if a < stackBase 0 then stackBase 0 / 64
  else if a < 0x13000000000 then k + 1
  else 0
/-- The next populated line of DDR5 or stacked DRAM is read (R80, R81). -/
def patrolScrub (ecc : Ecc) (s : State) : State :=
  eccRead ecc (64 * s.scrub) { s with scrub := scrubNext s s.scrub }
def execPatrolScrub (ecc : Ecc) (s : State) : Host.Outcome State Fault Refusal :=
  doneIf (s.island.mode = .full && isDram s (64 * s.scrub)) s (patrolScrub ecc)

end Sys2Proof.Machine
end

