-- ==== Sys2Proof/Machine/Console.lean ====
section
/-! DEFINITION. The service console (18.1 to 18.3, 18.6): replies and their common reasons, unsolicited lines, the
service lock, refused lines, meter points. -/
namespace Sys2Proof.Machine

/-! ### Replies (R397, Table 18.1) -/

/-- A named field of a reply. A name that a bench check prints as a word has the code of its register, a partition or
another name that stands for none 255. -/
abbrev Fields := List (String × Nat)
/-- Powered time in TQ. -/
def upTime (s : State) : Nat := 57600000000000 * s.island.hours.toNat + s.island.hourTq
/-- A line sent as reply, one to each line received; a reply with a command word is to a line that passed its check, from
which the service lock's 600 s run anew (R397, R399). -/
def reply (r : Reply) (s : State) : State := s.modConsole fun c => { c with
  reply := some r, lineAt := if r.word = "" then c.lineAt else upTime s }
def replyOk (word : String) (args : List Nat) (fields : Fields) (s : State) : State :=
  reply { ok := true, word := word, args := args, fields := fields } s
def refuse (word : String) (args : List Nat) (reason : String) (fields : Fields) (s : State) : State :=
  reply { ok := false, word := word, args := args, reason := reason, fields := fields } s
/-- A reason of a command's own, with the fields it carries. -/
abbrev Reason := Option (String × Fields)
def reasonIf (c : Bool) (word : String) : Reason := if c then some (word, []) else none

/-- What a command needs to run: its arguments in form and in range, the lock, and its function's power (Table 18.1).
The reasons are judged in this order, a command's own last (DEDUCED, log 58). -/
structure Gate where
  form : Bool := true
  range : Bool := true
  lock : Bool := false
  power : Bool := true
deriving DecidableEq, Repr
def gateReason (g : Gate) (s : State) : Reason :=
  if !g.form then some ("SYNTAX", [])
  else if !g.range then some ("RANGE", [])
  else if g.lock && !s.console.locked then some ("LOCK", [])
  else if !g.power then some ("MODE", [])
  else none
/-- A query: the reply alone changes (R8, R400). -/
def query (word : String) (args : List Nat) (g : Gate) (own : Reason) (fields : Fields) (s : State) :
    Host.Outcome State Fault Refusal :=
  if !s.island.vaon then .next s else
  .next (match gateReason g s with
    | some r => refuse word args r.1 r.2 s
    | none => match own with
      | some r => refuse word args r.1 r.2 s
      | none => replyOk word args fields s)
/-- An action: its effect, then its reply. -/
def action (word : String) (args : List Nat) (g : Gate) (own : Reason) (eff : State → State) (s : State) :
    Host.Outcome State Fault Refusal :=
  if !s.island.vaon then .next s else
  match gateReason g s with
  | some r => .next (refuse word args r.1 r.2 s)
  | none => match own with
    | some r => .next (refuse word args r.1 r.2 s)
    | none => done (replyOk word args [] (eff s))
/-- A query of one of `m` things, by its number. -/
def queryIx (word : String) (m n : Nat) (power : Fin m → Bool) (own : Fin m → Reason) (fields : Fin m → Fields)
    (s : State) : Host.Outcome State Fault Refusal :=
  if h : n < m then query word [n] { power := power ⟨n, h⟩ } (own ⟨n, h⟩) (fields ⟨n, h⟩) s
  else query word [n] { range := false } none [] s
/-- An action on one of `m` things, by its number. -/
def actionIx (word : String) (m n : Nat) (args : List Nat) (g : Fin m → Gate) (own : Fin m → Reason)
    (eff : Fin m → State → State) (s : State) : Host.Outcome State Fault Refusal :=
  if h : n < m then action word (n :: args) (g ⟨n, h⟩) (own ⟨n, h⟩) (eff ⟨n, h⟩) s
  else action word (n :: args) { range := false } none id s
/-- VSVO is good: the servo subsystem and the time base are powered (Table 3.1). -/
def servoUp (s : State) : Bool := vsvoGood s

/-! ### Unsolicited lines (R398) -/

/-- The next line held, or the count of those lost. -/
def sendLine (s : State) : State :=
  s.modConsole fun c =>
    if c.lost ≠ 0 then { c with sent := some (.lost c.lost), lost := 0 }
    else match c.held with
      | l :: rest => { c with sent := some l, held := rest }
      | [] => c
def execUnsolicitedLine (s : State) : Host.Outcome State Fault Refusal :=
  doneIf (s.island.vaon && (s.console.lost ≠ 0 || !s.console.held.isEmpty)) s sendLine

/-! ### The port (R393) -/

/-- The rates of R393, in the order of ELV_SVC.BAUD. -/
def bauds : List Nat := [115200, 230400, 460800, 921600, 1000000, 2000000, 3000000]
def execBreak (s : State) : Host.Outcome State Fault Refusal :=
  doneIf s.island.vaon s fun s => s.modConsole fun c => { c with baud := 0 }
def execBaud (b : Nat) (s : State) : Host.Outcome State Fault Refusal :=
  action "BAUD" [b] { range := bauds.contains b } none
    (fun s => s.modConsole fun c => { c with baud := BitVec.ofNat 3 (bauds.idxOf b) }) s

/-! ### Taking and giving back the service lock (R399) -/

def lockTake (s : State) : State :=
  if s.console.locked then s else lockEvent true 0 (s.modConsole fun c => { c with locked := true })
def execLock (s : State) : Host.Outcome State Fault Refusal := action "LOCK" [] {} none lockTake s
def execUnlock (s : State) : Host.Outcome State Fault Refusal := action "UNLOCK" [] {} none (lockRelease 0) s
/-- 600 s after the last line that passed its check code. -/
def execLockLapsed (s : State) : Host.Outcome State Fault Refusal :=
  doneIf (s.island.vaon && s.console.locked && decide (s.console.lineAt + 600 * 16000000000 ≤ upTime s)) s fun s => say .lockLapsed (lockRelease 1 s)

/-! ### Lines that are refused (R394 to R396) -/

/-- A byte as an upper-case character. -/
def upper (b : Byte) : Byte := if 0x61 ≤ b ∧ b ≤ 0x7A then b - 0x20 else b
def textOf (bs : List Byte) : String := String.ofList (bs.map fun b => Char.ofNat (upper b).toNat)
/-- Body and check code of a line: what stands before and after its last space. -/
def splitLine (bs : List Byte) : List Byte × List Byte :=
  let r := bs.reverse
  ((r.dropWhile (· ≠ 0x20)).drop 1 |>.reverse, (r.takeWhile (· ≠ 0x20)).reverse)
def hexDigits : List Byte := "0123456789ABCDEF".toList.map fun c => BitVec.ofNat 8 c.toNat
/-- The four digits of a body's check code (R395). -/
def checkCode (body : List Byte) : List Byte :=
  let v := (crc16 body).toNat
  [v / 4096, v / 256, v / 16, v].map fun d => hexDigits.getD (d % 16) 0
/-- The words of a body, in upper case (R394). -/
def splitWords : List Byte → List (List Byte)
  | [] => [[]]
  | b :: bs =>
    if b = 0x20 then [] :: splitWords bs
    else match splitWords bs with
      | w :: ws => (upper b :: w) :: ws
      | [] => [[upper b]]
def lineWords (body : List Byte) : List (List Byte) := (splitWords body).filter (· ≠ [])
/-- The form of an argument: decimal, hex with a number of digits between bounds, or a keyword. -/
inductive ArgForm
  | dec
  | hex (lo hi : Nat)
  | key (l : List String)
deriving DecidableEq, Repr
def ArgForm.admits (f : ArgForm) (w : List Byte) : Bool :=
  match f with
  | .dec => w.all fun b => decide (0x30 ≤ b) && decide (b ≤ 0x39)
  | .hex lo hi => decide (lo ≤ w.length) && decide (w.length ≤ hi) && w.all hexDigits.contains
  | .key l => l.contains (textOf w)
def railNames : List String := ["VAON", "VIO33", "VIO18", "VSVO", "VANA", "VSRAM", "VCORE_H", "VCORE_A0", "VCORE_A1",
  "VCORE_A2", "VCORE_A3", "VDDQ", "VDRAM", "VDRAMQ", "VSER", "VSERH"]
/-- Command words of Table 18.3 that take no argument, and those that take one decimal index. -/
def bareWords : List String := ["STATE", "RAILS", "TARGET", "STOP", "CLEARSTART", "PLAN", "TIME", "PACE", "DISP", "DISPSIG",
  "DISPTEST", "POWER", "AGE", "PMBSCAN", "FREEZE", "ID", "KEYS", "STORE", "LOCK", "UNLOCK"]
def indexWords : List String := ["CORE", "QUEUE", "PCIE", "NOP", "TILE", "PEAT", "SHTTEST", "LANE", "OPTEST", "LINK",
  "PEATTEST", "AXIS", "SDI", "TRD", "TRDTEST", "FBK", "CAP", "CMPTEST", "CAN", "CANTEST", "POWER", "FENCE", "LOG", "DRAM",
  "CLUSTER", "BAUD"]
/-- The forms of the commands that take other arguments (Table 18.3, R401, R402, R405); a mask may have the four digits of
the bench check of 17 (log 58). -/
def argForms : List (String × List ArgForm) :=
  [("TARGET", [.key ["SVC", "SERVO", "FULL"]]), ("START", [.key ["SERVO", "FULL", "COLD"]]), ("CHAN", [.dec, .dec]),
   ("AXIS", [.dec, .key ["TAKE", "GIVE", "ENABLE", "DISABLE", "STOP"]]), ("PWMTEST", [.dec, .key ["U", "V", "W"], .dec]),
   ("PWMTEST", [.dec, .key ["OFF"]]), ("CMPTEST", [.dec, .key ["OFF"]]), ("CANMO", [.dec, .dec]), ("FAULT", [.hex 4 4]),
   ("FENCE", [.dec, .key ["REOPEN"]]), ("RESET", [.hex 4 4]), ("RELEASE", [.hex 4 4]), ("FAULTCLR", [.hex 4 4, .hex 1 4])] ++
  [("MP", [.dec, .key ["OFF", "REF", "TEMP"]]), ("MP", [.dec, .key ["TEMP"], .dec]),
   ("MP", [.dec, .key ["RAIL"], .key railNames]), ("XFER", [.key ["BEGIN"], .key ["KEY", "FW"], .dec]),
   ("XFER", [.key ["BEGIN"], .key ["PLAN"], .key ["A", "B"], .dec]), ("XFER", [.key ["END", "ABORT"]]),
   ("XFER", [.hex 8 8, .hex 2 128])]
def formsOf (w : String) : List (List ArgForm) :=
  (if bareWords.contains w then [[]] else []) ++ (if indexWords.contains w then [[.dec]] else []) ++
    (argForms.filter (·.1 = w)).map (·.2)
/-- Arguments of a form: as many, each as it admits; the hex data of a transfer in whole bytes. -/
def argsFit (fs : List ArgForm) (ws : List (List Byte)) : Bool :=
  fs.length = ws.length && (fs.zip ws).all fun p => p.1.admits p.2 && (p.1 ≠ .hex 2 128 || p.2.length % 2 = 0)
/-- The reply to a line, without its terminator, that is not executed; none for a line with a command to execute and for
one that is ignored. -/
def lineRefusal (bytes : List Byte) : Option Reply :=
  let bs := if bytes.getLast? = some 0x0D then bytes.dropLast else bytes
  let r := splitLine bs
  let bare := fun (w : String) => some ({ ok := false, word := "", reason := w } : Reply)
  if bs = [] then none
  else if 1024 < bytes.length then bare "OVERFLOW"
  else if bs.any fun b => b < 0x20 || 0x7E < b then bare "CHAR"
  else if 240 < bs.length then bare "LENGTH"
  else if !bs.contains 0x20 || r.2.map upper ≠ checkCode r.1 then bare "CRC"
  else
    let ws := lineWords r.1
    let fs := formsOf (textOf (ws.headD []))
    let answer := fun (w : String) => some ({ ok := false, word := " ".intercalate (ws.map textOf), reason := w } : Reply)
    if fs = [] then answer "UNKNOWN" else if fs.any fun f => argsFit f (ws.drop 1) then none else answer "SYNTAX"
def execLineRefused (bytes : List Byte) (s : State) : Host.Outcome State Fault Refusal :=
  if !s.island.vaon then .next s else
  match lineRefusal bytes with
  | some r => .next (reply r s)
  | none => .next s

/-! ### Meter points (R72, R405, Table 18.5) -/

def execMp (n : Nat) (src : MpSource) (s : State) : Host.Outcome State Fault Refusal :=
  actionIx "MP" 8 n [] (fun _ => {}) (fun _ => none)
    (fun n s => s.modConsole fun c => { c with mp := vset c.mp n src }) s
/-- Temperature to microvolts: 0.50 V + 10 mV/°C, T in 1/16 °C. -/
def tempMicro (t : Int) : Int := 500000 + 10000 * t / 16
/-- The voltage of meter point n in microvolts. -/
def meterMicro (s : State) (n : Fin 8) : Int :=
  let t := fun (g : Fin 14) => (vget s.power.temp g).toInt
  let v : Int := match vget s.console.mp n with
    | .off => 0
    | .ref => 1250000
    | .rail n => if n.val < 14 && !s.island.enabled.getLsbD n then 0 else 500 * ((vget s.power.rail n).toNat : Int)
    | .temp => tempMicro ((List.finRange 14).foldl (fun a g => max a (t g)) (t 0))
    | .tempGroup g => tempMicro (t g)
  if !s.island.vaon then 0 else max 0 (min 2500000 v)

end Sys2Proof.Machine
end

