-- ==== Sys2Proof/Machine/Queries.lean ====
section
/-! DEFINITION. Console queries (Table 18.3, R400): what each reports, as the chapters' bench checks give the fields. -/
namespace Sys2Proof.Machine

/-- Partition of a function, 255 for none. -/
def partCode (s : State) (f : Fid) : Nat := match partOf s f with | some p => p.val | none => 255
/-- STATE of a core or a cluster: 0 running, 1 held, 2 fenced. -/
def runCode (s : State) (f : Fid) : Nat := if isHeld s f then 1 else if isFenced s f then 2 else 0
def bitsOf {n : Nat} (f : Fin n → Bool) : Nat :=
  (List.finRange n).foldl (fun a (i : Fin n) => if f i then a + 2 ^ i.val else a) 0

/-! ### The island (3, 2, 18) -/

def execState (s : State) : Host.Outcome State Fault Refusal :=
  query "STATE" [] {} none [("MODE", s.island.mode.code), ("STEP", startStep s), ("KIND", s.island.kind.code),
    ("LATCH", b2n s.store.work.latch), ("FAIL", s.store.work.failCnt.toNat), ("IGN", s.island.ign.toNat)] s
def execRails (s : State) : Host.Outcome State Fault Refusal :=
  query "RAILS" [] {} none [("EN", s.island.enabled.toNat), ("GOOD", s.island.good.toNat), ("DIS", b2n s.island.dis)] s
def execTarget (s : State) : Host.Outcome State Fault Refusal :=
  query "TARGET" [] {} none [("TARGET", s.store.work.target.toNat)] s
def execPlan (s : State) : Host.Outcome State Fault Refusal :=
  query "PLAN" [] {} none [("ACTIVE", match s.loader.active with | some i => 1 + i.val | none => 0),
    ("SEQ", s.loader.seq.toNat % 2 ^ 32), ("SEALED", b2n s.loader.isSealed), ("BUSY", b2n (wrpBusy s)),
    ("STAGE", s.loader.stage.toNat), ("CODE", s.loader.code.toNat), ("RSEQ", s.loader.tag.seq.toNat)] s
/-- Part LX9, stepping B0; grade 16E or 16A. -/
def execId (s : State) : Host.Outcome State Fault Refusal :=
  query "ID" [] {} none [("PART", 9), ("STEP", 0xB0), ("GRADE", b2n Config.gradeE), ("UID", Config.uid.toNat)] s
/-- 0 empty, 1 programmed, 2 revoked. -/
def keyCode : Option (Option (BitVec 384 × BitVec 384)) → Nat | none => 0 | some (some _) => 1 | some none => 2
def execKeys (s : State) : Host.Outcome State Fault Refusal :=
  query "KEYS" [] {} none [("0", keyCode (vget s.island.keys 0)), ("1", keyCode (vget s.island.keys 1)),
    ("2", keyCode (vget s.island.keys 2)), ("3", keyCode (vget s.island.keys 3))] s
/-- State of a slot, 0 empty, 1 valid, 2 rejected, and the low half of its SEQ. -/
def slotFields (name : String) (rej : Bool) : Slot → Fields
  | .empty => [(name, 0)]
  | .valid _ q => [(name, if rej then 2 else 1), (name, q.toNat % 2 ^ 32)]
/-- State of a firmware copy, 0 empty, 1 valid, 2 running, and the low half of its VERSION. -/
def fwFields (name : String) (run : Bool) : FwCopy → Fields
  | .empty => [(name, 0)]
  | .valid v _ => [(name, if run then 2 else 1), (name, v.toNat % 2 ^ 32)]
def execStore (s : State) : Host.Outcome State Fault Refusal :=
  let t := s.store
  let run := fun (c : Fin 2) => decide (s.island.fwRun = some c) && decide (s.island.mode = .full)
  query "STORE" [] {} none ([("RECOV", t.recov.toNat), ("BUSY", b2n (!t.queue.isEmpty))] ++
    slotFields "A" t.work.rejA t.slotA ++ slotFields "B" t.work.rejB t.slotB ++
    fwFields "FW0" (run 0) t.fw0 ++ fwFields "FW1" (run 1) t.fw1 ++ [("LOG", t.logSeq.toNat)]) s
/-- The entry n places older than the newest. -/
def execLog (n : Nat) (s : State) : Host.Outcome State Fault Refusal :=
  match s.store.log[n]? with
  | some e => query "LOG" [n] {} none [("LSEQ", e.lseq.toNat), ("KIND", e.kind.toNat), ("FID", e.fid.toNat),
      ("CLASS", e.cls.toNat), ("CAUSE", e.cause.toNat), ("HOURS", e.hours.toNat)] s
  | none => query "LOG" [n] { range := false } none [] s
/-- Poisoned lines of a DDR5 channel. -/
def poisonCount (s : State) (f : Fid) : Nat := (s.poison.filter fun k => eccFid (64 * k) = some f).length
def execDram (c : Nat) (s : State) : Host.Outcome State Fault Refusal :=
  queryIx "DRAM" 8 c (fun c => powered s (fidMk 14 c)) (fun _ => none)
    (fun c => [("CAP", s.island.ddrSize / 2 ^ 33), ("TRAINED", b2n s.island.trained), ("REUSED", b2n s.island.reused),
      ("CORR", (vget s.flt (fidSlot (fidMk 14 c))).corr.toNat), ("POISON", min 0xFFFF (poisonCount s (fidMk 14 c)))]) s
def execClusterQuery (d : Nat) (s : State) : Host.Outcome State Fault Refusal :=
  queryIx "CLUSTER" 4 d (fun d => powered s (fidMk 13 d)) (fun _ => none)
    (fun d => [("STATE", runCode s (fidMk 13 d)), ("PART", partCode s (fidMk 13 d)), ("FW", s.fwver.toNat % 2 ^ 32),
      ("SUP", b2n (s.clusterStop.getLsbD d))]) s

/-! ### Power (16) -/

def execPower (s : State) : Host.Outcome State Fault Refusal :=
  let w := s.power
  query "POWER" [] {} none [("LIMIT", w.limit.toNat), ("PEST", w.pest.toNat), ("MODE", b2n w.mode1), ("PMB", b2n w.pmbErr),
    ("PACING", b2n w.pacing), ("RATIO", w.ratio.toNat)] s
def execPowerDomain (d : Nat) (s : State) : Host.Outcome State Fault Refusal :=
  queryIx "POWER" 5 d (fun d => domLive s d) (fun _ => none)
    (fun d => let x := vget s.power.dom d
      [("STEP", x.step.toNat), ("CAP", x.cap.toNat), ("VOUT", x.vout.toNat), ("LIM", x.limiter.toNat)]) s
def execAge (s : State) : Host.Outcome State Fault Refusal :=
  query "AGE" [] {} none (s.power.dom.toList.map (fun x => ("TRIM", x.trim.toNat)) ++ [("HOURS", s.island.hours.toNat)]) s
/-- OK, NAK or PEC of a regulator: 0, 1, 2. -/
def pmbCode : PmbAnswer → Nat | .value _ => 0 | .nak => 1 | .pec => 2
def execPmbScan (answers : Vector PmbAnswer 14) (s : State) : Host.Outcome State Fault Refusal :=
  query "PMBSCAN" [] {} none (["40", "41", "42", "43", "44", "45", "46", "47", "48", "49", "4A", "4B", "4C", "4D"].zip
    (answers.toList.map pmbCode)) s

/-! ### The host tile and the accelerators (5 to 10) -/

def execCore (n : Nat) (s : State) : Host.Outcome State Fault Refusal :=
  queryIx "CORE" 48 n (fun n => powered s (coreFid n)) (fun _ => none)
    (fun n => let c := vget s.cores n
      [("STATE", runCode s (coreFid n)), ("PART", partCode s (coreFid n)), ("PRIV", c.priv.code),
       ("MIP", mipNow s c % 2 ^ 16)]) s
def execQueue (n : Nat) (s : State) : Host.Outcome State Fault Refusal :=
  queryIx "QUEUE" 64 n (fun _ => powered s (fidMk 1 0))
    (fun n => let q := vget s.queues n
      if q.halted then some ("HALTED", [("CODE", q.code.toNat)]) else none)
    (fun n => let q := vget s.queues n
      [("EN", b2n q.enable), ("HALT", b2n q.halted), ("IDLE", b2n q.disp.isEmpty), ("SQH", q.sqhead.toNat),
       ("SQT", q.sqtail.toNat), ("CQT", q.cqtail.toNat), ("CQH", q.cqhead.toNat), ("NEXT", q.nextSeq.toNat)]) s
def execPcie (q : Nat) (s : State) : Host.Outcome State Fault Refusal :=
  queryIx "PCIE" 8 q (fun q => powered s (fidMk 12 q)) (fun _ => none)
    (fun q => let r := vget s.rports q
      [("UP", b2n r.up), ("WIDTH", r.width.toNat), ("GTS", r.rate.toNat)]) s
def execTile (n : Nat) (s : State) : Host.Outcome State Fault Refusal :=
  queryIx "TILE" 64 n (fun n => powered s (fidMk 2 n)) (fun _ => none)
    (fun n => let t := vget s.tiles n
      [("PART", partCode s (fidMk 2 n)), ("STATE", tileState s n), ("GATE", t.gate.toNat), ("MODE", b2n t.windowed),
       ("LANE", b2n t.lane)]) s
def execPeatQuery (k : Nat) (s : State) : Host.Outcome State Fault Refusal :=
  queryIx "PEAT" 8 k (fun k => powered s (fidMk 4 k)) (fun _ => none)
    (fun k => let st := vget s.peat k
      [("READY", readyBits st), ("CLAIM", bitsOf fun j => (vget st.eng j).claimed), ("OWNER", partCode s (fidMk 4 k)),
       ("ACCUM", bitsOf fun j => (vget st.eng j).accum), ("REF", st.eng.toList.foldl (fun a e => a + e.ref.toNat) 0)]) s
def execLane (l : Nat) (s : State) : Host.Outcome State Fault Refusal :=
  queryIx "LANE" 8 l (fun _ => s.island.mode = .full)
    (fun l => reasonIf (!(vget s.lanes l).on) "RANGE")
    (fun l => let x := vget s.lanes l
      [("TILE0", match x.tiles.head? with | some t => t.val | none => 255), ("WCL", x.wcl.toNat), ("LAST", x.last.toNat),
       ("MAX", x.max.toNat), ("REQ", x.requests.toNat), ("LATE", x.late.toNat), ("NONF", x.nonfinite.toNat)]) s
def execLink (p : Nat) (s : State) : Host.Outcome State Fault Refusal :=
  queryIx "LINK" 16 p (fun p => powered s (fidMk 5 p)) (fun _ => none)
    (fun p => let x := vget s.ports p
      [("STATE", x.st.code), ("LANES", x.lanes.toNat), ("DIR", x.dir.toNat), ("PEER", x.peer.toNat),
       ("TIME", b2n x.timeUse), ("DELAY", x.delay.toNat), ("FEC", x.fec.toNat), ("REPLAY", x.replay.toNat),
       ("DOWN", x.downs.toNat), ("CAUSE", x.cause.toNat)]) s
/-- OFS is given as its 32-bit word. -/
def execTime (s : State) : Host.Outcome State Fault Refusal :=
  let t := s.time
  query "TIME" [] { power := powered s timeFid } none [("STATE", t.st.code), ("GM", b2n t.gm), ("GMID", t.gmId.toNat),
    ("STRAT", t.stratum.toNat), ("SLEW", b2n t.slew), ("OFS", t.ofs.toNat), ("NOGM", b2n t.noGm)] s
def chanCode : ChanState → Nat
  | .closed => 0 | .opening => 1 | .run => 2 | .recovering => 3 | .halted => 4 | .expelled => 5
/-- MAXMISS is the greatest number of misses of a member. -/
def chanFields (s : State) (d : Fin 4) (k : Fin 8) : Fields :=
  let c := s.chan d k
  let g := fun (f : ChanDesc → Nat) => match c.desc with | some x => f x | none => 0
  [("ID", g fun x => x.id.toNat), ("STATE", chanCode c.st), ("STEP", c.openStep.toNat), ("MEMB", g (·.nmemb)),
   ("SPARE", g (·.nspare)), ("LATE", c.lateCnt.toNat), ("DROP", c.dropCnt.toNat),
   ("MAXMISS", c.miss.foldl (fun a m => max a m.2) 0)]
def execChan (d k : Nat) (s : State) : Host.Outcome State Fault Refusal :=
  if h : d < 4 ∧ k < 8 then
    query "CHAN" [d, k] { power := powered s (fidMk 13 d) } none (chanFields s ⟨d, h.1⟩ ⟨k, h.2⟩) s
  else query "CHAN" [d, k] { range := false } none [] s
/-- N, then chip, RATIO and CAUSE of each notice in force. -/
def execPace (s : State) : Host.Outcome State Fault Refusal :=
  query "PACE" [] { power := servoUp s } none (("N", s.paceFrom.length) :: s.paceFrom.flatMap fun n =>
    [("CHIP", n.2.chip.toNat), ("RATIO", n.2.ratio.toNat), ("CAUSE", n.2.cause.toNat)]) s

/-! ### The servo subsystem (11 to 14) -/

def execAxis (a : Nat) (s : State) : Host.Outcome State Fault Refusal :=
  queryIx "AXIS" 32 a (fun _ => servoUp s) (fun _ => none)
    (fun a => let x := vget s.axes a
      [("STATE", x.st.code), ("MODE", x.mode), ("SRC", x.src.toNat), ("ALIGN", b2n x.aligned),
       ("HSTOP", (namedStops s a).toNat), ("TAKEN", b2n x.taken), ("DL", x.dlMiss.toNat), ("LMISS", x.laneMiss.toNat)]) s
/-- The engine of a sigma-delta input runs its clock: it carries an assigned axis (R249, Table 19.9). -/
def sdiRuns (s : State) (n : Fin 96) : Bool :=
  let e : Fin 8 := ⟨n / 12, by omega⟩
  !(vget s.trd e).held && !isFenced s (fidMk 6 e) && !(assignedAxes s e).isEmpty
/-- DENS in 1/1,000 is a free value: the manual states no window for it (log 60). -/
def execSdi (n : Nat) (s : State) : Host.Outcome State Fault Refusal :=
  if h : n < 96 then
    let run := sdiRuns s ⟨n, h⟩
    if s.island.vaon && servoUp s && run then
      let f := freshFree s
      query "SDI" [n] {} none [("CLK", 25), ("DENS", f.1.toNat % 1001), ("VALID", 1)] f.2
    else query "SDI" [n] { power := servoUp s } none [("CLK", 0), ("DENS", 0), ("VALID", 0)] s
  else query "SDI" [n] { range := false } none [] s
def execTrd (e : Nat) (s : State) : Host.Outcome State Fault Refusal :=
  queryIx "TRD" 8 e (fun _ => servoUp s) (fun _ => none)
    (fun e => let t := vget s.trd e
      [("BG", bgCode t), ("HOOK", b2n t.hook.isSome), ("PC0", t.bank0.pc.toNat), ("LIP0", b2n t.bank0.lip),
       ("ERR", t.errCode.toNat), ("PRE", t.preempt.toNat), ("HAB", t.haband.toNat), ("PF", t.pfault.toNat),
       ("OCC", t.occ.toNat)]) s
def execFbk (c : Nat) (s : State) : Host.Outcome State Fault Refusal :=
  queryIx "FBK" 40 c (fun _ => servoUp s) (fun _ => none)
    (fun c => let x := vget s.fbk c
      [("MODE", x.mode.toNat), ("GOOD", b2n x.good), ("POS", (fbkSample s c).toNat), ("ANG", (fbkAngle s c).toNat),
       ("A2", if x.mode = 4 then x.a2.toNat else 0), ("FLT", x.fltWord), ("IGN", x.ign.toNat)]) s
def execCap (n : Nat) (s : State) : Host.Outcome State Fault Refusal :=
  queryIx "CAP" 16 n (fun _ => servoUp s) (fun _ => none)
    (fun n => let c := vget s.cc.cap n
      [("VALID", b2n c.tag.valid), ("SEQ", c.tag.seq.toNat), ("LEVEL", b2n c.level), ("POSV", b2n c.posValid),
       ("OVR", c.ovr.toNat)]) s
def execCan (k : Nat) (s : State) : Host.Outcome State Fault Refusal :=
  queryIx "CAN" 4 k (fun _ => servoUp s) (fun _ => none)
    (fun k => let c := vget s.can k
      [("MODE", c.mode.toNat), ("STATE", c.st.code), ("TEC", min 255 c.tec.toNat), ("REC", min 255 c.rec_.toNat),
       ("LEC", c.lec.toNat), ("TSC", s.tsc.toNat), ("IGN", c.ign.toNat)]) s
/-- ID is the received identifier of an object with a frame, else the configured one. -/
def execCanMo (k j : Nat) (s : State) : Host.Outcome State Fault Refusal :=
  if h : k < 4 ∧ j < 64 then
    let m := vget (vget s.can ⟨k, h.1⟩).mo ⟨j, h.2⟩
    query "CANMO" [k, j] { power := servoUp s } none [("VALID", b2n m.tag.valid), ("SEQ", m.tag.seq.toNat),
      ("LOST", b2n m.lost), ("PEND", b2n m.pend), ("ID", (if m.tag.valid then m.rxid else m.id).toNat),
      ("DLC", m.dlc.toNat), ("TS", m.ts.toNat)] s
  else query "CANMO" [k, j] { range := false } none [] s

/-! ### The display, faults and fences (15, 17) -/

def execDisp (s : State) : Host.Outcome State Fault Refusal :=
  let d := s.dsp
  let r := fun (f : DspRec → Nat) => match d.rec_ with | some x => f x | none => 0
  query "DISP" [] { power := powered s dspFid } none [("LINK", d.link.code), ("LANES", d.lanes.toNat), ("RATE", d.rate.toNat),
    ("W", r fun x => x.hact.toNat), ("H", r fun x => x.vact.toNat), ("FLAT", b2n d.flat), ("FLATN", d.flatn.toNat),
    ("ERRSCR", b2n d.errscr), ("UNDER", d.under.toNat)] s
/-- MODE of each region, and, where it compares, 1 for a match and 2 for a mismatch. -/
def execDispSig (s : State) : Host.Outcome State Fault Refusal :=
  query "DISPSIG" [] { power := powered s dspFid } none ((List.finRange 8).flatMap fun n =>
    let r := vget s.dsp.sigres n
    [("MODE", (vget s.dsp.active.sig n).mode.toNat), ("CMP", if !r.compared then 0 else if r.match_ then 1 else 2)]) s
def execFault (fid : Fid) (s : State) : Host.Outcome State Fault Refusal :=
  let x := vget s.flt (fidSlot fid)
  query "FAULT" [fid.toNat] { range := fidOk fid, power := servoUp s } none
    [("CAUSE", x.a.cause.toNat), ("CLASS", faultClass s fid), ("FAULTED", b2n (faulted s fid)),
     ("PERSIST", b2n (persistAny s fid)), ("DUP", b2n (decide (x.a = x.b))), ("CORR", x.corr.toNat),
     ("REF", x.refused.toNat)] s
def execFenceQuery (p : Nat) (s : State) : Host.Outcome State Fault Refusal :=
  queryIx "FENCE" 32 p (fun _ => servoUp s) (fun _ => none)
    (fun p => let x := vget s.parts p
      [("FENCED", b2n x.fenced), ("DRAINED", b2n (drained s p)), ("BY", x.byFid.toNat), ("REF", x.refused.toNat)]) s

end Sys2Proof.Machine
end

