-- ==== Sys2Proof/Machine/Actions.lean ====
section
/-! DEFINITION. Console actions (Table 18.3, R401): the register operation that each stands for, and the self tests of
the chapters' bench checks. -/
namespace Sys2Proof.Machine

/-! ### Starts and stops (R57, R66, R68, R69) -/

/-- START SERVO and START FULL name a target; START COLD takes the stored one (DEDUCED, log 58). -/
def startArgs (cold : Bool) (target : BitVec 2) : Option (BitVec 2) := if cold then none else some target
def startReply (a : StartAnswer) (args : List Nat) (s : State) : State :=
  match a with
  | .latched => refuse "START" args "LATCHED" [] s
  | .busy => refuse "START" args "BUSY" [] s
  | _ => replyOk "START" args [] s
def execStart (cold : Bool) (target : BitVec 2) (s : State) : Host.Outcome State Fault Refusal :=
  let args := [b2n cold, target.toNat]
  if !s.island.vaon then .next s
  else if !cold && (target = 0 || target = 3) then .next (refuse "START" args "SYNTAX" [] s)
  else
    let t := startArgs cold target
    done (startReply (startAnswer s t) args (startRequest t cold s))
def execStop (s : State) : Host.Outcome State Fault Refusal :=
  action "STOP" [] {} (reasonIf (starting s) "BUSY") stopRequest s
/-- The latch and FAILCNT cleared in the store, with a fault-log entry (R68, R411). -/
def clearStart (s : State) : State :=
  logEntry { fid := islandFid, kind := 4 } (setBlock (fun b => { b with latch := false, failCnt := 0 }) s)
def execClearStart (s : State) : Host.Outcome State Fault Refusal :=
  action "CLEARSTART" [] { lock := true } none clearStart s
/-- TARGET SVC, SERVO or FULL: 0, 1, 2. -/
def execTargetSet (t : BitVec 2) (s : State) : Host.Outcome State Fault Refusal :=
  action "TARGET" [t.toNat] { form := t ≠ 3, lock := true } none (setBlock fun b => { b with target := t }) s

/-! ### The console's NOP (bench check of 6, R450) -/

/-- The completion record of a console NOP: FID 0, TAG all ones, STATUS 0. -/
def consoleNopRec (s : State) : EvRec :=
  { fid := islandFid, cls := 1, holdover := holdoverFlag s, it := s.time.it, payload := pl 16 (2 ^ 64 - 1) }
/-- A halted queue, or one without a ring or a free record. -/
def nopReason (s : State) (n : Fin 64) : Reason :=
  let q := vget s.queues n
  if q.halted then some ("HALTED", []) else reasonIf (!q.enable || q.spare = 0) "BUSY"
def execConsoleNop (n : Nat) (s : State) : Host.Outcome State Fault Refusal :=
  if h : n < 64 then
    let i : Fin 64 := ⟨n, h⟩
    if s.island.vaon && powered s (fidMk 1 0) && (nopReason s i).isNone then
      doneFrom s (replyOk "NOP" [n] [("SEQ", (vget s.queues i).nextSeq.toNat), ("STATUS", 0)]
        (writeRecord i (consoleNopRec s) false s))
    else query "NOP" [n] { power := powered s (fidMk 1 0) } (nopReason s i) [] s
  else query "NOP" [n] { range := false } none [] s

/-! ### Self tests: the verdict is the part's (log 12) -/

/-- Fields of a self test: PASS, and one field for each part of it, from the verdict's bits. -/
def testFields (f : Fid) (names : List String) : Fields :=
  let v := (Config.selfTest f).toNat
  ("PASS", b2n (decide (v % 2 ^ names.length = 2 ^ names.length - 1))) ::
    (List.range names.length).map fun i => (names.getD i "", fld v i 1)
def execShtTest (g : Nat) (s : State) : Host.Outcome State Fault Refusal :=
  queryIx "SHTTEST" 16 g (fun g => powered s (fidMk 3 g))
    (fun g => reasonIf ((vget s.shuttle g).ch.toList.any (·.running.isSome)) "BUSY")
    (fun g => let v := (Config.selfTest (fidMk 3 g)).toNat
      [("PASS", b2n (decide (v % 256 = 255))), ("CH", v % 256)]) s
def execOpTest (n : Nat) (s : State) : Host.Outcome State Fault Refusal :=
  queryIx "OPTEST" 64 n (fun n => powered s (fidMk 2 n))
    (fun n => if (vget s.tiles n).lane then some ("REFLEX", []) else reasonIf (!(vget s.tiles n).jobs.isEmpty) "BUSY")
    (fun n => testFields (fidMk 2 n) ["GEMM", "CONV", "SR"]) s
def execPeatTest (k : Nat) (s : State) : Host.Outcome State Fault Refusal :=
  queryIx "PEATTEST" 8 k (fun k => powered s (fidMk 4 k))
    (fun k => reasonIf ((vget s.peat k).eng.toList.any fun e => !e.ready) "BUSY")
    (fun k => testFields (fidMk 4 k) ["OPT", "CAST"]) s
def execTrdTest (e : Nat) (s : State) : Host.Outcome State Fault Refusal :=
  queryIx "TRDTEST" 8 e (fun _ => servoUp s)
    (fun e => reasonIf (decide ((vget s.trd e).bg = .running)) "BUSY")
    (fun e => testFields (fidMk 6 e) ["MAC", "SCAN", "CIRC", "REP"]) s
/-- An axis mapped from the controller is ENABLED, or an object is pending. -/
def canBusy (s : State) (k : Fin 4) : Bool :=
  let c := vget s.can k
  (c.maps.any fun m => decide ((vget s.axes m.axis).st = .enabled)) || c.mo.toList.any (·.pend)
def execCanTest (k : Nat) (s : State) : Host.Outcome State Fault Refusal :=
  if h : k < 4 then
    let i : Fin 4 := ⟨k, h⟩
    query "CANTEST" [k] { lock := true, power := servoUp s } (reasonIf (canBusy s i) "BUSY")
      (testFields (fidMk 10 i) ["NOM", "DATA", "TS"]) s
  else query "CANTEST" [k] { range := false } none [] s
def execDispTest (s : State) : Host.Outcome State Fault Refusal :=
  query "DISPTEST" [] { lock := true, power := powered s dspFid } (reasonIf s.dsp.pend "BUSY")
    [("PASS", match s.dsp.rec_ with | some r => b2n (Config.barsPass r.hact r.vact) | none => 0)] s

/-! ### Axes (11, R265, R399, R401) -/

def axisArgs (s : State) : Gate := { lock := true, power := servoUp s }
def execAxisTake (a : Nat) (s : State) : Host.Outcome State Fault Refusal :=
  actionIx "AXIS TAKE" 32 a [] (fun _ => axisArgs s) (fun _ => none)
    (fun a s => s.modAxis a fun x => { x with taken := true }) s
/-- The axis is free again; a duty forced on it ends with it. -/
def execAxisGive (a : Nat) (s : State) : Host.Outcome State Fault Refusal :=
  actionIx "AXIS GIVE" 32 a [] (fun _ => axisArgs s) (fun _ => none)
    (fun a s => s.modAxis a fun x => { x with taken := false, pwmTest := none }) s
/-- The console's order: rank 2, port 0 (Table 11.7). -/
def consoleOrder (a : Fin 32) (op : BitVec 3) : Rival :=
  { axis := a, rank := 2, port := 0, op := op, src := 0, value := 0, spd := false }
/-- The order that wins the axis in the console order's clock (R264, R265). -/
def orderWinner (s : State) (a : Fin 32) (os : List Rival) : Option Rival :=
  firstRival (standing s a ++ (os.filter fun o => o.axis = a && rivalState o && !beaten s a o))
/-- An order that the axis's state accepts (R239). -/
def orderValid (s : State) (a : Fin 32) (op : BitVec 3) : Bool :=
  let x := vget s.axes a
  x.rec_.isSome && (op = 1 && x.st = .disabled && !s.tap.seizes || op = 2 && x.st.runs || op = 4 && x.st = .enabled)
/-- The reply to a console order: CONFLICT with the winner, STATE where the order is not valid, else accepted. -/
def orderReply (word : String) (a : Fin 32) (op : BitVec 3) (rivals : List Rival) (s t : State) : State :=
  match orderWinner s a (consoleOrder a op :: rivals) with
  | some w =>
    if w.rank ≠ 2 then refuse word [a.val] "CONFLICT" [("RANK", w.rank.toNat), ("PORT", w.port.toNat)] t
    else if orderValid s a op then replyOk word [a.val] [] t else refuse word [a.val] "STATE" [] t
  | none => t
def consoleAxis (word : String) (op : BitVec 3) (n : Nat) (rivals : List Rival) (s : State) :
    Host.Outcome State Fault Refusal :=
  if h : n < 32 then
    let a : Fin 32 := ⟨n, h⟩
    if !s.island.vaon then .next s else
    match gateReason (axisArgs s) s with
    | some r => .next (refuse word [n] r.1 r.2 s)
    | none => done (orderReply word a op rivals s (orders (consoleOrder a op :: rivals) s))
  else query word [n] { range := false } none [] s
def execAxisEnable (a : Nat) (rivals : List Rival) (s : State) : Host.Outcome State Fault Refusal :=
  consoleAxis "AXIS ENABLE" 1 a rivals s
def execAxisDisable (a : Nat) (rivals : List Rival) (s : State) : Host.Outcome State Fault Refusal :=
  consoleAxis "AXIS DISABLE" 2 a rivals s
def execAxisStop (a : Nat) (rivals : List Rival) (s : State) : Host.Outcome State Fault Refusal :=
  consoleAxis "AXIS STOP" 4 a rivals s
/-- A duty in percent on one phase of a DISABLED, taken axis. -/
def execPwmTest (a : Nat) (phase : Fin 3) (duty : Nat) (s : State) : Host.Outcome State Fault Refusal :=
  actionIx "PWMTEST" 32 a [phase.val, duty] (fun _ => { axisArgs s with range := duty ≤ 100 })
    (fun a => reasonIf (!((vget s.axes a).st = .disabled && (vget s.axes a).taken)) "STATE")
    (fun a s => s.modAxis a fun x => { x with pwmTest := some (phase, duty) }) s
def execPwmTestOff (a : Nat) (s : State) : Host.Outcome State Fault Refusal :=
  actionIx "PWMTEST OFF" 32 a [] (fun _ => axisArgs s) (fun _ => none)
    (fun a s => s.modAxis a fun x => { x with pwmTest := none }) s
/-- A compare output toggles at 1 MHz (13). -/
def execCmpTest (n : Nat) (s : State) : Host.Outcome State Fault Refusal :=
  actionIx "CMPTEST" 16 n [] (fun _ => axisArgs s) (fun n => reasonIf (vget s.cc.cmp n).en "BUSY")
    (fun n s => s.modCmp n fun c => { c with test := true }) s
def execCmpTestOff (n : Nat) (s : State) : Host.Outcome State Fault Refusal :=
  actionIx "CMPTEST OFF" 16 n [] (fun _ => axisArgs s) (fun _ => none)
    (fun n s => s.modCmp n fun c => { c with test := false }) s

/-! ### Faults, resets, freeze (17) -/

/-- Names of Table 17.8. -/
def rstName (code : BitVec 8) : String :=
  ["DONE", "PARTITION", "BAD_FID", "NOT_RESETTABLE", "BUSY", "NOT_HELD", "NO_VECTOR", "FAULTED", "BAD_ACTION"].getD code.toNat
    "BAD_ACTION"
/-- A request of the console's set (R386, R401); a refused one has its result and event too. -/
def consoleRst (word : String) (lock : Bool) (f : Fid) (act : BitVec 2) (s : State) : Host.Outcome State Fault Refusal :=
  if !s.island.vaon then .next s else
  match gateReason { lock := lock, power := servoUp s && (!fidOk f || powered s f) } s with
  | some r => .next (refuse word [f.toNat] r.1 r.2 s)
  | none =>
    let t := rstRequest ⟨32, by omega⟩ f act s
    done (match rstRefusal s ⟨32, by omega⟩ f act with
      | some c => refuse word [f.toNat] (rstName c) [] t
      | none => replyOk word [f.toNat] [] t)
def execReset (fid : Fid) (s : State) : Host.Outcome State Fault Refusal := consoleRst "RESET" false fid 0 s
def execRelease (fid : Fid) (s : State) : Host.Outcome State Fault Refusal := consoleRst "RELEASE" true fid 1 s
/-- A set bit of the mask whose condition persists (R383). -/
def clearRefused (s : State) (f : Fid) (mask : BitVec 12) : Bool :=
  (List.range 12).any fun b => mask.getLsbD b && (vget s.flt (fidSlot f)).a.cause.getLsbD b && persists s f b
def execFaultClr (fid : Fid) (mask : BitVec 12) (s : State) : Host.Outcome State Fault Refusal :=
  let args := [fid.toNat, mask.toNat]
  if !s.island.vaon then .next s else
  match gateReason { range := fidOk fid, lock := true, power := servoUp s } s with
  | some r => .next (refuse "FAULTCLR" args r.1 r.2 s)
  | none =>
    let t := clearCauses fid mask s
    done (if clearRefused s fid mask then refuse "FAULTCLR" args "PERSIST" [] t else replyOk "FAULTCLR" args [] t)
/-- A refused reopening is answered REFUSED (DESIGN CHOICE, log 58). -/
def execFenceReopen (p : Nat) (s : State) : Host.Outcome State Fault Refusal :=
  if h : p < 32 then
    let i : Fin 32 := ⟨p, h⟩
    if !s.island.vaon then .next s else
    match gateReason { lock := true, power := servoUp s } s with
    | some r => .next (refuse "FENCE REOPEN" [p] r.1 r.2 s)
    | none =>
      let t := reopen i s
      done (if (vget s.parts i).fenced && reopenBlocked s i then refuse "FENCE REOPEN" [p] "REFUSED" [] t
        else replyOk "FENCE REOPEN" [p] [] t)
  else query "FENCE REOPEN" [p] { range := false } none [] s
/-- A local freeze 16,000,000 TQ ahead (R389). -/
def freezeCmd (s : State) : State :=
  if isFenced s frzFid then s else
  frzRequest { t := s.time.it + 16000000, source := 3, late := false, origin := chipId s } s
def execFreeze (s : State) : Host.Outcome State Fault Refusal :=
  action "FREEZE" [] { power := servoUp s } none freezeCmd s

end Sys2Proof.Machine
end

