-- ==== Sys2Proof/Machine/Grenhild.lean ====
section
/-! DEFINITION. The rows of Grenhild ports and of installation time (spec/09): frames, HELLO, links down and up, remote
writes and their answers, time frames. -/
namespace Sys2Proof.Machine

/-! ### Link frames (R196 to R200) -/

/-- ACK, CREDIT and corrected symbols of a received frame: acknowledged frames leave the replay buffer, credits return,
waiting packets are framed (R197, R198, R200). -/
def linkHdr (p : Fin 16) (h : LinkHdr) (s : State) : State :=
  let s := pumpPort p (s.modPort p fun x =>
    let buf := match x.replayBuf.findIdx? (·.1 = h.ack) with
      | some i => x.replayBuf.drop (i + 1)
      | none => x.replayBuf
    { x with
      replayBuf := buf, credits := vmod x.credits h.cvc (· + h.credit.setWidth 16), fec := satAdd x.fec h.fec.toNat })
  if h.fec = 0 then s else raiseCorr (portFid p) s
/-- A NAK sent or received is counted over the last 1 ms; more than 64 take the link down (R199). -/
def countNak (p : Fin 16) (s : State) : State :=
  let l := s.time.it :: (vget s.ports p).naks.filter fun t => decide (s.time.it.toNat < t.toNat + 16000000)
  let s := s.modPort p fun x => { x with naks := l }
  if 64 < l.length then portDown p 2 s else s
/-- TTYPEs that a chip consumes; a packet of a reserved type is discarded where it is delivered (log 16). -/
def knownType (t : BitVec 8) : Bool := t = 0x01 || t = 0x02 || t = 0x03 || t = 0x10 || t = 0x20
/-- A packet accepted on a port: delivered to this chip, or forwarded with one hop less (R203, R205). -/
def acceptPacket (p : Fin 16) (vc : Fin 8) (k : Packet) (s : State) : State :=
  if k.dchip = chipId s then
    if knownType k.ttype then s.modPort p fun x => { x with rx := x.rx ++ [(some vc, k)] } else freeBuf (some (p, vc)) s
  else if k.hops ≤ 1 then freeBuf (some (p, vc)) s
  else
    let a := arrivalOf s p vc
    let same := match a with
      | some a => coord k.dchip a.dim ≠ (vget s.fabric.pos a.dim).toNat
      | none => false
    sendFrom a (some (p, vc)) { k with hops := k.hops - 1, detour := k.detour && same } s
/-- One NAK is sent for a gap or a failed CRC, until the replay arrives (R198). -/
def nakTx (p : Fin 16) (s : State) : State :=
  if (vget s.ports p).nakSent then s else
  countNak p (s.modPort p fun x => { x.send (.ctl (.nak x.rxSeq)) with nakSent := true })
/-- The packet of a data frame is taken, into its channel's buffer. A channel whose advertised buffer is full takes no
frame: the peer had no credit for it, and the frame counts as a gap (log 16). -/
def takeData (p : Fin 16) (dateline : Bool) (b : List Byte) (s : State) : State :=
  let next := fun (s : State) => s.modPort p fun x => { x with rxSeq := x.rxSeq + 1, nakSent := false }
  match packetOf (framePay b) (framePlen b) with
  | none => next s
  | some k =>
    let vc := vcOf k dateline
    if vcFrames vc ≤ vcHeld s p vc then nakTx p s else acceptPacket p vc k (next s)
/-- A data frame in LSEQ order is taken, a duplicate discarded; a gap or a failed CRC asks for a replay (R196, R198). An
idle frame brings its ACK and its credits. -/
def dataFrame (p : Fin 16) (fec : BitVec 16) (dateline : Bool) (b : List Byte) (s : State) : State :=
  if !frameOk b then nakTx p s else
  let s := linkHdr p (frameHdr fec b) s
  if frameType b = 0 then s else
  let seq := BitVec.ofNat 16 (leAt b 2 2)
  let back := ((vget s.ports p).rxSeq - seq).toNat
  if back = 0 then takeData p dateline b s
  else if back < 32768 then s
  else nakTx p s
/-- Idle and data frames, and frames whose CRC fails. A control or time frame is a command of its own; a frame of a
reserved type has no effect (log 16). -/
def execDataFrameRx (p : Fin 16) (frame : List Byte) (fec : BitVec 16) (dateline : Bool) (s : State) :
    Host.Outcome State Fault Refusal :=
  doneIf ((vget s.ports p).st = .up && (!frameOk frame || decide (frameType frame ≤ 1))) s (dataFrame p fec dateline frame)
/-- A received NAK: the sender resends from the named frame; the replay is counted (R198, R200). -/
def nakRx (p : Fin 16) (h : LinkHdr) (seq : BitVec 16) (s : State) : State :=
  let s := linkHdr p h s
  let s := match (vget s.ports p).replayBuf.findIdx? (·.1 = seq) with
    | some i =>
      raiseCorr (portFid p) (s.modPort p fun x => { (x.replayBuf.drop i).foldl (fun (x : Port) e => x.send (.data e.1 e.2.2)) x with
        replay := satInc x.replay })
    | none => s
  countNak p s
/-- A control frame of a kind, received whole. -/
def ctlFrame (b : List Byte) (ctl : Nat) : Bool := frameOk b && frameType b = 3 && frameCtl b = ctl
def execNak (p : Fin 16) (frame : List Byte) (fec : BitVec 16) (s : State) : Host.Outcome State Fault Refusal :=
  doneIf ((vget s.ports p).st = .up && ctlFrame frame 1) s
    (nakRx p (frameHdr fec frame) (BitVec.ofNat 16 (leAt frame 14 2)))
/-- A received HELLO: checked against PEER and INSTALL_ID; a passing one sets the credits and, once this side is trained,
the link is up. A failing one takes a link that is up down (R197, R199). -/
def helloRx (p : Fin 16) (chip : Nat) (installId : BitVec 64) (credits : Vector (BitVec 16) 8) (s : State) : State :=
  let s := s.modPort p fun x => { x with peer := BitVec.ofNat 12 chip }
  if chip ≠ (vget s.ports p).peerPlan.toNat then portDown p 4 s
  else if installId ≠ s.fabric.installId then portDown p 5 s
  else if (vget s.ports p).st = .up then s
  else
    let s := s.modPort p fun x => { x with helloRx := true, helloBad := false, credits := credits }
    if (vget s.ports p).st = .hello then portUp p s else s
/-- Ports that hear their peer: trained or in training. -/
def PortState.hears : PortState → Bool
  | .training => true | .hello => true | .up => true | _ => false
def execHello (p : Fin 16) (frame : List Byte) (fec : BitVec 16) (s : State) : Host.Outcome State Fault Refusal :=
  doneIf ((vget s.ports p).st.hears && ctlFrame frame 0) s fun s =>
    let h := frameHdr fec frame
    let s := if (vget s.ports p).st = .up then linkHdr p h s else s
    helloRx p (leAt frame 12 2) (BitVec.ofNat 64 (leAt frame 16 8))
      (Vector.ofFn fun v : Fin 8 => BitVec.ofNat 16 (leAt frame (24 + 2 * v) 2)) s
def execLinkDown (p : Fin 16) (s : State) : Host.Outcome State Fault Refusal :=
  doneIf ((vget s.ports p).st = .up || (vget s.ports p).st = .hello) s (portDown p 1)
def execAckStallTimeout (p : Fin 16) (s : State) : Host.Outcome State Fault Refusal :=
  doneIf ((vget s.ports p).st = .up && (vget s.ports p).replayBuf ≠ []) s (portDown p 3)
def execLinkRetrain (p : Fin 16) (s : State) : Host.Outcome State Fault Refusal :=
  doneIf ((vget s.ports p).st = .down && s.island.mode = .full) s fun s =>
    s.modPort p fun x => { x with st := .training, helloRx := false }
/-- Training completes: all four lanes are locked, this side's HELLO is sent, and the link is up once the peer's HELLO has
passed (R199). -/
def execLinkTrained (p : Fin 16) (s : State) : Host.Outcome State Fault Refusal :=
  doneIf ((vget s.ports p).st = .training) s fun s =>
    let s := s.modPort p fun x =>
      { x.send (.ctl (.hello (chipId s) s.fabric.installId ownCredits)) with st := .hello, lanes := 0xF }
    if (vget s.ports p).helloRx then portUp p s else s

/-! ### Remote writes and answers (R206 to R208) -/

/-- A delivered WRITE: refused with a NACK and no word written, or landed and acknowledged (R206, R207). -/
def remoteWrite (p : Fin 17) (k : Packet) (s : State) : State :=
  let s := dropPacket p k s
  let f := arriveFid p k
  let part := packetPart k
  let a := k.daddr.toNat
  match writeRefused s k with
  | some r => answer k (some r.2.1) (recordRefusal f r s)
  | none =>
    let w := rangeWrite { fid := f, part := part, side := .engine, core := false } a k.data s
    answer k none w.2.2
def execRemoteWriteRx (p : Fin 17) (s : State) : Host.Outcome State Fault Refusal :=
  match firstPacket s p (·.ttype = 0x01) with
  | none => .next s
  | some k => doneFrom s (remoteWrite p k s)
/-- An outstanding write is answered: it leaves the list. -/
def retire (tid : BitVec 32) (s : State) : State := { s with remote := s.remote.filter fun r => r.2.2.tid ≠ tid }
/-- A refused or lost packet of a contribution, gather slice or checkpoint copy: the FINAL of its copy, which waits for
every earlier packet's ACK, is never issued, nor is the rest of the copy, and a checkpoint copy stays incomplete (R207,
R233, R235; log 43). -/
def collLost (g : Fin 16) (c : Fin 8) (w : NetWrite) (s : State) : State :=
  let copy := fun (x : NetWrite) => x.dst = w.dst && ckindOf x.data = ckindOf w.data && cstepOf x.data = cstepOf w.data
  s.modChan ⟨g % 4, by omega⟩ c fun x => { x with
    out := x.out.filter fun y => !copy y
    ckptLost := x.ckptLost || (ckindOf w.data = 3 && x.ckptPend.map (·.toNat) = some (cstepOf w.data)) }
/-- A collective packet was answered: held packets of its channel may go (R207, R235). -/
def collAnswered (g : Fin 16) (c : Fin 8) (s : State) : State :=
  let d : Fin 4 := ⟨g % 4, by omega⟩
  if isFenced s (clusterFid d) then s else collRelease d c s
/-- An ACK retires its WRITE, which may let held writes go and the chain end (R157, R204, R207). -/
def ackRx (p : Fin 17) (k : Packet) (s : State) : State :=
  let s := dropPacket p k s
  match s.remote.find? fun r => r.2.2.tid = k.tid with
  | none => s
  | some (g, c, w) =>
    let s := retire k.tid s
    if w.coll then collAnswered g c s else chainSettle g c (releasePlain g c s)
def execAck (p : Fin 17) (s : State) : Host.Outcome State Fault Refusal :=
  match firstPacket s p (·.ttype = 0x02) with
  | none => .next s
  | some k => done (ackRx p k s)
/-- A WRITE that was refused or timed out ends its chain with REMOTE_FAIL; later held writes of its stream are never
issued (R208). -/
def writeFailed (tid : BitVec 32) (cause : Nat) (s : State) : State :=
  match s.remote.find? fun r => r.2.2.tid = tid with
  | none => s
  | some (g, c, w) =>
    let s := retire tid s
    if w.coll then collAnswered g c (collLost g c w s) else chainSettle g c (releasePlain g c (remoteFail g c w cause s))
def execNack (p : Fin 17) (s : State) : Host.Outcome State Fault Refusal :=
  match firstPacket s p (·.ttype = 0x03) with
  | none => .next s
  | some k => done (writeFailed k.tid k.cause.toNat (dropPacket p k s))
def execWriteTimeout (tid : BitVec 32) (s : State) : Host.Outcome State Fault Refusal :=
  doneIf (s.remote.any fun r => r.2.2.tid = tid) s (writeFailed tid 0xFF)

/-! ### Time frames (R211, R215, R391) -/

/-- The order a time frame carries: of those whose T has not passed, the one of lowest T. -/
def orderOut (s : State) : Option FrzOrder :=
  (s.frz.orders.filter fun o => decide (s.time.it ≤ o.t)).foldl (fun (m : Option FrzOrder) o =>
    match m with | none => some o | some x => some (if o.t < x.t then o else x)) none
/-- A time frame leaves an up port (R215, Table 9.4). -/
def timeFrameTx (p : Fin 16) (s : State) : State :=
  let x := vget s.ports p
  let t := s.time
  let f : TimeFrame := {
    tx := t.it, echoTx := x.lastPeerTx, echoRx := x.lastPeerRx, gmId := t.gmId,
    stratum := if t.st = .free || t.noGm then 0xFF else t.stratum.setWidth 8,
    locked := t.st = .locked, holdover := t.st = .holdover, refLost := t.refLost, tseq := x.tseq, order := orderOut s }
  s.modPort p fun x => { x.send (.time f) with
    timeOut := some f, tseq := x.tseq + 1, txTimes := (t.it :: x.txTimes).take 4 }
def execTimeFrameTx (p : Fin 16) (s : State) : Host.Outcome State Fault Refusal :=
  doneIf ((vget s.ports p).st = .up) s (timeFrameTx p)

/-- A value published in w bits: the value where it fits, else a free value (log 6). -/
def fitU (w : Nat) (v : Int) (s : State) : BitVec w × State :=
  if 0 ≤ v ∧ v < 2 ^ w then (BitVec.ofInt w v, s) else let r := freshFree s; (r.1.setWidth w, r.2)
def fitS (w : Nat) (v : Int) (s : State) : BitVec w × State :=
  if -(2 ^ (w - 1)) ≤ v ∧ v < 2 ^ (w - 1) then (BitVec.ofInt w v, s) else let r := freshFree s; (r.1.setWidth w, r.2)
/-- Engines with a running axis keep their phase when installation time is loaded (R244). -/
def keepGrids (by_ : Int) (s : State) : State :=
  (List.finRange 8).foldl (fun s e =>
    if (engineAxes e).any fun a => (vget s.axes a).st.runs then
      (engineAxes e).foldl (fun s a => s.modAxis a fun x => { x with
        aligned := false, phase := x.phase - BitVec.ofInt 64 by_ }) s
    else s) s
/-- Installation time is loaded in one step, which may be backward (R211). What waits on an interval rather than on an
installation time moves with it, so that no pulse, frame, hold or pending commit lasts longer or shorter (R19). -/
def loadIt (by_ : Int) (s : State) : State :=
  let mv : Time → Time := fun t => t + BitVec.ofInt 64 by_
  let s := keepGrids by_ s
  { s with
    axes := s.axes.map fun x => { x with
      lastTick := mv x.lastTick, safeHold := x.safeHold.map mv, laneT := mv x.laneT
      laneIn := (mv x.laneIn.1, x.laneIn.2), laneInOld := (mv x.laneInOld.1, x.laneInOld.2) }
    lanes := s.lanes.map fun l => { l with
      req := l.req.map fun r => { r with t0 := mv r.t0 }
      answers := l.answers.map fun a => (mv a.1, a.2), missed := l.missed.map mv }
    fbk := s.fbk.map fun x => { x with
      badSince := mv x.badSince, edges := x.edges.map mv, ssiRun := x.ssiRun.map mv, ssiEnd := mv x.ssiEnd }
    cc := { s.cc with cmp := s.cc.cmp.map fun c => { c with pulseEnd := mv c.pulseEnd }, cap := s.cc.cap.map fun c => { c with edgeIt := mv c.edgeIt } }
    can := s.can.map fun c => { c with sofAt := mv c.sofAt, flag := c.flag.map fun g => { g with start := mv g.start } }
    dsp := { s.dsp with goIt := mv s.dsp.goIt }
    ports := s.ports.map fun x => { x with naks := x.naks.map mv }
    power := { s.power with slowSince := mv s.power.slowSince, dom := s.power.dom.map fun d => { d with lowSince := mv d.lowSince } }
    time := { s.time with it := mv s.time.it } }
/-- A mean offset steers the time base: a FREE chip loads IT in one step, any other slews (R211, R214). -/
def steer (mean : Int) (s : State) : State :=
  let r := fitS 32 mean s
  let s := r.2.modTime fun t => { t with ofs := r.1, otag := t.otag.bump }
  let far := decide (4 < absInt mean)
  match s.time.st with
  | .free => timeEvent 0x62 ((loadIt mean s).modTime fun t => { t with
      st := .locked, everLocked := true, slew := false })
  | .holdover => timeEvent 0x62 (s.modTime fun t => { t with st := .locked, everLocked := true, slew := far })
  | .locked => s.modTime fun t => { t with slew := far }
/-- The exchange of a time frame whose echo is one of the last 4 sent: delay and offset are published, the link's use for
time is judged, and a follower steers by the mean over its references (R195, R210, R211, R215). -/
def exchange (p : Fin 16) (f : TimeFrame) (arrival : Time) (s : State) : State :=
  let a : Int := (f.echoRx.toNat : Int) - f.echoTx.toNat
  let b : Int := (arrival.toNat : Int) - f.tx.toNat
  let delay := (a + b) / 2
  let offset := (a - b) / 2
  let r := fitU 20 delay s
  let q := fitS 20 offset r.2
  let s := q.2.modPort p fun x => { x with
    delay := r.1, ofs := q.1, dtag := x.dtag.bump, timeUse := decide (delay ≤ 1600) }
  let s := timeSelect s
  if s.time.gm || s.time.noGm || isFenced s timeFid then s else
  let refs := timeRefs s s.time.gmId
  if p ∈ refs then
    let vs := refs.map fun r => if r = p then offset else (vget s.ports r).ofs.toInt
    steer (vs.foldl (· + ·) 0 / (vs.length : Int)) s
  else s
/-- A received time frame (R198, R215, R391). -/
def timeFrame (p : Fin 16) (h : LinkHdr) (f : TimeFrame) (arrival : Time) (s : State) : State :=
  let s := linkHdr p h s
  let known := f.echoTx ∈ (vget s.ports p).txTimes
  let s := s.modPort p fun x => { x with
    lastPeerTx := f.tx, lastPeerRx := arrival, stratum := f.stratum, gmId := f.gmId, peerLocked := f.locked }
  let s := if known then exchange p f arrival s else timeSelect s
  match f.order with
  | some o => orderRx o s
  | none => s
/-- The frame arrives at the present installation time. One whose CRC fails is lost (R198). -/
def execTimeFrameRx (p : Fin 16) (frame : List Byte) (fec : BitVec 16) (s : State) : Host.Outcome State Fault Refusal :=
  doneIf ((vget s.ports p).st = .up && frameOk frame && frameType frame = 2) s
    (timeFrame p (frameHdr fec frame) (timeOf (framePay frame) (framePlen frame)) s.time.it)

end Sys2Proof.Machine
end

