-- ==== Sys2Proof/Machine/Lanes.lean ====
section
/-! DEFINITION. Reflex lanes (spec/08, 8.6; R260 to R262): requests, the network of Table 8.9, answers and deadlines. -/
namespace Sys2Proof.Machine

/-- The format of a lane's weights (WFMT). -/
def laneFmt (w : Nat) : ElFmt := (elFmt (if w = 0 then 1 else if w = 1 then 2 else 0x10)).getD ⟨.flt fmt16, 16, false, 0⟩
/-- Elements of a stored row: padded to 32 for MXFP8 (R189). -/
def rowLen (f : ElFmt) (n : Nat) : Nat := if f.mx then ceilDiv n 32 * 32 else n
/-- Bytes of a layer's weights without their scales. -/
def layerBytes (f : ElFmt) (l : Layer) : Nat := l.nout * f.rowBytes (rowLen f l.nin)
/-- Row j of a layer's weights. -/
def weightRow (f : ElFmt) (img : List Byte) (l : Layer) (j : Nat) : List FV :=
  let n := rowLen f l.nin
  let rb := f.rowBytes n
  let sc := slice img (l.wofs + layerBytes f l + j * (n / 32)) (if f.mx then n / 32 else 0)
  (f.row (slice img (l.wofs + j * rb) rb) sc n).take l.nin
/-- A layer's input rounded into WFMT (R190). -/
def laneRound (f : ElFmt) (x : List F32) : List FV :=
  let c := f.convRow f.mx 0 0 0 (x.map f32v)
  f.row c.1 c.2.1 x.length
/-- One layer: R180 dot products, bias, activation (R190). -/
def laneLayer (n : Lane) (l : Layer) (x : List F32) : List F32 :=
  let f := laneFmt n.wfmt.toNat
  let v := laneRound f x
  (List.range l.nout).map fun j =>
    let d := dotTensor v (weightRow f n.model l j)
    let d := if l.bofs = 0 then d else f32add d (BitVec.ofNat 32 (leAt n.model (l.bofs + 4 * j) 4))
    actFn l.act.toNat d
/-- The network on an input vector: norm pairs, then the layers (Table 8.9, R190). -/
def laneNet (n : Lane) (x : List F32) : List F32 :=
  let x := if n.normOfs = 0 then x else x.zipIdx.map fun p =>
    f32add (f32mul p.1 (BitVec.ofNat 32 (leAt n.model (n.normOfs + 8 * p.2) 4)))
      (BitVec.ofNat 32 (leAt n.model (n.normOfs + 8 * p.2 + 4) 4))
  n.layers.foldl (fun v l => laneLayer n l v) x
/-- The lane's tiles work: full mode, none held or fenced. -/
def laneWorks (s : State) (l : Fin 8) : Bool :=
  let n := vget s.lanes l
  s.island.mode = .full && n.tiles.all fun t => !(vget s.tiles t).held && !isFenced s (fidMk 2 t)
/-- Four values per axis in ascending order, from its last loop tick before t0 (R261). -/
def laneInput (s : State) (n : Lane) (t0 : Time) : List F32 :=
  let of := fun (a : Fin 32) =>
    let x := vget s.axes a
    let v := if x.laneIn.1 < t0 then x.laneIn.2 else x.laneInOld.2
    (List.range 4).map fun i => v.getD i 0
  (n.axes.flatMap of).take n.nin
/-- A request without an answer: the axes will count a miss. -/
def laneMissed (t0 : Time) (n : Lane) : Lane := { n with req := none, missed := (n.missed ++ [t0]).drop (n.missed.length - 7) }
/-- A lane tick (R261); a request still open there has passed its DEADLINE. -/
def laneTick (l : Fin 8) (s : State) : State :=
  let t0 := s.time.it
  let x := laneInput s (vget s.lanes l) t0
  s.modLane l fun n =>
    let n := match n.req with
      | some q => { laneMissed q.t0 n with late := satInc n.late }
      | none => n
    { n with req := some { t0 := t0, input := x }, requests := satInc n.requests }
def execLaneTick (l : Fin 8) (s : State) : Host.Outcome State Fault Refusal :=
  let n := vget s.lanes l
  doneIf (vsvoGood s && n.on && n.axes ≠ [] && n.period ≠ 0 && s.time.it.toNat % n.period = 0) s (laneTick l)
/-- L at the clock of the lane's die: the cycle term of R191 scaled by 1.6 GHz / f and rounded up, f being the step in
effect, halved while the clock is stretched (R192, R352, R354). -/
def laneBound (s : State) (n : Lane) : Nat :=
  match n.tiles with
  | [] => 0
  | t :: _ =>
    let x := vget s.power.dom ⟨t.val / 16 + 1, by omega⟩
    3200 + ceilDiv ((n.wcl.toNat - 3200) * 40 * (if x.stretching then 2 else 1)) (max 1 x.step.toNat)
/-- Time since the request. -/
def laneAge (s : State) (q : LaneReq) : Nat := s.time.it.toNat - q.t0.toNat
/-- An answer is ready: delivered with its latency, or withheld as NONFINITE (R192). -/
def laneAnswer (l : Fin 8) (q : LaneReq) (s : State) : State :=
  let latency := BitVec.ofNat 24 (laneAge s q)
  s.modLane l fun n =>
    let out := laneNet n q.input
    if out.all f32fin then
      { n with
        req := none, answers := (n.answers ++ [(q.t0, out)]).drop (n.answers.length - 7), last := latency,
        max := if n.max < latency then latency else n.max, tag := n.tag.bump }
    else { laneMissed q.t0 n with nonfinite := satInc n.nonfinite }
/-- An answer comes no later than L at the die's clock, nor after DEADLINE (R192). -/
def execLaneAnswer (l : Fin 8) (s : State) : Host.Outcome State Fault Refusal :=
  let n := vget s.lanes l
  match n.req with
  | none => .next s
  | some q =>
    doneIf (laneWorks s l && decide (laneAge s q ≤ n.deadline.toNat) && decide (laneAge s q ≤ laneBound s n)) s (laneAnswer l q)
def execLaneDeadline (l : Fin 8) (s : State) : Host.Outcome State Fault Refusal :=
  match (vget s.lanes l).req with
  | none => .next s
  | some q =>
    doneIf (decide (q.t0.toNat + (vget s.lanes l).deadline.toNat ≤ s.time.it.toNat)) s fun s =>
      s.modLane l fun n => { laneMissed q.t0 n with late := satInc n.late }

end Sys2Proof.Machine
end

