-- ==== Sys2Proof/Machine/Scan.lean ====
section
/-! DEFINITION. Boundary scan (19, R428, R429): the TAP's instructions. -/
namespace Sys2Proof.Machine

/-- The TAP operates: VIO18 and VSVO are both good (R428). -/
def tapUp (s : State) : Bool := s.island.vaon && s.island.good.getLsbD 2 && s.island.good.getLsbD 0
/-- The device identification register (Table 19.8). -/
def deviceId : BitVec 32 := 0xB000909B
/-- Signals that the boundary register covers: VIO33, VIO18 and single-ended DDR5 ones (R428). -/
def scanned (i : Nat) : Bool :=
  match signalOf i with
  | some (.fixed scan) => scan
  | some (.analog _ _) => false
  | some _ => true
  | none => false
/-- Any axis is ENABLED or STOPPING. -/
def anyAxisRuns (s : State) : Bool := s.axes.toList.any fun x => x.st.runs
/-- An update of the instruction register; the configured balls follow the instruction in effect (R425, R429). -/
def tapLoad (i : TapInstr) (s : State) : State :=
  { s with tap := { s.tap with instr := if (i = .extest || i = .clamp || i = .highz) && anyAxisRuns s then .bypass else i,
                               reset := false } }
def execExtest (s : State) : Host.Outcome State Fault Refusal := doneIf (tapUp s) s (tapLoad .extest)
def execClamp (s : State) : Host.Outcome State Fault Refusal := doneIf (tapUp s) s (tapLoad .clamp)
def execHighz (s : State) : Host.Outcome State Fault Refusal := doneIf (tapUp s) s (tapLoad .highz)
def execIdcode (s : State) : Host.Outcome State Fault Refusal := doneIf (tapUp s) s (tapLoad .idcode)
/-- Any code that Table 19.8 does not list selects BYPASS; a listed one is another row's. -/
def execBypass (code : BitVec 8) (s : State) : Host.Outcome State Fault Refusal :=
  doneIf (tapUp s && decide (5 ≤ code)) s (tapLoad .bypass)
/-- Levels of a list on signals that the boundary register covers, by index. -/
def scanLevels (l : List (Nat × Bool)) : List (Nat × Bool) :=
  (l.filter fun p => scanned p.1).foldl (fun m p => spPut false m p.1 p.2) []
/-- SAMPLE captures the balls' levels, PRELOAD shifts in the boundary register's. -/
def execSamplePreload (capture preload : List (Nat × Bool)) (s : State) : Host.Outcome State Fault Refusal :=
  doneIf (tapUp s) s fun s =>
    let t := tapLoad .sample s
    { t with tap := { t.tap with captured := scanLevels capture, boundary := scanLevels preload } }
/-- TRST_N low: Test-Logic-Reset, which selects IDCODE. -/
def execTapReset (s : State) : Host.Outcome State Fault Refusal :=
  done { s with tap := { s.tap with instr := .idcode, reset := true } }

end Sys2Proof.Machine
end

