-- ==== Sys2Proof/Machine/Start.lean ====
section
/-! DEFINITION. The steps of a start after its rails (Table 3.3, R60): fuses, PLLs, slot choice, memory training, BIST,
plan application, release. -/
namespace Sys2Proof.Machine

/-- A start is at a step and nothing else holds the sequencer. -/
def atStep (s : State) (n : BitVec 4) : Bool :=
  s.island.vaon && s.island.seqr = .idle && match s.island.start with | some r => r.step = n && r.failed.isNone | none => false
/-- What a step does with the start in progress. -/
def withRun (f : StartRun → State → State) (s : State) : State :=
  match s.island.start with | some r => f r s | none => s
/-- Step 3: under extended checks two readings that differ fail the start (R62). -/
def fusesSensed (same : Bool) (r : StartRun) (s : State) : State :=
  if r.kind = .extended && !same then startFail .fuse s
  else raiseFirst r (s.modIsland fun i => { i with fusesHeld := true })
def execFuseSensingDone (same : Bool) (s : State) : Host.Outcome State Fault Refusal :=
  doneIf (atStep s 3) s (withRun (fusesSensed same))
/-- Step 5 ends: the raise goes on at step 7 (R60). -/
def pllsLocked (r : StartRun) (s : State) : State :=
  let s := s.modIsland fun i => { i with pll := true, start := some { r with step := if r.kind = .raise then 7 else 6 } }
  let s := s.modTime fun t => { t with refLost := false }
  if r.kind = .raise then s else s.modLoader fun l => { l with job := .apply, stage := 1 }
def execPllLocked (s : State) : Host.Outcome State Fault Refusal :=
  doneIf (atStep s 5 && s.island.refclk) s (withRun pllsLocked)
/-- REFCLK absent or out of tolerance, or a PLL not locked within 1 ms (R52). -/
def execPllLockTimeout (s : State) : Host.Outcome State Fault Refusal := doneIf (atStep s 5) s (startFail .clock)
/-- No plan is applied (R38): WRP_STATUS, WRP_SEQ and WRP_HASH read as after a cold start. -/
def planNone (s : State) : State :=
  s.modLoader fun l => { l with active := none, plan := [], isSealed := false, seq := 0, hash := 0 }
/-- Step 6: the slot choice (R38). -/
def planVerified (r : StartRun) (s : State) : State :=
  match slotOrder s with
  | [] =>
    let e := noSlot s
    startFail .plan (planNone (planResult 0 e.1 e.2.1 0 e.2.2.1 e.2.2.2 s))
  | (i, _) :: _ => s.modIsland fun x => { x with
      start := some { r with slot := some i, step := if r.target = 2 then 7 else 9 } }
def execPlanVerifyDone (s : State) : Host.Outcome State Fault Refusal := doneIf (atStep s 6) s (withRun planVerified)
/-- The training results on record, those still in the journal's queue first. -/
def trainingNow (s : State) : Option Training :=
  match s.store.queue.reverse.findSome? (fun w => match w with | .training t => some t | _ => none) with
  | some t => some t
  | none => s.store.training
/-- Hash of the plan of a start: the chosen slot's, for a raise the active plan's. -/
def startHash (r : StartRun) (s : State) : BitVec 384 :=
  match r.slot with
  | some i => (match slotImage s i with | some img => planHash img | none => 0)
  | none => s.loader.hash
/-- Whether step 7 reuses stored results (R63). -/
def canReuse (r : StartRun) (temp : BitVec 16) (s : State) : Bool :=
  r.kind = .warm && match trainingNow s with
    | some t => t.hash = startHash r s && decide ((temp.toInt - t.temp.toInt).natAbs ≤ 160)
    | none => false
/-- Step 7 (R60, R63, R78, R366). -/
def trained (x : TrainResult) (r : StartRun) (s : State) : State :=
  let reuse := canReuse r x.temp s
  if !reuse && !x.ok then startFail .train s else
  let s := if reuse then s else storeReq (.training { hash := startHash r s, temp := x.temp }) s
  let s := s.modIsland fun i => { i with
    ddrSize := 8 * 2 ^ (34 + x.dimm.toNat), trained := true
    start := some { r with reused := reuse, step := if r.kind = .warm then 9 else 8 } }
  if r.kind = .cold || r.kind = .extended then ageAll x.ageing s else s
def execMemoryTrainingDone (r : TrainResult) (s : State) : Host.Outcome State Fault Refusal :=
  doneIf (atStep s 7) s (withRun (trained r))
/-- Step 8. -/
def bistDone (pass : Bool) (r : StartRun) (s : State) : State :=
  if pass then s.modIsland fun i => { i with start := some { r with step := 9 } } else startFail .bist s
def execBistDone (pass : Bool) (s : State) : Host.Outcome State Fault Refusal :=
  doneIf (atStep s 8) s (withRun (bistDone pass))
/-- Step 10 of a start to full mode: the control clusters of partitions and core 0 are released (R116, R117, R404). -/
def releaseHost (s : State) : State :=
  let s := (List.finRange 4).foldl (fun (s : State) (d : Fin 4) =>
    if (partOf s (fidMk 13 d)).isSome then
      { s with clusterHeld := s.clusterHeld &&& ~~~(1#4 <<< d.val), clusterStop := s.clusterStop &&& ~~~(1#4 <<< d.val) }
    else s) (loadFirmware s)
  match coreVector s 0 with
  | some v => coreRelease 0 v s
  | none => s
/-- A start completes: FAILCNT 0, the mode, the result (R60, R65, R67). -/
def startEnd (r : StartRun) (s : State) : State :=
  let full := r.target = 2
  let s := if full then releaseHost (domainsFull s) else s
  let s := setBlock (fun b => { b with failCnt := 0 }) s
  let s := s.modIsland fun i => { i with
    mode := if full then .full else .servoOnly, everFull := i.everFull || full, kind := r.kind, reused := r.reused,
    prevFailed := false, start := none, seqr := .idle }
  startResult .ok s
/-- Step 9, and with it step 10: the slots in order, for a raise the active plan alone (R35, R38, R57, R58). -/
def planApplied (r : StartRun) (s : State) : State :=
  let s := trimsFromStore s
  if r.kind = .raise then
    match runStages .raise s.loader.plan s with
    | (s, none) => startEnd r (planResult 0 0 12 0 0 s.loader.seq s)
    | (s, some e) =>
      let s := match s.loader.active with | some i => setRejected i true s | none => s
      startFail .plan (planResult 0 e.2.1 e.1 0 e.2.2 s.loader.seq s)
  else
    match applySlots (if r.target = 2 then .full else .servo) (slotOrder s) s with
    | (s, true) => startEnd r s
    | (s, false) => startFail .plan (planNone s)
def execPlanApplyDone (s : State) : Host.Outcome State Fault Refusal := doneIf (atStep s 9) s (withRun planApplied)

end Sys2Proof.Machine
end

