-- ==== Sys2Proof/Machine/Training.lean ====
section
/-! DEFINITION. The rows of training support (spec/10): OPEN, CONTRIB, CLOSE, collective packets, deadlines, checkpoints,
failure and recovery, pace notices. -/
namespace Sys2Proof.Machine

/-! ### The COLLECTIVE command (R222 to R226) -/

def Cmd.sub (c : Cmd) : Nat := byteAt c.bytes 32
/-- Die and slot of a COLLECTIVE command; a slot above 7 names none. -/
def Cmd.collSlot (c : Cmd) : Option (Fin 4 × Fin 8) :=
  if h : byteAt c.bytes 33 < 8 then some (⟨fidIdx c.target % 4, by omega⟩, ⟨byteAt c.bytes 33, h⟩) else none
/-- HELLOs to every other chip of the list (R223). -/
def sendHellos (d : Fin 4) (k : Fin 8) (c : ChanDesc) (p : Fin 32) (s : State) : State :=
  (c.members.zipIdx.filter fun y => y.2 ≠ c.self).foldl (fun s y =>
    sendWrite (collGroup d) k (collPacket c p y.1 5 0 0 false (natLe 4 c.crc.toNat)) s) s
/-- OPEN of a free slot with a readable descriptor. -/
def openWith (n : Fin 64) (k : Nat) (cmd : Cmd) (p : Fin 32) (d : Fin 4) (q : Fin 8) (b : List Byte) (s : State) : State :=
  let c := chanDesc b
  if !descInRange s b c || !descPlaced s p c then endCmd n k 0x140 0 s else
  match stackOf c.master with
  | none => endCmd n k 0x140 0 s
  | some st =>
    if !allClaimed s st p then endCmd n k 0x141 0 s else
    match rangeWrite (chanUnit d p) c.acc (List.replicate (8 * c.S) 0) s with
    | (.err e, x, s) => endCmd n k 4 (x % 2 ^ 32) (accessError (clusterFid d) true e x s)
    | (.poison, x, s) => endCmd n k 8 (x % 2 ^ 32) (poisonHit (clusterFid d) s)
    | (.ok _, _, s) =>
    let s := stackMode st true c.acc (c.acc + 8 * c.S - 1) s
    let s := s.modChan d q fun x => { ord := x.ord, st := .opening, desc := some c, part := p,
                                      openCmd := some (n, cmd.slot), hellos := [c.self] }
    setCmd n k .running (sendHellos d q c p s)
/-- OPEN (R223). -/
def openCh (n : Fin 64) (k : Nat) (cmd : Cmd) (s : State) : State :=
  match queuePart s n, cmd.collSlot with
  | none, _ => endCmd n k 3 0 s
  | some _, none => endCmd n k 0x140 0 s
  | some p, some (d, q) =>
    let a := leAt cmd.bytes 48 8
    let u : Unit_ := { fid := clusterFid d, part := p, side := .plain, core := true }
    if cmd.sub ≠ 0 ∨ (s.chan d q).st ≠ .closed ∨ a % 8 ≠ 0 then endCmd n k 0x140 0 s else
    match rangeRead u a 128 s with
    | (.ok h, _, s) =>
      (match rangeRead u a (128 + 2 * min 4160 (leAt h 4 2 + leAt h 6 2)) s with
      | (.ok b, _, s) => openWith n k cmd p d q b s
      | (.err e, x, s) => endCmd n k 4 (x % 2 ^ 32) (accessError u.fid false e x s)
      | (.poison, x, s) => endCmd n k 8 (x % 2 ^ 32) (poisonHit u.fid s))
    | (.err e, x, s) => endCmd n k 4 (x % 2 ^ 32) (accessError u.fid false e x s)
    | (.poison, x, s) => endCmd n k 8 (x % 2 ^ 32) (poisonHit u.fid s)
/-- A COLLECTIVE command of a SUB that may begin; OPEN's row takes a SUB that names none. -/
def beginColl (s : State) (n : Fin 64) (k : Nat) (sub : Nat) : Option Cmd :=
  match beginCmd s n k 0x40 with
  | some c => if c.sub = sub ∨ (sub = 0 ∧ 2 < c.sub) then some c else none
  | none => none
def execOpen (n : Fin 64) (k : Nat) (s : State) : Host.Outcome State Fault Refusal :=
  match beginColl s n k 0 with
  | none => .next s
  | some c => doneFrom s (openCh n k c s)

/-- The shard's elements after error feedback: what is coded, and how many were replaced (R226). -/
def feedback (g r : List F32) : List F32 × Nat :=
  (g.zip r).foldl (fun (a : List F32 × Nat) x =>
    let e := f32add x.1 x.2
    if f32fin e then (a.1 ++ [e], a.2) else (a.1 ++ [0], a.2 + 1)) ([], 0)
/-- The residual of a shard: what its code does not carry (R226). -/
def residual (es : List F32) (dec : Coded) : List Byte :=
  es.zipIdx.flatMap fun x => natLe 4 (f32sub x.1 (((dec.find? (·.1 = x.2)).map (·.2)).getD 0)).toNat
/-- CONTRIB: GRAD and RESID are read, each shard coded, RESID updated, every shard sent to its owner (R224 to R226). A
refused write of RESID ends the command, and nothing is sent (log 43). -/
def contribSend (n : Fin 64) (k : Nat) (cmd : Cmd) (d : Fin 4) (q : Fin 8) (c : ChanDesc) (step : BitVec 32)
    (grad resid : List Byte) (s : State) : State :=
  let w := fun (b : List Byte) i => (BitVec.ofNat 32 (leAt b (4 * i) 4) : F32)
  let p := (s.chan d q).part
  let shards := (List.range c.nmemb).map fun m =>
    let idx := (List.range c.S).map (· + m * c.S)
    let es := feedback (idx.map (w grad)) (idx.map fun i => if c.resid = 0 then 0 else w resid i)
    (es, codeShard c es.1)
  let rest := if c.resid = 0 then [] else shards.flatMap fun x => residual x.1.1 x.2.2
  match rangeWrite (chanUnit d p) c.resid rest s with
  | (.err e, a, s) => endCmd n k 4 (a % 2 ^ 32) (accessError (clusterFid d) true e a s)
  | (.poison, a, s) => endCmd n k 8 (a % 2 ^ 32) (poisonHit (clusterFid d) s)
  | (.ok _, _, s) =>
    let s := shards.zipIdx.foldl (fun s x => collStream d q c p (c.members.getD x.2 0) 0 step x.1.2.1 s) s
    let nonfin := shards.foldl (fun a x => a + x.1.2) 0
    setCmd n k .running (s.modChan d q fun x => { x with
      nextStep := step + 1, contrib := x.contrib ++ [{ origin := (n, cmd.slot), step := step, nonfin := nonfin }] })
def contribCh (n : Fin 64) (k : Nat) (cmd : Cmd) (d : Fin 4) (q : Fin 8) (s : State) : State :=
  let x := s.chan d q
  let step := BitVec.ofNat 32 (leAt cmd.bytes 40 4)
  match x.st, x.desc with
  | .run, some c =>
    if c.nmemb ≤ c.self then endCmd n k 0x140 0 s
    else if step ≠ x.nextStep then endCmd n k 0x147 0 s
    else
      let u := chanUnit d x.part
      match rangeRead u c.grad (4 * c.nelem) s with
      | (.ok g, _, s) =>
        (match (if c.resid = 0 then (.ok [], 0, s) else rangeRead u c.resid (4 * c.nelem) s : AccRes × Nat × State) with
        | (.ok r, _, s) => contribSend n k cmd d q c step g r s
        | (.err e, a, s) => endCmd n k 4 (a % 2 ^ 32) (accessError u.fid false e a s)
        | (.poison, a, s) => endCmd n k 8 (a % 2 ^ 32) (poisonHit u.fid s))
      | (.err e, a, s) => endCmd n k 4 (a % 2 ^ 32) (accessError u.fid false e a s)
      | (.poison, a, s) => endCmd n k 8 (a % 2 ^ 32) (poisonHit u.fid s)
  | .halted, _ => endCmd n k 0x144 0 s
  | .recovering, _ => endCmd n k 0x145 0 s
  | .expelled, _ => endCmd n k 0x146 0 s
  | _, _ => endCmd n k 0x140 0 s
/-- Sending of a step begins once every packet of the member's step two before is acknowledged (R228). -/
def contribMayBegin (s : State) (d : Fin 4) (q : Fin 8) (step : Nat) : Bool :=
  !collPending s d q fun b => ckindOf b = 0 && decide (cstepOf b + 2 ≤ step)
def execContrib (n : Fin 64) (k : Nat) (s : State) : Host.Outcome State Fault Refusal :=
  match beginColl s n k 1 with
  | none => .next s
  | some c =>
    match c.collSlot with
    | none => done (endCmd n k 0x140 0 s)
    | some (d, q) => doneIf (contribMayBegin s d q (leAt c.bytes 40 4)) s (contribCh n k c d q)

/-- Shards whose short copies of a step have not landed. -/
def missing (x : Chan) (c : ChanDesc) (step : BitVec 32) : Nat :=
  ((List.range c.nmemb).filter fun m => !((step, m) ∈ x.gathers)).length
/-- A slot is freed: its operations abandoned, its engines back to DIRECT (R223). -/
def freeSlot (d : Fin 4) (q : Fin 8) (s : State) : State :=
  match (s.chan d q).desc with
  | none => s.modChan d q fun x => { ord := x.ord }
  | some c =>
    let s := chanAbort d q c s
    let s := match stackOf c.master with | some k => stackDirect k s | none => s
    s.modChan d q fun x => { ord := x.ord }
/-- CLOSE (R223); a CONTRIB still in progress ends with the shards it has. -/
def closeCh (n : Fin 64) (k : Nat) (d : Fin 4) (q : Fin 8) (s : State) : State :=
  let x := s.chan d q
  match x.desc with
  | none => endCmd n k 0x140 0 s
  | some c =>
    let s := x.contrib.foldl (fun s r => finishCmd r.origin 0x143
      (BitVec.ofNat 32 (missing x c r.step % 65536 + 65536 * min r.nonfin 65535)) s) s
    let s := match x.st, x.openCmd with
      | .opening, some o => finishCmd o 0x142 0 s
      | _, _ => s
    endCmd n k 0 0 (freeSlot d q s)
def execClose (n : Fin 64) (k : Nat) (s : State) : Host.Outcome State Fault Refusal :=
  match beginColl s n k 2 with
  | none => .next s
  | some c =>
    match c.collSlot with
    | none => done (endCmd n k 0x140 0 s)
    | some (d, q) => done (closeCh n k d q s)

/-! ### HELLOs (R223, R235) -/

/-- A packet refused (R235, R207). -/
def collRefuse (p : Fin 17) (k : Packet) (cause : BitVec 8) (rat : BitVec 3) (s : State) : State :=
  answer k (some cause) (accessError (arriveFid p k) true rat k.daddr.toNat s)
/-- OPEN fails: BAD_PEER, and the slot is freed. -/
def openFails (d : Fin 4) (q : Fin 8) (s : State) : State :=
  let o := (s.chan d q).openCmd
  let s := freeSlot d q s
  match o with | some o => finishCmd o 0x142 0 s | none => s
def channelHello (p : Fin 17) (k : Packet) (s : State) : State :=
  let s := dropPacket p k s
  if 32 ≤ k.spart.toNat || !partTakes s (packetPart k) then collRefuse p k 4 1 s else
  match findChan s (packetPart k) (leAt k.data 0 2) with
  | none => collRefuse p k 5 6 s
  | some (d, q) =>
    let s := answer k none s
    let x := s.chan d q
    match x.desc with
    | none => s
    | some c =>
      let i := leAt k.data 12 2
      if c.members[i]? ≠ some k.schip ∨ x.st ≠ .opening then s
      else if leAt k.data 16 4 ≠ c.crc.toNat then openFails d q s
      else
        let hs := insertNat i x.hellos
        let s := s.modChan d q fun x => { x with hellos := hs }
        if hs.length = c.nmemb + c.nspare then
          let s := s.modChan d q fun x => { x with st := .run, openCmd := none }
          match x.openCmd with | some o => finishCmd o 0 0 s | none => s
        else s
def isColl (f : Nat → Bool) (k : Packet) : Bool := k.ttype = 0x10 && f (ckindOf k.data)
def execChannelHello (p : Fin 17) (s : State) : Host.Outcome State Fault Refusal :=
  match firstPacket s p (isColl (· = 5)) with
  | none => .next s
  | some k => done (channelHello p k s)
def execOpenTimeout (d : Fin 4) (k : Fin 8) (s : State) : Host.Outcome State Fault Refusal :=
  doneIf ((s.chan d k).st = .opening) s (openFails d k)

/-! ### Collective packets (R216, R233 to R235) -/

/-- Where a packet's bytes go, as ranges in their order; none outside its area. A gather's stream holds the slice's
elements and then, for MXFP8, its scales: a packet may hold the end of the one and the start of the other (R216, R230). -/
def collPlace (s : State) (c : ChanDesc) (ck m : Nat) (step : BitVec 32) (ofs n : Nat) : Option (List (Nat × Nat)) :=
  let q := chanParam s c
  let cksz := chanCksz s c
  let g := if c.ckptEvery = 0 then 0 else step.toNat / c.ckptEvery % 2
  match ck with
  | 0 => if m < c.nmemb ∧ ofs + n ≤ c.cbytes then some [(stageSlot c m step + ofs, n)] else none
  | 1 =>
    let len := c.S * shortBytes q.sfmt
    let el := min n (len - ofs)
    let sc := c.S / 32
    if c.nmemb ≤ m then none
    else if ofs + n ≤ len then some [(c.short + m * len + ofs, n)]
    else if q.sfmt = 2 ∧ ofs + n ≤ len + sc ∧ c.self * sc ≤ q.sscale then
      some ((if el = 0 then [] else [(c.short + m * len + ofs, el)]) ++
        [(q.sscale - c.self * sc + m * sc + (ofs + el - len), n - el)])
    else none
  | 3 => if c.ckptEvery ≠ 0 ∧ ofs + n ≤ cksz then some [(c.ckpt + (2 + g) * cksz + ofs, n)] else none
  | 4 => if c.ckptEvery ≠ 0 ∧ ofs + n ≤ cksz then some [(c.ckpt + g * cksz + ofs, n)] else none
  | _ => none
/-- A packet's bytes written to their ranges. -/
def collPut (u : Unit_) : List (Nat × Nat) → List Byte → State → State
  | [], _, s => s
  | (a, n) :: l, bs, s => collPut u l (bs.drop n) (rangeWrite u a (bs.take n) s).2.2
/-- The FINAL packet of a stream has landed. -/
def collFinal (d : Fin 4) (q : Fin 8) (c : ChanDesc) (ck m : Nat) (step : BitVec 32) (s : State) : State :=
  let g : Fin 2 := ⟨(if c.ckptEvery = 0 then 0 else step.toNat / c.ckptEvery) % 2, by omega⟩
  match ck with
  | 0 => if (s.chan d q).st = .run then tryEarlyClose d q (landOne d q c (step, m, s.time.it) s) else s
  | 1 => s.modChan d q fun x => if x.st ≠ .run then x else { x with
      gathers := if (step, m) ∈ x.gathers then x.gathers else x.gathers ++ [(step, m)] }
  | 3 => s.modChan d q fun x => { x with mirrorGen := vset x.mirrorGen g (some step) }
  | _ =>
    let s := s.modChan d q fun x => { x with localGen := vset x.localGen g (some step) }
    if (s.chan d q).st = .recovering then restoreShard d q c step s else s
def collectiveRx (p : Fin 17) (k : Packet) (s : State) : State :=
  let s := dropPacket p k s
  let part := packetPart k
  if 32 ≤ k.spart.toNat || !partTakes s part then collRefuse p k 4 1 s else
  match findChan s part (leAt k.data 0 2) with
  | none => collRefuse p k 5 6 s
  | some (d, q) =>
    match (s.chan d q).desc with
    | none => collRefuse p k 5 6 s
    | some c =>
      let ck := ckindOf k.data
      let m := leAt k.data 12 2
      let step := BitVec.ofNat 32 (cstepOf k.data)
      let body := k.data.drop 16
      match collPlace s c ck m step (leAt k.data 8 4) body.length with
      | none => collRefuse p k 5 6 s
      | some l =>
        match (l.flatMap fun r => wordsOf r.1 r.2).findSome? fun w => (wordRefused s part w.1 w.2).map fun r => (w.1, r) with
        | some r => answer k (some r.2.1) (recordRefusal (arriveFid p k) r s)
        | none =>
          let s := collPut { fid := arriveFid p k, part := part, side := .engine, core := false } l body s
          let s := answer k none s
          if k.final then collFinal d q c ck m step s else s
def execCollectivePacketRx (p : Fin 17) (s : State) : Host.Outcome State Fault Refusal :=
  match firstPacket s p (isColl fun c => c ≠ 2 && c ≠ 5) with
  | none => .next s
  | some k => doneFrom s (collectiveRx p k s)

/-! ### Deadlines, completion, checkpoints (R224, R228, R233) -/

/-- deadline(s) of the open step has come. -/
def atDeadline (s : State) (d : Fin 4) (k : Fin 8) : Option ChanDesc :=
  let x := s.chan d k
  match x.desc with
  | some c => if mayClose s x c && decide (deadlineOf c x.openStep ≤ s.time.it) && clusterRuns s d then some c else none
  | none => none
def execStepDeadline (d : Fin 4) (k : Fin 8) (s : State) : Host.Outcome State Fault Refusal :=
  match atDeadline s d k with
  | some c => doneFrom s (closeStep d k c s)
  | none => .next s
/-- The first CONTRIB in progress may complete: its own sending has ended, and every shard has landed or STEP_IT(s + 1)
has come (R224). -/
def contribEnds (s : State) (d : Fin 4) (k : Fin 8) : Option (ContribRun × ChanDesc) :=
  let x := s.chan d k
  match x.contrib, x.desc with
  | r :: _, some c =>
    let sending := x.out.any fun w => ckindOf w.data = 0 && cstepOf w.data = r.step.toNat
    if !sending && (missing x c r.step = 0 || decide (stepIt c (r.step + 1) ≤ s.time.it)) then some (r, c) else none
  | _, _ => none
def contribDone (d : Fin 4) (k : Fin 8) (r : ContribRun) (c : ChanDesc) (s : State) : State :=
  let m := missing (s.chan d k) c r.step
  let s := s.modChan d k fun x => { x with contrib := x.contrib.drop 1 }
  finishCmd r.origin (if m = 0 then 0 else 0x143) (BitVec.ofNat 32 (m % 65536 + 65536 * min r.nonfin 65535)) s
def execContribComplete (d : Fin 4) (k : Fin 8) (s : State) : Host.Outcome State Fault Refusal :=
  match contribEnds s d k with
  | some (r, c) => done (contribDone d k r c s)
  | none => .next s
/-- Both copies of a checkpoint are complete: class 0x6E, and a waiting OPT_STEP starts (R233). -/
def checkpointDone (d : Fin 4) (k : Fin 8) (c : ChanDesc) (step : BitVec 32) (s : State) : State :=
  let s := chanEvent d c 0x6E (pl 20 step.toNat) (s.modChan d k fun x => { x with ckptPend := none })
  match (s.chan d k).castWait with
  | some (o, .waitCkpt, _) => chanOp d k c 3 o .opt s
  | _ => s
def execCheckpointComplete (d : Fin 4) (k : Fin 8) (s : State) : Host.Outcome State Fault Refusal :=
  match (s.chan d k).ckptPend, (s.chan d k).desc with
  | some step, some c =>
    doneIf (!(s.chan d k).ckptLost && !collPending s d k fun b => ckindOf b = 3 && cstepOf b = step.toNat) s
      (checkpointDone d k c step)
  | _, _ => .next s

/-! ### Failure and recovery (R234) -/

def failNoticeRx (p : Fin 17) (k : Packet) (s : State) : State :=
  let s := dropPacket p k s
  if 32 ≤ k.spart.toNat || !partTakes s (packetPart k) then collRefuse p k 4 1 s else
  match findChan s (packetPart k) (leAt k.data 0 2) with
  | none => collRefuse p k 5 6 s
  | some (d, q) => failNotice d q (leAt k.data 16 2) (BitVec.ofNat 64 (leAt k.data 24 8)) (answer k none s)
def execFailNotice (p : Fin 17) (s : State) : Host.Outcome State Fault Refusal :=
  match firstPacket s p (isColl (· = 2)) with
  | none => .next s
  | some k => doneFrom s (failNoticeRx p k s)
/-- r_it has come: the channel resumes with step c_r + 1 and a new T0, or halts where the restore is not finished. -/
def resume (d : Fin 4) (k : Fin 8) (c : ChanDesc) (r : Recovery) (s : State) : State :=
  if !(s.chan d k).restored then haltChan d k 2 s else
  let n := r.cr + 1
  let t0 := r.rit - n.setWidth 64 * c.period
  let c := { c with t0 := t0 }
  let m := (s.chan d k).replaced.length
  let s := s.modChan d k fun x => { x with
    st := .run, desc := some c, nextStep := n, openStep := n, optRead := n, recover := none, lastRit := some r.rit,
    restored := false, replaced := [], gathers := [] }
  chanEvent d c 0x6B (pl 18 m + pl 20 n.toNat + pl 24 t0.toNat) s
def execRecoveryResume (d : Fin 4) (k : Fin 8) (s : State) : Host.Outcome State Fault Refusal :=
  match (s.chan d k).recover, (s.chan d k).desc with
  | some r, some c => doneIf ((s.chan d k).st = .recovering && decide (r.rit ≤ s.time.it)) s (resume d k c r)
  | _, _ => .next s

/-! ### Pace notices (R232) -/

/-- Class 0x6D on every open channel whose list holds the sender. -/
def paceEvents (chip : BitVec 12) (x : Pace) (began : Bool) (s : State) : State :=
  ((List.finRange 4).flatMap fun d => (List.finRange 8).map fun k => (d, k)).foldl (fun s dk =>
    match (s.chan dk.1 dk.2).desc with
    | some c => if chip ∈ c.members && (s.chan dk.1 dk.2).st ≠ .closed then
        chanEvent dk.1 c 0x6D (pl 18 chip.toNat + pl 20 x.ratio.toNat + pl 21 x.cause.toNat + pl 22 (b2n began) +
          pl 24 x.until_.toNat) s
      else s
    | none => s) s
/-- An open channel lists the chip. -/
def listed (s : State) (chip : BitVec 12) : Bool :=
  ((List.finRange 4).flatMap fun d => (List.finRange 8).map fun k => (d, k)).any fun dk =>
    match (s.chan dk.1 dk.2).desc with
    | some c => chip ∈ c.members
    | none => false
/-- A notice replaces the sender's earlier one, or ends it; early closes are judged again (R228, R232). -/
def paceNotice (p : Fin 17) (k : Packet) (s : State) : State :=
  let s := dropPacket p k s
  let chip := k.schip
  if !listed s chip then s else
  let x : Pace := { chip := chip, ratio := BitVec.ofNat 8 (byteAt k.data 1), cause := BitVec.ofNat 8 (byteAt k.data 0),
                    until_ := BitVec.ofNat 64 (leAt k.data 16 8) }
  let ends := decide (x.until_.toNat ≤ leAt k.data 8 8)
  let had := s.paceFrom.any (·.1 = chip)
  let l := s.paceFrom.filter (·.1 ≠ chip)
  let s := { s with paceFrom := if ends then l else l ++ [(chip, x)] }
  let s := if ends then (if had then paceEvents chip x false s else s) else paceEvents chip x true s
  ((List.finRange 4).flatMap fun d => (List.finRange 8).map fun k => (d, k)).foldl (fun s dk => tryEarlyClose dk.1 dk.2 s) s
def execPaceNoticeRx (p : Fin 17) (s : State) : Host.Outcome State Fault Refusal :=
  match firstPacket s p (·.ttype = 0x20) with
  | none => .next s
  | some k => doneFrom s (paceNotice p k s)
/-- A notice whose UNTIL_IT has passed ends. -/
def execPaceNoticeExpiry (chip : BitVec 12) (s : State) : Host.Outcome State Fault Refusal :=
  match s.paceFrom.find? (·.1 = chip) with
  | none => .next s
  | some x => doneIf (decide (x.2.until_ < s.time.it)) s fun s =>
      paceEvents chip x.2 false { s with paceFrom := s.paceFrom.filter (·.1 ≠ chip) }

end Sys2Proof.Machine
end

