-- ==== Sys2Proof/WellFormed.lean ====
section
/-! DEFINITION. Which commands the outside can send: bounds that the operands' types do not give. -/
namespace Sys2Proof

/-- A rival's rank is one of Table 11.7, its order one of AXS_CONFLICT's. -/
def Rival.wf (r : Rival) : Bool := decide (r.rank ≤ 6) && decide (1 ≤ r.op) && decide (r.op ≤ 5)
/-- A link frame is 256 bytes (R196). -/
def frameWf (frame : List Byte) : Bool := decide (frame.length = 256)
/-- A CAN frame's payload is at most 64 bytes, and 8 in a classical frame (R318). -/
def CanFrame.wf (f : CanFrame) : Bool := decide (f.data.length ≤ if f.fdf then 64 else 8)
/-- Offsets and lengths of a signed transfer's line (R402). -/
def xferDataWf (data : List Byte) : Bool := decide (1 ≤ data.length) && decide (data.length ≤ 64)

/-- Well-formed commands. -/
def Instr.wf : Instr → Bool
  | .inboundPcieAccess _ _ _ len data => decide (1 ≤ len) && decide (len ≤ 4096) && decide (data.length ≤ len)
  | .timeFrameRx _ frame _ => frameWf frame
  | .dataFrameRx _ frame _ _ => frameWf frame
  | .nak _ frame _ => frameWf frame
  | .hello _ frame _ => frameWf frame
  | .enable rank _ _ rs => decide (rank ≤ 6) && rs.all Rival.wf
  | .disable rank _ _ rs => decide (rank ≤ 6) && rs.all Rival.wf
  | .run rank _ _ _ rs => decide (rank ≤ 6) && rs.all Rival.wf
  | .axsStop rank _ _ rs => decide (rank ≤ 6) && rs.all Rival.wf
  | .axsSpWrite rank _ _ _ rs => decide (rank ≤ 6) && rs.all Rival.wf
  | .axsSpdWrite rank _ _ _ rs => decide (rank ≤ 6) && rs.all Rival.wf
  | .hstopAssert _ rs => rs.all Rival.wf
  | .out _ rs => rs.all Rival.wf
  | .reth _ rs => rs.all Rival.wf
  | .frameReceived _ f _ rs => f.wf && rs.all Rival.wf
  | .canError _ e => decide (1 ≤ e.lec) && decide (e.lec ≤ 6)
  | .xferData _ data => xferDataWf data
  | .lineRefused bytes => decide (1 ≤ bytes.length)
  | _ => true

end Sys2Proof
end

