-- ==== Sys2Proof/Machine/Transfers.lean ====
section
/-! DEFINITION. Signed transfers (18.5, R402 to R404): fuse keys, firmware images and plan images over the console. -/
namespace Sys2Proof.Machine

def xferLen : XferKind → Nat | .key n => n | .fw n => n | .plan _ n => n
/-- KIND of the !XFER line: 0 KEY, 1 FW, 2 PLAN. -/
def xferCode : XferKind → Nat | .key _ => 0 | .fw _ => 1 | .plan _ _ => 2
/-- A byte of the transfer's buffer: written bytes stay listed, so that a gap shows. -/
def bufByte : List (Nat × Byte) → Nat → Byte → List (Nat × Byte)
  | [], i, v => [(i, v)]
  | (k, u) :: m, i, v => if i < k then (i, v) :: (k, u) :: m else if i = k then (i, v) :: m else (k, u) :: bufByte m i v
def bufPut : List (Nat × Byte) → Nat → List Byte → List (Nat × Byte)
  | m, _, [] => m
  | m, i, b :: bs => bufPut (bufByte m i b) (i + 1) bs

/-! ### BEGIN, data, END, ABORT -/

/-- Why a BEGIN is refused: a transfer open or checking, its length, its slot. -/
def beginReason (s : State) (k : XferKind) : Reason :=
  if s.console.xfer.isSome then some ("BUSY", [])
  else match k with
    | .key n => reasonIf (262144 < n) "RANGE"
    | .fw n => reasonIf (262144 < n) "RANGE"
    | .plan i n =>
      if wrpBusy s then some ("BUSY", [])
      else if n % 8 ≠ 0 || 4194304 < n then some ("RANGE", [])
      else if s.loader.active = some i then some ("SLOT", [])
      else reasonIf (slotRoom s i < n) "RANGE"
def xferBegin (k : XferKind) (s : State) : State :=
  let s := s.modConsole fun c => { c with xfer := some { kind := k } }
  match k with
  | .plan i _ => storeReq (.slot i .empty) s
  | _ => s
def execXferBegin (kind : XferKind) (s : State) : Host.Outcome State Fault Refusal :=
  action "XFER BEGIN" [xferCode kind, xferLen kind] { lock := true } (beginReason s kind) (xferBegin kind) s
/-- A line outside the length, or with no transfer open (DESIGN CHOICE, log 59). -/
def dataReason (s : State) (off : BitVec 32) (data : List Byte) : Reason :=
  match s.console.xfer with
  | none => some ("SYNTAX", [])
  | some x =>
    if x.ended then some ("SYNTAX", []) else reasonIf (decide (xferLen x.kind < off.toNat + data.length)) "RANGE"
/-- The bytes of a data line; those of a plan go into its slot by an entry of the journal (R402, R408). -/
def xferData (off : BitVec 32) (data : List Byte) (s : State) : State :=
  match s.console.xfer with
  | none => s
  | some x =>
    let s := s.modConsole fun c => { c with xfer := some { x with buf := bufPut x.buf off.toNat data } }
    match x.kind with
    | .plan i _ => storeReq (.slotData i off data) s
    | _ => s
def execXferData (off : BitVec 32) (data : List Byte) (s : State) : Host.Outcome State Fault Refusal :=
  action "XFER" [off.toNat, data.length] { form := xferDataWf data, lock := true } (dataReason s off data)
    (xferData off data) s
/-- END closes the transfer; the check of a plan is the loader's job. -/
def xferEnd (s : State) : State :=
  match s.console.xfer with
  | none => s
  | some x =>
    let s := s.modConsole fun c => { c with xfer := some { x with ended := true } }
    match x.kind with
    | .plan _ _ => s.modLoader fun l => { l with job := .transfer, stage := 1 }
    | _ => s
/-- END of a plan counts as a store request: made while the loader is busy it is ignored and counted (R44, R402), and the
transfer stays open (log 59). -/
def endIgnored (s : State) : Bool :=
  s.island.vaon && s.console.locked && s.console.xferOpen && wrpBusy s &&
  match s.console.xfer with | some x => (match x.kind with | .plan _ _ => true | _ => false) | none => false
def execXferEnd (s : State) : Host.Outcome State Fault Refusal :=
  if endIgnored s then done (refuse "XFER END" [] "BUSY" [] (wrpIgn s)) else
  action "XFER END" [] { lock := true } (reasonIf (!s.console.xferOpen) "SYNTAX") xferEnd s
/-- ABORT abandons an open transfer; a plan's slot stays empty. -/
def xferAbort (s : State) : State := if s.console.xferOpen then s.modConsole fun c => { c with xfer := none } else s
def execXferAbort (s : State) : Host.Outcome State Fault Refusal := action "XFER ABORT" [] { lock := true } none xferAbort s

/-! ### Key requests (Table 18.4, R403) -/

/-- The point of a key field, where it is one of the curve. -/
def keyPoint (b : List Byte) : Option (BitVec 384 × BitVec 384) :=
  let x := beNat (slice b 17 48)
  let y := beNat (slice b 65 48)
  if byteAt b 16 = 4 && ecOn x y then some (BitVec.ofNat 384 x, BitVec.ofNat 384 y) else none
/-- A layout or range field is wrong. -/
def keyForm (b : List Byte) : Bool :=
  b.length = 216 && leAt b 0 4 = 0x59454B57 && decide (byteAt b 4 ≤ 1) && decide (byteAt b 5 ≤ 3) &&
  (decide (byteAt b 6 ≤ 3) || byteAt b 6 = 0xFF) && zeroAt b 7 1 && zeroAt b 113 7 &&
  (if byteAt b 4 = 0 then (keyPoint b).isSome else zeroAt b 16 97)
/-- The key that verifies a request whose slots allow it; none where a slot state forbids it (R403). -/
def keySigner (k : KeySlots) (b : List Byte) : Option (BitVec 384 × BitVec 384) :=
  let slot := byteAt b 5
  let signer := byteAt b 6
  let state := fun (i : Nat) => if h : i < 4 then vget k ⟨i, h⟩ else none
  if byteAt b 4 = 0 then
    if (state slot).isSome then none
    else if signer = 0xFF then (if k.toList.all (·.isNone) then keyPoint b else none)
    else keyOf k signer
  else if (keyOf k slot).isNone then none else keyOf k signer
/-- Revoking the slot leaves no other unrevoked one. -/
def keyLast (k : KeySlots) (b : List Byte) : Bool :=
  byteAt b 4 = 1 && !((List.range 4).any fun i => i ≠ byteAt b 5 && (keyOf k i).isSome)
/-- The code of a key request, judged FORMAT, CHIP, SLOT, LAST, SIG (DEDUCED, log 59). -/
def keyCheck (k : KeySlots) (b : List Byte) : String :=
  if !keyForm b then "FORMAT"
  else if leAt b 8 8 ≠ Config.uid.toNat then "CHIP"
  else match keySigner k b with
    | none => "SLOT"
    | some key =>
      if keyLast k b then "LAST"
      else if ecdsaOk key (b.take 120) (beNat (slice b 120 48)) (beNat (slice b 168 48)) then "OK" else "SIG"
/-- Fuses blown: programmed with KEY, or revoked. -/
def blowKey (b : List Byte) (s : State) : State :=
  s.modIsland fun i => { i with
    keys := vset i.keys (mkFin 4 (by omega) (byteAt b 5)) (if byteAt b 4 = 0 then some (keyPoint b) else some none) }

/-! ### Firmware images (R404) -/

/-- The copy that is not running. -/
def fwSpare (s : State) : Fin 2 :=
  match s.island.fwRun with
  | some c => 1 - c
  | none => match fwChoice s.store with | some (c, _) => 1 - c | none => 0
/-- VERSION of the running copy. -/
def fwRunning (s : State) : Nat :=
  match s.island.fwRun with
  | some c => (match (s.store.getFw c).version with | some v => v.toNat | none => 0)
  | none => match fwChoice s.store with | some (_, v) => v.toNat | none => 0
def fwCheck (s : State) (b : List Byte) : String :=
  if !fwForm b then "FORMAT"
  else if !fwSigned b then "SIG"
  else if leAt b 8 8 < fwRunning s then "VERSION" else "OK"

/-! ### The check completes -/

/-- Fault-log entry of kind 5 and event 0x24 of an accepted transfer (R402, R411). -/
def accepted (act slot version : Nat) (s : State) : State :=
  emit islandFid 0x24 (pl 16 act + pl 17 slot)
    (logEntry { fid := islandFid, kind := 5, detail := BitVec.ofNat 256 (act + 256 * slot + 2 ^ 32 * version) } s)
def sayXfer (k : XferKind) (code : String) (res : BitVec 8) (s : State) : State := say (.xfer (xferCode k) code res) s
/-- The check of a plan: stage 1 and the refusals of R39; it counts as a store (R402). -/
def planTransfer (k : XferKind) (i : Fin 2) (b : List Byte) (s : State) : State :=
  match storeRefusal s i b with
  | some e => sayXfer k "PLAN" e.1 (planResult 2 e.1 e.2.1 0 e.2.2 (planSeq b) s)
  | none => sayXfer k "OK" 0 (accepted 3 i.val (planSeq b).toNat (planResult 2 0 1 0 0 (planSeq b) (storeAccept i b s)))
def keyTransfer (k : XferKind) (b : List Byte) (s : State) : State :=
  let c := keyCheck s.island.keys b
  sayXfer k c 0 (if c = "OK" then accepted (byteAt b 4) (byteAt b 5) 0 (blowKey b s) else s)
def fwTransfer (k : XferKind) (b : List Byte) (s : State) : State :=
  let c := fwCheck s b
  let spare := fwSpare s
  sayXfer k c 0 (if c = "OK" then
    accepted 2 spare.val (leAt b 8 8) (storeReq (.fw spare (.valid (BitVec.ofNat 64 (leAt b 8 8)) b)) s) else s)
/-- The check of an ended transfer, its result and its line. -/
def xferCheck (x : Xfer) (s : State) : State :=
  let s := s.modConsole fun c => { c with xfer := none }
  let gap := x.buf.length ≠ xferLen x.kind
  let b := x.buf.map (·.2)
  match x.kind with
  | .key _ => if gap then sayXfer x.kind "GAP" 0 s else keyTransfer x.kind b s
  | .fw _ => if gap then sayXfer x.kind "GAP" 0 s else fwTransfer x.kind b s
  | .plan i _ =>
    if gap then sayXfer x.kind "GAP" 0 (s.modLoader fun l => { l with job := .none, stage := 0 })
    else planTransfer x.kind i b s
def execXferCheckDone (s : State) : Host.Outcome State Fault Refusal :=
  match s.console.xfer with
  | some x => doneIf (s.island.vaon && x.ended) s (xferCheck x)
  | none => .next s

end Sys2Proof.Machine
end

