-- ==== Sys2Proof/Machine/Dispatch.lean ====
section
/-! DEFINITION. exec: one arm per command, each a direct call of the meaning of its row. -/
namespace Sys2Proof.Machine

def exec (i : Instr) (s : State) : Host.Outcome State Fault Refusal :=
  match i with
  | .registerWrite who addr wide value => Sys2Proof.Machine.execRegisterWrite who addr wide value s
  | .vaonGood damage => Sys2Proof.Machine.execVaonGood damage s
  | .vaonLoss at_ => Sys2Proof.Machine.execVaonLoss at_ s
  | .sysResetN => Sys2Proof.Machine.execSysResetN s
  | .elvStartGo who cold target => Sys2Proof.Machine.execElvStartGo who cold target s
  | .seqRailGood n ramp => Sys2Proof.Machine.execSeqRailGood n ramp s
  | .seqGroupDelay => Sys2Proof.Machine.execSeqGroupDelay s
  | .railEnableTimeout n => Sys2Proof.Machine.execRailEnableTimeout n s
  | .startRetry => Sys2Proof.Machine.execStartRetry s
  | .railFailure n => Sys2Proof.Machine.execRailFailure n s
  | .disorderlyDropDelay => Sys2Proof.Machine.execDisorderlyDropDelay s
  | .pllLocked => Sys2Proof.Machine.execPllLocked s
  | .pllLockTimeout => Sys2Proof.Machine.execPllLockTimeout s
  | .planVerifyDone => Sys2Proof.Machine.execPlanVerifyDone s
  | .memoryTrainingDone r => Sys2Proof.Machine.execMemoryTrainingDone r s
  | .bistDone pass => Sys2Proof.Machine.execBistDone pass s
  | .planApplyDone => Sys2Proof.Machine.execPlanApplyDone s
  | .sysOffN => Sys2Proof.Machine.execSysOffN s
  | .elvPdnGo who grace => Sys2Proof.Machine.execElvPdnGo who grace s
  | .elvPdnAck who grace => Sys2Proof.Machine.execElvPdnAck who grace s
  | .graceExpiry => Sys2Proof.Machine.execGraceExpiry s
  | .railDecayed => Sys2Proof.Machine.execRailDecayed s
  | .refclkLoss pllOnly => Sys2Proof.Machine.execRefclkLoss pllOnly s
  | .refclkReturn => Sys2Proof.Machine.execRefclkReturn s
  | .loadStore n acc ecc => Sys2Proof.Machine.execLoadStore n acc ecc s
  | .amoLrSc n pc op addr dbl rs2 rd aq rl => Sys2Proof.Machine.execAmoLrSc n pc op addr dbl rs2 rd aq rl s
  | .fence n pred succ tso => Sys2Proof.Machine.execFence n pred succ tso s
  | .fenceI n => Sys2Proof.Machine.execFenceI n s
  | .pause n => Sys2Proof.Machine.execPause n s
  | .cboClean n pc addr => Sys2Proof.Machine.execCboClean n pc addr s
  | .cboFlush n pc addr => Sys2Proof.Machine.execCboFlush n pc addr s
  | .cboInval n pc addr => Sys2Proof.Machine.execCboInval n pc addr s
  | .vectorLoadStore n pc elems stopAt => Sys2Proof.Machine.execVectorLoadStore n pc elems stopAt s
  | .vectorArithmetic n pc res => Sys2Proof.Machine.execVectorArithmetic n pc res s
  | .faultOnlyFirstLoad n pc elems => Sys2Proof.Machine.execFaultOnlyFirstLoad n pc elems s
  | .clwMtimecmpAccess n pc write rd => Sys2Proof.Machine.execClwMtimecmpAccess n pc write rd s
  | .timeCsrRead n rd => Sys2Proof.Machine.execTimeCsrRead n rd s
  | .machineTimer n => Sys2Proof.Machine.execMachineTimer n s
  | .supervisorTimer n => Sys2Proof.Machine.execSupervisorTimer n s
  | .interruptTaken n pc => Sys2Proof.Machine.execInterruptTaken n pc s
  | .counterOverflow n i0 => Sys2Proof.Machine.execCounterOverflow n i0 s
  | .msiWrite q core file ident => Sys2Proof.Machine.execMsiWrite q core file ident s
  | .aplicWrite who off value => Sys2Proof.Machine.execAplicWrite who off value s
  | .patrolScrub ecc => Sys2Proof.Machine.execPatrolScrub ecc s
  | .inboundPcieAccess q write addr len data => Sys2Proof.Machine.execInboundPcieAccess q write addr len data s
  | .pcieLinkDown q => Sys2Proof.Machine.execPcieLinkDown q s
  | .pcieLinkUp q width rate => Sys2Proof.Machine.execPcieLinkUp q width rate s
  | .wrpReloadGo who part slot force => Sys2Proof.Machine.execWrpReloadGo who part slot force s
  | .reloadCompareDone => Sys2Proof.Machine.execReloadCompareDone s
  | .reloadDone => Sys2Proof.Machine.execReloadDone s
  | .wrpStoreGo who slot => Sys2Proof.Machine.execWrpStoreGo who slot s
  | .storeVerifyDone => Sys2Proof.Machine.execStoreVerifyDone s
  | .queueEnable who n sqlog cqlog evt => Sys2Proof.Machine.execQueueEnable who n sqlog cqlog evt s
  | .queueDisable who n sqlog cqlog evt => Sys2Proof.Machine.execQueueDisable who n sqlog cqlog evt s
  | .sqDoorbell who n tail => Sys2Proof.Machine.execSqDoorbell who n tail s
  | .cqHeadWrite who n head => Sys2Proof.Machine.execCqHeadWrite who n head s
  | .commandFetch n => Sys2Proof.Machine.execCommandFetch n s
  | .startItReached n => Sys2Proof.Machine.execStartItReached n s
  | .commandDispatch n => Sys2Proof.Machine.execCommandDispatch n s
  | .nop n k => Sys2Proof.Machine.execNop n k s
  | .writeInline n k => Sys2Proof.Machine.execWriteInline n k s
  | .operator n k => Sys2Proof.Machine.execOperator n k s
  | .shuttle n k => Sys2Proof.Machine.execShuttle n k s
  | .peat n k => Sys2Proof.Machine.execPeat n k s
  | .open_ n k => Sys2Proof.Machine.execOpen n k s
  | .contrib n k => Sys2Proof.Machine.execContrib n k s
  | .close n k => Sys2Proof.Machine.execClose n k s
  | .commandComplete n k => Sys2Proof.Machine.execCommandComplete n k s
  | .eventBufferDrain p => Sys2Proof.Machine.execEventBufferDrain p s
  | .watchdog fid => Sys2Proof.Machine.execWatchdog fid s
  | .spmodeWrite who n windowed => Sys2Proof.Machine.execSpmodeWrite who n windowed s
  | .loomInval who n => Sys2Proof.Machine.execLoomInval who n s
  | .operatorStart n => Sys2Proof.Machine.execOperatorStart n s
  | .opNop n => Sys2Proof.Machine.execOpNop n s
  | .gemm n => Sys2Proof.Machine.execGemm n s
  | .eltwise n => Sys2Proof.Machine.execEltwise n s
  | .act n => Sys2Proof.Machine.execAct n s
  | .reduce n => Sys2Proof.Machine.execReduce n s
  | .softmax n => Sys2Proof.Machine.execSoftmax n s
  | .norm n => Sys2Proof.Machine.execNorm n s
  | .convert n => Sys2Proof.Machine.execConvert n s
  | .gather n => Sys2Proof.Machine.execGather n s
  | .shuttleChainStart g c => Sys2Proof.Machine.execShuttleChainStart g c s
  | .shuttleDescriptor g c => Sys2Proof.Machine.execShuttleDescriptor g c s
  | .waitpeatTimeout g c => Sys2Proof.Machine.execWaitpeatTimeout g c s
  | .finalWriteRelease g c => Sys2Proof.Machine.execFinalWriteRelease g c s
  | .peatTake who stk j => Sys2Proof.Machine.execPeatTake who stk j s
  | .peatRelease who stk j => Sys2Proof.Machine.execPeatRelease who stk j s
  | .peatModeWrite who stk j reg value => Sys2Proof.Machine.execPeatModeWrite who stk j reg value s
  | .peatModeSettled stk j => Sys2Proof.Machine.execPeatModeSettled stk j s
  | .peatNone stk j => Sys2Proof.Machine.execPeatNone stk j s
  | .peatSetMode stk j => Sys2Proof.Machine.execPeatSetMode stk j s
  | .peatZero stk j => Sys2Proof.Machine.execPeatZero stk j s
  | .optStep stk j => Sys2Proof.Machine.execOptStep stk j s
  | .cast stk j => Sys2Proof.Machine.execCast stk j s
  | .peatOpDone stk j => Sys2Proof.Machine.execPeatOpDone stk j s
  | .laneTick l => Sys2Proof.Machine.execLaneTick l s
  | .laneAnswer l => Sys2Proof.Machine.execLaneAnswer l s
  | .laneDeadline l => Sys2Proof.Machine.execLaneDeadline l s
  | .timeFrameTx p => Sys2Proof.Machine.execTimeFrameTx p s
  | .timeFrameRx p frame fec => Sys2Proof.Machine.execTimeFrameRx p frame fec s
  | .dataFrameRx p frame fec dateline => Sys2Proof.Machine.execDataFrameRx p frame fec dateline s
  | .nak p frame fec => Sys2Proof.Machine.execNak p frame fec s
  | .hello p frame fec => Sys2Proof.Machine.execHello p frame fec s
  | .linkDown p => Sys2Proof.Machine.execLinkDown p s
  | .ackStallTimeout p => Sys2Proof.Machine.execAckStallTimeout p s
  | .linkRetrain p => Sys2Proof.Machine.execLinkRetrain p s
  | .linkTrained p => Sys2Proof.Machine.execLinkTrained p s
  | .remoteWriteRx p => Sys2Proof.Machine.execRemoteWriteRx p s
  | .ack p => Sys2Proof.Machine.execAck p s
  | .nack p => Sys2Proof.Machine.execNack p s
  | .writeTimeout tid => Sys2Proof.Machine.execWriteTimeout tid s
  | .collectivePacketRx p => Sys2Proof.Machine.execCollectivePacketRx p s
  | .channelHello p => Sys2Proof.Machine.execChannelHello p s
  | .openTimeout d k => Sys2Proof.Machine.execOpenTimeout d k s
  | .stepDeadline d k => Sys2Proof.Machine.execStepDeadline d k s
  | .contribComplete d k => Sys2Proof.Machine.execContribComplete d k s
  | .checkpointComplete d k => Sys2Proof.Machine.execCheckpointComplete d k s
  | .failNotice p => Sys2Proof.Machine.execFailNotice p s
  | .recoveryResume d k => Sys2Proof.Machine.execRecoveryResume d k s
  | .paceNoticeRx p => Sys2Proof.Machine.execPaceNoticeRx p s
  | .currentTick a sdi0 sdi1 sdi2 => Sys2Proof.Machine.execCurrentTick a sdi0 sdi1 sdi2 s
  | .hookStart e => Sys2Proof.Machine.execHookStart e s
  | .hookDeadline a => Sys2Proof.Machine.execHookDeadline a s
  | .enable rank port a rivals => Sys2Proof.Machine.execEnable rank port a rivals s
  | .disable rank port a rivals => Sys2Proof.Machine.execDisable rank port a rivals s
  | .run rank port a src rivals => Sys2Proof.Machine.execRun rank port a src rivals s
  | .axsStop rank port a rivals => Sys2Proof.Machine.execAxsStop rank port a rivals s
  | .axsSpWrite rank port a value rivals => Sys2Proof.Machine.execAxsSpWrite rank port a value rivals s
  | .axsSpdWrite rank port a value rivals => Sys2Proof.Machine.execAxsSpdWrite rank port a value rivals s
  | .segmentPush who a => Sys2Proof.Machine.execSegmentPush who a s
  | .segmentFlush who a => Sys2Proof.Machine.execSegmentFlush who a s
  | .hstopAssert h rivals => Sys2Proof.Machine.execHstopAssert h rivals s
  | .trdStart who e => Sys2Proof.Machine.execTrdStart who e s
  | .trdStop who e => Sys2Proof.Machine.execTrdStop who e s
  | .trdResume who e => Sys2Proof.Machine.execTrdResume who e s
  | .pmCmWrite who e cm idx value => Sys2Proof.Machine.execPmCmWrite who e cm idx value s
  | .bankRegisterWrite who e bank code value => Sys2Proof.Machine.execBankRegisterWrite who e bank code value s
  | .xmYmWrite who e ym idx value => Sys2Proof.Machine.execXmYmWrite who e ym idx value s
  | .longInstructionResume e budget => Sys2Proof.Machine.execLongInstructionResume e budget s
  | .waititWake e => Sys2Proof.Machine.execWaititWake e s
  | .trdNop e => Sys2Proof.Machine.execTrdNop e s
  | .mpy e => Sys2Proof.Machine.execMpy e s
  | .mac e => Sys2Proof.Machine.execMac e s
  | .msu e => Sys2Proof.Machine.execMsu e s
  | .add e => Sys2Proof.Machine.execAdd e s
  | .sub e => Sys2Proof.Machine.execSub e s
  | .adds e => Sys2Proof.Machine.execAdds e s
  | .subs e => Sys2Proof.Machine.execSubs e s
  | .and e => Sys2Proof.Machine.execAnd e s
  | .or e => Sys2Proof.Machine.execOr e s
  | .xor e => Sys2Proof.Machine.execXor e s
  | .mov e => Sys2Proof.Machine.execMov e s
  | .neg e => Sys2Proof.Machine.execNeg e s
  | .abs e => Sys2Proof.Machine.execAbs e s
  | .max2 e => Sys2Proof.Machine.execMax2 e s
  | .min2 e => Sys2Proof.Machine.execMin2 e s
  | .ash e => Sys2Proof.Machine.execAsh e s
  | .lsh e => Sys2Proof.Machine.execLsh e s
  | .rnd e => Sys2Proof.Machine.execRnd e s
  | .acc e => Sys2Proof.Machine.execAcc e s
  | .clr e => Sys2Proof.Machine.execClr e s
  | .cmp e => Sys2Proof.Machine.execCmp e s
  | .mva e => Sys2Proof.Machine.execMva e s
  | .ldi e => Sys2Proof.Machine.execLdi e s
  | .ldih e => Sys2Proof.Machine.execLdih e s
  | .mvr e => Sys2Proof.Machine.execMvr e s
  | .modi e => Sys2Proof.Machine.execModi e s
  | .ldm e => Sys2Proof.Machine.execLdm e s
  | .stm e => Sys2Proof.Machine.execStm e s
  | .jmp e => Sys2Proof.Machine.execJmp e s
  | .bcc e => Sys2Proof.Machine.execBcc e s
  | .call e => Sys2Proof.Machine.execCall e s
  | .ret e => Sys2Proof.Machine.execRet e s
  | .rep e => Sys2Proof.Machine.execRep e s
  | .loop e => Sys2Proof.Machine.execLoop e s
  | .in_ e => Sys2Proof.Machine.execIn e s
  | .out e rivals => Sys2Proof.Machine.execOut e rivals s
  | .reth e rivals => Sys2Proof.Machine.execReth e rivals s
  | .halt e => Sys2Proof.Machine.execHalt e s
  | .waitit e => Sys2Proof.Machine.execWaitit e s
  | .maxi e budget => Sys2Proof.Machine.execMaxi e budget s
  | .mini e budget => Sys2Proof.Machine.execMini e budget s
  | .bmac e budget => Sys2Proof.Machine.execBmac e budget s
  | .fbkLevelAccepted c a b z ball => Sys2Proof.Machine.execFbkLevelAccepted c a b z ball s
  | .sincosPair c sin cos => Sys2Proof.Machine.execSincosPair c sin cos s
  | .ssiFrameStart c dataHigh => Sys2Proof.Machine.execSsiFrameStart c dataHigh s
  | .ssiFrameEnd c bits => Sys2Proof.Machine.execSsiFrameEnd c bits s
  | .cableTimeout c => Sys2Proof.Machine.execCableTimeout c s
  | .fbkObsUpdate c => Sys2Proof.Machine.execFbkObsUpdate c s
  | .fbkConfigWrite who c off value => Sys2Proof.Machine.execFbkConfigWrite who c off value s
  | .cmpEnable who n value => Sys2Proof.Machine.execCmpEnable who n value s
  | .cmpPulseEnd n => Sys2Proof.Machine.execCmpPulseEnd n s
  | .captureEdge n rising ball => Sys2Proof.Machine.execCaptureEdge n rising ball s
  | .frameReceived k f sof rivals => Sys2Proof.Machine.execFrameReceived k f sof rivals s
  | .frameSent k delay => Sys2Proof.Machine.execFrameSent k delay s
  | .arbitrationLost k => Sys2Proof.Machine.execArbitrationLost k s
  | .canError k err => Sys2Proof.Machine.execCanError k err s
  | .txreq who k j => Sys2Proof.Machine.execTxreq who k j s
  | .cancel who k j => Sys2Proof.Machine.execCancel who k j s
  | .recover who k => Sys2Proof.Machine.execRecover who k s
  | .busOffRecoveryDone k => Sys2Proof.Machine.execBusOffRecoveryDone k s
  | .busIntegrationDone k => Sys2Proof.Machine.execBusIntegrationDone k s
  | .moConfigWrite who k j id value => Sys2Proof.Machine.execMoConfigWrite who k j id value s
  | .dspCommitGo who evt => Sys2Proof.Machine.execDspCommitGo who evt s
  | .commitPoint => Sys2Proof.Machine.execCommitPoint s
  | .layerFetchError n poison addr pixel => Sys2Proof.Machine.execLayerFetchError n poison addr pixel s
  | .signatureResult n => Sys2Proof.Machine.execSignatureResult n s
  | .sigackClear who => Sys2Proof.Machine.execSigackClear who s
  | .hpdFall lockLost => Sys2Proof.Machine.execHpdFall lockLost s
  | .hpdRise => Sys2Proof.Machine.execHpdRise s
  | .dpTrainingDone => Sys2Proof.Machine.execDpTrainingDone s
  | .dpTrainingRetry => Sys2Proof.Machine.execDpTrainingRetry s
  | .currentLoopEval cur raw => Sys2Proof.Machine.execCurrentLoopEval cur raw s
  | .pmbusCalibration pout => Sys2Proof.Machine.execPmbusCalibration pout s
  | .pmbAlert status off => Sys2Proof.Machine.execPmbAlert status off s
  | .voutSettled d mode read => Sys2Proof.Machine.execVoutSettled d mode read s
  | .voltageLower d => Sys2Proof.Machine.execVoltageLower d s
  | .droop d => Sys2Proof.Machine.execDroop d s
  | .stretchEnd d => Sys2Proof.Machine.execStretchEnd d s
  | .thermalEval temps => Sys2Proof.Machine.execThermalEval temps s
  | .budgetEval avg => Sys2Proof.Machine.execBudgetEval avg s
  | .paceNoticeSend stretched => Sys2Proof.Machine.execPaceNoticeSend stretched s
  | .ageingMeasurement d => Sys2Proof.Machine.execAgeingMeasurement d s
  | .energyUpdate common parts => Sys2Proof.Machine.execEnergyUpdate common parts s
  | .faultDetected fid cause => Sys2Proof.Machine.execFaultDetected fid cause s
  | .dupMismatch fid flip => Sys2Proof.Machine.execDupMismatch fid flip s
  | .drainTimeout fid => Sys2Proof.Machine.execDrainTimeout fid s
  | .faultCauseClear who fid mask => Sys2Proof.Machine.execFaultCauseClear who fid mask s
  | .reopen who p => Sys2Proof.Machine.execReopen who p s
  | .rstReset who p fid => Sys2Proof.Machine.execRstReset who p fid s
  | .rstRelease who p fid => Sys2Proof.Machine.execRstRelease who p fid s
  | .resetDone fid => Sys2Proof.Machine.execResetDone fid s
  | .frzLocal who => Sys2Proof.Machine.execFrzLocal who s
  | .frzInstall who => Sys2Proof.Machine.execFrzInstall who s
  | .freezeInstant => Sys2Proof.Machine.execFreezeInstant s
  | .freezeImageWritten => Sys2Proof.Machine.execFreezeImageWritten s
  | .journalEntry => Sys2Proof.Machine.execJournalEntry s
  | .break_ => Sys2Proof.Machine.execBreak s
  | .lockLapsed => Sys2Proof.Machine.execLockLapsed s
  | .unsolicitedLine => Sys2Proof.Machine.execUnsolicitedLine s
  | .xferCheckDone => Sys2Proof.Machine.execXferCheckDone s
  | .start cold target => Sys2Proof.Machine.execStart cold target s
  | .stop => Sys2Proof.Machine.execStop s
  | .clearStart => Sys2Proof.Machine.execClearStart s
  | .state => Sys2Proof.Machine.execState s
  | .rails => Sys2Proof.Machine.execRails s
  | .target => Sys2Proof.Machine.execTarget s
  | .targetSet t => Sys2Proof.Machine.execTargetSet t s
  | .plan => Sys2Proof.Machine.execPlan s
  | .core n => Sys2Proof.Machine.execCore n s
  | .queue n => Sys2Proof.Machine.execQueue n s
  | .pcie q => Sys2Proof.Machine.execPcie q s
  | .consoleNop n => Sys2Proof.Machine.execConsoleNop n s
  | .tile n => Sys2Proof.Machine.execTile n s
  | .peatQuery stk => Sys2Proof.Machine.execPeatQuery stk s
  | .shtTest g => Sys2Proof.Machine.execShtTest g s
  | .lane l => Sys2Proof.Machine.execLane l s
  | .opTest n => Sys2Proof.Machine.execOpTest n s
  | .link p => Sys2Proof.Machine.execLink p s
  | .time => Sys2Proof.Machine.execTime s
  | .chan d k => Sys2Proof.Machine.execChan d k s
  | .pace => Sys2Proof.Machine.execPace s
  | .peatTest stk => Sys2Proof.Machine.execPeatTest stk s
  | .axis a => Sys2Proof.Machine.execAxis a s
  | .sdi n => Sys2Proof.Machine.execSdi n s
  | .axisTake a => Sys2Proof.Machine.execAxisTake a s
  | .axisGive a => Sys2Proof.Machine.execAxisGive a s
  | .axisEnable a rivals => Sys2Proof.Machine.execAxisEnable a rivals s
  | .axisDisable a rivals => Sys2Proof.Machine.execAxisDisable a rivals s
  | .axisStop a rivals => Sys2Proof.Machine.execAxisStop a rivals s
  | .pwmTest a phase duty => Sys2Proof.Machine.execPwmTest a phase duty s
  | .pwmTestOff a => Sys2Proof.Machine.execPwmTestOff a s
  | .trd e => Sys2Proof.Machine.execTrd e s
  | .trdTest e => Sys2Proof.Machine.execTrdTest e s
  | .fbk c => Sys2Proof.Machine.execFbk c s
  | .cap n => Sys2Proof.Machine.execCap n s
  | .cmpTest n => Sys2Proof.Machine.execCmpTest n s
  | .cmpTestOff n => Sys2Proof.Machine.execCmpTestOff n s
  | .can k => Sys2Proof.Machine.execCan k s
  | .canMo k j => Sys2Proof.Machine.execCanMo k j s
  | .canTest k => Sys2Proof.Machine.execCanTest k s
  | .disp => Sys2Proof.Machine.execDisp s
  | .dispSig => Sys2Proof.Machine.execDispSig s
  | .dispTest => Sys2Proof.Machine.execDispTest s
  | .power => Sys2Proof.Machine.execPower s
  | .powerDomain d => Sys2Proof.Machine.execPowerDomain d s
  | .age => Sys2Proof.Machine.execAge s
  | .pmbScan answers => Sys2Proof.Machine.execPmbScan answers s
  | .fault fid => Sys2Proof.Machine.execFault fid s
  | .fenceQuery p => Sys2Proof.Machine.execFenceQuery p s
  | .reset fid => Sys2Proof.Machine.execReset fid s
  | .release fid => Sys2Proof.Machine.execRelease fid s
  | .faultClr fid mask => Sys2Proof.Machine.execFaultClr fid mask s
  | .fenceReopen p => Sys2Proof.Machine.execFenceReopen p s
  | .freeze => Sys2Proof.Machine.execFreeze s
  | .id => Sys2Proof.Machine.execId s
  | .keys => Sys2Proof.Machine.execKeys s
  | .store => Sys2Proof.Machine.execStore s
  | .log n => Sys2Proof.Machine.execLog n s
  | .dram c => Sys2Proof.Machine.execDram c s
  | .clusterQuery d => Sys2Proof.Machine.execClusterQuery d s
  | .baud b => Sys2Proof.Machine.execBaud b s
  | .lock => Sys2Proof.Machine.execLock s
  | .unlock => Sys2Proof.Machine.execUnlock s
  | .mp n src => Sys2Proof.Machine.execMp n src s
  | .xferBegin kind => Sys2Proof.Machine.execXferBegin kind s
  | .xferData off data => Sys2Proof.Machine.execXferData off data s
  | .xferEnd => Sys2Proof.Machine.execXferEnd s
  | .xferAbort => Sys2Proof.Machine.execXferAbort s
  | .extest => Sys2Proof.Machine.execExtest s
  | .samplePreload capture preload => Sys2Proof.Machine.execSamplePreload capture preload s
  | .idcode => Sys2Proof.Machine.execIdcode s
  | .clamp => Sys2Proof.Machine.execClamp s
  | .highz => Sys2Proof.Machine.execHighz s
  | .bypass code => Sys2Proof.Machine.execBypass code s
  | .tapReset => Sys2Proof.Machine.execTapReset s
  | .fuseSensingDone same => Sys2Proof.Machine.execFuseSensingDone same s
  | .lineRefused bytes => Sys2Proof.Machine.execLineRefused bytes s
  | .paceNoticeExpiry chip => Sys2Proof.Machine.execPaceNoticeExpiry chip s
  | .hstopDeassert h => Sys2Proof.Machine.execHstopDeassert h s
  | .transmissionAttempt k => Sys2Proof.Machine.execTransmissionAttempt k s
  | .underflow n pixel => Sys2Proof.Machine.execUnderflow n pixel s
  | .railMonitorReport mv => Sys2Proof.Machine.execRailMonitorReport mv s

end Sys2Proof.Machine
end

