-- ==== Sys2Proof/Safety.lean ====
section
/-! DEFINITION. The terms that statements use: which commands only report, what an accepted access and an accepted
console line are, and the invariant of the interrupt sources. -/
namespace Sys2Proof.Machine

/-! ### The console -/

/-- Commands of Table 18.3 that only report (R400); SDI, whose density is a free value, is stated apart. -/
def isQuery : Instr → Bool
  | .state | .rails | .target | .plan | .id | .keys | .store | .log _ | .dram _ | .clusterQuery _ | .power
  | .powerDomain _ | .age | .pmbScan _ | .core _ | .queue _ | .pcie _ | .tile _ | .peatQuery _ | .lane _ | .link _
  | .time | .chan _ _ | .pace | .axis _ | .trd _ | .fbk _ | .cap _ | .can _ | .canMo _ _ | .disp | .dispSig | .fault _
  | .fenceQuery _ => true
  | _ => false
/-- Commands marked L in Table 18.3, which need the service lock (R400). -/
def needsLock : Instr → Bool
  | .clearStart | .targetSet _ | .axisTake _ | .axisGive _ | .axisEnable _ _ | .axisDisable _ _ | .axisStop _ _
  | .pwmTest _ _ _ | .pwmTestOff _ | .cmpTest _ | .cmpTestOff _ | .canTest _ | .dispTest | .release _ | .faultClr _ _
  | .fenceReopen _ | .xferBegin _ | .xferData _ _ | .xferEnd | .xferAbort => true
  | _ => false
/-- The line is answered "=" with these fields, and nothing but the reply changes. -/
def Answers (c : Instr) (word : String) (args : List Nat) (fields : Fields) (s : State) : Prop :=
  exec c s = .next (replyOk word args fields s)
/-- The line is answered "=", after the effect `t`. -/
def Performs (c : Instr) (word : String) (args : List Nat) (s t : State) : Prop :=
  exec c s = .next (settle (replyOk word args [] t))
/-- The line is answered "?" with a reason, and nothing but the reply changes. -/
def Declines (c : Instr) (word : String) (args : List Nat) (reason : String) (s : State) : Prop :=
  exec c s = .next (refuse word args reason [] s)

/-! ### Register writes -/

/-- The rules admit a master's write of full width at an address (R77, R380), and the master runs. -/
def Admits (who : Master) (a : Nat) (s : State) : Prop :=
  masterRuns s who = true ∧ regPage s who a true = none ∧ pageFenced s a = false

/-! ### Cores -/

/-- The same core but for its interrupt files, which MSIs change. -/
def SameCore (c d : Core) : Prop := d = { c with imsic := d.imsic }
/-- An access of `len` bytes by a core is translated and admitted as one part `q`, whose bytes all lie in populated DRAM
(R86, R101, R102). -/
def DramAccess (n : Fin 48) (k : AccKind) (ad : BitVec 64) (len : Nat) (q : Piece) (s : State) : Prop :=
  coreRuns s n = true ∧ coreSpan s n k ad len = .ok [q] ∧ q.len = len ∧
  ∀ b, b < len → isDram s (q.pa + b) = true ∧
    ∀ p, partOf s (coreFid n) = some p → ratCheck s p (q.pa + b) k .plain = none
/-- A core takes an exception at `pc`, from the state `c` (R110). -/
def Traps (c d : Core) (t : Trap) (pc : BitVec 64) : Prop := SameCore (trapInto (excMode c t.code) t false pc c) d

/-! ### Loom operators -/

/-- The operator at the head of tile n's jobs has OPID `opid`, has started and passes the checks made before anything is
read; `u` is the state after its INV step (R173 to R175). -/
def Operates (s : State) (n : Fin 64) (opid : Nat) (j : OpJob) (u : State) : Prop :=
  opJob s n opid = some j ∧ descCheck (opDesc j.desc) = none ∧
  u = if (opDesc j.desc).inv then loomInvalidate n s else s
/-- An operand's rows as the tile reads them; an absent operand has none. -/
def Gives (n : Fin 64) (j : OpJob) (i : Nat) (s : State) (rows : List (List FV)) (t : State) : Prop :=
  let x := (opDesc j.desc).opd i
  if x.absent then rows = [] ∧ t = s else readOpd ⟨n, j.part⟩ x s = (.ok rows, t)
/-- The flag write of an operator, if its descriptor asks for one (R175). -/
def Flagged (n : Fin 64) (j : OpJob) (s t : State) : Prop :=
  let o := opDesc j.desc
  if o.flagAddr = 0 then t = s else tileWrite n j.part (opAddr o.flagAddr) (natLe 8 o.flagValue) s = (.ok (), t)
/-- Wherever the rows `r` can be written and the flag after them, the operator ends OK with its exception flags. -/
def Stores (c : Instr) (n : Fin 64) (j : OpJob) (r : List (List FV) × Exc) (s s1 : State) : Prop :=
  ∀ (e : Exc) (s2 s3 : State), writeOpd ⟨n, j.part⟩ (opDesc j.desc) r.1 s1 = (.ok e, s2) → Flagged n j s2 s3 →
    exec c s = .next (settle (opEnd n j 0 (r.2 ||| e).toNat s3))

/-! ### Commands in progress, Shuttle channels -/

/-- The one command that queue and slot `o` names is in progress. -/
def InProgress (s : State) (o : Fin 64 × BitVec 16) (c : Cmd) : Prop :=
  (vget s.queues o.1).disp = [c] ∧ c.slot = o.2 ∧ c.isDone = false
/-- That command has ended with a status and DETAIL, at the state's installation time with its HOLDOVER flag. -/
def EndedWith (s t : State) (o : Fin 64 × BitVec 16) (c : Cmd) (st : BitVec 16) (d : BitVec 32) : Prop :=
  (vget t.queues o.1).disp = [{ c with st := .done st d (stamp s) }]
/-- No write of a channel is held or waits for its answer. -/
def Quiet (s : State) (g : Fin 16) (c : Fin 8) : Prop :=
  (s.channel g c).out = [] ∧ (s.remote.any fun r => r.1 = g && r.2.1 = c && !r.2.2.coll) = false
/-- The rules admit a partition's engine accesses to every byte of a range of clean DRAM, and no reload holds them (R86,
R91). -/
def DramRange (s : State) (p : Fin 32) (k : AccKind) (side : Side) (a n : Nat) : Prop :=
  (∀ b, a ≤ b → b < a + n → isDram s b = true ∧ ratCheck s p b k side = none) ∧ poisoned s a n = false ∧
  s.rat.reopened = none

/-! ### Axes and Treadle programs -/

/-- An order of a rank and port can reach an axis now (Table 11.7): the console under its lock, the axis's own engine, a
cluster or core through register `off` of the axis's page, a mapped CAN object. -/
def Reaches (s : State) (a : Fin 32) (rank : BitVec 3) (port : BitVec 8) (off : Nat) : Prop :=
  (rank = 2 ∧ port = 0 ∧ off = 0x40 ∧ s.console.locked = true) ∨
  (rank = 3 ∧ port.toNat = (axEngine a).val) ∨
  (∃ w, masterRank w = (rank, port) ∧ Admits w (axsBase a + off) s) ∨
  (rank = 6 ∧ ((vget s.can ⟨port.toNat / 64 % 4, by omega⟩).maps.any fun m =>
    m.obj.val = port.toNat % 64 && m.axis = a) = true)
/-- Nothing beats an order of that rank to the axis in this clock (R264, R265). -/
def Uncontested (s : State) (a : Fin 32) (rank : BitVec 3) : Prop :=
  ((vget s.axes a).taken = false ∨ rank ≤ 2) ∧ standing s a = []
/-- Engine e runs the word w in its background program or its hook (R276, R294). -/
def Fetches (s : State) (e : Fin 8) (hook : Bool) (w : BitVec 32) : Prop :=
  trdActive s e = some hook ∧ ((vget s.trd e).bank hook).past = false ∧
  (vget s.trd e).word ((vget s.trd e).bank hook) = w

/-! ### Interrupt sources (R107) -/

/-- The APLIC has sensed every wired source at its present level. -/
def Seen (s : State) : Prop := s.srcLevel = levels s

end Sys2Proof.Machine
end

