-- ==== Sys2Proof/Certificates/Slice0/Obligations.lean ====
section
/-! DEFINITION. The statements for the provers, by chapter of the spec. -/
open Sys2Proof Sys2Proof.Machine

/-! ### The queue of commands -/

/-- One step takes the command at the front of the queue and executes it on the state with the queue's rest. -/
def Obligations.StepRunsFront : Prop :=
  ∀ (c : Instr) (s : State), step { s with pending := c :: s.pending } = exec c s

/-- On an empty queue 1 TQ passes (the model's choice, log 2): installation time counts up while VSVO is good (R209),
the island's own count while only VAON is, and nothing but the clocks and the powered hours changes. -/
def Obligations.EmptyQueuePassesTime : Prop :=
  ∀ s : State, s.pending = [] → ∃ t : State, step s = .next t ∧
    (vsvoGood s = true → t.time.it = s.time.it + 1 ∧ t.island.count = s.island.count) ∧
    (vsvoGood s = false → t.time = s.time ∧ t.tsc = s.tsc) ∧
    (vsvoGood s = false → s.island.vaon = true → t.island.count = s.island.count + 1) ∧
    (s.island.vaon = false → t = s) ∧
    t = { s with time := t.time, tsc := t.tsc, island := t.island } ∧
    t.island = { s.island with count := t.island.count, hours := t.island.hours, hourTq := t.island.hourTq } ∧
    t.time = { s.time with it := t.time.it, sub := t.time.sub }

/-- No command faults and none is refused: each is answered in every state. -/
def Obligations.EveryCommandAnswered : Prop :=
  ∀ (c : Instr) (s : State), ∃ t : State, exec c s = .next t

/-! ### The interrupt sources and reset -/

/-- Every step keeps the invariant that the APLIC has seen every wired source's present level (R107). -/
def Obligations.SourcesStaySeen : Prop :=
  ∀ s t : State, Seen s → step s = .next t → Seen t

/-- The invariant holds at reset, and with it the reset values that the spec gives: functions held, the machine timer's
compare at its greatest value (R106), SR.DM at 1 (R275), every interrupt of a fault enabled but CORR's, the pace
threshold and hold, IDCODE selected; the memory list is in its canonical form. -/
def Obligations.ResetState : Prop :=
  Seen State.reset ∧ State.reset.pending = [] ∧ memWf State.reset.mem = true ∧
  (∀ n, (vget State.reset.cores n).mtimecmp = BitVec.allOnes 64 ∧ (vget State.reset.cores n).held = true) ∧
  (∀ n, (vget State.reset.tiles n).held = true) ∧ (∀ a, (vget State.reset.axes a).st = .held) ∧
  (∀ e, (vget State.reset.trd e).bank0.dm = true ∧ (vget State.reset.trd e).bank1.dm = true) ∧
  (∀ i, (vget State.reset.flt i).ien = 0xFFE ∧ (vget State.reset.flt i).a.cause = 0) ∧
  State.reset.power.thresh = 243 ∧ State.reset.power.hold = 2000 ∧ State.reset.tap.instr = .idcode

/-- What settling can change: the APLIC's domains, the cores' pending identities and the levels seen. -/
def Obligations.SettleFrame : Prop :=
  ∀ s : State, settle s = { s with aplic := (settle s).aplic, cores := (settle s).cores, srcLevel := levels s } ∧
    ∀ n : Fin 48, ∃ f, vget (settle s).cores n = { vget s.cores n with imsic := f }

/-! ### The service console -/

/-- A query changes nothing but the console's reply and the time of its last good line, in every state (R8, R399, R400). A command marked L is refused while the
lock is not held, and changes nothing but the reply (R400). The reason is LOCK, but for a line whose form or range is
wrong, which is answered SYNTAX or RANGE (log 58). -/
def Obligations.QueriesAndRefusalsFrame : Prop :=
  (∀ (c : Instr) (s : State), isQuery c = true →
     ∃ (r : Option Reply) (l : Nat), exec c s = .next { s with console := { s.console with reply := r, lineAt := l } }) ∧
  (∀ (c : Instr) (s : State), needsLock c = true → s.island.vaon = true → s.console.locked = false →
     ∃ word args reason, Declines c word args reason s ∧ (reason = "LOCK" ∨ reason = "SYNTAX" ∨ reason = "RANGE"))

/-- The queries of the island answer with the fields of its registers, in every mode (R393, R400). -/
def Obligations.IslandQueriesAnswer : Prop :=
  ∀ s : State, s.island.vaon = true →
    Answers .state "STATE" [] [("MODE", s.island.mode.code), ("STEP", startStep s), ("KIND", s.island.kind.code),
      ("LATCH", b2n s.store.work.latch), ("FAIL", s.store.work.failCnt.toNat), ("IGN", s.island.ign.toNat)] s ∧
    Answers .rails "RAILS" [] [("EN", s.island.enabled.toNat), ("GOOD", s.island.good.toNat), ("DIS", b2n s.island.dis)] s ∧
    Answers .target "TARGET" [] [("TARGET", s.store.work.target.toNat)] s ∧
    Answers .plan "PLAN" [] [("ACTIVE", match s.loader.active with | some i => 1 + i.val | none => 0),
      ("SEQ", s.loader.seq.toNat % 2 ^ 32), ("SEALED", b2n s.loader.isSealed), ("BUSY", b2n (wrpBusy s)),
      ("STAGE", s.loader.stage.toNat), ("CODE", s.loader.code.toNat), ("RSEQ", s.loader.tag.seq.toNat)] s ∧
    Answers .id "ID" [] [("PART", 9), ("STEP", 0xB0), ("GRADE", b2n Config.gradeE), ("UID", Config.uid.toNat)] s ∧
    Answers .keys "KEYS" [] [("0", keyCode (vget s.island.keys 0)), ("1", keyCode (vget s.island.keys 1)),
      ("2", keyCode (vget s.island.keys 2)), ("3", keyCode (vget s.island.keys 3))] s ∧
    (∃ fs, Answers .store "STORE" [] (("RECOV", s.store.recov.toNat) :: fs) s ∧ ("LOG", s.store.logSeq.toNat) ∈ fs) ∧
    (∀ n e, s.store.log[n]? = some e → ∃ fs, Answers (.log n) "LOG" [n] (("LSEQ", e.lseq.toNat) :: fs) s ∧
      ("KIND", e.kind.toNat) ∈ fs ∧ ("FID", e.fid.toNat) ∈ fs ∧ ("HOURS", e.hours.toNat) ∈ fs) ∧
    Answers .power "POWER" [] [("LIMIT", s.power.limit.toNat), ("PEST", s.power.pest.toNat), ("MODE", b2n s.power.mode1),
      ("PMB", b2n s.power.pmbErr), ("PACING", b2n s.power.pacing), ("RATIO", s.power.ratio.toNat)] s ∧
    (∃ fs, Answers .age "AGE" [] fs s ∧ ("HOURS", s.island.hours.toNat) ∈ fs ∧
      ("TRIM", (vget s.power.dom 0).trim.toNat) ∈ fs) ∧
    (∀ a : Vector PmbAnswer 14, ∃ fs, Answers (.pmbScan a) "PMBSCAN" [] (("40", pmbCode (vget a 0)) :: fs) s)

/-- The queries of a powered function answer with its state; each needs its function's power (Table 18.1, MODE). -/
def Obligations.FunctionQueriesAnswer : Prop :=
  ∀ s : State, s.island.vaon = true →
    (∀ c : Fin 8, powered s (fidMk 14 c) = true → ∃ fs, Answers (.dram c) "DRAM" [c.val] fs s ∧
      ("TRAINED", b2n s.island.trained) ∈ fs ∧ ("CORR", (vget s.flt (fidSlot (fidMk 14 c))).corr.toNat) ∈ fs) ∧
    (∀ d : Fin 4, powered s (fidMk 13 d) = true → ∃ fs, Answers (.clusterQuery d) "CLUSTER" [d.val] fs s ∧
      ("STATE", runCode s (fidMk 13 d)) ∈ fs ∧ ("SUP", b2n (s.clusterStop.getLsbD d)) ∈ fs) ∧
    (∀ d : Fin 5, domLive s d = true → Answers (.powerDomain d) "POWER" [d.val] [("STEP", (vget s.power.dom d).step.toNat),
      ("CAP", (vget s.power.dom d).cap.toNat), ("VOUT", (vget s.power.dom d).vout.toNat),
      ("LIM", (vget s.power.dom d).limiter.toNat)] s) ∧
    (∀ n : Fin 48, powered s (coreFid n) = true → ∃ fs, Answers (.core n) "CORE" [n.val] fs s ∧
      ("STATE", runCode s (coreFid n)) ∈ fs ∧ ("PRIV", (vget s.cores n).priv.code) ∈ fs) ∧
    (∀ n : Fin 64, powered s (fidMk 1 0) = true → (vget s.queues n).halted = false →
      ∃ fs, Answers (.queue n) "QUEUE" [n.val] fs s ∧ ("SQH", (vget s.queues n).sqhead.toNat) ∈ fs ∧
        ("NEXT", (vget s.queues n).nextSeq.toNat) ∈ fs) ∧
    (∀ q : Fin 8, powered s (fidMk 12 q) = true → Answers (.pcie q) "PCIE" [q.val]
      [("UP", b2n (vget s.rports q).up), ("WIDTH", (vget s.rports q).width.toNat), ("GTS", (vget s.rports q).rate.toNat)] s) ∧
    (∀ n : Fin 64, powered s (fidMk 2 n) = true → ∃ fs, Answers (.tile n) "TILE" [n.val] fs s ∧
      ("STATE", tileState s n) ∈ fs ∧ ("GATE", (vget s.tiles n).gate.toNat) ∈ fs) ∧
    (∀ k : Fin 8, powered s (fidMk 4 k) = true → ∃ fs, Answers (.peatQuery k) "PEAT" [k.val] fs s ∧
      ("READY", readyBits (vget s.peat k)) ∈ fs) ∧
    (∀ l : Fin 8, s.island.mode = .full → (vget s.lanes l).on = true → ∃ fs, Answers (.lane l) "LANE" [l.val] fs s ∧
      ("WCL", (vget s.lanes l).wcl.toNat) ∈ fs ∧ ("LATE", (vget s.lanes l).late.toNat) ∈ fs) ∧
    (∀ p : Fin 16, powered s (fidMk 5 p) = true → ∃ fs, Answers (.link p) "LINK" [p.val] fs s ∧
      ("STATE", (vget s.ports p).st.code) ∈ fs ∧ ("PEER", (vget s.ports p).peer.toNat) ∈ fs) ∧
    (powered s timeFid = true → ∃ fs, Answers .time "TIME" [] fs s ∧ ("STATE", s.time.st.code) ∈ fs ∧
      ("OFS", s.time.ofs.toNat) ∈ fs) ∧
    (∀ (d : Fin 4) (k : Fin 8), powered s (fidMk 13 d) = true → ∃ fs, Answers (.chan d k) "CHAN" [d.val, k.val] fs s ∧
      ("STATE", chanCode (s.chan d k).st) ∈ fs ∧ ("LATE", (s.chan d k).lateCnt.toNat) ∈ fs)

/-- The queries of the servo subsystem, the display, the faults and the fences answer while VSVO is good. -/
def Obligations.ServoQueriesAnswer : Prop :=
  ∀ s : State, s.island.vaon = true → servoUp s = true →
    (∃ fs, Answers .pace "PACE" [] (("N", s.paceFrom.length) :: fs) s) ∧
    (∀ a : Fin 32, ∃ fs, Answers (.axis a) "AXIS" [a.val] (("STATE", (vget s.axes a).st.code) :: fs) s ∧
      ("TAKEN", b2n (vget s.axes a).taken) ∈ fs ∧ ("DL", (vget s.axes a).dlMiss.toNat) ∈ fs) ∧
    (∀ n : Fin 96, ∃ fs t, exec (.sdi n) s = .next (replyOk "SDI" [n.val] fs t) ∧ t = { s with free := t.free } ∧
      ("CLK", if sdiRuns s n then 25 else 0) ∈ fs ∧ ("VALID", b2n (sdiRuns s n)) ∈ fs) ∧
    (∀ e : Fin 8, ∃ fs, Answers (.trd e) "TRD" [e.val] fs s ∧ ("PC0", (vget s.trd e).bank0.pc.toNat) ∈ fs ∧
      ("ERR", (vget s.trd e).errCode.toNat) ∈ fs) ∧
    (∀ c : Fin 40, ∃ fs, Answers (.fbk c) "FBK" [c.val] fs s ∧ ("POS", (fbkSample s c).toNat) ∈ fs ∧
      ("GOOD", b2n (vget s.fbk c).good) ∈ fs) ∧
    (∀ n : Fin 16, ∃ fs, Answers (.cap n) "CAP" [n.val] fs s ∧ ("VALID", b2n (vget s.cc.cap n).tag.valid) ∈ fs) ∧
    (∀ k : Fin 4, ∃ fs, Answers (.can k) "CAN" [k.val] fs s ∧ ("LEC", (vget s.can k).lec.toNat) ∈ fs ∧
      ("TSC", s.tsc.toNat) ∈ fs) ∧
    (∀ (k : Fin 4) (j : Fin 64), ∃ fs, Answers (.canMo k j) "CANMO" [k.val, j.val] fs s ∧
      ("PEND", b2n (vget (vget s.can k).mo j).pend) ∈ fs ∧ ("TS", (vget (vget s.can k).mo j).ts.toNat) ∈ fs) ∧
    (∃ fs, Answers .disp "DISP" [] (("LINK", s.dsp.link.code) :: fs) s ∧ ("UNDER", s.dsp.under.toNat) ∈ fs) ∧
    (∃ fs, Answers .dispSig "DISPSIG" [] fs s ∧ ("MODE", (vget s.dsp.active.sig 0).mode.toNat) ∈ fs) ∧
    (∀ f : Fid, fidOk f = true → ∃ fs, Answers (.fault f) "FAULT" [f.toNat]
      (("CAUSE", (vget s.flt (fidSlot f)).a.cause.toNat) :: fs) s ∧ ("CLASS", faultClass s f) ∈ fs) ∧
    (∀ p : Fin 32, ∃ fs, Answers (.fenceQuery p) "FENCE" [p.val] (("FENCED", b2n (vget s.parts p).fenced) :: fs) s ∧
      ("BY", (vget s.parts p).byFid.toNat) ∈ fs)

/-- The self tests report the verdict of the function that runs them and change nothing else (log 12): each needs its
function's power and an idle function, CANTEST and DISPTEST the lock too. -/
def Obligations.SelfTestsReport : Prop :=
  ∀ s : State, s.island.vaon = true →
    (∀ g : Fin 16, powered s (fidMk 3 g) = true → ((vget s.shuttle g).ch.toList.any (·.running.isSome)) = false →
      ∃ fs, Answers (.shtTest g) "SHTTEST" [g.val] fs s ∧ ("CH", (Config.selfTest (fidMk 3 g)).toNat % 256) ∈ fs) ∧
    (∀ n : Fin 64, powered s (fidMk 2 n) = true → (vget s.tiles n).lane = false → (vget s.tiles n).jobs = [] →
      ∃ fs, Answers (.opTest n) "OPTEST" [n.val] fs s ∧ ("GEMM", fld (Config.selfTest (fidMk 2 n)).toNat 0 1) ∈ fs) ∧
    (∀ k : Fin 8, powered s (fidMk 4 k) = true → ((vget s.peat k).eng.toList.any fun e => !e.ready) = false →
      ∃ fs, Answers (.peatTest k) "PEATTEST" [k.val] fs s ∧ ("OPT", fld (Config.selfTest (fidMk 4 k)).toNat 0 1) ∈ fs) ∧
    (servoUp s = true → ∀ e : Fin 8, (vget s.trd e).bg ≠ .running →
      ∃ fs, Answers (.trdTest e) "TRDTEST" [e.val] fs s ∧ ("MAC", fld (Config.selfTest (fidMk 6 e)).toNat 0 1) ∈ fs) ∧
    (servoUp s = true → s.console.locked = true → ∀ k : Fin 4, canBusy s k = false →
      ∃ fs, Answers (.canTest k) "CANTEST" [k.val] fs s ∧ ("NOM", fld (Config.selfTest (fidMk 10 k)).toNat 0 1) ∈ fs) ∧
    (servoUp s = true → s.console.locked = true → s.dsp.pend = false → ∀ r, s.dsp.rec_ = some r →
      Answers .dispTest "DISPTEST" [] [("PASS", b2n (Config.barsPass r.hact r.vact))] s)

/-- Console actions that write one register or one field: under the lock, with VAON (and for an axis or a compare unit
VSVO) good, the field takes its value, the line is answered "=" and nothing else changes (R57, R68, R72, R393, R399). -/
def Obligations.ConsoleFieldsWritten : Prop :=
  ∀ s : State, s.island.vaon = true →
    (∀ b ∈ bauds, Performs (.baud b) "BAUD" [b] s
      { s with console := { s.console with baud := BitVec.ofNat 3 (bauds.idxOf b) } }) ∧
    (∀ (n : Fin 8) (src : MpSource), Performs (.mp n src) "MP" [n.val] s
      { s with console := { s.console with mp := vset s.console.mp n src } }) ∧
    exec .break_ s = .next (settle { s with console := { s.console with baud := 0 } }) ∧
    (s.console.locked = true →
      (∀ t : BitVec 2, t ≠ 3 → ∃ u, exec (.targetSet t) s = .next u ∧ u.store.work = { s.store.work with target := t } ∧
        u.store.queue = s.store.queue ++ [.block u.store.work] ∧ u.island = s.island ∧
        u.console.reply = some { ok := true, word := "TARGET", args := [t.toNat] }) ∧
      (∃ u e, exec .clearStart s = .next u ∧ u.store.work = { s.store.work with latch := false, failCnt := 0 } ∧
        u.store.queue = s.store.queue ++ [.block u.store.work, .log e] ∧ e.kind = 4 ∧ u.island = s.island)) ∧
    (s.console.locked = true → servoUp s = true →
      (∀ a : Fin 32, Performs (.axisTake a) "AXIS TAKE" [a.val] s
        { s with axes := vmod s.axes a fun x => { x with taken := true } }) ∧
      (∀ a : Fin 32, Performs (.axisGive a) "AXIS GIVE" [a.val] s
        { s with axes := vmod s.axes a fun x => { x with taken := false, pwmTest := none } }) ∧
      (∀ (a : Fin 32) (p : Fin 3) (d : Nat), d ≤ 100 → (vget s.axes a).st = .disabled → (vget s.axes a).taken = true →
        Performs (.pwmTest a p d) "PWMTEST" [a.val, p.val, d] s
          { s with axes := vmod s.axes a fun x => { x with pwmTest := some (p, d) } }) ∧
      (∀ a : Fin 32, Performs (.pwmTestOff a) "PWMTEST OFF" [a.val] s
        { s with axes := vmod s.axes a fun x => { x with pwmTest := none } }) ∧
      (∀ n : Fin 16, (vget s.cc.cmp n).en = false → Performs (.cmpTest n) "CMPTEST" [n.val] s
        { s with cc := { s.cc with cmp := vmod s.cc.cmp n fun c => { c with test := true } } }) ∧
      (∀ n : Fin 16, Performs (.cmpTestOff n) "CMPTEST OFF" [n.val] s
        { s with cc := { s.cc with cmp := vmod s.cc.cmp n fun c => { c with test := false } } }))

/-- The service lock (R399): LOCK takes it and UNLOCK or a lapse, 600 s after the last good line, gives it back, with the axes held by TAKE, the forced
duties, the compare tests and an open transfer; taking and releasing send event 0x23 of the island. -/
def Obligations.ServiceLock : Prop :=
  ∀ s : State, s.island.vaon = true →
    (s.console.locked = true → Performs .lock "LOCK" [] s s) ∧
    (s.console.locked = false → Performs .lock "LOCK" [] s
      (emit islandFid 0x23 1 { s with console := { s.console with locked := true } })) ∧
    (s.console.locked = false → Performs .unlock "UNLOCK" [] s s) ∧
    (s.console.locked = true → Performs .unlock "UNLOCK" [] s (emit islandFid 0x23 0 (lockGive s))) ∧
    (s.console.locked = true → s.console.lineAt + 600 * 16000000000 ≤ upTime s → s.rat.reopened = none →
      ∃ t, exec .lockLapsed s = .next t ∧ t.console.locked = false ∧
      t.console.xfer = (if s.console.xferOpen then none else s.console.xfer) ∧
      (s.console.held.length < 32 → t.console.held = s.console.held ++ [.lockLapsed]) ∧
      (∀ a, (vget t.axes a).taken = false ∧ (vget t.axes a).pwmTest = none ∧ (vget t.axes a).st = (vget s.axes a).st) ∧
      (∀ n, (vget t.cc.cmp n).test = false ∧ (vget t.cc.cmp n).en = (vget s.cc.cmp n).en) ∧
      t.island = s.island ∧ t.store = s.store ∧ t.loader = s.loader)

/-- Console requests that stand for register operations (R401): START and STOP, the axis orders, RESET and RELEASE,
FAULTCLR, FENCE REOPEN, FREEZE and NOP have the operation's effect and answer "="; an order that another beats is answered
CONFLICT with the winner. -/
def Obligations.ConsoleActsAsRegisters : Prop :=
  ∀ s : State, s.island.vaon = true →
    (∀ t : BitVec 2, (t = 1 ∨ t = 2) → startAnswer s (some t) = .ok →
      Performs (.start false t) "START" [0, t.toNat] s (startRequest (some t) false s)) ∧
    (∀ t : BitVec 2, startAnswer s none = .ok →
      Performs (.start true t) "START" [1, t.toNat] s (startRequest none true s)) ∧
    (starting s = false → Performs .stop "STOP" [] s (stopRequest s)) ∧
    (∀ n : Fin 64, powered s (fidMk 1 0) = true → (vget s.queues n).halted = false → (vget s.queues n).enable = true →
      (vget s.queues n).spare ≠ 0 → s.rat.reopened = none → exec (.consoleNop n) s = .next (settle (replyOk "NOP" [n.val]
        [("SEQ", (vget s.queues n).nextSeq.toNat), ("STATUS", 0)] (writeRecord n (consoleNopRec s) false s)))) ∧
    (servoUp s = true →
      (isFenced s frzFid = false → Performs .freeze "FREEZE" [] s
        (frzRequest { t := s.time.it + 16000000, source := 3, late := false, origin := chipId s } s)) ∧
      (∀ f, powered s f = true → rstRefusal s ⟨32, by omega⟩ f 0 = none →
        Performs (.reset f) "RESET" [f.toNat] s (rstRequest ⟨32, by omega⟩ f 0 s))) ∧
    (servoUp s = true → s.console.locked = true →
      (∀ f, powered s f = true → rstRefusal s ⟨32, by omega⟩ f 1 = none →
        Performs (.release f) "RELEASE" [f.toNat] s (rstRequest ⟨32, by omega⟩ f 1 s)) ∧
      (∀ f mask, fidOk f = true → clearRefused s f mask = false →
        Performs (.faultClr f mask) "FAULTCLR" [f.toNat, mask.toNat] s (clearCauses f mask s)) ∧
      (∀ p : Fin 32, reopenBlocked s p = false →
        Performs (.fenceReopen p) "FENCE REOPEN" [p.val] s (reopen p s)) ∧
      (∀ (a : Fin 32) (rivals : List Rival) (win : Rival) (c : Instr) (word : String) (op : BitVec 3),
        (c, word, op) ∈ [(Instr.axisEnable a rivals, "AXIS ENABLE", 1#3), (.axisDisable a rivals, "AXIS DISABLE", 2#3),
          (.axisStop a rivals, "AXIS STOP", 4#3)] →
        orderWinner s a (consoleOrder a op :: rivals) = some win →
        (win.rank = 2 → orderValid s a op = true →
          Performs c word [a.val] s (orders (consoleOrder a op :: rivals) s)) ∧
        (win.rank ≠ 2 → ∃ t, exec c s = .next t ∧ t.console.reply = some
          { ok := false, word := word, args := [a.val], reason := "CONFLICT",
            fields := [("RANK", win.rank.toNat), ("PORT", win.port.toNat)] })) ∧
      (∀ (a : Fin 32) (op : BitVec 3), standing s a = [] → op ≤ 4 →
        orderWinner s a [consoleOrder a op] = some (consoleOrder a op)))

/-- Lines of the console (R394 to R398): held unsolicited lines go out in order, the count of those lost first; a line
that is not executed is answered with its reason, and changes nothing but the reply, and with a known check code the time of
the last good line. A meter point in the island's
microvolts (R72): half of a raised rail's voltage, and 0.50 V + 10 mV/°C × T of a sensor group; VAON good and the value
within the 0 to 2.5 V of R405. Boundary scan (R428, R429): with VIO18 and VSVO good each instruction is loaded; EXTEST,
CLAMP and HIGHZ select BYPASS while an axis is ENABLED or STOPPING; TRST_N selects IDCODE in any state. -/
def Obligations.ConsoleLinesMetersScan : Prop :=
  (∀ s : State, s.island.vaon = true →
     (s.console.lost ≠ 0 → exec .unsolicitedLine s = .next (settle { s with
       console := { s.console with sent := some (.lost s.console.lost), lost := 0 } })) ∧
     (s.console.lost = 0 → ∀ l rest, s.console.held = l :: rest → exec .unsolicitedLine s = .next (settle { s with
       console := { s.console with sent := some l, held := rest } })) ∧
     (∀ bytes r, lineRefusal bytes = some r → exec (.lineRefused bytes) s = .next (reply r s)) ∧
     (∀ bytes : List Byte, bytes.getLast? ≠ some 0x0D → bytes ≠ [] → 1024 < bytes.length →
       lineRefusal bytes = some { ok := false, word := "", reason := "OVERFLOW" }) ∧
     (∀ bytes : List Byte, bytes.getLast? ≠ some 0x0D → bytes.length ≤ 1024 → (bytes.any fun b => b < 0x20 || 0x7E < b) = true →
       lineRefusal bytes = some { ok := false, word := "", reason := "CHAR" }) ∧
     (∀ bytes : List Byte, bytes.getLast? ≠ some 0x0D → 240 < bytes.length → bytes.length ≤ 1024 →
       (bytes.any fun b => b < 0x20 || 0x7E < b) = false →
       lineRefusal bytes = some { ok := false, word := "", reason := "LENGTH" })) ∧
  (∀ (s : State) (n : Fin 8), s.island.vaon = true →
     (∀ r : Fin 16, vget s.console.mp n = .rail r → (r.val < 14 → s.island.enabled.getLsbD r = true) →
       (vget s.power.rail r).toNat ≤ 5000 → 2 * meterMicro s n = 1000 * (vget s.power.rail r).toNat) ∧
     (∀ g : Fin 14, vget s.console.mp n = .tempGroup g → -800 ≤ (vget s.power.temp g).toInt → (vget s.power.temp g).toInt ≤ 3200 →
       meterMicro s n = 500000 + 10000 * (vget s.power.temp g).toInt / 16) ∧
     (vget s.console.mp n = .temp → (∀ g, -800 ≤ (vget s.power.temp g).toInt ∧ (vget s.power.temp g).toInt ≤ 3200) →
       ∃ g, (∀ h, (vget s.power.temp h).toInt ≤ (vget s.power.temp g).toInt) ∧
         meterMicro s n = 500000 + 10000 * (vget s.power.temp g).toInt / 16)) ∧
  (∀ s : State,
     (tapUp s = true →
       (∀ c i, (c, i) ∈ [(Instr.extest, TapInstr.extest), (.clamp, .clamp), (.highz, .highz)] →
         exec c s = .next (settle { s with
           tap := { s.tap with instr := if anyAxisRuns s then .bypass else i, reset := false } })) ∧
       exec .idcode s = .next (settle { s with tap := { s.tap with instr := .idcode, reset := false } }) ∧
       (∀ code : BitVec 8, 5 ≤ code → exec (.bypass code) s = .next (settle { s with
         tap := { s.tap with instr := .bypass, reset := false } })) ∧
       (∀ cap pre, exec (.samplePreload cap pre) s = .next (settle { s with
         tap := { instr := .sample, captured := scanLevels cap, boundary := scanLevels pre, reset := false } }))) ∧
     exec .tapReset s = .next (settle { s with tap := { s.tap with instr := .idcode, reset := true } }))

/-- Signed transfers (R402 to R404): BEGIN opens the buffer, a data line writes its bytes into it, END closes it and
ABORT gives it up; END of a plan while the loader is busy is ignored and counted (R44). A transfer with a gap, or a key request that is refused, changes neither fuses nor store; an accepted
firmware image goes to the copy that is not running. The journal performs one entry at its turn, the oldest first, and
the item takes its new value (R408, R410). -/
def Obligations.TransfersAndJournal : Prop :=
  (∀ s : State, s.island.vaon = true →
     (s.console.locked = true →
       (∀ n : Nat, s.console.xfer = none → n ≤ 262144 →
         Performs (.xferBegin (.key n)) "XFER BEGIN" [0, n] s { s with console := { s.console with xfer := some { kind := .key n } } } ∧
         Performs (.xferBegin (.fw n)) "XFER BEGIN" [1, n] s { s with console := { s.console with xfer := some { kind := .fw n } } }) ∧
       (∀ (i : Fin 2) (n : Nat), s.console.xfer = none → wrpBusy s = false → n % 8 = 0 → n ≤ slotRoom s i → s.loader.active ≠ some i →
         Performs (.xferBegin (.plan i n)) "XFER BEGIN" [2, n] s { s with
           console := { s.console with xfer := some { kind := .plan i n } }
           store := { s.store with queue := s.store.queue ++ [.slot i .empty] } }) ∧
       (∀ k, s.console.xfer.isSome = true → Declines (.xferBegin k) "XFER BEGIN" [xferCode k, xferLen k] "BUSY" s) ∧
       (∀ (x : Xfer) (off : BitVec 32) (data : List Byte), s.console.xfer = some x → x.ended = false →
         xferDataWf data = true → off.toNat + data.length ≤ xferLen x.kind →
         Performs (.xferData off data) "XFER" [off.toNat, data.length] s { s with
           console := { s.console with xfer := some { x with buf := bufPut x.buf off.toNat data } }
           store := { s.store with
             queue := s.store.queue ++ (match x.kind with | .plan i _ => [.slotData i off data] | _ => []) } }) ∧
       (∀ (x : Xfer) (i : Fin 2) (n : Nat), s.console.xfer = some x → x.ended = false → x.kind = .plan i n →
         s.loader.job ≠ .none → exec .xferEnd s = .next (settle (refuse "XFER END" [] "BUSY" [] { s with
           loader := { s.loader with ign := satInc s.loader.ign } }))) ∧
       (∀ x : Xfer, s.console.xfer = some x → x.ended = false → (∀ i n, x.kind = .plan i n → s.loader.job = .none) →
         Performs .xferEnd "XFER END" [] s { s with
           console := { s.console with xfer := some { x with ended := true } }
           loader := match x.kind with | .plan _ _ => { s.loader with job := .transfer, stage := 1 } | _ => s.loader }) ∧
       (s.console.xferOpen = true →
         Performs .xferAbort "XFER ABORT" [] s { s with console := { s.console with xfer := none } })) ∧
     (∀ x : Xfer, s.console.xfer = some x → x.ended = true → s.rat.reopened = none →
       let b := x.buf.map (·.2)
       let Says := fun (t : State) (code : String) =>
         s.console.held.length < 32 → t.console.held = s.console.held ++ [.xfer (xferCode x.kind) code 0]
       ∃ t, exec .xferCheckDone s = .next t ∧ t.console.xfer = none ∧ t.store.block = s.store.block ∧
         (x.buf.length ≠ xferLen x.kind → t.island = s.island ∧ t.store = s.store ∧ Says t "GAP") ∧
         (∀ n, x.kind = .key n → x.buf.length = n → Says t (keyCheck s.island.keys b) ∧
           if keyCheck s.island.keys b = "OK" then t.island.keys = (blowKey b s).island.keys
           else t.island = s.island ∧ t.store = s.store) ∧
         (∀ n, x.kind = .fw n → x.buf.length = n → Says t (fwCheck s b) ∧ t.island.keys = s.island.keys ∧
           if fwCheck s b = "OK" then JWrite.fw (fwSpare s) (.valid (BitVec.ofNat 64 (leAt b 8 8)) b) ∈ t.store.queue
           else t.store = s.store))) ∧
  (∀ (s : State) (w : JWrite) (q : List JWrite), s.island.vaon = true → s.store.queue = w :: q →
     ∃ t, exec .journalEntry s = .next t ∧ t = settle { s with store := t.store } ∧ t.store.queue = q ∧
       t.store.jseq = s.store.jseq + 1 ∧
       t.store.journal.head? = some (s.store.entry (islandTime s) w true true) ∧
       (∀ e ∈ t.store.journal.head?, leAt e.bytes 48 8 + t.store.jseq.toNat = 2 ^ 64 - 1 ∧ leAt e.bytes 56 8 = t.store.jseq.toNat) ∧ t.store.work = s.store.work ∧
       t.store.block = (match w with | .block b => b | _ => s.store.block) ∧
       t.store.training = (match w with | .training r => some r | _ => s.store.training) ∧
       t.store.trims = (match w with | .trim r => (r :: s.store.trims).take 4096 | _ => s.store.trims) ∧
       t.store.log = (match w with | .log e => (e :: s.store.log).take 512 | _ => s.store.log) ∧
       t.store.slotA = (match w with | .slot 0 v => v | .slotData 0 _ _ => .empty | _ => s.store.slotA) ∧
       t.store.slotB = (match w with | .slot 1 v => v | .slotData 1 _ _ => .empty | _ => s.store.slotB) ∧
       t.store.fw0 = (match w with | .fw 0 v => v | _ => s.store.fw0) ∧
       t.store.fw1 = (match w with | .fw 1 v => v | _ => s.store.fw1))

/-! ### Rails, starts and stops (3) -/

/-- Raising: an enabled rail that becomes good, the 200 µs after a good group, and the fuses sensed (R48, R49, R59). The
next group's rails are enabled in their order. -/
def Obligations.RailsRaisedInOrder : Prop :=
  (∀ (s : State) (n : Fin 14) (ramp : Bool), s.island.vaon = true → s.island.enabled.getLsbD n = true →
    s.island.good.getLsbD n = false → (ramp = true ∨ ∀ r, s.island.start = some r → r.kind ≠ .extended) →
    ∃ t, exec (.seqRailGood n ramp) s = .next t ∧ t.island.good = s.island.good ||| (1#14 <<< n.val) ∧
      t.island.enabled = s.island.enabled ∧ t.island.mode = s.island.mode ∧ t.store = s.store ∧ t.axes = s.axes ∧
      ∀ r, s.island.start = some r → r.step = 4 → r.waiting = false → r.failed = none →
        (wantedRails r &&& railMask (· = r.group) &&& ~~~t.island.good) = 0 →
        t.island.start = some (if (nextGroup r r.group).isSome then { r with waiting := true } else { r with step := 5 })) ∧
  (∀ (s : State) (r : StartRun) (g : Nat), s.island.vaon = true → s.island.seqr = .idle → s.island.start = some r →
    r.step = 4 → r.waiting = true → nextGroup r r.group = some g →
    ∃ t, exec .seqGroupDelay s = .next t ∧
      t.island.enabled = s.island.enabled ||| (wantedRails r &&& railMask (· = g)) ∧ t.island.good = s.island.good ∧
      t.island.start = some { r with group := g, waiting := false } ∧
      t.store = s.store ∧ t.axes = s.axes ∧ t.mem = s.mem) ∧
  (∀ (s : State) (r : StartRun) (g : Nat) (same : Bool), atStep s 3 = true → s.island.start = some r →
    (r.kind = .extended → same = true) → nextGroup r 0 = some g →
    ∃ t, exec (.fuseSensingDone same) s = .next t ∧ t.island.fusesHeld = true ∧
      t.island.enabled = s.island.enabled ||| (wantedRails r &&& railMask (· = g)) ∧
      t.island.start = some { r with step := 4, group := g, waiting := false } ∧
      t.store = s.store ∧ t.axes = s.axes ∧ t.mem = s.mem)

/-- The steps of a start after its rails advance in the order of Table 3.3: the PLLs, the slot choice, the memory's
training and BIST (R52, R58, R60, R63, R78). A start completes when the plan of a slot, or for a raise the active plan,
is applied (R57, R58, R65, R67): the mode is the target's, FAILCNT is 0, and ELV_START_STATUS takes a new result with
code OK. -/
def Obligations.StartStepsComplete : Prop :=
  (∀ (s : State) (r : StartRun), s.island.start = some r →
     (atStep s 5 = true → s.island.refclk = true → ∃ t, exec .pllLocked s = .next t ∧ t.island.pll = true ∧
       t.time.refLost = false ∧ t.island.start = some { r with step := if r.kind = .raise then 7 else 6 } ∧
       (r.kind ≠ .raise → t.loader.job = .apply ∧ t.loader.stage = 1) ∧ (r.kind = .raise → t.loader = s.loader) ∧
       t.island.enabled = s.island.enabled ∧ t.store = s.store) ∧
     (atStep s 6 = true → ∀ i q l, slotOrder s = (i, q) :: l → ∃ t, exec .planVerifyDone s = .next t ∧
       t.island.start = some { r with slot := some i, step := if r.target = 2 then 7 else 9 } ∧
       t.island.enabled = s.island.enabled ∧ t.store = s.store ∧ t.loader = s.loader) ∧
     (atStep s 7 = true → ∀ x : TrainResult, x.ok = true → ∃ t, exec (.memoryTrainingDone x) s = .next t ∧
       t.island.ddrSize = 8 * 2 ^ (34 + x.dimm.toNat) ∧ t.island.trained = true ∧
       t.island.start = some { r with reused := canReuse r x.temp s, step := if r.kind = .warm then 9 else 8 } ∧
       t.island.enabled = s.island.enabled ∧ t.mem = s.mem) ∧
     (atStep s 8 = true → ∃ t, exec (.bistDone true) s = .next t ∧ t.island.start = some { r with step := 9 } ∧
       t.island.enabled = s.island.enabled ∧ t.store = s.store ∧ t.loader = s.loader)) ∧
  (∀ (s : State) (r : StartRun), s.island.start = some r → atStep s 9 = true → s.rat.reopened = none →
     (r.kind ≠ .raise → (applySlots (if r.target = 2 then .full else .servo) (slotOrder (trimsFromStore s)) (trimsFromStore s)).2 = true) →
     (r.kind = .raise → (runStages .raise (trimsFromStore s).loader.plan (trimsFromStore s)).2 = none) →
     ∃ t, exec .planApplyDone s = .next t ∧ t.island.mode = (if r.target = 2 then .full else .servoOnly) ∧
       t.island.start = none ∧ t.island.seqr = .idle ∧ t.island.code = .ok ∧ t.island.kind = r.kind ∧
       t.island.reused = r.reused ∧ t.island.tag.valid = true ∧ t.store.work.failCnt = 0)

/-- What ends a start early (R49, R52, R62, R67): the island logs it and drops the rails it raised from the highest
group down, the failure's code kept with the start. -/
def Obligations.StartFailuresDropRails : Prop :=
  ∀ (s : State) (r : StartRun) (g : Nat), s.rat.reopened = none → s.island.start = some r → nextDrop s .failedStart 9 = some g →
    let Fails := fun (c : Instr) (code : StartCode) => ∃ t e, exec c s = .next t ∧
      t.island.start = some { r with failed := some code } ∧ t.island.seqr = .dropping .failedStart g false ∧
      t.island.enabled = s.island.enabled &&& ~~~(railMask (· = g)) ∧
      t.store.queue = s.store.queue ++ [.log e] ∧ e.kind = 2 ∧ e.detail.toNat = code.code + 256 * r.step.toNat ∧
      t.loader.job = .none
    (∀ n : Fin 14, r.step = 4 → r.waiting = false → r.failed = none → s.island.seqr = .idle →
      s.island.enabled.getLsbD n = true → s.island.good.getLsbD n = false → railGroup n = r.group →
      Fails (.railEnableTimeout n) .rail) ∧
    (∀ n : Fin 14, atStep s 4 = true → r.kind = .extended → s.island.enabled.getLsbD n = true →
      s.island.good.getLsbD n = false → Fails (.seqRailGood n false) .rail) ∧
    (atStep s 5 = true → Fails .pllLockTimeout .clock) ∧
    (atStep s 3 = true → r.kind = .extended → Fails (.fuseSensingDone false) .fuse) ∧
    (atStep s 7 = true → ∀ x : TrainResult, x.ok = false → canReuse r x.temp s = false →
      Fails (.memoryTrainingDone x) .train) ∧
    (atStep s 8 = true → Fails (.bistDone false) .bist)

/-- VAON becoming good boots the island: the console at 115200 baud with the lock free and the meter points OFF, the
fuses and the powered hours kept, and service-only mode until a start ends (R11, R56, R393, R399, R405). Its loss takes
every rail, and with them the boundary scan and the console (R47, R407, R428). Requests for a start (R58, R66, R68):
with the latch set every one ends LATCHED; while a start or a power-down runs it is counted; a raise from servo-only
mode begins at step 4 with VIO18's group and touches no servo rail; the retry after 500 ms is a cold start from service-
only mode, with the failed start's target (the model's choice, log 65). -/
def Obligations.VaonAndRequests : Prop :=
  ((∀ (s : State) (d : StoreDamage), s.island.vaon = false → s.island.enabled = 0 →
     ∃ t, exec (.vaonGood d) s = .next t ∧ t.island.vaon = true ∧ t.island.mode = .serviceOnly ∧
       t.island.keys = s.island.keys ∧ t.island.hours = s.island.hours ∧ t.console.locked = false ∧ t.console.baud = 0 ∧
       t.console.xfer = none ∧ t.console.mp = vrep 8 .off ∧ t.store.lost = none ∧
       ((s.store.recover d).work.latch = true → t.island.code = .latched ∧ t.island.start = none) ∧
       ((s.store.recover d).work.latch = false → (s.store.recover d).work.target ≠ 0 →
         ∃ r, t.island.start = some r ∧ r.step = 3 ∧ r.target = (s.store.recover d).work.target ∧
           r.kind = (if (s.store.recover d).work.marker = .orderly then .cold else .extended) ∧
           t.store.work.marker = .running)) ∧
   (∀ (s : State) (p : LossPoint), s.island.vaon = true →
     ∃ t, exec (.vaonLoss p) s = .next t ∧ t.island.vaon = false ∧ t.island.enabled = 0 ∧ t.island.good = 0 ∧
       t.island.mode = .serviceOnly ∧ t.island.keys = s.island.keys ∧ t.island.hours = s.island.hours ∧
       t.console = {} ∧ t.tap = {} ∧ t.store = s.store.powerLoss (islandTime s) p ∧ (∀ a, (vget t.axes a).st = .held) ∧
       (∀ n, (vget t.cores n).held = true))) ∧
  (∀ s : State, exec .sysResetN s = .next (settle (startRequest none false s)) ∧
     (startAnswer s none = .ok → startRequest none false s = startStep1 none false false {} s)) ∧
  (∀ s : State, s.island.vaon = true →
     let Asked := fun (Q : State → Prop) =>
       (∃ t, exec .sysResetN s = .next t ∧ (s.store.work.target = 2 → Q t)) ∧
       (∀ w : Master, Admits w (elvBase + 0x108) s → ∃ t, exec (.elvStartGo w false 2) s = .next t ∧ Q t)
     (s.store.work.latch = true → Asked fun t => t.island.code = .latched ∧ t.island.tag = s.island.tag.bump ∧
       t.island.start = s.island.start ∧ t.island.ign = s.island.ign ∧ t.store.work = s.store.work) ∧
     (s.store.work.latch = false → starting s = true → Asked fun t => t.island.ign = satInc s.island.ign ∧
       t.island.start = s.island.start ∧ t.island.seqr = s.island.seqr ∧ t.store = s.store) ∧
     (s.store.work.latch = false → starting s = false → s.island.mode = .servoOnly →
       s.island.prevFailed = false → s.store.work.marker ≠ .disorderly → Asked fun t =>
         t.island.start = some { step := 4, kind := .raise, target := 2, group := 2 } ∧
         t.island.enabled = s.island.enabled ||| (railMask (· = 2) &&& ~~~servoRails) ∧ t.island.mode = .servoOnly ∧
         t.store.work = { s.store.work with marker := .running } ∧ t.axes = s.axes ∧ t.fbk = s.fbk ∧ t.can = s.can ∧
         t.time = s.time) ∧
     (∀ r : StartRun, s.island.seqr = .retry → s.island.start = some r → s.island.enabled = 0 →
       (s.store.recover {}).work.latch = false → r.target ≠ 0 → ∃ t, exec .startRetry s = .next t ∧
         t.island.mode = .serviceOnly ∧ t.store.work.marker = .running ∧ ∃ q, t.island.start = some q ∧ q.step = 3 ∧
         q.target = r.target ∧ q.kind = (if (s.store.recover {}).work.marker = .disorderly then .extended else .cold)))

/-- An orderly power-down (R69): a request outside service-only mode blanks the display, stops CAN transmission and
waits out the grace time; its acknowledgement or its end drops the groups from the highest down; the last decay leaves
the marker ORDERLY and service-only mode. -/
def Obligations.OrderlyPowerDown : Prop :=
  ∀ s : State, s.island.vaon = true → s.rat.reopened = none →
    (starting s = false → s.island.mode ≠ .serviceOnly → s.island.grace ≠ 0 →
      let Begun := fun (t : State) (g : BitVec 8) => t.island.seqr = .grace ∧ t.island.grace = g ∧ t.dsp.blank = true ∧
        (∀ k, (vget t.can k).stopTx = true) ∧ (∀ a, (vget t.axes a).st.runs = false) ∧ t.island.enabled = s.island.enabled
      (∃ t, exec .sysOffN s = .next t ∧ Begun t s.island.grace) ∧
      (∀ (w : Master) (g : BitVec 8), g ≠ 0 → Admits w (elvBase + 0x130) s →
        ∃ t, exec (.elvPdnGo w g) s = .next t ∧ Begun t g)) ∧
    (∀ g : Nat, s.island.seqr = .grace → nextDrop s .powerDown 9 = some g →
      let Drops := fun (t : State) => t.island.seqr = .dropping .powerDown g false ∧
        t.island.enabled = s.island.enabled &&& ~~~(railMask (· = g))
      (∃ t, exec .graceExpiry s = .next t ∧ Drops t ∧ t.island.grace = s.island.grace) ∧
      (∀ (w : Master) (q : BitVec 8), Admits w (elvBase + 0x130) s →
        ∃ t, exec (.elvPdnAck w q) s = .next t ∧ Drops t ∧ t.island.grace = q)) ∧
    (∀ (why : DropWhy) (g : Nat), s.island.seqr = .dropping why g false →
      (∀ k, nextDrop s why g = some k → ∃ t, exec .railDecayed s = .next t ∧ t.island.seqr = .dropping why g true ∧
        t.island.enabled = s.island.enabled ∧ t.store = s.store) ∧
      (nextDrop s why g = none → why = .powerDown → s.island.stopStart = false → ∃ t, exec .railDecayed s = .next t ∧
        t.island.seqr = .idle ∧ t.island.mode = .serviceOnly ∧ t.store.work = { s.store.work with marker := .orderly } ∧
        (s.console.held.length < 32 → t.console.held = s.console.held ++ [.stop .orderly]))) ∧
    (∀ (why : DropWhy) (g k : Nat), s.island.seqr = .dropping why g true → nextDrop s why g = some k →
      ∃ t, exec .seqGroupDelay s = .next t ∧ t.island.seqr = .dropping why k false ∧
        t.island.enabled = s.island.enabled &&& ~~~(why.mask &&& railMask (· = k)) ∧ t.store = s.store)

/-- A rail failure takes the rails that depend on it and the store records a disorderly power-down (R50); 200 µs after
one during an orderly power-down every rail is dropped (R70). REFCLK or the servo PLL's lock is lost: with VSVO good, every axis that is not held enters its safe state with OUTPUT set (R54, R376); their return
disciplines installation time again (R213). -/
def Obligations.RailAndClockLoss : Prop :=
  ((∀ (s : State) (n : Fin 14), s.island.vaon = true → s.island.enabled.getLsbD n = true → s.island.good.getLsbD n = true →
     s.island.seqr = .idle → s.island.start = none → s.rat.reopened = none → ∃ t, exec (.railFailure n) s = .next t ∧
       t.island.enabled = s.island.enabled &&& ~~~(railMask (railGroup n < ·)) ∧
       t.island.good = (s.island.good &&& ~~~(1#14 <<< n.val)) &&& ~~~(railMask (railGroup n < ·)) ∧
       t.store.work = { s.store.work with marker := .disorderly }) ∧
   (∀ (s : State) (n : Fin 14) (k : Nat), s.island.vaon = true → s.rat.reopened = none → s.island.seqr = .disorderly n k →
     ∃ t e, exec .disorderlyDropDelay s = .next t ∧ t.island.enabled = 0 ∧ t.island.good = 0 ∧ t.island.seqr = .idle ∧
       t.island.mode = .serviceOnly ∧ t.island.start = none ∧ t.store.work = { s.store.work with marker := .disorderly } ∧
       t.store.queue = s.store.queue ++ [.block t.store.work, .log e] ∧ e.kind = 1 ∧
       e.detail = BitVec.ofNat 256 (n.val + 256 * k))) ∧
  ((∀ (s : State) (pllOnly : Bool), s.island.refclk = true → (pllOnly = true → s.island.pll = true) →
     s.rat.reopened = none → ∃ t, exec (.refclkLoss pllOnly) s = .next t ∧ t.island = { s.island with refclk := pllOnly, pll := false } ∧
       (s.island.good.getLsbD 0 = true →
         (∀ a, (vget s.axes a).st ≠ .held → (vget t.axes a).st = .safe) ∧
         (∀ a, (vget s.axes a).st = .held → (vget t.axes a).st = .held) ∧
         (∀ a, (vget t.flt (fidSlot (axFid a))).a.cause.getLsbD 10 = true) ∧ (pllOnly = false → t.time.refLost = true))) ∧
   (∀ s : State, s.island.refclk = false ∨ s.island.pll = false →
     exec .refclkReturn s = .next (settle { s with
       island := { s.island with refclk := true, pll := s.island.good.getLsbD 0 && s.island.good.getLsbD 1 },
       time := { s.time with refLost := false
                             slew := if s.time.refLost && s.time.st = .locked && !s.time.gm
                               then decide (4 < absInt s.time.ofs.toInt) else s.time.slew } })))

/-! ### The plan (2) -/

/-- A partial reload (R40 to R43): GO starts the comparison; a refused one leaves its code in WRP_RESULT; an accepted
one closes the partition's selvedge, reopens its region entries and goes on to the stages, whose end re-seals the plan of the slot
or leaves the old one. A store (R39, R44, R450): GO reads the image as P0; the check ends with a refusal's code, or the
image goes into the slot through the journal and the slot's rejected mark is cleared. -/
def Obligations.ReloadAndStore : Prop :=
  ((∀ (s : State) (w : Master) (p : Fin 32) (i : Fin 2) (f : Bool), Admits w (wrpBase + 0x100) s →
     (s.loader.job = .none → exec (.wrpReloadGo w p i f) s = .next (settle { s with
       loader := { s.loader with relPart := BitVec.ofNat 5 p, relSlot := i = 1, relForce := f, job := .reloadCompare p i f } })) ∧
     (s.loader.job ≠ .none → exec (.wrpReloadGo w p i f) s = .next (settle { s with
       loader := { s.loader with relPart := BitVec.ofNat 5 p, relSlot := i = 1, relForce := f, ign := satInc s.loader.ign } }))) ∧
   (∀ (s : State) (p : Fin 32) (i : Fin 2) (f : Bool), s.loader.job = .reloadCompare p i f →
     (∀ e, reloadRefusal s p i f = some e → ∃ t, exec .reloadCompareDone s = .next t ∧ t.loader = { s.loader with
         code := e.1, rstage := BitVec.ofNat 4 e.2.1, part := BitVec.ofNat 5 p, kind := 1, tag := s.loader.tag.bump,
         ofs := BitVec.ofNat 32 e.2.2, job := .none, stage := 0 } ∧ t.axes = s.axes ∧ t.parts = s.parts) ∧
     (reloadRefusal s p i f = none → ∃ t, exec .reloadCompareDone s = .next t ∧
         t.loader.job = .reloadStages p i ∧ t.loader.stage = 2 ∧ t.rat.reopened = some p ∧ (vget t.parts p).fenced = true ∧
         ∀ e ∈ t.rat.entries.toList, e.owner = some p → e.valid = false)) ∧
   (∀ (s : State) (p : Fin 32) (i : Fin 2) (img : List Byte), s.loader.job = .reloadStages p i →
     (slotImage s i = none → exec .reloadDone s = .next (settle { s with loader := { s.loader with job := .none, stage := 0 } })) ∧
     (slotImage s i = some img →
     ((runStages (.part p) img s).2 = none → ∃ t, exec .reloadDone s = .next t ∧ t.loader.active = some i ∧
       t.loader.plan = img ∧ t.loader.isSealed = true ∧ t.loader.seq = planSeq img ∧ t.loader.code = 0 ∧ t.loader.rstage = 12 ∧
       t.loader.kind = 1 ∧ t.loader.job = .none) ∧
     (∀ e, (runStages (.part p) img s).2 = some e → ∃ t, exec .reloadDone s = .next t ∧ t.loader.active = s.loader.active ∧
       t.loader.plan = s.loader.plan ∧ t.loader.code = e.2.1 ∧ t.loader.rstage = BitVec.ofNat 4 e.1 ∧ t.loader.kind = 1 ∧
       t.loader.job = .none ∧ rejected t.store.work i = true)))) ∧
  ((∀ (s : State) (w : Master) (i : Fin 2), Admits w (wrpBase + 0x210) s →
     let c := storeReadable s i s.loader.storeAddr.toNat s.loader.storeLen.toNat
     let img := if c = 0 then rdBytes s s.loader.storeAddr.toNat s.loader.storeLen.toNat else []
     (s.loader.job = .none → exec (.wrpStoreGo w i) s = .next (settle { s with
       loader := { s.loader with storeSlot := i = 1, stage := 1, job := .store i img c } })) ∧
     (s.loader.job ≠ .none → exec (.wrpStoreGo w i) s = .next (settle { s with
       loader := { s.loader with storeSlot := i = 1, ign := satInc s.loader.ign } }))) ∧
   (∀ (s : State) (i : Fin 2) (img : List Byte) (c : BitVec 8), s.loader.job = .store i img c →
     (c ≠ 0 → ∃ t, exec .storeVerifyDone s = .next t ∧ t.loader = { s.loader with
       code := c, rstage := 0, part := 0, kind := 2, tag := s.loader.tag.bump, ofs := 0, job := .none, stage := 0 } ∧
       t.store = s.store) ∧
     (c = 0 → ∀ e, storeRefusal s i img = some e → ∃ t, exec .storeVerifyDone s = .next t ∧ t.loader = { s.loader with
       code := e.1, rstage := BitVec.ofNat 4 e.2.1, part := 0, kind := 2, tag := s.loader.tag.bump,
       ofs := BitVec.ofNat 32 e.2.2, job := .none, stage := 0 } ∧ t.store = s.store) ∧
     (c = 0 → storeRefusal s i img = none → ∃ t, exec .storeVerifyDone s = .next t ∧ t.loader = { s.loader with
       code := 0, rstage := 1, part := 0, kind := 2, tag := s.loader.tag.bump, ofs := 0, job := .none, stage := 0 } ∧
       t.store.queue = s.store.queue ++ [.slot i (.valid img (planSeq img)), .block t.store.work] ∧
       rejected t.store.work i = false)))

/-! ### Cores, register space and root ports (4, 5, 6) -/

/-- A load, or a fetch, whose parts the rules admit and whose bytes are clean DRAM's (R86, R93, R101): the bytes go to the
destination register, extended or boxed, x0 stays, the instruction retires, and neither memory nor another register
changes. A load of a register gives the register's value (R76). -/
def Obligations.CoreLoads : Prop :=
  ∀ (s : State) (n : Fin 48) (acc : MemAcc) (ps : List Piece), coreRuns s n = true → acc.kind ≠ .store →
    coreSpan s n acc.kind acc.addr (2 ^ acc.size.toNat) = .ok ps →
    let c := vget s.cores n
    let Loads := fun (e : Ecc) (bs : List Byte) => ∃ t, exec (.loadStore n acc e) s = .next t ∧ t.mem = s.mem ∧
      t.rat = s.rat ∧ t.poison = s.poison ∧
      (acc.kind = .fetch → SameCore { c with pc := acc.pc } (vget t.cores n)) ∧
      (acc.kind = .load → acc.fp = true → SameCore
        (Core.retired { c with pc := acc.pc, f := vset c.f acc.rd (loadValue acc bs) }) (vget t.cores n)) ∧
      (acc.kind = .load → acc.fp = false → SameCore (Core.retired
        { c with pc := acc.pc, x := if acc.rd = 0 then c.x else vset c.x acc.rd (loadValue acc bs) }) (vget t.cores n)) ∧
      ∀ m, m ≠ n → SameCore (vget s.cores m) (vget t.cores m)
    ((∀ q ∈ ps, isDram s q.pa = true ∧ poisoned s q.pa q.len = false) →
      Loads .clean (ps.flatMap fun q => rdBytes s q.pa q.len)) ∧
    (∀ q p, ps = [q] → addrClass q.pa = .reg → partOf s (coreFid n) = some p → ∀ e,
      Loads e (natLe q.len (regLoad (atPc n acc.pc s) p (q.pa - regBase) q.len)))

/-- A store into DRAM that the rules admit (R93, R98): the bytes of the data, least significant first, and no other byte
of memory; reservations of the lines it touches end; no register but the pc changes, and the instruction retires. -/
def Obligations.CoreStores : Prop :=
  ∀ (s : State) (n : Fin 48) (acc : MemAcc) (e : Ecc) (q : Piece), acc.kind = .store →
    DramAccess n .store acc.addr (2 ^ acc.size.toNat) q s →
    let len := 2 ^ acc.size.toNat
    ∃ t, exec (.loadStore n acc e) s = .next t ∧
      (∀ b, rdByte t b = if q.pa ≤ b ∧ b < q.pa + len then BitVec.ofNat 8 (acc.data.toNat / 256 ^ (b - q.pa)) else rdByte s b) ∧
      (∀ m, (vget t.cores m).x = (vget s.cores m).x ∧ (vget t.cores m).f = (vget s.cores m).f ∧
        (vget t.cores m).v = (vget s.cores m).v ∧ (vget t.cores m).status = (vget s.cores m).status) ∧
      (vget t.cores n).pc = acc.pc ∧ (vget t.cores n).minstret = (vget s.cores n).minstret + 1 ∧
      (∀ m r, (vget s.cores m).resv = some r → (vget t.cores m).resv = if lineIn q.pa len (r.1 / 64) then none else some r) ∧
      t.rat = s.rat

/-- An access that is not performed (R74, R90, R91, R101, R102). One that meets a region entry under reload waits: nothing
changes. Any other takes the access fault, the page fault or the guest-page fault of a load, a store or a fetch, with the
address; one refused by the rules is recorded in RAT_ERR_INFO and RAT_ERR_ADDR and sets ACCESS of the core's function. A
load or fetch of a poisoned line sets POISON and takes the access fault. -/
def Obligations.RefusedAccessTraps : Prop :=
  ∀ (s : State) (n : Fin 48) (acc : MemAcc) (e : Ecc), coreRuns s n = true → s.rat.waits = false →
    let len := 2 ^ acc.size.toNat
    let c := { vget s.cores n with pc := acc.pc }
    let fault := fun (load store fetch : Nat) => match acc.kind with | .load => load | .store => store | .fetch => fetch
    let Sets := fun (t : State) (bit : Nat) => (vget t.flt (fidSlot (coreFid n))).a.cause.getLsbD bit = true
    (∀ va x, coreSpan s n acc.kind acc.addr len = .error (va, x) →
      (x = .held → s.rat.reopened ≠ none → exec (.loadStore n acc e) s = .next s) ∧
      (x ≠ .held → ∃ t f, exec (.loadStore n acc e) s = .next t ∧ t.mem = s.mem ∧ Traps c (vget t.cores n) f acc.pc ∧
        f.tval = va ∧ f.gva = (accPriv c acc.kind).virt ∧
        (x = .page → f.code = fault 13 15 12 ∧ t.rat = s.rat) ∧
        (∀ g, x = .guest g → f.code = fault 21 23 20 ∧ f.gpa = g ∧ t.rat = s.rat) ∧
        (∀ r a, x = .access r a → f.code = fault 5 7 1) ∧
        (∀ w cause a, x = .access (some (w, cause)) a → t.rat = { s.rat with
          errFid := coreFid n, errWrite := w, errCause := cause, errTag := s.rat.errTag.bump, errAddr := BitVec.ofNat 44 a } ∧
          Sets t 1) ∧
        (∀ a, x = .access none a → t.rat = s.rat ∧ t.flt = s.flt) ∧
        (x = .poison → f.code = fault 5 7 1 ∧ Sets t 2))) ∧
    (∀ q, acc.kind ≠ .store → coreSpan s n acc.kind acc.addr len = .ok [q] → isDram s q.pa = true →
      poisoned s q.pa q.len = true → ∃ t f, exec (.loadStore n acc .clean) s = .next t ∧ t.mem = s.mem ∧ Sets t 2 ∧
        Traps c (vget t.cores n) f acc.pc ∧ f.code = fault 5 7 1 ∧ f.tval = q.va)

/-- Atomics on clean DRAM (R93, R98): an AMO leaves the old value, sign-extended, in rd and the operation's value in
memory; LR takes a reservation of the physical address; SC with the reservation stores and answers 0, without it it makes
no access and answers 1; either ends it; a misaligned one takes the address-misaligned exception. Barriers and
cache-block operations (R97, R99): after FENCE, FENCE.I and PAUSE no write of the core waits for its acknowledgement;
after CBO.CLEAN, CBO.FLUSH and CBO.INVAL no core holds the line dirty; memory and registers stay; one that is not
admitted takes a store's fault. -/
def Obligations.AtomicsAndCacheBlocks : Prop :=
  (∀ (s : State) (n : Fin 48) (pc ad rs2 : BitVec 64) (dbl : Bool) (rd : Fin 32) (aq rl : Bool) (q : Piece),
     let len := if dbl then 8 else 4
     let old := leNat (rdBytes s q.pa len)
     let Rd := fun (t : State) (v : BitVec 64) => (vget t.cores n).x = if rd = 0 then (vget s.cores n).x else vset (vget s.cores n).x rd v
     let Writes := fun (t : State) (v : Nat) => rdBytes t q.pa len = natLe len v ∧
       ∀ b, (b < q.pa ∨ q.pa + len ≤ b) → rdByte t b = rdByte s b
     (ad.toNat % len = 0 → poisoned s q.pa len = false →
       (∀ op, op ≠ .lr → op ≠ .sc → DramAccess n .store ad len q s → pmpOk (vget s.cores n) .load q.pa len = true →
         ∃ t, exec (.amoLrSc n pc op ad dbl rs2 rd aq rl) s = .next t ∧ Rd t (signTo64 len old) ∧
           Writes t (amoValue op (8 * len) old rs2.toNat) ∧ (vget t.cores n).pc = pc) ∧
       (DramAccess n .load ad len q s → ∃ t, exec (.amoLrSc n pc .lr ad dbl rs2 rd aq rl) s = .next t ∧
         Rd t (signTo64 len old) ∧ (vget t.cores n).resv = some (q.pa, dbl) ∧ t.mem = s.mem) ∧
       (DramAccess n .store ad len q s → (vget s.cores n).resv = some (q.pa, dbl) →
         ∃ t, exec (.amoLrSc n pc .sc ad dbl rs2 rd aq rl) s = .next t ∧ Rd t 0 ∧ (vget t.cores n).resv = none ∧
           Writes t rs2.toNat)) ∧
     (ad.toNat % len = 0 → coreRuns s n = true → coreSpan s n .store ad len = .ok [q] →
       (vget s.cores n).resv ≠ some (q.pa, dbl) →
       ∃ t, exec (.amoLrSc n pc .sc ad dbl rs2 rd aq rl) s = .next t ∧ Rd t 1 ∧ (vget t.cores n).resv = none ∧
         t.mem = s.mem ∧ t.rat = s.rat) ∧
     (ad.toNat % len ≠ 0 → coreRuns s n = true → ∀ op, ∃ t f, exec (.amoLrSc n pc op ad dbl rs2 rd aq rl) s = .next t ∧
       Traps { vget s.cores n with pc := pc } (vget t.cores n) f pc ∧ f.code = (if op = .lr then 4 else 6) ∧ f.tval = ad ∧
       t.mem = s.mem ∧ t.rat = s.rat)) ∧
  (∀ (s : State) (n : Fin 48), coreRuns s n = true →
     (∀ c, c ∈ [Instr.fenceI n, .pause n] ∨ (∃ pr su tso, c = .fence n pr su tso) →
       exec c s = .next (settle { s with cores := vmod s.cores n fun c => Core.retired { c with unacked := [] } })) ∧
     (∀ (pc ad : BitVec 64) (c : Instr), c ∈ [Instr.cboClean n pc ad, .cboFlush n pc ad, .cboInval n pc ad] →
       (∀ a, cboLine (atPc n pc s) n ad = .ok a →
         ∃ t, exec c s = .next t ∧ t.mem = s.mem ∧ t.rat = s.rat ∧ (vget t.cores n).pc = pc ∧
           ∀ m, (vget t.cores m).dirty = (vget s.cores m).dirty.filter (fun k => !lineIn a 64 k) ∧
             (vget t.cores m).x = (vget s.cores m).x) ∧
       (∀ x, cboLine (atPc n pc s) n ad = .error x → s.rat.reopened = none → ∃ t, exec c s = .next t ∧ t.mem = s.mem ∧
         Traps { vget s.cores n with pc := pc } (vget t.cores n)
           (stopTrap { vget s.cores n with pc := pc } .store ad x) pc)))

/-- Vectors (R111 to R114): arithmetic with vstart 0 writes what its result names, with another vstart it is an illegal
instruction; a load reads its elements from vstart on, a store writes them, and both leave vstart 0; one interrupted keeps
the index of the first element not performed; one that faults keeps the index of the element; a fault-only-first load that
faults past element 0 shortens vl and takes no trap, at element 0 it traps. -/
def Obligations.Vectors : Prop :=
  ∀ (s : State) (n : Fin 48) (pc : BitVec 64), coreRuns s n = true →
    let c := { vget s.cores n with pc := pc }
    let Same := fun (t : State) => t.mem = s.mem ∧ t.rat = s.rat ∧ (vget t.cores n).x = c.x ∧ (vget t.cores n).pc = pc
    (∀ res : VResult, c.vstart = 0 → ∃ t, exec (.vectorArithmetic n pc res) s = .next t ∧ t.mem = s.mem ∧ t.rat = s.rat ∧
      (vget t.cores n).v = res.vregs.foldl (fun v q => vset v q.1 q.2) c.v ∧
      (vget t.cores n).x = (match res.xd with | some (rd, v) => if rd = 0 then c.x else vset c.x rd v | none => c.x) ∧
      (vget t.cores n).f = (match res.fd with | some (rd, v) => vset c.f rd v | none => c.f) ∧
      ((vget t.cores n).vl, (vget t.cores n).vtype) = (match res.setvl with
        | some (vl, vt) => (vl.setWidth 64, vt) | none => (c.vl, c.vtype)) ∧ (vget t.cores n).pc = pc) ∧
    (∀ res : VResult, c.vstart ≠ 0 → ∃ t, exec (.vectorArithmetic n pc res) s = .next t ∧ t.mem = s.mem ∧
      Traps c (vget t.cores n) { code := 2 } pc) ∧
    (∀ (es : List VElem) (q : VElem → Piece),
      (∀ e ∈ es, e.store = false ∧ DramAccess n .load e.addr (2 ^ e.size.toNat) (q e) s ∧
        poisoned s (q e).pa (2 ^ e.size.toNat) = false) →
      let todo := segments (es.filter fun e => c.vstart.toNat ≤ e.idx.toNat)
      let after := fun (gs : List (List VElem)) => gs.flatten.foldl (fun v e =>
        vset v e.vd (putElem (vget v e.vd) e.size e.elem.toNat (leNat (rdBytes s (q e).pa (2 ^ e.size.toNat))))) c.v
      (∀ i, i ∈ [Instr.vectorLoadStore n pc es none, .faultOnlyFirstLoad n pc es] → ∃ t, exec i s = .next t ∧ Same t ∧
        (vget t.cores n).v = after todo ∧ (vget t.cores n).vstart = 0) ∧
      (∀ k, ∃ t, exec (.vectorLoadStore n pc es (some k)) s = .next t ∧ Same t ∧
        let did := todo.takeWhile fun g => decide (segIdx g < k)
        (vget t.cores n).v = after did ∧
        (vget t.cores n).vstart = (match todo.drop did.length with | g :: _ => BitVec.ofNat 64 (segIdx g) | [] => 0))) ∧
    (∀ (e : VElem) (q : Piece), e.store = true → c.vstart.toNat ≤ e.idx.toNat →
      DramAccess n .store e.addr (2 ^ e.size.toNat) q s →
      ∃ t, exec (.vectorLoadStore n pc [e] none) s = .next t ∧ (vget t.cores n).v = c.v ∧ (vget t.cores n).vstart = 0 ∧
        ∀ b, rdByte t b = if q.pa ≤ b ∧ b < q.pa + 2 ^ e.size.toNat then BitVec.ofNat 8 (e.data.toNat / 256 ^ (b - q.pa))
          else rdByte s b) ∧
    (∀ (es : List VElem) (e : VElem) (rest : List VElem) (va : BitVec 64) (x : Stop), s.rat.reopened = none →
      es.filter (fun e => c.vstart.toNat ≤ e.idx.toNat) = e :: rest →
      let k := if e.store then AccKind.store else .load
      coreSpan s n k e.addr (2 ^ e.size.toNat) = .error (va, x) → ∃ t, exec (.vectorLoadStore n pc es none) s = .next t ∧
        t.mem = s.mem ∧ Traps { c with vstart := BitVec.ofNat 64 e.idx.toNat } (vget t.cores n) (stopTrap c k va x) pc) ∧
    (∀ (e f : VElem) (q : Piece) (va : BitVec 64) (x : Stop), s.rat.reopened = none → c.vstart = 0 → e.idx = 0 →
      coreSpan s n .load f.addr (2 ^ f.size.toNat) = .error (va, x) →
      (f.idx ≠ 0 → DramAccess n .load e.addr (2 ^ e.size.toNat) q s → poisoned s q.pa (2 ^ e.size.toNat) = false →
        ∃ t, exec (.faultOnlyFirstLoad n pc [e, f]) s = .next t ∧ t.mem = s.mem ∧ (vget t.cores n).pc = pc ∧
          (vget t.cores n).vl = BitVec.ofNat 64 f.idx.toNat ∧ (vget t.cores n).vstart = 0 ∧ (vget t.cores n).priv = c.priv) ∧
      (f.idx = 0 → ∃ t, exec (.faultOnlyFirstLoad n pc [f]) s = .next t ∧ t.mem = s.mem ∧
        Traps { c with vstart := 0 } (vget t.cores n) (stopTrap c .load va x) pc)) ∧
    (s.rat.reopened = none → ∀ (es : List VElem) (stop : Option Nat),
      let todo := segments (es.filter fun e => c.vstart.toNat ≤ e.idx.toNat)
      exec (.vectorLoadStore n pc es stop) s = .next (settle (vectorRun n pc stop todo (atPc n pc s))))

/-- Time, timers and interrupts of a core (R105, R106, R110, R115). -/
def Obligations.CoreTimersAndInterrupts : Prop :=
  ∀ (s : State) (n : Fin 48),
    let c := vget s.cores n
    (coreRuns s n = true → ∀ rd : Fin 32, ∃ t, exec (.timeCsrRead n rd) s = .next t ∧ t.mem = s.mem ∧
      let v := (s.time.it >>> 4) + if c.priv.virt then c.htimedelta else 0
      SameCore (Core.retired { c with x := if rd = 0 then c.x else vset c.x rd v }) (vget t.cores n)) ∧
    (coreRuns s n = true → c.priv = .m → ∀ (pc : BitVec 64) (rd : Fin 32),
      let x := if rd = 0 then c.x else vset c.x rd c.mtimecmp
      (∀ v, ∃ t, exec (.clwMtimecmpAccess n pc (some v) rd) s = .next t ∧ (vget t.cores n).mtimecmp = v ∧
        (vget t.cores n).x = x ∧ (vget t.cores n).mip.getLsbD 7 = decide (v ≤ s.time.it >>> 4)) ∧
      (∃ t, exec (.clwMtimecmpAccess n pc none rd) s = .next t ∧
        SameCore (Core.retired { c with pc := pc, x := x }) (vget t.cores n))) ∧
    (coreRuns s n = true → c.priv ≠ .m → ∀ (pc : BitVec 64) (w : Option (BitVec 64)) (rd : Fin 32), ∃ t,
      exec (.clwMtimecmpAccess n pc w rd) s = .next t ∧ Traps { c with pc := pc } (vget t.cores n) { code := 2 } pc) ∧
    (s.island.mode = .full → c.mtimecmp ≤ s.time.it >>> 4 → ∃ t, exec (.machineTimer n) s = .next t ∧
      (vget t.cores n).mip.getLsbD 7 = true ∧ (vget t.cores n).x = c.x) ∧
    (s.island.mode = .full →
      c.stimecmp ≤ s.time.it >>> 4 ∨ c.hvip.getLsbD 6 = true ∨ c.vstimecmp ≤ (s.time.it >>> 4) + c.htimedelta →
      ∃ t, exec (.supervisorTimer n) s = .next t ∧ (vget t.cores n).x = c.x ∧
        (vget t.cores n).mip.getLsbD 5 = decide (c.stimecmp ≤ s.time.it >>> 4) ∧
        (vget t.cores n).mip.getLsbD 6 = (c.hvip.getLsbD 6 || decide (c.vstimecmp ≤ (s.time.it >>> 4) + c.htimedelta))) ∧
    (coreRuns s n = true → ∀ pc code md, intrNow s c = some (code, md) → ∃ t, exec (.interruptTaken n pc) s = .next t ∧
      SameCore (trapInto md { code := if md = .vs then code - 1 else code } true pc c) (vget t.cores n)) ∧
    (coreRuns s n = true → ∀ i : Fin 29, 1 ≤ (vget c.hpmEvent i).toNat % 65536 → (vget c.hpmEvent i).toNat % 65536 ≤ 12 →
      ∃ t, exec (.counterOverflow n i) s = .next t ∧ vget (vget t.cores n).hpm i = 0 ∧
        (vget (vget t.cores n).hpmEvent i).getLsbD 63 = true ∧
        ((vget c.hpmEvent i).toNat < 2 ^ 63 → (vget t.cores n).mip.getLsbD 13 = true) ∧
        ∀ j, j ≠ i → vget (vget t.cores n).hpm j = vget c.hpm j)

/-- Writes of register space (R10, R76, R77, R380): one that the page or the width rule refuses is recorded with its
cause and changes no register; one admitted has its register's effect, at an undefined
offset none; one to a fenced function's page is ignored. -/
def Obligations.RegisterWrites : Prop :=
  ∀ (s : State) (w : Master) (addr : Pa) (wide : Bool) (v : BitVec 64), masterRuns s w = true → addrClass addr.toNat = .reg →
    let len := if wide then 8 else 4
    (∀ c, regErr s w addr.toNat len true = some c → ∃ t, exec (.registerWrite w addr wide v) s = .next t ∧
      t.rat.errFid = masterFid w ∧ t.rat.errCause = c ∧ t.rat.errWrite = true ∧ t.rat.errAddr = BitVec.ofNat 44 addr.toNat ∧
      t.rat.entries = s.rat.entries ∧ t.island = s.island ∧ t.queues = s.queues ∧ t.axes = s.axes ∧ t.mem = s.mem) ∧
    (∀ p, regErr s w addr.toNat len true = none → masterPart s w = some p →
      (pageFenced s addr.toNat = true → exec (.registerWrite w addr wide v) s = .next (settle s)) ∧
      (pageFenced s addr.toNat = false → regDefined s p (addr.toNat - regBase) = false →
        exec (.registerWrite w addr wide v) s = .next (settle s)) ∧
      (pageFenced s addr.toNat = false → regDefined s p (addr.toNat - regBase) = true → s.rat.reopened = none →
        exec (.registerWrite w addr wide v) s = .next (settle (regPut w p (addr.toNat - regBase) v.toNat s))) ∧
      (isFenced s frzFid = false → addr.toNat = regBase + 0x300004 → regDefined s p 0x300004 = true →
        exec (.registerWrite w addr wide v) s = .next (settle { s with frz := { s.frz with pmask := BitVec.ofNat 32 v.toNat } })))

/-- The APLIC and the interrupt files (R107 to R109): a write of the MSI address register by P0; an MSI of a root port
is pending at a core of its own partition, and recorded with cause 5 at any other core; the patrol scrubber reads the
next line of DDR5 or of a stack and counts what it corrects (R80, R81). Root ports (R86, R146, R148): an admitted inbound write stores its bytes
and no others; one to register space or to a hole is recorded; a link that comes up or goes down has its width and rate,
and its going down is a LINK fault. -/
def Obligations.InterruptsScrubAndPorts : Prop :=
  ((∀ (s : State) (w : Master) (v : BitVec 32), masterRuns s w = true → masterPart s w = some 0 →
     regErr s w (regBase + 0xC000000 + 0x1BC0) 4 true = none → regDefined s 0 (0xC000000 + 0x1BC0) = true →
     exec (.aplicWrite w 0x1BC0 v) s = .next (settle { s with aplic := vmod s.aplic 0 fun a =>
       { a with mmsi := a.mmsi &&& 0xFFFFFFFF00000000 ||| BitVec.ofNat 64 (v.toNat % 2 ^ 32) } })) ∧
   (∀ (s : State) (w : Master) (off : BitVec 20) (v : BitVec 32), masterRuns s w = true → s.rat.reopened = none →
     exec (.aplicWrite w off v) s = .next (settle (regStore w (regBase + 0xC000000 + off.toNat) 4 v.toNat s))) ∧
   (∀ (s : State) (q : Fin 8) (core : Fin 48) (file : Fin 9) (ident : BitVec 8) (p : Fin 32), rpOpen s q = true →
     partOf s (rpFid q) = some p →
     (belongs s p (fidMk 1 core) = true → ident ≠ 0 → (∀ r, partOf s (fidMk 1 core) = some r → (vget s.parts r).fenced = false) →
       ∃ t, exec (.msiWrite q core file ident) s = .next t ∧
         (vget (vget t.cores core).imsic file).pending.getLsbD ident.toNat = true ∧ t.mem = s.mem ∧ t.rat = s.rat) ∧
     (belongs s p (fidMk 1 core) = false → ∃ t, exec (.msiWrite q core file ident) s = .next t ∧
       t.rat.errFid = rpFid q ∧ t.rat.errCause = 5 ∧ t.rat.errAddr = BitVec.ofNat 44 (imsicAddr core file) ∧ t.mem = s.mem)) ∧
   (∀ (s : State) (f : Fid), s.island.mode = .full → isDram s (64 * s.scrub) = true → eccFid (64 * s.scrub) = some f →
     let a := 64 * (s.scrub + 1)
     let next := if a < s.island.ddrSize then s.scrub + 1 else if a < stackBase 0 then stackBase 0 / 64
       else if a < 0x13000000000 then s.scrub + 1 else 0
     exec (.patrolScrub .clean) s = .next (settle { s with scrub := next }) ∧
     (∃ t, exec (.patrolScrub .corrected) s = .next t ∧ t.scrub = next ∧ t.mem = s.mem ∧ t.poison = s.poison ∧
       (vget t.flt (fidSlot f)).corr = satInc (vget s.flt (fidSlot f)).corr) ∧
     (s.rat.reopened = none → ∃ t, exec (.patrolScrub .uncorrectable) s = .next t ∧ t.scrub = next ∧ s.scrub ∈ t.poison))) ∧
  ((∀ (s : State) (q : Fin 8) (p : Fin 32) (addr : BitVec 64) (len : Nat) (data : List Byte), rpOpen s q = true →
     partOf s (rpFid q) = some p →
     (isDram s addr.toNat = true → ratCheck s p addr.toNat .store .pcie = none → ratHeld s p addr.toNat 8 = false →
       data.length = 8 → addr.toNat % 8 = 0 → ∃ t, exec (.inboundPcieAccess q true addr len data) s = .next t ∧ t.rat = s.rat ∧
         ∀ b, rdByte t b = if addr.toNat ≤ b ∧ b < addr.toNat + 8 then data.getD (b - addr.toNat) 0 else rdByte s b) ∧
     (isDram s addr.toNat = true → ratCheck s p addr.toNat .load .pcie = none → ratHeld s p addr.toNat 8 = false →
       addr.toNat % 8 = 0 → poisoned s addr.toNat 8 = false → exec (.inboundPcieAccess q false addr 8 data) s = .next (settle s)) ∧
     (∀ core file, imsicAt addr.toNat = some (core, file) → addr.toNat < 2 ^ 44 → addrClass addr.toNat = .reg →
       data.length = 4 → leNat data < 256 → exec (.inboundPcieAccess q true addr len data) s =
         exec (.msiWrite q core file (BitVec.ofNat 8 (leNat data))) s) ∧
     (∀ c w, inboundErr addr.toNat = some c → data.length ≠ 4 → tlpOk w addr.toNat len data = true → ∃ t, exec (.inboundPcieAccess q w addr len data) s = .next t ∧
       t.rat.errFid = rpFid q ∧ t.rat.errCause = c ∧ t.rat.errWrite = w ∧ t.mem = s.mem)) ∧
   (∀ (s : State) (q : Fin 8), (vget s.rports q).up = true → s.rat.reopened = none → ∃ t, exec (.pcieLinkDown q) s = .next t ∧
     vget t.rports q = { vget s.rports q with up := false, width := 0, rate := 0 } ∧
     (vget t.flt (fidSlot (rpFid q))).a.cause.getLsbD 5 = true ∧ ∀ r, r ≠ q → vget t.rports r = vget s.rports r) ∧
   (∀ (s : State) (q : Fin 8) (width rate : BitVec 8), s.island.mode = .full → (vget s.rports q).exists_ = true →
     (vget s.rports q).up = false → linkOk (vget s.rports q) width rate = true → s.rat.reopened = none → ∃ t, exec (.pcieLinkUp q width rate) s = .next t ∧
     vget t.rports q = { vget s.rports q with up := true, width := width, rate := rate } ∧
     ∀ r, r ≠ q → vget t.rports r = vget s.rports r))

/-! ### The command front end (6) -/

/-- Queue registers (R119 to R123, R137): a valid configuration is enabled with its pointers at 0 and its stream at 1,
an invalid one reports CODE 1; disabling discards what was fetched; a tail or head index outside the ring, or a head
past the records written, is refused with its code and the pointer stays. -/
def Obligations.QueueRegisters : Prop :=
  ∀ (s : State) (w : Master) (n : Fin 64) (sq cq : BitVec 4) (evt : Bool),
    let q := vget s.queues n
    let at_ := { q with sqlog := sq, cqlog := cq, evt := evt }
    (Admits w (cqSet n + 0x10) s →
      (q.enable = false → queueCfgOk { s with queues := vset s.queues n at_ } n = true →
        exec (.queueEnable w n sq cq evt) s = .next (settle { s with queues := vset s.queues n { at_ with
          enable := true, halted := false, sqhead := 0, sqtail := 0, cqhead := 0, cqtail := 0, nextSeq := 1 } })) ∧
      (q.enable = false → queueCfgOk { s with queues := vset s.queues n at_ } n = false →
        exec (.queueEnable w n sq cq evt) s = .next (settle { s with queues := vset s.queues n { at_ with
          code := 1, tag := q.tag.bump } })) ∧
      (q.enable = true → exec (.queueEnable w n sq cq evt) s = .next (settle { s with queues := vset s.queues n { q with evt := evt } })) ∧
      (q.enable = true → exec (.queueDisable w n sq cq evt) s = .next (settle { s with queues := vset s.queues n { q with
        enable := false, evt := evt, fetched := [] } })) ∧
      (q.enable = false → exec (.queueDisable w n sq cq evt) s = .next (settle { s with queues := vset s.queues n at_ }))) ∧
    (Admits w (cqSet n + 0x18) s → ∀ v : BitVec 32, exec (.sqDoorbell w n v) s = .next (settle { s with
      queues := vset s.queues n (if v.toNat % 2 ^ 16 < 2 ^ q.sqlog.toNat then { q with sqtail := v.setWidth 16 }
                                 else { q with code := 2, tag := q.tag.bump }) })) ∧
    (Admits w (cqSet n + 0x24) s → ∀ v : BitVec 32,
      let m := 2 ^ q.cqlog.toNat
      let ok := v.toNat % 2 ^ 16 < m ∧ (v.toNat % 2 ^ 16 + m - q.cqhead.toNat) % m ≤ q.used
      exec (.cqHeadWrite w n v) s = .next (settle { s with
        queues := vset s.queues n (if ok then { q with cqhead := v.setWidth 16 } else { q with code := 5, tag := q.tag.bump }) }))

/-- The way of a command (R124, R125, R129, R133, R134, R137): fetched at the head of its ring, let through its START_IT,
dispatched with its status or to its target in a place of its own, and completed with one record, where one has a place,
which NOCOMP leaves out on success. NOP and WRITE_INLINE (R130): both end OK; the inline bytes, and no others, are written
into DRAM that the rules admit, and a refused write ends with status 4, its address in DETAIL and an access error of the
target. A fetch that meets a region entry under reload waits (R91). -/
def Obligations.CommandsFlow : Prop :=
  (∀ (s : State) (n : Fin 64),
     let q := vget s.queues n
     (∀ p, q.enable = true → q.halted = false → q.sqhead ≠ q.sqtail → s.island.mode = .full → queuePart s n = some p →
       let a := q.sqbase.toNat * 4096 + 256 * q.sqhead.toNat
       let Halts := fun (t : State) => vget t.queues n = { q with halted := true, code := 3, tag := q.tag.bump } ∧ t.mem = s.mem
       (ratHeld s p a 256 = true → s.rat.waits = false → exec (.commandFetch n) s = .next s) ∧
       (ratHeld s p a 256 = false →
         (ratCheck s p a .load .plain = none → poisoned s a 256 = false → exec (.commandFetch n) s = .next (settle { s with
           queues := vset s.queues n { q with
             fetched := q.fetched ++ [{ slot := q.sqhead, bytes := rdBytes s a 256 }]
             sqhead := BitVec.ofNat 16 ((q.sqhead.toNat + 1) % 2 ^ q.sqlog.toNat) } })) ∧
         (∀ c, ratCheck s p a .load .plain = some c → ∃ t, exec (.commandFetch n) s = .next t ∧ Halts t ∧ t.rat.errCause = c) ∧
         (ratCheck s p a .load .plain = none → poisoned s a 256 = true → ∃ t, exec (.commandFetch n) s = .next t ∧ Halts t ∧
           t.rat = s.rat ∧ (vget t.flt (fidSlot (queueOwner n))).a.cause.getLsbD 2 = true))) ∧
     (∀ c cs, q.fetched = c :: cs → c.startIt ≠ 0 → c.startIt ≤ s.time.it.toNat → exec (.startItReached n) s = .next (settle { s with
       queues := vset s.queues n { q with fetched := { c with timed := true } :: cs } })) ∧
     (∀ c cs, q.fetched = c :: cs → mayDispatch s n c = true →
       exec (.commandDispatch n) s = .next (settle { s with dispatched := s.dispatched + 1, queues := vset s.queues n { q with
         fetched := cs
         disp := q.disp ++ [{ c with
           ord := s.dispatched
           st := match dispatchStatus s n c with | some e => .done e 0 (stamp s) | none => .ready }] } })) ∧
     (∀ k c st detail at_, q.disp[k]? = some c → c.st = .done st detail at_ →
       ((q.disp.take k).all fun e => e.target ≠ c.target) = true →
       (c.nocomp = true → st = 0 → exec (.commandComplete n k) s = .next (settle { s with
         queues := vset s.queues n { q with disp := q.disp.eraseIdx k } })) ∧
       (c.nocomp = false ∨ st ≠ 0 → 0 < q.room → s.rat.reopened = none → exec (.commandComplete n k) s = .next (settle
         (writeRecord n (completionRec c st detail at_) c.irq { s with
           queues := vset s.queues n { q with disp := q.disp.eraseIdx k } }))) ∧
       (c.nocomp = false ∨ st ≠ 0 → q.room = 0 → exec (.commandComplete n k) s = .next s))) ∧
  (∀ (s : State) (n : Fin 64) (k : Nat) (c : Cmd),
     (beginCmd s n k 0 = some c → exec (.nop n k) s = .next (settle { s with
       queues := vmod s.queues n fun q => { q with disp := q.disp.modify k fun c => { c with st := .done 0 0 (stamp s) } } })) ∧
     (beginCmd s n k 1 = some c → ∀ p, queuePart s n = some p →
       let a := leAt c.bytes 32 8
       (c.inlineLen = 0 → exec (.writeInline n k) s = .next (settle { s with
         queues := vmod s.queues n fun q => { q with disp := q.disp.modify k fun c => { c with st := .done 0 0 (stamp s) } } })) ∧
       (c.inlineLen ≠ 0 → isDram s a = true → DramRange s p .store .plain a c.inline.length →
         ∃ t, exec (.writeInline n k) s = .next t ∧
           (vget t.queues n).disp[k]? = some { c with st := .done 0 (BitVec.ofNat 32 c.inlineLen) (stamp s) } ∧
           (∀ b, rdByte t b = if a ≤ b ∧ b < a + c.inline.length then c.inline.getD (b - a) 0 else rdByte s b) ∧ t.rat = s.rat) ∧
       (c.inline ≠ [] → c.inlineLen ≠ 0 → isDram s a = true → s.rat.reopened = none →
         ∀ e, ratCheck s p a .store .plain = some e → ∃ t, exec (.writeInline n k) s = .next t ∧
           (vget t.queues n).disp[k]? = some { c with st := .done 4 (BitVec.ofNat 32 (a % 2 ^ 32)) (stamp s) } ∧
           t.rat.errFid = c.target ∧ t.rat.errCause = e ∧ t.rat.errWrite = true ∧ t.mem = s.mem)))

/-- A record (R132, R135): its 32 bytes stand at the ring's tail in the layout of Table 6.4, the tail and the stream's
sequence move on, and no other byte of memory changes; a ring that refuses the write, or a
poisoned line, halts the queue (R126); a region entry under reload holds it (R91). -/
def Obligations.RecordsWritten : Prop :=
  ∀ (s : State) (n : Fin 64) (r : EvRec) (irq : Bool) (p : Fin 32), queuePart s n = some p →
    let q := vget s.queues n
    let a := q.cqbase.toNat * 4096 + 32 * q.cqtail.toNat
    let t := writeRecord n r irq s
    let Halts := vget t.queues n = { q with halted := true, code := 4, tag := q.tag.bump } ∧ t.mem = s.mem
    (ratHeld s p a 32 = true → t = holdAccess s) ∧
    (ratHeld s p a 32 = false → ratCheck s p a .store .plain = none → poisoned s a 32 = false →
      (∀ b, rdByte t b = if a ≤ b ∧ b < a + 32 then (r.bytes q.nextSeq).getD (b - a) 0 else rdByte s b) ∧
      (r.bytes q.nextSeq).length = 32 ∧
      leNat ((r.bytes q.nextSeq).take 2) = r.fid.toNat ∧ leNat (((r.bytes q.nextSeq).drop 4).take 4) = q.nextSeq.toNat ∧
      leNat (((r.bytes q.nextSeq).drop 8).take 8) = r.it.toNat ∧
      vget t.queues n = { q with
        cqtail := BitVec.ofNat 16 ((q.cqtail.toNat + 1) % 2 ^ q.cqlog.toNat)
        nextSeq := if q.nextSeq = BitVec.allOnes 32 then 1 else q.nextSeq + 1 }) ∧
    (ratHeld s p a 32 = false → ∀ c, ratCheck s p a .store .plain = some c → Halts ∧ t.rat.errCause = c ∧
      t.rat.errFid = queueOwner n) ∧
    (ratHeld s p a 32 = false → ratCheck s p a .store .plain = none → poisoned s a 32 = true → Halts ∧
      (vget t.flt (fidSlot (queueOwner n))).a.cause.getLsbD 2 = true)

/-- Events and supervision (R138, R141, R376): a partition's events wait in its buffer of 64 while its queue cannot take
them, are counted lost beyond it, and leave in order; a control cluster that stops ends its commands with FW_TIMEOUT,
and every unit that stops at work sets WATCHDOG. -/
def Obligations.EventsAndSupervision : Prop :=
  (∀ (s : State) (p : Fin 32) (f : Fid) (cls : BitVec 8) (w : BitVec 128), eventQueue s p = none →
    ((vget s.evbuf p).recs.length < 64 → emitTo p f cls w s = { s with evbuf := vset s.evbuf p { vget s.evbuf p with
      recs := (vget s.evbuf p).recs ++ [{ fid := f, cls := cls, holdover := holdoverFlag s, it := s.time.it, payload := w }] } }) ∧
    (64 ≤ (vget s.evbuf p).recs.length → emitTo p f cls w s = { s with evbuf := vset s.evbuf p { vget s.evbuf p with
      lost := satInc (vget s.evbuf p).lost } })) ∧
  (∀ (s : State) (p : Fin 32) (n : Fin 64) (r : EvRec), s.rat.reopened = none → drainQueue s p = some n →
    vget s.evbuf p = { recs := [r], lost := 0 } →
    (∃ t, exec (.eventBufferDrain p) s = .next t ∧ vget t.evbuf p = {} ∧
      t.mem = (writeRecord n r false { s with evbuf := vset s.evbuf p {} }).mem)) ∧
  (∀ (s : State) (f : Fid), s.rat.reopened = none → fidOk f = true → atWork s f = true → ∃ t, exec (.watchdog f) s = .next t ∧
    (vget t.flt (fidSlot f)).a.cause.getLsbD 4 = true ∧
    (fidType f = 13 → t.clusterStop.getLsbD (fidIdx f % 4) = true))

/-! ### Loom tiles, reflex lanes, Shuttle and Peat (7, 8, 10) -/

/-- Tile registers and the way of an operator (R149, R155, R173 to R175): a mode write of a tile that is not idle is
refused with code 4, entry into windowed mode and LOOM_INVAL discard the cache; OPERATOR hands its descriptor to the
tile, the first one starts, and its end frees the tile and ends its command. -/
def Obligations.LoomTiles : Prop :=
  ∀ (s : State) (n : Fin 64),
    let t := vget s.tiles n
    (∀ (w : Master) (win : Bool), Admits w (loomBase n) s →
      (t.lane = true → exec (.spmodeWrite w n win) s = .next (settle s)) ∧
      (t.lane = false → tileState s n ≠ 0 → exec (.spmodeWrite w n win) s = .next (settle { s with
        tiles := vset s.tiles n { t with errCode := 4, errAddr := 0, errTag := t.errTag.bump } })) ∧
      (t.lane = false → tileState s n = 0 → exec (.spmodeWrite w n win) s = .next (settle { s with
        tiles := vset s.tiles n { t with windowed := win, cache := if win = true ∧ t.windowed = false then [] else t.cache } }))) ∧
    (∀ w : Master, Admits w (loomBase n + 0x10) s → exec (.loomInval w n) s = .next (settle { s with
      tiles := vset s.tiles n { t with cache := [] } })) ∧
    (∀ (q : Fin 64) (k : Nat) (c : Cmd) (p : Fin 32), beginCmd s q k 0x10 = some c → queuePart s q = some p →
      fidIdx c.target = n.val → zeroAt c.bytes 40 24 = true →
      let a := leAt c.bytes 32 8
      let Given := fun (d : List Byte) => exec (.operator q k) s = .next (settle { s with
        tiles := vset s.tiles n { t with jobs := t.jobs ++ [{ origin := (q, c.slot), desc := d, part := p }] }
        queues := vmod s.queues q fun x => { x with disp := x.disp.modify k fun c => { c with st := .waiting } } })
      let Ends := fun (st : BitVec 16) => exec (.operator q k) s = .next (settle { s with
        queues := vmod s.queues q fun x => { x with disp := x.disp.modify k fun c => { c with st := .done st 0 (stamp s) } } })
      (a = 0 → c.inlineLen = leAt c.inline 2 2 → 32 ≤ c.inlineLen → Given c.inline) ∧
      (a = 0 → (c.inlineLen ≠ leAt c.inline 2 2 ∨ c.inlineLen < 32) → Ends 0x121) ∧
      (a ≠ 0 → a % 64 ≠ 0 → Ends 0x121) ∧
      (a ≠ 0 → a % 64 = 0 → isDram s a = true → s.rat.reopened = none → (∀ i, i < 24 → ratCheck s p (a + 8 * i) .load .plain = none) →
        poisoned s a 192 = false → Given (rdBytes s a (max 32 (min 192 (leAt (rdBytes s a 32) 2 2)))))) ∧
    (∀ j rest, t.jobs = j :: rest → j.started = false → t.held = false → isFenced s (fidMk 2 n) = false →
      s.island.mode = .full → ∃ u, exec (.operatorStart n) s = .next u ∧ (vget u.tiles n).gate.toNat ≤ 1 ∧ u.mem = s.mem ∧
        ((opDlen (leAt j.desc 0 2)).isSome = true → (vget u.tiles n).jobs = { j with started := true } :: rest ∧
          (vget u.tiles n).gate = 0) ∧
        (opDlen (leAt j.desc 0 2) = none → (vget u.tiles n).jobs = rest)) ∧
    (∀ j, opJob s n 0 = some j → s.rat.reopened = none → ∀ u, Operates s n 0 j u → ∀ u1, Flagged n j u u1 →
      exec (.opNop n) s = .next (settle (opEnd n j 0 0 u1))) ∧
    (∀ (c : Instr) (opid : Nat) (j : OpJob) (st : Nat), (c, opid) ∈ [(Instr.opNop n, 0), (.gemm n, 1), (.eltwise n, 0x10),
      (.act n, 0x11), (.reduce n, 0x20), (.softmax n, 0x21), (.norm n, 0x22), (.convert n, 0x30), (.gather n, 0x40)] →
      opJob s n opid = some j → s.rat.reopened = none → descCheck (opDesc j.desc) = some st → exec c s = .next (settle (opEnd n j st 0 s))) ∧
    (∀ (j : OpJob) (rest : List OpJob) (st d : Nat), t.jobs = j :: rest →
      let u := opEnd n j st d s
      u = { s with tiles := u.tiles, queues := u.queues } ∧ (vget u.tiles n).jobs = rest ∧
      (rest = [] → t.lane = false → (vget u.tiles n).gate = 1) ∧
      (∀ c, (vget s.queues j.origin.1).disp = [c] → c.slot = j.origin.2 → c.st = .running →
        (vget u.queues j.origin.1).disp = [{ c with st := .done (BitVec.ofNat 16 st) (BitVec.ofNat 32 d) (stamp s) }]))

/-- Operands in the tile's own scratchpad (R151, R177): they are read row by row at RSTRIDE, and results are written so,
in both cases without an error and touching nothing else. The operators of Table 8.5 (R175, R184 to R186): wherever the
operands can be read, the results written and the flag after them, each ends OK with its exception flags as DETAIL,
having written the rows that its function gives. -/
def Obligations.LoomOperators : Prop :=
  ((∀ (s : State) (n : Fin 64) (p : Fin 32) (o : Opd), o.addr.phys = false → o.ef.mx = false → 1 ≤ o.rows →
     o.addr.addr + (o.rows - 1) * o.stride + o.ef.rowBytes o.cols ≤ 0x800000 →
     let m := (List.range o.rows).map fun i =>
       o.ef.row (rdBytes s (hostBase n + o.addr.addr + i * o.stride) (o.ef.rowBytes o.cols)) [] o.cols
     readOpd ⟨n, p⟩ o s = (.ok (if o.trans then transpose .nan o.rows o.cols m else m), s)) ∧
   (∀ (s : State) (n : Fin 64) (p : Fin 32) (o : OpDesc) (rows : List (List FV)),
     let d := o.dst
     let out := fun (ri : List FV × Nat) => (d.ef.convRow o.sat o.rmode o.seed (ri.2 * d.cols) ri.1)
     d.addr.phys = false → d.ef.mx = false →
     (∀ i r, rows[i]? = some r → d.addr.addr + i * d.stride + (out (r, i)).1.length ≤ 0x800000) →
     ∃ cs, writeOpd ⟨n, p⟩ o rows s = (.ok ((rows.zipIdx.map fun ri => (out ri).2.2).foldl (· ||| ·) 0), { s with
       mem := rows.zipIdx.foldl (fun m ri => memPut m (hostBase n + d.addr.addr + ri.2 * d.stride) (out ri).1) s.mem
       cores := cs }))) ∧
  (∀ (s u : State) (n : Fin 64) (j : OpJob), s.rat.reopened = none →
     let o := opDesc j.desc
     (∀ x s1, Operates s n 0x11 j u → Gives n j 0 u x s1 →
       Stores (.act n) n j ((x.map fun row => row.map fun v => f32v (actFn (byteAt o.par 0) (toF32 v))), nanFlag x) s s1) ∧
     (∀ x s1, Operates s n 0x30 j u → Gives n j 0 u x s1 →
       Stores (.convert n) n j ((x.map fun row => row.map fun v => f32v (toF32 v)), nanFlag x) s s1) ∧
     (∀ x y s1 s2, Operates s n 0x10 j u → Gives n j 0 u x s1 → Gives n j 1 s1 y s2 →
       Stores (.eltwise n) n j ((eltRows o x y).1, (eltRows o x y).2 ||| nanFlag x ||| nanFlag y ||| parNan (eltPars o)) s s2) ∧
     (∀ x s1, Operates s n 0x20 j u → Gives n j 0 u x s1 →
       Stores (.reduce n) n j ((reduceRows o x).1, (reduceRows o x).2 ||| nanFlag x) s s1) ∧
     (∀ x s1, Operates s n 0x21 j u → Gives n j 0 u x s1 →
       Stores (.softmax n) n j (x.map fun r => (softmaxRow r).1,
         (x.map fun r => (softmaxRow r).2).foldl (· ||| ·) (nanFlag x)) s s1) ∧
     (∀ x g h s1 s2 s3, Operates s n 0x22 j u → Gives n j 0 u x s1 → Gives n j 1 s1 g s2 → Gives n j 2 s2 h s3 →
       let row := normRow (byteAt o.par 0) (BitVec.ofNat 32 (leAt o.par 4 4)) (g.flatten.map toF32) (h.flatten.map toF32)
       Stores (.norm n) n j (x.map fun r => (row r).1,
         (x.map fun r => (row r).2).foldl (· ||| ·) (nanFlag x ||| nanFlag g ||| nanFlag h |||
           parNan [BitVec.ofNat 32 (leAt o.par 4 4)])) s s3) ∧
     (∀ a b m s1 s2 s3, Operates s n 1 j u → Gives n j 0 u a s1 → Gives n j 1 s1 b s2 → Gives n j 2 s2 m s3 →
       leAt o.par 16 8 = 0 →
       let r := gemmRows o a (transpose .nan b.length ((b.getD 0 []).length) b) (if (o.opd 2).absent then none else some m) []
       Stores (.gemm n) n j (r.1, r.2 ||| nanFlag a ||| nanFlag b ||| nanFlag m ||| parNan (gemmPars o)) s s3) ∧
     (∀ a b m bs s1 s2 s3 s4, Operates s n 1 j u → Gives n j 0 u a s1 → Gives n j 1 s1 b s2 → Gives n j 2 s2 m s3 →
       leAt o.par 16 8 ≠ 0 → tileRead n j.part (opAddr (leAt o.par 16 8)) (4 * o.dst.cols) s3 = (.ok bs, s4) →
       let bias : List F32 := (List.range o.dst.cols).map fun i => BitVec.ofNat 32 (leAt bs (4 * i) 4)
       let r := gemmRows o a (transpose .nan b.length ((b.getD 0 []).length) b) (if (o.opd 2).absent then none else some m) bias
       Stores (.gemm n) n j (r.1, r.2 ||| nanFlag a ||| nanFlag b ||| nanFlag m |||
         parNan (gemmPars o ++ bias)) s s4) ∧
     (∀ x i s1 s2, Operates s n 0x40 j u → Gives n j 0 u x s1 → Gives n j 1 s1 i s2 →
       let idx := (i.getD 0 []).map fun v => match v with | .fin d => d.toInt | _ => -1
       let good := fun (i : Int) => decide (0 ≤ i ∧ i.toNat < leAt o.par 0 4 ∧ i.toNat < x.length)
       (idx.all good = true →
         let rows := idx.map fun i => (x.getD i.toNat []).map fun v => f32v (toF32 v)
         Stores (.gather n) n j (rows, nanFlag rows) s s2) ∧
       (idx.all good = false →
         let rows := (idx.takeWhile good).map fun i => (x.getD i.toNat []).map fun v => f32v (toF32 v)
         ∀ e s3, writeOpd ⟨n, j.part⟩ o rows s2 = (.ok e, s3) → exec (.gather n) s = .next (settle (opEnd n j 0x125 0 s3)))))

/-- Reflex lanes (R261, R262, R190, R192): a tick takes the axes' values and counts a request, an answer within L
and DEADLINE is delivered with its latency, or withheld as NONFINITE, and one that passes its deadline is abandoned and counted. -/
def Obligations.ReflexLanes : Prop :=
  ∀ (s : State) (l : Fin 8),
    let n := vget s.lanes l
    (vsvoGood s = true → n.on = true → n.axes ≠ [] → n.period ≠ 0 → s.time.it.toNat % n.period = 0 →
      (n.req = none → exec (.laneTick l) s = .next (settle { s with lanes := vset s.lanes l { n with
        req := some { t0 := s.time.it, input := laneInput s n s.time.it }, requests := satInc n.requests } })) ∧
      (∀ q, n.req = some q → exec (.laneTick l) s = .next (settle { s with lanes := vset s.lanes l { n with
        req := some { t0 := s.time.it, input := laneInput s n s.time.it }, requests := satInc n.requests,
        missed := (n.missed ++ [q.t0]).drop (n.missed.length - 7), late := satInc n.late } }))) ∧
    (∀ q : LaneReq, n.req = some q → laneWorks s l = true → laneAge s q ≤ n.deadline.toNat → laneAge s q ≤ laneBound s n →
      let lat : BitVec 24 := BitVec.ofNat 24 (laneAge s q)
      ((laneNet n q.input).all f32fin = true → exec (.laneAnswer l) s = .next (settle { s with lanes := vset s.lanes l { n with
        req := none, answers := (n.answers ++ [(q.t0, laneNet n q.input)]).drop (n.answers.length - 7), last := lat,
        max := if n.max < lat then lat else n.max, tag := n.tag.bump } })) ∧
      ((laneNet n q.input).all f32fin = false → exec (.laneAnswer l) s = .next (settle { s with lanes := vset s.lanes l { n with
        req := none, missed := (n.missed ++ [q.t0]).drop (n.missed.length - 7), nonfinite := satInc n.nonfinite } }))) ∧
    (∀ q : LaneReq, n.req = some q → q.t0.toNat + n.deadline.toNat ≤ s.time.it.toNat →
      exec (.laneDeadline l) s = .next (settle { s with lanes := vset s.lanes l { n with
        req := none, missed := (n.missed ++ [q.t0]).drop (n.missed.length - 7), late := satInc n.late } }))

/-- Shuttle channels (R156 to R164): SHUTTLE gives its chain to a channel, which starts it when free and works off its
descriptors; a chain ends with the number of descriptors done, or with what was wrong with one. -/
def Obligations.ShuttleChains : Prop :=
  ∀ (s : State) (g : Fin 16) (c : Fin 8) (p : Fin 32), partOf s (shuttleFid g) = some p →
    let x := s.channel g c
    (∀ (n : Fin 64) (k : Nat) (m : Cmd), beginCmd s n k 0x20 = some m → fidIdx m.target = g.val →
      let a := leAt m.bytes 40 8
      (byteAt m.bytes 32 = c.val → zeroAt m.bytes 33 7 = true → a ≠ 0 → a % 64 = 0 → m.inlineLen = 0 → ∃ t,
        exec (.shuttle n k) s = .next t ∧ t.channel g c = { x with waiting := x.waiting ++ [{ origin := (n, m.slot), next := some a }] } ∧
        (vget t.queues n).disp[k]? = some { m with st := .waiting } ∧ t.mem = s.mem) ∧
      (byteAt m.bytes 32 = c.val → zeroAt m.bytes 33 7 = true → a = 0 → m.inlineLen = 128 → ∃ t,
        exec (.shuttle n k) s = .next t ∧ t.channel g c = { x with
          waiting := x.waiting ++ [{ origin := (n, m.slot), inline := [slice m.inline 0 64, slice m.inline 64 64] }] } ∧
        (vget t.queues n).disp[k]? = some { m with st := .waiting } ∧ t.mem = s.mem) ∧
      (8 ≤ byteAt m.bytes 32 ∨ zeroAt m.bytes 33 7 = false ∨ (a ≠ 0 ∧ (a % 64 ≠ 0 ∨ m.inlineLen ≠ 0)) ∨
        (a = 0 ∧ m.inlineLen ∉ [64, 128, 192]) → ∃ t, exec (.shuttle n k) s = .next t ∧ t.shuttle = s.shuttle ∧
        (vget t.queues n).disp[k]? = some { m with st := .done 0x100 0 (stamp s) })) ∧
    (∀ ch rest, x.waiting = ch :: rest → x.running = none → shuttleRuns s g = true → s.island.mode = .full →
      ∃ t, exec (.shuttleChainStart g c) s = .next t ∧ t.channel g c = { x with running := some ch, waiting := rest } ∧
        (∀ m, InProgress s ch.origin m → m.st = .waiting → (vget t.queues ch.origin.1).disp = [{ m with st := .running }]) ∧
        t.mem = s.mem) ∧
    (∀ (ch : Chain) (m : Cmd), x.running = some ch → ch.result = none → shuttleRuns s g = true → Quiet s g c →
      InProgress s ch.origin m →
      let Ended := fun (t : State) (st : BitVec 16) (d : Nat) =>
        (t.channel g c).running = none ∧ EndedWith s t ch.origin m st (BitVec.ofNat 32 d)
      s.rat.reopened = none →
      (65536 ≤ ch.done → ∃ t, exec (.shuttleDescriptor g c) s = .next t ∧ Ended t 0x102 ch.done ∧ t.mem = s.mem) ∧
      (∀ k j, ch.waitPeat = some (k, j) → (s.eng k j).ready = false → ∃ t, exec (.waitpeatTimeout g c) s = .next t ∧
        Ended t 0x104 ch.done ∧ t.mem = s.mem) ∧
      (∀ d more, ch.done < 65536 → ch.inline = d :: more →
        let q := sdesc d
        let usesNext := !q.last && decide (more = [])
        (q.bad usesNext = true → ∃ t, exec (.shuttleDescriptor g c) s = .next t ∧ Ended t 0x100 ch.done ∧ t.mem = s.mem) ∧
        (q.bad usesNext = false → q.badFinal = true → ∃ t, exec (.shuttleDescriptor g c) s = .next t ∧
          Ended t 0x101 ch.done ∧ t.mem = s.mem) ∧
        (q.bad usesNext = false → q.badFinal = false → q.waitPeat = true → (s.eng q.peatStack q.peatEng).ready = false →
          ∃ t, exec (.shuttleDescriptor g c) s = .next t ∧
            (t.channel g c).running = some { ch with waitPeat := some (q.peatStack, q.peatEng) } ∧ (t.channel g c).desc = 0 ∧
            t.mem = s.mem) ∧
        (q.bad usesNext = false → q.badFinal = false → (q.waitPeat = true → (s.eng q.peatStack q.peatEng).ready = true) →
          q.remote = false → q.rows = 1 → DramRange s p .load .engine q.src q.len → DramRange s p .store .engine q.dst q.len →
          ∃ t, exec (.shuttleDescriptor g c) s = .next t ∧
            (∀ b, rdByte t b = if q.dst ≤ b ∧ b < q.dst + q.len then rdByte s (q.src + (b - q.dst)) else rdByte s b) ∧
            (q.last = true → Ended t 0 (ch.done + 1)) ∧
            (q.last = false → (t.channel g c).running = some { ch with
              inline := more, next := if more = [] then some q.next else none, done := ch.done + 1, waitPeat := none } ∧
              (vget t.queues ch.origin.1).disp = [m])))) ∧
    (∀ w : NetWrite, x.out = [w] → w.final = true → w.remote = false → w.part = p → mayIssue s g c [w] w = true →
      shuttleRuns s g = true → w.addr % 8 = 0 → w.data.length = 8 → DramRange s p .store .engine w.addr 8 →
      ∃ t, exec (.finalWriteRelease g c) s = .next t ∧ (t.channel g c).out = [] ∧
        ∀ b, rdByte t b = if w.addr ≤ b ∧ b < w.addr + 8 then w.data.getD (b - w.addr) 0 else rdByte s b)

/-- Claims, modes and the PEAT command (R166, R169 to R172). The operations of Peat engines (R169 to R171, R218 to
R220): each works on the granules of its engine in the range and leaves its CODE; ZERO writes those granules and nothing
else. -/
def Obligations.PeatEngines : Prop :=
  (∀ (s : State) (k : Fin 8) (j : Fin 32),
     let e := s.eng k j
     let With := fun (e' : PeatEngine) => { s with peat := vmod s.peat k fun st => { st with eng := vset st.eng j e' } }
     let Puts := fun (c : Instr) (e' : PeatEngine) => exec c s = .next (settle (With e'))
     let Wakes := fun (c : Instr) (e' : PeatEngine) => s.rat.reopened = none → exec c s = .next (settle (stackWake k (With e')))
     let NoChannel := ∀ d q c, (s.chan d q).desc = some c → stackOf c.master ≠ some k
     (NoChannel → ∀ e', stackWake k (With e') = With e') ∧
     (∀ (w : Master) (p : Fin 32), masterPart s w = some p →
       (Admits w (peatReg k j 0) s →
         Puts (.peatTake w k j) (if e.claimed then e else { e with claimed := true, owner := BitVec.ofNat 5 p }) ∧
         Puts (.peatRelease w k j) (if e.owns p then { e with claimed := false, owner := 0 } else e)) ∧
       (∀ (r : PeatReg) (v : BitVec 64), Admits w (peatReg k j (peatRegOff r)) s →
         (e.owns p = true → e.ready = true → Puts (.peatModeWrite w k j r v) { e with modePending := some (r, v) }) ∧
         (e.owns p = false → ∃ t, exec (.peatModeWrite w k j r v) s = .next t ∧ (t.eng k j).statCode = 2 ∧
           (t.eng k j).stat = e.stat.bump ∧ (t.eng k j).modePending = e.modePending ∧ (t.eng k j).accum = e.accum) ∧
         (e.owns p = true → e.ready = false → ∃ t, exec (.peatModeWrite w k j r v) s = .next t ∧ (t.eng k j).statCode = 1 ∧
           (t.eng k j).stat = e.stat.bump ∧ (t.eng k j).modePending = e.modePending ∧ (t.eng k j).accum = e.accum))) ∧
     (∀ v, (e.modePending = some (.mode, v) → Wakes (.peatModeSettled k j) { e with modePending := none, accum := v.getLsbD 0 }) ∧
       (e.modePending = some (.abase, v) → Wakes (.peatModeSettled k j) { e with modePending := none, abase := v.setWidth 44 }) ∧
       (e.modePending = some (.alim, v) → Wakes (.peatModeSettled k j) { e with modePending := none, alim := v.setWidth 44 })) ∧
     (∀ (n : Fin 64) (q : Nat) (c : Cmd) (p : Fin 32), beginCmd s n q 0x30 = some c → queuePart s n = some p →
       fidIdx c.target = k.val →
       let mask := leAt c.bytes 32 4
       let opc := byteAt c.bytes 36
       let Ends := fun (st : BitVec 16) => exec (.peat n q) s = .next (settle { s with
         queues := vmod s.queues n fun x => { x with disp := x.disp.modify q fun c => { c with st := .done st 0 (stamp s) } } })
       let owned := ∀ i : Fin 32, bitOf mask i.val = true → (s.eng k i).owns p = true
       let ready := ∀ i : Fin 32, bitOf mask i.val = true → (s.eng k i).ready = true
       let rangeOk := 2 ≤ opc ∧ opc ≤ 4 → peatRangeOk k (leAt c.bytes 40 8) (leAt c.bytes 48 8) = true
       (¬ owned → Ends 0x110) ∧ (owned → ¬ ready → Ends 0x111) ∧ (owned → ready → ¬ rangeOk → Ends 0x112) ∧
       (owned → ready → rangeOk → mask = 0 → Ends 0) ∧
       (owned → ready → rangeOk → bitOf mask j.val = true → ∃ t r, exec (.peat n q) s = .next t ∧
         (t.eng k j).run = some r ∧ r.why = .command n c.slot ∧ r.opc = BitVec.ofNat 8 opc ∧ r.base = leAt c.bytes 40 8 ∧
         r.len = leAt c.bytes 48 8 ∧ r.par = leAt c.bytes 56 8 ∧ r.tag = BitVec.ofNat 32 (leAt c.bytes 8 4) ∧
         r.result = (if 4 < opc then some 6 else none) ∧ (vget t.queues n).disp[q]? = some { c with st := .running } ∧
         (∀ i, bitOf mask i.val = false → t.eng k i = s.eng k i) ∧ t.mem = s.mem)) ∧
     (∀ (r : PeatRun) (code : BitVec 8), e.run = some r → r.result = some code → r.why = .trig →
       Wakes (.peatOpDone k j) { e.result r.tag code with run := none }) ∧
     (∀ (r : PeatRun) (code : BitVec 8) (o : Fin 64 × BitVec 16) (m : Cmd), e.run = some r → r.result = some code →
       r.why = .command o.1 o.2 → (∀ i r', i ≠ j → (s.eng k i).run = some r' → r'.why ≠ .command o.1 o.2) →
       (vget s.peat k).fails.find? (·.1 = o) = none → InProgress s o m → s.rat.reopened = none → NoChannel →
       ∃ t, exec (.peatOpDone k j) s = .next t ∧ t.eng k j = { e.result r.tag code with run := none } ∧
         EndedWith s t o m (if code = 0 then 0 else 0x113) (if code = 0 then 0 else 1#32 <<< j.val) ∧ t.mem = s.mem) ∧
     (∀ (r : PeatRun) (code : BitVec 8), e.run = some r → r.result = some code → s.rat.reopened = none →
       exec (.peatOpDone k j) s = .next (settle (opDone k j r code s)))) ∧
  ((∀ (s : State) (k : Fin 8) (j : Fin 32) (r : PeatRun),
     let Leaves := fun (c : Instr) (code : BitVec 8) (t : State) => exec c s = .next (settle { t with
       peat := vmod t.peat k fun st => { st with eng := vmod st.eng j fun e => { e with
         run := e.run.map fun r => { r with result := some code } } } })
     (peatRun s k j 0 = some r → Leaves (.peatNone k j) 0 s) ∧
     (peatRun s k j 1 = some r → Leaves (.peatSetMode k j) 0 { s with
       peat := vmod s.peat k fun st => { st with eng := vmod st.eng j fun e => { e with
         accum := r.mode, abase := BitVec.ofNat 44 r.base, alim := BitVec.ofNat 44 (r.base + r.len + (2 ^ 44 - 1)) } } }) ∧
     (peatRun s k j 2 = some r → r.base % 256 = 0 → r.len % 256 = 0 → ∃ t, exec (.peatZero k j) s = .next t ∧
       ((t.eng k j).run.map (·.result)) = some (some 0) ∧
       ∀ b, rdByte t b = if r.base ≤ b ∧ b < r.base + r.len ∧ b / 256 % 32 = j.val then 0 else rdByte s b) ∧
     (peatRun s k j 3 = some r → paramOk k r = false → Leaves (.optStep k j) 7 s) ∧
     (peatRun s k j 4 = some r → paramOk k r = false → Leaves (.cast k j) 7 s) ∧
     (peatRun s k j 3 = some r → paramOk k r = true → rangePoisoned s j r = true →
       Leaves (.optStep k j) 4 (putCause (fidMk 4 k) 2 s)) ∧
     (peatRun s k j 4 = some r → paramOk k r = true → rangePoisoned s j r = true →
       Leaves (.cast k j) 4 (putCause (fidMk 4 k) 2 s)) ∧
     (peatRun s k j 3 = some r → paramOk k r = true → rangePoisoned s j r = false →
       Leaves (.optStep k j) 0 (optStep j r s)) ∧
     (peatRun s k j 4 = some r → paramOk k r = true → rangePoisoned s j r = false →
       Leaves (.cast k j) 0 (castRange j r s))) ∧
   (∀ (p : Param) (base a n : Nat) (s : State),
     let ga := p.gbase + (a - base)
     let ma := p.mbase + (a - base)
     let Apart := fun (x y : Nat) => x + 4 ≤ y ∨ y + 4 ≤ x
     let g := f32mul (rd32 s ga) p.gscale
     let t := optElem p base a (s, n)
     Apart a ga → Apart a ma → Apart ga ma →
     (f32fin g = false → t.2 = n + 1 ∧ rd32 t.1 a = rd32 s a ∧ rd32 t.1 ma = rd32 s ma ∧
       rd32 t.1 ga = (if p.zg then 0 else rd32 s ga)) ∧
     (f32fin g = true → p.alg = 0 →
       let m := f32add (f32mul p.b1 (rd32 s ma)) (clipTo p.clip g)
       t.2 = n ∧ rd32 t.1 ma = m ∧ rd32 t.1 ga = (if p.zg then 0 else rd32 s ga) ∧
       rd32 t.1 a = f32sub (rd32 s a) (f32mul p.lr (f32add m (f32mul p.wd (rd32 s a)))) ∧
       ∀ b, (∀ x ∈ [a, ga, ma], b < x ∨ x + 4 ≤ b) → rdByte t.1 b = rdByte s b)) ∧
   (∀ (s : State) (j : Fin 32) (r : PeatRun), optStep j r s =
     let x := ((granules j r.base r.len).flatMap fun a => (List.range 64).map fun i => a + 4 * i).foldl
       (fun sn a => optElem (paramOf r.pblk) r.base a sn) (s, 0)
     putRaw x.1 (r.par + 128 + 8 * j) (natLe 8 x.2)))

/-! ### Fabric, installation time and training (9, 10) -/

/-- Links and their frames (R195 to R201, R215): a frame is 256 bytes with its CRC, and carries a packet unchanged; a frame
in sequence is delivered into its channel's buffer, one that is not asks for a resend; HELLO brings a trained link up or
takes it down, also one that was up; a link that goes down is a LINK fault; time frames are exchanged. -/
def Obligations.FabricLinks : Prop :=
  (∀ (h : LinkHdr) (o : OutFrame), (outBytes h o).length = 256 ∧ frameOk (outBytes h o) = true ∧
     leAt (outBytes h o) 4 2 = h.ack.toNat ∧ byteAt (outBytes h o) 1 = h.cvc.val ∧ leAt (outBytes h o) 6 2 = h.credit.toNat) ∧
  (∀ (h : LinkHdr) (q : BitVec 16) (k : Packet), k.data.length ≤ 208 →
     let b := outBytes h (.data q k)
     frameType b = 1 ∧ leAt b 2 2 = q.toNat ∧ framePlen b = 32 + k.data.length ∧
     packetOf (framePay b) (framePlen b) = some k) ∧
  ∀ (s : State) (p : Fin 16) (b : List Byte) (fec : BitVec 16), s.rat.reopened = none →
    let x := vget s.ports p
    let h := frameHdr fec b
    let Down := fun (c : Instr) (cause : BitVec 4) => ∃ t, exec c s = .next t ∧ (vget t.ports p).st = .down ∧
      (vget t.ports p).cause = cause ∧ (vget t.ports p).downs = satInc x.downs ∧ (vget t.ports p).replayBuf = [] ∧
      (vget t.flt (fidSlot (portFid p))).a.cause.getLsbD 5 = true
    (x.st = .up → ∃ t f, exec (.timeFrameTx p) s = .next t ∧ vget t.ports p = { vget t.ports p with timeOut := some f, tseq := x.tseq + 1 } ∧
      (vget t.ports p).sent.map (·.2) = some (.time f) ∧
      f.tx = s.time.it ∧ f.echoTx = x.lastPeerTx ∧ f.echoRx = x.lastPeerRx ∧ f.gmId = s.time.gmId ∧ f.tseq = x.tseq ∧
      f.locked = decide (s.time.st = .locked) ∧ f.order = orderOut s ∧ t.mem = s.mem ∧ t.time = s.time) ∧
    (x.st = .up → frameOk b = true → frameType b = 2 →
      let f := timeOf (framePay b) (framePlen b)
      ∃ t, exec (.timeFrameRx p b fec) s = .next t ∧
      (vget t.ports p).lastPeerTx = f.tx ∧ (vget t.ports p).stratum = f.stratum ∧
      (vget t.ports p).gmId = f.gmId ∧ (vget t.ports p).peerLocked = f.locked ∧ (vget t.ports p).lastPeerRx = s.time.it ∧
      (f.echoTx ∉ x.txTimes → (vget t.ports p).delay = x.delay ∧ (vget t.ports p).dtag = x.dtag) ∧
      (∀ d : Nat, f.echoTx ∈ x.txTimes → d < 2 ^ 20 →
        (f.echoRx.toNat : Int) - f.echoTx.toNat + ((s.time.it.toNat : Int) - f.tx.toNat) = 2 * d →
        (vget t.ports p).delay = BitVec.ofNat 20 d ∧ (vget t.ports p).timeUse = decide (d ≤ 1600) ∧
        (vget t.ports p).dtag = x.dtag.bump)) ∧
    (x.st ≠ .up ∨ frameOk b = false ∨ frameType b ≠ 2 → exec (.timeFrameRx p b fec) s = .next s) ∧
    (∀ dl : Bool, x.st = .up →
      (frameOk b = false ∨ frameType b ≤ 1 → exec (.dataFrameRx p b fec dl) s = .next (settle (dataFrame p fec dl b s))) ∧
      (∀ k, frameOk b = true → frameType b = 1 → packetOf (framePay b) (framePlen b) = some k →
        leAt b 2 2 = x.rxSeq.toNat → k.dchip = chipId s → knownType k.ttype = true →
        vcHeld (linkHdr p h s) p (vcOf k dl) < vcFrames (vcOf k dl) → ∃ t, exec (.dataFrameRx p b fec dl) s = .next t ∧
        (vget t.ports p).rx = x.rx ++ [(some (vcOf k dl), k)] ∧ (vget t.ports p).rxSeq = x.rxSeq + 1 ∧
        (vget t.ports p).nakSent = false ∧ t.mem = s.mem) ∧
      (frameOk b = false → x.nakSent = false → x.naks = [] → ∃ t, exec (.dataFrameRx p b fec dl) s = .next t ∧
        (vget t.ports p).nakSent = true ∧ (vget t.ports p).naks = [s.time.it] ∧ (vget t.ports p).rx = x.rx ∧
        (vget t.ports p).sent.map (·.2) = some (.ctl (.nak x.rxSeq)) ∧
        (vget t.ports p).rxSeq = x.rxSeq ∧ t.mem = s.mem)) ∧
    (x.st = .up → ctlFrame b 1 = true →
      exec (.nak p b fec) s = .next (settle (nakRx p h (BitVec.ofNat 16 (leAt b 14 2)) s)) ∧
      (x.naks = [] → ∃ t, exec (.nak p b fec) s = .next t ∧ (vget t.ports p).naks = [s.time.it] ∧
        (vget t.ports p).rx = x.rx ∧ (vget t.ports p).st = .up ∧ t.mem = s.mem)) ∧
    (x.st.hears = true → ctlFrame b 0 = true →
      let chip := leAt b 12 2
      let inst : BitVec 64 := BitVec.ofNat 64 (leAt b 16 8)
      (chip ≠ x.peerPlan.toNat → Down (.hello p b fec) 4) ∧
      (chip = x.peerPlan.toNat → inst ≠ s.fabric.installId → Down (.hello p b fec) 5) ∧
      (chip = x.peerPlan.toNat → inst = s.fabric.installId → ∃ t, exec (.hello p b fec) s = .next t ∧
        (vget t.ports p).peer = x.peerPlan ∧ (x.st ≠ .training → (vget t.ports p).st = .up) ∧
        (x.st = .training → (vget t.ports p).st = .training ∧ (vget t.ports p).helloRx = true) ∧
        (x.st ≠ .up → ∀ v : Fin 8, vget (vget t.ports p).credits v = BitVec.ofNat 16 (leAt b (24 + 2 * v) 2)) ∧
        (x.st = .hello → (vget t.ports p).txSeq = 0 ∧ (vget t.ports p).rxSeq = 0))) ∧
    ((x.st = .up ∨ x.st = .hello) → Down (.linkDown p) 1) ∧
    (x.st = .up → x.replayBuf ≠ [] → Down (.ackStallTimeout p) 3) ∧
    (x.st = .down → s.island.mode = .full → exec (.linkRetrain p) s = .next (settle { s with
      ports := vset s.ports p { x with st := .training, helloRx := false } })) ∧
    (x.st = .training → ∃ t, exec (.linkTrained p) s = .next t ∧ (vget t.ports p).lanes = 0xF ∧
      (vget t.ports p).sent.map (·.2) = some (.ctl (.hello (chipId s) s.fabric.installId ownCredits)) ∧
      (vget t.ports p).st = if x.helloRx then .up else .hello)

/-- Writes over the fabric (R206 to R208, R232): a WRITE lands whole or is refused with no word written; an ACK retires
its WRITE; a NACK, or 1 ms without an answer, ends the chain with REMOTE_FAIL; pace notices replace and end. -/
def Obligations.FabricWrites : Prop :=
  (∀ (s : State) (p : Fin 17) (k : Packet), firstPacket s p (·.ttype = 0x01) = some k →
    let part : Fin 32 := ⟨k.spart.toNat % 32, by omega⟩
    (k.spart.toNat < 32 → partTakes s part = true → DramRange s part .store .engine k.daddr.toNat k.data.length →
      ∃ t, exec (.remoteWriteRx p) s = .next t ∧ t.rat = s.rat ∧
        (inbox t p).take ((inbox s p).erase k).length = (inbox s p).erase k ∧
        ∀ b, rdByte t b = if k.daddr.toNat ≤ b ∧ b < k.daddr.toNat + k.data.length then k.data.getD (b - k.daddr.toNat) 0
                          else rdByte s b) ∧
    (32 ≤ k.spart.toNat ∨ partTakes s part = false → s.rat.reopened = none → ∃ t, exec (.remoteWriteRx p) s = .next t ∧ t.mem = s.mem ∧ t.rat.errCause = 1 ∧
      t.rat.errFid = arriveFid p k ∧ t.rat.errAddr = k.daddr) ∧
    (s.rat.reopened = none → exec (.remoteWriteRx p) s = .next (settle (remoteWrite p k s)))) ∧
  (∀ (s : State) (p : Fin 17) (k : Packet) (g : Fin 16) (c : Fin 8) (w : NetWrite) (ch : Chain) (m : Cmd),
    s.remote = [(g, c, w)] → w.coll = false → (s.channel g c).out = [] →
    (s.channel g c).running = some ch → InProgress s ch.origin m →
    (k.tid = w.tid → firstPacket s p (·.ttype = 0x02) = some k →
      (ch.result = none → ∃ t, exec (.ack p) s = .next t ∧ t.remote = [] ∧ (t.channel g c).running = some ch ∧ t.mem = s.mem) ∧
      (∀ st d, ch.result = some (st, d) → ∃ t, exec (.ack p) s = .next t ∧ t.remote = [] ∧ (t.channel g c).running = none ∧
        EndedWith s t ch.origin m st d)) ∧
    (ch.result = none →
      let Fails := fun (i : Instr) (cause : Nat) => ∃ t, exec i s = .next t ∧ t.remote = [] ∧ (t.channel g c).running = none ∧
        EndedWith s t ch.origin m 0x103 (BitVec.ofNat 32 (cause % 256 + 256 * min w.idx 0xFFFFFF)) ∧ t.mem = s.mem
      (k.tid = w.tid → firstPacket s p (·.ttype = 0x03) = some k → Fails (.nack p) k.cause.toNat) ∧
      Fails (.writeTimeout w.tid) 0xFF)) ∧
  (∀ (s : State) (p : Fin 17) (k : Packet), firstPacket s p (·.ttype = 0x20) = some k → s.rat.reopened = none →
    exec (.paceNoticeRx p) s = .next (settle (paceNotice p k s)) ∧ (
    (∀ d c e, (s.chan d c).desc = some e → e.earlyClose = false) →
    let x : Pace := { chip := k.schip, ratio := BitVec.ofNat 8 (byteAt k.data 1), cause := BitVec.ofNat 8 (byteAt k.data 0),
                      until_ := BitVec.ofNat 64 (leAt k.data 16 8) }
    let rest := s.paceFrom.filter (·.1 ≠ k.schip)
    (listed s k.schip = true → leAt k.data 8 8 < leAt k.data 16 8 → ∃ t, exec (.paceNoticeRx p) s = .next t ∧
      t.paceFrom = rest ++ [(k.schip, x)]) ∧
    (listed s k.schip = true → leAt k.data 16 8 ≤ leAt k.data 8 8 → ∃ t, exec (.paceNoticeRx p) s = .next t ∧
      t.paceFrom = rest))) ∧
  (∀ (s : State) (chip : BitVec 12) (x : Pace), s.paceFrom.find? (·.1 = chip) = some (chip, x) → x.until_ < s.time.it →
    s.rat.reopened = none → ∃ t, exec (.paceNoticeExpiry chip) s = .next t ∧ t.paceFrom = s.paceFrom.filter (·.1 ≠ chip)) ∧
  (∀ a n : Nat, 0 < n → let l := packetsOf (n + 1) a n
    (∀ q ∈ l, 1 ≤ q.2 ∧ q.2 ≤ 208) ∧ (l.map (·.2)).sum = n ∧
    (∀ i q r, l[i]? = some q → l[i + 1]? = some r → r.1 = q.1 + q.2 ∧ r.1 % 8 = 0) ∧ l[0]?.map (·.1) = some a) ∧
  (∀ (s : State) (g : Fin 16) (c : Fin 8) (w : NetWrite), w.remote = true →
    let x := s.channel g c
    let v := { w with ord := x.ord }
    (mayIssue s g c x.out v = true → channelWrite g c w s = sendWrite g c v (s.modChannel g c fun x => { x with ord := x.ord + 1 })) ∧
    (mayIssue s g c x.out v = false → channelWrite g c w s = s.modChannel g c fun x => { x with
      ord := x.ord + 1, out := x.out ++ [v] }))

/-- The COLLECTIVE command (R217, R222 to R226): OPEN sets up a slot and its engines, CONTRIB sends the next step, CLOSE
frees the slot, and each is refused with its status; a slot above 7 names none. -/
def Obligations.CollectiveCommands : Prop :=
  (∀ (s : State) (n : Fin 64) (k : Nat) (m : Cmd) (p : Fin 32), queuePart s n = some p → m.collSlot = none →
     let Ends := fun (c : Instr) => exec c s = .next (settle { s with
       queues := vmod s.queues n fun y => { y with disp := y.disp.modify k fun c => { c with st := .done 0x140 0 (stamp s) } } })
     (beginColl s n k 0 = some m → Ends (.open_ n k)) ∧ (beginColl s n k 1 = some m → Ends (.contrib n k)) ∧
     (beginColl s n k 2 = some m → Ends (.close n k))) ∧
  ∀ (s : State) (n : Fin 64) (k : Nat) (m : Cmd) (p : Fin 32) (d : Fin 4) (q : Fin 8), queuePart s n = some p →
    m.collSlot = some (d, q) →
    let x := s.chan d q
    let Ends := fun (c : Instr) (st : BitVec 16) => exec c s = .next (settle { s with
      queues := vmod s.queues n fun y => { y with disp := y.disp.modify k fun c => { c with st := .done st 0 (stamp s) } } })
    (beginColl s n k 0 = some m →
      let a := leAt m.bytes 48 8
      let b := rdBytes s a (128 + 2 * min 4160 (leAt (rdBytes s a 128) 4 2 + leAt (rdBytes s a 128) 6 2))
      (m.sub ≠ 0 ∨ x.st ≠ .closed ∨ a % 8 ≠ 0 → Ends (.open_ n k) 0x140) ∧
      (m.sub = 0 → x.st = .closed → a % 8 = 0 → DramRange s p .load .plain a b.length →
        (descInRange s b (chanDesc b) = false ∨ descPlaced s p (chanDesc b) = false → Ends (.open_ n k) 0x140) ∧
        (∀ st, descInRange s b (chanDesc b) = true → descPlaced s p (chanDesc b) = true → stackOf (chanDesc b).master = some st →
          (allClaimed s st p = false → Ends (.open_ n k) 0x141) ∧
          (allClaimed s st p = true → DramRange s p .store .engine (chanDesc b).acc (8 * (chanDesc b).S) → ∃ t, exec (.open_ n k) s = .next t ∧ (t.chan d q).st = .opening ∧
            (t.chan d q).desc = some (chanDesc b) ∧ (t.chan d q).part = p ∧ (t.chan d q).openCmd = some (n, m.slot) ∧
            (t.chan d q).hellos = [(chanDesc b).self] ∧ (vget t.queues n).disp[k]? = some { m with st := .running } ∧
            (∀ j, (t.eng st j).accum = true ∧ (t.eng st j).abase = BitVec.ofNat 44 (chanDesc b).acc))))) ∧
    (beginColl s n k 1 = some m → contribMayBegin s d q (leAt m.bytes 40 4) = true →
      let step := BitVec.ofNat 32 (leAt m.bytes 40 4)
      (x.st = .halted → Ends (.contrib n k) 0x144) ∧ (x.st = .recovering → Ends (.contrib n k) 0x145) ∧
      (x.st = .expelled → Ends (.contrib n k) 0x146) ∧ (x.st = .closed → Ends (.contrib n k) 0x140) ∧
      (∀ c, x.st = .run → x.desc = some c →
        (c.nmemb ≤ c.self → Ends (.contrib n k) 0x140) ∧
        (c.self < c.nmemb → step ≠ x.nextStep → Ends (.contrib n k) 0x147) ∧
        (c.self < c.nmemb → step = x.nextStep → DramRange s x.part .load .engine c.grad (4 * c.nelem) →
          (c.resid ≠ 0 → DramRange s x.part .load .engine c.resid (4 * c.nelem) ∧
            DramRange s x.part .store .engine c.resid (4 * c.nelem)) →
          ∃ t nf, exec (.contrib n k) s = .next t ∧ (t.chan d q).nextStep = step + 1 ∧ (t.chan d q).st = .run ∧
            (t.chan d q).contrib = x.contrib ++ [{ origin := (n, m.slot), step := step, nonfin := nf }] ∧
            (vget t.queues n).disp[k]? = some { m with st := .running }))) ∧
    (beginColl s n k 2 = some m →
      (x.desc = none → Ends (.close n k) 0x140) ∧
      (∀ c st, x.desc = some c → x.contrib = [] → x.st ≠ .opening → stackOf c.master = some st →
        ∃ t, exec (.close n k) s = .next t ∧ t.chan d q = { ord := x.ord } ∧ (∀ j, (t.eng st j).accum = false) ∧
          (vget t.queues n).disp[k]? = some { m with st := .done 0 0 (stamp s) } ∧ t.mem = s.mem))

/-- Packets and deadlines of a channel (R223, R224, R228 to R236): HELLOs open it, contributions land and are added, a
step closes at its deadline, a CONTRIB completes when the shards are there, a failed member starts a recovery, which
resumes the channel or halts it. -/
def Obligations.ChannelSteps : Prop :=
  ∀ (s : State) (d : Fin 4) (q : Fin 8) (c : ChanDesc), (s.chan d q).desc = some c →
    let x := s.chan d q
    (∀ (p : Fin 17) (k : Packet), k.spart.toNat < 32 → partTakes s (packetPart k) = true → findChan s (packetPart k) (leAt k.data 0 2) = some (d, q) →
      (firstPacket s p (isColl (· = 5)) = some k → x.st = .opening → c.members[leAt k.data 12 2]? = some k.schip →
        let hs := insertNat (leAt k.data 12 2) x.hellos
        (leAt k.data 16 4 ≠ c.crc.toNat → ∃ t, exec (.channelHello p) s = .next t ∧ (t.chan d q).st = .closed ∧
          ∀ o m, x.openCmd = some o → InProgress s o m → EndedWith s t o m 0x142 0) ∧
        (leAt k.data 16 4 = c.crc.toNat → hs.length ≠ c.nmemb + c.nspare → ∃ t, exec (.channelHello p) s = .next t ∧
          t.chan d q = { x with hellos := hs } ∧ t.mem = s.mem) ∧
        (leAt k.data 16 4 = c.crc.toNat → hs.length = c.nmemb + c.nspare → ∃ t, exec (.channelHello p) s = .next t ∧
          t.chan d q = { x with hellos := hs, st := .run, openCmd := none } ∧
          ∀ o m, x.openCmd = some o → InProgress s o m → EndedWith s t o m 0 0)) ∧
      (∀ l, firstPacket s p (isColl fun c => c ≠ 2 && c ≠ 5) = some k →
        let body := k.data.drop 16
        let e := (BitVec.ofNat 32 (cstepOf k.data), leAt k.data 12 2)
        collPlace s c (ckindOf k.data) e.2 e.1 (leAt k.data 8 4) body.length = some l →
        (∀ r ∈ l, DramRange s (packetPart k) .store .engine r.1 r.2) → s.rat.reopened = none →
        (k.final = false ∨ ckindOf k.data = 1 → ∃ t, exec (.collectivePacketRx p) s = .next t ∧ t.rat = s.rat ∧
          (∀ a, l = [(a, body.length)] → ∀ b, rdByte t b =
            if a ≤ b ∧ b < a + body.length then body.getD (b - a) 0 else rdByte s b) ∧
          (∀ a n a' n', l = [(a, n), (a', n')] → a + n ≤ a' ∨ a' + n' ≤ a → ∀ b, rdByte t b =
            if a ≤ b ∧ b < a + n then body.getD (b - a) 0
            else if a' ≤ b ∧ b < a' + n' then body.getD (n + (b - a')) 0 else rdByte s b) ∧
          (k.final = true → x.st = .run → e ∈ (t.chan d q).gathers)) ∧
        (k.final = true → ckindOf k.data = 0 → x.st = .run → c.earlyClose = false → x.openStep ≤ e.1 → e ∉ x.added →
          ∃ t, exec (.collectivePacketRx p) s = .next t ∧
            (accOpen x e.1 = true → stackReady s c = true → (stackOf c.acc).isSome = true →
              DramRange s x.part .load .engine (stageSlot c e.2 e.1) c.cbytes → (t.chan d q).added = x.added ++ [e]) ∧
            (accOpen x e.1 = false ∨ stackReady s c = false →
              (t.chan d q).landed = x.landed ++ [(e.1, e.2, s.time.it)]))) ∧
      (firstPacket s p (isColl (· = 2)) = some k → s.rat.reopened = none →
        let m := leAt k.data 16 2
        let fit := BitVec.ofNat 64 (leAt k.data 24 8)
        (x.st = .run → m = c.self → m ∉ x.replaced → c.members[m]? = some (chipId s) → ∃ t, exec (.failNotice p) s = .next t ∧
          (t.chan d q).st = .expelled ∧ (t.chan d q).contrib = []) ∧
        (x.st = .run → m ≠ c.self → m ∉ x.replaced → x.lastRit = none → ckptStep c fit = none → x.recover = none →
          ∃ t, exec (.failNotice p) s = .next t ∧ (t.chan d q).st = .halted ∧ (t.chan d q).contrib = []) ∧
        (∀ r, x.st = .recovering → m ∈ x.replaced → x.recover = some r → r.fMin ≤ fit → fit ≤ r.fMax →
          ckptStep c r.fMin = some r.cr → recoverHalts c x c.self x.replaced (some r.cr) (some m) = none →
          ∃ t, exec (.failNotice p) s = .next t ∧
            t.chan d q = { x with recover := some { r with rit := resumeIt c r.fMax } }) ∧
        (∀ cr sp, x.st = .run → m ≠ c.self → x.replaced = [] → 2 ≤ c.nmemb → x.lastRit = none → x.recover = none → ckptStep c fit = some cr →
          nextSpare c x = some sp → c.nmemb ≤ c.self → sp ≠ c.self → ∃ t, exec (.failNotice p) s = .next t ∧
            (t.chan d q).st = .recovering ∧ (t.chan d q).restored = true ∧ (t.chan d q).contrib = [] ∧
            (t.chan d q).recover = some { cr := cr, fMin := fit, fMax := fit, rit := resumeIt c fit } ∧
            (t.chan d q).sparesUsed = x.sparesUsed ++ [sp]))) ∧
    (x.st = .opening → ∃ t, exec (.openTimeout d q) s = .next t ∧ t.chan d q = { ord := x.ord } ∧
      ∀ o m, x.openCmd = some o → InProgress s o m → EndedWith s t o m 0x142 0) ∧
    (atDeadline s d q = some c → (countMisses d q c x.openStep s).1 = [] → x.landed = [] → s.rat.reopened = none →
      let on := (x.added.filter (·.1 = x.openStep)).length + (x.stale.filter (·.1 = x.openStep)).length
      ∃ t, exec (.stepDeadline d q) s = .next t ∧ (t.chan d q).openStep = x.openStep + 1 ∧ (t.chan d q).st = .run ∧
        (on = 0 → (t.chan d q).optRead = x.openStep + 1 ∧ (x.openStep, c.self) ∈ (t.chan d q).gathers) ∧
        (on ≠ 0 → x.ckptPend.isSome = true → (t.chan d q).castWait = some (x.openStep, .waitCkpt, 0)) ∧
        (on ≠ 0 → x.ckptPend = none → ∀ k, stackOf c.master = some k → (t.chan d q).castWait = some (x.openStep, .opt, 32) ∧
          ∀ j, ∃ r, (t.eng k j).run = some r ∧ r.why = .channel d q ∧ r.opc = 3 ∧ r.base = c.master ∧ r.len = 4 * c.S)) ∧
    (∀ r, contribEnds s d q = some (r, c) → ∃ t, exec (.contribComplete d q) s = .next t ∧
      (t.chan d q).contrib = x.contrib.drop 1 ∧ t.mem = s.mem ∧
      ∀ m, InProgress s r.origin m → EndedWith s t r.origin m (if missing x c r.step = 0 then 0 else 0x143)
        (BitVec.ofNat 32 (missing x c r.step % 65536 + 65536 * min r.nonfin 65535))) ∧
    (∀ step, x.ckptPend = some step → x.ckptLost = false → s.rat.reopened = none → (collPending s d q fun b => ckindOf b = 3 && cstepOf b = step.toNat) = false →
      ∃ t, exec (.checkpointComplete d q) s = .next t ∧ (t.chan d q).ckptPend = none ∧
        (x.castWait = none → (t.chan d q).castWait = none) ∧
        (∀ o i k, x.castWait = some (o, .waitCkpt, i) → stackOf c.master = some k → ∃ j, (t.chan d q).castWait = some (o, .opt, j))) ∧
    (∀ r, x.recover = some r → x.st = .recovering → r.rit ≤ s.time.it → s.rat.reopened = none →
      (x.restored = true → ∃ t, exec (.recoveryResume d q) s = .next t ∧ (t.chan d q).st = .run ∧
        (t.chan d q).nextStep = r.cr + 1 ∧ (t.chan d q).openStep = r.cr + 1 ∧ (t.chan d q).recover = none ∧
        (t.chan d q).desc = some { c with t0 := r.rit - (r.cr + 1).setWidth 64 * c.period }) ∧
      (x.restored = false → ∃ t, exec (.recoveryResume d q) s = .next t ∧ (t.chan d q).st = .halted ∧ (t.chan d q).contrib = [])) ∧
    (∀ (p : Fin 17) (k : Packet), s.rat.reopened = none →
      (firstPacket s p (isColl (· = 5)) = some k → exec (.channelHello p) s = .next (settle (channelHello p k s))) ∧
      (firstPacket s p (isColl fun c => c ≠ 2 && c ≠ 5) = some k →
        exec (.collectivePacketRx p) s = .next (settle (collectiveRx p k s))) ∧
      (firstPacket s p (isColl (· = 2)) = some k → exec (.failNotice p) s = .next (settle (failNoticeRx p k s))) ∧
      (atDeadline s d q = some c → exec (.stepDeadline d q) s = .next (settle (closeStep d q c s))))

/-! ### Axes and Treadle engines (11, 12) -/

/-- Orders to an axis (R239, R240, R255 to R259, R263 to R267, R270): each has its effect in the states it is valid in,
and is counted in IGN in the others; nothing of another axis changes. -/
def Obligations.AxisOrders : Prop :=
  ∀ (s : State) (rank : BitVec 3) (port : BitVec 8) (a : Fin 32), s.rat.reopened = none →
    let x := vget s.axes a
    let Others := fun (t : State) => ∀ b, b ≠ a → vget t.axes b =
      { vget s.axes b with aligned := (vget t.axes b).aligned, phase := (vget t.axes b).phase }
    let Ignored := fun (c : Instr) => exec c s = .next (settle { s with axes := vset s.axes a { x with ign := satInc x.ign } })
    (Reaches s a rank port 0x40 → Uncontested s a rank →
      (∀ r, x.rec_ = some r → x.st = .disabled → s.tap.seizes = false → ∃ t, exec (.enable rank port a []) s = .next t ∧
        (vget t.axes a).st = .enabled ∧ (vget t.axes a).src = 0 ∧ (vget t.axes a).spp = fbkSample s r.posFbk ∧
        (vget t.axes a).spv = 0 ∧ (vget t.axes a).spc = 0 ∧ Others t) ∧
      (x.st ≠ .disabled ∨ x.rec_ = none ∨ s.tap.seizes = true → Ignored (.enable rank port a [])) ∧
      (x.rec_ ≠ none → x.st.runs = true → ∃ t, exec (.disable rank port a []) s = .next t ∧
        (vget t.axes a).st = .disabled ∧ (vget t.axes a).segRun = none ∧ Others t) ∧
      (x.rec_ = none ∨ x.st.runs = false → Ignored (.disable rank port a [])) ∧
      (∀ src, x.rec_ = none ∨ x.st ≠ .enabled → Ignored (.run rank port a src [])) ∧
      (x.rec_ ≠ none → x.st = .enabled →
        (exec (.run rank port a 0 []) s = .next (settle { s with axes := vset s.axes a (Axis.useSp { x with src := 0, segRun := none }) })) ∧
        (x.mode = 3 → exec (.run rank port a 1 []) s = .next (settle { s with axes := vset s.axes a { x with
          src := 1, segRun := none, segEnd := none, segVNum := 0, segVDen := 1 } })) ∧
        (∀ src m, (src = 2 ∨ src = 3) → x.mode = 3 → gearMaster s a = some m → x.gearDen ≠ 0 →
          exec (.run rank port a src []) s = .next (settle { s with axes := vset s.axes a { x with
            src := src, segRun := none, mRef := BitVec.ofInt 64 m, offset := x.spp, camN := 0, camUse := x.camBank } })) ∧
        (∀ src, src ≠ 0 → x.mode ≠ 3 → Ignored (.run rank port a src []))) ∧
      (x.rec_ ≠ none → x.st = .enabled → ∃ t, exec (.axsStop rank port a []) s = .next t ∧
        (vget t.axes a).st = .stopping ∧ (vget t.axes a).segq = [] ∧ (vget t.axes a).src = 0 ∧
        (vget t.axes a).stopRank = rank ∧ (vget t.axes a).stopPort = port ∧ Others t) ∧
      (x.rec_ = none ∨ x.st ≠ .enabled → Ignored (.axsStop rank port a []))) ∧
    (rank ≠ 2 → x.taken = false → Reaches s a rank port 0x48 →
      (x.st ≠ .enabled → ∀ v, Ignored (.axsSpWrite rank port a v [])) ∧
      (x.st = .enabled → ∀ v, let y := { x with sp := if x.mode = 3 then v else (v.setWidth 32).signExtend 64 }
        exec (.axsSpWrite rank port a v []) s = .next (settle { s with
          axes := vset s.axes a (if x.src = 0 then y.useSp else y) }))) ∧
    (rank ≠ 2 → x.taken = false → Reaches s a rank port 0x50 → ∀ v,
      (x.st ≠ .enabled → Ignored (.axsSpdWrite rank port a v [])) ∧
      (x.st = .enabled → exec (.axsSpdWrite rank port a v []) s = .next (settle { s with
        axes := vset s.axes a { x with spd := v } }))) ∧
    (∀ h : Fin 4, (namedStops s a).getLsbD h.val = true → ∃ t, exec (.disable 0 (BitVec.ofNat 8 h.val) a []) s = .next t ∧
      (vget t.axes a).st.runs = false)

/-- Ticks, hooks, the path queue and the hardware stops (R242, R249, R250, R253, R256, R265, R268, R271, R278, R279). -/
def Obligations.ServoTicks : Prop :=
  ∀ (s : State) (a : Fin 32),
    let x := vget s.axes a
    (∀ (r : AxisRec) (w0 w1 w2 : BitVec 768), tickDue s a = some r →
      (∃ t, exec (.currentTick a w0 w1 w2) s = .next t ∧ (vget t.axes a).lastTick = s.time.it ∧
        (vget t.axes a).image.posfb = (vget t.axes a).fbPos ∧ (vget t.axes a).image.spp = (vget t.axes a).spp ∧
        (vget t.axes a).image.spv = (vget t.axes a).spv ∧ (vget t.axes a).image.spc = (vget t.axes a).spc ∧
        (due s a r r.pV = true → (vget t.axes a).obsPos = (vget t.axes a).fbPos ∧ (vget t.axes a).obsIq = (vget t.axes a).iq)) ∧
      (∀ l : Law, r.motor = 2 → due s a r r.pV = false → hookOpen s a = false → vget x.laws 0 = some l → l.float = false →
        x.st.runs = true →
        let i := w32 (sdiCurrent r.curDiv.toNat w0)
        let u := w32 (lawQ31 l x.lsC x.spc.toInt i.toInt (fromQuantity true 0).toInt).1
        ∃ t, exec (.currentTick a w0 w1 w2) s = .next t ∧ (vget t.axes a).iq = i ∧ (vget t.axes a).spcUsed = x.spc ∧
          (vget t.axes a).duty = #v[u, w32 (-u.toInt), 0] ∧
          (vget t.axes a).share = (#v[u, w32 (-u.toInt), 0]).map (pwmShare (40 * r.pwmPer.toNat)) ∧
          (vget t.axes a).st = x.st ∧ t.mem = s.mem)) ∧
    ((tickDue s a).isSome = true → hookOpen s a = true → s.rat.reopened = none → ∃ t, exec (.hookDeadline a) s = .next t ∧
      (vget t.axes a).dlMiss = satInc x.dlMiss ∧ (vget t.axes a).spc = (if x.mode = 1 then x.spc else x.spcUsed) ∧
      (vget t.trd (axEngine a)).haband = satInc (vget s.trd (axEngine a)).haband) ∧
    (∀ (e : Fin 8) (i : Fin 4) (rest : List (Fin 4)), (vget s.trd e).pendHooks = i :: rest → vsvoGood s = true →
      engineWorks s e = true → (vget s.trd e).hook = none → ∃ t, exec (.hookStart e) s = .next t ∧
        (vget t.trd e).hook = some i ∧ (vget t.trd e).pendHooks = rest ∧ (vget t.trd e).cache = [] ∧
        (vget t.trd e).bank1 = (vget s.trd e).bank1.enter (vget s.axes (engineAxis e i)).hook.toNat ∧
        (vget t.trd e).bank0 = (vget s.trd e).bank0 ∧ t.axes = s.axes ∧ t.mem = s.mem) ∧
    (∀ w : Master, Admits w (axsBase a + 0x140) s →
      (x.taken = false →
        (let y := if x.segq.length < 16 ∧ (segOf x s.time.it).type ≤ 3 ∧ (segOf x s.time.it).dur ≠ 0
            then { x with segq := x.segq ++ [segOf x s.time.it] } else { x with segRefused := satInc x.segRefused }
         exec (.segmentPush w a) s = .next (settle { s with axes := vset s.axes a y })) ∧
        exec (.segmentFlush w a) s = .next (settle { s with axes := vset s.axes a { x with segq := [] } })) ∧
      (x.taken = true → ∀ c, c ∈ [Instr.segmentPush w a, .segmentFlush w a] → ∃ t, exec c s = .next t ∧
        (vget t.axes a).segq = x.segq ∧ (vget t.axes a).ctag = x.ctag.bump ∧ (vget t.axes a).cOrder = 6 ∧
        (vget t.axes a).cWrank = 2)) ∧
    (∀ h : Fin 4,
      exec (.hstopDeassert h) s = .next (settle { s with hstop := s.hstop &&& ~~~(1#4 <<< h.val) }) ∧
      (∃ t, exec (.hstopAssert h []) s = .next t ∧ t.hstop = s.hstop ||| (1#4 <<< h.val) ∧
        (∀ r, x.rec_ = some r → r.hstop.getLsbD h.val = true → s.hstopOn.getLsbD h.val = true → (vget t.axes a).st.runs = false ∧ (vget t.axes a).pwmTest = none ∧
          (x.st.runs = true → (vget t.axes a).st = .disabled)) ∧
        (∀ r, x.rec_ = some r → namedStops s a = 0 → (r.hstop.getLsbD h.val = false ∨ s.hstopOn.getLsbD h.val = false) →
          (vget t.axes a).st = x.st)))

/-- The host's commands of an engine (R275, R280, R284, R287, R291, R295): START, STOP, RESUME, and the writes of PM,
CM, bank registers and data memory, with the codes of those refused. -/
def Obligations.TreadleHost : Prop :=
  ∀ (s : State) (e : Fin 8) (w : Master),
    let t := vget s.trd e
    let Puts := fun (c : Instr) (t' : Engine) => exec c s = .next (settle { s with trd := vset s.trd e t' })
    let Refuses := fun (c : Instr) (code : BitVec 8) => Puts c { t with
      errCode := code, errPc := 0, errBank := false, errTag := t.errTag.bump }
    (Admits w (trdBase e) s →
      (t.held = false → t.bg = .halted →
        let b := { t.bank0 with calls := [], loops := [], repeat_ := 0, inRep := false, lip := false, pc := t.entry, past := false }
        Puts (.trdStart w e) { t with cache := [], filling := false, bg := .running, bank0 := b }) ∧
      (t.held = false → t.bg ≠ .halted → Refuses (.trdStart w e) 0x0B) ∧
      Puts (.trdStop w e) { t with bg := .halted } ∧
      (t.held = false → t.bg = .halted → Puts (.trdResume w e) { t with bg := .running }) ∧
      (t.bg ≠ .halted → Puts (.trdResume w e) t)) ∧
    (∀ (cm : Bool) (i : BitVec 12) (v : BitVec 32), (cm = true → i < 1024) →
      Admits w (trdBase e + (if cm then 0x3000 else 0x4000) + 4 * i.toNat) s →
      (t.bg = .halted → (∀ a, axEngine a = e → (vget s.axes a).hook = 0) → Puts (.pmCmWrite w e cm i v)
        (if cm then { t with cache := [], filling := false, cm := spPut 0 t.cm i.toNat v }
         else { t with cache := [], filling := false, pm := spPut 0 t.pm i.toNat v })) ∧
      (t.bg ≠ .halted ∨ (∃ a, axEngine a = e ∧ (vget s.axes a).hook ≠ 0) → Refuses (.pmCmWrite w e cm i v) 0x09)) ∧
    (∀ (code : BitVec 6) (v : BitVec 32),
      (Admits w (trdBase e + 0x100 + 4 * code.toNat) s →
        (t.bg ≠ .halted → Refuses (.bankRegisterWrite w e 0 code v) 0x0A) ∧
        (∀ b, t.bg = .halted → code ≠ 0x3F → t.bank0.put code.toNat v = some b →
          Puts (.bankRegisterWrite w e 0 code v) { t with bank0 := b }) ∧
        (t.bg = .halted → code = 0x3F → Puts (.bankRegisterWrite w e 0 code v) { t with
          bank0 := { t.bank0 with pc := v.setWidth 12, past := false, lip := false } })) ∧
      (Admits w (trdBase e + 0x200 + 4 * code.toNat) s →
        (t.hook ≠ none → Refuses (.bankRegisterWrite w e 1 code v) 0x0A) ∧
        (∀ b, t.hook = none → code ≠ 0x3F → t.bank1.put code.toNat v = some b →
          Puts (.bankRegisterWrite w e 1 code v) { t with bank1 := b }))) ∧
    (∀ (i : BitVec 12) (v : BitVec 32),
      (Admits w (trdBase e + 0x8000 + 4 * i.toNat) s → Puts (.xmYmWrite w e false i v) { t with xm := spPut 0 t.xm i.toNat v }) ∧
      (Admits w (trdBase e + 0xC000 + 4 * i.toNat) s → Puts (.xmYmWrite w e true i v) { t with ym := spPut 0 t.ym i.toNat v }))

/-- The operations of format A (R286, R288, R289, Table 12.5): each computes its result and flags from the bank before
it, then the moves and the C bus act, and the bank goes on to its next instruction; only the engine changes. -/
def Obligations.TreadleArithmetic : Prop :=
  ∀ (s : State) (e : Fin 8) (h : Bool) (w : BitVec 32), Fetches s e h w → (fmtA w).xop ≠ 3 → (fmtA w).yop ≠ 3 →
    let f := fmtA w
    let t := (vget s.trd e).fill h
    let b := t.bank h
    let x := vget b.d (reg8 f.s1)
    let y := vget b.d (reg8 f.s2)
    let a := b.acc f.d
    let Does := fun (c : Instr) (op : Nat) (r : Bank) => opc w = op →
      let m := moves f b r ((Config.freeWord s.free).setWidth 32) t
      exec c s = .next (settle { s with free := s.free + 1, trd := vset s.trd e (m.1.into h m.2.next) })
    let Res := fun (r : BitVec 32) (v sat : Bool) =>
      { b with d := vset b.d (reg8 f.d) r, n := r.msb, z := decide (r = 0), v := v, sat := b.sat || sat }
    let Acc := fun (r : BitVec 72) (v : Bool) => { b.setAcc f.d r with n := r.msb, z := decide (r = 0), v := v }
    let Sat := fun (v : Int) => Res (satInt 32 v) false (decide (v < -(2 ^ 31) ∨ 2 ^ 31 ≤ v))
    let Sum := fun (v : Int) => Acc (BitVec.ofInt 72 v) (decide (v < -(2 ^ 71) ∨ 2 ^ 71 ≤ v))
    Does (.trdNop e) 0x00 b ∧
    Does (.mpy e) 0x01 (Acc (BitVec.ofInt 72 (b.product x y)) false) ∧
    Does (.mac e) 0x02 (Sum (a.toInt + b.product x y)) ∧
    Does (.msu e) 0x03 (Sum (a.toInt - b.product x y)) ∧
    Does (.add e) 0x04 (Res (x + y) (decide ((x + y).toInt ≠ x.toInt + y.toInt)) false) ∧
    Does (.sub e) 0x05 (Res (x - y) (decide ((x - y).toInt ≠ x.toInt - y.toInt)) false) ∧
    Does (.adds e) 0x06 (Sat (x.toInt + y.toInt)) ∧
    Does (.subs e) 0x07 (Sat (x.toInt - y.toInt)) ∧
    Does (.and e) 0x08 (Res (x &&& y) false false) ∧
    Does (.or e) 0x09 (Res (x ||| y) false false) ∧
    Does (.xor e) 0x0A (Res (x ^^^ y) false false) ∧
    Does (.mov e) 0x0B (Res x false false) ∧
    Does (.neg e) 0x0C (Sat (-x.toInt)) ∧
    Does (.abs e) 0x0D (Sat |x.toInt|) ∧
    Does (.max2 e) 0x0E (Res (if x.slt y then y else x) false false) ∧
    Does (.min2 e) 0x0F (Res (if y.slt x then y else x) false false) ∧
    Does (.ash e) 0x10 (let k := max (-32) (min 31 y.toInt)
      if 0 ≤ k then Sat (x.toInt * 2 ^ k.toNat) else Res (BitVec.ofInt 32 (x.toInt / 2 ^ (-k).toNat)) false false) ∧
    Does (.lsh e) 0x11 (Res (lshOf x y) false false) ∧
    Does (.rnd e) 0x12 (Res (b.rounded (b.acc f.s1)).1 false (b.rounded (b.acc f.s1)).2) ∧
    Does (.acc e) 0x13 (Sum (a.toInt + x.toInt * 2 ^ 32)) ∧
    Does (.clr e) 0x14 (b.setAcc f.d 0) ∧
    Does (.cmp e) 0x15 { b with n := (x - y).msb, z := decide (x = y), v := decide ((x - y).toInt ≠ x.toInt - y.toInt) } ∧
    Does (.mva e) 0x16 (Acc (b.acc f.s1) false)

/-- Formats B and C (R274, R276, R278, R285, R290 to R294, Table 12.6): registers, data memory, jumps, loops, ports, the
ends of programs, WAITIT, and the long instructions and their resumption; an undefined opcode halts the background
program or abandons the hook with code 1. -/
def Obligations.TreadleSequence : Prop :=
  (∀ (s : State) (e : Fin 8) (h : Bool) (w : BitVec 32), Fetches s e h w →
    let t := (vget s.trd e).fill h
    let b := t.bank h
    let n := w.toNat
    let d := fld n 23 3
    let Becomes := fun (c : Instr) (b' : Bank) => exec c s = .next (settle { s with trd := vset s.trd e (t.into h b') })
    let Fault := fun (c : Instr) (code : BitVec 8) => ∃ u, exec c s = .next u ∧ (vget u.trd e).errCode = code ∧
      (vget u.trd e).errPc = b.pc ∧ (vget u.trd e).errBank = h ∧ (h = false → (vget u.trd e).bg = .halted) ∧
      (vget u.trd e).pfault = satInc (vget s.trd e).pfault
    (opcDefined (opc w) = false → ∀ c, c ∈ [Instr.trdNop e, .ldi e, .halt e] → Fault c 1) ∧
    (opc w = 0x20 → fld n 16 4 = 0 → ∀ r, b.put (fld n 20 6)
      (if fld n 20 6 < 8 then (w.setWidth 16).signExtend 32 else (w.setWidth 16).setWidth 32) = some r → Becomes (.ldi e) r.next) ∧
    (opc w = 0x21 → fld n 16 7 = 0 → Becomes (.ldih e)
      (Bank.next { b with d := vset b.d (reg8 d) (((w.setWidth 16).setWidth 32 <<< 16) ||| (vget b.d (reg8 d) &&& 0xFFFF#32)) })) ∧
    (opc w = 0x22 → fld n 0 14 = 0 → ∀ v r, b.get (fld n 14 6) = some v → b.put (fld n 20 6) v = some r →
      Becomes (.mvr e) r.next) ∧
    (opc w = 0x23 → fld n 16 7 = 0 → Becomes (.modi e) (b.step d (w.setWidth 16).toInt).next) ∧
    (opc w = 0x24 → fld n 13 10 = 0 → Becomes (.ldm e) (Bank.next { b with d := vset b.d (reg8 d) (t.data (w.setWidth 13)) })) ∧
    (opc w = 0x25 → fld n 13 10 = 0 → exec (.stm e) s = .next (settle { s with
      trd := vset s.trd e ((t.setData (w.setWidth 13) (vget b.d (reg8 d))).into h b.next) })) ∧
    (opc w = 0x28 → fld n 12 14 = 0 → Becomes (.jmp e) (b.jump (w.setWidth 12))) ∧
    (opc w = 0x29 → fld n 12 10 = 0 → ∀ c, b.cond (fld n 22 4) = some c →
      Becomes (.bcc e) (if c then b.jump (w.setWidth 12) else b.next)) ∧
    (opc w = 0x2A → fld n 12 14 = 0 →
      (b.calls.length < 8 → Becomes (.call e) { b with pc := w.setWidth 12, calls := (b.pc + 1) :: b.calls }) ∧
      (8 ≤ b.calls.length → Fault (.call e) 3)) ∧
    (opc w = 0x2B → fld n 12 14 = 0 →
      (∀ r l, b.calls = r :: l → Becomes (.ret e) (Bank.next { b with pc := r - 1, calls := l })) ∧
      (b.calls = [] → Fault (.ret e) 3)) ∧
    (opc w = 0x2C → fld n 12 14 = 0 → b.next.past = false → opc (t.word b.next) ≤ 0x16 →
      let m := if fld n 0 12 = 0 then b.lc else BitVec.ofNat 12 (fld n 0 12)
      (m ≠ 0 → Becomes (.rep e) { b.next with inRep := true, repeat_ := m }) ∧ (m = 0 → Becomes (.rep e) b.next.next)) ∧
    (opc w = 0x2D → fld n 24 2 = 0 → b.pc.toNat < fld n 12 12 →
      let m := if fld n 0 12 = 0 then b.lc else BitVec.ofNat 12 (fld n 0 12)
      (m = 0 → Becomes (.loop e) (Bank.next { b with pc := BitVec.ofNat 12 (fld n 12 12) })) ∧
      (m ≠ 0 → b.loops.length < 4 → Becomes (.loop e) { b with
        pc := b.pc + 1, loops := (b.pc + 1, BitVec.ofNat 12 (fld n 12 12), m, b.calls.length) :: b.loops }) ∧
      (m ≠ 0 → 4 ≤ b.loops.length → Fault (.loop e) 3)) ∧
    (opc w = 0x2E → fld n 8 14 = 0 → ∀ v, portIn s e (fld n 0 8) = some v →
      (bitOf n 22 = false → Becomes (.in_ e) (Bank.next { b with d := vset b.d (reg8 d) (v.setWidth 32) })) ∧
      (bitOf n 22 = true → d % 2 = 0 → pairIn (fld n 0 8) = true → Becomes (.in_ e)
        ((b.setD d (v.setWidth 32)).setD (d + 1) ((v >>> 32).setWidth 32)).next)) ∧
    (opc w = 0x2F → fld n 8 14 = 0 → (bitOf n 22 = true → d % 2 = 0 ∧ fld n 0 8 % 16 = 0xA) →
      ∀ i k rivals, portOut (fld n 0 8) = some (i, k) →
      let v : BitVec 64 := if bitOf n 22 then (b.dReg (d + 1)).setWidth 64 <<< 32 ||| (b.dReg d).setWidth 64 else if k = 0 then (b.dReg d).signExtend 64 else (b.dReg d).setWidth 64
      (h = true →
        let u := t.into h b.next
        let out := u.out.filter (fun o => !(o.1 = i && o.2.1 = k)) ++ [(i, k, v)]
        exec (.out e rivals) s = .next (settle { s with trd := vset s.trd e { u with out := out } })) ∧
      (h = false → exec (.out e rivals) s = .next (settle (orders ((portOrder e i k v).toList ++ rivals)
        { s with trd := vset s.trd e (t.into h b.next) })))) ∧
    (opc w = 0x30 → fld n 0 26 = 0 → ∀ i rivals, t.hook = some i → exec (.reth e rivals) s = .next (settle
      (orders (hookOrders e t.out ++ rivals) { s with
        trd := vset s.trd e { t with bank1 := t.bank1.next, cache := [], filling := false, hook := none, out := [] },
        axes := vmod s.axes (engineAxis e i) fun x => { x with hookPend := false } }))) ∧
    (opc w = 0x31 → fld n 0 26 = 0 →
      (h = false → exec (.halt e) s = .next (settle { s with trd := vset s.trd e { t.into h b.next with bg := .halted } })) ∧
      (h = true → Fault (.halt e) 5)) ∧
    (opc w = 0x32 → fld n 0 23 = 0 → d % 2 = 0 →
      (h = false → waitTime b d ≤ s.time.it → Becomes (.waitit e) b.next) ∧
      (h = false → s.time.it < waitTime b d → exec (.waitit e) s = .next (settle { s with
        trd := vset s.trd e { t with bg := .waitit } })) ∧
      (h = true → Fault (.waitit e) 5)) ∧
    (scanReserved w = false → b.lip = false → ∀ budget : Option (BitVec 12),
      let m := if fld n 0 12 = 0 then b.lc.toNat else fld n 0 12
      let steps := match budget with | some k => min k.toNat m | none => m
      let Scans := fun (c : Instr) (max : Bool) =>
        let r := elems (scanElem t max w m) steps { b.setD d (if max then 0x80000000#32 else 0x7FFFFFFF#32) with
          scnt := BitVec.ofNat 16 m, spos := 0 }
        (m = 0 → Becomes c ((b.setD d (if max then 0x80000000#32 else 0x7FFFFFFF#32)).setD (fld n 20 3) 0xFFFFFFFF#32).next) ∧
        (m ≠ 0 → r.scnt = 0 → Becomes c (Bank.next { r.setD (fld n 20 3) (r.spos.setWidth 32) with lip := false })) ∧
        (m ≠ 0 → r.scnt ≠ 0 → exec c s = .next (settle { s with trd := vset s.trd e (t.setBank h { r with lip := true }) }))
      (opc w = 0x38 → Scans (.maxi e budget) true) ∧ (opc w = 0x39 → Scans (.mini e budget) false)) ∧
    (opc w = 0x3A → fld n 12 8 = 0 → ∀ budget : Option (BitVec 12),
      let m := if fld n 0 12 = 0 then b.lc.toNat else fld n 0 12
      let r := elems (bmacElem t w m) (match budget with | some k => min k.toNat m | none => m)
        { b with scnt := BitVec.ofNat 16 m, spos := 0 }
      b.lip = false →
        (r.scnt = 0 → Becomes (.bmac e budget) (Bank.next { r with lip := false })) ∧
        (r.scnt ≠ 0 → exec (.bmac e budget) s = .next (settle { s with trd := vset s.trd e (t.setBank h { r with lip := true }) })))) ∧
  (∀ (s : State) (e : Fin 8) (h : Bool) (w : BitVec 32), Fetches s e h w →
    let t := vget s.trd e
    let b := t.bank h
    let m := if fld w.toNat 0 12 = 0 then b.lc.toNat else fld w.toNat 0 12
    b.lip = true → ∀ budget : Option (BitVec 12),
      let steps := match budget with | some k => min k.toNat b.scnt.toNat | none => b.scnt.toNat
      let Resumes := fun (r : Bank) (fin_ : Bank → Bank) =>
        (r.scnt = 0 → exec (.longInstructionResume e budget) s = .next (settle { s with
          trd := vset s.trd e (t.into h (Bank.next { fin_ r with lip := false })) })) ∧
        (r.scnt ≠ 0 → exec (.longInstructionResume e budget) s = .next (settle { s with
          trd := vset s.trd e (t.setBank h { r with lip := true }) }))
      (opc w = 0x38 → scanReserved w = false → Resumes (elems (scanElem t true w m) steps b)
        (fun r => r.setD (fld w.toNat 20 3) (r.spos.setWidth 32))) ∧
      (opc w = 0x39 → scanReserved w = false → Resumes (elems (scanElem t false w m) steps b)
        (fun r => r.setD (fld w.toNat 20 3) (r.spos.setWidth 32))) ∧
      (opc w = 0x3A → fld w.toNat 12 8 = 0 → Resumes (elems (bmacElem t w m) steps b) id)) ∧
  (∀ (s : State) (e : Fin 8), vsvoGood s = true → engineWorks s e = true → (vget s.trd e).hook = none →
    (vget s.trd e).pendHooks = [] → (vget s.trd e).bg = .waitit →
    let t := vget s.trd e
    waitTime t.bank0 (fld (t.word t.bank0).toNat 23 3) ≤ s.time.it →
      exec (.waititWake e) s = .next (settle { s with
        trd := vset s.trd e { t.into false t.bank0.next with bg := .running } }))

/-! ### Feedback, compare and capture (13), CAN (14) -/

/-- Feedback channels (R300 to R309): quadrature counting of levels that the filter has
accepted, sin/cos pairs, SSI frames, the cable fault, the observation
group, and the configuration writes that an unused channel takes. -/
def Obligations.FeedbackChannels : Prop :=
  ∀ (s : State) (c : Fin 40),
    let x := vget s.fbk c
    let Accepted := fun (a b z : Bool) (ball : Time) =>
      let i : Fin 3 := if z ≠ x.levZ then 2 else if a ≠ x.levA then 0 else 1
      newLevels x a b z ≠ [] ∧ filterOk s (vget x.filt i) (vget x.edges i) ball = true
    (fbkWorks s c = true → s.rat.reopened = none →
      (x.mode = 1 → x.good = false → ∀ (a b z : Bool) (ball : Time), Accepted a b z ball → ∃ t, exec (.fbkLevelAccepted c a b z ball) s = .next t ∧
        (vget t.fbk c).levA = a ∧ (vget t.fbk c).levB = b ∧ (vget t.fbk c).levZ = z ∧
        (let d := (quadPhase a b + 4 - quadPhase x.levA x.levB) % 4
         (vget t.fbk c).count = x.count + (if d = 1 then (if x.invDir then -1 else 1) else if d = 3 then (if x.invDir then 1 else -1) else 0) ∧
         (vget t.fbk c).qerr = (x.qerr || decide (d = 2)))) ∧
      (x.mode = 1 → x.good = true → ∀ (a b z : Bool) (ball : Time), Accepted a b z ball → (quadPhase a b + 4 - quadPhase x.levA x.levB) % 4 = 2 →
        ∃ t, exec (.fbkLevelAccepted c a b z ball) s = .next t ∧ (vget t.fbk c).good = false ∧ (vget t.fbk c).qerr = true ∧
          (vget t.fbk c).badSince = s.time.it ∧ (vget t.fbk c).count = x.count) ∧
      (x.mode = 4 → s.time.it.toNat % 800 = 0 → ∀ sin cos : BitVec 16,
        let fine := pairFine x sin cos
        let a2 := pairA2 x sin cos
        (a2 < x.amin ∨ x.amax < a2 → ∃ t, exec (.sincosPair c sin cos) s = .next t ∧ (vget t.fbk c).good = false ∧
          (vget t.fbk c).amp = true ∧ (vget t.fbk c).count = x.count ∧ (vget t.fbk c).a2 = a2) ∧
        (¬ (a2 < x.amin ∨ x.amax < a2) → x.hasPair = false → ∃ t, exec (.sincosPair c sin cos) s = .next t ∧
          (vget t.fbk c).fine = fine ∧ (vget t.fbk c).periods = x.periods ∧ (vget t.fbk c).goodRun = x.goodRun + 1 ∧
          (vget t.fbk c).count = (if x.invDir then -(x.periods * 2 ^ 20 + fine.setWidth 64) else x.periods * 2 ^ 20 + fine.setWidth 64))) ∧
      (ssiDue s c = true →
        exec (.ssiFrameStart c true) s = .next (settle { s with fbk := vset s.fbk c { x with ssiRun := some s.time.it } }) ∧
        ∃ t, exec (.ssiFrameStart c false) s = .next t ∧ (vget t.fbk c).frame = true ∧ (vget t.fbk c).good = false ∧
          (vget t.fbk c).ssiRun = none ∧ (vget t.fbk c).ssiEnd = s.time.it) ∧
      (x.mode = 5 → x.ssiRun.isSome = true → ∀ bits : BitVec 49,
        ((frameData x bits).2 = true → ∃ t, exec (.ssiFrameEnd c bits) s = .next t ∧ (vget t.fbk c).good = true ∧
          (vget t.fbk c).ssiRun = none ∧ (vget t.fbk c).ssiPrev = some (BitVec.ofNat 48 (frameData x bits).1) ∧
          (x.ssiPrev = none → x.invDir = false → (vget t.fbk c).count = BitVec.ofNat 64 (frameData x bits).1)) ∧
        ((frameData x bits).2 = false → ∃ t, exec (.ssiFrameEnd c bits) s = .next t ∧ (vget t.fbk c).good = false ∧
          (vget t.fbk c).frame = true ∧ (vget t.fbk c).count = x.count)) ∧
      (x.good = false → x.badFault = false → x.badSince.toNat + 16000 * x.cableT.toNat ≤ s.time.it.toNat →
        ∃ t, exec (.cableTimeout c) s = .next t ∧ (vget t.fbk c).cable = true ∧ (vget t.fbk c).badFault = true ∧
          (vget t.flt (fidSlot (fbkFid c))).a.cause.getLsbD 10 = true)) ∧
    (s.island.vaon = true → s.island.good.getLsbD 0 = true → x.held = false → s.time.it.toNat % 16000 = 0 →
      exec (.fbkObsUpdate c) s = .next (settle { s with fbk := vset s.fbk c { x with
        otag := x.otag.bump, ogood := x.good, opos := fbkSample s c, oang := elecAngle x (fbkSample s c),
        oa2 := if x.mode = 4 then x.a2 else 0 } })) ∧
    (∀ (w : Master) (off : BitVec 12) (v : BitVec 64), fbkConfigReg off.toNat = true → Admits w (fbkBase c + off.toNat) s →
      (∀ y, fbkInUse s c = false → fbkConfig x off.toNat v = some y →
        exec (.fbkConfigWrite w c off v) s = .next (settle { s with fbk := vset s.fbk c y })) ∧
      (fbkInUse s c = true ∨ fbkConfig x off.toNat v = none →
        exec (.fbkConfigWrite w c off v) s = .next (settle { s with fbk := vset s.fbk c { x with ign := satInc x.ign } })))

/-- The errors of a sin/cos pair (R302): an amplitude outside AMIN to AMAX sets AMP, a fine that differs from the
previous pair's by a quarter period or more sets OVERSPEED, and such a pair changes neither fine nor the period counter.
-/
def Obligations.SincosPairErrors : Prop :=
  ∀ (s : State) (c : Fin 40) (sin cos : BitVec 16), fbkWorks s c = true → (vget s.fbk c).mode = 4 → s.time.it.toNat % 800 = 0 →
    let x := vget s.fbk c
    let gap := (pairFine x sin cos - x.rawFine).toNat
    let out := pairA2 x sin cos < x.amin ∨ x.amax < pairA2 x sin cos
    let fast := x.hasPair = true ∧ 2 ^ 18 ≤ gap ∧ 2 ^ 20 - gap ≥ 2 ^ 18
    ∃ t, exec (.sincosPair c sin cos) s = .next t ∧
      (out → (vget t.fbk c).amp = true) ∧ (¬ out → (vget t.fbk c).amp = x.amp) ∧
      (fast → (vget t.fbk c).ospeed = true) ∧ (¬ fast → (vget t.fbk c).ospeed = x.ospeed) ∧
      (out ∨ fast → (vget t.fbk c).fine = x.fine ∧ (vget t.fbk c).periods = x.periods ∧ (vget t.fbk c).count = x.count) ∧
      (vget t.fbk c).rawFine = pairFine x sin cos

/-- Compare outputs and capture latches (R311 to R316). -/
def Obligations.CompareCapture : Prop :=
  ∀ (s : State) (n : Fin 16),
    let m := vget s.cc.cmp n
    let p := vget s.cc.cap n
    (∀ (w : Master) (v : BitVec 32), v.getLsbD 6 = true → Admits w (ccBase + 0x100 * n.val) s →
      (m.en = true → exec (.cmpEnable w n v) s = .next (settle s)) ∧
      (m.en = false → ∃ t c, exec (.cmpEnable w n v) s = .next t ∧ vget t.cc.cmp n = c ∧ c.en = true ∧ c.ptr = 0 ∧ c.k = 0 ∧
        c.done = false ∧ c.nfired = 0 ∧ c.dir = BitVec.ofNat 2 (fld v.toNat 7 2) ∧ c.periodic = v.getLsbD 9 ∧
        c.cyclic = v.getLsbD 10 ∧ c.prev = (if (vget s.fbk ⟨c.src.toNat % 40, by omega⟩).good
          then some (vget s.fbk ⟨c.src.toNat % 40, by omega⟩).count else none) ∧
        (∀ i, i ≠ n → vget t.cc.cmp i = vget s.cc.cmp i) ∧ t.cc.cap = s.cc.cap ∧ t.mem = s.mem)) ∧
    (ccWorks s = true → m.high = true → m.pulseEnd ≤ s.time.it → exec (.cmpPulseEnd n) s = .next (settle { s with
      cc := { s.cc with cmp := vset s.cc.cmp n { m with high := false } } })) ∧
    (∀ (rising : Bool) (ball : Time), ccWorks s = true → (p.edge = 3 ∨ p.edge = if rising then 1 else 2) →
      filterOk s p.filt p.edgeIt ball = true → s.rat.reopened = none →
      let taken := { p with
        edgeIt := ball, tag := p.tag.bump, level := rising, it := ball,
        pos := if p.src = 63 then 0 else fbkSample s ⟨p.src.toNat % 40, by omega⟩,
        posValid := decide (p.src ≠ 63) && fbkValid s ⟨p.src.toNat % 40, by omega⟩ }
      (p.tag.valid = false → ∃ t, exec (.captureEdge n rising ball) s = .next t ∧ vget t.cc.cap n = taken) ∧
      (p.tag.valid = true → p.keep = false → ∃ t, exec (.captureEdge n rising ball) s = .next t ∧
        vget t.cc.cap n = { taken with ovr := satInc p.ovr }) ∧
      (p.tag.valid = true → p.keep = true → ∃ t, exec (.captureEdge n rising ball) s = .next t ∧
        vget t.cc.cap n = { p with edgeIt := ball, ovr := satInc p.ovr })) ∧
    (∀ (cur prev : BitVec 64), m.periodic = false → m.cyclic = false → m.done = false →
      m.prev = some prev → m.ptr.toNat < m.llen.toNat →
      let target := listEntry s (m.lbase.toNat + m.ptr.toNat)
      (reached m.dir prev.toInt cur.toInt target = false → vget (evalCmp true cur n s).cc.cmp n = { m with prev := some cur }) ∧
      (reached m.dir prev.toInt cur.toInt target = true → (vget (evalCmp true cur n s).cc.cmp n).high = true ∧
        (vget (evalCmp true cur n s).cc.cmp n).fired = satInc m.fired ∧
        (vget (evalCmp true cur n s).cc.cmp n).pulseEnd = s.time.it + 40 * m.pw.setWidth 64 ∧
        m.ptr.toNat < (vget (evalCmp true cur n s).cc.cmp n).ptr.toNat))

/-- CAN controllers (R318 to R333): a valid frame is stored in the object that takes it, an attempt offers the pending
object of the lowest arbitration field with CAN_TSC as its timestamp, ends SENT, lost or in error, and the error counters
give the error state; a controller of MODE 1 takes an FD frame for a form error. -/
def Obligations.CanControllers : Prop :=
  ∀ (s : State) (k : Fin 4), s.rat.reopened = none →
    let c := vget s.can k
    (∀ (f : CanFrame) (sof : BitVec 32) (rivals : List Rival), canOnBus s k = true → c.loop = false → c.tx = none →
      ¬ (f.fdf = true ∧ c.mode = 1) → ¬ (f.fdf = true ∧ f.rtr = true) → sofFits c.nbt c.dbt f sof s.tsc = true →
      exec (.frameReceived k f sof rivals) s = .next (settle (receive k f sof rivals { s with
        can := vset s.can k { c with flag := none } })) ∧
      (c.rec_ = 0 → matchObj c f = none → exec (.frameReceived k f sof []) s = .next (settle { s with
        can := vset s.can k { c with flag := none, unmatched := satInc c.unmatched } })) ∧
      (∀ j, c.rec_ = 0 → matchObj c f = some j → (vget c.mo j).mapped = false →
        let m := vget c.mo j
        ((8 ≤ j.val ∨ m.hold = false ∨ m.tag.valid = false) → ∃ t, exec (.frameReceived k f sof []) s = .next t ∧
          (vget (vget t.can k).mo j).rxid = frameIdent f ∧ (vget (vget t.can k).mo j).ts = sof ∧
          (vget (vget t.can k).mo j).dlc = f.dlc ∧ (vget (vget t.can k).mo j).tag = m.tag.bump ∧
          (vget (vget t.can k).mo j).lost = (m.lost || m.tag.valid) ∧
          (∀ i : Fin 16, vget (vget (vget t.can k).mo j).data i = BitVec.ofNat 32 (leAt (payload f) (4 * i) 4)) ∧
          (∀ i, i ≠ j → vget (vget t.can k).mo i = vget c.mo i) ∧ t.mem = s.mem) ∧
        (j.val < 8 → m.hold = true → m.tag.valid = true → exec (.frameReceived k f sof []) s = .next (settle { s with
          can := vset s.can k { c with flag := none, mo := vset c.mo j { m with lost := true } } })))) ∧
    (∀ (f : CanFrame) (sof : BitVec 32), canOnBus s k = true → c.loop = false → c.tx = none → f.fdf = true → c.mode = 1 →
      c.tec.toNat < 256 → ∃ t, exec (.frameReceived k f sof []) s = .next t ∧ (vget t.can k).lec = 2 ∧
        (vget t.can k).rec_.toNat = min 255 (c.rec_.toNat + 1) ∧ (vget t.can k).mo = c.mo) ∧
    (∀ j : Fin 64, offer c = some j → canOnBus s k = true → c.tx = none → c.listen = false →
      c.stopTx = false → ((∀ i, (vget c.mo i).pend = true → arbField (vget c.mo j) ≤ arbField (vget c.mo i)) ∧
        exec (.transmissionAttempt k) s = .next (settle { s with can := vset s.can k { c with
          tx := some (j, s.tsc), sofAt := s.time.it, flag := none, mo := vset c.mo j { vget c.mo j with att := some s.tsc } } }))) ∧
    (∀ (j : Fin 64) (sof : BitVec 32), c.tx = some (j, sof) → canOnBus s k = true →
      let m := vget c.mo j
      (∀ delay, (tdcRuns c m = true → delay ≤ tdcMax) →
        exec (.frameSent k delay) s = .next (settle (frameSent k j sof delay s)) ∧
        (c.loop = false → c.tec.toNat < 128 → c.rec_.toNat < 128 → ∃ t, exec (.frameSent k delay) s = .next t ∧
          (vget t.can k).tx = none ∧ (vget t.can k).tec = (if c.tec = 0 then 0 else c.tec - 1) ∧ (vget t.can k).st = .active ∧
          (vget t.can k).tdcv = (if tdcRuns c m then delay else c.tdcv) ∧
          (vget (vget t.can k).mo j).pend = false ∧ (vget (vget t.can k).mo j).txres = 0 ∧
          (vget (vget t.can k).mo j).tag = m.tag.bump)) ∧
      (c.loop = false → ∃ t, exec (.arbitrationLost k) s = .next t ∧ (vget t.can k).tx = none ∧
        (vget t.can k).arblost = satInc c.arblost ∧
        (m.oneshot = false → (vget (vget t.can k).mo j).pend = m.pend) ∧
        (m.oneshot = true → (vget (vget t.can k).mo j).pend = false ∧ (vget (vget t.can k).mo j).txres = 3)) ∧
      (∀ e : CanErr, errFits c e = true → 1 ≤ e.lec → e.lec ≤ 6 → e.tx = true → c.tec.toNat < 248 →
        ∃ t, exec (.canError k e) s = .next t ∧ (vget t.can k).lec = e.lec ∧ (vget t.can k).tx = none ∧
          (vget t.can k).tec.toNat = c.tec.toNat + (if e.exempt then 0 else 8) ∧
          ((vget t.can k).st = if 128 ≤ (vget t.can k).tec.toNat ∨ 128 ≤ c.rec_.toNat then .passive else .active)) ∧
      (∀ e : CanErr, errFits c e = true → 1 ≤ e.lec → e.lec ≤ 6 → e.exempt = false → e.tx = true → 248 ≤ c.tec.toNat →
        c.tec.toNat < 256 → c.autorec = false → ∃ t, exec (.canError k e) s = .next t ∧ (vget t.can k).st = .busOff ∧
          (vget t.can k).tx = none ∧ ∀ i, (vget (vget t.can k).mo i).pend = false)) ∧
    (∀ e : CanErr, errFits c e = true → canOnBus s k = true → 1 ≤ e.lec → e.lec ≤ 6 →
      exec (.canError k e) s = .next (settle (canError k e s)) ∧
      (e.tx = false → c.tec.toNat < 256 → ∃ t, exec (.canError k e) s = .next t ∧ (vget t.can k).lec = e.lec ∧
        (vget t.can k).rec_.toNat = min 255 (c.rec_.toNat + if e.heavy then 8 else 1) ∧ (vget t.can k).tec = c.tec ∧
        ((vget t.can k).st = if 128 ≤ c.tec.toNat ∨ 128 ≤ (vget t.can k).rec_.toNat then .passive else .active))) ∧
    (∀ (w : Master) (j : Fin 64), Admits w (moBase k j + 0x1C) s →
      let m := vget c.mo j
      let free := m.en && m.tx && !m.pend && !c.listen && !c.off && (c.mode ≠ 0) && !(m.fdf && c.mode = 1) && !(m.fdf && m.rtr)
      let Ign := fun (i : Instr) => exec i s = .next (settle { s with can := vset s.can k { c with ign := satInc c.ign } })
      (free = true → exec (.txreq w k j) s = .next (settle { s with
        can := vset s.can k { c with mo := vset c.mo j { m with pend := true, att := none } } })) ∧
      (free = false → Ign (.txreq w k j)) ∧
      (m.pend = false → Ign (.cancel w k j)) ∧
      (m.pend = true → c.tx = none → ∃ t, exec (.cancel w k j) s = .next t ∧ (vget (vget t.can k).mo j).pend = false ∧
        (vget (vget t.can k).mo j).txres = 1 ∧ (vget (vget t.can k).mo j).tag = m.tag.bump) ∧
      (∀ sof, m.pend = true → c.tx = some (j, sof) → exec (.cancel w k j) s = .next (settle { s with
        can := vset s.can k { c with canref := satInc c.canref } }))) ∧
    (∀ w : Master, Admits w (canBase k + 0x10) s →
      (c.st = .busOff → ∃ t, exec (.recover w k) s = .next t ∧ (vget t.can k).st = .integrating ∧ (vget t.can k).recovering = true) ∧
      (c.st ≠ .busOff → exec (.recover w k) s = .next (settle { s with can := vset s.can k { c with ign := satInc c.ign } }))) ∧
    (canWorks s k = true → c.st = .integrating →
      (c.recovering = true → ∃ t, exec (.busOffRecoveryDone k) s = .next t ∧ (vget t.can k).st = .active ∧
        (vget t.can k).recovering = false ∧ (vget t.can k).tec = 0 ∧ (vget t.can k).rec_ = 0) ∧
      (c.recovering = false → ∃ t, exec (.busIntegrationDone k) s = .next t ∧ (vget t.can k).st = .active ∧
        (vget t.can k).tec = c.tec)) ∧
    (∀ (w : Master) (j : Fin 64) (v : BitVec 32), (vget c.mo j).mapped = false →
      let m := vget c.mo j
      let m1 := { m with id := v.setWidth 29 }
      let m0 := { m with cfg := v.setWidth 16 &&& (if j.val < 8 then 0xF0FF else 0xF17F) }
      let Writes := fun (id : Bool) (n : MsgObj) =>
        (m.pend = false ∧ (claimsIdent id m n = true → clashes c j n = false) → exec (.moConfigWrite w k j id v) s =
          .next (settle { s with can := vset s.can k { c with mo := vset c.mo j n } })) ∧
        (m.pend = true ∨ (claimsIdent id m n = true ∧ clashes c j n = true) → exec (.moConfigWrite w k j id v) s =
          .next (settle { s with can := vset s.can k { c with ign := satInc c.ign } }))
      (Admits w (moBase k j + 4) s → Writes true m1) ∧ (Admits w (moBase k j) s → Writes false m0))

/-- CANCEL (R327): with no attempt of the object's frame in progress a pending object completes with CANCELLED; while
one is, the cancel is counted in CANREF and nothing else of it remains, so that the attempt's own end decides; with PEND
0 it is ignored and counted in CAN_IGN. -/
def Obligations.CancelPendingFrame : Prop :=
  ∀ (s : State) (w : Master) (k : Fin 4) (j : Fin 64), Admits w (moBase k j + 0x1C) s →
    let c := vget s.can k
    let m := vget c.mo j
    (m.pend = true → (∀ sof, c.tx ≠ some (j, sof)) → ∃ t, exec (.cancel w k j) s = .next t ∧
      (vget (vget t.can k).mo j).pend = false ∧ (vget (vget t.can k).mo j).txres = 1 ∧
      (vget (vget t.can k).mo j).tag = m.tag.bump ∧ (∀ i, i ≠ j → vget (vget t.can k).mo i = vget c.mo i) ∧
      (vget t.can k).tx = c.tx) ∧
    (∀ sof, m.pend = true → c.tx = some (j, sof) → ∃ t, exec (.cancel w k j) s = .next t ∧
      t = settle { s with can := vset s.can k { c with canref := satInc c.canref } } ∧
      (canOnBus s k = true → c.loop = false → m.oneshot = false → ∃ u, exec (.arbitrationLost k) t = .next u ∧
        (vget (vget u.can k).mo j).pend = true ∧ (vget u.can k).tx = none) ∧
      (canOnBus s k = true → c.loop = false → ∀ delay, (tdcRuns c m = true → delay ≤ tdcMax) → ∃ u, exec (.frameSent k delay) t = .next u ∧
        (vget (vget u.can k).mo j).pend = false ∧ (vget (vget u.can k).mo j).txres = 0)) ∧
    (m.pend = false → exec (.cancel w k j) s = .next (settle { s with can := vset s.can k { c with ign := satInc c.ign } }))

/-! ### Display (15) -/

/-- Commits, fetches and signatures of the compositor (R344 to R350): GO keeps a checked set until a commit point 1 µs
later applies it, or leaves the code of the first breach; a fetch error makes its layer transparent; an underflow counts
once in a frame; a region's CRC is compared, learnt and reported. The DisplayPort link (R336, R339): the link follows the sink
whatever fence stands: a rise of HPD starts training, which ends up with the plan's lanes and rate; a fall of HPD or a lost lock takes the link down; a link
that is not up is trained again. -/
def Obligations.DisplayFramesAndLink : Prop :=
  (∀ (s : State) (r : DspRec), dspRuns s = some r →
     let d := s.dsp
     (∀ (w : Master) (evt : Bool), Admits w (dspBase + 0x008) s →
       (d.pend = true → exec (.dspCommitGo w evt) s = .next (settle { s with dsp := { d with evt := evt, ign := satInc d.ign } })) ∧
       (d.pend = false → commitCode r d.shadow = 0 → exec (.dspCommitGo w evt) s = .next (settle { s with
         dsp := { d with evt := evt, pend := true, goIt := s.time.it } })) ∧
       (d.pend = false → commitCode r d.shadow ≠ 0 → ∃ t, exec (.dspCommitGo w evt) s = .next t ∧
         t.dsp = { d with evt := evt, ccode := commitCode r d.shadow, ctag := d.ctag.bump })) ∧
     (s.time.it.toNat % fPer = 0 → s.rat.reopened = none → ∃ t, exec .commitPoint s = .next t ∧ t.dsp.frame = s.time.it ∧ t.dsp.shadow = d.shadow ∧
       t.dsp.missed = [] ∧ (d.clearReq = false → t.dsp.errscr = (d.errscr || d.errNext)) ∧
       (d.clearReq = true → (∀ n, (vget d.sigres n).badNow = false) → t.dsp.errscr = d.errNext) ∧
       (d.pend = true → d.goIt.toNat + 16000 ≤ s.time.it.toNat → t.dsp.active = d.shadow ∧ t.dsp.pend = false ∧
         t.dsp.ccode = 0 ∧ t.dsp.cit = s.time.it ∧ t.dsp.dead = []) ∧
       (d.pend = false ∨ s.time.it.toNat < d.goIt.toNat + 16000 → t.dsp.active = d.active ∧ t.dsp.pend = d.pend ∧
         t.dsp.ccode = d.ccode)) ∧
     (∀ (n : Fin 6) (poison : Bool) (a : Pa) (px : Nat), fetchesAt s r.hact.toNat n a.toNat px = true →
       fetchFails s poison a.toNat = true → s.rat.reopened = none →
       ∃ t, exec (.layerFetchError n poison a px) s = .next t ∧
         t.dsp = { d with dead := d.dead ++ [(n, px)], fetchErr := satInc d.fetchErr } ∧
         (vget t.flt (fidSlot dspFid)).a.cause.getLsbD (if poison then 2 else 1) = true) ∧
     (∀ (n : Fin 6) (px : Nat), layerReads s n = true → d.clear n px = false → pixAddrs s r.hact.toNat n px ≠ [] →
       s.rat.reopened = none →
       (d.missed = [] → ∃ t, exec (.underflow n px) s = .next t ∧
         t.dsp = { d with missed := [(n, px)], under := satInc d.under }) ∧
       (d.missed ≠ [] → exec (.underflow n px) s = .next (settle { s with
         dsp := { d with missed := d.missed ++ [(n, px)] } }))) ∧
     (∀ lim : Nat, (∀ n, firstFailure s r.hact.toNat n lim = none) → fetchUpTo r.hact.toNat lim s = s) ∧
     (∀ n : Fin 8, sigOn r n (vget d.active.sig n) = true → (vget d.sigres n).it ≠ d.frame → s.rat.reopened = none →
       let g := vget d.active.sig n
       let x := vget d.sigres n
       let u := fetchUpTo r.hact.toNat ((g.y.toNat + g.h.toNat - 1) * r.hact.toNat + g.x.toNat + g.w.toNat) s
       let e := u.dsp
       let crc := crc32 (sigBytes u r.hact.toNat g)
       let y := { x with crc := crc, tag := x.tag.bump, it := d.frame }
       (g.mode = 1 ∨ g.mode = 2 ∧ x.learned = true → crc = g.exp → exec (.signatureResult n) s = .next (settle { u with dsp := { e with
         sigres := vset d.sigres n { y with compared := true, match_ := true, badNow := false } } })) ∧
       (g.mode = 1 ∨ g.mode = 2 ∧ x.learned = true → crc ≠ g.exp → ∃ t, exec (.signatureResult n) s = .next t ∧ t.dsp = { e with
         sigres := vset d.sigres n { y with compared := true, match_ := false, badNow := true },
         mismatch := satInc d.mismatch, errNext := d.errNext || decide (r.sigreact ≠ 0) } ∧
         (r.sigreact = 2 → (vget t.flt (fidSlot dspFid)).a.cause.getLsbD 6 = true)) ∧
       (g.mode = 2 → x.learned = false → exec (.signatureResult n) s = .next (settle { u with dsp := { e with
         sigres := vset d.sigres n { y with compared := false, match_ := false, learned := true, badNow := false },
         active := d.active.setExp n crc, shadow := d.shadow.setExp n crc } }))) ∧
     (∀ w : Master, Admits w (dspBase + 0x040) s → exec (.sigackClear w) s = .next (settle { s with
       dsp := { d with clearReq := true } }))) ∧
  (∀ s : State, dpRec s = none →
     exec .hpdRise s = .next (settle { s with dsp := { s.dsp with hpd := true } }) ∧
     exec (.hpdFall false) s = .next (settle { s with dsp := { s.dsp with hpd := false } })) ∧
  (∀ (s : State) (r : DspRec), dpRec s = some r → s.rat.reopened = none →
     let d := s.dsp
     (d.link ≠ .up → exec .hpdRise s = .next (settle { s with dsp := { d with hpd := true, link := .training, lanes := 0, rate := 0 } })) ∧
     (d.link = .up → exec .hpdRise s = .next (settle { s with dsp := { d with hpd := true } })) ∧
     (d.hpd = true → ∃ t, exec (.hpdFall false) s = .next t ∧
       t.dsp = { d with hpd := false, link := .down, lanes := 0, rate := 0 }) ∧
     (d.hpd = false → exec (.hpdFall false) s = .next (settle { s with dsp := { d with hpd := false } })) ∧
     (d.link = .up → ∃ t, exec (.hpdFall true) s = .next t ∧ t.dsp = { d with link := .down, lanes := 0, rate := 0 }) ∧
     (d.link = .training → ∃ t, exec .dpTrainingDone s = .next t ∧
       t.dsp = { d with link := .up, lanes := r.lanes, rate := r.rate.setWidth 2 }) ∧
     (d.hpd = true → d.link ≠ .up → ∃ t, exec .dpTrainingRetry s = .next t ∧
       t.dsp = { d with link := .training, lanes := 0, rate := 0 }))

/-! ### Power and the monitors (16) -/

/-- The loops that move a domain's step and voltage (R353 to R358, R361, R362): the current loop lowers the step of a
domain above its limit by one, the thermal loop its cap by two, a raise takes effect when READ_VOUT gives its voltage, the
voltage follows a lowered step after 1 ms, a droop stretches the clock until it ends. -/
def Obligations.PowerLoops : Prop :=
  ∀ (s : State) (d : Fin 5), domLive s d = true →
    let x := vget s.power.dom d
    let Takes := fun (c : Instr) (y : Domain) =>
      exec c s = .next (settle { s with power := { s.power with dom := vset s.power.dom d y } })
    (∀ (k : BitVec 6) (mode : BitVec 5) (read : BitVec 16), x.raiseTo = some k → s.power.pmbErr = false →
      nearVolt mode read x.vout.toNat = true → exec (.voutSettled d mode read) s = .next (settle { s with
        power := { s.power with
          dom := vset s.power.dom d { x with step := k, raises := satInc x.raises, raiseTo := none, vexp := mode }
          bus := [{ rail := domRail d, cmd := .voutMode }, { rail := domRail d, cmd := .readVout }] } })) ∧
    (x.raiseTo = none → voltOf d x.step x.trim < x.vout → 16000000 ≤ (s.time.it - x.lowSince).toNat →
      exec (.voltageLower d) s = .next (settle { s with power := { s.power with
        dom := vset s.power.dom d { x with vout := voltOf d x.step x.trim }
        bus := [{ rail := domRail d, cmd := .voutCommand
                  data := natLe 2 (linear16 x.vexp (voltOf d x.step x.trim).toNat).toNat }] } })) ∧
    (x.stretching = false → Takes (.droop d) { x with stretching := true, stretchCnt := satInc x.stretchCnt }) ∧
    (x.stretching = true → Takes (.stretchEnd d) { x with stretching := false }) ∧
    (∀ cur raw : Vector (BitVec 32) 5, s.rat.reopened = none → ∃ t, exec (.currentLoopEval cur raw) s = .next t ∧
      t.power.ptag = s.power.ptag.bump ∧ (vget t.power.dom d).raw = vget raw d ∧ (vget t.power.dom d).tag = x.tag.bump ∧
      (vget t.power.dom d).cap = x.cap ∧
      (curLimit d < calibrated s d (vget cur d) → (vget t.power.dom d).loop = if 10 < x.loop then x.loop - 1 else x.loop) ∧
      (let pest := ((List.finRange 5).map fun e => if domLive s e then calibrated s e (vget raw e) else 0).sum +
         otherPower s + 2000
       t.power.pest = BitVec.ofNat 32 pest ∧ t.power.energy = s.power.energy + pest)) ∧
    (∀ raw, calibrated s d raw =
      raw.toNat * (if s.power.pmbErr then 0x14000 else (vget s.power.dom d).gain.toNat) / 2 ^ 16) ∧
    (∀ temps : Vector (BitVec 16) 14, s.rat.reopened = none → ∃ t, exec (.thermalEval temps) s = .next t ∧
      (∀ g, tempLive s g = true → vget t.power.temp g = vget temps g ∧ vget t.power.tempTag g = (vget s.power.tempTag g).bump) ∧
      (∀ g, tempLive s g = false → vget t.power.temp g = vget s.power.temp g) ∧
      (tjMax - 48 ≤ (vget temps ⟨d, by omega⟩).toInt → 12 ≤ x.cap → (vget t.power.dom d).cap = x.cap - 2) ∧
      (d = 0 → (vget temps 0).toInt < tjMax - 128 → (vget temps 5).toInt < tjMax - 48 → x.cap < 40 →
        (vget t.power.dom d).cap = x.cap + 1) ∧
      (∀ g, tempLive s g = true → vget s.power.crit g = true → tjMax + 160 ≤ (vget temps g).toInt →
        (vget t.flt (fidSlot islandFid)).a.cause.getLsbD 11 = true ∧
        ∀ a, (vget t.axes a).st = .safe ∨ (vget t.axes a).st = .held))

/-- The monitors (R365 to R373): rail reports, energy that the partitions and the common total share out whole, ageing
that raises a trim by one unit at most, regulator faults and calibration, pace notices and issue limits. -/
def Obligations.PowerMonitors : Prop :=
  ∀ s : State, s.rat.reopened = none →
    (s.island.vaon = true →
      (∀ mv, exec (.railMonitorReport mv) s = .next (settle { s with
        power := { s.power with rail := mv, railTag := s.power.railTag.map Tag.bump } })) ∧
      (∀ status off, (∃ n, vget status n = none) → off = 0 → ∃ t, exec (.pmbAlert status off) s = .next t ∧ t.power.pmbErr = true) ∧
      (∀ status off, (∀ n, vget status n = some 0) → off = 0 → exec (.pmbAlert status off) s = .next (settle { s with
        power := { s.power with bus := pmbReads .statusWord fun _ => true } }))) ∧
    (s.island.mode = .full →
      (∀ (common : BitVec 64) (parts : Vector (BitVec 64) 32),
        let chip : BitVec 64 := BitVec.ofNat 64 (s.power.energy / 1000)
        ∃ t, exec (.energyUpdate common parts) s = .next t ∧
        t = settle { s with power := t.power } ∧
        t.power = { s.power with
          energy := s.power.energy % 1000, etag := s.power.etag.bump, echip := s.power.echip + chip, ecommon := t.power.ecommon, epart := t.power.epart } ∧
        (s.power.mode1 = true → t.power.ecommon = s.power.echip + chip ∧ ∀ p, vget t.power.epart p = 0) ∧
        (s.power.mode1 = false → (t.power.ecommon - s.power.ecommon) +
          ((List.finRange 32).map fun p => vget t.power.epart p - vget s.power.epart p).sum = chip)) ∧
      (∀ ppm : Vector (BitVec 24) 5, ∃ t, exec (.ageingMeasurement ppm) s = .next t ∧ ∀ d,
        (vget t.power.dom d).d = vget ppm d ∧ (vget t.power.dom d).ageHours = s.island.hours.setWidth 24 ∧
        (vget t.power.dom d).trim = (let old := presentTrim s d
          if old.toNat < ((vget ppm d).toNat + 1499) / 1500 ∧ old < 20 then old + 1 else old)) ∧
      (∀ pout : Vector PmbAnswer 14,
        ((∀ n, ∃ mw, vget pout n = .value mw) → ∃ t, exec (.pmbusCalibration pout) s = .next t ∧ t.power.pmbErr = false ∧
          (∀ n mw, vget pout n = .value mw → vget t.power.railPow n = mw) ∧
          ∀ (d : Fin 5) (mw : BitVec 32), vget pout ⟨4 + d, by omega⟩ = .value mw → (vget t.power.dom d).gain =
            gainOf mw (vget s.power.dom d).raw (vget s.power.dom d).gain) ∧
        ((∃ n, ∀ mw, vget pout n ≠ .value mw) → ∃ t, exec (.pmbusCalibration pout) s = .next t ∧ t.power.pmbErr = true)) ∧
      (∀ v : Vector (BitVec 16) 4,
        let u := ratioNow { s with power := { s.power with frac := v } }
        (paceDue u = false → exec (.paceNoticeSend v) s = .next (settle u)) ∧
        (paceDue u = true → paceRatio u < u.power.thresh.toNat → ∃ t, exec (.paceNoticeSend v) s = .next t ∧
          t.power.pacing = true ∧ t.power.paceCnt = satInc s.power.paceCnt ∧ t.power.lastSent = s.time.it ∧
          t.power.lastRatio = BitVec.ofNat 8 (paceRatio u) ∧
          t.power.lastUntil = s.time.it + BitVec.ofNat 64 (16000 * s.power.hold.toNat)) ∧
        (paceDue u = true → u.power.thresh.toNat ≤ paceRatio u → ∃ t, exec (.paceNoticeSend v) s = .next t ∧
          t.power.pacing = false ∧ t.power.paceCnt = satInc s.power.paceCnt)) ∧
      (s.power.mode1 = false → ∀ (avg : Vector (BitVec 32) 32) (p : Fin 32), (vget s.parts p).assigned = true →
        vget s.power.budget p ≠ 0xFFFF →
        let cap := (vget s.power.budget p).toNat * 250
        let i := vget s.power.issue p
        ∃ t, exec (.budgetEval avg) s = .next t ∧ t = settle { s with power := { s.power with issue := t.power.issue } } ∧
          (cap < (vget avg p).toNat → vget t.power.issue p = if 1 < i then i - 1 else i) ∧
          ((vget avg p).toNat * 100 < cap * 90 → vget t.power.issue p = if i < 8 then i + 1 else i) ∧
          ((vget avg p).toNat ≤ cap → cap * 90 ≤ (vget avg p).toNat * 100 → vget t.power.issue p = i) ∧
          ∀ n : Fin 64, (vget s.tiles n).lane = true → tileIssue t n = 8))

/-! ### Faults, resets and the freeze (17) -/

/-- Fault causes (R375 to R385): a detected cause is set in both copies with its class's reaction, a difference between
the copies sets DUP, a drain that does not end sets DRAIN; a cause whose condition is gone is cleared by a write, one
that persists is refused; a partition reopens unless a cause forbids it. -/
def Obligations.FaultCauses : Prop :=
  (∀ (s : State) (f : Fid), fidOk f = true → powered s f = true → s.rat.reopened = none →
    let x := vget s.flt (fidSlot f)
    let Sets := fun (c : Instr) (bit : Nat) => ∃ t, exec c s = .next t ∧
      (vget t.flt (fidSlot f)).a.cause.getLsbD bit = true ∧ (vget t.flt (fidSlot f)).b.cause.getLsbD bit = true ∧
      (causeClass f bit = 1 → (vget t.flt (fidSlot f)).fence = true) ∧
      (causeClass f bit = 2 → ∀ p, partOf s f = some p → (vget t.parts p).fenced = true) ∧
      (causeClass f bit = 3 → fidType f = 7 → ∀ a : Fin 32, a.val = fidIdx f →
        (vget t.axes a).st = .safe ∨ (vget t.axes a).st = .held) ∧
      (causeClass f bit = 4 → ∀ a, (vget t.axes a).st = .safe ∨ (vget t.axes a).st = .held)
    (∀ bit : Fin 12, bit ≠ 0 → causeOn f bit = true → Sets (.faultDetected f bit) bit) ∧
    (∃ t, exec (.faultDetected f 0) s = .next t ∧ (vget t.flt (fidSlot f)).a.cause.getLsbD 0 = true ∧
      (vget t.flt (fidSlot f)).corr = satInc x.corr ∧ (vget t.flt (fidSlot f)).fence = x.fence ∧ t.axes = s.axes) ∧
    (∀ flip : BitVec 12, x.a.cause = x.b.cause → flip ≠ 0 → Sets (.dupMismatch f flip) 7) ∧
    (isFenced s f = true → Sets (.drainTimeout f) 8)) ∧
  (∀ (s : State) (w : Master) (f : Fid) (bit : Fin 12), fidOk f = true → Admits w (slotBase f) s → s.rat.reopened = none →
    let x := vget s.flt (fidSlot f)
    x.a.cause.getLsbD bit = true →
    (persists s f bit = true → ∃ t, exec (.faultCauseClear w f (1#12 <<< bit.val)) s = .next t ∧
      (vget t.flt (fidSlot f)).a.cause.getLsbD bit = true ∧
      (vget t.flt (fidSlot f)).refused = satInc x.refused) ∧
    (persists s f bit = false → ∃ t, exec (.faultCauseClear w f (1#12 <<< bit.val)) s = .next t ∧
      (vget t.flt (fidSlot f)).a.cause.getLsbD bit = false ∧ (vget t.flt (fidSlot f)).b.cause.getLsbD bit = false ∧
      (∀ b : Fin 12, b ≠ bit → x.a.cause.getLsbD b = true → (vget t.flt (fidSlot f)).a.cause.getLsbD b = true) ∧
      (1 ≤ faultClass s f → maskClass f (x.a.cause &&& ~~~(1#12 <<< bit.val)) = 0 → partFenced s f = false →
        (vget t.flt (fidSlot f)).fence = false ∧
        (fidType f = 7 → ∀ a : Fin 32, a.val = fidIdx f → (vget s.axes a).st = .safe → (vget t.axes a).st = .disabled)))) ∧
  (∀ (s : State) (w : Master) (p : Fin 32), Admits w (pctrlAddr p) s →
    ((vget s.parts p).fenced = false → exec (.reopen w p) s = .next (settle s)) ∧
    ((vget s.parts p).fenced = true → reopenBlocked s p = true → exec (.reopen w p) s = .next (settle { s with
      parts := vset s.parts p { vget s.parts p with refused := satInc (vget s.parts p).refused } })) ∧
    ((vget s.parts p).fenced = true → reopenBlocked s p = false → ∃ t, exec (.reopen w p) s = .next t ∧
      (vget t.parts p).fenced = false))

/-- Reset and release by FID (R386 to R388): an accepted request stops the work at once and is in progress until it
completes, or is refused with its code; a
reset holds a tile, a core, an engine's axes; a release lets a tile run again and starts a core at its reset vector. -/
def Obligations.ResetAndRelease : Prop :=
  (∀ (s : State) (w : Master) (p : Fin 32) (f : Fid), Admits w (rstBase p) s →
    ∀ (c : Instr) (act : BitVec 2), (c, act) ∈ [(Instr.rstReset w p f, 0#2), (.rstRelease w p f, 1#2)] →
    let x := vget s.parts p
    let y := { x with reqFid := f, reqAct := act }
    let s1 := { s with parts := vset s.parts p y }
    (x.reqBusy = true → exec c s = .next (settle { s with parts := vset s.parts p { y with ign := satInc x.ign } })) ∧
    (x.reqBusy = false → rstRefusal s1 ⟨p, by omega⟩ f act = none → exec c s = .next (settle { (if act = 0 then resetBegin f s1 else s1) with
      parts := vset s.parts p { y with reqBusy := true },
      flt := vmod s.flt (fidSlot f) fun z => { z with busy := some (decide (act = 1), ⟨p, by omega⟩) } })) ∧
    (∀ code, x.reqBusy = false → rstRefusal s1 ⟨p, by omega⟩ f act = some code → ∃ t, exec c s = .next t ∧
      vget t.parts p = { y with resFid := f, resAct := act, resCode := code, resTag := x.resTag.bump } ∧
      (vget t.flt (fidSlot f)).busy = (vget s.flt (fidSlot f)).busy)) ∧
  (∀ (s : State) (f : Fid) (rel : Bool) (set : Fin 33), fidOk f = true → (vget s.flt (fidSlot f)).busy = some (rel, set) →
    s.rat.reopened = none →
    ∃ t, exec (.resetDone f) s = .next t ∧ (vget t.flt (fidSlot f)).busy = none ∧
      (∀ p : Fin 32, set.val = p.val → (vget t.parts p).reqBusy = false ∧ (vget t.parts p).resCode = 0 ∧
        (vget t.parts p).resFid = f ∧ (vget t.parts p).resTag = (vget s.parts p).resTag.bump) ∧
      (rel = false → (∀ n : Fin 64, f = fidMk 2 n → (vget t.tiles n).held = true ∧ (vget t.tiles n).jobs = [] ∧
        (vget t.tiles n).gate = if (vget s.tiles n).lane then 0 else 2) ∧
        (∀ n : Fin 48, f = fidMk 1 n → (vget t.cores n).held = true ∧ (vget t.cores n).x = (vget s.cores n).x ∧
          (vget t.cores n).resv = none) ∧
        (∀ e : Fin 8, f = fidMk 6 e → (vget t.trd e).held = true ∧ ∀ i, (vget t.axes (engineAxis e i)).st = .held) ∧
        (∀ g : Fin 16, f = fidMk 3 g → (vget t.shuttle g).held = true)) ∧
      (rel = true → (∀ n : Fin 64, f = fidMk 2 n → (vget t.tiles n).held = false ∧
          (vget t.tiles n).gate = if (vget s.tiles n).lane then 0 else 1) ∧
        (∀ n : Fin 48, f = fidMk 1 n → ∀ v, coreVector s n = some v → (vget t.cores n).held = false ∧
          (vget t.cores n).pc = v ∧ (vget t.cores n).priv = .m) ∧
        (∀ g : Fin 16, f = fidMk 3 g → (vget t.shuttle g).held = false)))

/-- Freezes (R389 to R391): LOCAL asks for one at FRZ_ARM, but at least 1 µs from now, INSTALL sends the order at least
200 µs ahead; the instant latches the samples and setpoints; the image goes into the ring in memory. -/
def Obligations.Freezes : Prop :=
  ∀ s : State,
    let z := s.frz
    (∀ w : Master, Admits w (frzBase + 0x28) s → isFenced s frzFid = false →
      (z.pending = none → exec (.frzLocal w) s = .next (settle { s with frz := { z with
        pending := some { t := if z.arm < s.time.it + 16000 then s.time.it + 16000 else z.arm, source := 0,
                          late := decide (z.arm < s.time.it + 16000), origin := chipId s } } })) ∧
      (z.arm < s.time.it + 3200000 → ∃ t, exec (.frzInstall w) s = .next t ∧ t.frz.code = 3 ∧ t.frz.pending = z.pending ∧
        t.frz.orders = z.orders ∧ t.frz.tag = z.tag.bump) ∧
      (¬ z.arm < s.time.it + 3200000 → z.pending = none → exec (.frzInstall w) s = .next (settle { s with frz := { z with
        oseq := z.oseq + 1, seen := z.seen ++ [(chipId s, z.oseq)],
        orders := z.orders ++ [{ t := z.arm, origin := chipId s, oseq := z.oseq }],
        pending := some { t := z.arm, source := 1, late := false, origin := chipId s } } }))) ∧
    (∀ q, freezeDue s = some q →
      (z.writing.isSome = true → exec .freezeInstant s = .next (settle { s with frz := { z with
        pending := none, skip := satInc z.skip } })) ∧
      (z.writing = none → s.island.mode = .full → ∃ t m, exec .freezeInstant s = .next t ∧
        t.frz = { z with pending := none, writing := some m } ∧ m.it = frzAt s ∧ m.source = q.source ∧
        m.origin = q.origin ∧ m.tsc = s.tsc ∧ (∀ a, (vget m.axes a).1 = (vget s.axes a).spp ∧
          (vget m.axes a).2.1 = (vget s.axes a).fbPos) ∧ (∀ c, (vget m.fbk c).1 = fbkSample s c) ∧ t.mem = s.mem ∧
        (∀ k, (partOf s (canFid k)).isSome = true → (vget t.can k).frzTs = s.tsc ∧ (vget t.can k).frzIt = m.it)) ∧
      (z.writing = none → s.island.mode ≠ .full → ∃ t, exec .freezeInstant s = .next t ∧ t.frz.pending = none ∧
        t.frz.writing = none ∧ t.frz.code = 5 ∧ t.frz.it = frzAt s)) ∧
    (∀ m, z.writing = some m → s.rat.reopened = none → eventQueue s 0 = none →
      let a := z.base.toNat * 2 ^ 15 + (z.images + 1).toNat % 8 * 4096
      (∀ e, ratCheckRange s 0 a 4096 .store .plain = some e → ∃ t, exec .freezeImageWritten s = .next t ∧
        t.frz.writing = none ∧ t.frz.code = 1 ∧ t.frz.images = z.images ∧ t.mem = s.mem ∧ t.rat.errFid = frzFid) ∧
      (ratCheckRange s 0 a 4096 .store .plain = none →
        ratCheckRange s 0 (z.maddr.toNat * 8) z.mlen.toNat .load .plain = none →
        poisoned s (z.maddr.toNat * 8) z.mlen.toNat = false →
        let bytes := imageBytes s m (z.images + 1) (rdBytes s (z.maddr.toNat * 8) z.mlen.toNat)
        ∃ t, exec .freezeImageWritten s = .next t ∧ t.frz.writing = none ∧ t.frz.code = 0 ∧ t.frz.images = z.images + 1 ∧
          t.frz.fseq = z.images + 1 ∧ bytes.length = 4096 ∧ leNat (bytes.take 8) = m.it.toNat ∧
          ∀ b, rdByte t b = if a ≤ b ∧ b < a + 4096 then bytes.getD (b - a) 0 else rdByte s b))
end

