-- ==== Sys2Proof/Laws/State.lean ====
section
/-! SUPPORT. The accessors of State.lean and Ops.lean: what each update changes and, field by field, what it leaves alone. -/
namespace Sys2Proof.Machine

@[simp] theorem vget_vset_same {α : Type} {n : Nat} (v : Vector α n) (i : Fin n) (a : α) : vget (vset v i a) i = a := by
  simp [vget, vset]
@[simp] theorem vget_vset_other {α : Type} {n : Nat} (v : Vector α n) (i j : Fin n) (a : α) (h : j ≠ i) :
    vget (vset v i a) j = vget v j := by
  simp only [vget, vset, Fin.getElem_fin]
  exact Vector.getElem_set_ne i.2 j.2 (fun e => h (Fin.ext e.symm))
@[simp] theorem vget_vmod_same {α : Type} {n : Nat} (v : Vector α n) (i : Fin n) (f : α → α) :
    vget (vmod v i f) i = f (vget v i) := by simp [vmod]
@[simp] theorem vget_vmod_other {α : Type} {n : Nat} (v : Vector α n) (i j : Fin n) (f : α → α) (h : j ≠ i) :
    vget (vmod v i f) j = vget v j := by simp [vmod, h]

@[simp] theorem modCore_cores (n : Fin 48) (f : Core → Core) (s : State) : (s.modCore n f).cores = vmod s.cores n f := rfl
@[simp] theorem modCore_pending (n : Fin 48) (f : Core → Core) (s : State) : (s.modCore n f).pending = s.pending := rfl
@[simp] theorem modCore_time (n : Fin 48) (f : Core → Core) (s : State) : (s.modCore n f).time = s.time := rfl
@[simp] theorem modCore_island (n : Fin 48) (f : Core → Core) (s : State) : (s.modCore n f).island = s.island := rfl
@[simp] theorem modCore_store (n : Fin 48) (f : Core → Core) (s : State) : (s.modCore n f).store = s.store := rfl
@[simp] theorem modCore_loader (n : Fin 48) (f : Core → Core) (s : State) : (s.modCore n f).loader = s.loader := rfl
@[simp] theorem modCore_console (n : Fin 48) (f : Core → Core) (s : State) : (s.modCore n f).console = s.console := rfl
@[simp] theorem modCore_tap (n : Fin 48) (f : Core → Core) (s : State) : (s.modCore n f).tap = s.tap := rfl
@[simp] theorem modCore_pins (n : Fin 48) (f : Core → Core) (s : State) : (s.modCore n f).pins = s.pins := rfl
@[simp] theorem modCore_pinsUp (n : Fin 48) (f : Core → Core) (s : State) : (s.modCore n f).pinsUp = s.pinsUp := rfl
@[simp] theorem modCore_hstop (n : Fin 48) (f : Core → Core) (s : State) : (s.modCore n f).hstop = s.hstop := rfl
@[simp] theorem modCore_hstopOn (n : Fin 48) (f : Core → Core) (s : State) : (s.modCore n f).hstopOn = s.hstopOn := rfl
@[simp] theorem modCore_dispatched (n : Fin 48) (f : Core → Core) (s : State) : (s.modCore n f).dispatched = s.dispatched := rfl
@[simp] theorem modCore_tsc (n : Fin 48) (f : Core → Core) (s : State) : (s.modCore n f).tsc = s.tsc := rfl
@[simp] theorem modCore_mem (n : Fin 48) (f : Core → Core) (s : State) : (s.modCore n f).mem = s.mem := rfl
@[simp] theorem modCore_poison (n : Fin 48) (f : Core → Core) (s : State) : (s.modCore n f).poison = s.poison := rfl
@[simp] theorem modCore_scrub (n : Fin 48) (f : Core → Core) (s : State) : (s.modCore n f).scrub = s.scrub := rfl
@[simp] theorem modCore_rat (n : Fin 48) (f : Core → Core) (s : State) : (s.modCore n f).rat = s.rat := rfl
@[simp] theorem modCore_aplic (n : Fin 48) (f : Core → Core) (s : State) : (s.modCore n f).aplic = s.aplic := rfl
@[simp] theorem modCore_srcLevel (n : Fin 48) (f : Core → Core) (s : State) : (s.modCore n f).srcLevel = s.srcLevel := rfl
@[simp] theorem modCore_queues (n : Fin 48) (f : Core → Core) (s : State) : (s.modCore n f).queues = s.queues := rfl
@[simp] theorem modCore_evbuf (n : Fin 48) (f : Core → Core) (s : State) : (s.modCore n f).evbuf = s.evbuf := rfl
@[simp] theorem modCore_fwver (n : Fin 48) (f : Core → Core) (s : State) : (s.modCore n f).fwver = s.fwver := rfl
@[simp] theorem modCore_rports (n : Fin 48) (f : Core → Core) (s : State) : (s.modCore n f).rports = s.rports := rfl
@[simp] theorem modCore_clusterHeld (n : Fin 48) (f : Core → Core) (s : State) : (s.modCore n f).clusterHeld = s.clusterHeld := rfl
@[simp] theorem modCore_clusterStop (n : Fin 48) (f : Core → Core) (s : State) : (s.modCore n f).clusterStop = s.clusterStop := rfl
@[simp] theorem modCore_tiles (n : Fin 48) (f : Core → Core) (s : State) : (s.modCore n f).tiles = s.tiles := rfl
@[simp] theorem modCore_shuttle (n : Fin 48) (f : Core → Core) (s : State) : (s.modCore n f).shuttle = s.shuttle := rfl
@[simp] theorem modCore_peat (n : Fin 48) (f : Core → Core) (s : State) : (s.modCore n f).peat = s.peat := rfl
@[simp] theorem modCore_lanes (n : Fin 48) (f : Core → Core) (s : State) : (s.modCore n f).lanes = s.lanes := rfl
@[simp] theorem modCore_fabric (n : Fin 48) (f : Core → Core) (s : State) : (s.modCore n f).fabric = s.fabric := rfl
@[simp] theorem modCore_ports (n : Fin 48) (f : Core → Core) (s : State) : (s.modCore n f).ports = s.ports := rfl
@[simp] theorem modCore_loopback (n : Fin 48) (f : Core → Core) (s : State) : (s.modCore n f).loopback = s.loopback := rfl
@[simp] theorem modCore_nextTid (n : Fin 48) (f : Core → Core) (s : State) : (s.modCore n f).nextTid = s.nextTid := rfl
@[simp] theorem modCore_remote (n : Fin 48) (f : Core → Core) (s : State) : (s.modCore n f).remote = s.remote := rfl
@[simp] theorem modCore_paceFrom (n : Fin 48) (f : Core → Core) (s : State) : (s.modCore n f).paceFrom = s.paceFrom := rfl
@[simp] theorem modCore_chans (n : Fin 48) (f : Core → Core) (s : State) : (s.modCore n f).chans = s.chans := rfl
@[simp] theorem modCore_axes (n : Fin 48) (f : Core → Core) (s : State) : (s.modCore n f).axes = s.axes := rfl
@[simp] theorem modCore_trd (n : Fin 48) (f : Core → Core) (s : State) : (s.modCore n f).trd = s.trd := rfl
@[simp] theorem modCore_fbk (n : Fin 48) (f : Core → Core) (s : State) : (s.modCore n f).fbk = s.fbk := rfl
@[simp] theorem modCore_cc (n : Fin 48) (f : Core → Core) (s : State) : (s.modCore n f).cc = s.cc := rfl
@[simp] theorem modCore_can (n : Fin 48) (f : Core → Core) (s : State) : (s.modCore n f).can = s.can := rfl
@[simp] theorem modCore_dsp (n : Fin 48) (f : Core → Core) (s : State) : (s.modCore n f).dsp = s.dsp := rfl
@[simp] theorem modCore_power (n : Fin 48) (f : Core → Core) (s : State) : (s.modCore n f).power = s.power := rfl
@[simp] theorem modCore_flt (n : Fin 48) (f : Core → Core) (s : State) : (s.modCore n f).flt = s.flt := rfl
@[simp] theorem modCore_parts (n : Fin 48) (f : Core → Core) (s : State) : (s.modCore n f).parts = s.parts := rfl
@[simp] theorem modCore_frz (n : Fin 48) (f : Core → Core) (s : State) : (s.modCore n f).frz = s.frz := rfl
@[simp] theorem modCore_free (n : Fin 48) (f : Core → Core) (s : State) : (s.modCore n f).free = s.free := rfl

@[simp] theorem modQueue_queues (n : Fin 64) (f : Queue → Queue) (s : State) : (s.modQueue n f).queues = vmod s.queues n f := rfl
@[simp] theorem modQueue_pending (n : Fin 64) (f : Queue → Queue) (s : State) : (s.modQueue n f).pending = s.pending := rfl
@[simp] theorem modQueue_time (n : Fin 64) (f : Queue → Queue) (s : State) : (s.modQueue n f).time = s.time := rfl
@[simp] theorem modQueue_island (n : Fin 64) (f : Queue → Queue) (s : State) : (s.modQueue n f).island = s.island := rfl
@[simp] theorem modQueue_store (n : Fin 64) (f : Queue → Queue) (s : State) : (s.modQueue n f).store = s.store := rfl
@[simp] theorem modQueue_loader (n : Fin 64) (f : Queue → Queue) (s : State) : (s.modQueue n f).loader = s.loader := rfl
@[simp] theorem modQueue_console (n : Fin 64) (f : Queue → Queue) (s : State) : (s.modQueue n f).console = s.console := rfl
@[simp] theorem modQueue_tap (n : Fin 64) (f : Queue → Queue) (s : State) : (s.modQueue n f).tap = s.tap := rfl
@[simp] theorem modQueue_pins (n : Fin 64) (f : Queue → Queue) (s : State) : (s.modQueue n f).pins = s.pins := rfl
@[simp] theorem modQueue_pinsUp (n : Fin 64) (f : Queue → Queue) (s : State) : (s.modQueue n f).pinsUp = s.pinsUp := rfl
@[simp] theorem modQueue_hstop (n : Fin 64) (f : Queue → Queue) (s : State) : (s.modQueue n f).hstop = s.hstop := rfl
@[simp] theorem modQueue_hstopOn (n : Fin 64) (f : Queue → Queue) (s : State) : (s.modQueue n f).hstopOn = s.hstopOn := rfl
@[simp] theorem modQueue_dispatched (n : Fin 64) (f : Queue → Queue) (s : State) : (s.modQueue n f).dispatched = s.dispatched := rfl
@[simp] theorem modQueue_tsc (n : Fin 64) (f : Queue → Queue) (s : State) : (s.modQueue n f).tsc = s.tsc := rfl
@[simp] theorem modQueue_mem (n : Fin 64) (f : Queue → Queue) (s : State) : (s.modQueue n f).mem = s.mem := rfl
@[simp] theorem modQueue_poison (n : Fin 64) (f : Queue → Queue) (s : State) : (s.modQueue n f).poison = s.poison := rfl
@[simp] theorem modQueue_scrub (n : Fin 64) (f : Queue → Queue) (s : State) : (s.modQueue n f).scrub = s.scrub := rfl
@[simp] theorem modQueue_rat (n : Fin 64) (f : Queue → Queue) (s : State) : (s.modQueue n f).rat = s.rat := rfl
@[simp] theorem modQueue_cores (n : Fin 64) (f : Queue → Queue) (s : State) : (s.modQueue n f).cores = s.cores := rfl
@[simp] theorem modQueue_aplic (n : Fin 64) (f : Queue → Queue) (s : State) : (s.modQueue n f).aplic = s.aplic := rfl
@[simp] theorem modQueue_srcLevel (n : Fin 64) (f : Queue → Queue) (s : State) : (s.modQueue n f).srcLevel = s.srcLevel := rfl
@[simp] theorem modQueue_evbuf (n : Fin 64) (f : Queue → Queue) (s : State) : (s.modQueue n f).evbuf = s.evbuf := rfl
@[simp] theorem modQueue_fwver (n : Fin 64) (f : Queue → Queue) (s : State) : (s.modQueue n f).fwver = s.fwver := rfl
@[simp] theorem modQueue_rports (n : Fin 64) (f : Queue → Queue) (s : State) : (s.modQueue n f).rports = s.rports := rfl
@[simp] theorem modQueue_clusterHeld (n : Fin 64) (f : Queue → Queue) (s : State) : (s.modQueue n f).clusterHeld = s.clusterHeld := rfl
@[simp] theorem modQueue_clusterStop (n : Fin 64) (f : Queue → Queue) (s : State) : (s.modQueue n f).clusterStop = s.clusterStop := rfl
@[simp] theorem modQueue_tiles (n : Fin 64) (f : Queue → Queue) (s : State) : (s.modQueue n f).tiles = s.tiles := rfl
@[simp] theorem modQueue_shuttle (n : Fin 64) (f : Queue → Queue) (s : State) : (s.modQueue n f).shuttle = s.shuttle := rfl
@[simp] theorem modQueue_peat (n : Fin 64) (f : Queue → Queue) (s : State) : (s.modQueue n f).peat = s.peat := rfl
@[simp] theorem modQueue_lanes (n : Fin 64) (f : Queue → Queue) (s : State) : (s.modQueue n f).lanes = s.lanes := rfl
@[simp] theorem modQueue_fabric (n : Fin 64) (f : Queue → Queue) (s : State) : (s.modQueue n f).fabric = s.fabric := rfl
@[simp] theorem modQueue_ports (n : Fin 64) (f : Queue → Queue) (s : State) : (s.modQueue n f).ports = s.ports := rfl
@[simp] theorem modQueue_loopback (n : Fin 64) (f : Queue → Queue) (s : State) : (s.modQueue n f).loopback = s.loopback := rfl
@[simp] theorem modQueue_nextTid (n : Fin 64) (f : Queue → Queue) (s : State) : (s.modQueue n f).nextTid = s.nextTid := rfl
@[simp] theorem modQueue_remote (n : Fin 64) (f : Queue → Queue) (s : State) : (s.modQueue n f).remote = s.remote := rfl
@[simp] theorem modQueue_paceFrom (n : Fin 64) (f : Queue → Queue) (s : State) : (s.modQueue n f).paceFrom = s.paceFrom := rfl
@[simp] theorem modQueue_chans (n : Fin 64) (f : Queue → Queue) (s : State) : (s.modQueue n f).chans = s.chans := rfl
@[simp] theorem modQueue_axes (n : Fin 64) (f : Queue → Queue) (s : State) : (s.modQueue n f).axes = s.axes := rfl
@[simp] theorem modQueue_trd (n : Fin 64) (f : Queue → Queue) (s : State) : (s.modQueue n f).trd = s.trd := rfl
@[simp] theorem modQueue_fbk (n : Fin 64) (f : Queue → Queue) (s : State) : (s.modQueue n f).fbk = s.fbk := rfl
@[simp] theorem modQueue_cc (n : Fin 64) (f : Queue → Queue) (s : State) : (s.modQueue n f).cc = s.cc := rfl
@[simp] theorem modQueue_can (n : Fin 64) (f : Queue → Queue) (s : State) : (s.modQueue n f).can = s.can := rfl
@[simp] theorem modQueue_dsp (n : Fin 64) (f : Queue → Queue) (s : State) : (s.modQueue n f).dsp = s.dsp := rfl
@[simp] theorem modQueue_power (n : Fin 64) (f : Queue → Queue) (s : State) : (s.modQueue n f).power = s.power := rfl
@[simp] theorem modQueue_flt (n : Fin 64) (f : Queue → Queue) (s : State) : (s.modQueue n f).flt = s.flt := rfl
@[simp] theorem modQueue_parts (n : Fin 64) (f : Queue → Queue) (s : State) : (s.modQueue n f).parts = s.parts := rfl
@[simp] theorem modQueue_frz (n : Fin 64) (f : Queue → Queue) (s : State) : (s.modQueue n f).frz = s.frz := rfl
@[simp] theorem modQueue_free (n : Fin 64) (f : Queue → Queue) (s : State) : (s.modQueue n f).free = s.free := rfl

@[simp] theorem modTile_tiles (n : Fin 64) (f : Tile → Tile) (s : State) : (s.modTile n f).tiles = vmod s.tiles n f := rfl
@[simp] theorem modTile_pending (n : Fin 64) (f : Tile → Tile) (s : State) : (s.modTile n f).pending = s.pending := rfl
@[simp] theorem modTile_time (n : Fin 64) (f : Tile → Tile) (s : State) : (s.modTile n f).time = s.time := rfl
@[simp] theorem modTile_island (n : Fin 64) (f : Tile → Tile) (s : State) : (s.modTile n f).island = s.island := rfl
@[simp] theorem modTile_store (n : Fin 64) (f : Tile → Tile) (s : State) : (s.modTile n f).store = s.store := rfl
@[simp] theorem modTile_loader (n : Fin 64) (f : Tile → Tile) (s : State) : (s.modTile n f).loader = s.loader := rfl
@[simp] theorem modTile_console (n : Fin 64) (f : Tile → Tile) (s : State) : (s.modTile n f).console = s.console := rfl
@[simp] theorem modTile_tap (n : Fin 64) (f : Tile → Tile) (s : State) : (s.modTile n f).tap = s.tap := rfl
@[simp] theorem modTile_pins (n : Fin 64) (f : Tile → Tile) (s : State) : (s.modTile n f).pins = s.pins := rfl
@[simp] theorem modTile_pinsUp (n : Fin 64) (f : Tile → Tile) (s : State) : (s.modTile n f).pinsUp = s.pinsUp := rfl
@[simp] theorem modTile_hstop (n : Fin 64) (f : Tile → Tile) (s : State) : (s.modTile n f).hstop = s.hstop := rfl
@[simp] theorem modTile_hstopOn (n : Fin 64) (f : Tile → Tile) (s : State) : (s.modTile n f).hstopOn = s.hstopOn := rfl
@[simp] theorem modTile_dispatched (n : Fin 64) (f : Tile → Tile) (s : State) : (s.modTile n f).dispatched = s.dispatched := rfl
@[simp] theorem modTile_tsc (n : Fin 64) (f : Tile → Tile) (s : State) : (s.modTile n f).tsc = s.tsc := rfl
@[simp] theorem modTile_mem (n : Fin 64) (f : Tile → Tile) (s : State) : (s.modTile n f).mem = s.mem := rfl
@[simp] theorem modTile_poison (n : Fin 64) (f : Tile → Tile) (s : State) : (s.modTile n f).poison = s.poison := rfl
@[simp] theorem modTile_scrub (n : Fin 64) (f : Tile → Tile) (s : State) : (s.modTile n f).scrub = s.scrub := rfl
@[simp] theorem modTile_rat (n : Fin 64) (f : Tile → Tile) (s : State) : (s.modTile n f).rat = s.rat := rfl
@[simp] theorem modTile_cores (n : Fin 64) (f : Tile → Tile) (s : State) : (s.modTile n f).cores = s.cores := rfl
@[simp] theorem modTile_aplic (n : Fin 64) (f : Tile → Tile) (s : State) : (s.modTile n f).aplic = s.aplic := rfl
@[simp] theorem modTile_srcLevel (n : Fin 64) (f : Tile → Tile) (s : State) : (s.modTile n f).srcLevel = s.srcLevel := rfl
@[simp] theorem modTile_queues (n : Fin 64) (f : Tile → Tile) (s : State) : (s.modTile n f).queues = s.queues := rfl
@[simp] theorem modTile_evbuf (n : Fin 64) (f : Tile → Tile) (s : State) : (s.modTile n f).evbuf = s.evbuf := rfl
@[simp] theorem modTile_fwver (n : Fin 64) (f : Tile → Tile) (s : State) : (s.modTile n f).fwver = s.fwver := rfl
@[simp] theorem modTile_rports (n : Fin 64) (f : Tile → Tile) (s : State) : (s.modTile n f).rports = s.rports := rfl
@[simp] theorem modTile_clusterHeld (n : Fin 64) (f : Tile → Tile) (s : State) : (s.modTile n f).clusterHeld = s.clusterHeld := rfl
@[simp] theorem modTile_clusterStop (n : Fin 64) (f : Tile → Tile) (s : State) : (s.modTile n f).clusterStop = s.clusterStop := rfl
@[simp] theorem modTile_shuttle (n : Fin 64) (f : Tile → Tile) (s : State) : (s.modTile n f).shuttle = s.shuttle := rfl
@[simp] theorem modTile_peat (n : Fin 64) (f : Tile → Tile) (s : State) : (s.modTile n f).peat = s.peat := rfl
@[simp] theorem modTile_lanes (n : Fin 64) (f : Tile → Tile) (s : State) : (s.modTile n f).lanes = s.lanes := rfl
@[simp] theorem modTile_fabric (n : Fin 64) (f : Tile → Tile) (s : State) : (s.modTile n f).fabric = s.fabric := rfl
@[simp] theorem modTile_ports (n : Fin 64) (f : Tile → Tile) (s : State) : (s.modTile n f).ports = s.ports := rfl
@[simp] theorem modTile_loopback (n : Fin 64) (f : Tile → Tile) (s : State) : (s.modTile n f).loopback = s.loopback := rfl
@[simp] theorem modTile_nextTid (n : Fin 64) (f : Tile → Tile) (s : State) : (s.modTile n f).nextTid = s.nextTid := rfl
@[simp] theorem modTile_remote (n : Fin 64) (f : Tile → Tile) (s : State) : (s.modTile n f).remote = s.remote := rfl
@[simp] theorem modTile_paceFrom (n : Fin 64) (f : Tile → Tile) (s : State) : (s.modTile n f).paceFrom = s.paceFrom := rfl
@[simp] theorem modTile_chans (n : Fin 64) (f : Tile → Tile) (s : State) : (s.modTile n f).chans = s.chans := rfl
@[simp] theorem modTile_axes (n : Fin 64) (f : Tile → Tile) (s : State) : (s.modTile n f).axes = s.axes := rfl
@[simp] theorem modTile_trd (n : Fin 64) (f : Tile → Tile) (s : State) : (s.modTile n f).trd = s.trd := rfl
@[simp] theorem modTile_fbk (n : Fin 64) (f : Tile → Tile) (s : State) : (s.modTile n f).fbk = s.fbk := rfl
@[simp] theorem modTile_cc (n : Fin 64) (f : Tile → Tile) (s : State) : (s.modTile n f).cc = s.cc := rfl
@[simp] theorem modTile_can (n : Fin 64) (f : Tile → Tile) (s : State) : (s.modTile n f).can = s.can := rfl
@[simp] theorem modTile_dsp (n : Fin 64) (f : Tile → Tile) (s : State) : (s.modTile n f).dsp = s.dsp := rfl
@[simp] theorem modTile_power (n : Fin 64) (f : Tile → Tile) (s : State) : (s.modTile n f).power = s.power := rfl
@[simp] theorem modTile_flt (n : Fin 64) (f : Tile → Tile) (s : State) : (s.modTile n f).flt = s.flt := rfl
@[simp] theorem modTile_parts (n : Fin 64) (f : Tile → Tile) (s : State) : (s.modTile n f).parts = s.parts := rfl
@[simp] theorem modTile_frz (n : Fin 64) (f : Tile → Tile) (s : State) : (s.modTile n f).frz = s.frz := rfl
@[simp] theorem modTile_free (n : Fin 64) (f : Tile → Tile) (s : State) : (s.modTile n f).free = s.free := rfl

@[simp] theorem modShuttle_shuttle (g : Fin 16) (f : Shuttle → Shuttle) (s : State) : (s.modShuttle g f).shuttle = vmod s.shuttle g f := rfl
@[simp] theorem modShuttle_pending (g : Fin 16) (f : Shuttle → Shuttle) (s : State) : (s.modShuttle g f).pending = s.pending := rfl
@[simp] theorem modShuttle_time (g : Fin 16) (f : Shuttle → Shuttle) (s : State) : (s.modShuttle g f).time = s.time := rfl
@[simp] theorem modShuttle_island (g : Fin 16) (f : Shuttle → Shuttle) (s : State) : (s.modShuttle g f).island = s.island := rfl
@[simp] theorem modShuttle_store (g : Fin 16) (f : Shuttle → Shuttle) (s : State) : (s.modShuttle g f).store = s.store := rfl
@[simp] theorem modShuttle_loader (g : Fin 16) (f : Shuttle → Shuttle) (s : State) : (s.modShuttle g f).loader = s.loader := rfl
@[simp] theorem modShuttle_console (g : Fin 16) (f : Shuttle → Shuttle) (s : State) : (s.modShuttle g f).console = s.console := rfl
@[simp] theorem modShuttle_tap (g : Fin 16) (f : Shuttle → Shuttle) (s : State) : (s.modShuttle g f).tap = s.tap := rfl
@[simp] theorem modShuttle_pins (g : Fin 16) (f : Shuttle → Shuttle) (s : State) : (s.modShuttle g f).pins = s.pins := rfl
@[simp] theorem modShuttle_pinsUp (g : Fin 16) (f : Shuttle → Shuttle) (s : State) : (s.modShuttle g f).pinsUp = s.pinsUp := rfl
@[simp] theorem modShuttle_hstop (g : Fin 16) (f : Shuttle → Shuttle) (s : State) : (s.modShuttle g f).hstop = s.hstop := rfl
@[simp] theorem modShuttle_hstopOn (g : Fin 16) (f : Shuttle → Shuttle) (s : State) : (s.modShuttle g f).hstopOn = s.hstopOn := rfl
@[simp] theorem modShuttle_dispatched (g : Fin 16) (f : Shuttle → Shuttle) (s : State) : (s.modShuttle g f).dispatched = s.dispatched := rfl
@[simp] theorem modShuttle_tsc (g : Fin 16) (f : Shuttle → Shuttle) (s : State) : (s.modShuttle g f).tsc = s.tsc := rfl
@[simp] theorem modShuttle_mem (g : Fin 16) (f : Shuttle → Shuttle) (s : State) : (s.modShuttle g f).mem = s.mem := rfl
@[simp] theorem modShuttle_poison (g : Fin 16) (f : Shuttle → Shuttle) (s : State) : (s.modShuttle g f).poison = s.poison := rfl
@[simp] theorem modShuttle_scrub (g : Fin 16) (f : Shuttle → Shuttle) (s : State) : (s.modShuttle g f).scrub = s.scrub := rfl
@[simp] theorem modShuttle_rat (g : Fin 16) (f : Shuttle → Shuttle) (s : State) : (s.modShuttle g f).rat = s.rat := rfl
@[simp] theorem modShuttle_cores (g : Fin 16) (f : Shuttle → Shuttle) (s : State) : (s.modShuttle g f).cores = s.cores := rfl
@[simp] theorem modShuttle_aplic (g : Fin 16) (f : Shuttle → Shuttle) (s : State) : (s.modShuttle g f).aplic = s.aplic := rfl
@[simp] theorem modShuttle_srcLevel (g : Fin 16) (f : Shuttle → Shuttle) (s : State) : (s.modShuttle g f).srcLevel = s.srcLevel := rfl
@[simp] theorem modShuttle_queues (g : Fin 16) (f : Shuttle → Shuttle) (s : State) : (s.modShuttle g f).queues = s.queues := rfl
@[simp] theorem modShuttle_evbuf (g : Fin 16) (f : Shuttle → Shuttle) (s : State) : (s.modShuttle g f).evbuf = s.evbuf := rfl
@[simp] theorem modShuttle_fwver (g : Fin 16) (f : Shuttle → Shuttle) (s : State) : (s.modShuttle g f).fwver = s.fwver := rfl
@[simp] theorem modShuttle_rports (g : Fin 16) (f : Shuttle → Shuttle) (s : State) : (s.modShuttle g f).rports = s.rports := rfl
@[simp] theorem modShuttle_clusterHeld (g : Fin 16) (f : Shuttle → Shuttle) (s : State) : (s.modShuttle g f).clusterHeld = s.clusterHeld := rfl
@[simp] theorem modShuttle_clusterStop (g : Fin 16) (f : Shuttle → Shuttle) (s : State) : (s.modShuttle g f).clusterStop = s.clusterStop := rfl
@[simp] theorem modShuttle_tiles (g : Fin 16) (f : Shuttle → Shuttle) (s : State) : (s.modShuttle g f).tiles = s.tiles := rfl
@[simp] theorem modShuttle_peat (g : Fin 16) (f : Shuttle → Shuttle) (s : State) : (s.modShuttle g f).peat = s.peat := rfl
@[simp] theorem modShuttle_lanes (g : Fin 16) (f : Shuttle → Shuttle) (s : State) : (s.modShuttle g f).lanes = s.lanes := rfl
@[simp] theorem modShuttle_fabric (g : Fin 16) (f : Shuttle → Shuttle) (s : State) : (s.modShuttle g f).fabric = s.fabric := rfl
@[simp] theorem modShuttle_ports (g : Fin 16) (f : Shuttle → Shuttle) (s : State) : (s.modShuttle g f).ports = s.ports := rfl
@[simp] theorem modShuttle_loopback (g : Fin 16) (f : Shuttle → Shuttle) (s : State) : (s.modShuttle g f).loopback = s.loopback := rfl
@[simp] theorem modShuttle_nextTid (g : Fin 16) (f : Shuttle → Shuttle) (s : State) : (s.modShuttle g f).nextTid = s.nextTid := rfl
@[simp] theorem modShuttle_remote (g : Fin 16) (f : Shuttle → Shuttle) (s : State) : (s.modShuttle g f).remote = s.remote := rfl
@[simp] theorem modShuttle_paceFrom (g : Fin 16) (f : Shuttle → Shuttle) (s : State) : (s.modShuttle g f).paceFrom = s.paceFrom := rfl
@[simp] theorem modShuttle_chans (g : Fin 16) (f : Shuttle → Shuttle) (s : State) : (s.modShuttle g f).chans = s.chans := rfl
@[simp] theorem modShuttle_axes (g : Fin 16) (f : Shuttle → Shuttle) (s : State) : (s.modShuttle g f).axes = s.axes := rfl
@[simp] theorem modShuttle_trd (g : Fin 16) (f : Shuttle → Shuttle) (s : State) : (s.modShuttle g f).trd = s.trd := rfl
@[simp] theorem modShuttle_fbk (g : Fin 16) (f : Shuttle → Shuttle) (s : State) : (s.modShuttle g f).fbk = s.fbk := rfl
@[simp] theorem modShuttle_cc (g : Fin 16) (f : Shuttle → Shuttle) (s : State) : (s.modShuttle g f).cc = s.cc := rfl
@[simp] theorem modShuttle_can (g : Fin 16) (f : Shuttle → Shuttle) (s : State) : (s.modShuttle g f).can = s.can := rfl
@[simp] theorem modShuttle_dsp (g : Fin 16) (f : Shuttle → Shuttle) (s : State) : (s.modShuttle g f).dsp = s.dsp := rfl
@[simp] theorem modShuttle_power (g : Fin 16) (f : Shuttle → Shuttle) (s : State) : (s.modShuttle g f).power = s.power := rfl
@[simp] theorem modShuttle_flt (g : Fin 16) (f : Shuttle → Shuttle) (s : State) : (s.modShuttle g f).flt = s.flt := rfl
@[simp] theorem modShuttle_parts (g : Fin 16) (f : Shuttle → Shuttle) (s : State) : (s.modShuttle g f).parts = s.parts := rfl
@[simp] theorem modShuttle_frz (g : Fin 16) (f : Shuttle → Shuttle) (s : State) : (s.modShuttle g f).frz = s.frz := rfl
@[simp] theorem modShuttle_free (g : Fin 16) (f : Shuttle → Shuttle) (s : State) : (s.modShuttle g f).free = s.free := rfl

@[simp] theorem modEng_peat (k : Fin 8) (j : Fin 32) (f : PeatEngine → PeatEngine) (s : State) : (s.modEng k j f).peat = vmod s.peat k fun st => { st with eng := vmod st.eng j f } := rfl
@[simp] theorem modEng_pending (k : Fin 8) (j : Fin 32) (f : PeatEngine → PeatEngine) (s : State) : (s.modEng k j f).pending = s.pending := rfl
@[simp] theorem modEng_time (k : Fin 8) (j : Fin 32) (f : PeatEngine → PeatEngine) (s : State) : (s.modEng k j f).time = s.time := rfl
@[simp] theorem modEng_island (k : Fin 8) (j : Fin 32) (f : PeatEngine → PeatEngine) (s : State) : (s.modEng k j f).island = s.island := rfl
@[simp] theorem modEng_store (k : Fin 8) (j : Fin 32) (f : PeatEngine → PeatEngine) (s : State) : (s.modEng k j f).store = s.store := rfl
@[simp] theorem modEng_loader (k : Fin 8) (j : Fin 32) (f : PeatEngine → PeatEngine) (s : State) : (s.modEng k j f).loader = s.loader := rfl
@[simp] theorem modEng_console (k : Fin 8) (j : Fin 32) (f : PeatEngine → PeatEngine) (s : State) : (s.modEng k j f).console = s.console := rfl
@[simp] theorem modEng_tap (k : Fin 8) (j : Fin 32) (f : PeatEngine → PeatEngine) (s : State) : (s.modEng k j f).tap = s.tap := rfl
@[simp] theorem modEng_pins (k : Fin 8) (j : Fin 32) (f : PeatEngine → PeatEngine) (s : State) : (s.modEng k j f).pins = s.pins := rfl
@[simp] theorem modEng_pinsUp (k : Fin 8) (j : Fin 32) (f : PeatEngine → PeatEngine) (s : State) : (s.modEng k j f).pinsUp = s.pinsUp := rfl
@[simp] theorem modEng_hstop (k : Fin 8) (j : Fin 32) (f : PeatEngine → PeatEngine) (s : State) : (s.modEng k j f).hstop = s.hstop := rfl
@[simp] theorem modEng_hstopOn (k : Fin 8) (j : Fin 32) (f : PeatEngine → PeatEngine) (s : State) : (s.modEng k j f).hstopOn = s.hstopOn := rfl
@[simp] theorem modEng_dispatched (k : Fin 8) (j : Fin 32) (f : PeatEngine → PeatEngine) (s : State) : (s.modEng k j f).dispatched = s.dispatched := rfl
@[simp] theorem modEng_tsc (k : Fin 8) (j : Fin 32) (f : PeatEngine → PeatEngine) (s : State) : (s.modEng k j f).tsc = s.tsc := rfl
@[simp] theorem modEng_mem (k : Fin 8) (j : Fin 32) (f : PeatEngine → PeatEngine) (s : State) : (s.modEng k j f).mem = s.mem := rfl
@[simp] theorem modEng_poison (k : Fin 8) (j : Fin 32) (f : PeatEngine → PeatEngine) (s : State) : (s.modEng k j f).poison = s.poison := rfl
@[simp] theorem modEng_scrub (k : Fin 8) (j : Fin 32) (f : PeatEngine → PeatEngine) (s : State) : (s.modEng k j f).scrub = s.scrub := rfl
@[simp] theorem modEng_rat (k : Fin 8) (j : Fin 32) (f : PeatEngine → PeatEngine) (s : State) : (s.modEng k j f).rat = s.rat := rfl
@[simp] theorem modEng_cores (k : Fin 8) (j : Fin 32) (f : PeatEngine → PeatEngine) (s : State) : (s.modEng k j f).cores = s.cores := rfl
@[simp] theorem modEng_aplic (k : Fin 8) (j : Fin 32) (f : PeatEngine → PeatEngine) (s : State) : (s.modEng k j f).aplic = s.aplic := rfl
@[simp] theorem modEng_srcLevel (k : Fin 8) (j : Fin 32) (f : PeatEngine → PeatEngine) (s : State) : (s.modEng k j f).srcLevel = s.srcLevel := rfl
@[simp] theorem modEng_queues (k : Fin 8) (j : Fin 32) (f : PeatEngine → PeatEngine) (s : State) : (s.modEng k j f).queues = s.queues := rfl
@[simp] theorem modEng_evbuf (k : Fin 8) (j : Fin 32) (f : PeatEngine → PeatEngine) (s : State) : (s.modEng k j f).evbuf = s.evbuf := rfl
@[simp] theorem modEng_fwver (k : Fin 8) (j : Fin 32) (f : PeatEngine → PeatEngine) (s : State) : (s.modEng k j f).fwver = s.fwver := rfl
@[simp] theorem modEng_rports (k : Fin 8) (j : Fin 32) (f : PeatEngine → PeatEngine) (s : State) : (s.modEng k j f).rports = s.rports := rfl
@[simp] theorem modEng_clusterHeld (k : Fin 8) (j : Fin 32) (f : PeatEngine → PeatEngine) (s : State) : (s.modEng k j f).clusterHeld = s.clusterHeld := rfl
@[simp] theorem modEng_clusterStop (k : Fin 8) (j : Fin 32) (f : PeatEngine → PeatEngine) (s : State) : (s.modEng k j f).clusterStop = s.clusterStop := rfl
@[simp] theorem modEng_tiles (k : Fin 8) (j : Fin 32) (f : PeatEngine → PeatEngine) (s : State) : (s.modEng k j f).tiles = s.tiles := rfl
@[simp] theorem modEng_shuttle (k : Fin 8) (j : Fin 32) (f : PeatEngine → PeatEngine) (s : State) : (s.modEng k j f).shuttle = s.shuttle := rfl
@[simp] theorem modEng_lanes (k : Fin 8) (j : Fin 32) (f : PeatEngine → PeatEngine) (s : State) : (s.modEng k j f).lanes = s.lanes := rfl
@[simp] theorem modEng_fabric (k : Fin 8) (j : Fin 32) (f : PeatEngine → PeatEngine) (s : State) : (s.modEng k j f).fabric = s.fabric := rfl
@[simp] theorem modEng_ports (k : Fin 8) (j : Fin 32) (f : PeatEngine → PeatEngine) (s : State) : (s.modEng k j f).ports = s.ports := rfl
@[simp] theorem modEng_loopback (k : Fin 8) (j : Fin 32) (f : PeatEngine → PeatEngine) (s : State) : (s.modEng k j f).loopback = s.loopback := rfl
@[simp] theorem modEng_nextTid (k : Fin 8) (j : Fin 32) (f : PeatEngine → PeatEngine) (s : State) : (s.modEng k j f).nextTid = s.nextTid := rfl
@[simp] theorem modEng_remote (k : Fin 8) (j : Fin 32) (f : PeatEngine → PeatEngine) (s : State) : (s.modEng k j f).remote = s.remote := rfl
@[simp] theorem modEng_paceFrom (k : Fin 8) (j : Fin 32) (f : PeatEngine → PeatEngine) (s : State) : (s.modEng k j f).paceFrom = s.paceFrom := rfl
@[simp] theorem modEng_chans (k : Fin 8) (j : Fin 32) (f : PeatEngine → PeatEngine) (s : State) : (s.modEng k j f).chans = s.chans := rfl
@[simp] theorem modEng_axes (k : Fin 8) (j : Fin 32) (f : PeatEngine → PeatEngine) (s : State) : (s.modEng k j f).axes = s.axes := rfl
@[simp] theorem modEng_trd (k : Fin 8) (j : Fin 32) (f : PeatEngine → PeatEngine) (s : State) : (s.modEng k j f).trd = s.trd := rfl
@[simp] theorem modEng_fbk (k : Fin 8) (j : Fin 32) (f : PeatEngine → PeatEngine) (s : State) : (s.modEng k j f).fbk = s.fbk := rfl
@[simp] theorem modEng_cc (k : Fin 8) (j : Fin 32) (f : PeatEngine → PeatEngine) (s : State) : (s.modEng k j f).cc = s.cc := rfl
@[simp] theorem modEng_can (k : Fin 8) (j : Fin 32) (f : PeatEngine → PeatEngine) (s : State) : (s.modEng k j f).can = s.can := rfl
@[simp] theorem modEng_dsp (k : Fin 8) (j : Fin 32) (f : PeatEngine → PeatEngine) (s : State) : (s.modEng k j f).dsp = s.dsp := rfl
@[simp] theorem modEng_power (k : Fin 8) (j : Fin 32) (f : PeatEngine → PeatEngine) (s : State) : (s.modEng k j f).power = s.power := rfl
@[simp] theorem modEng_flt (k : Fin 8) (j : Fin 32) (f : PeatEngine → PeatEngine) (s : State) : (s.modEng k j f).flt = s.flt := rfl
@[simp] theorem modEng_parts (k : Fin 8) (j : Fin 32) (f : PeatEngine → PeatEngine) (s : State) : (s.modEng k j f).parts = s.parts := rfl
@[simp] theorem modEng_frz (k : Fin 8) (j : Fin 32) (f : PeatEngine → PeatEngine) (s : State) : (s.modEng k j f).frz = s.frz := rfl
@[simp] theorem modEng_free (k : Fin 8) (j : Fin 32) (f : PeatEngine → PeatEngine) (s : State) : (s.modEng k j f).free = s.free := rfl

@[simp] theorem modLane_lanes (l : Fin 8) (f : Lane → Lane) (s : State) : (s.modLane l f).lanes = vmod s.lanes l f := rfl
@[simp] theorem modLane_pending (l : Fin 8) (f : Lane → Lane) (s : State) : (s.modLane l f).pending = s.pending := rfl
@[simp] theorem modLane_time (l : Fin 8) (f : Lane → Lane) (s : State) : (s.modLane l f).time = s.time := rfl
@[simp] theorem modLane_island (l : Fin 8) (f : Lane → Lane) (s : State) : (s.modLane l f).island = s.island := rfl
@[simp] theorem modLane_store (l : Fin 8) (f : Lane → Lane) (s : State) : (s.modLane l f).store = s.store := rfl
@[simp] theorem modLane_loader (l : Fin 8) (f : Lane → Lane) (s : State) : (s.modLane l f).loader = s.loader := rfl
@[simp] theorem modLane_console (l : Fin 8) (f : Lane → Lane) (s : State) : (s.modLane l f).console = s.console := rfl
@[simp] theorem modLane_tap (l : Fin 8) (f : Lane → Lane) (s : State) : (s.modLane l f).tap = s.tap := rfl
@[simp] theorem modLane_pins (l : Fin 8) (f : Lane → Lane) (s : State) : (s.modLane l f).pins = s.pins := rfl
@[simp] theorem modLane_pinsUp (l : Fin 8) (f : Lane → Lane) (s : State) : (s.modLane l f).pinsUp = s.pinsUp := rfl
@[simp] theorem modLane_hstop (l : Fin 8) (f : Lane → Lane) (s : State) : (s.modLane l f).hstop = s.hstop := rfl
@[simp] theorem modLane_hstopOn (l : Fin 8) (f : Lane → Lane) (s : State) : (s.modLane l f).hstopOn = s.hstopOn := rfl
@[simp] theorem modLane_dispatched (l : Fin 8) (f : Lane → Lane) (s : State) : (s.modLane l f).dispatched = s.dispatched := rfl
@[simp] theorem modLane_tsc (l : Fin 8) (f : Lane → Lane) (s : State) : (s.modLane l f).tsc = s.tsc := rfl
@[simp] theorem modLane_mem (l : Fin 8) (f : Lane → Lane) (s : State) : (s.modLane l f).mem = s.mem := rfl
@[simp] theorem modLane_poison (l : Fin 8) (f : Lane → Lane) (s : State) : (s.modLane l f).poison = s.poison := rfl
@[simp] theorem modLane_scrub (l : Fin 8) (f : Lane → Lane) (s : State) : (s.modLane l f).scrub = s.scrub := rfl
@[simp] theorem modLane_rat (l : Fin 8) (f : Lane → Lane) (s : State) : (s.modLane l f).rat = s.rat := rfl
@[simp] theorem modLane_cores (l : Fin 8) (f : Lane → Lane) (s : State) : (s.modLane l f).cores = s.cores := rfl
@[simp] theorem modLane_aplic (l : Fin 8) (f : Lane → Lane) (s : State) : (s.modLane l f).aplic = s.aplic := rfl
@[simp] theorem modLane_srcLevel (l : Fin 8) (f : Lane → Lane) (s : State) : (s.modLane l f).srcLevel = s.srcLevel := rfl
@[simp] theorem modLane_queues (l : Fin 8) (f : Lane → Lane) (s : State) : (s.modLane l f).queues = s.queues := rfl
@[simp] theorem modLane_evbuf (l : Fin 8) (f : Lane → Lane) (s : State) : (s.modLane l f).evbuf = s.evbuf := rfl
@[simp] theorem modLane_fwver (l : Fin 8) (f : Lane → Lane) (s : State) : (s.modLane l f).fwver = s.fwver := rfl
@[simp] theorem modLane_rports (l : Fin 8) (f : Lane → Lane) (s : State) : (s.modLane l f).rports = s.rports := rfl
@[simp] theorem modLane_clusterHeld (l : Fin 8) (f : Lane → Lane) (s : State) : (s.modLane l f).clusterHeld = s.clusterHeld := rfl
@[simp] theorem modLane_clusterStop (l : Fin 8) (f : Lane → Lane) (s : State) : (s.modLane l f).clusterStop = s.clusterStop := rfl
@[simp] theorem modLane_tiles (l : Fin 8) (f : Lane → Lane) (s : State) : (s.modLane l f).tiles = s.tiles := rfl
@[simp] theorem modLane_shuttle (l : Fin 8) (f : Lane → Lane) (s : State) : (s.modLane l f).shuttle = s.shuttle := rfl
@[simp] theorem modLane_peat (l : Fin 8) (f : Lane → Lane) (s : State) : (s.modLane l f).peat = s.peat := rfl
@[simp] theorem modLane_fabric (l : Fin 8) (f : Lane → Lane) (s : State) : (s.modLane l f).fabric = s.fabric := rfl
@[simp] theorem modLane_ports (l : Fin 8) (f : Lane → Lane) (s : State) : (s.modLane l f).ports = s.ports := rfl
@[simp] theorem modLane_loopback (l : Fin 8) (f : Lane → Lane) (s : State) : (s.modLane l f).loopback = s.loopback := rfl
@[simp] theorem modLane_nextTid (l : Fin 8) (f : Lane → Lane) (s : State) : (s.modLane l f).nextTid = s.nextTid := rfl
@[simp] theorem modLane_remote (l : Fin 8) (f : Lane → Lane) (s : State) : (s.modLane l f).remote = s.remote := rfl
@[simp] theorem modLane_paceFrom (l : Fin 8) (f : Lane → Lane) (s : State) : (s.modLane l f).paceFrom = s.paceFrom := rfl
@[simp] theorem modLane_chans (l : Fin 8) (f : Lane → Lane) (s : State) : (s.modLane l f).chans = s.chans := rfl
@[simp] theorem modLane_axes (l : Fin 8) (f : Lane → Lane) (s : State) : (s.modLane l f).axes = s.axes := rfl
@[simp] theorem modLane_trd (l : Fin 8) (f : Lane → Lane) (s : State) : (s.modLane l f).trd = s.trd := rfl
@[simp] theorem modLane_fbk (l : Fin 8) (f : Lane → Lane) (s : State) : (s.modLane l f).fbk = s.fbk := rfl
@[simp] theorem modLane_cc (l : Fin 8) (f : Lane → Lane) (s : State) : (s.modLane l f).cc = s.cc := rfl
@[simp] theorem modLane_can (l : Fin 8) (f : Lane → Lane) (s : State) : (s.modLane l f).can = s.can := rfl
@[simp] theorem modLane_dsp (l : Fin 8) (f : Lane → Lane) (s : State) : (s.modLane l f).dsp = s.dsp := rfl
@[simp] theorem modLane_power (l : Fin 8) (f : Lane → Lane) (s : State) : (s.modLane l f).power = s.power := rfl
@[simp] theorem modLane_flt (l : Fin 8) (f : Lane → Lane) (s : State) : (s.modLane l f).flt = s.flt := rfl
@[simp] theorem modLane_parts (l : Fin 8) (f : Lane → Lane) (s : State) : (s.modLane l f).parts = s.parts := rfl
@[simp] theorem modLane_frz (l : Fin 8) (f : Lane → Lane) (s : State) : (s.modLane l f).frz = s.frz := rfl
@[simp] theorem modLane_free (l : Fin 8) (f : Lane → Lane) (s : State) : (s.modLane l f).free = s.free := rfl

@[simp] theorem modPort_ports (p : Fin 16) (f : Port → Port) (s : State) : (s.modPort p f).ports = vmod s.ports p f := rfl
@[simp] theorem modPort_pending (p : Fin 16) (f : Port → Port) (s : State) : (s.modPort p f).pending = s.pending := rfl
@[simp] theorem modPort_time (p : Fin 16) (f : Port → Port) (s : State) : (s.modPort p f).time = s.time := rfl
@[simp] theorem modPort_island (p : Fin 16) (f : Port → Port) (s : State) : (s.modPort p f).island = s.island := rfl
@[simp] theorem modPort_store (p : Fin 16) (f : Port → Port) (s : State) : (s.modPort p f).store = s.store := rfl
@[simp] theorem modPort_loader (p : Fin 16) (f : Port → Port) (s : State) : (s.modPort p f).loader = s.loader := rfl
@[simp] theorem modPort_console (p : Fin 16) (f : Port → Port) (s : State) : (s.modPort p f).console = s.console := rfl
@[simp] theorem modPort_tap (p : Fin 16) (f : Port → Port) (s : State) : (s.modPort p f).tap = s.tap := rfl
@[simp] theorem modPort_pins (p : Fin 16) (f : Port → Port) (s : State) : (s.modPort p f).pins = s.pins := rfl
@[simp] theorem modPort_pinsUp (p : Fin 16) (f : Port → Port) (s : State) : (s.modPort p f).pinsUp = s.pinsUp := rfl
@[simp] theorem modPort_hstop (p : Fin 16) (f : Port → Port) (s : State) : (s.modPort p f).hstop = s.hstop := rfl
@[simp] theorem modPort_hstopOn (p : Fin 16) (f : Port → Port) (s : State) : (s.modPort p f).hstopOn = s.hstopOn := rfl
@[simp] theorem modPort_dispatched (p : Fin 16) (f : Port → Port) (s : State) : (s.modPort p f).dispatched = s.dispatched := rfl
@[simp] theorem modPort_tsc (p : Fin 16) (f : Port → Port) (s : State) : (s.modPort p f).tsc = s.tsc := rfl
@[simp] theorem modPort_mem (p : Fin 16) (f : Port → Port) (s : State) : (s.modPort p f).mem = s.mem := rfl
@[simp] theorem modPort_poison (p : Fin 16) (f : Port → Port) (s : State) : (s.modPort p f).poison = s.poison := rfl
@[simp] theorem modPort_scrub (p : Fin 16) (f : Port → Port) (s : State) : (s.modPort p f).scrub = s.scrub := rfl
@[simp] theorem modPort_rat (p : Fin 16) (f : Port → Port) (s : State) : (s.modPort p f).rat = s.rat := rfl
@[simp] theorem modPort_cores (p : Fin 16) (f : Port → Port) (s : State) : (s.modPort p f).cores = s.cores := rfl
@[simp] theorem modPort_aplic (p : Fin 16) (f : Port → Port) (s : State) : (s.modPort p f).aplic = s.aplic := rfl
@[simp] theorem modPort_srcLevel (p : Fin 16) (f : Port → Port) (s : State) : (s.modPort p f).srcLevel = s.srcLevel := rfl
@[simp] theorem modPort_queues (p : Fin 16) (f : Port → Port) (s : State) : (s.modPort p f).queues = s.queues := rfl
@[simp] theorem modPort_evbuf (p : Fin 16) (f : Port → Port) (s : State) : (s.modPort p f).evbuf = s.evbuf := rfl
@[simp] theorem modPort_fwver (p : Fin 16) (f : Port → Port) (s : State) : (s.modPort p f).fwver = s.fwver := rfl
@[simp] theorem modPort_rports (p : Fin 16) (f : Port → Port) (s : State) : (s.modPort p f).rports = s.rports := rfl
@[simp] theorem modPort_clusterHeld (p : Fin 16) (f : Port → Port) (s : State) : (s.modPort p f).clusterHeld = s.clusterHeld := rfl
@[simp] theorem modPort_clusterStop (p : Fin 16) (f : Port → Port) (s : State) : (s.modPort p f).clusterStop = s.clusterStop := rfl
@[simp] theorem modPort_tiles (p : Fin 16) (f : Port → Port) (s : State) : (s.modPort p f).tiles = s.tiles := rfl
@[simp] theorem modPort_shuttle (p : Fin 16) (f : Port → Port) (s : State) : (s.modPort p f).shuttle = s.shuttle := rfl
@[simp] theorem modPort_peat (p : Fin 16) (f : Port → Port) (s : State) : (s.modPort p f).peat = s.peat := rfl
@[simp] theorem modPort_lanes (p : Fin 16) (f : Port → Port) (s : State) : (s.modPort p f).lanes = s.lanes := rfl
@[simp] theorem modPort_fabric (p : Fin 16) (f : Port → Port) (s : State) : (s.modPort p f).fabric = s.fabric := rfl
@[simp] theorem modPort_loopback (p : Fin 16) (f : Port → Port) (s : State) : (s.modPort p f).loopback = s.loopback := rfl
@[simp] theorem modPort_nextTid (p : Fin 16) (f : Port → Port) (s : State) : (s.modPort p f).nextTid = s.nextTid := rfl
@[simp] theorem modPort_remote (p : Fin 16) (f : Port → Port) (s : State) : (s.modPort p f).remote = s.remote := rfl
@[simp] theorem modPort_paceFrom (p : Fin 16) (f : Port → Port) (s : State) : (s.modPort p f).paceFrom = s.paceFrom := rfl
@[simp] theorem modPort_chans (p : Fin 16) (f : Port → Port) (s : State) : (s.modPort p f).chans = s.chans := rfl
@[simp] theorem modPort_axes (p : Fin 16) (f : Port → Port) (s : State) : (s.modPort p f).axes = s.axes := rfl
@[simp] theorem modPort_trd (p : Fin 16) (f : Port → Port) (s : State) : (s.modPort p f).trd = s.trd := rfl
@[simp] theorem modPort_fbk (p : Fin 16) (f : Port → Port) (s : State) : (s.modPort p f).fbk = s.fbk := rfl
@[simp] theorem modPort_cc (p : Fin 16) (f : Port → Port) (s : State) : (s.modPort p f).cc = s.cc := rfl
@[simp] theorem modPort_can (p : Fin 16) (f : Port → Port) (s : State) : (s.modPort p f).can = s.can := rfl
@[simp] theorem modPort_dsp (p : Fin 16) (f : Port → Port) (s : State) : (s.modPort p f).dsp = s.dsp := rfl
@[simp] theorem modPort_power (p : Fin 16) (f : Port → Port) (s : State) : (s.modPort p f).power = s.power := rfl
@[simp] theorem modPort_flt (p : Fin 16) (f : Port → Port) (s : State) : (s.modPort p f).flt = s.flt := rfl
@[simp] theorem modPort_parts (p : Fin 16) (f : Port → Port) (s : State) : (s.modPort p f).parts = s.parts := rfl
@[simp] theorem modPort_frz (p : Fin 16) (f : Port → Port) (s : State) : (s.modPort p f).frz = s.frz := rfl
@[simp] theorem modPort_free (p : Fin 16) (f : Port → Port) (s : State) : (s.modPort p f).free = s.free := rfl

@[simp] theorem modChan_chans (d : Fin 4) (k : Fin 8) (f : Chan → Chan) (s : State) : (s.modChan d k f).chans = vmod s.chans d fun v => vmod v k f := rfl
@[simp] theorem modChan_pending (d : Fin 4) (k : Fin 8) (f : Chan → Chan) (s : State) : (s.modChan d k f).pending = s.pending := rfl
@[simp] theorem modChan_time (d : Fin 4) (k : Fin 8) (f : Chan → Chan) (s : State) : (s.modChan d k f).time = s.time := rfl
@[simp] theorem modChan_island (d : Fin 4) (k : Fin 8) (f : Chan → Chan) (s : State) : (s.modChan d k f).island = s.island := rfl
@[simp] theorem modChan_store (d : Fin 4) (k : Fin 8) (f : Chan → Chan) (s : State) : (s.modChan d k f).store = s.store := rfl
@[simp] theorem modChan_loader (d : Fin 4) (k : Fin 8) (f : Chan → Chan) (s : State) : (s.modChan d k f).loader = s.loader := rfl
@[simp] theorem modChan_console (d : Fin 4) (k : Fin 8) (f : Chan → Chan) (s : State) : (s.modChan d k f).console = s.console := rfl
@[simp] theorem modChan_tap (d : Fin 4) (k : Fin 8) (f : Chan → Chan) (s : State) : (s.modChan d k f).tap = s.tap := rfl
@[simp] theorem modChan_pins (d : Fin 4) (k : Fin 8) (f : Chan → Chan) (s : State) : (s.modChan d k f).pins = s.pins := rfl
@[simp] theorem modChan_pinsUp (d : Fin 4) (k : Fin 8) (f : Chan → Chan) (s : State) : (s.modChan d k f).pinsUp = s.pinsUp := rfl
@[simp] theorem modChan_hstop (d : Fin 4) (k : Fin 8) (f : Chan → Chan) (s : State) : (s.modChan d k f).hstop = s.hstop := rfl
@[simp] theorem modChan_hstopOn (d : Fin 4) (k : Fin 8) (f : Chan → Chan) (s : State) : (s.modChan d k f).hstopOn = s.hstopOn := rfl
@[simp] theorem modChan_dispatched (d : Fin 4) (k : Fin 8) (f : Chan → Chan) (s : State) : (s.modChan d k f).dispatched = s.dispatched := rfl
@[simp] theorem modChan_tsc (d : Fin 4) (k : Fin 8) (f : Chan → Chan) (s : State) : (s.modChan d k f).tsc = s.tsc := rfl
@[simp] theorem modChan_mem (d : Fin 4) (k : Fin 8) (f : Chan → Chan) (s : State) : (s.modChan d k f).mem = s.mem := rfl
@[simp] theorem modChan_poison (d : Fin 4) (k : Fin 8) (f : Chan → Chan) (s : State) : (s.modChan d k f).poison = s.poison := rfl
@[simp] theorem modChan_scrub (d : Fin 4) (k : Fin 8) (f : Chan → Chan) (s : State) : (s.modChan d k f).scrub = s.scrub := rfl
@[simp] theorem modChan_rat (d : Fin 4) (k : Fin 8) (f : Chan → Chan) (s : State) : (s.modChan d k f).rat = s.rat := rfl
@[simp] theorem modChan_cores (d : Fin 4) (k : Fin 8) (f : Chan → Chan) (s : State) : (s.modChan d k f).cores = s.cores := rfl
@[simp] theorem modChan_aplic (d : Fin 4) (k : Fin 8) (f : Chan → Chan) (s : State) : (s.modChan d k f).aplic = s.aplic := rfl
@[simp] theorem modChan_srcLevel (d : Fin 4) (k : Fin 8) (f : Chan → Chan) (s : State) : (s.modChan d k f).srcLevel = s.srcLevel := rfl
@[simp] theorem modChan_queues (d : Fin 4) (k : Fin 8) (f : Chan → Chan) (s : State) : (s.modChan d k f).queues = s.queues := rfl
@[simp] theorem modChan_evbuf (d : Fin 4) (k : Fin 8) (f : Chan → Chan) (s : State) : (s.modChan d k f).evbuf = s.evbuf := rfl
@[simp] theorem modChan_fwver (d : Fin 4) (k : Fin 8) (f : Chan → Chan) (s : State) : (s.modChan d k f).fwver = s.fwver := rfl
@[simp] theorem modChan_rports (d : Fin 4) (k : Fin 8) (f : Chan → Chan) (s : State) : (s.modChan d k f).rports = s.rports := rfl
@[simp] theorem modChan_clusterHeld (d : Fin 4) (k : Fin 8) (f : Chan → Chan) (s : State) : (s.modChan d k f).clusterHeld = s.clusterHeld := rfl
@[simp] theorem modChan_clusterStop (d : Fin 4) (k : Fin 8) (f : Chan → Chan) (s : State) : (s.modChan d k f).clusterStop = s.clusterStop := rfl
@[simp] theorem modChan_tiles (d : Fin 4) (k : Fin 8) (f : Chan → Chan) (s : State) : (s.modChan d k f).tiles = s.tiles := rfl
@[simp] theorem modChan_shuttle (d : Fin 4) (k : Fin 8) (f : Chan → Chan) (s : State) : (s.modChan d k f).shuttle = s.shuttle := rfl
@[simp] theorem modChan_peat (d : Fin 4) (k : Fin 8) (f : Chan → Chan) (s : State) : (s.modChan d k f).peat = s.peat := rfl
@[simp] theorem modChan_lanes (d : Fin 4) (k : Fin 8) (f : Chan → Chan) (s : State) : (s.modChan d k f).lanes = s.lanes := rfl
@[simp] theorem modChan_fabric (d : Fin 4) (k : Fin 8) (f : Chan → Chan) (s : State) : (s.modChan d k f).fabric = s.fabric := rfl
@[simp] theorem modChan_ports (d : Fin 4) (k : Fin 8) (f : Chan → Chan) (s : State) : (s.modChan d k f).ports = s.ports := rfl
@[simp] theorem modChan_loopback (d : Fin 4) (k : Fin 8) (f : Chan → Chan) (s : State) : (s.modChan d k f).loopback = s.loopback := rfl
@[simp] theorem modChan_nextTid (d : Fin 4) (k : Fin 8) (f : Chan → Chan) (s : State) : (s.modChan d k f).nextTid = s.nextTid := rfl
@[simp] theorem modChan_remote (d : Fin 4) (k : Fin 8) (f : Chan → Chan) (s : State) : (s.modChan d k f).remote = s.remote := rfl
@[simp] theorem modChan_paceFrom (d : Fin 4) (k : Fin 8) (f : Chan → Chan) (s : State) : (s.modChan d k f).paceFrom = s.paceFrom := rfl
@[simp] theorem modChan_axes (d : Fin 4) (k : Fin 8) (f : Chan → Chan) (s : State) : (s.modChan d k f).axes = s.axes := rfl
@[simp] theorem modChan_trd (d : Fin 4) (k : Fin 8) (f : Chan → Chan) (s : State) : (s.modChan d k f).trd = s.trd := rfl
@[simp] theorem modChan_fbk (d : Fin 4) (k : Fin 8) (f : Chan → Chan) (s : State) : (s.modChan d k f).fbk = s.fbk := rfl
@[simp] theorem modChan_cc (d : Fin 4) (k : Fin 8) (f : Chan → Chan) (s : State) : (s.modChan d k f).cc = s.cc := rfl
@[simp] theorem modChan_can (d : Fin 4) (k : Fin 8) (f : Chan → Chan) (s : State) : (s.modChan d k f).can = s.can := rfl
@[simp] theorem modChan_dsp (d : Fin 4) (k : Fin 8) (f : Chan → Chan) (s : State) : (s.modChan d k f).dsp = s.dsp := rfl
@[simp] theorem modChan_power (d : Fin 4) (k : Fin 8) (f : Chan → Chan) (s : State) : (s.modChan d k f).power = s.power := rfl
@[simp] theorem modChan_flt (d : Fin 4) (k : Fin 8) (f : Chan → Chan) (s : State) : (s.modChan d k f).flt = s.flt := rfl
@[simp] theorem modChan_parts (d : Fin 4) (k : Fin 8) (f : Chan → Chan) (s : State) : (s.modChan d k f).parts = s.parts := rfl
@[simp] theorem modChan_frz (d : Fin 4) (k : Fin 8) (f : Chan → Chan) (s : State) : (s.modChan d k f).frz = s.frz := rfl
@[simp] theorem modChan_free (d : Fin 4) (k : Fin 8) (f : Chan → Chan) (s : State) : (s.modChan d k f).free = s.free := rfl

@[simp] theorem modAxis_axes (a : Fin 32) (f : Axis → Axis) (s : State) : (s.modAxis a f).axes = vmod s.axes a f := rfl
@[simp] theorem modAxis_pending (a : Fin 32) (f : Axis → Axis) (s : State) : (s.modAxis a f).pending = s.pending := rfl
@[simp] theorem modAxis_time (a : Fin 32) (f : Axis → Axis) (s : State) : (s.modAxis a f).time = s.time := rfl
@[simp] theorem modAxis_island (a : Fin 32) (f : Axis → Axis) (s : State) : (s.modAxis a f).island = s.island := rfl
@[simp] theorem modAxis_store (a : Fin 32) (f : Axis → Axis) (s : State) : (s.modAxis a f).store = s.store := rfl
@[simp] theorem modAxis_loader (a : Fin 32) (f : Axis → Axis) (s : State) : (s.modAxis a f).loader = s.loader := rfl
@[simp] theorem modAxis_console (a : Fin 32) (f : Axis → Axis) (s : State) : (s.modAxis a f).console = s.console := rfl
@[simp] theorem modAxis_tap (a : Fin 32) (f : Axis → Axis) (s : State) : (s.modAxis a f).tap = s.tap := rfl
@[simp] theorem modAxis_pins (a : Fin 32) (f : Axis → Axis) (s : State) : (s.modAxis a f).pins = s.pins := rfl
@[simp] theorem modAxis_pinsUp (a : Fin 32) (f : Axis → Axis) (s : State) : (s.modAxis a f).pinsUp = s.pinsUp := rfl
@[simp] theorem modAxis_hstop (a : Fin 32) (f : Axis → Axis) (s : State) : (s.modAxis a f).hstop = s.hstop := rfl
@[simp] theorem modAxis_hstopOn (a : Fin 32) (f : Axis → Axis) (s : State) : (s.modAxis a f).hstopOn = s.hstopOn := rfl
@[simp] theorem modAxis_dispatched (a : Fin 32) (f : Axis → Axis) (s : State) : (s.modAxis a f).dispatched = s.dispatched := rfl
@[simp] theorem modAxis_tsc (a : Fin 32) (f : Axis → Axis) (s : State) : (s.modAxis a f).tsc = s.tsc := rfl
@[simp] theorem modAxis_mem (a : Fin 32) (f : Axis → Axis) (s : State) : (s.modAxis a f).mem = s.mem := rfl
@[simp] theorem modAxis_poison (a : Fin 32) (f : Axis → Axis) (s : State) : (s.modAxis a f).poison = s.poison := rfl
@[simp] theorem modAxis_scrub (a : Fin 32) (f : Axis → Axis) (s : State) : (s.modAxis a f).scrub = s.scrub := rfl
@[simp] theorem modAxis_rat (a : Fin 32) (f : Axis → Axis) (s : State) : (s.modAxis a f).rat = s.rat := rfl
@[simp] theorem modAxis_cores (a : Fin 32) (f : Axis → Axis) (s : State) : (s.modAxis a f).cores = s.cores := rfl
@[simp] theorem modAxis_aplic (a : Fin 32) (f : Axis → Axis) (s : State) : (s.modAxis a f).aplic = s.aplic := rfl
@[simp] theorem modAxis_srcLevel (a : Fin 32) (f : Axis → Axis) (s : State) : (s.modAxis a f).srcLevel = s.srcLevel := rfl
@[simp] theorem modAxis_queues (a : Fin 32) (f : Axis → Axis) (s : State) : (s.modAxis a f).queues = s.queues := rfl
@[simp] theorem modAxis_evbuf (a : Fin 32) (f : Axis → Axis) (s : State) : (s.modAxis a f).evbuf = s.evbuf := rfl
@[simp] theorem modAxis_fwver (a : Fin 32) (f : Axis → Axis) (s : State) : (s.modAxis a f).fwver = s.fwver := rfl
@[simp] theorem modAxis_rports (a : Fin 32) (f : Axis → Axis) (s : State) : (s.modAxis a f).rports = s.rports := rfl
@[simp] theorem modAxis_clusterHeld (a : Fin 32) (f : Axis → Axis) (s : State) : (s.modAxis a f).clusterHeld = s.clusterHeld := rfl
@[simp] theorem modAxis_clusterStop (a : Fin 32) (f : Axis → Axis) (s : State) : (s.modAxis a f).clusterStop = s.clusterStop := rfl
@[simp] theorem modAxis_tiles (a : Fin 32) (f : Axis → Axis) (s : State) : (s.modAxis a f).tiles = s.tiles := rfl
@[simp] theorem modAxis_shuttle (a : Fin 32) (f : Axis → Axis) (s : State) : (s.modAxis a f).shuttle = s.shuttle := rfl
@[simp] theorem modAxis_peat (a : Fin 32) (f : Axis → Axis) (s : State) : (s.modAxis a f).peat = s.peat := rfl
@[simp] theorem modAxis_lanes (a : Fin 32) (f : Axis → Axis) (s : State) : (s.modAxis a f).lanes = s.lanes := rfl
@[simp] theorem modAxis_fabric (a : Fin 32) (f : Axis → Axis) (s : State) : (s.modAxis a f).fabric = s.fabric := rfl
@[simp] theorem modAxis_ports (a : Fin 32) (f : Axis → Axis) (s : State) : (s.modAxis a f).ports = s.ports := rfl
@[simp] theorem modAxis_loopback (a : Fin 32) (f : Axis → Axis) (s : State) : (s.modAxis a f).loopback = s.loopback := rfl
@[simp] theorem modAxis_nextTid (a : Fin 32) (f : Axis → Axis) (s : State) : (s.modAxis a f).nextTid = s.nextTid := rfl
@[simp] theorem modAxis_remote (a : Fin 32) (f : Axis → Axis) (s : State) : (s.modAxis a f).remote = s.remote := rfl
@[simp] theorem modAxis_paceFrom (a : Fin 32) (f : Axis → Axis) (s : State) : (s.modAxis a f).paceFrom = s.paceFrom := rfl
@[simp] theorem modAxis_chans (a : Fin 32) (f : Axis → Axis) (s : State) : (s.modAxis a f).chans = s.chans := rfl
@[simp] theorem modAxis_trd (a : Fin 32) (f : Axis → Axis) (s : State) : (s.modAxis a f).trd = s.trd := rfl
@[simp] theorem modAxis_fbk (a : Fin 32) (f : Axis → Axis) (s : State) : (s.modAxis a f).fbk = s.fbk := rfl
@[simp] theorem modAxis_cc (a : Fin 32) (f : Axis → Axis) (s : State) : (s.modAxis a f).cc = s.cc := rfl
@[simp] theorem modAxis_can (a : Fin 32) (f : Axis → Axis) (s : State) : (s.modAxis a f).can = s.can := rfl
@[simp] theorem modAxis_dsp (a : Fin 32) (f : Axis → Axis) (s : State) : (s.modAxis a f).dsp = s.dsp := rfl
@[simp] theorem modAxis_power (a : Fin 32) (f : Axis → Axis) (s : State) : (s.modAxis a f).power = s.power := rfl
@[simp] theorem modAxis_flt (a : Fin 32) (f : Axis → Axis) (s : State) : (s.modAxis a f).flt = s.flt := rfl
@[simp] theorem modAxis_parts (a : Fin 32) (f : Axis → Axis) (s : State) : (s.modAxis a f).parts = s.parts := rfl
@[simp] theorem modAxis_frz (a : Fin 32) (f : Axis → Axis) (s : State) : (s.modAxis a f).frz = s.frz := rfl
@[simp] theorem modAxis_free (a : Fin 32) (f : Axis → Axis) (s : State) : (s.modAxis a f).free = s.free := rfl

@[simp] theorem modTrd_trd (e : Fin 8) (f : Engine → Engine) (s : State) : (s.modTrd e f).trd = vmod s.trd e f := rfl
@[simp] theorem modTrd_pending (e : Fin 8) (f : Engine → Engine) (s : State) : (s.modTrd e f).pending = s.pending := rfl
@[simp] theorem modTrd_time (e : Fin 8) (f : Engine → Engine) (s : State) : (s.modTrd e f).time = s.time := rfl
@[simp] theorem modTrd_island (e : Fin 8) (f : Engine → Engine) (s : State) : (s.modTrd e f).island = s.island := rfl
@[simp] theorem modTrd_store (e : Fin 8) (f : Engine → Engine) (s : State) : (s.modTrd e f).store = s.store := rfl
@[simp] theorem modTrd_loader (e : Fin 8) (f : Engine → Engine) (s : State) : (s.modTrd e f).loader = s.loader := rfl
@[simp] theorem modTrd_console (e : Fin 8) (f : Engine → Engine) (s : State) : (s.modTrd e f).console = s.console := rfl
@[simp] theorem modTrd_tap (e : Fin 8) (f : Engine → Engine) (s : State) : (s.modTrd e f).tap = s.tap := rfl
@[simp] theorem modTrd_pins (e : Fin 8) (f : Engine → Engine) (s : State) : (s.modTrd e f).pins = s.pins := rfl
@[simp] theorem modTrd_pinsUp (e : Fin 8) (f : Engine → Engine) (s : State) : (s.modTrd e f).pinsUp = s.pinsUp := rfl
@[simp] theorem modTrd_hstop (e : Fin 8) (f : Engine → Engine) (s : State) : (s.modTrd e f).hstop = s.hstop := rfl
@[simp] theorem modTrd_hstopOn (e : Fin 8) (f : Engine → Engine) (s : State) : (s.modTrd e f).hstopOn = s.hstopOn := rfl
@[simp] theorem modTrd_dispatched (e : Fin 8) (f : Engine → Engine) (s : State) : (s.modTrd e f).dispatched = s.dispatched := rfl
@[simp] theorem modTrd_tsc (e : Fin 8) (f : Engine → Engine) (s : State) : (s.modTrd e f).tsc = s.tsc := rfl
@[simp] theorem modTrd_mem (e : Fin 8) (f : Engine → Engine) (s : State) : (s.modTrd e f).mem = s.mem := rfl
@[simp] theorem modTrd_poison (e : Fin 8) (f : Engine → Engine) (s : State) : (s.modTrd e f).poison = s.poison := rfl
@[simp] theorem modTrd_scrub (e : Fin 8) (f : Engine → Engine) (s : State) : (s.modTrd e f).scrub = s.scrub := rfl
@[simp] theorem modTrd_rat (e : Fin 8) (f : Engine → Engine) (s : State) : (s.modTrd e f).rat = s.rat := rfl
@[simp] theorem modTrd_cores (e : Fin 8) (f : Engine → Engine) (s : State) : (s.modTrd e f).cores = s.cores := rfl
@[simp] theorem modTrd_aplic (e : Fin 8) (f : Engine → Engine) (s : State) : (s.modTrd e f).aplic = s.aplic := rfl
@[simp] theorem modTrd_srcLevel (e : Fin 8) (f : Engine → Engine) (s : State) : (s.modTrd e f).srcLevel = s.srcLevel := rfl
@[simp] theorem modTrd_queues (e : Fin 8) (f : Engine → Engine) (s : State) : (s.modTrd e f).queues = s.queues := rfl
@[simp] theorem modTrd_evbuf (e : Fin 8) (f : Engine → Engine) (s : State) : (s.modTrd e f).evbuf = s.evbuf := rfl
@[simp] theorem modTrd_fwver (e : Fin 8) (f : Engine → Engine) (s : State) : (s.modTrd e f).fwver = s.fwver := rfl
@[simp] theorem modTrd_rports (e : Fin 8) (f : Engine → Engine) (s : State) : (s.modTrd e f).rports = s.rports := rfl
@[simp] theorem modTrd_clusterHeld (e : Fin 8) (f : Engine → Engine) (s : State) : (s.modTrd e f).clusterHeld = s.clusterHeld := rfl
@[simp] theorem modTrd_clusterStop (e : Fin 8) (f : Engine → Engine) (s : State) : (s.modTrd e f).clusterStop = s.clusterStop := rfl
@[simp] theorem modTrd_tiles (e : Fin 8) (f : Engine → Engine) (s : State) : (s.modTrd e f).tiles = s.tiles := rfl
@[simp] theorem modTrd_shuttle (e : Fin 8) (f : Engine → Engine) (s : State) : (s.modTrd e f).shuttle = s.shuttle := rfl
@[simp] theorem modTrd_peat (e : Fin 8) (f : Engine → Engine) (s : State) : (s.modTrd e f).peat = s.peat := rfl
@[simp] theorem modTrd_lanes (e : Fin 8) (f : Engine → Engine) (s : State) : (s.modTrd e f).lanes = s.lanes := rfl
@[simp] theorem modTrd_fabric (e : Fin 8) (f : Engine → Engine) (s : State) : (s.modTrd e f).fabric = s.fabric := rfl
@[simp] theorem modTrd_ports (e : Fin 8) (f : Engine → Engine) (s : State) : (s.modTrd e f).ports = s.ports := rfl
@[simp] theorem modTrd_loopback (e : Fin 8) (f : Engine → Engine) (s : State) : (s.modTrd e f).loopback = s.loopback := rfl
@[simp] theorem modTrd_nextTid (e : Fin 8) (f : Engine → Engine) (s : State) : (s.modTrd e f).nextTid = s.nextTid := rfl
@[simp] theorem modTrd_remote (e : Fin 8) (f : Engine → Engine) (s : State) : (s.modTrd e f).remote = s.remote := rfl
@[simp] theorem modTrd_paceFrom (e : Fin 8) (f : Engine → Engine) (s : State) : (s.modTrd e f).paceFrom = s.paceFrom := rfl
@[simp] theorem modTrd_chans (e : Fin 8) (f : Engine → Engine) (s : State) : (s.modTrd e f).chans = s.chans := rfl
@[simp] theorem modTrd_axes (e : Fin 8) (f : Engine → Engine) (s : State) : (s.modTrd e f).axes = s.axes := rfl
@[simp] theorem modTrd_fbk (e : Fin 8) (f : Engine → Engine) (s : State) : (s.modTrd e f).fbk = s.fbk := rfl
@[simp] theorem modTrd_cc (e : Fin 8) (f : Engine → Engine) (s : State) : (s.modTrd e f).cc = s.cc := rfl
@[simp] theorem modTrd_can (e : Fin 8) (f : Engine → Engine) (s : State) : (s.modTrd e f).can = s.can := rfl
@[simp] theorem modTrd_dsp (e : Fin 8) (f : Engine → Engine) (s : State) : (s.modTrd e f).dsp = s.dsp := rfl
@[simp] theorem modTrd_power (e : Fin 8) (f : Engine → Engine) (s : State) : (s.modTrd e f).power = s.power := rfl
@[simp] theorem modTrd_flt (e : Fin 8) (f : Engine → Engine) (s : State) : (s.modTrd e f).flt = s.flt := rfl
@[simp] theorem modTrd_parts (e : Fin 8) (f : Engine → Engine) (s : State) : (s.modTrd e f).parts = s.parts := rfl
@[simp] theorem modTrd_frz (e : Fin 8) (f : Engine → Engine) (s : State) : (s.modTrd e f).frz = s.frz := rfl
@[simp] theorem modTrd_free (e : Fin 8) (f : Engine → Engine) (s : State) : (s.modTrd e f).free = s.free := rfl

@[simp] theorem modFbk_fbk (c : Fin 40) (f : Fbk → Fbk) (s : State) : (s.modFbk c f).fbk = vmod s.fbk c f := rfl
@[simp] theorem modFbk_pending (c : Fin 40) (f : Fbk → Fbk) (s : State) : (s.modFbk c f).pending = s.pending := rfl
@[simp] theorem modFbk_time (c : Fin 40) (f : Fbk → Fbk) (s : State) : (s.modFbk c f).time = s.time := rfl
@[simp] theorem modFbk_island (c : Fin 40) (f : Fbk → Fbk) (s : State) : (s.modFbk c f).island = s.island := rfl
@[simp] theorem modFbk_store (c : Fin 40) (f : Fbk → Fbk) (s : State) : (s.modFbk c f).store = s.store := rfl
@[simp] theorem modFbk_loader (c : Fin 40) (f : Fbk → Fbk) (s : State) : (s.modFbk c f).loader = s.loader := rfl
@[simp] theorem modFbk_console (c : Fin 40) (f : Fbk → Fbk) (s : State) : (s.modFbk c f).console = s.console := rfl
@[simp] theorem modFbk_tap (c : Fin 40) (f : Fbk → Fbk) (s : State) : (s.modFbk c f).tap = s.tap := rfl
@[simp] theorem modFbk_pins (c : Fin 40) (f : Fbk → Fbk) (s : State) : (s.modFbk c f).pins = s.pins := rfl
@[simp] theorem modFbk_pinsUp (c : Fin 40) (f : Fbk → Fbk) (s : State) : (s.modFbk c f).pinsUp = s.pinsUp := rfl
@[simp] theorem modFbk_hstop (c : Fin 40) (f : Fbk → Fbk) (s : State) : (s.modFbk c f).hstop = s.hstop := rfl
@[simp] theorem modFbk_hstopOn (c : Fin 40) (f : Fbk → Fbk) (s : State) : (s.modFbk c f).hstopOn = s.hstopOn := rfl
@[simp] theorem modFbk_dispatched (c : Fin 40) (f : Fbk → Fbk) (s : State) : (s.modFbk c f).dispatched = s.dispatched := rfl
@[simp] theorem modFbk_tsc (c : Fin 40) (f : Fbk → Fbk) (s : State) : (s.modFbk c f).tsc = s.tsc := rfl
@[simp] theorem modFbk_mem (c : Fin 40) (f : Fbk → Fbk) (s : State) : (s.modFbk c f).mem = s.mem := rfl
@[simp] theorem modFbk_poison (c : Fin 40) (f : Fbk → Fbk) (s : State) : (s.modFbk c f).poison = s.poison := rfl
@[simp] theorem modFbk_scrub (c : Fin 40) (f : Fbk → Fbk) (s : State) : (s.modFbk c f).scrub = s.scrub := rfl
@[simp] theorem modFbk_rat (c : Fin 40) (f : Fbk → Fbk) (s : State) : (s.modFbk c f).rat = s.rat := rfl
@[simp] theorem modFbk_cores (c : Fin 40) (f : Fbk → Fbk) (s : State) : (s.modFbk c f).cores = s.cores := rfl
@[simp] theorem modFbk_aplic (c : Fin 40) (f : Fbk → Fbk) (s : State) : (s.modFbk c f).aplic = s.aplic := rfl
@[simp] theorem modFbk_srcLevel (c : Fin 40) (f : Fbk → Fbk) (s : State) : (s.modFbk c f).srcLevel = s.srcLevel := rfl
@[simp] theorem modFbk_queues (c : Fin 40) (f : Fbk → Fbk) (s : State) : (s.modFbk c f).queues = s.queues := rfl
@[simp] theorem modFbk_evbuf (c : Fin 40) (f : Fbk → Fbk) (s : State) : (s.modFbk c f).evbuf = s.evbuf := rfl
@[simp] theorem modFbk_fwver (c : Fin 40) (f : Fbk → Fbk) (s : State) : (s.modFbk c f).fwver = s.fwver := rfl
@[simp] theorem modFbk_rports (c : Fin 40) (f : Fbk → Fbk) (s : State) : (s.modFbk c f).rports = s.rports := rfl
@[simp] theorem modFbk_clusterHeld (c : Fin 40) (f : Fbk → Fbk) (s : State) : (s.modFbk c f).clusterHeld = s.clusterHeld := rfl
@[simp] theorem modFbk_clusterStop (c : Fin 40) (f : Fbk → Fbk) (s : State) : (s.modFbk c f).clusterStop = s.clusterStop := rfl
@[simp] theorem modFbk_tiles (c : Fin 40) (f : Fbk → Fbk) (s : State) : (s.modFbk c f).tiles = s.tiles := rfl
@[simp] theorem modFbk_shuttle (c : Fin 40) (f : Fbk → Fbk) (s : State) : (s.modFbk c f).shuttle = s.shuttle := rfl
@[simp] theorem modFbk_peat (c : Fin 40) (f : Fbk → Fbk) (s : State) : (s.modFbk c f).peat = s.peat := rfl
@[simp] theorem modFbk_lanes (c : Fin 40) (f : Fbk → Fbk) (s : State) : (s.modFbk c f).lanes = s.lanes := rfl
@[simp] theorem modFbk_fabric (c : Fin 40) (f : Fbk → Fbk) (s : State) : (s.modFbk c f).fabric = s.fabric := rfl
@[simp] theorem modFbk_ports (c : Fin 40) (f : Fbk → Fbk) (s : State) : (s.modFbk c f).ports = s.ports := rfl
@[simp] theorem modFbk_loopback (c : Fin 40) (f : Fbk → Fbk) (s : State) : (s.modFbk c f).loopback = s.loopback := rfl
@[simp] theorem modFbk_nextTid (c : Fin 40) (f : Fbk → Fbk) (s : State) : (s.modFbk c f).nextTid = s.nextTid := rfl
@[simp] theorem modFbk_remote (c : Fin 40) (f : Fbk → Fbk) (s : State) : (s.modFbk c f).remote = s.remote := rfl
@[simp] theorem modFbk_paceFrom (c : Fin 40) (f : Fbk → Fbk) (s : State) : (s.modFbk c f).paceFrom = s.paceFrom := rfl
@[simp] theorem modFbk_chans (c : Fin 40) (f : Fbk → Fbk) (s : State) : (s.modFbk c f).chans = s.chans := rfl
@[simp] theorem modFbk_axes (c : Fin 40) (f : Fbk → Fbk) (s : State) : (s.modFbk c f).axes = s.axes := rfl
@[simp] theorem modFbk_trd (c : Fin 40) (f : Fbk → Fbk) (s : State) : (s.modFbk c f).trd = s.trd := rfl
@[simp] theorem modFbk_cc (c : Fin 40) (f : Fbk → Fbk) (s : State) : (s.modFbk c f).cc = s.cc := rfl
@[simp] theorem modFbk_can (c : Fin 40) (f : Fbk → Fbk) (s : State) : (s.modFbk c f).can = s.can := rfl
@[simp] theorem modFbk_dsp (c : Fin 40) (f : Fbk → Fbk) (s : State) : (s.modFbk c f).dsp = s.dsp := rfl
@[simp] theorem modFbk_power (c : Fin 40) (f : Fbk → Fbk) (s : State) : (s.modFbk c f).power = s.power := rfl
@[simp] theorem modFbk_flt (c : Fin 40) (f : Fbk → Fbk) (s : State) : (s.modFbk c f).flt = s.flt := rfl
@[simp] theorem modFbk_parts (c : Fin 40) (f : Fbk → Fbk) (s : State) : (s.modFbk c f).parts = s.parts := rfl
@[simp] theorem modFbk_frz (c : Fin 40) (f : Fbk → Fbk) (s : State) : (s.modFbk c f).frz = s.frz := rfl
@[simp] theorem modFbk_free (c : Fin 40) (f : Fbk → Fbk) (s : State) : (s.modFbk c f).free = s.free := rfl

@[simp] theorem modCan_can (k : Fin 4) (f : Can → Can) (s : State) : (s.modCan k f).can = vmod s.can k f := rfl
@[simp] theorem modCan_pending (k : Fin 4) (f : Can → Can) (s : State) : (s.modCan k f).pending = s.pending := rfl
@[simp] theorem modCan_time (k : Fin 4) (f : Can → Can) (s : State) : (s.modCan k f).time = s.time := rfl
@[simp] theorem modCan_island (k : Fin 4) (f : Can → Can) (s : State) : (s.modCan k f).island = s.island := rfl
@[simp] theorem modCan_store (k : Fin 4) (f : Can → Can) (s : State) : (s.modCan k f).store = s.store := rfl
@[simp] theorem modCan_loader (k : Fin 4) (f : Can → Can) (s : State) : (s.modCan k f).loader = s.loader := rfl
@[simp] theorem modCan_console (k : Fin 4) (f : Can → Can) (s : State) : (s.modCan k f).console = s.console := rfl
@[simp] theorem modCan_tap (k : Fin 4) (f : Can → Can) (s : State) : (s.modCan k f).tap = s.tap := rfl
@[simp] theorem modCan_pins (k : Fin 4) (f : Can → Can) (s : State) : (s.modCan k f).pins = s.pins := rfl
@[simp] theorem modCan_pinsUp (k : Fin 4) (f : Can → Can) (s : State) : (s.modCan k f).pinsUp = s.pinsUp := rfl
@[simp] theorem modCan_hstop (k : Fin 4) (f : Can → Can) (s : State) : (s.modCan k f).hstop = s.hstop := rfl
@[simp] theorem modCan_hstopOn (k : Fin 4) (f : Can → Can) (s : State) : (s.modCan k f).hstopOn = s.hstopOn := rfl
@[simp] theorem modCan_dispatched (k : Fin 4) (f : Can → Can) (s : State) : (s.modCan k f).dispatched = s.dispatched := rfl
@[simp] theorem modCan_tsc (k : Fin 4) (f : Can → Can) (s : State) : (s.modCan k f).tsc = s.tsc := rfl
@[simp] theorem modCan_mem (k : Fin 4) (f : Can → Can) (s : State) : (s.modCan k f).mem = s.mem := rfl
@[simp] theorem modCan_poison (k : Fin 4) (f : Can → Can) (s : State) : (s.modCan k f).poison = s.poison := rfl
@[simp] theorem modCan_scrub (k : Fin 4) (f : Can → Can) (s : State) : (s.modCan k f).scrub = s.scrub := rfl
@[simp] theorem modCan_rat (k : Fin 4) (f : Can → Can) (s : State) : (s.modCan k f).rat = s.rat := rfl
@[simp] theorem modCan_cores (k : Fin 4) (f : Can → Can) (s : State) : (s.modCan k f).cores = s.cores := rfl
@[simp] theorem modCan_aplic (k : Fin 4) (f : Can → Can) (s : State) : (s.modCan k f).aplic = s.aplic := rfl
@[simp] theorem modCan_srcLevel (k : Fin 4) (f : Can → Can) (s : State) : (s.modCan k f).srcLevel = s.srcLevel := rfl
@[simp] theorem modCan_queues (k : Fin 4) (f : Can → Can) (s : State) : (s.modCan k f).queues = s.queues := rfl
@[simp] theorem modCan_evbuf (k : Fin 4) (f : Can → Can) (s : State) : (s.modCan k f).evbuf = s.evbuf := rfl
@[simp] theorem modCan_fwver (k : Fin 4) (f : Can → Can) (s : State) : (s.modCan k f).fwver = s.fwver := rfl
@[simp] theorem modCan_rports (k : Fin 4) (f : Can → Can) (s : State) : (s.modCan k f).rports = s.rports := rfl
@[simp] theorem modCan_clusterHeld (k : Fin 4) (f : Can → Can) (s : State) : (s.modCan k f).clusterHeld = s.clusterHeld := rfl
@[simp] theorem modCan_clusterStop (k : Fin 4) (f : Can → Can) (s : State) : (s.modCan k f).clusterStop = s.clusterStop := rfl
@[simp] theorem modCan_tiles (k : Fin 4) (f : Can → Can) (s : State) : (s.modCan k f).tiles = s.tiles := rfl
@[simp] theorem modCan_shuttle (k : Fin 4) (f : Can → Can) (s : State) : (s.modCan k f).shuttle = s.shuttle := rfl
@[simp] theorem modCan_peat (k : Fin 4) (f : Can → Can) (s : State) : (s.modCan k f).peat = s.peat := rfl
@[simp] theorem modCan_lanes (k : Fin 4) (f : Can → Can) (s : State) : (s.modCan k f).lanes = s.lanes := rfl
@[simp] theorem modCan_fabric (k : Fin 4) (f : Can → Can) (s : State) : (s.modCan k f).fabric = s.fabric := rfl
@[simp] theorem modCan_ports (k : Fin 4) (f : Can → Can) (s : State) : (s.modCan k f).ports = s.ports := rfl
@[simp] theorem modCan_loopback (k : Fin 4) (f : Can → Can) (s : State) : (s.modCan k f).loopback = s.loopback := rfl
@[simp] theorem modCan_nextTid (k : Fin 4) (f : Can → Can) (s : State) : (s.modCan k f).nextTid = s.nextTid := rfl
@[simp] theorem modCan_remote (k : Fin 4) (f : Can → Can) (s : State) : (s.modCan k f).remote = s.remote := rfl
@[simp] theorem modCan_paceFrom (k : Fin 4) (f : Can → Can) (s : State) : (s.modCan k f).paceFrom = s.paceFrom := rfl
@[simp] theorem modCan_chans (k : Fin 4) (f : Can → Can) (s : State) : (s.modCan k f).chans = s.chans := rfl
@[simp] theorem modCan_axes (k : Fin 4) (f : Can → Can) (s : State) : (s.modCan k f).axes = s.axes := rfl
@[simp] theorem modCan_trd (k : Fin 4) (f : Can → Can) (s : State) : (s.modCan k f).trd = s.trd := rfl
@[simp] theorem modCan_fbk (k : Fin 4) (f : Can → Can) (s : State) : (s.modCan k f).fbk = s.fbk := rfl
@[simp] theorem modCan_cc (k : Fin 4) (f : Can → Can) (s : State) : (s.modCan k f).cc = s.cc := rfl
@[simp] theorem modCan_dsp (k : Fin 4) (f : Can → Can) (s : State) : (s.modCan k f).dsp = s.dsp := rfl
@[simp] theorem modCan_power (k : Fin 4) (f : Can → Can) (s : State) : (s.modCan k f).power = s.power := rfl
@[simp] theorem modCan_flt (k : Fin 4) (f : Can → Can) (s : State) : (s.modCan k f).flt = s.flt := rfl
@[simp] theorem modCan_parts (k : Fin 4) (f : Can → Can) (s : State) : (s.modCan k f).parts = s.parts := rfl
@[simp] theorem modCan_frz (k : Fin 4) (f : Can → Can) (s : State) : (s.modCan k f).frz = s.frz := rfl
@[simp] theorem modCan_free (k : Fin 4) (f : Can → Can) (s : State) : (s.modCan k f).free = s.free := rfl

@[simp] theorem modDom_power (d : Fin 5) (f : Domain → Domain) (s : State) : (s.modDom d f).power = { s.power with dom := vmod s.power.dom d f } := rfl
@[simp] theorem modDom_pending (d : Fin 5) (f : Domain → Domain) (s : State) : (s.modDom d f).pending = s.pending := rfl
@[simp] theorem modDom_time (d : Fin 5) (f : Domain → Domain) (s : State) : (s.modDom d f).time = s.time := rfl
@[simp] theorem modDom_island (d : Fin 5) (f : Domain → Domain) (s : State) : (s.modDom d f).island = s.island := rfl
@[simp] theorem modDom_store (d : Fin 5) (f : Domain → Domain) (s : State) : (s.modDom d f).store = s.store := rfl
@[simp] theorem modDom_loader (d : Fin 5) (f : Domain → Domain) (s : State) : (s.modDom d f).loader = s.loader := rfl
@[simp] theorem modDom_console (d : Fin 5) (f : Domain → Domain) (s : State) : (s.modDom d f).console = s.console := rfl
@[simp] theorem modDom_tap (d : Fin 5) (f : Domain → Domain) (s : State) : (s.modDom d f).tap = s.tap := rfl
@[simp] theorem modDom_pins (d : Fin 5) (f : Domain → Domain) (s : State) : (s.modDom d f).pins = s.pins := rfl
@[simp] theorem modDom_pinsUp (d : Fin 5) (f : Domain → Domain) (s : State) : (s.modDom d f).pinsUp = s.pinsUp := rfl
@[simp] theorem modDom_hstop (d : Fin 5) (f : Domain → Domain) (s : State) : (s.modDom d f).hstop = s.hstop := rfl
@[simp] theorem modDom_hstopOn (d : Fin 5) (f : Domain → Domain) (s : State) : (s.modDom d f).hstopOn = s.hstopOn := rfl
@[simp] theorem modDom_dispatched (d : Fin 5) (f : Domain → Domain) (s : State) : (s.modDom d f).dispatched = s.dispatched := rfl
@[simp] theorem modDom_tsc (d : Fin 5) (f : Domain → Domain) (s : State) : (s.modDom d f).tsc = s.tsc := rfl
@[simp] theorem modDom_mem (d : Fin 5) (f : Domain → Domain) (s : State) : (s.modDom d f).mem = s.mem := rfl
@[simp] theorem modDom_poison (d : Fin 5) (f : Domain → Domain) (s : State) : (s.modDom d f).poison = s.poison := rfl
@[simp] theorem modDom_scrub (d : Fin 5) (f : Domain → Domain) (s : State) : (s.modDom d f).scrub = s.scrub := rfl
@[simp] theorem modDom_rat (d : Fin 5) (f : Domain → Domain) (s : State) : (s.modDom d f).rat = s.rat := rfl
@[simp] theorem modDom_cores (d : Fin 5) (f : Domain → Domain) (s : State) : (s.modDom d f).cores = s.cores := rfl
@[simp] theorem modDom_aplic (d : Fin 5) (f : Domain → Domain) (s : State) : (s.modDom d f).aplic = s.aplic := rfl
@[simp] theorem modDom_srcLevel (d : Fin 5) (f : Domain → Domain) (s : State) : (s.modDom d f).srcLevel = s.srcLevel := rfl
@[simp] theorem modDom_queues (d : Fin 5) (f : Domain → Domain) (s : State) : (s.modDom d f).queues = s.queues := rfl
@[simp] theorem modDom_evbuf (d : Fin 5) (f : Domain → Domain) (s : State) : (s.modDom d f).evbuf = s.evbuf := rfl
@[simp] theorem modDom_fwver (d : Fin 5) (f : Domain → Domain) (s : State) : (s.modDom d f).fwver = s.fwver := rfl
@[simp] theorem modDom_rports (d : Fin 5) (f : Domain → Domain) (s : State) : (s.modDom d f).rports = s.rports := rfl
@[simp] theorem modDom_clusterHeld (d : Fin 5) (f : Domain → Domain) (s : State) : (s.modDom d f).clusterHeld = s.clusterHeld := rfl
@[simp] theorem modDom_clusterStop (d : Fin 5) (f : Domain → Domain) (s : State) : (s.modDom d f).clusterStop = s.clusterStop := rfl
@[simp] theorem modDom_tiles (d : Fin 5) (f : Domain → Domain) (s : State) : (s.modDom d f).tiles = s.tiles := rfl
@[simp] theorem modDom_shuttle (d : Fin 5) (f : Domain → Domain) (s : State) : (s.modDom d f).shuttle = s.shuttle := rfl
@[simp] theorem modDom_peat (d : Fin 5) (f : Domain → Domain) (s : State) : (s.modDom d f).peat = s.peat := rfl
@[simp] theorem modDom_lanes (d : Fin 5) (f : Domain → Domain) (s : State) : (s.modDom d f).lanes = s.lanes := rfl
@[simp] theorem modDom_fabric (d : Fin 5) (f : Domain → Domain) (s : State) : (s.modDom d f).fabric = s.fabric := rfl
@[simp] theorem modDom_ports (d : Fin 5) (f : Domain → Domain) (s : State) : (s.modDom d f).ports = s.ports := rfl
@[simp] theorem modDom_loopback (d : Fin 5) (f : Domain → Domain) (s : State) : (s.modDom d f).loopback = s.loopback := rfl
@[simp] theorem modDom_nextTid (d : Fin 5) (f : Domain → Domain) (s : State) : (s.modDom d f).nextTid = s.nextTid := rfl
@[simp] theorem modDom_remote (d : Fin 5) (f : Domain → Domain) (s : State) : (s.modDom d f).remote = s.remote := rfl
@[simp] theorem modDom_paceFrom (d : Fin 5) (f : Domain → Domain) (s : State) : (s.modDom d f).paceFrom = s.paceFrom := rfl
@[simp] theorem modDom_chans (d : Fin 5) (f : Domain → Domain) (s : State) : (s.modDom d f).chans = s.chans := rfl
@[simp] theorem modDom_axes (d : Fin 5) (f : Domain → Domain) (s : State) : (s.modDom d f).axes = s.axes := rfl
@[simp] theorem modDom_trd (d : Fin 5) (f : Domain → Domain) (s : State) : (s.modDom d f).trd = s.trd := rfl
@[simp] theorem modDom_fbk (d : Fin 5) (f : Domain → Domain) (s : State) : (s.modDom d f).fbk = s.fbk := rfl
@[simp] theorem modDom_cc (d : Fin 5) (f : Domain → Domain) (s : State) : (s.modDom d f).cc = s.cc := rfl
@[simp] theorem modDom_can (d : Fin 5) (f : Domain → Domain) (s : State) : (s.modDom d f).can = s.can := rfl
@[simp] theorem modDom_dsp (d : Fin 5) (f : Domain → Domain) (s : State) : (s.modDom d f).dsp = s.dsp := rfl
@[simp] theorem modDom_flt (d : Fin 5) (f : Domain → Domain) (s : State) : (s.modDom d f).flt = s.flt := rfl
@[simp] theorem modDom_parts (d : Fin 5) (f : Domain → Domain) (s : State) : (s.modDom d f).parts = s.parts := rfl
@[simp] theorem modDom_frz (d : Fin 5) (f : Domain → Domain) (s : State) : (s.modDom d f).frz = s.frz := rfl
@[simp] theorem modDom_free (d : Fin 5) (f : Domain → Domain) (s : State) : (s.modDom d f).free = s.free := rfl

@[simp] theorem modPart_parts (p : Fin 32) (f : Part → Part) (s : State) : (s.modPart p f).parts = vmod s.parts p f := rfl
@[simp] theorem modPart_pending (p : Fin 32) (f : Part → Part) (s : State) : (s.modPart p f).pending = s.pending := rfl
@[simp] theorem modPart_time (p : Fin 32) (f : Part → Part) (s : State) : (s.modPart p f).time = s.time := rfl
@[simp] theorem modPart_island (p : Fin 32) (f : Part → Part) (s : State) : (s.modPart p f).island = s.island := rfl
@[simp] theorem modPart_store (p : Fin 32) (f : Part → Part) (s : State) : (s.modPart p f).store = s.store := rfl
@[simp] theorem modPart_loader (p : Fin 32) (f : Part → Part) (s : State) : (s.modPart p f).loader = s.loader := rfl
@[simp] theorem modPart_console (p : Fin 32) (f : Part → Part) (s : State) : (s.modPart p f).console = s.console := rfl
@[simp] theorem modPart_tap (p : Fin 32) (f : Part → Part) (s : State) : (s.modPart p f).tap = s.tap := rfl
@[simp] theorem modPart_pins (p : Fin 32) (f : Part → Part) (s : State) : (s.modPart p f).pins = s.pins := rfl
@[simp] theorem modPart_pinsUp (p : Fin 32) (f : Part → Part) (s : State) : (s.modPart p f).pinsUp = s.pinsUp := rfl
@[simp] theorem modPart_hstop (p : Fin 32) (f : Part → Part) (s : State) : (s.modPart p f).hstop = s.hstop := rfl
@[simp] theorem modPart_hstopOn (p : Fin 32) (f : Part → Part) (s : State) : (s.modPart p f).hstopOn = s.hstopOn := rfl
@[simp] theorem modPart_dispatched (p : Fin 32) (f : Part → Part) (s : State) : (s.modPart p f).dispatched = s.dispatched := rfl
@[simp] theorem modPart_tsc (p : Fin 32) (f : Part → Part) (s : State) : (s.modPart p f).tsc = s.tsc := rfl
@[simp] theorem modPart_mem (p : Fin 32) (f : Part → Part) (s : State) : (s.modPart p f).mem = s.mem := rfl
@[simp] theorem modPart_poison (p : Fin 32) (f : Part → Part) (s : State) : (s.modPart p f).poison = s.poison := rfl
@[simp] theorem modPart_scrub (p : Fin 32) (f : Part → Part) (s : State) : (s.modPart p f).scrub = s.scrub := rfl
@[simp] theorem modPart_rat (p : Fin 32) (f : Part → Part) (s : State) : (s.modPart p f).rat = s.rat := rfl
@[simp] theorem modPart_cores (p : Fin 32) (f : Part → Part) (s : State) : (s.modPart p f).cores = s.cores := rfl
@[simp] theorem modPart_aplic (p : Fin 32) (f : Part → Part) (s : State) : (s.modPart p f).aplic = s.aplic := rfl
@[simp] theorem modPart_srcLevel (p : Fin 32) (f : Part → Part) (s : State) : (s.modPart p f).srcLevel = s.srcLevel := rfl
@[simp] theorem modPart_queues (p : Fin 32) (f : Part → Part) (s : State) : (s.modPart p f).queues = s.queues := rfl
@[simp] theorem modPart_evbuf (p : Fin 32) (f : Part → Part) (s : State) : (s.modPart p f).evbuf = s.evbuf := rfl
@[simp] theorem modPart_fwver (p : Fin 32) (f : Part → Part) (s : State) : (s.modPart p f).fwver = s.fwver := rfl
@[simp] theorem modPart_rports (p : Fin 32) (f : Part → Part) (s : State) : (s.modPart p f).rports = s.rports := rfl
@[simp] theorem modPart_clusterHeld (p : Fin 32) (f : Part → Part) (s : State) : (s.modPart p f).clusterHeld = s.clusterHeld := rfl
@[simp] theorem modPart_clusterStop (p : Fin 32) (f : Part → Part) (s : State) : (s.modPart p f).clusterStop = s.clusterStop := rfl
@[simp] theorem modPart_tiles (p : Fin 32) (f : Part → Part) (s : State) : (s.modPart p f).tiles = s.tiles := rfl
@[simp] theorem modPart_shuttle (p : Fin 32) (f : Part → Part) (s : State) : (s.modPart p f).shuttle = s.shuttle := rfl
@[simp] theorem modPart_peat (p : Fin 32) (f : Part → Part) (s : State) : (s.modPart p f).peat = s.peat := rfl
@[simp] theorem modPart_lanes (p : Fin 32) (f : Part → Part) (s : State) : (s.modPart p f).lanes = s.lanes := rfl
@[simp] theorem modPart_fabric (p : Fin 32) (f : Part → Part) (s : State) : (s.modPart p f).fabric = s.fabric := rfl
@[simp] theorem modPart_ports (p : Fin 32) (f : Part → Part) (s : State) : (s.modPart p f).ports = s.ports := rfl
@[simp] theorem modPart_loopback (p : Fin 32) (f : Part → Part) (s : State) : (s.modPart p f).loopback = s.loopback := rfl
@[simp] theorem modPart_nextTid (p : Fin 32) (f : Part → Part) (s : State) : (s.modPart p f).nextTid = s.nextTid := rfl
@[simp] theorem modPart_remote (p : Fin 32) (f : Part → Part) (s : State) : (s.modPart p f).remote = s.remote := rfl
@[simp] theorem modPart_paceFrom (p : Fin 32) (f : Part → Part) (s : State) : (s.modPart p f).paceFrom = s.paceFrom := rfl
@[simp] theorem modPart_chans (p : Fin 32) (f : Part → Part) (s : State) : (s.modPart p f).chans = s.chans := rfl
@[simp] theorem modPart_axes (p : Fin 32) (f : Part → Part) (s : State) : (s.modPart p f).axes = s.axes := rfl
@[simp] theorem modPart_trd (p : Fin 32) (f : Part → Part) (s : State) : (s.modPart p f).trd = s.trd := rfl
@[simp] theorem modPart_fbk (p : Fin 32) (f : Part → Part) (s : State) : (s.modPart p f).fbk = s.fbk := rfl
@[simp] theorem modPart_cc (p : Fin 32) (f : Part → Part) (s : State) : (s.modPart p f).cc = s.cc := rfl
@[simp] theorem modPart_can (p : Fin 32) (f : Part → Part) (s : State) : (s.modPart p f).can = s.can := rfl
@[simp] theorem modPart_dsp (p : Fin 32) (f : Part → Part) (s : State) : (s.modPart p f).dsp = s.dsp := rfl
@[simp] theorem modPart_power (p : Fin 32) (f : Part → Part) (s : State) : (s.modPart p f).power = s.power := rfl
@[simp] theorem modPart_flt (p : Fin 32) (f : Part → Part) (s : State) : (s.modPart p f).flt = s.flt := rfl
@[simp] theorem modPart_frz (p : Fin 32) (f : Part → Part) (s : State) : (s.modPart p f).frz = s.frz := rfl
@[simp] theorem modPart_free (p : Fin 32) (f : Part → Part) (s : State) : (s.modPart p f).free = s.free := rfl

@[simp] theorem modRp_rports (q : Fin 8) (f : RootPort → RootPort) (s : State) : (s.modRp q f).rports = vmod s.rports q f := rfl
@[simp] theorem modRp_pending (q : Fin 8) (f : RootPort → RootPort) (s : State) : (s.modRp q f).pending = s.pending := rfl
@[simp] theorem modRp_time (q : Fin 8) (f : RootPort → RootPort) (s : State) : (s.modRp q f).time = s.time := rfl
@[simp] theorem modRp_island (q : Fin 8) (f : RootPort → RootPort) (s : State) : (s.modRp q f).island = s.island := rfl
@[simp] theorem modRp_store (q : Fin 8) (f : RootPort → RootPort) (s : State) : (s.modRp q f).store = s.store := rfl
@[simp] theorem modRp_loader (q : Fin 8) (f : RootPort → RootPort) (s : State) : (s.modRp q f).loader = s.loader := rfl
@[simp] theorem modRp_console (q : Fin 8) (f : RootPort → RootPort) (s : State) : (s.modRp q f).console = s.console := rfl
@[simp] theorem modRp_tap (q : Fin 8) (f : RootPort → RootPort) (s : State) : (s.modRp q f).tap = s.tap := rfl
@[simp] theorem modRp_pins (q : Fin 8) (f : RootPort → RootPort) (s : State) : (s.modRp q f).pins = s.pins := rfl
@[simp] theorem modRp_pinsUp (q : Fin 8) (f : RootPort → RootPort) (s : State) : (s.modRp q f).pinsUp = s.pinsUp := rfl
@[simp] theorem modRp_hstop (q : Fin 8) (f : RootPort → RootPort) (s : State) : (s.modRp q f).hstop = s.hstop := rfl
@[simp] theorem modRp_hstopOn (q : Fin 8) (f : RootPort → RootPort) (s : State) : (s.modRp q f).hstopOn = s.hstopOn := rfl
@[simp] theorem modRp_dispatched (q : Fin 8) (f : RootPort → RootPort) (s : State) : (s.modRp q f).dispatched = s.dispatched := rfl
@[simp] theorem modRp_tsc (q : Fin 8) (f : RootPort → RootPort) (s : State) : (s.modRp q f).tsc = s.tsc := rfl
@[simp] theorem modRp_mem (q : Fin 8) (f : RootPort → RootPort) (s : State) : (s.modRp q f).mem = s.mem := rfl
@[simp] theorem modRp_poison (q : Fin 8) (f : RootPort → RootPort) (s : State) : (s.modRp q f).poison = s.poison := rfl
@[simp] theorem modRp_scrub (q : Fin 8) (f : RootPort → RootPort) (s : State) : (s.modRp q f).scrub = s.scrub := rfl
@[simp] theorem modRp_rat (q : Fin 8) (f : RootPort → RootPort) (s : State) : (s.modRp q f).rat = s.rat := rfl
@[simp] theorem modRp_cores (q : Fin 8) (f : RootPort → RootPort) (s : State) : (s.modRp q f).cores = s.cores := rfl
@[simp] theorem modRp_aplic (q : Fin 8) (f : RootPort → RootPort) (s : State) : (s.modRp q f).aplic = s.aplic := rfl
@[simp] theorem modRp_srcLevel (q : Fin 8) (f : RootPort → RootPort) (s : State) : (s.modRp q f).srcLevel = s.srcLevel := rfl
@[simp] theorem modRp_queues (q : Fin 8) (f : RootPort → RootPort) (s : State) : (s.modRp q f).queues = s.queues := rfl
@[simp] theorem modRp_evbuf (q : Fin 8) (f : RootPort → RootPort) (s : State) : (s.modRp q f).evbuf = s.evbuf := rfl
@[simp] theorem modRp_fwver (q : Fin 8) (f : RootPort → RootPort) (s : State) : (s.modRp q f).fwver = s.fwver := rfl
@[simp] theorem modRp_clusterHeld (q : Fin 8) (f : RootPort → RootPort) (s : State) : (s.modRp q f).clusterHeld = s.clusterHeld := rfl
@[simp] theorem modRp_clusterStop (q : Fin 8) (f : RootPort → RootPort) (s : State) : (s.modRp q f).clusterStop = s.clusterStop := rfl
@[simp] theorem modRp_tiles (q : Fin 8) (f : RootPort → RootPort) (s : State) : (s.modRp q f).tiles = s.tiles := rfl
@[simp] theorem modRp_shuttle (q : Fin 8) (f : RootPort → RootPort) (s : State) : (s.modRp q f).shuttle = s.shuttle := rfl
@[simp] theorem modRp_peat (q : Fin 8) (f : RootPort → RootPort) (s : State) : (s.modRp q f).peat = s.peat := rfl
@[simp] theorem modRp_lanes (q : Fin 8) (f : RootPort → RootPort) (s : State) : (s.modRp q f).lanes = s.lanes := rfl
@[simp] theorem modRp_fabric (q : Fin 8) (f : RootPort → RootPort) (s : State) : (s.modRp q f).fabric = s.fabric := rfl
@[simp] theorem modRp_ports (q : Fin 8) (f : RootPort → RootPort) (s : State) : (s.modRp q f).ports = s.ports := rfl
@[simp] theorem modRp_loopback (q : Fin 8) (f : RootPort → RootPort) (s : State) : (s.modRp q f).loopback = s.loopback := rfl
@[simp] theorem modRp_nextTid (q : Fin 8) (f : RootPort → RootPort) (s : State) : (s.modRp q f).nextTid = s.nextTid := rfl
@[simp] theorem modRp_remote (q : Fin 8) (f : RootPort → RootPort) (s : State) : (s.modRp q f).remote = s.remote := rfl
@[simp] theorem modRp_paceFrom (q : Fin 8) (f : RootPort → RootPort) (s : State) : (s.modRp q f).paceFrom = s.paceFrom := rfl
@[simp] theorem modRp_chans (q : Fin 8) (f : RootPort → RootPort) (s : State) : (s.modRp q f).chans = s.chans := rfl
@[simp] theorem modRp_axes (q : Fin 8) (f : RootPort → RootPort) (s : State) : (s.modRp q f).axes = s.axes := rfl
@[simp] theorem modRp_trd (q : Fin 8) (f : RootPort → RootPort) (s : State) : (s.modRp q f).trd = s.trd := rfl
@[simp] theorem modRp_fbk (q : Fin 8) (f : RootPort → RootPort) (s : State) : (s.modRp q f).fbk = s.fbk := rfl
@[simp] theorem modRp_cc (q : Fin 8) (f : RootPort → RootPort) (s : State) : (s.modRp q f).cc = s.cc := rfl
@[simp] theorem modRp_can (q : Fin 8) (f : RootPort → RootPort) (s : State) : (s.modRp q f).can = s.can := rfl
@[simp] theorem modRp_dsp (q : Fin 8) (f : RootPort → RootPort) (s : State) : (s.modRp q f).dsp = s.dsp := rfl
@[simp] theorem modRp_power (q : Fin 8) (f : RootPort → RootPort) (s : State) : (s.modRp q f).power = s.power := rfl
@[simp] theorem modRp_flt (q : Fin 8) (f : RootPort → RootPort) (s : State) : (s.modRp q f).flt = s.flt := rfl
@[simp] theorem modRp_parts (q : Fin 8) (f : RootPort → RootPort) (s : State) : (s.modRp q f).parts = s.parts := rfl
@[simp] theorem modRp_frz (q : Fin 8) (f : RootPort → RootPort) (s : State) : (s.modRp q f).frz = s.frz := rfl
@[simp] theorem modRp_free (q : Fin 8) (f : RootPort → RootPort) (s : State) : (s.modRp q f).free = s.free := rfl

@[simp] theorem modFlt_flt (i : Fin 1024) (f : FltSlot → FltSlot) (s : State) : (s.modFlt i f).flt = vmod s.flt i f := rfl
@[simp] theorem modFlt_pending (i : Fin 1024) (f : FltSlot → FltSlot) (s : State) : (s.modFlt i f).pending = s.pending := rfl
@[simp] theorem modFlt_time (i : Fin 1024) (f : FltSlot → FltSlot) (s : State) : (s.modFlt i f).time = s.time := rfl
@[simp] theorem modFlt_island (i : Fin 1024) (f : FltSlot → FltSlot) (s : State) : (s.modFlt i f).island = s.island := rfl
@[simp] theorem modFlt_store (i : Fin 1024) (f : FltSlot → FltSlot) (s : State) : (s.modFlt i f).store = s.store := rfl
@[simp] theorem modFlt_loader (i : Fin 1024) (f : FltSlot → FltSlot) (s : State) : (s.modFlt i f).loader = s.loader := rfl
@[simp] theorem modFlt_console (i : Fin 1024) (f : FltSlot → FltSlot) (s : State) : (s.modFlt i f).console = s.console := rfl
@[simp] theorem modFlt_tap (i : Fin 1024) (f : FltSlot → FltSlot) (s : State) : (s.modFlt i f).tap = s.tap := rfl
@[simp] theorem modFlt_pins (i : Fin 1024) (f : FltSlot → FltSlot) (s : State) : (s.modFlt i f).pins = s.pins := rfl
@[simp] theorem modFlt_pinsUp (i : Fin 1024) (f : FltSlot → FltSlot) (s : State) : (s.modFlt i f).pinsUp = s.pinsUp := rfl
@[simp] theorem modFlt_hstop (i : Fin 1024) (f : FltSlot → FltSlot) (s : State) : (s.modFlt i f).hstop = s.hstop := rfl
@[simp] theorem modFlt_hstopOn (i : Fin 1024) (f : FltSlot → FltSlot) (s : State) : (s.modFlt i f).hstopOn = s.hstopOn := rfl
@[simp] theorem modFlt_dispatched (i : Fin 1024) (f : FltSlot → FltSlot) (s : State) : (s.modFlt i f).dispatched = s.dispatched := rfl
@[simp] theorem modFlt_tsc (i : Fin 1024) (f : FltSlot → FltSlot) (s : State) : (s.modFlt i f).tsc = s.tsc := rfl
@[simp] theorem modFlt_mem (i : Fin 1024) (f : FltSlot → FltSlot) (s : State) : (s.modFlt i f).mem = s.mem := rfl
@[simp] theorem modFlt_poison (i : Fin 1024) (f : FltSlot → FltSlot) (s : State) : (s.modFlt i f).poison = s.poison := rfl
@[simp] theorem modFlt_scrub (i : Fin 1024) (f : FltSlot → FltSlot) (s : State) : (s.modFlt i f).scrub = s.scrub := rfl
@[simp] theorem modFlt_rat (i : Fin 1024) (f : FltSlot → FltSlot) (s : State) : (s.modFlt i f).rat = s.rat := rfl
@[simp] theorem modFlt_cores (i : Fin 1024) (f : FltSlot → FltSlot) (s : State) : (s.modFlt i f).cores = s.cores := rfl
@[simp] theorem modFlt_aplic (i : Fin 1024) (f : FltSlot → FltSlot) (s : State) : (s.modFlt i f).aplic = s.aplic := rfl
@[simp] theorem modFlt_srcLevel (i : Fin 1024) (f : FltSlot → FltSlot) (s : State) : (s.modFlt i f).srcLevel = s.srcLevel := rfl
@[simp] theorem modFlt_queues (i : Fin 1024) (f : FltSlot → FltSlot) (s : State) : (s.modFlt i f).queues = s.queues := rfl
@[simp] theorem modFlt_evbuf (i : Fin 1024) (f : FltSlot → FltSlot) (s : State) : (s.modFlt i f).evbuf = s.evbuf := rfl
@[simp] theorem modFlt_fwver (i : Fin 1024) (f : FltSlot → FltSlot) (s : State) : (s.modFlt i f).fwver = s.fwver := rfl
@[simp] theorem modFlt_rports (i : Fin 1024) (f : FltSlot → FltSlot) (s : State) : (s.modFlt i f).rports = s.rports := rfl
@[simp] theorem modFlt_clusterHeld (i : Fin 1024) (f : FltSlot → FltSlot) (s : State) : (s.modFlt i f).clusterHeld = s.clusterHeld := rfl
@[simp] theorem modFlt_clusterStop (i : Fin 1024) (f : FltSlot → FltSlot) (s : State) : (s.modFlt i f).clusterStop = s.clusterStop := rfl
@[simp] theorem modFlt_tiles (i : Fin 1024) (f : FltSlot → FltSlot) (s : State) : (s.modFlt i f).tiles = s.tiles := rfl
@[simp] theorem modFlt_shuttle (i : Fin 1024) (f : FltSlot → FltSlot) (s : State) : (s.modFlt i f).shuttle = s.shuttle := rfl
@[simp] theorem modFlt_peat (i : Fin 1024) (f : FltSlot → FltSlot) (s : State) : (s.modFlt i f).peat = s.peat := rfl
@[simp] theorem modFlt_lanes (i : Fin 1024) (f : FltSlot → FltSlot) (s : State) : (s.modFlt i f).lanes = s.lanes := rfl
@[simp] theorem modFlt_fabric (i : Fin 1024) (f : FltSlot → FltSlot) (s : State) : (s.modFlt i f).fabric = s.fabric := rfl
@[simp] theorem modFlt_ports (i : Fin 1024) (f : FltSlot → FltSlot) (s : State) : (s.modFlt i f).ports = s.ports := rfl
@[simp] theorem modFlt_loopback (i : Fin 1024) (f : FltSlot → FltSlot) (s : State) : (s.modFlt i f).loopback = s.loopback := rfl
@[simp] theorem modFlt_nextTid (i : Fin 1024) (f : FltSlot → FltSlot) (s : State) : (s.modFlt i f).nextTid = s.nextTid := rfl
@[simp] theorem modFlt_remote (i : Fin 1024) (f : FltSlot → FltSlot) (s : State) : (s.modFlt i f).remote = s.remote := rfl
@[simp] theorem modFlt_paceFrom (i : Fin 1024) (f : FltSlot → FltSlot) (s : State) : (s.modFlt i f).paceFrom = s.paceFrom := rfl
@[simp] theorem modFlt_chans (i : Fin 1024) (f : FltSlot → FltSlot) (s : State) : (s.modFlt i f).chans = s.chans := rfl
@[simp] theorem modFlt_axes (i : Fin 1024) (f : FltSlot → FltSlot) (s : State) : (s.modFlt i f).axes = s.axes := rfl
@[simp] theorem modFlt_trd (i : Fin 1024) (f : FltSlot → FltSlot) (s : State) : (s.modFlt i f).trd = s.trd := rfl
@[simp] theorem modFlt_fbk (i : Fin 1024) (f : FltSlot → FltSlot) (s : State) : (s.modFlt i f).fbk = s.fbk := rfl
@[simp] theorem modFlt_cc (i : Fin 1024) (f : FltSlot → FltSlot) (s : State) : (s.modFlt i f).cc = s.cc := rfl
@[simp] theorem modFlt_can (i : Fin 1024) (f : FltSlot → FltSlot) (s : State) : (s.modFlt i f).can = s.can := rfl
@[simp] theorem modFlt_dsp (i : Fin 1024) (f : FltSlot → FltSlot) (s : State) : (s.modFlt i f).dsp = s.dsp := rfl
@[simp] theorem modFlt_power (i : Fin 1024) (f : FltSlot → FltSlot) (s : State) : (s.modFlt i f).power = s.power := rfl
@[simp] theorem modFlt_parts (i : Fin 1024) (f : FltSlot → FltSlot) (s : State) : (s.modFlt i f).parts = s.parts := rfl
@[simp] theorem modFlt_frz (i : Fin 1024) (f : FltSlot → FltSlot) (s : State) : (s.modFlt i f).frz = s.frz := rfl
@[simp] theorem modFlt_free (i : Fin 1024) (f : FltSlot → FltSlot) (s : State) : (s.modFlt i f).free = s.free := rfl

@[simp] theorem modEvbuf_evbuf (p : Fin 32) (f : EvBuf → EvBuf) (s : State) : (s.modEvbuf p f).evbuf = vmod s.evbuf p f := rfl
@[simp] theorem modEvbuf_pending (p : Fin 32) (f : EvBuf → EvBuf) (s : State) : (s.modEvbuf p f).pending = s.pending := rfl
@[simp] theorem modEvbuf_time (p : Fin 32) (f : EvBuf → EvBuf) (s : State) : (s.modEvbuf p f).time = s.time := rfl
@[simp] theorem modEvbuf_island (p : Fin 32) (f : EvBuf → EvBuf) (s : State) : (s.modEvbuf p f).island = s.island := rfl
@[simp] theorem modEvbuf_store (p : Fin 32) (f : EvBuf → EvBuf) (s : State) : (s.modEvbuf p f).store = s.store := rfl
@[simp] theorem modEvbuf_loader (p : Fin 32) (f : EvBuf → EvBuf) (s : State) : (s.modEvbuf p f).loader = s.loader := rfl
@[simp] theorem modEvbuf_console (p : Fin 32) (f : EvBuf → EvBuf) (s : State) : (s.modEvbuf p f).console = s.console := rfl
@[simp] theorem modEvbuf_tap (p : Fin 32) (f : EvBuf → EvBuf) (s : State) : (s.modEvbuf p f).tap = s.tap := rfl
@[simp] theorem modEvbuf_pins (p : Fin 32) (f : EvBuf → EvBuf) (s : State) : (s.modEvbuf p f).pins = s.pins := rfl
@[simp] theorem modEvbuf_pinsUp (p : Fin 32) (f : EvBuf → EvBuf) (s : State) : (s.modEvbuf p f).pinsUp = s.pinsUp := rfl
@[simp] theorem modEvbuf_hstop (p : Fin 32) (f : EvBuf → EvBuf) (s : State) : (s.modEvbuf p f).hstop = s.hstop := rfl
@[simp] theorem modEvbuf_hstopOn (p : Fin 32) (f : EvBuf → EvBuf) (s : State) : (s.modEvbuf p f).hstopOn = s.hstopOn := rfl
@[simp] theorem modEvbuf_dispatched (p : Fin 32) (f : EvBuf → EvBuf) (s : State) : (s.modEvbuf p f).dispatched = s.dispatched := rfl
@[simp] theorem modEvbuf_tsc (p : Fin 32) (f : EvBuf → EvBuf) (s : State) : (s.modEvbuf p f).tsc = s.tsc := rfl
@[simp] theorem modEvbuf_mem (p : Fin 32) (f : EvBuf → EvBuf) (s : State) : (s.modEvbuf p f).mem = s.mem := rfl
@[simp] theorem modEvbuf_poison (p : Fin 32) (f : EvBuf → EvBuf) (s : State) : (s.modEvbuf p f).poison = s.poison := rfl
@[simp] theorem modEvbuf_scrub (p : Fin 32) (f : EvBuf → EvBuf) (s : State) : (s.modEvbuf p f).scrub = s.scrub := rfl
@[simp] theorem modEvbuf_rat (p : Fin 32) (f : EvBuf → EvBuf) (s : State) : (s.modEvbuf p f).rat = s.rat := rfl
@[simp] theorem modEvbuf_cores (p : Fin 32) (f : EvBuf → EvBuf) (s : State) : (s.modEvbuf p f).cores = s.cores := rfl
@[simp] theorem modEvbuf_aplic (p : Fin 32) (f : EvBuf → EvBuf) (s : State) : (s.modEvbuf p f).aplic = s.aplic := rfl
@[simp] theorem modEvbuf_srcLevel (p : Fin 32) (f : EvBuf → EvBuf) (s : State) : (s.modEvbuf p f).srcLevel = s.srcLevel := rfl
@[simp] theorem modEvbuf_queues (p : Fin 32) (f : EvBuf → EvBuf) (s : State) : (s.modEvbuf p f).queues = s.queues := rfl
@[simp] theorem modEvbuf_fwver (p : Fin 32) (f : EvBuf → EvBuf) (s : State) : (s.modEvbuf p f).fwver = s.fwver := rfl
@[simp] theorem modEvbuf_rports (p : Fin 32) (f : EvBuf → EvBuf) (s : State) : (s.modEvbuf p f).rports = s.rports := rfl
@[simp] theorem modEvbuf_clusterHeld (p : Fin 32) (f : EvBuf → EvBuf) (s : State) : (s.modEvbuf p f).clusterHeld = s.clusterHeld := rfl
@[simp] theorem modEvbuf_clusterStop (p : Fin 32) (f : EvBuf → EvBuf) (s : State) : (s.modEvbuf p f).clusterStop = s.clusterStop := rfl
@[simp] theorem modEvbuf_tiles (p : Fin 32) (f : EvBuf → EvBuf) (s : State) : (s.modEvbuf p f).tiles = s.tiles := rfl
@[simp] theorem modEvbuf_shuttle (p : Fin 32) (f : EvBuf → EvBuf) (s : State) : (s.modEvbuf p f).shuttle = s.shuttle := rfl
@[simp] theorem modEvbuf_peat (p : Fin 32) (f : EvBuf → EvBuf) (s : State) : (s.modEvbuf p f).peat = s.peat := rfl
@[simp] theorem modEvbuf_lanes (p : Fin 32) (f : EvBuf → EvBuf) (s : State) : (s.modEvbuf p f).lanes = s.lanes := rfl
@[simp] theorem modEvbuf_fabric (p : Fin 32) (f : EvBuf → EvBuf) (s : State) : (s.modEvbuf p f).fabric = s.fabric := rfl
@[simp] theorem modEvbuf_ports (p : Fin 32) (f : EvBuf → EvBuf) (s : State) : (s.modEvbuf p f).ports = s.ports := rfl
@[simp] theorem modEvbuf_loopback (p : Fin 32) (f : EvBuf → EvBuf) (s : State) : (s.modEvbuf p f).loopback = s.loopback := rfl
@[simp] theorem modEvbuf_nextTid (p : Fin 32) (f : EvBuf → EvBuf) (s : State) : (s.modEvbuf p f).nextTid = s.nextTid := rfl
@[simp] theorem modEvbuf_remote (p : Fin 32) (f : EvBuf → EvBuf) (s : State) : (s.modEvbuf p f).remote = s.remote := rfl
@[simp] theorem modEvbuf_paceFrom (p : Fin 32) (f : EvBuf → EvBuf) (s : State) : (s.modEvbuf p f).paceFrom = s.paceFrom := rfl
@[simp] theorem modEvbuf_chans (p : Fin 32) (f : EvBuf → EvBuf) (s : State) : (s.modEvbuf p f).chans = s.chans := rfl
@[simp] theorem modEvbuf_axes (p : Fin 32) (f : EvBuf → EvBuf) (s : State) : (s.modEvbuf p f).axes = s.axes := rfl
@[simp] theorem modEvbuf_trd (p : Fin 32) (f : EvBuf → EvBuf) (s : State) : (s.modEvbuf p f).trd = s.trd := rfl
@[simp] theorem modEvbuf_fbk (p : Fin 32) (f : EvBuf → EvBuf) (s : State) : (s.modEvbuf p f).fbk = s.fbk := rfl
@[simp] theorem modEvbuf_cc (p : Fin 32) (f : EvBuf → EvBuf) (s : State) : (s.modEvbuf p f).cc = s.cc := rfl
@[simp] theorem modEvbuf_can (p : Fin 32) (f : EvBuf → EvBuf) (s : State) : (s.modEvbuf p f).can = s.can := rfl
@[simp] theorem modEvbuf_dsp (p : Fin 32) (f : EvBuf → EvBuf) (s : State) : (s.modEvbuf p f).dsp = s.dsp := rfl
@[simp] theorem modEvbuf_power (p : Fin 32) (f : EvBuf → EvBuf) (s : State) : (s.modEvbuf p f).power = s.power := rfl
@[simp] theorem modEvbuf_flt (p : Fin 32) (f : EvBuf → EvBuf) (s : State) : (s.modEvbuf p f).flt = s.flt := rfl
@[simp] theorem modEvbuf_parts (p : Fin 32) (f : EvBuf → EvBuf) (s : State) : (s.modEvbuf p f).parts = s.parts := rfl
@[simp] theorem modEvbuf_frz (p : Fin 32) (f : EvBuf → EvBuf) (s : State) : (s.modEvbuf p f).frz = s.frz := rfl
@[simp] theorem modEvbuf_free (p : Fin 32) (f : EvBuf → EvBuf) (s : State) : (s.modEvbuf p f).free = s.free := rfl

@[simp] theorem modCmp_cc (n : Fin 16) (f : Cmp → Cmp) (s : State) : (s.modCmp n f).cc = { s.cc with cmp := vmod s.cc.cmp n f } := rfl
@[simp] theorem modCmp_pending (n : Fin 16) (f : Cmp → Cmp) (s : State) : (s.modCmp n f).pending = s.pending := rfl
@[simp] theorem modCmp_time (n : Fin 16) (f : Cmp → Cmp) (s : State) : (s.modCmp n f).time = s.time := rfl
@[simp] theorem modCmp_island (n : Fin 16) (f : Cmp → Cmp) (s : State) : (s.modCmp n f).island = s.island := rfl
@[simp] theorem modCmp_store (n : Fin 16) (f : Cmp → Cmp) (s : State) : (s.modCmp n f).store = s.store := rfl
@[simp] theorem modCmp_loader (n : Fin 16) (f : Cmp → Cmp) (s : State) : (s.modCmp n f).loader = s.loader := rfl
@[simp] theorem modCmp_console (n : Fin 16) (f : Cmp → Cmp) (s : State) : (s.modCmp n f).console = s.console := rfl
@[simp] theorem modCmp_tap (n : Fin 16) (f : Cmp → Cmp) (s : State) : (s.modCmp n f).tap = s.tap := rfl
@[simp] theorem modCmp_pins (n : Fin 16) (f : Cmp → Cmp) (s : State) : (s.modCmp n f).pins = s.pins := rfl
@[simp] theorem modCmp_pinsUp (n : Fin 16) (f : Cmp → Cmp) (s : State) : (s.modCmp n f).pinsUp = s.pinsUp := rfl
@[simp] theorem modCmp_hstop (n : Fin 16) (f : Cmp → Cmp) (s : State) : (s.modCmp n f).hstop = s.hstop := rfl
@[simp] theorem modCmp_hstopOn (n : Fin 16) (f : Cmp → Cmp) (s : State) : (s.modCmp n f).hstopOn = s.hstopOn := rfl
@[simp] theorem modCmp_dispatched (n : Fin 16) (f : Cmp → Cmp) (s : State) : (s.modCmp n f).dispatched = s.dispatched := rfl
@[simp] theorem modCmp_tsc (n : Fin 16) (f : Cmp → Cmp) (s : State) : (s.modCmp n f).tsc = s.tsc := rfl
@[simp] theorem modCmp_mem (n : Fin 16) (f : Cmp → Cmp) (s : State) : (s.modCmp n f).mem = s.mem := rfl
@[simp] theorem modCmp_poison (n : Fin 16) (f : Cmp → Cmp) (s : State) : (s.modCmp n f).poison = s.poison := rfl
@[simp] theorem modCmp_scrub (n : Fin 16) (f : Cmp → Cmp) (s : State) : (s.modCmp n f).scrub = s.scrub := rfl
@[simp] theorem modCmp_rat (n : Fin 16) (f : Cmp → Cmp) (s : State) : (s.modCmp n f).rat = s.rat := rfl
@[simp] theorem modCmp_cores (n : Fin 16) (f : Cmp → Cmp) (s : State) : (s.modCmp n f).cores = s.cores := rfl
@[simp] theorem modCmp_aplic (n : Fin 16) (f : Cmp → Cmp) (s : State) : (s.modCmp n f).aplic = s.aplic := rfl
@[simp] theorem modCmp_srcLevel (n : Fin 16) (f : Cmp → Cmp) (s : State) : (s.modCmp n f).srcLevel = s.srcLevel := rfl
@[simp] theorem modCmp_queues (n : Fin 16) (f : Cmp → Cmp) (s : State) : (s.modCmp n f).queues = s.queues := rfl
@[simp] theorem modCmp_evbuf (n : Fin 16) (f : Cmp → Cmp) (s : State) : (s.modCmp n f).evbuf = s.evbuf := rfl
@[simp] theorem modCmp_fwver (n : Fin 16) (f : Cmp → Cmp) (s : State) : (s.modCmp n f).fwver = s.fwver := rfl
@[simp] theorem modCmp_rports (n : Fin 16) (f : Cmp → Cmp) (s : State) : (s.modCmp n f).rports = s.rports := rfl
@[simp] theorem modCmp_clusterHeld (n : Fin 16) (f : Cmp → Cmp) (s : State) : (s.modCmp n f).clusterHeld = s.clusterHeld := rfl
@[simp] theorem modCmp_clusterStop (n : Fin 16) (f : Cmp → Cmp) (s : State) : (s.modCmp n f).clusterStop = s.clusterStop := rfl
@[simp] theorem modCmp_tiles (n : Fin 16) (f : Cmp → Cmp) (s : State) : (s.modCmp n f).tiles = s.tiles := rfl
@[simp] theorem modCmp_shuttle (n : Fin 16) (f : Cmp → Cmp) (s : State) : (s.modCmp n f).shuttle = s.shuttle := rfl
@[simp] theorem modCmp_peat (n : Fin 16) (f : Cmp → Cmp) (s : State) : (s.modCmp n f).peat = s.peat := rfl
@[simp] theorem modCmp_lanes (n : Fin 16) (f : Cmp → Cmp) (s : State) : (s.modCmp n f).lanes = s.lanes := rfl
@[simp] theorem modCmp_fabric (n : Fin 16) (f : Cmp → Cmp) (s : State) : (s.modCmp n f).fabric = s.fabric := rfl
@[simp] theorem modCmp_ports (n : Fin 16) (f : Cmp → Cmp) (s : State) : (s.modCmp n f).ports = s.ports := rfl
@[simp] theorem modCmp_loopback (n : Fin 16) (f : Cmp → Cmp) (s : State) : (s.modCmp n f).loopback = s.loopback := rfl
@[simp] theorem modCmp_nextTid (n : Fin 16) (f : Cmp → Cmp) (s : State) : (s.modCmp n f).nextTid = s.nextTid := rfl
@[simp] theorem modCmp_remote (n : Fin 16) (f : Cmp → Cmp) (s : State) : (s.modCmp n f).remote = s.remote := rfl
@[simp] theorem modCmp_paceFrom (n : Fin 16) (f : Cmp → Cmp) (s : State) : (s.modCmp n f).paceFrom = s.paceFrom := rfl
@[simp] theorem modCmp_chans (n : Fin 16) (f : Cmp → Cmp) (s : State) : (s.modCmp n f).chans = s.chans := rfl
@[simp] theorem modCmp_axes (n : Fin 16) (f : Cmp → Cmp) (s : State) : (s.modCmp n f).axes = s.axes := rfl
@[simp] theorem modCmp_trd (n : Fin 16) (f : Cmp → Cmp) (s : State) : (s.modCmp n f).trd = s.trd := rfl
@[simp] theorem modCmp_fbk (n : Fin 16) (f : Cmp → Cmp) (s : State) : (s.modCmp n f).fbk = s.fbk := rfl
@[simp] theorem modCmp_can (n : Fin 16) (f : Cmp → Cmp) (s : State) : (s.modCmp n f).can = s.can := rfl
@[simp] theorem modCmp_dsp (n : Fin 16) (f : Cmp → Cmp) (s : State) : (s.modCmp n f).dsp = s.dsp := rfl
@[simp] theorem modCmp_power (n : Fin 16) (f : Cmp → Cmp) (s : State) : (s.modCmp n f).power = s.power := rfl
@[simp] theorem modCmp_flt (n : Fin 16) (f : Cmp → Cmp) (s : State) : (s.modCmp n f).flt = s.flt := rfl
@[simp] theorem modCmp_parts (n : Fin 16) (f : Cmp → Cmp) (s : State) : (s.modCmp n f).parts = s.parts := rfl
@[simp] theorem modCmp_frz (n : Fin 16) (f : Cmp → Cmp) (s : State) : (s.modCmp n f).frz = s.frz := rfl
@[simp] theorem modCmp_free (n : Fin 16) (f : Cmp → Cmp) (s : State) : (s.modCmp n f).free = s.free := rfl

@[simp] theorem modCap_cc (n : Fin 16) (f : Cap → Cap) (s : State) : (s.modCap n f).cc = { s.cc with cap := vmod s.cc.cap n f } := rfl
@[simp] theorem modCap_pending (n : Fin 16) (f : Cap → Cap) (s : State) : (s.modCap n f).pending = s.pending := rfl
@[simp] theorem modCap_time (n : Fin 16) (f : Cap → Cap) (s : State) : (s.modCap n f).time = s.time := rfl
@[simp] theorem modCap_island (n : Fin 16) (f : Cap → Cap) (s : State) : (s.modCap n f).island = s.island := rfl
@[simp] theorem modCap_store (n : Fin 16) (f : Cap → Cap) (s : State) : (s.modCap n f).store = s.store := rfl
@[simp] theorem modCap_loader (n : Fin 16) (f : Cap → Cap) (s : State) : (s.modCap n f).loader = s.loader := rfl
@[simp] theorem modCap_console (n : Fin 16) (f : Cap → Cap) (s : State) : (s.modCap n f).console = s.console := rfl
@[simp] theorem modCap_tap (n : Fin 16) (f : Cap → Cap) (s : State) : (s.modCap n f).tap = s.tap := rfl
@[simp] theorem modCap_pins (n : Fin 16) (f : Cap → Cap) (s : State) : (s.modCap n f).pins = s.pins := rfl
@[simp] theorem modCap_pinsUp (n : Fin 16) (f : Cap → Cap) (s : State) : (s.modCap n f).pinsUp = s.pinsUp := rfl
@[simp] theorem modCap_hstop (n : Fin 16) (f : Cap → Cap) (s : State) : (s.modCap n f).hstop = s.hstop := rfl
@[simp] theorem modCap_hstopOn (n : Fin 16) (f : Cap → Cap) (s : State) : (s.modCap n f).hstopOn = s.hstopOn := rfl
@[simp] theorem modCap_dispatched (n : Fin 16) (f : Cap → Cap) (s : State) : (s.modCap n f).dispatched = s.dispatched := rfl
@[simp] theorem modCap_tsc (n : Fin 16) (f : Cap → Cap) (s : State) : (s.modCap n f).tsc = s.tsc := rfl
@[simp] theorem modCap_mem (n : Fin 16) (f : Cap → Cap) (s : State) : (s.modCap n f).mem = s.mem := rfl
@[simp] theorem modCap_poison (n : Fin 16) (f : Cap → Cap) (s : State) : (s.modCap n f).poison = s.poison := rfl
@[simp] theorem modCap_scrub (n : Fin 16) (f : Cap → Cap) (s : State) : (s.modCap n f).scrub = s.scrub := rfl
@[simp] theorem modCap_rat (n : Fin 16) (f : Cap → Cap) (s : State) : (s.modCap n f).rat = s.rat := rfl
@[simp] theorem modCap_cores (n : Fin 16) (f : Cap → Cap) (s : State) : (s.modCap n f).cores = s.cores := rfl
@[simp] theorem modCap_aplic (n : Fin 16) (f : Cap → Cap) (s : State) : (s.modCap n f).aplic = s.aplic := rfl
@[simp] theorem modCap_srcLevel (n : Fin 16) (f : Cap → Cap) (s : State) : (s.modCap n f).srcLevel = s.srcLevel := rfl
@[simp] theorem modCap_queues (n : Fin 16) (f : Cap → Cap) (s : State) : (s.modCap n f).queues = s.queues := rfl
@[simp] theorem modCap_evbuf (n : Fin 16) (f : Cap → Cap) (s : State) : (s.modCap n f).evbuf = s.evbuf := rfl
@[simp] theorem modCap_fwver (n : Fin 16) (f : Cap → Cap) (s : State) : (s.modCap n f).fwver = s.fwver := rfl
@[simp] theorem modCap_rports (n : Fin 16) (f : Cap → Cap) (s : State) : (s.modCap n f).rports = s.rports := rfl
@[simp] theorem modCap_clusterHeld (n : Fin 16) (f : Cap → Cap) (s : State) : (s.modCap n f).clusterHeld = s.clusterHeld := rfl
@[simp] theorem modCap_clusterStop (n : Fin 16) (f : Cap → Cap) (s : State) : (s.modCap n f).clusterStop = s.clusterStop := rfl
@[simp] theorem modCap_tiles (n : Fin 16) (f : Cap → Cap) (s : State) : (s.modCap n f).tiles = s.tiles := rfl
@[simp] theorem modCap_shuttle (n : Fin 16) (f : Cap → Cap) (s : State) : (s.modCap n f).shuttle = s.shuttle := rfl
@[simp] theorem modCap_peat (n : Fin 16) (f : Cap → Cap) (s : State) : (s.modCap n f).peat = s.peat := rfl
@[simp] theorem modCap_lanes (n : Fin 16) (f : Cap → Cap) (s : State) : (s.modCap n f).lanes = s.lanes := rfl
@[simp] theorem modCap_fabric (n : Fin 16) (f : Cap → Cap) (s : State) : (s.modCap n f).fabric = s.fabric := rfl
@[simp] theorem modCap_ports (n : Fin 16) (f : Cap → Cap) (s : State) : (s.modCap n f).ports = s.ports := rfl
@[simp] theorem modCap_loopback (n : Fin 16) (f : Cap → Cap) (s : State) : (s.modCap n f).loopback = s.loopback := rfl
@[simp] theorem modCap_nextTid (n : Fin 16) (f : Cap → Cap) (s : State) : (s.modCap n f).nextTid = s.nextTid := rfl
@[simp] theorem modCap_remote (n : Fin 16) (f : Cap → Cap) (s : State) : (s.modCap n f).remote = s.remote := rfl
@[simp] theorem modCap_paceFrom (n : Fin 16) (f : Cap → Cap) (s : State) : (s.modCap n f).paceFrom = s.paceFrom := rfl
@[simp] theorem modCap_chans (n : Fin 16) (f : Cap → Cap) (s : State) : (s.modCap n f).chans = s.chans := rfl
@[simp] theorem modCap_axes (n : Fin 16) (f : Cap → Cap) (s : State) : (s.modCap n f).axes = s.axes := rfl
@[simp] theorem modCap_trd (n : Fin 16) (f : Cap → Cap) (s : State) : (s.modCap n f).trd = s.trd := rfl
@[simp] theorem modCap_fbk (n : Fin 16) (f : Cap → Cap) (s : State) : (s.modCap n f).fbk = s.fbk := rfl
@[simp] theorem modCap_can (n : Fin 16) (f : Cap → Cap) (s : State) : (s.modCap n f).can = s.can := rfl
@[simp] theorem modCap_dsp (n : Fin 16) (f : Cap → Cap) (s : State) : (s.modCap n f).dsp = s.dsp := rfl
@[simp] theorem modCap_power (n : Fin 16) (f : Cap → Cap) (s : State) : (s.modCap n f).power = s.power := rfl
@[simp] theorem modCap_flt (n : Fin 16) (f : Cap → Cap) (s : State) : (s.modCap n f).flt = s.flt := rfl
@[simp] theorem modCap_parts (n : Fin 16) (f : Cap → Cap) (s : State) : (s.modCap n f).parts = s.parts := rfl
@[simp] theorem modCap_frz (n : Fin 16) (f : Cap → Cap) (s : State) : (s.modCap n f).frz = s.frz := rfl
@[simp] theorem modCap_free (n : Fin 16) (f : Cap → Cap) (s : State) : (s.modCap n f).free = s.free := rfl

@[simp] theorem modIsland_island (f : Island → Island) (s : State) : (s.modIsland f).island = f s.island := rfl
@[simp] theorem modIsland_pending (f : Island → Island) (s : State) : (s.modIsland f).pending = s.pending := rfl
@[simp] theorem modIsland_time (f : Island → Island) (s : State) : (s.modIsland f).time = s.time := rfl
@[simp] theorem modIsland_store (f : Island → Island) (s : State) : (s.modIsland f).store = s.store := rfl
@[simp] theorem modIsland_loader (f : Island → Island) (s : State) : (s.modIsland f).loader = s.loader := rfl
@[simp] theorem modIsland_console (f : Island → Island) (s : State) : (s.modIsland f).console = s.console := rfl
@[simp] theorem modIsland_tap (f : Island → Island) (s : State) : (s.modIsland f).tap = s.tap := rfl
@[simp] theorem modIsland_pins (f : Island → Island) (s : State) : (s.modIsland f).pins = s.pins := rfl
@[simp] theorem modIsland_pinsUp (f : Island → Island) (s : State) : (s.modIsland f).pinsUp = s.pinsUp := rfl
@[simp] theorem modIsland_hstop (f : Island → Island) (s : State) : (s.modIsland f).hstop = s.hstop := rfl
@[simp] theorem modIsland_hstopOn (f : Island → Island) (s : State) : (s.modIsland f).hstopOn = s.hstopOn := rfl
@[simp] theorem modIsland_dispatched (f : Island → Island) (s : State) : (s.modIsland f).dispatched = s.dispatched := rfl
@[simp] theorem modIsland_tsc (f : Island → Island) (s : State) : (s.modIsland f).tsc = s.tsc := rfl
@[simp] theorem modIsland_mem (f : Island → Island) (s : State) : (s.modIsland f).mem = s.mem := rfl
@[simp] theorem modIsland_poison (f : Island → Island) (s : State) : (s.modIsland f).poison = s.poison := rfl
@[simp] theorem modIsland_scrub (f : Island → Island) (s : State) : (s.modIsland f).scrub = s.scrub := rfl
@[simp] theorem modIsland_rat (f : Island → Island) (s : State) : (s.modIsland f).rat = s.rat := rfl
@[simp] theorem modIsland_cores (f : Island → Island) (s : State) : (s.modIsland f).cores = s.cores := rfl
@[simp] theorem modIsland_aplic (f : Island → Island) (s : State) : (s.modIsland f).aplic = s.aplic := rfl
@[simp] theorem modIsland_srcLevel (f : Island → Island) (s : State) : (s.modIsland f).srcLevel = s.srcLevel := rfl
@[simp] theorem modIsland_queues (f : Island → Island) (s : State) : (s.modIsland f).queues = s.queues := rfl
@[simp] theorem modIsland_evbuf (f : Island → Island) (s : State) : (s.modIsland f).evbuf = s.evbuf := rfl
@[simp] theorem modIsland_fwver (f : Island → Island) (s : State) : (s.modIsland f).fwver = s.fwver := rfl
@[simp] theorem modIsland_rports (f : Island → Island) (s : State) : (s.modIsland f).rports = s.rports := rfl
@[simp] theorem modIsland_clusterHeld (f : Island → Island) (s : State) : (s.modIsland f).clusterHeld = s.clusterHeld := rfl
@[simp] theorem modIsland_clusterStop (f : Island → Island) (s : State) : (s.modIsland f).clusterStop = s.clusterStop := rfl
@[simp] theorem modIsland_tiles (f : Island → Island) (s : State) : (s.modIsland f).tiles = s.tiles := rfl
@[simp] theorem modIsland_shuttle (f : Island → Island) (s : State) : (s.modIsland f).shuttle = s.shuttle := rfl
@[simp] theorem modIsland_peat (f : Island → Island) (s : State) : (s.modIsland f).peat = s.peat := rfl
@[simp] theorem modIsland_lanes (f : Island → Island) (s : State) : (s.modIsland f).lanes = s.lanes := rfl
@[simp] theorem modIsland_fabric (f : Island → Island) (s : State) : (s.modIsland f).fabric = s.fabric := rfl
@[simp] theorem modIsland_ports (f : Island → Island) (s : State) : (s.modIsland f).ports = s.ports := rfl
@[simp] theorem modIsland_loopback (f : Island → Island) (s : State) : (s.modIsland f).loopback = s.loopback := rfl
@[simp] theorem modIsland_nextTid (f : Island → Island) (s : State) : (s.modIsland f).nextTid = s.nextTid := rfl
@[simp] theorem modIsland_remote (f : Island → Island) (s : State) : (s.modIsland f).remote = s.remote := rfl
@[simp] theorem modIsland_paceFrom (f : Island → Island) (s : State) : (s.modIsland f).paceFrom = s.paceFrom := rfl
@[simp] theorem modIsland_chans (f : Island → Island) (s : State) : (s.modIsland f).chans = s.chans := rfl
@[simp] theorem modIsland_axes (f : Island → Island) (s : State) : (s.modIsland f).axes = s.axes := rfl
@[simp] theorem modIsland_trd (f : Island → Island) (s : State) : (s.modIsland f).trd = s.trd := rfl
@[simp] theorem modIsland_fbk (f : Island → Island) (s : State) : (s.modIsland f).fbk = s.fbk := rfl
@[simp] theorem modIsland_cc (f : Island → Island) (s : State) : (s.modIsland f).cc = s.cc := rfl
@[simp] theorem modIsland_can (f : Island → Island) (s : State) : (s.modIsland f).can = s.can := rfl
@[simp] theorem modIsland_dsp (f : Island → Island) (s : State) : (s.modIsland f).dsp = s.dsp := rfl
@[simp] theorem modIsland_power (f : Island → Island) (s : State) : (s.modIsland f).power = s.power := rfl
@[simp] theorem modIsland_flt (f : Island → Island) (s : State) : (s.modIsland f).flt = s.flt := rfl
@[simp] theorem modIsland_parts (f : Island → Island) (s : State) : (s.modIsland f).parts = s.parts := rfl
@[simp] theorem modIsland_frz (f : Island → Island) (s : State) : (s.modIsland f).frz = s.frz := rfl
@[simp] theorem modIsland_free (f : Island → Island) (s : State) : (s.modIsland f).free = s.free := rfl

@[simp] theorem modStore_store (f : Store → Store) (s : State) : (s.modStore f).store = f s.store := rfl
@[simp] theorem modStore_pending (f : Store → Store) (s : State) : (s.modStore f).pending = s.pending := rfl
@[simp] theorem modStore_time (f : Store → Store) (s : State) : (s.modStore f).time = s.time := rfl
@[simp] theorem modStore_island (f : Store → Store) (s : State) : (s.modStore f).island = s.island := rfl
@[simp] theorem modStore_loader (f : Store → Store) (s : State) : (s.modStore f).loader = s.loader := rfl
@[simp] theorem modStore_console (f : Store → Store) (s : State) : (s.modStore f).console = s.console := rfl
@[simp] theorem modStore_tap (f : Store → Store) (s : State) : (s.modStore f).tap = s.tap := rfl
@[simp] theorem modStore_pins (f : Store → Store) (s : State) : (s.modStore f).pins = s.pins := rfl
@[simp] theorem modStore_pinsUp (f : Store → Store) (s : State) : (s.modStore f).pinsUp = s.pinsUp := rfl
@[simp] theorem modStore_hstop (f : Store → Store) (s : State) : (s.modStore f).hstop = s.hstop := rfl
@[simp] theorem modStore_hstopOn (f : Store → Store) (s : State) : (s.modStore f).hstopOn = s.hstopOn := rfl
@[simp] theorem modStore_dispatched (f : Store → Store) (s : State) : (s.modStore f).dispatched = s.dispatched := rfl
@[simp] theorem modStore_tsc (f : Store → Store) (s : State) : (s.modStore f).tsc = s.tsc := rfl
@[simp] theorem modStore_mem (f : Store → Store) (s : State) : (s.modStore f).mem = s.mem := rfl
@[simp] theorem modStore_poison (f : Store → Store) (s : State) : (s.modStore f).poison = s.poison := rfl
@[simp] theorem modStore_scrub (f : Store → Store) (s : State) : (s.modStore f).scrub = s.scrub := rfl
@[simp] theorem modStore_rat (f : Store → Store) (s : State) : (s.modStore f).rat = s.rat := rfl
@[simp] theorem modStore_cores (f : Store → Store) (s : State) : (s.modStore f).cores = s.cores := rfl
@[simp] theorem modStore_aplic (f : Store → Store) (s : State) : (s.modStore f).aplic = s.aplic := rfl
@[simp] theorem modStore_srcLevel (f : Store → Store) (s : State) : (s.modStore f).srcLevel = s.srcLevel := rfl
@[simp] theorem modStore_queues (f : Store → Store) (s : State) : (s.modStore f).queues = s.queues := rfl
@[simp] theorem modStore_evbuf (f : Store → Store) (s : State) : (s.modStore f).evbuf = s.evbuf := rfl
@[simp] theorem modStore_fwver (f : Store → Store) (s : State) : (s.modStore f).fwver = s.fwver := rfl
@[simp] theorem modStore_rports (f : Store → Store) (s : State) : (s.modStore f).rports = s.rports := rfl
@[simp] theorem modStore_clusterHeld (f : Store → Store) (s : State) : (s.modStore f).clusterHeld = s.clusterHeld := rfl
@[simp] theorem modStore_clusterStop (f : Store → Store) (s : State) : (s.modStore f).clusterStop = s.clusterStop := rfl
@[simp] theorem modStore_tiles (f : Store → Store) (s : State) : (s.modStore f).tiles = s.tiles := rfl
@[simp] theorem modStore_shuttle (f : Store → Store) (s : State) : (s.modStore f).shuttle = s.shuttle := rfl
@[simp] theorem modStore_peat (f : Store → Store) (s : State) : (s.modStore f).peat = s.peat := rfl
@[simp] theorem modStore_lanes (f : Store → Store) (s : State) : (s.modStore f).lanes = s.lanes := rfl
@[simp] theorem modStore_fabric (f : Store → Store) (s : State) : (s.modStore f).fabric = s.fabric := rfl
@[simp] theorem modStore_ports (f : Store → Store) (s : State) : (s.modStore f).ports = s.ports := rfl
@[simp] theorem modStore_loopback (f : Store → Store) (s : State) : (s.modStore f).loopback = s.loopback := rfl
@[simp] theorem modStore_nextTid (f : Store → Store) (s : State) : (s.modStore f).nextTid = s.nextTid := rfl
@[simp] theorem modStore_remote (f : Store → Store) (s : State) : (s.modStore f).remote = s.remote := rfl
@[simp] theorem modStore_paceFrom (f : Store → Store) (s : State) : (s.modStore f).paceFrom = s.paceFrom := rfl
@[simp] theorem modStore_chans (f : Store → Store) (s : State) : (s.modStore f).chans = s.chans := rfl
@[simp] theorem modStore_axes (f : Store → Store) (s : State) : (s.modStore f).axes = s.axes := rfl
@[simp] theorem modStore_trd (f : Store → Store) (s : State) : (s.modStore f).trd = s.trd := rfl
@[simp] theorem modStore_fbk (f : Store → Store) (s : State) : (s.modStore f).fbk = s.fbk := rfl
@[simp] theorem modStore_cc (f : Store → Store) (s : State) : (s.modStore f).cc = s.cc := rfl
@[simp] theorem modStore_can (f : Store → Store) (s : State) : (s.modStore f).can = s.can := rfl
@[simp] theorem modStore_dsp (f : Store → Store) (s : State) : (s.modStore f).dsp = s.dsp := rfl
@[simp] theorem modStore_power (f : Store → Store) (s : State) : (s.modStore f).power = s.power := rfl
@[simp] theorem modStore_flt (f : Store → Store) (s : State) : (s.modStore f).flt = s.flt := rfl
@[simp] theorem modStore_parts (f : Store → Store) (s : State) : (s.modStore f).parts = s.parts := rfl
@[simp] theorem modStore_frz (f : Store → Store) (s : State) : (s.modStore f).frz = s.frz := rfl
@[simp] theorem modStore_free (f : Store → Store) (s : State) : (s.modStore f).free = s.free := rfl

@[simp] theorem modLoader_loader (f : Loader → Loader) (s : State) : (s.modLoader f).loader = f s.loader := rfl
@[simp] theorem modLoader_pending (f : Loader → Loader) (s : State) : (s.modLoader f).pending = s.pending := rfl
@[simp] theorem modLoader_time (f : Loader → Loader) (s : State) : (s.modLoader f).time = s.time := rfl
@[simp] theorem modLoader_island (f : Loader → Loader) (s : State) : (s.modLoader f).island = s.island := rfl
@[simp] theorem modLoader_store (f : Loader → Loader) (s : State) : (s.modLoader f).store = s.store := rfl
@[simp] theorem modLoader_console (f : Loader → Loader) (s : State) : (s.modLoader f).console = s.console := rfl
@[simp] theorem modLoader_tap (f : Loader → Loader) (s : State) : (s.modLoader f).tap = s.tap := rfl
@[simp] theorem modLoader_pins (f : Loader → Loader) (s : State) : (s.modLoader f).pins = s.pins := rfl
@[simp] theorem modLoader_pinsUp (f : Loader → Loader) (s : State) : (s.modLoader f).pinsUp = s.pinsUp := rfl
@[simp] theorem modLoader_hstop (f : Loader → Loader) (s : State) : (s.modLoader f).hstop = s.hstop := rfl
@[simp] theorem modLoader_hstopOn (f : Loader → Loader) (s : State) : (s.modLoader f).hstopOn = s.hstopOn := rfl
@[simp] theorem modLoader_dispatched (f : Loader → Loader) (s : State) : (s.modLoader f).dispatched = s.dispatched := rfl
@[simp] theorem modLoader_tsc (f : Loader → Loader) (s : State) : (s.modLoader f).tsc = s.tsc := rfl
@[simp] theorem modLoader_mem (f : Loader → Loader) (s : State) : (s.modLoader f).mem = s.mem := rfl
@[simp] theorem modLoader_poison (f : Loader → Loader) (s : State) : (s.modLoader f).poison = s.poison := rfl
@[simp] theorem modLoader_scrub (f : Loader → Loader) (s : State) : (s.modLoader f).scrub = s.scrub := rfl
@[simp] theorem modLoader_rat (f : Loader → Loader) (s : State) : (s.modLoader f).rat = s.rat := rfl
@[simp] theorem modLoader_cores (f : Loader → Loader) (s : State) : (s.modLoader f).cores = s.cores := rfl
@[simp] theorem modLoader_aplic (f : Loader → Loader) (s : State) : (s.modLoader f).aplic = s.aplic := rfl
@[simp] theorem modLoader_srcLevel (f : Loader → Loader) (s : State) : (s.modLoader f).srcLevel = s.srcLevel := rfl
@[simp] theorem modLoader_queues (f : Loader → Loader) (s : State) : (s.modLoader f).queues = s.queues := rfl
@[simp] theorem modLoader_evbuf (f : Loader → Loader) (s : State) : (s.modLoader f).evbuf = s.evbuf := rfl
@[simp] theorem modLoader_fwver (f : Loader → Loader) (s : State) : (s.modLoader f).fwver = s.fwver := rfl
@[simp] theorem modLoader_rports (f : Loader → Loader) (s : State) : (s.modLoader f).rports = s.rports := rfl
@[simp] theorem modLoader_clusterHeld (f : Loader → Loader) (s : State) : (s.modLoader f).clusterHeld = s.clusterHeld := rfl
@[simp] theorem modLoader_clusterStop (f : Loader → Loader) (s : State) : (s.modLoader f).clusterStop = s.clusterStop := rfl
@[simp] theorem modLoader_tiles (f : Loader → Loader) (s : State) : (s.modLoader f).tiles = s.tiles := rfl
@[simp] theorem modLoader_shuttle (f : Loader → Loader) (s : State) : (s.modLoader f).shuttle = s.shuttle := rfl
@[simp] theorem modLoader_peat (f : Loader → Loader) (s : State) : (s.modLoader f).peat = s.peat := rfl
@[simp] theorem modLoader_lanes (f : Loader → Loader) (s : State) : (s.modLoader f).lanes = s.lanes := rfl
@[simp] theorem modLoader_fabric (f : Loader → Loader) (s : State) : (s.modLoader f).fabric = s.fabric := rfl
@[simp] theorem modLoader_ports (f : Loader → Loader) (s : State) : (s.modLoader f).ports = s.ports := rfl
@[simp] theorem modLoader_loopback (f : Loader → Loader) (s : State) : (s.modLoader f).loopback = s.loopback := rfl
@[simp] theorem modLoader_nextTid (f : Loader → Loader) (s : State) : (s.modLoader f).nextTid = s.nextTid := rfl
@[simp] theorem modLoader_remote (f : Loader → Loader) (s : State) : (s.modLoader f).remote = s.remote := rfl
@[simp] theorem modLoader_paceFrom (f : Loader → Loader) (s : State) : (s.modLoader f).paceFrom = s.paceFrom := rfl
@[simp] theorem modLoader_chans (f : Loader → Loader) (s : State) : (s.modLoader f).chans = s.chans := rfl
@[simp] theorem modLoader_axes (f : Loader → Loader) (s : State) : (s.modLoader f).axes = s.axes := rfl
@[simp] theorem modLoader_trd (f : Loader → Loader) (s : State) : (s.modLoader f).trd = s.trd := rfl
@[simp] theorem modLoader_fbk (f : Loader → Loader) (s : State) : (s.modLoader f).fbk = s.fbk := rfl
@[simp] theorem modLoader_cc (f : Loader → Loader) (s : State) : (s.modLoader f).cc = s.cc := rfl
@[simp] theorem modLoader_can (f : Loader → Loader) (s : State) : (s.modLoader f).can = s.can := rfl
@[simp] theorem modLoader_dsp (f : Loader → Loader) (s : State) : (s.modLoader f).dsp = s.dsp := rfl
@[simp] theorem modLoader_power (f : Loader → Loader) (s : State) : (s.modLoader f).power = s.power := rfl
@[simp] theorem modLoader_flt (f : Loader → Loader) (s : State) : (s.modLoader f).flt = s.flt := rfl
@[simp] theorem modLoader_parts (f : Loader → Loader) (s : State) : (s.modLoader f).parts = s.parts := rfl
@[simp] theorem modLoader_frz (f : Loader → Loader) (s : State) : (s.modLoader f).frz = s.frz := rfl
@[simp] theorem modLoader_free (f : Loader → Loader) (s : State) : (s.modLoader f).free = s.free := rfl

@[simp] theorem modConsole_console (f : Console → Console) (s : State) : (s.modConsole f).console = f s.console := rfl
@[simp] theorem modConsole_pending (f : Console → Console) (s : State) : (s.modConsole f).pending = s.pending := rfl
@[simp] theorem modConsole_time (f : Console → Console) (s : State) : (s.modConsole f).time = s.time := rfl
@[simp] theorem modConsole_island (f : Console → Console) (s : State) : (s.modConsole f).island = s.island := rfl
@[simp] theorem modConsole_store (f : Console → Console) (s : State) : (s.modConsole f).store = s.store := rfl
@[simp] theorem modConsole_loader (f : Console → Console) (s : State) : (s.modConsole f).loader = s.loader := rfl
@[simp] theorem modConsole_tap (f : Console → Console) (s : State) : (s.modConsole f).tap = s.tap := rfl
@[simp] theorem modConsole_pins (f : Console → Console) (s : State) : (s.modConsole f).pins = s.pins := rfl
@[simp] theorem modConsole_pinsUp (f : Console → Console) (s : State) : (s.modConsole f).pinsUp = s.pinsUp := rfl
@[simp] theorem modConsole_hstop (f : Console → Console) (s : State) : (s.modConsole f).hstop = s.hstop := rfl
@[simp] theorem modConsole_hstopOn (f : Console → Console) (s : State) : (s.modConsole f).hstopOn = s.hstopOn := rfl
@[simp] theorem modConsole_dispatched (f : Console → Console) (s : State) : (s.modConsole f).dispatched = s.dispatched := rfl
@[simp] theorem modConsole_tsc (f : Console → Console) (s : State) : (s.modConsole f).tsc = s.tsc := rfl
@[simp] theorem modConsole_mem (f : Console → Console) (s : State) : (s.modConsole f).mem = s.mem := rfl
@[simp] theorem modConsole_poison (f : Console → Console) (s : State) : (s.modConsole f).poison = s.poison := rfl
@[simp] theorem modConsole_scrub (f : Console → Console) (s : State) : (s.modConsole f).scrub = s.scrub := rfl
@[simp] theorem modConsole_rat (f : Console → Console) (s : State) : (s.modConsole f).rat = s.rat := rfl
@[simp] theorem modConsole_cores (f : Console → Console) (s : State) : (s.modConsole f).cores = s.cores := rfl
@[simp] theorem modConsole_aplic (f : Console → Console) (s : State) : (s.modConsole f).aplic = s.aplic := rfl
@[simp] theorem modConsole_srcLevel (f : Console → Console) (s : State) : (s.modConsole f).srcLevel = s.srcLevel := rfl
@[simp] theorem modConsole_queues (f : Console → Console) (s : State) : (s.modConsole f).queues = s.queues := rfl
@[simp] theorem modConsole_evbuf (f : Console → Console) (s : State) : (s.modConsole f).evbuf = s.evbuf := rfl
@[simp] theorem modConsole_fwver (f : Console → Console) (s : State) : (s.modConsole f).fwver = s.fwver := rfl
@[simp] theorem modConsole_rports (f : Console → Console) (s : State) : (s.modConsole f).rports = s.rports := rfl
@[simp] theorem modConsole_clusterHeld (f : Console → Console) (s : State) : (s.modConsole f).clusterHeld = s.clusterHeld := rfl
@[simp] theorem modConsole_clusterStop (f : Console → Console) (s : State) : (s.modConsole f).clusterStop = s.clusterStop := rfl
@[simp] theorem modConsole_tiles (f : Console → Console) (s : State) : (s.modConsole f).tiles = s.tiles := rfl
@[simp] theorem modConsole_shuttle (f : Console → Console) (s : State) : (s.modConsole f).shuttle = s.shuttle := rfl
@[simp] theorem modConsole_peat (f : Console → Console) (s : State) : (s.modConsole f).peat = s.peat := rfl
@[simp] theorem modConsole_lanes (f : Console → Console) (s : State) : (s.modConsole f).lanes = s.lanes := rfl
@[simp] theorem modConsole_fabric (f : Console → Console) (s : State) : (s.modConsole f).fabric = s.fabric := rfl
@[simp] theorem modConsole_ports (f : Console → Console) (s : State) : (s.modConsole f).ports = s.ports := rfl
@[simp] theorem modConsole_loopback (f : Console → Console) (s : State) : (s.modConsole f).loopback = s.loopback := rfl
@[simp] theorem modConsole_nextTid (f : Console → Console) (s : State) : (s.modConsole f).nextTid = s.nextTid := rfl
@[simp] theorem modConsole_remote (f : Console → Console) (s : State) : (s.modConsole f).remote = s.remote := rfl
@[simp] theorem modConsole_paceFrom (f : Console → Console) (s : State) : (s.modConsole f).paceFrom = s.paceFrom := rfl
@[simp] theorem modConsole_chans (f : Console → Console) (s : State) : (s.modConsole f).chans = s.chans := rfl
@[simp] theorem modConsole_axes (f : Console → Console) (s : State) : (s.modConsole f).axes = s.axes := rfl
@[simp] theorem modConsole_trd (f : Console → Console) (s : State) : (s.modConsole f).trd = s.trd := rfl
@[simp] theorem modConsole_fbk (f : Console → Console) (s : State) : (s.modConsole f).fbk = s.fbk := rfl
@[simp] theorem modConsole_cc (f : Console → Console) (s : State) : (s.modConsole f).cc = s.cc := rfl
@[simp] theorem modConsole_can (f : Console → Console) (s : State) : (s.modConsole f).can = s.can := rfl
@[simp] theorem modConsole_dsp (f : Console → Console) (s : State) : (s.modConsole f).dsp = s.dsp := rfl
@[simp] theorem modConsole_power (f : Console → Console) (s : State) : (s.modConsole f).power = s.power := rfl
@[simp] theorem modConsole_flt (f : Console → Console) (s : State) : (s.modConsole f).flt = s.flt := rfl
@[simp] theorem modConsole_parts (f : Console → Console) (s : State) : (s.modConsole f).parts = s.parts := rfl
@[simp] theorem modConsole_frz (f : Console → Console) (s : State) : (s.modConsole f).frz = s.frz := rfl
@[simp] theorem modConsole_free (f : Console → Console) (s : State) : (s.modConsole f).free = s.free := rfl

@[simp] theorem modTime_time (f : TimeBase → TimeBase) (s : State) : (s.modTime f).time = f s.time := rfl
@[simp] theorem modTime_pending (f : TimeBase → TimeBase) (s : State) : (s.modTime f).pending = s.pending := rfl
@[simp] theorem modTime_island (f : TimeBase → TimeBase) (s : State) : (s.modTime f).island = s.island := rfl
@[simp] theorem modTime_store (f : TimeBase → TimeBase) (s : State) : (s.modTime f).store = s.store := rfl
@[simp] theorem modTime_loader (f : TimeBase → TimeBase) (s : State) : (s.modTime f).loader = s.loader := rfl
@[simp] theorem modTime_console (f : TimeBase → TimeBase) (s : State) : (s.modTime f).console = s.console := rfl
@[simp] theorem modTime_tap (f : TimeBase → TimeBase) (s : State) : (s.modTime f).tap = s.tap := rfl
@[simp] theorem modTime_pins (f : TimeBase → TimeBase) (s : State) : (s.modTime f).pins = s.pins := rfl
@[simp] theorem modTime_pinsUp (f : TimeBase → TimeBase) (s : State) : (s.modTime f).pinsUp = s.pinsUp := rfl
@[simp] theorem modTime_hstop (f : TimeBase → TimeBase) (s : State) : (s.modTime f).hstop = s.hstop := rfl
@[simp] theorem modTime_hstopOn (f : TimeBase → TimeBase) (s : State) : (s.modTime f).hstopOn = s.hstopOn := rfl
@[simp] theorem modTime_dispatched (f : TimeBase → TimeBase) (s : State) : (s.modTime f).dispatched = s.dispatched := rfl
@[simp] theorem modTime_tsc (f : TimeBase → TimeBase) (s : State) : (s.modTime f).tsc = s.tsc := rfl
@[simp] theorem modTime_mem (f : TimeBase → TimeBase) (s : State) : (s.modTime f).mem = s.mem := rfl
@[simp] theorem modTime_poison (f : TimeBase → TimeBase) (s : State) : (s.modTime f).poison = s.poison := rfl
@[simp] theorem modTime_scrub (f : TimeBase → TimeBase) (s : State) : (s.modTime f).scrub = s.scrub := rfl
@[simp] theorem modTime_rat (f : TimeBase → TimeBase) (s : State) : (s.modTime f).rat = s.rat := rfl
@[simp] theorem modTime_cores (f : TimeBase → TimeBase) (s : State) : (s.modTime f).cores = s.cores := rfl
@[simp] theorem modTime_aplic (f : TimeBase → TimeBase) (s : State) : (s.modTime f).aplic = s.aplic := rfl
@[simp] theorem modTime_srcLevel (f : TimeBase → TimeBase) (s : State) : (s.modTime f).srcLevel = s.srcLevel := rfl
@[simp] theorem modTime_queues (f : TimeBase → TimeBase) (s : State) : (s.modTime f).queues = s.queues := rfl
@[simp] theorem modTime_evbuf (f : TimeBase → TimeBase) (s : State) : (s.modTime f).evbuf = s.evbuf := rfl
@[simp] theorem modTime_fwver (f : TimeBase → TimeBase) (s : State) : (s.modTime f).fwver = s.fwver := rfl
@[simp] theorem modTime_rports (f : TimeBase → TimeBase) (s : State) : (s.modTime f).rports = s.rports := rfl
@[simp] theorem modTime_clusterHeld (f : TimeBase → TimeBase) (s : State) : (s.modTime f).clusterHeld = s.clusterHeld := rfl
@[simp] theorem modTime_clusterStop (f : TimeBase → TimeBase) (s : State) : (s.modTime f).clusterStop = s.clusterStop := rfl
@[simp] theorem modTime_tiles (f : TimeBase → TimeBase) (s : State) : (s.modTime f).tiles = s.tiles := rfl
@[simp] theorem modTime_shuttle (f : TimeBase → TimeBase) (s : State) : (s.modTime f).shuttle = s.shuttle := rfl
@[simp] theorem modTime_peat (f : TimeBase → TimeBase) (s : State) : (s.modTime f).peat = s.peat := rfl
@[simp] theorem modTime_lanes (f : TimeBase → TimeBase) (s : State) : (s.modTime f).lanes = s.lanes := rfl
@[simp] theorem modTime_fabric (f : TimeBase → TimeBase) (s : State) : (s.modTime f).fabric = s.fabric := rfl
@[simp] theorem modTime_ports (f : TimeBase → TimeBase) (s : State) : (s.modTime f).ports = s.ports := rfl
@[simp] theorem modTime_loopback (f : TimeBase → TimeBase) (s : State) : (s.modTime f).loopback = s.loopback := rfl
@[simp] theorem modTime_nextTid (f : TimeBase → TimeBase) (s : State) : (s.modTime f).nextTid = s.nextTid := rfl
@[simp] theorem modTime_remote (f : TimeBase → TimeBase) (s : State) : (s.modTime f).remote = s.remote := rfl
@[simp] theorem modTime_paceFrom (f : TimeBase → TimeBase) (s : State) : (s.modTime f).paceFrom = s.paceFrom := rfl
@[simp] theorem modTime_chans (f : TimeBase → TimeBase) (s : State) : (s.modTime f).chans = s.chans := rfl
@[simp] theorem modTime_axes (f : TimeBase → TimeBase) (s : State) : (s.modTime f).axes = s.axes := rfl
@[simp] theorem modTime_trd (f : TimeBase → TimeBase) (s : State) : (s.modTime f).trd = s.trd := rfl
@[simp] theorem modTime_fbk (f : TimeBase → TimeBase) (s : State) : (s.modTime f).fbk = s.fbk := rfl
@[simp] theorem modTime_cc (f : TimeBase → TimeBase) (s : State) : (s.modTime f).cc = s.cc := rfl
@[simp] theorem modTime_can (f : TimeBase → TimeBase) (s : State) : (s.modTime f).can = s.can := rfl
@[simp] theorem modTime_dsp (f : TimeBase → TimeBase) (s : State) : (s.modTime f).dsp = s.dsp := rfl
@[simp] theorem modTime_power (f : TimeBase → TimeBase) (s : State) : (s.modTime f).power = s.power := rfl
@[simp] theorem modTime_flt (f : TimeBase → TimeBase) (s : State) : (s.modTime f).flt = s.flt := rfl
@[simp] theorem modTime_parts (f : TimeBase → TimeBase) (s : State) : (s.modTime f).parts = s.parts := rfl
@[simp] theorem modTime_frz (f : TimeBase → TimeBase) (s : State) : (s.modTime f).frz = s.frz := rfl
@[simp] theorem modTime_free (f : TimeBase → TimeBase) (s : State) : (s.modTime f).free = s.free := rfl

@[simp] theorem modDsp_dsp (f : Display → Display) (s : State) : (s.modDsp f).dsp = f s.dsp := rfl
@[simp] theorem modDsp_pending (f : Display → Display) (s : State) : (s.modDsp f).pending = s.pending := rfl
@[simp] theorem modDsp_time (f : Display → Display) (s : State) : (s.modDsp f).time = s.time := rfl
@[simp] theorem modDsp_island (f : Display → Display) (s : State) : (s.modDsp f).island = s.island := rfl
@[simp] theorem modDsp_store (f : Display → Display) (s : State) : (s.modDsp f).store = s.store := rfl
@[simp] theorem modDsp_loader (f : Display → Display) (s : State) : (s.modDsp f).loader = s.loader := rfl
@[simp] theorem modDsp_console (f : Display → Display) (s : State) : (s.modDsp f).console = s.console := rfl
@[simp] theorem modDsp_tap (f : Display → Display) (s : State) : (s.modDsp f).tap = s.tap := rfl
@[simp] theorem modDsp_pins (f : Display → Display) (s : State) : (s.modDsp f).pins = s.pins := rfl
@[simp] theorem modDsp_pinsUp (f : Display → Display) (s : State) : (s.modDsp f).pinsUp = s.pinsUp := rfl
@[simp] theorem modDsp_hstop (f : Display → Display) (s : State) : (s.modDsp f).hstop = s.hstop := rfl
@[simp] theorem modDsp_hstopOn (f : Display → Display) (s : State) : (s.modDsp f).hstopOn = s.hstopOn := rfl
@[simp] theorem modDsp_dispatched (f : Display → Display) (s : State) : (s.modDsp f).dispatched = s.dispatched := rfl
@[simp] theorem modDsp_tsc (f : Display → Display) (s : State) : (s.modDsp f).tsc = s.tsc := rfl
@[simp] theorem modDsp_mem (f : Display → Display) (s : State) : (s.modDsp f).mem = s.mem := rfl
@[simp] theorem modDsp_poison (f : Display → Display) (s : State) : (s.modDsp f).poison = s.poison := rfl
@[simp] theorem modDsp_scrub (f : Display → Display) (s : State) : (s.modDsp f).scrub = s.scrub := rfl
@[simp] theorem modDsp_rat (f : Display → Display) (s : State) : (s.modDsp f).rat = s.rat := rfl
@[simp] theorem modDsp_cores (f : Display → Display) (s : State) : (s.modDsp f).cores = s.cores := rfl
@[simp] theorem modDsp_aplic (f : Display → Display) (s : State) : (s.modDsp f).aplic = s.aplic := rfl
@[simp] theorem modDsp_srcLevel (f : Display → Display) (s : State) : (s.modDsp f).srcLevel = s.srcLevel := rfl
@[simp] theorem modDsp_queues (f : Display → Display) (s : State) : (s.modDsp f).queues = s.queues := rfl
@[simp] theorem modDsp_evbuf (f : Display → Display) (s : State) : (s.modDsp f).evbuf = s.evbuf := rfl
@[simp] theorem modDsp_fwver (f : Display → Display) (s : State) : (s.modDsp f).fwver = s.fwver := rfl
@[simp] theorem modDsp_rports (f : Display → Display) (s : State) : (s.modDsp f).rports = s.rports := rfl
@[simp] theorem modDsp_clusterHeld (f : Display → Display) (s : State) : (s.modDsp f).clusterHeld = s.clusterHeld := rfl
@[simp] theorem modDsp_clusterStop (f : Display → Display) (s : State) : (s.modDsp f).clusterStop = s.clusterStop := rfl
@[simp] theorem modDsp_tiles (f : Display → Display) (s : State) : (s.modDsp f).tiles = s.tiles := rfl
@[simp] theorem modDsp_shuttle (f : Display → Display) (s : State) : (s.modDsp f).shuttle = s.shuttle := rfl
@[simp] theorem modDsp_peat (f : Display → Display) (s : State) : (s.modDsp f).peat = s.peat := rfl
@[simp] theorem modDsp_lanes (f : Display → Display) (s : State) : (s.modDsp f).lanes = s.lanes := rfl
@[simp] theorem modDsp_fabric (f : Display → Display) (s : State) : (s.modDsp f).fabric = s.fabric := rfl
@[simp] theorem modDsp_ports (f : Display → Display) (s : State) : (s.modDsp f).ports = s.ports := rfl
@[simp] theorem modDsp_loopback (f : Display → Display) (s : State) : (s.modDsp f).loopback = s.loopback := rfl
@[simp] theorem modDsp_nextTid (f : Display → Display) (s : State) : (s.modDsp f).nextTid = s.nextTid := rfl
@[simp] theorem modDsp_remote (f : Display → Display) (s : State) : (s.modDsp f).remote = s.remote := rfl
@[simp] theorem modDsp_paceFrom (f : Display → Display) (s : State) : (s.modDsp f).paceFrom = s.paceFrom := rfl
@[simp] theorem modDsp_chans (f : Display → Display) (s : State) : (s.modDsp f).chans = s.chans := rfl
@[simp] theorem modDsp_axes (f : Display → Display) (s : State) : (s.modDsp f).axes = s.axes := rfl
@[simp] theorem modDsp_trd (f : Display → Display) (s : State) : (s.modDsp f).trd = s.trd := rfl
@[simp] theorem modDsp_fbk (f : Display → Display) (s : State) : (s.modDsp f).fbk = s.fbk := rfl
@[simp] theorem modDsp_cc (f : Display → Display) (s : State) : (s.modDsp f).cc = s.cc := rfl
@[simp] theorem modDsp_can (f : Display → Display) (s : State) : (s.modDsp f).can = s.can := rfl
@[simp] theorem modDsp_power (f : Display → Display) (s : State) : (s.modDsp f).power = s.power := rfl
@[simp] theorem modDsp_flt (f : Display → Display) (s : State) : (s.modDsp f).flt = s.flt := rfl
@[simp] theorem modDsp_parts (f : Display → Display) (s : State) : (s.modDsp f).parts = s.parts := rfl
@[simp] theorem modDsp_frz (f : Display → Display) (s : State) : (s.modDsp f).frz = s.frz := rfl
@[simp] theorem modDsp_free (f : Display → Display) (s : State) : (s.modDsp f).free = s.free := rfl

@[simp] theorem modPower_power (f : Power → Power) (s : State) : (s.modPower f).power = f s.power := rfl
@[simp] theorem modPower_pending (f : Power → Power) (s : State) : (s.modPower f).pending = s.pending := rfl
@[simp] theorem modPower_time (f : Power → Power) (s : State) : (s.modPower f).time = s.time := rfl
@[simp] theorem modPower_island (f : Power → Power) (s : State) : (s.modPower f).island = s.island := rfl
@[simp] theorem modPower_store (f : Power → Power) (s : State) : (s.modPower f).store = s.store := rfl
@[simp] theorem modPower_loader (f : Power → Power) (s : State) : (s.modPower f).loader = s.loader := rfl
@[simp] theorem modPower_console (f : Power → Power) (s : State) : (s.modPower f).console = s.console := rfl
@[simp] theorem modPower_tap (f : Power → Power) (s : State) : (s.modPower f).tap = s.tap := rfl
@[simp] theorem modPower_pins (f : Power → Power) (s : State) : (s.modPower f).pins = s.pins := rfl
@[simp] theorem modPower_pinsUp (f : Power → Power) (s : State) : (s.modPower f).pinsUp = s.pinsUp := rfl
@[simp] theorem modPower_hstop (f : Power → Power) (s : State) : (s.modPower f).hstop = s.hstop := rfl
@[simp] theorem modPower_hstopOn (f : Power → Power) (s : State) : (s.modPower f).hstopOn = s.hstopOn := rfl
@[simp] theorem modPower_dispatched (f : Power → Power) (s : State) : (s.modPower f).dispatched = s.dispatched := rfl
@[simp] theorem modPower_tsc (f : Power → Power) (s : State) : (s.modPower f).tsc = s.tsc := rfl
@[simp] theorem modPower_mem (f : Power → Power) (s : State) : (s.modPower f).mem = s.mem := rfl
@[simp] theorem modPower_poison (f : Power → Power) (s : State) : (s.modPower f).poison = s.poison := rfl
@[simp] theorem modPower_scrub (f : Power → Power) (s : State) : (s.modPower f).scrub = s.scrub := rfl
@[simp] theorem modPower_rat (f : Power → Power) (s : State) : (s.modPower f).rat = s.rat := rfl
@[simp] theorem modPower_cores (f : Power → Power) (s : State) : (s.modPower f).cores = s.cores := rfl
@[simp] theorem modPower_aplic (f : Power → Power) (s : State) : (s.modPower f).aplic = s.aplic := rfl
@[simp] theorem modPower_srcLevel (f : Power → Power) (s : State) : (s.modPower f).srcLevel = s.srcLevel := rfl
@[simp] theorem modPower_queues (f : Power → Power) (s : State) : (s.modPower f).queues = s.queues := rfl
@[simp] theorem modPower_evbuf (f : Power → Power) (s : State) : (s.modPower f).evbuf = s.evbuf := rfl
@[simp] theorem modPower_fwver (f : Power → Power) (s : State) : (s.modPower f).fwver = s.fwver := rfl
@[simp] theorem modPower_rports (f : Power → Power) (s : State) : (s.modPower f).rports = s.rports := rfl
@[simp] theorem modPower_clusterHeld (f : Power → Power) (s : State) : (s.modPower f).clusterHeld = s.clusterHeld := rfl
@[simp] theorem modPower_clusterStop (f : Power → Power) (s : State) : (s.modPower f).clusterStop = s.clusterStop := rfl
@[simp] theorem modPower_tiles (f : Power → Power) (s : State) : (s.modPower f).tiles = s.tiles := rfl
@[simp] theorem modPower_shuttle (f : Power → Power) (s : State) : (s.modPower f).shuttle = s.shuttle := rfl
@[simp] theorem modPower_peat (f : Power → Power) (s : State) : (s.modPower f).peat = s.peat := rfl
@[simp] theorem modPower_lanes (f : Power → Power) (s : State) : (s.modPower f).lanes = s.lanes := rfl
@[simp] theorem modPower_fabric (f : Power → Power) (s : State) : (s.modPower f).fabric = s.fabric := rfl
@[simp] theorem modPower_ports (f : Power → Power) (s : State) : (s.modPower f).ports = s.ports := rfl
@[simp] theorem modPower_loopback (f : Power → Power) (s : State) : (s.modPower f).loopback = s.loopback := rfl
@[simp] theorem modPower_nextTid (f : Power → Power) (s : State) : (s.modPower f).nextTid = s.nextTid := rfl
@[simp] theorem modPower_remote (f : Power → Power) (s : State) : (s.modPower f).remote = s.remote := rfl
@[simp] theorem modPower_paceFrom (f : Power → Power) (s : State) : (s.modPower f).paceFrom = s.paceFrom := rfl
@[simp] theorem modPower_chans (f : Power → Power) (s : State) : (s.modPower f).chans = s.chans := rfl
@[simp] theorem modPower_axes (f : Power → Power) (s : State) : (s.modPower f).axes = s.axes := rfl
@[simp] theorem modPower_trd (f : Power → Power) (s : State) : (s.modPower f).trd = s.trd := rfl
@[simp] theorem modPower_fbk (f : Power → Power) (s : State) : (s.modPower f).fbk = s.fbk := rfl
@[simp] theorem modPower_cc (f : Power → Power) (s : State) : (s.modPower f).cc = s.cc := rfl
@[simp] theorem modPower_can (f : Power → Power) (s : State) : (s.modPower f).can = s.can := rfl
@[simp] theorem modPower_dsp (f : Power → Power) (s : State) : (s.modPower f).dsp = s.dsp := rfl
@[simp] theorem modPower_flt (f : Power → Power) (s : State) : (s.modPower f).flt = s.flt := rfl
@[simp] theorem modPower_parts (f : Power → Power) (s : State) : (s.modPower f).parts = s.parts := rfl
@[simp] theorem modPower_frz (f : Power → Power) (s : State) : (s.modPower f).frz = s.frz := rfl
@[simp] theorem modPower_free (f : Power → Power) (s : State) : (s.modPower f).free = s.free := rfl

@[simp] theorem modFrz_frz (f : Freeze → Freeze) (s : State) : (s.modFrz f).frz = f s.frz := rfl
@[simp] theorem modFrz_pending (f : Freeze → Freeze) (s : State) : (s.modFrz f).pending = s.pending := rfl
@[simp] theorem modFrz_time (f : Freeze → Freeze) (s : State) : (s.modFrz f).time = s.time := rfl
@[simp] theorem modFrz_island (f : Freeze → Freeze) (s : State) : (s.modFrz f).island = s.island := rfl
@[simp] theorem modFrz_store (f : Freeze → Freeze) (s : State) : (s.modFrz f).store = s.store := rfl
@[simp] theorem modFrz_loader (f : Freeze → Freeze) (s : State) : (s.modFrz f).loader = s.loader := rfl
@[simp] theorem modFrz_console (f : Freeze → Freeze) (s : State) : (s.modFrz f).console = s.console := rfl
@[simp] theorem modFrz_tap (f : Freeze → Freeze) (s : State) : (s.modFrz f).tap = s.tap := rfl
@[simp] theorem modFrz_pins (f : Freeze → Freeze) (s : State) : (s.modFrz f).pins = s.pins := rfl
@[simp] theorem modFrz_pinsUp (f : Freeze → Freeze) (s : State) : (s.modFrz f).pinsUp = s.pinsUp := rfl
@[simp] theorem modFrz_hstop (f : Freeze → Freeze) (s : State) : (s.modFrz f).hstop = s.hstop := rfl
@[simp] theorem modFrz_hstopOn (f : Freeze → Freeze) (s : State) : (s.modFrz f).hstopOn = s.hstopOn := rfl
@[simp] theorem modFrz_dispatched (f : Freeze → Freeze) (s : State) : (s.modFrz f).dispatched = s.dispatched := rfl
@[simp] theorem modFrz_tsc (f : Freeze → Freeze) (s : State) : (s.modFrz f).tsc = s.tsc := rfl
@[simp] theorem modFrz_mem (f : Freeze → Freeze) (s : State) : (s.modFrz f).mem = s.mem := rfl
@[simp] theorem modFrz_poison (f : Freeze → Freeze) (s : State) : (s.modFrz f).poison = s.poison := rfl
@[simp] theorem modFrz_scrub (f : Freeze → Freeze) (s : State) : (s.modFrz f).scrub = s.scrub := rfl
@[simp] theorem modFrz_rat (f : Freeze → Freeze) (s : State) : (s.modFrz f).rat = s.rat := rfl
@[simp] theorem modFrz_cores (f : Freeze → Freeze) (s : State) : (s.modFrz f).cores = s.cores := rfl
@[simp] theorem modFrz_aplic (f : Freeze → Freeze) (s : State) : (s.modFrz f).aplic = s.aplic := rfl
@[simp] theorem modFrz_srcLevel (f : Freeze → Freeze) (s : State) : (s.modFrz f).srcLevel = s.srcLevel := rfl
@[simp] theorem modFrz_queues (f : Freeze → Freeze) (s : State) : (s.modFrz f).queues = s.queues := rfl
@[simp] theorem modFrz_evbuf (f : Freeze → Freeze) (s : State) : (s.modFrz f).evbuf = s.evbuf := rfl
@[simp] theorem modFrz_fwver (f : Freeze → Freeze) (s : State) : (s.modFrz f).fwver = s.fwver := rfl
@[simp] theorem modFrz_rports (f : Freeze → Freeze) (s : State) : (s.modFrz f).rports = s.rports := rfl
@[simp] theorem modFrz_clusterHeld (f : Freeze → Freeze) (s : State) : (s.modFrz f).clusterHeld = s.clusterHeld := rfl
@[simp] theorem modFrz_clusterStop (f : Freeze → Freeze) (s : State) : (s.modFrz f).clusterStop = s.clusterStop := rfl
@[simp] theorem modFrz_tiles (f : Freeze → Freeze) (s : State) : (s.modFrz f).tiles = s.tiles := rfl
@[simp] theorem modFrz_shuttle (f : Freeze → Freeze) (s : State) : (s.modFrz f).shuttle = s.shuttle := rfl
@[simp] theorem modFrz_peat (f : Freeze → Freeze) (s : State) : (s.modFrz f).peat = s.peat := rfl
@[simp] theorem modFrz_lanes (f : Freeze → Freeze) (s : State) : (s.modFrz f).lanes = s.lanes := rfl
@[simp] theorem modFrz_fabric (f : Freeze → Freeze) (s : State) : (s.modFrz f).fabric = s.fabric := rfl
@[simp] theorem modFrz_ports (f : Freeze → Freeze) (s : State) : (s.modFrz f).ports = s.ports := rfl
@[simp] theorem modFrz_loopback (f : Freeze → Freeze) (s : State) : (s.modFrz f).loopback = s.loopback := rfl
@[simp] theorem modFrz_nextTid (f : Freeze → Freeze) (s : State) : (s.modFrz f).nextTid = s.nextTid := rfl
@[simp] theorem modFrz_remote (f : Freeze → Freeze) (s : State) : (s.modFrz f).remote = s.remote := rfl
@[simp] theorem modFrz_paceFrom (f : Freeze → Freeze) (s : State) : (s.modFrz f).paceFrom = s.paceFrom := rfl
@[simp] theorem modFrz_chans (f : Freeze → Freeze) (s : State) : (s.modFrz f).chans = s.chans := rfl
@[simp] theorem modFrz_axes (f : Freeze → Freeze) (s : State) : (s.modFrz f).axes = s.axes := rfl
@[simp] theorem modFrz_trd (f : Freeze → Freeze) (s : State) : (s.modFrz f).trd = s.trd := rfl
@[simp] theorem modFrz_fbk (f : Freeze → Freeze) (s : State) : (s.modFrz f).fbk = s.fbk := rfl
@[simp] theorem modFrz_cc (f : Freeze → Freeze) (s : State) : (s.modFrz f).cc = s.cc := rfl
@[simp] theorem modFrz_can (f : Freeze → Freeze) (s : State) : (s.modFrz f).can = s.can := rfl
@[simp] theorem modFrz_dsp (f : Freeze → Freeze) (s : State) : (s.modFrz f).dsp = s.dsp := rfl
@[simp] theorem modFrz_power (f : Freeze → Freeze) (s : State) : (s.modFrz f).power = s.power := rfl
@[simp] theorem modFrz_flt (f : Freeze → Freeze) (s : State) : (s.modFrz f).flt = s.flt := rfl
@[simp] theorem modFrz_parts (f : Freeze → Freeze) (s : State) : (s.modFrz f).parts = s.parts := rfl
@[simp] theorem modFrz_free (f : Freeze → Freeze) (s : State) : (s.modFrz f).free = s.free := rfl

@[simp] theorem modRat_rat (f : Rat → Rat) (s : State) : (s.modRat f).rat = f s.rat := rfl
@[simp] theorem modRat_pending (f : Rat → Rat) (s : State) : (s.modRat f).pending = s.pending := rfl
@[simp] theorem modRat_time (f : Rat → Rat) (s : State) : (s.modRat f).time = s.time := rfl
@[simp] theorem modRat_island (f : Rat → Rat) (s : State) : (s.modRat f).island = s.island := rfl
@[simp] theorem modRat_store (f : Rat → Rat) (s : State) : (s.modRat f).store = s.store := rfl
@[simp] theorem modRat_loader (f : Rat → Rat) (s : State) : (s.modRat f).loader = s.loader := rfl
@[simp] theorem modRat_console (f : Rat → Rat) (s : State) : (s.modRat f).console = s.console := rfl
@[simp] theorem modRat_tap (f : Rat → Rat) (s : State) : (s.modRat f).tap = s.tap := rfl
@[simp] theorem modRat_pins (f : Rat → Rat) (s : State) : (s.modRat f).pins = s.pins := rfl
@[simp] theorem modRat_pinsUp (f : Rat → Rat) (s : State) : (s.modRat f).pinsUp = s.pinsUp := rfl
@[simp] theorem modRat_hstop (f : Rat → Rat) (s : State) : (s.modRat f).hstop = s.hstop := rfl
@[simp] theorem modRat_hstopOn (f : Rat → Rat) (s : State) : (s.modRat f).hstopOn = s.hstopOn := rfl
@[simp] theorem modRat_dispatched (f : Rat → Rat) (s : State) : (s.modRat f).dispatched = s.dispatched := rfl
@[simp] theorem modRat_tsc (f : Rat → Rat) (s : State) : (s.modRat f).tsc = s.tsc := rfl
@[simp] theorem modRat_mem (f : Rat → Rat) (s : State) : (s.modRat f).mem = s.mem := rfl
@[simp] theorem modRat_poison (f : Rat → Rat) (s : State) : (s.modRat f).poison = s.poison := rfl
@[simp] theorem modRat_scrub (f : Rat → Rat) (s : State) : (s.modRat f).scrub = s.scrub := rfl
@[simp] theorem modRat_cores (f : Rat → Rat) (s : State) : (s.modRat f).cores = s.cores := rfl
@[simp] theorem modRat_aplic (f : Rat → Rat) (s : State) : (s.modRat f).aplic = s.aplic := rfl
@[simp] theorem modRat_srcLevel (f : Rat → Rat) (s : State) : (s.modRat f).srcLevel = s.srcLevel := rfl
@[simp] theorem modRat_queues (f : Rat → Rat) (s : State) : (s.modRat f).queues = s.queues := rfl
@[simp] theorem modRat_evbuf (f : Rat → Rat) (s : State) : (s.modRat f).evbuf = s.evbuf := rfl
@[simp] theorem modRat_fwver (f : Rat → Rat) (s : State) : (s.modRat f).fwver = s.fwver := rfl
@[simp] theorem modRat_rports (f : Rat → Rat) (s : State) : (s.modRat f).rports = s.rports := rfl
@[simp] theorem modRat_clusterHeld (f : Rat → Rat) (s : State) : (s.modRat f).clusterHeld = s.clusterHeld := rfl
@[simp] theorem modRat_clusterStop (f : Rat → Rat) (s : State) : (s.modRat f).clusterStop = s.clusterStop := rfl
@[simp] theorem modRat_tiles (f : Rat → Rat) (s : State) : (s.modRat f).tiles = s.tiles := rfl
@[simp] theorem modRat_shuttle (f : Rat → Rat) (s : State) : (s.modRat f).shuttle = s.shuttle := rfl
@[simp] theorem modRat_peat (f : Rat → Rat) (s : State) : (s.modRat f).peat = s.peat := rfl
@[simp] theorem modRat_lanes (f : Rat → Rat) (s : State) : (s.modRat f).lanes = s.lanes := rfl
@[simp] theorem modRat_fabric (f : Rat → Rat) (s : State) : (s.modRat f).fabric = s.fabric := rfl
@[simp] theorem modRat_ports (f : Rat → Rat) (s : State) : (s.modRat f).ports = s.ports := rfl
@[simp] theorem modRat_loopback (f : Rat → Rat) (s : State) : (s.modRat f).loopback = s.loopback := rfl
@[simp] theorem modRat_nextTid (f : Rat → Rat) (s : State) : (s.modRat f).nextTid = s.nextTid := rfl
@[simp] theorem modRat_remote (f : Rat → Rat) (s : State) : (s.modRat f).remote = s.remote := rfl
@[simp] theorem modRat_paceFrom (f : Rat → Rat) (s : State) : (s.modRat f).paceFrom = s.paceFrom := rfl
@[simp] theorem modRat_chans (f : Rat → Rat) (s : State) : (s.modRat f).chans = s.chans := rfl
@[simp] theorem modRat_axes (f : Rat → Rat) (s : State) : (s.modRat f).axes = s.axes := rfl
@[simp] theorem modRat_trd (f : Rat → Rat) (s : State) : (s.modRat f).trd = s.trd := rfl
@[simp] theorem modRat_fbk (f : Rat → Rat) (s : State) : (s.modRat f).fbk = s.fbk := rfl
@[simp] theorem modRat_cc (f : Rat → Rat) (s : State) : (s.modRat f).cc = s.cc := rfl
@[simp] theorem modRat_can (f : Rat → Rat) (s : State) : (s.modRat f).can = s.can := rfl
@[simp] theorem modRat_dsp (f : Rat → Rat) (s : State) : (s.modRat f).dsp = s.dsp := rfl
@[simp] theorem modRat_power (f : Rat → Rat) (s : State) : (s.modRat f).power = s.power := rfl
@[simp] theorem modRat_flt (f : Rat → Rat) (s : State) : (s.modRat f).flt = s.flt := rfl
@[simp] theorem modRat_parts (f : Rat → Rat) (s : State) : (s.modRat f).parts = s.parts := rfl
@[simp] theorem modRat_frz (f : Rat → Rat) (s : State) : (s.modRat f).frz = s.frz := rfl
@[simp] theorem modRat_free (f : Rat → Rat) (s : State) : (s.modRat f).free = s.free := rfl

@[simp] theorem say_pending (l : ULine) (s : State) : (say l s).pending = s.pending := rfl
@[simp] theorem say_time (l : ULine) (s : State) : (say l s).time = s.time := rfl
@[simp] theorem say_island (l : ULine) (s : State) : (say l s).island = s.island := rfl
@[simp] theorem say_store (l : ULine) (s : State) : (say l s).store = s.store := rfl
@[simp] theorem say_loader (l : ULine) (s : State) : (say l s).loader = s.loader := rfl
@[simp] theorem say_tap (l : ULine) (s : State) : (say l s).tap = s.tap := rfl
@[simp] theorem say_pins (l : ULine) (s : State) : (say l s).pins = s.pins := rfl
@[simp] theorem say_pinsUp (l : ULine) (s : State) : (say l s).pinsUp = s.pinsUp := rfl
@[simp] theorem say_hstop (l : ULine) (s : State) : (say l s).hstop = s.hstop := rfl
@[simp] theorem say_hstopOn (l : ULine) (s : State) : (say l s).hstopOn = s.hstopOn := rfl
@[simp] theorem say_dispatched (l : ULine) (s : State) : (say l s).dispatched = s.dispatched := rfl
@[simp] theorem say_tsc (l : ULine) (s : State) : (say l s).tsc = s.tsc := rfl
@[simp] theorem say_mem (l : ULine) (s : State) : (say l s).mem = s.mem := rfl
@[simp] theorem say_poison (l : ULine) (s : State) : (say l s).poison = s.poison := rfl
@[simp] theorem say_scrub (l : ULine) (s : State) : (say l s).scrub = s.scrub := rfl
@[simp] theorem say_rat (l : ULine) (s : State) : (say l s).rat = s.rat := rfl
@[simp] theorem say_cores (l : ULine) (s : State) : (say l s).cores = s.cores := rfl
@[simp] theorem say_aplic (l : ULine) (s : State) : (say l s).aplic = s.aplic := rfl
@[simp] theorem say_srcLevel (l : ULine) (s : State) : (say l s).srcLevel = s.srcLevel := rfl
@[simp] theorem say_queues (l : ULine) (s : State) : (say l s).queues = s.queues := rfl
@[simp] theorem say_evbuf (l : ULine) (s : State) : (say l s).evbuf = s.evbuf := rfl
@[simp] theorem say_fwver (l : ULine) (s : State) : (say l s).fwver = s.fwver := rfl
@[simp] theorem say_rports (l : ULine) (s : State) : (say l s).rports = s.rports := rfl
@[simp] theorem say_clusterHeld (l : ULine) (s : State) : (say l s).clusterHeld = s.clusterHeld := rfl
@[simp] theorem say_clusterStop (l : ULine) (s : State) : (say l s).clusterStop = s.clusterStop := rfl
@[simp] theorem say_tiles (l : ULine) (s : State) : (say l s).tiles = s.tiles := rfl
@[simp] theorem say_shuttle (l : ULine) (s : State) : (say l s).shuttle = s.shuttle := rfl
@[simp] theorem say_peat (l : ULine) (s : State) : (say l s).peat = s.peat := rfl
@[simp] theorem say_lanes (l : ULine) (s : State) : (say l s).lanes = s.lanes := rfl
@[simp] theorem say_fabric (l : ULine) (s : State) : (say l s).fabric = s.fabric := rfl
@[simp] theorem say_ports (l : ULine) (s : State) : (say l s).ports = s.ports := rfl
@[simp] theorem say_loopback (l : ULine) (s : State) : (say l s).loopback = s.loopback := rfl
@[simp] theorem say_nextTid (l : ULine) (s : State) : (say l s).nextTid = s.nextTid := rfl
@[simp] theorem say_remote (l : ULine) (s : State) : (say l s).remote = s.remote := rfl
@[simp] theorem say_paceFrom (l : ULine) (s : State) : (say l s).paceFrom = s.paceFrom := rfl
@[simp] theorem say_chans (l : ULine) (s : State) : (say l s).chans = s.chans := rfl
@[simp] theorem say_axes (l : ULine) (s : State) : (say l s).axes = s.axes := rfl
@[simp] theorem say_trd (l : ULine) (s : State) : (say l s).trd = s.trd := rfl
@[simp] theorem say_fbk (l : ULine) (s : State) : (say l s).fbk = s.fbk := rfl
@[simp] theorem say_cc (l : ULine) (s : State) : (say l s).cc = s.cc := rfl
@[simp] theorem say_can (l : ULine) (s : State) : (say l s).can = s.can := rfl
@[simp] theorem say_dsp (l : ULine) (s : State) : (say l s).dsp = s.dsp := rfl
@[simp] theorem say_power (l : ULine) (s : State) : (say l s).power = s.power := rfl
@[simp] theorem say_flt (l : ULine) (s : State) : (say l s).flt = s.flt := rfl
@[simp] theorem say_parts (l : ULine) (s : State) : (say l s).parts = s.parts := rfl
@[simp] theorem say_frz (l : ULine) (s : State) : (say l s).frz = s.frz := rfl
@[simp] theorem say_free (l : ULine) (s : State) : (say l s).free = s.free := rfl

@[simp] theorem storeReq_pending (w : JWrite) (s : State) : (storeReq w s).pending = s.pending := rfl
@[simp] theorem storeReq_time (w : JWrite) (s : State) : (storeReq w s).time = s.time := rfl
@[simp] theorem storeReq_island (w : JWrite) (s : State) : (storeReq w s).island = s.island := rfl
@[simp] theorem storeReq_loader (w : JWrite) (s : State) : (storeReq w s).loader = s.loader := rfl
@[simp] theorem storeReq_console (w : JWrite) (s : State) : (storeReq w s).console = s.console := rfl
@[simp] theorem storeReq_tap (w : JWrite) (s : State) : (storeReq w s).tap = s.tap := rfl
@[simp] theorem storeReq_pins (w : JWrite) (s : State) : (storeReq w s).pins = s.pins := rfl
@[simp] theorem storeReq_pinsUp (w : JWrite) (s : State) : (storeReq w s).pinsUp = s.pinsUp := rfl
@[simp] theorem storeReq_hstop (w : JWrite) (s : State) : (storeReq w s).hstop = s.hstop := rfl
@[simp] theorem storeReq_hstopOn (w : JWrite) (s : State) : (storeReq w s).hstopOn = s.hstopOn := rfl
@[simp] theorem storeReq_dispatched (w : JWrite) (s : State) : (storeReq w s).dispatched = s.dispatched := rfl
@[simp] theorem storeReq_tsc (w : JWrite) (s : State) : (storeReq w s).tsc = s.tsc := rfl
@[simp] theorem storeReq_mem (w : JWrite) (s : State) : (storeReq w s).mem = s.mem := rfl
@[simp] theorem storeReq_poison (w : JWrite) (s : State) : (storeReq w s).poison = s.poison := rfl
@[simp] theorem storeReq_scrub (w : JWrite) (s : State) : (storeReq w s).scrub = s.scrub := rfl
@[simp] theorem storeReq_rat (w : JWrite) (s : State) : (storeReq w s).rat = s.rat := rfl
@[simp] theorem storeReq_cores (w : JWrite) (s : State) : (storeReq w s).cores = s.cores := rfl
@[simp] theorem storeReq_aplic (w : JWrite) (s : State) : (storeReq w s).aplic = s.aplic := rfl
@[simp] theorem storeReq_srcLevel (w : JWrite) (s : State) : (storeReq w s).srcLevel = s.srcLevel := rfl
@[simp] theorem storeReq_queues (w : JWrite) (s : State) : (storeReq w s).queues = s.queues := rfl
@[simp] theorem storeReq_evbuf (w : JWrite) (s : State) : (storeReq w s).evbuf = s.evbuf := rfl
@[simp] theorem storeReq_fwver (w : JWrite) (s : State) : (storeReq w s).fwver = s.fwver := rfl
@[simp] theorem storeReq_rports (w : JWrite) (s : State) : (storeReq w s).rports = s.rports := rfl
@[simp] theorem storeReq_clusterHeld (w : JWrite) (s : State) : (storeReq w s).clusterHeld = s.clusterHeld := rfl
@[simp] theorem storeReq_clusterStop (w : JWrite) (s : State) : (storeReq w s).clusterStop = s.clusterStop := rfl
@[simp] theorem storeReq_tiles (w : JWrite) (s : State) : (storeReq w s).tiles = s.tiles := rfl
@[simp] theorem storeReq_shuttle (w : JWrite) (s : State) : (storeReq w s).shuttle = s.shuttle := rfl
@[simp] theorem storeReq_peat (w : JWrite) (s : State) : (storeReq w s).peat = s.peat := rfl
@[simp] theorem storeReq_lanes (w : JWrite) (s : State) : (storeReq w s).lanes = s.lanes := rfl
@[simp] theorem storeReq_fabric (w : JWrite) (s : State) : (storeReq w s).fabric = s.fabric := rfl
@[simp] theorem storeReq_ports (w : JWrite) (s : State) : (storeReq w s).ports = s.ports := rfl
@[simp] theorem storeReq_loopback (w : JWrite) (s : State) : (storeReq w s).loopback = s.loopback := rfl
@[simp] theorem storeReq_nextTid (w : JWrite) (s : State) : (storeReq w s).nextTid = s.nextTid := rfl
@[simp] theorem storeReq_remote (w : JWrite) (s : State) : (storeReq w s).remote = s.remote := rfl
@[simp] theorem storeReq_paceFrom (w : JWrite) (s : State) : (storeReq w s).paceFrom = s.paceFrom := rfl
@[simp] theorem storeReq_chans (w : JWrite) (s : State) : (storeReq w s).chans = s.chans := rfl
@[simp] theorem storeReq_axes (w : JWrite) (s : State) : (storeReq w s).axes = s.axes := rfl
@[simp] theorem storeReq_trd (w : JWrite) (s : State) : (storeReq w s).trd = s.trd := rfl
@[simp] theorem storeReq_fbk (w : JWrite) (s : State) : (storeReq w s).fbk = s.fbk := rfl
@[simp] theorem storeReq_cc (w : JWrite) (s : State) : (storeReq w s).cc = s.cc := rfl
@[simp] theorem storeReq_can (w : JWrite) (s : State) : (storeReq w s).can = s.can := rfl
@[simp] theorem storeReq_dsp (w : JWrite) (s : State) : (storeReq w s).dsp = s.dsp := rfl
@[simp] theorem storeReq_power (w : JWrite) (s : State) : (storeReq w s).power = s.power := rfl
@[simp] theorem storeReq_flt (w : JWrite) (s : State) : (storeReq w s).flt = s.flt := rfl
@[simp] theorem storeReq_parts (w : JWrite) (s : State) : (storeReq w s).parts = s.parts := rfl
@[simp] theorem storeReq_frz (w : JWrite) (s : State) : (storeReq w s).frz = s.frz := rfl
@[simp] theorem storeReq_free (w : JWrite) (s : State) : (storeReq w s).free = s.free := rfl

@[simp] theorem setBlock_pending (g : StateBlock → StateBlock) (s : State) : (setBlock g s).pending = s.pending := rfl
@[simp] theorem setBlock_time (g : StateBlock → StateBlock) (s : State) : (setBlock g s).time = s.time := rfl
@[simp] theorem setBlock_island (g : StateBlock → StateBlock) (s : State) : (setBlock g s).island = s.island := rfl
@[simp] theorem setBlock_loader (g : StateBlock → StateBlock) (s : State) : (setBlock g s).loader = s.loader := rfl
@[simp] theorem setBlock_console (g : StateBlock → StateBlock) (s : State) : (setBlock g s).console = s.console := rfl
@[simp] theorem setBlock_tap (g : StateBlock → StateBlock) (s : State) : (setBlock g s).tap = s.tap := rfl
@[simp] theorem setBlock_pins (g : StateBlock → StateBlock) (s : State) : (setBlock g s).pins = s.pins := rfl
@[simp] theorem setBlock_pinsUp (g : StateBlock → StateBlock) (s : State) : (setBlock g s).pinsUp = s.pinsUp := rfl
@[simp] theorem setBlock_hstop (g : StateBlock → StateBlock) (s : State) : (setBlock g s).hstop = s.hstop := rfl
@[simp] theorem setBlock_hstopOn (g : StateBlock → StateBlock) (s : State) : (setBlock g s).hstopOn = s.hstopOn := rfl
@[simp] theorem setBlock_dispatched (g : StateBlock → StateBlock) (s : State) : (setBlock g s).dispatched = s.dispatched := rfl
@[simp] theorem setBlock_tsc (g : StateBlock → StateBlock) (s : State) : (setBlock g s).tsc = s.tsc := rfl
@[simp] theorem setBlock_mem (g : StateBlock → StateBlock) (s : State) : (setBlock g s).mem = s.mem := rfl
@[simp] theorem setBlock_poison (g : StateBlock → StateBlock) (s : State) : (setBlock g s).poison = s.poison := rfl
@[simp] theorem setBlock_scrub (g : StateBlock → StateBlock) (s : State) : (setBlock g s).scrub = s.scrub := rfl
@[simp] theorem setBlock_rat (g : StateBlock → StateBlock) (s : State) : (setBlock g s).rat = s.rat := rfl
@[simp] theorem setBlock_cores (g : StateBlock → StateBlock) (s : State) : (setBlock g s).cores = s.cores := rfl
@[simp] theorem setBlock_aplic (g : StateBlock → StateBlock) (s : State) : (setBlock g s).aplic = s.aplic := rfl
@[simp] theorem setBlock_srcLevel (g : StateBlock → StateBlock) (s : State) : (setBlock g s).srcLevel = s.srcLevel := rfl
@[simp] theorem setBlock_queues (g : StateBlock → StateBlock) (s : State) : (setBlock g s).queues = s.queues := rfl
@[simp] theorem setBlock_evbuf (g : StateBlock → StateBlock) (s : State) : (setBlock g s).evbuf = s.evbuf := rfl
@[simp] theorem setBlock_fwver (g : StateBlock → StateBlock) (s : State) : (setBlock g s).fwver = s.fwver := rfl
@[simp] theorem setBlock_rports (g : StateBlock → StateBlock) (s : State) : (setBlock g s).rports = s.rports := rfl
@[simp] theorem setBlock_clusterHeld (g : StateBlock → StateBlock) (s : State) : (setBlock g s).clusterHeld = s.clusterHeld := rfl
@[simp] theorem setBlock_clusterStop (g : StateBlock → StateBlock) (s : State) : (setBlock g s).clusterStop = s.clusterStop := rfl
@[simp] theorem setBlock_tiles (g : StateBlock → StateBlock) (s : State) : (setBlock g s).tiles = s.tiles := rfl
@[simp] theorem setBlock_shuttle (g : StateBlock → StateBlock) (s : State) : (setBlock g s).shuttle = s.shuttle := rfl
@[simp] theorem setBlock_peat (g : StateBlock → StateBlock) (s : State) : (setBlock g s).peat = s.peat := rfl
@[simp] theorem setBlock_lanes (g : StateBlock → StateBlock) (s : State) : (setBlock g s).lanes = s.lanes := rfl
@[simp] theorem setBlock_fabric (g : StateBlock → StateBlock) (s : State) : (setBlock g s).fabric = s.fabric := rfl
@[simp] theorem setBlock_ports (g : StateBlock → StateBlock) (s : State) : (setBlock g s).ports = s.ports := rfl
@[simp] theorem setBlock_loopback (g : StateBlock → StateBlock) (s : State) : (setBlock g s).loopback = s.loopback := rfl
@[simp] theorem setBlock_nextTid (g : StateBlock → StateBlock) (s : State) : (setBlock g s).nextTid = s.nextTid := rfl
@[simp] theorem setBlock_remote (g : StateBlock → StateBlock) (s : State) : (setBlock g s).remote = s.remote := rfl
@[simp] theorem setBlock_paceFrom (g : StateBlock → StateBlock) (s : State) : (setBlock g s).paceFrom = s.paceFrom := rfl
@[simp] theorem setBlock_chans (g : StateBlock → StateBlock) (s : State) : (setBlock g s).chans = s.chans := rfl
@[simp] theorem setBlock_axes (g : StateBlock → StateBlock) (s : State) : (setBlock g s).axes = s.axes := rfl
@[simp] theorem setBlock_trd (g : StateBlock → StateBlock) (s : State) : (setBlock g s).trd = s.trd := rfl
@[simp] theorem setBlock_fbk (g : StateBlock → StateBlock) (s : State) : (setBlock g s).fbk = s.fbk := rfl
@[simp] theorem setBlock_cc (g : StateBlock → StateBlock) (s : State) : (setBlock g s).cc = s.cc := rfl
@[simp] theorem setBlock_can (g : StateBlock → StateBlock) (s : State) : (setBlock g s).can = s.can := rfl
@[simp] theorem setBlock_dsp (g : StateBlock → StateBlock) (s : State) : (setBlock g s).dsp = s.dsp := rfl
@[simp] theorem setBlock_power (g : StateBlock → StateBlock) (s : State) : (setBlock g s).power = s.power := rfl
@[simp] theorem setBlock_flt (g : StateBlock → StateBlock) (s : State) : (setBlock g s).flt = s.flt := rfl
@[simp] theorem setBlock_parts (g : StateBlock → StateBlock) (s : State) : (setBlock g s).parts = s.parts := rfl
@[simp] theorem setBlock_frz (g : StateBlock → StateBlock) (s : State) : (setBlock g s).frz = s.frz := rfl
@[simp] theorem setBlock_free (g : StateBlock → StateBlock) (s : State) : (setBlock g s).free = s.free := rfl

@[simp] theorem logEntry_pending (e : LogEntry) (s : State) : (logEntry e s).pending = s.pending := rfl
@[simp] theorem logEntry_time (e : LogEntry) (s : State) : (logEntry e s).time = s.time := rfl
@[simp] theorem logEntry_island (e : LogEntry) (s : State) : (logEntry e s).island = s.island := rfl
@[simp] theorem logEntry_loader (e : LogEntry) (s : State) : (logEntry e s).loader = s.loader := rfl
@[simp] theorem logEntry_console (e : LogEntry) (s : State) : (logEntry e s).console = s.console := rfl
@[simp] theorem logEntry_tap (e : LogEntry) (s : State) : (logEntry e s).tap = s.tap := rfl
@[simp] theorem logEntry_pins (e : LogEntry) (s : State) : (logEntry e s).pins = s.pins := rfl
@[simp] theorem logEntry_pinsUp (e : LogEntry) (s : State) : (logEntry e s).pinsUp = s.pinsUp := rfl
@[simp] theorem logEntry_hstop (e : LogEntry) (s : State) : (logEntry e s).hstop = s.hstop := rfl
@[simp] theorem logEntry_hstopOn (e : LogEntry) (s : State) : (logEntry e s).hstopOn = s.hstopOn := rfl
@[simp] theorem logEntry_dispatched (e : LogEntry) (s : State) : (logEntry e s).dispatched = s.dispatched := rfl
@[simp] theorem logEntry_tsc (e : LogEntry) (s : State) : (logEntry e s).tsc = s.tsc := rfl
@[simp] theorem logEntry_mem (e : LogEntry) (s : State) : (logEntry e s).mem = s.mem := rfl
@[simp] theorem logEntry_poison (e : LogEntry) (s : State) : (logEntry e s).poison = s.poison := rfl
@[simp] theorem logEntry_scrub (e : LogEntry) (s : State) : (logEntry e s).scrub = s.scrub := rfl
@[simp] theorem logEntry_rat (e : LogEntry) (s : State) : (logEntry e s).rat = s.rat := rfl
@[simp] theorem logEntry_cores (e : LogEntry) (s : State) : (logEntry e s).cores = s.cores := rfl
@[simp] theorem logEntry_aplic (e : LogEntry) (s : State) : (logEntry e s).aplic = s.aplic := rfl
@[simp] theorem logEntry_srcLevel (e : LogEntry) (s : State) : (logEntry e s).srcLevel = s.srcLevel := rfl
@[simp] theorem logEntry_queues (e : LogEntry) (s : State) : (logEntry e s).queues = s.queues := rfl
@[simp] theorem logEntry_evbuf (e : LogEntry) (s : State) : (logEntry e s).evbuf = s.evbuf := rfl
@[simp] theorem logEntry_fwver (e : LogEntry) (s : State) : (logEntry e s).fwver = s.fwver := rfl
@[simp] theorem logEntry_rports (e : LogEntry) (s : State) : (logEntry e s).rports = s.rports := rfl
@[simp] theorem logEntry_clusterHeld (e : LogEntry) (s : State) : (logEntry e s).clusterHeld = s.clusterHeld := rfl
@[simp] theorem logEntry_clusterStop (e : LogEntry) (s : State) : (logEntry e s).clusterStop = s.clusterStop := rfl
@[simp] theorem logEntry_tiles (e : LogEntry) (s : State) : (logEntry e s).tiles = s.tiles := rfl
@[simp] theorem logEntry_shuttle (e : LogEntry) (s : State) : (logEntry e s).shuttle = s.shuttle := rfl
@[simp] theorem logEntry_peat (e : LogEntry) (s : State) : (logEntry e s).peat = s.peat := rfl
@[simp] theorem logEntry_lanes (e : LogEntry) (s : State) : (logEntry e s).lanes = s.lanes := rfl
@[simp] theorem logEntry_fabric (e : LogEntry) (s : State) : (logEntry e s).fabric = s.fabric := rfl
@[simp] theorem logEntry_ports (e : LogEntry) (s : State) : (logEntry e s).ports = s.ports := rfl
@[simp] theorem logEntry_loopback (e : LogEntry) (s : State) : (logEntry e s).loopback = s.loopback := rfl
@[simp] theorem logEntry_nextTid (e : LogEntry) (s : State) : (logEntry e s).nextTid = s.nextTid := rfl
@[simp] theorem logEntry_remote (e : LogEntry) (s : State) : (logEntry e s).remote = s.remote := rfl
@[simp] theorem logEntry_paceFrom (e : LogEntry) (s : State) : (logEntry e s).paceFrom = s.paceFrom := rfl
@[simp] theorem logEntry_chans (e : LogEntry) (s : State) : (logEntry e s).chans = s.chans := rfl
@[simp] theorem logEntry_axes (e : LogEntry) (s : State) : (logEntry e s).axes = s.axes := rfl
@[simp] theorem logEntry_trd (e : LogEntry) (s : State) : (logEntry e s).trd = s.trd := rfl
@[simp] theorem logEntry_fbk (e : LogEntry) (s : State) : (logEntry e s).fbk = s.fbk := rfl
@[simp] theorem logEntry_cc (e : LogEntry) (s : State) : (logEntry e s).cc = s.cc := rfl
@[simp] theorem logEntry_can (e : LogEntry) (s : State) : (logEntry e s).can = s.can := rfl
@[simp] theorem logEntry_dsp (e : LogEntry) (s : State) : (logEntry e s).dsp = s.dsp := rfl
@[simp] theorem logEntry_power (e : LogEntry) (s : State) : (logEntry e s).power = s.power := rfl
@[simp] theorem logEntry_flt (e : LogEntry) (s : State) : (logEntry e s).flt = s.flt := rfl
@[simp] theorem logEntry_parts (e : LogEntry) (s : State) : (logEntry e s).parts = s.parts := rfl
@[simp] theorem logEntry_frz (e : LogEntry) (s : State) : (logEntry e s).frz = s.frz := rfl
@[simp] theorem logEntry_free (e : LogEntry) (s : State) : (logEntry e s).free = s.free := rfl

@[simp] theorem putCause_pending (x : Fid) (b : Nat) (s : State) : (putCause x b s).pending = s.pending := rfl
@[simp] theorem putCause_time (x : Fid) (b : Nat) (s : State) : (putCause x b s).time = s.time := rfl
@[simp] theorem putCause_island (x : Fid) (b : Nat) (s : State) : (putCause x b s).island = s.island := rfl
@[simp] theorem putCause_store (x : Fid) (b : Nat) (s : State) : (putCause x b s).store = s.store := rfl
@[simp] theorem putCause_loader (x : Fid) (b : Nat) (s : State) : (putCause x b s).loader = s.loader := rfl
@[simp] theorem putCause_console (x : Fid) (b : Nat) (s : State) : (putCause x b s).console = s.console := rfl
@[simp] theorem putCause_tap (x : Fid) (b : Nat) (s : State) : (putCause x b s).tap = s.tap := rfl
@[simp] theorem putCause_pins (x : Fid) (b : Nat) (s : State) : (putCause x b s).pins = s.pins := rfl
@[simp] theorem putCause_pinsUp (x : Fid) (b : Nat) (s : State) : (putCause x b s).pinsUp = s.pinsUp := rfl
@[simp] theorem putCause_hstop (x : Fid) (b : Nat) (s : State) : (putCause x b s).hstop = s.hstop := rfl
@[simp] theorem putCause_hstopOn (x : Fid) (b : Nat) (s : State) : (putCause x b s).hstopOn = s.hstopOn := rfl
@[simp] theorem putCause_dispatched (x : Fid) (b : Nat) (s : State) : (putCause x b s).dispatched = s.dispatched := rfl
@[simp] theorem putCause_tsc (x : Fid) (b : Nat) (s : State) : (putCause x b s).tsc = s.tsc := rfl
@[simp] theorem putCause_mem (x : Fid) (b : Nat) (s : State) : (putCause x b s).mem = s.mem := rfl
@[simp] theorem putCause_poison (x : Fid) (b : Nat) (s : State) : (putCause x b s).poison = s.poison := rfl
@[simp] theorem putCause_scrub (x : Fid) (b : Nat) (s : State) : (putCause x b s).scrub = s.scrub := rfl
@[simp] theorem putCause_rat (x : Fid) (b : Nat) (s : State) : (putCause x b s).rat = s.rat := rfl
@[simp] theorem putCause_cores (x : Fid) (b : Nat) (s : State) : (putCause x b s).cores = s.cores := rfl
@[simp] theorem putCause_aplic (x : Fid) (b : Nat) (s : State) : (putCause x b s).aplic = s.aplic := rfl
@[simp] theorem putCause_srcLevel (x : Fid) (b : Nat) (s : State) : (putCause x b s).srcLevel = s.srcLevel := rfl
@[simp] theorem putCause_queues (x : Fid) (b : Nat) (s : State) : (putCause x b s).queues = s.queues := rfl
@[simp] theorem putCause_evbuf (x : Fid) (b : Nat) (s : State) : (putCause x b s).evbuf = s.evbuf := rfl
@[simp] theorem putCause_fwver (x : Fid) (b : Nat) (s : State) : (putCause x b s).fwver = s.fwver := rfl
@[simp] theorem putCause_rports (x : Fid) (b : Nat) (s : State) : (putCause x b s).rports = s.rports := rfl
@[simp] theorem putCause_clusterHeld (x : Fid) (b : Nat) (s : State) : (putCause x b s).clusterHeld = s.clusterHeld := rfl
@[simp] theorem putCause_clusterStop (x : Fid) (b : Nat) (s : State) : (putCause x b s).clusterStop = s.clusterStop := rfl
@[simp] theorem putCause_tiles (x : Fid) (b : Nat) (s : State) : (putCause x b s).tiles = s.tiles := rfl
@[simp] theorem putCause_shuttle (x : Fid) (b : Nat) (s : State) : (putCause x b s).shuttle = s.shuttle := rfl
@[simp] theorem putCause_peat (x : Fid) (b : Nat) (s : State) : (putCause x b s).peat = s.peat := rfl
@[simp] theorem putCause_lanes (x : Fid) (b : Nat) (s : State) : (putCause x b s).lanes = s.lanes := rfl
@[simp] theorem putCause_fabric (x : Fid) (b : Nat) (s : State) : (putCause x b s).fabric = s.fabric := rfl
@[simp] theorem putCause_ports (x : Fid) (b : Nat) (s : State) : (putCause x b s).ports = s.ports := rfl
@[simp] theorem putCause_loopback (x : Fid) (b : Nat) (s : State) : (putCause x b s).loopback = s.loopback := rfl
@[simp] theorem putCause_nextTid (x : Fid) (b : Nat) (s : State) : (putCause x b s).nextTid = s.nextTid := rfl
@[simp] theorem putCause_remote (x : Fid) (b : Nat) (s : State) : (putCause x b s).remote = s.remote := rfl
@[simp] theorem putCause_paceFrom (x : Fid) (b : Nat) (s : State) : (putCause x b s).paceFrom = s.paceFrom := rfl
@[simp] theorem putCause_chans (x : Fid) (b : Nat) (s : State) : (putCause x b s).chans = s.chans := rfl
@[simp] theorem putCause_axes (x : Fid) (b : Nat) (s : State) : (putCause x b s).axes = s.axes := rfl
@[simp] theorem putCause_trd (x : Fid) (b : Nat) (s : State) : (putCause x b s).trd = s.trd := rfl
@[simp] theorem putCause_fbk (x : Fid) (b : Nat) (s : State) : (putCause x b s).fbk = s.fbk := rfl
@[simp] theorem putCause_cc (x : Fid) (b : Nat) (s : State) : (putCause x b s).cc = s.cc := rfl
@[simp] theorem putCause_can (x : Fid) (b : Nat) (s : State) : (putCause x b s).can = s.can := rfl
@[simp] theorem putCause_dsp (x : Fid) (b : Nat) (s : State) : (putCause x b s).dsp = s.dsp := rfl
@[simp] theorem putCause_power (x : Fid) (b : Nat) (s : State) : (putCause x b s).power = s.power := rfl
@[simp] theorem putCause_parts (x : Fid) (b : Nat) (s : State) : (putCause x b s).parts = s.parts := rfl
@[simp] theorem putCause_frz (x : Fid) (b : Nat) (s : State) : (putCause x b s).frz = s.frz := rfl
@[simp] theorem putCause_free (x : Fid) (b : Nat) (s : State) : (putCause x b s).free = s.free := rfl

@[simp] theorem accessError_pending (x : Fid) (w : Bool) (c : BitVec 3) (a : Nat) (s : State) : (accessError x w c a s).pending = s.pending := rfl
@[simp] theorem accessError_time (x : Fid) (w : Bool) (c : BitVec 3) (a : Nat) (s : State) : (accessError x w c a s).time = s.time := rfl
@[simp] theorem accessError_island (x : Fid) (w : Bool) (c : BitVec 3) (a : Nat) (s : State) : (accessError x w c a s).island = s.island := rfl
@[simp] theorem accessError_store (x : Fid) (w : Bool) (c : BitVec 3) (a : Nat) (s : State) : (accessError x w c a s).store = s.store := rfl
@[simp] theorem accessError_loader (x : Fid) (w : Bool) (c : BitVec 3) (a : Nat) (s : State) : (accessError x w c a s).loader = s.loader := rfl
@[simp] theorem accessError_console (x : Fid) (w : Bool) (c : BitVec 3) (a : Nat) (s : State) : (accessError x w c a s).console = s.console := rfl
@[simp] theorem accessError_tap (x : Fid) (w : Bool) (c : BitVec 3) (a : Nat) (s : State) : (accessError x w c a s).tap = s.tap := rfl
@[simp] theorem accessError_pins (x : Fid) (w : Bool) (c : BitVec 3) (a : Nat) (s : State) : (accessError x w c a s).pins = s.pins := rfl
@[simp] theorem accessError_pinsUp (x : Fid) (w : Bool) (c : BitVec 3) (a : Nat) (s : State) : (accessError x w c a s).pinsUp = s.pinsUp := rfl
@[simp] theorem accessError_hstop (x : Fid) (w : Bool) (c : BitVec 3) (a : Nat) (s : State) : (accessError x w c a s).hstop = s.hstop := rfl
@[simp] theorem accessError_hstopOn (x : Fid) (w : Bool) (c : BitVec 3) (a : Nat) (s : State) : (accessError x w c a s).hstopOn = s.hstopOn := rfl
@[simp] theorem accessError_dispatched (x : Fid) (w : Bool) (c : BitVec 3) (a : Nat) (s : State) : (accessError x w c a s).dispatched = s.dispatched := rfl
@[simp] theorem accessError_tsc (x : Fid) (w : Bool) (c : BitVec 3) (a : Nat) (s : State) : (accessError x w c a s).tsc = s.tsc := rfl
@[simp] theorem accessError_mem (x : Fid) (w : Bool) (c : BitVec 3) (a : Nat) (s : State) : (accessError x w c a s).mem = s.mem := rfl
@[simp] theorem accessError_poison (x : Fid) (w : Bool) (c : BitVec 3) (a : Nat) (s : State) : (accessError x w c a s).poison = s.poison := rfl
@[simp] theorem accessError_scrub (x : Fid) (w : Bool) (c : BitVec 3) (a : Nat) (s : State) : (accessError x w c a s).scrub = s.scrub := rfl
@[simp] theorem accessError_cores (x : Fid) (w : Bool) (c : BitVec 3) (a : Nat) (s : State) : (accessError x w c a s).cores = s.cores := rfl
@[simp] theorem accessError_aplic (x : Fid) (w : Bool) (c : BitVec 3) (a : Nat) (s : State) : (accessError x w c a s).aplic = s.aplic := rfl
@[simp] theorem accessError_srcLevel (x : Fid) (w : Bool) (c : BitVec 3) (a : Nat) (s : State) : (accessError x w c a s).srcLevel = s.srcLevel := rfl
@[simp] theorem accessError_queues (x : Fid) (w : Bool) (c : BitVec 3) (a : Nat) (s : State) : (accessError x w c a s).queues = s.queues := rfl
@[simp] theorem accessError_evbuf (x : Fid) (w : Bool) (c : BitVec 3) (a : Nat) (s : State) : (accessError x w c a s).evbuf = s.evbuf := rfl
@[simp] theorem accessError_fwver (x : Fid) (w : Bool) (c : BitVec 3) (a : Nat) (s : State) : (accessError x w c a s).fwver = s.fwver := rfl
@[simp] theorem accessError_rports (x : Fid) (w : Bool) (c : BitVec 3) (a : Nat) (s : State) : (accessError x w c a s).rports = s.rports := rfl
@[simp] theorem accessError_clusterHeld (x : Fid) (w : Bool) (c : BitVec 3) (a : Nat) (s : State) : (accessError x w c a s).clusterHeld = s.clusterHeld := rfl
@[simp] theorem accessError_clusterStop (x : Fid) (w : Bool) (c : BitVec 3) (a : Nat) (s : State) : (accessError x w c a s).clusterStop = s.clusterStop := rfl
@[simp] theorem accessError_tiles (x : Fid) (w : Bool) (c : BitVec 3) (a : Nat) (s : State) : (accessError x w c a s).tiles = s.tiles := rfl
@[simp] theorem accessError_shuttle (x : Fid) (w : Bool) (c : BitVec 3) (a : Nat) (s : State) : (accessError x w c a s).shuttle = s.shuttle := rfl
@[simp] theorem accessError_peat (x : Fid) (w : Bool) (c : BitVec 3) (a : Nat) (s : State) : (accessError x w c a s).peat = s.peat := rfl
@[simp] theorem accessError_lanes (x : Fid) (w : Bool) (c : BitVec 3) (a : Nat) (s : State) : (accessError x w c a s).lanes = s.lanes := rfl
@[simp] theorem accessError_fabric (x : Fid) (w : Bool) (c : BitVec 3) (a : Nat) (s : State) : (accessError x w c a s).fabric = s.fabric := rfl
@[simp] theorem accessError_ports (x : Fid) (w : Bool) (c : BitVec 3) (a : Nat) (s : State) : (accessError x w c a s).ports = s.ports := rfl
@[simp] theorem accessError_loopback (x : Fid) (w : Bool) (c : BitVec 3) (a : Nat) (s : State) : (accessError x w c a s).loopback = s.loopback := rfl
@[simp] theorem accessError_nextTid (x : Fid) (w : Bool) (c : BitVec 3) (a : Nat) (s : State) : (accessError x w c a s).nextTid = s.nextTid := rfl
@[simp] theorem accessError_remote (x : Fid) (w : Bool) (c : BitVec 3) (a : Nat) (s : State) : (accessError x w c a s).remote = s.remote := rfl
@[simp] theorem accessError_paceFrom (x : Fid) (w : Bool) (c : BitVec 3) (a : Nat) (s : State) : (accessError x w c a s).paceFrom = s.paceFrom := rfl
@[simp] theorem accessError_chans (x : Fid) (w : Bool) (c : BitVec 3) (a : Nat) (s : State) : (accessError x w c a s).chans = s.chans := rfl
@[simp] theorem accessError_axes (x : Fid) (w : Bool) (c : BitVec 3) (a : Nat) (s : State) : (accessError x w c a s).axes = s.axes := rfl
@[simp] theorem accessError_trd (x : Fid) (w : Bool) (c : BitVec 3) (a : Nat) (s : State) : (accessError x w c a s).trd = s.trd := rfl
@[simp] theorem accessError_fbk (x : Fid) (w : Bool) (c : BitVec 3) (a : Nat) (s : State) : (accessError x w c a s).fbk = s.fbk := rfl
@[simp] theorem accessError_cc (x : Fid) (w : Bool) (c : BitVec 3) (a : Nat) (s : State) : (accessError x w c a s).cc = s.cc := rfl
@[simp] theorem accessError_can (x : Fid) (w : Bool) (c : BitVec 3) (a : Nat) (s : State) : (accessError x w c a s).can = s.can := rfl
@[simp] theorem accessError_dsp (x : Fid) (w : Bool) (c : BitVec 3) (a : Nat) (s : State) : (accessError x w c a s).dsp = s.dsp := rfl
@[simp] theorem accessError_power (x : Fid) (w : Bool) (c : BitVec 3) (a : Nat) (s : State) : (accessError x w c a s).power = s.power := rfl
@[simp] theorem accessError_parts (x : Fid) (w : Bool) (c : BitVec 3) (a : Nat) (s : State) : (accessError x w c a s).parts = s.parts := rfl
@[simp] theorem accessError_frz (x : Fid) (w : Bool) (c : BitVec 3) (a : Nat) (s : State) : (accessError x w c a s).frz = s.frz := rfl
@[simp] theorem accessError_free (x : Fid) (w : Bool) (c : BitVec 3) (a : Nat) (s : State) : (accessError x w c a s).free = s.free := rfl

@[simp] theorem putRaw_pending (a : Nat) (bs : List Byte) (s : State) : (putRaw s a bs).pending = s.pending := rfl
@[simp] theorem putRaw_time (a : Nat) (bs : List Byte) (s : State) : (putRaw s a bs).time = s.time := rfl
@[simp] theorem putRaw_island (a : Nat) (bs : List Byte) (s : State) : (putRaw s a bs).island = s.island := rfl
@[simp] theorem putRaw_store (a : Nat) (bs : List Byte) (s : State) : (putRaw s a bs).store = s.store := rfl
@[simp] theorem putRaw_loader (a : Nat) (bs : List Byte) (s : State) : (putRaw s a bs).loader = s.loader := rfl
@[simp] theorem putRaw_console (a : Nat) (bs : List Byte) (s : State) : (putRaw s a bs).console = s.console := rfl
@[simp] theorem putRaw_tap (a : Nat) (bs : List Byte) (s : State) : (putRaw s a bs).tap = s.tap := rfl
@[simp] theorem putRaw_pins (a : Nat) (bs : List Byte) (s : State) : (putRaw s a bs).pins = s.pins := rfl
@[simp] theorem putRaw_pinsUp (a : Nat) (bs : List Byte) (s : State) : (putRaw s a bs).pinsUp = s.pinsUp := rfl
@[simp] theorem putRaw_hstop (a : Nat) (bs : List Byte) (s : State) : (putRaw s a bs).hstop = s.hstop := rfl
@[simp] theorem putRaw_hstopOn (a : Nat) (bs : List Byte) (s : State) : (putRaw s a bs).hstopOn = s.hstopOn := rfl
@[simp] theorem putRaw_dispatched (a : Nat) (bs : List Byte) (s : State) : (putRaw s a bs).dispatched = s.dispatched := rfl
@[simp] theorem putRaw_tsc (a : Nat) (bs : List Byte) (s : State) : (putRaw s a bs).tsc = s.tsc := rfl
@[simp] theorem putRaw_poison (a : Nat) (bs : List Byte) (s : State) : (putRaw s a bs).poison = s.poison := rfl
@[simp] theorem putRaw_scrub (a : Nat) (bs : List Byte) (s : State) : (putRaw s a bs).scrub = s.scrub := rfl
@[simp] theorem putRaw_rat (a : Nat) (bs : List Byte) (s : State) : (putRaw s a bs).rat = s.rat := rfl
@[simp] theorem putRaw_aplic (a : Nat) (bs : List Byte) (s : State) : (putRaw s a bs).aplic = s.aplic := rfl
@[simp] theorem putRaw_srcLevel (a : Nat) (bs : List Byte) (s : State) : (putRaw s a bs).srcLevel = s.srcLevel := rfl
@[simp] theorem putRaw_queues (a : Nat) (bs : List Byte) (s : State) : (putRaw s a bs).queues = s.queues := rfl
@[simp] theorem putRaw_evbuf (a : Nat) (bs : List Byte) (s : State) : (putRaw s a bs).evbuf = s.evbuf := rfl
@[simp] theorem putRaw_fwver (a : Nat) (bs : List Byte) (s : State) : (putRaw s a bs).fwver = s.fwver := rfl
@[simp] theorem putRaw_rports (a : Nat) (bs : List Byte) (s : State) : (putRaw s a bs).rports = s.rports := rfl
@[simp] theorem putRaw_clusterHeld (a : Nat) (bs : List Byte) (s : State) : (putRaw s a bs).clusterHeld = s.clusterHeld := rfl
@[simp] theorem putRaw_clusterStop (a : Nat) (bs : List Byte) (s : State) : (putRaw s a bs).clusterStop = s.clusterStop := rfl
@[simp] theorem putRaw_tiles (a : Nat) (bs : List Byte) (s : State) : (putRaw s a bs).tiles = s.tiles := rfl
@[simp] theorem putRaw_shuttle (a : Nat) (bs : List Byte) (s : State) : (putRaw s a bs).shuttle = s.shuttle := rfl
@[simp] theorem putRaw_peat (a : Nat) (bs : List Byte) (s : State) : (putRaw s a bs).peat = s.peat := rfl
@[simp] theorem putRaw_lanes (a : Nat) (bs : List Byte) (s : State) : (putRaw s a bs).lanes = s.lanes := rfl
@[simp] theorem putRaw_fabric (a : Nat) (bs : List Byte) (s : State) : (putRaw s a bs).fabric = s.fabric := rfl
@[simp] theorem putRaw_ports (a : Nat) (bs : List Byte) (s : State) : (putRaw s a bs).ports = s.ports := rfl
@[simp] theorem putRaw_loopback (a : Nat) (bs : List Byte) (s : State) : (putRaw s a bs).loopback = s.loopback := rfl
@[simp] theorem putRaw_nextTid (a : Nat) (bs : List Byte) (s : State) : (putRaw s a bs).nextTid = s.nextTid := rfl
@[simp] theorem putRaw_remote (a : Nat) (bs : List Byte) (s : State) : (putRaw s a bs).remote = s.remote := rfl
@[simp] theorem putRaw_paceFrom (a : Nat) (bs : List Byte) (s : State) : (putRaw s a bs).paceFrom = s.paceFrom := rfl
@[simp] theorem putRaw_chans (a : Nat) (bs : List Byte) (s : State) : (putRaw s a bs).chans = s.chans := rfl
@[simp] theorem putRaw_axes (a : Nat) (bs : List Byte) (s : State) : (putRaw s a bs).axes = s.axes := rfl
@[simp] theorem putRaw_trd (a : Nat) (bs : List Byte) (s : State) : (putRaw s a bs).trd = s.trd := rfl
@[simp] theorem putRaw_fbk (a : Nat) (bs : List Byte) (s : State) : (putRaw s a bs).fbk = s.fbk := rfl
@[simp] theorem putRaw_cc (a : Nat) (bs : List Byte) (s : State) : (putRaw s a bs).cc = s.cc := rfl
@[simp] theorem putRaw_can (a : Nat) (bs : List Byte) (s : State) : (putRaw s a bs).can = s.can := rfl
@[simp] theorem putRaw_dsp (a : Nat) (bs : List Byte) (s : State) : (putRaw s a bs).dsp = s.dsp := rfl
@[simp] theorem putRaw_power (a : Nat) (bs : List Byte) (s : State) : (putRaw s a bs).power = s.power := rfl
@[simp] theorem putRaw_flt (a : Nat) (bs : List Byte) (s : State) : (putRaw s a bs).flt = s.flt := rfl
@[simp] theorem putRaw_parts (a : Nat) (bs : List Byte) (s : State) : (putRaw s a bs).parts = s.parts := rfl
@[simp] theorem putRaw_frz (a : Nat) (bs : List Byte) (s : State) : (putRaw s a bs).frz = s.frz := rfl
@[simp] theorem putRaw_free (a : Nat) (bs : List Byte) (s : State) : (putRaw s a bs).free = s.free := rfl

@[simp] theorem wrBytes_pending (a : Nat) (bs : List Byte) (s : State) : (wrBytes s a bs).pending = s.pending := rfl
@[simp] theorem wrBytes_time (a : Nat) (bs : List Byte) (s : State) : (wrBytes s a bs).time = s.time := rfl
@[simp] theorem wrBytes_island (a : Nat) (bs : List Byte) (s : State) : (wrBytes s a bs).island = s.island := rfl
@[simp] theorem wrBytes_store (a : Nat) (bs : List Byte) (s : State) : (wrBytes s a bs).store = s.store := rfl
@[simp] theorem wrBytes_loader (a : Nat) (bs : List Byte) (s : State) : (wrBytes s a bs).loader = s.loader := rfl
@[simp] theorem wrBytes_console (a : Nat) (bs : List Byte) (s : State) : (wrBytes s a bs).console = s.console := rfl
@[simp] theorem wrBytes_tap (a : Nat) (bs : List Byte) (s : State) : (wrBytes s a bs).tap = s.tap := rfl
@[simp] theorem wrBytes_pins (a : Nat) (bs : List Byte) (s : State) : (wrBytes s a bs).pins = s.pins := rfl
@[simp] theorem wrBytes_pinsUp (a : Nat) (bs : List Byte) (s : State) : (wrBytes s a bs).pinsUp = s.pinsUp := rfl
@[simp] theorem wrBytes_hstop (a : Nat) (bs : List Byte) (s : State) : (wrBytes s a bs).hstop = s.hstop := rfl
@[simp] theorem wrBytes_hstopOn (a : Nat) (bs : List Byte) (s : State) : (wrBytes s a bs).hstopOn = s.hstopOn := rfl
@[simp] theorem wrBytes_dispatched (a : Nat) (bs : List Byte) (s : State) : (wrBytes s a bs).dispatched = s.dispatched := rfl
@[simp] theorem wrBytes_tsc (a : Nat) (bs : List Byte) (s : State) : (wrBytes s a bs).tsc = s.tsc := rfl
@[simp] theorem wrBytes_scrub (a : Nat) (bs : List Byte) (s : State) : (wrBytes s a bs).scrub = s.scrub := rfl
@[simp] theorem wrBytes_rat (a : Nat) (bs : List Byte) (s : State) : (wrBytes s a bs).rat = s.rat := rfl
@[simp] theorem wrBytes_aplic (a : Nat) (bs : List Byte) (s : State) : (wrBytes s a bs).aplic = s.aplic := rfl
@[simp] theorem wrBytes_srcLevel (a : Nat) (bs : List Byte) (s : State) : (wrBytes s a bs).srcLevel = s.srcLevel := rfl
@[simp] theorem wrBytes_queues (a : Nat) (bs : List Byte) (s : State) : (wrBytes s a bs).queues = s.queues := rfl
@[simp] theorem wrBytes_evbuf (a : Nat) (bs : List Byte) (s : State) : (wrBytes s a bs).evbuf = s.evbuf := rfl
@[simp] theorem wrBytes_fwver (a : Nat) (bs : List Byte) (s : State) : (wrBytes s a bs).fwver = s.fwver := rfl
@[simp] theorem wrBytes_rports (a : Nat) (bs : List Byte) (s : State) : (wrBytes s a bs).rports = s.rports := rfl
@[simp] theorem wrBytes_clusterHeld (a : Nat) (bs : List Byte) (s : State) : (wrBytes s a bs).clusterHeld = s.clusterHeld := rfl
@[simp] theorem wrBytes_clusterStop (a : Nat) (bs : List Byte) (s : State) : (wrBytes s a bs).clusterStop = s.clusterStop := rfl
@[simp] theorem wrBytes_tiles (a : Nat) (bs : List Byte) (s : State) : (wrBytes s a bs).tiles = s.tiles := rfl
@[simp] theorem wrBytes_shuttle (a : Nat) (bs : List Byte) (s : State) : (wrBytes s a bs).shuttle = s.shuttle := rfl
@[simp] theorem wrBytes_peat (a : Nat) (bs : List Byte) (s : State) : (wrBytes s a bs).peat = s.peat := rfl
@[simp] theorem wrBytes_lanes (a : Nat) (bs : List Byte) (s : State) : (wrBytes s a bs).lanes = s.lanes := rfl
@[simp] theorem wrBytes_fabric (a : Nat) (bs : List Byte) (s : State) : (wrBytes s a bs).fabric = s.fabric := rfl
@[simp] theorem wrBytes_ports (a : Nat) (bs : List Byte) (s : State) : (wrBytes s a bs).ports = s.ports := rfl
@[simp] theorem wrBytes_loopback (a : Nat) (bs : List Byte) (s : State) : (wrBytes s a bs).loopback = s.loopback := rfl
@[simp] theorem wrBytes_nextTid (a : Nat) (bs : List Byte) (s : State) : (wrBytes s a bs).nextTid = s.nextTid := rfl
@[simp] theorem wrBytes_remote (a : Nat) (bs : List Byte) (s : State) : (wrBytes s a bs).remote = s.remote := rfl
@[simp] theorem wrBytes_paceFrom (a : Nat) (bs : List Byte) (s : State) : (wrBytes s a bs).paceFrom = s.paceFrom := rfl
@[simp] theorem wrBytes_chans (a : Nat) (bs : List Byte) (s : State) : (wrBytes s a bs).chans = s.chans := rfl
@[simp] theorem wrBytes_axes (a : Nat) (bs : List Byte) (s : State) : (wrBytes s a bs).axes = s.axes := rfl
@[simp] theorem wrBytes_trd (a : Nat) (bs : List Byte) (s : State) : (wrBytes s a bs).trd = s.trd := rfl
@[simp] theorem wrBytes_fbk (a : Nat) (bs : List Byte) (s : State) : (wrBytes s a bs).fbk = s.fbk := rfl
@[simp] theorem wrBytes_cc (a : Nat) (bs : List Byte) (s : State) : (wrBytes s a bs).cc = s.cc := rfl
@[simp] theorem wrBytes_can (a : Nat) (bs : List Byte) (s : State) : (wrBytes s a bs).can = s.can := rfl
@[simp] theorem wrBytes_dsp (a : Nat) (bs : List Byte) (s : State) : (wrBytes s a bs).dsp = s.dsp := rfl
@[simp] theorem wrBytes_power (a : Nat) (bs : List Byte) (s : State) : (wrBytes s a bs).power = s.power := rfl
@[simp] theorem wrBytes_flt (a : Nat) (bs : List Byte) (s : State) : (wrBytes s a bs).flt = s.flt := rfl
@[simp] theorem wrBytes_parts (a : Nat) (bs : List Byte) (s : State) : (wrBytes s a bs).parts = s.parts := rfl
@[simp] theorem wrBytes_frz (a : Nat) (bs : List Byte) (s : State) : (wrBytes s a bs).frz = s.frz := rfl
@[simp] theorem wrBytes_free (a : Nat) (bs : List Byte) (s : State) : (wrBytes s a bs).free = s.free := rfl

@[simp] theorem settle_pending (s : State) : (settle s).pending = s.pending := by unfold settle; rfl
@[simp] theorem settle_time (s : State) : (settle s).time = s.time := by unfold settle; rfl
@[simp] theorem settle_island (s : State) : (settle s).island = s.island := by unfold settle; rfl
@[simp] theorem settle_store (s : State) : (settle s).store = s.store := by unfold settle; rfl
@[simp] theorem settle_loader (s : State) : (settle s).loader = s.loader := by unfold settle; rfl
@[simp] theorem settle_console (s : State) : (settle s).console = s.console := by unfold settle; rfl
@[simp] theorem settle_tap (s : State) : (settle s).tap = s.tap := by unfold settle; rfl
@[simp] theorem settle_pins (s : State) : (settle s).pins = s.pins := by unfold settle; rfl
@[simp] theorem settle_pinsUp (s : State) : (settle s).pinsUp = s.pinsUp := by unfold settle; rfl
@[simp] theorem settle_hstop (s : State) : (settle s).hstop = s.hstop := by unfold settle; rfl
@[simp] theorem settle_hstopOn (s : State) : (settle s).hstopOn = s.hstopOn := by unfold settle; rfl
@[simp] theorem settle_dispatched (s : State) : (settle s).dispatched = s.dispatched := by unfold settle; rfl
@[simp] theorem settle_tsc (s : State) : (settle s).tsc = s.tsc := by unfold settle; rfl
@[simp] theorem settle_mem (s : State) : (settle s).mem = s.mem := by unfold settle; rfl
@[simp] theorem settle_poison (s : State) : (settle s).poison = s.poison := by unfold settle; rfl
@[simp] theorem settle_scrub (s : State) : (settle s).scrub = s.scrub := by unfold settle; rfl
@[simp] theorem settle_rat (s : State) : (settle s).rat = s.rat := by unfold settle; rfl
@[simp] theorem settle_queues (s : State) : (settle s).queues = s.queues := by unfold settle; rfl
@[simp] theorem settle_evbuf (s : State) : (settle s).evbuf = s.evbuf := by unfold settle; rfl
@[simp] theorem settle_fwver (s : State) : (settle s).fwver = s.fwver := by unfold settle; rfl
@[simp] theorem settle_rports (s : State) : (settle s).rports = s.rports := by unfold settle; rfl
@[simp] theorem settle_clusterHeld (s : State) : (settle s).clusterHeld = s.clusterHeld := by unfold settle; rfl
@[simp] theorem settle_clusterStop (s : State) : (settle s).clusterStop = s.clusterStop := by unfold settle; rfl
@[simp] theorem settle_tiles (s : State) : (settle s).tiles = s.tiles := by unfold settle; rfl
@[simp] theorem settle_shuttle (s : State) : (settle s).shuttle = s.shuttle := by unfold settle; rfl
@[simp] theorem settle_peat (s : State) : (settle s).peat = s.peat := by unfold settle; rfl
@[simp] theorem settle_lanes (s : State) : (settle s).lanes = s.lanes := by unfold settle; rfl
@[simp] theorem settle_fabric (s : State) : (settle s).fabric = s.fabric := by unfold settle; rfl
@[simp] theorem settle_ports (s : State) : (settle s).ports = s.ports := by unfold settle; rfl
@[simp] theorem settle_loopback (s : State) : (settle s).loopback = s.loopback := by unfold settle; rfl
@[simp] theorem settle_nextTid (s : State) : (settle s).nextTid = s.nextTid := by unfold settle; rfl
@[simp] theorem settle_remote (s : State) : (settle s).remote = s.remote := by unfold settle; rfl
@[simp] theorem settle_paceFrom (s : State) : (settle s).paceFrom = s.paceFrom := by unfold settle; rfl
@[simp] theorem settle_chans (s : State) : (settle s).chans = s.chans := by unfold settle; rfl
@[simp] theorem settle_axes (s : State) : (settle s).axes = s.axes := by unfold settle; rfl
@[simp] theorem settle_trd (s : State) : (settle s).trd = s.trd := by unfold settle; rfl
@[simp] theorem settle_fbk (s : State) : (settle s).fbk = s.fbk := by unfold settle; rfl
@[simp] theorem settle_cc (s : State) : (settle s).cc = s.cc := by unfold settle; rfl
@[simp] theorem settle_can (s : State) : (settle s).can = s.can := by unfold settle; rfl
@[simp] theorem settle_dsp (s : State) : (settle s).dsp = s.dsp := by unfold settle; rfl
@[simp] theorem settle_power (s : State) : (settle s).power = s.power := by unfold settle; rfl
@[simp] theorem settle_flt (s : State) : (settle s).flt = s.flt := by unfold settle; rfl
@[simp] theorem settle_parts (s : State) : (settle s).parts = s.parts := by unfold settle; rfl
@[simp] theorem settle_frz (s : State) : (settle s).frz = s.frz := by unfold settle; rfl
@[simp] theorem settle_free (s : State) : (settle s).free = s.free := by unfold settle; rfl

/-! ### An access that waits for a reload changes the map alone -/
@[simp] theorem holdAccess_cores (s : State) : (holdAccess s).cores = s.cores := rfl
@[simp] theorem holdAccess_pending (s : State) : (holdAccess s).pending = s.pending := rfl
@[simp] theorem holdAccess_time (s : State) : (holdAccess s).time = s.time := rfl
@[simp] theorem holdAccess_island (s : State) : (holdAccess s).island = s.island := rfl
@[simp] theorem holdAccess_store (s : State) : (holdAccess s).store = s.store := rfl
@[simp] theorem holdAccess_loader (s : State) : (holdAccess s).loader = s.loader := rfl
@[simp] theorem holdAccess_console (s : State) : (holdAccess s).console = s.console := rfl
@[simp] theorem holdAccess_tap (s : State) : (holdAccess s).tap = s.tap := rfl
@[simp] theorem holdAccess_pins (s : State) : (holdAccess s).pins = s.pins := rfl
@[simp] theorem holdAccess_pinsUp (s : State) : (holdAccess s).pinsUp = s.pinsUp := rfl
@[simp] theorem holdAccess_hstop (s : State) : (holdAccess s).hstop = s.hstop := rfl
@[simp] theorem holdAccess_hstopOn (s : State) : (holdAccess s).hstopOn = s.hstopOn := rfl
@[simp] theorem holdAccess_dispatched (s : State) : (holdAccess s).dispatched = s.dispatched := rfl
@[simp] theorem holdAccess_tsc (s : State) : (holdAccess s).tsc = s.tsc := rfl
@[simp] theorem holdAccess_mem (s : State) : (holdAccess s).mem = s.mem := rfl
@[simp] theorem holdAccess_poison (s : State) : (holdAccess s).poison = s.poison := rfl
@[simp] theorem holdAccess_scrub (s : State) : (holdAccess s).scrub = s.scrub := rfl
@[simp] theorem holdAccess_aplic (s : State) : (holdAccess s).aplic = s.aplic := rfl
@[simp] theorem holdAccess_srcLevel (s : State) : (holdAccess s).srcLevel = s.srcLevel := rfl
@[simp] theorem holdAccess_queues (s : State) : (holdAccess s).queues = s.queues := rfl
@[simp] theorem holdAccess_evbuf (s : State) : (holdAccess s).evbuf = s.evbuf := rfl
@[simp] theorem holdAccess_fwver (s : State) : (holdAccess s).fwver = s.fwver := rfl
@[simp] theorem holdAccess_rports (s : State) : (holdAccess s).rports = s.rports := rfl
@[simp] theorem holdAccess_clusterHeld (s : State) : (holdAccess s).clusterHeld = s.clusterHeld := rfl
@[simp] theorem holdAccess_clusterStop (s : State) : (holdAccess s).clusterStop = s.clusterStop := rfl
@[simp] theorem holdAccess_tiles (s : State) : (holdAccess s).tiles = s.tiles := rfl
@[simp] theorem holdAccess_shuttle (s : State) : (holdAccess s).shuttle = s.shuttle := rfl
@[simp] theorem holdAccess_peat (s : State) : (holdAccess s).peat = s.peat := rfl
@[simp] theorem holdAccess_lanes (s : State) : (holdAccess s).lanes = s.lanes := rfl
@[simp] theorem holdAccess_fabric (s : State) : (holdAccess s).fabric = s.fabric := rfl
@[simp] theorem holdAccess_ports (s : State) : (holdAccess s).ports = s.ports := rfl
@[simp] theorem holdAccess_loopback (s : State) : (holdAccess s).loopback = s.loopback := rfl
@[simp] theorem holdAccess_nextTid (s : State) : (holdAccess s).nextTid = s.nextTid := rfl
@[simp] theorem holdAccess_remote (s : State) : (holdAccess s).remote = s.remote := rfl
@[simp] theorem holdAccess_paceFrom (s : State) : (holdAccess s).paceFrom = s.paceFrom := rfl
@[simp] theorem holdAccess_chans (s : State) : (holdAccess s).chans = s.chans := rfl
@[simp] theorem holdAccess_axes (s : State) : (holdAccess s).axes = s.axes := rfl
@[simp] theorem holdAccess_trd (s : State) : (holdAccess s).trd = s.trd := rfl
@[simp] theorem holdAccess_fbk (s : State) : (holdAccess s).fbk = s.fbk := rfl
@[simp] theorem holdAccess_cc (s : State) : (holdAccess s).cc = s.cc := rfl
@[simp] theorem holdAccess_can (s : State) : (holdAccess s).can = s.can := rfl
@[simp] theorem holdAccess_dsp (s : State) : (holdAccess s).dsp = s.dsp := rfl
@[simp] theorem holdAccess_power (s : State) : (holdAccess s).power = s.power := rfl
@[simp] theorem holdAccess_flt (s : State) : (holdAccess s).flt = s.flt := rfl
@[simp] theorem holdAccess_parts (s : State) : (holdAccess s).parts = s.parts := rfl
@[simp] theorem holdAccess_frz (s : State) : (holdAccess s).frz = s.frz := rfl
@[simp] theorem holdAccess_free (s : State) : (holdAccess s).free = s.free := rfl

/-! ### Consuming a poisoned line changes what a CAUSE changes -/
@[simp] theorem poisonHit_pending (x : Fid) (s : State) : (poisonHit x s).pending = s.pending := by simp [poisonHit]
@[simp] theorem poisonHit_time (x : Fid) (s : State) : (poisonHit x s).time = s.time := by simp [poisonHit]
@[simp] theorem poisonHit_island (x : Fid) (s : State) : (poisonHit x s).island = s.island := by simp [poisonHit]
@[simp] theorem poisonHit_store (x : Fid) (s : State) : (poisonHit x s).store = s.store := by simp [poisonHit]
@[simp] theorem poisonHit_loader (x : Fid) (s : State) : (poisonHit x s).loader = s.loader := by simp [poisonHit]
@[simp] theorem poisonHit_console (x : Fid) (s : State) : (poisonHit x s).console = s.console := by simp [poisonHit]
@[simp] theorem poisonHit_tap (x : Fid) (s : State) : (poisonHit x s).tap = s.tap := by simp [poisonHit]
@[simp] theorem poisonHit_pins (x : Fid) (s : State) : (poisonHit x s).pins = s.pins := by simp [poisonHit]
@[simp] theorem poisonHit_pinsUp (x : Fid) (s : State) : (poisonHit x s).pinsUp = s.pinsUp := by simp [poisonHit]
@[simp] theorem poisonHit_hstop (x : Fid) (s : State) : (poisonHit x s).hstop = s.hstop := by simp [poisonHit]
@[simp] theorem poisonHit_hstopOn (x : Fid) (s : State) : (poisonHit x s).hstopOn = s.hstopOn := by simp [poisonHit]
@[simp] theorem poisonHit_dispatched (x : Fid) (s : State) : (poisonHit x s).dispatched = s.dispatched := by simp [poisonHit]
@[simp] theorem poisonHit_tsc (x : Fid) (s : State) : (poisonHit x s).tsc = s.tsc := by simp [poisonHit]
@[simp] theorem poisonHit_mem (x : Fid) (s : State) : (poisonHit x s).mem = s.mem := by simp [poisonHit]
@[simp] theorem poisonHit_poison (x : Fid) (s : State) : (poisonHit x s).poison = s.poison := by simp [poisonHit]
@[simp] theorem poisonHit_scrub (x : Fid) (s : State) : (poisonHit x s).scrub = s.scrub := by simp [poisonHit]
@[simp] theorem poisonHit_rat (x : Fid) (s : State) : (poisonHit x s).rat = s.rat := by simp [poisonHit]
@[simp] theorem poisonHit_cores (x : Fid) (s : State) : (poisonHit x s).cores = s.cores := by simp [poisonHit]
@[simp] theorem poisonHit_aplic (x : Fid) (s : State) : (poisonHit x s).aplic = s.aplic := by simp [poisonHit]
@[simp] theorem poisonHit_srcLevel (x : Fid) (s : State) : (poisonHit x s).srcLevel = s.srcLevel := by simp [poisonHit]
@[simp] theorem poisonHit_queues (x : Fid) (s : State) : (poisonHit x s).queues = s.queues := by simp [poisonHit]
@[simp] theorem poisonHit_evbuf (x : Fid) (s : State) : (poisonHit x s).evbuf = s.evbuf := by simp [poisonHit]
@[simp] theorem poisonHit_fwver (x : Fid) (s : State) : (poisonHit x s).fwver = s.fwver := by simp [poisonHit]
@[simp] theorem poisonHit_rports (x : Fid) (s : State) : (poisonHit x s).rports = s.rports := by simp [poisonHit]
@[simp] theorem poisonHit_clusterHeld (x : Fid) (s : State) : (poisonHit x s).clusterHeld = s.clusterHeld := by simp [poisonHit]
@[simp] theorem poisonHit_clusterStop (x : Fid) (s : State) : (poisonHit x s).clusterStop = s.clusterStop := by simp [poisonHit]
@[simp] theorem poisonHit_tiles (x : Fid) (s : State) : (poisonHit x s).tiles = s.tiles := by simp [poisonHit]
@[simp] theorem poisonHit_shuttle (x : Fid) (s : State) : (poisonHit x s).shuttle = s.shuttle := by simp [poisonHit]
@[simp] theorem poisonHit_peat (x : Fid) (s : State) : (poisonHit x s).peat = s.peat := by simp [poisonHit]
@[simp] theorem poisonHit_lanes (x : Fid) (s : State) : (poisonHit x s).lanes = s.lanes := by simp [poisonHit]
@[simp] theorem poisonHit_fabric (x : Fid) (s : State) : (poisonHit x s).fabric = s.fabric := by simp [poisonHit]
@[simp] theorem poisonHit_ports (x : Fid) (s : State) : (poisonHit x s).ports = s.ports := by simp [poisonHit]
@[simp] theorem poisonHit_loopback (x : Fid) (s : State) : (poisonHit x s).loopback = s.loopback := by simp [poisonHit]
@[simp] theorem poisonHit_nextTid (x : Fid) (s : State) : (poisonHit x s).nextTid = s.nextTid := by simp [poisonHit]
@[simp] theorem poisonHit_remote (x : Fid) (s : State) : (poisonHit x s).remote = s.remote := by simp [poisonHit]
@[simp] theorem poisonHit_paceFrom (x : Fid) (s : State) : (poisonHit x s).paceFrom = s.paceFrom := by simp [poisonHit]
@[simp] theorem poisonHit_chans (x : Fid) (s : State) : (poisonHit x s).chans = s.chans := by simp [poisonHit]
@[simp] theorem poisonHit_axes (x : Fid) (s : State) : (poisonHit x s).axes = s.axes := by simp [poisonHit]
@[simp] theorem poisonHit_trd (x : Fid) (s : State) : (poisonHit x s).trd = s.trd := by simp [poisonHit]
@[simp] theorem poisonHit_fbk (x : Fid) (s : State) : (poisonHit x s).fbk = s.fbk := by simp [poisonHit]
@[simp] theorem poisonHit_cc (x : Fid) (s : State) : (poisonHit x s).cc = s.cc := by simp [poisonHit]
@[simp] theorem poisonHit_can (x : Fid) (s : State) : (poisonHit x s).can = s.can := by simp [poisonHit]
@[simp] theorem poisonHit_dsp (x : Fid) (s : State) : (poisonHit x s).dsp = s.dsp := by simp [poisonHit]
@[simp] theorem poisonHit_power (x : Fid) (s : State) : (poisonHit x s).power = s.power := by simp [poisonHit]
@[simp] theorem poisonHit_parts (x : Fid) (s : State) : (poisonHit x s).parts = s.parts := by simp [poisonHit]
@[simp] theorem poisonHit_frz (x : Fid) (s : State) : (poisonHit x s).frz = s.frz := by simp [poisonHit]
@[simp] theorem poisonHit_free (x : Fid) (s : State) : (poisonHit x s).free = s.free := by simp [poisonHit]

end Sys2Proof.Machine
end

