-- ==== Sys2Proof/Laws/Events.lean ====
section
/-! SUPPORT. What the operations that reach memory and the queues can change: an MSI, a record, an event; and the two ways a
command ends. -/
namespace Sys2Proof.Machine

/-! ### Delivering an MSI changes cores alone -/
@[simp] theorem pendImsic_pending (n : Fin 48) (file : Fin 9) (i : BitVec 8) (s : State) : (pendImsic n file i s).pending = s.pending := by
  unfold pendImsic; repeat' split
  all_goals rfl
@[simp] theorem pendImsic_time (n : Fin 48) (file : Fin 9) (i : BitVec 8) (s : State) : (pendImsic n file i s).time = s.time := by
  unfold pendImsic; repeat' split
  all_goals rfl
@[simp] theorem pendImsic_island (n : Fin 48) (file : Fin 9) (i : BitVec 8) (s : State) : (pendImsic n file i s).island = s.island := by
  unfold pendImsic; repeat' split
  all_goals rfl
@[simp] theorem pendImsic_store (n : Fin 48) (file : Fin 9) (i : BitVec 8) (s : State) : (pendImsic n file i s).store = s.store := by
  unfold pendImsic; repeat' split
  all_goals rfl
@[simp] theorem pendImsic_loader (n : Fin 48) (file : Fin 9) (i : BitVec 8) (s : State) : (pendImsic n file i s).loader = s.loader := by
  unfold pendImsic; repeat' split
  all_goals rfl
@[simp] theorem pendImsic_console (n : Fin 48) (file : Fin 9) (i : BitVec 8) (s : State) : (pendImsic n file i s).console = s.console := by
  unfold pendImsic; repeat' split
  all_goals rfl
@[simp] theorem pendImsic_tap (n : Fin 48) (file : Fin 9) (i : BitVec 8) (s : State) : (pendImsic n file i s).tap = s.tap := by
  unfold pendImsic; repeat' split
  all_goals rfl
@[simp] theorem pendImsic_pins (n : Fin 48) (file : Fin 9) (i : BitVec 8) (s : State) : (pendImsic n file i s).pins = s.pins := by
  unfold pendImsic; repeat' split
  all_goals rfl
@[simp] theorem pendImsic_pinsUp (n : Fin 48) (file : Fin 9) (i : BitVec 8) (s : State) : (pendImsic n file i s).pinsUp = s.pinsUp := by
  unfold pendImsic; repeat' split
  all_goals rfl
@[simp] theorem pendImsic_hstop (n : Fin 48) (file : Fin 9) (i : BitVec 8) (s : State) : (pendImsic n file i s).hstop = s.hstop := by
  unfold pendImsic; repeat' split
  all_goals rfl
@[simp] theorem pendImsic_hstopOn (n : Fin 48) (file : Fin 9) (i : BitVec 8) (s : State) : (pendImsic n file i s).hstopOn = s.hstopOn := by
  unfold pendImsic; repeat' split
  all_goals rfl
@[simp] theorem pendImsic_dispatched (n : Fin 48) (file : Fin 9) (i : BitVec 8) (s : State) : (pendImsic n file i s).dispatched = s.dispatched := by
  unfold pendImsic; repeat' split
  all_goals rfl
@[simp] theorem pendImsic_tsc (n : Fin 48) (file : Fin 9) (i : BitVec 8) (s : State) : (pendImsic n file i s).tsc = s.tsc := by
  unfold pendImsic; repeat' split
  all_goals rfl
@[simp] theorem pendImsic_mem (n : Fin 48) (file : Fin 9) (i : BitVec 8) (s : State) : (pendImsic n file i s).mem = s.mem := by
  unfold pendImsic; repeat' split
  all_goals rfl
@[simp] theorem pendImsic_poison (n : Fin 48) (file : Fin 9) (i : BitVec 8) (s : State) : (pendImsic n file i s).poison = s.poison := by
  unfold pendImsic; repeat' split
  all_goals rfl
@[simp] theorem pendImsic_scrub (n : Fin 48) (file : Fin 9) (i : BitVec 8) (s : State) : (pendImsic n file i s).scrub = s.scrub := by
  unfold pendImsic; repeat' split
  all_goals rfl
@[simp] theorem pendImsic_rat (n : Fin 48) (file : Fin 9) (i : BitVec 8) (s : State) : (pendImsic n file i s).rat = s.rat := by
  unfold pendImsic; repeat' split
  all_goals rfl
@[simp] theorem pendImsic_aplic (n : Fin 48) (file : Fin 9) (i : BitVec 8) (s : State) : (pendImsic n file i s).aplic = s.aplic := by
  unfold pendImsic; repeat' split
  all_goals rfl
@[simp] theorem pendImsic_srcLevel (n : Fin 48) (file : Fin 9) (i : BitVec 8) (s : State) : (pendImsic n file i s).srcLevel = s.srcLevel := by
  unfold pendImsic; repeat' split
  all_goals rfl
@[simp] theorem pendImsic_queues (n : Fin 48) (file : Fin 9) (i : BitVec 8) (s : State) : (pendImsic n file i s).queues = s.queues := by
  unfold pendImsic; repeat' split
  all_goals rfl
@[simp] theorem pendImsic_evbuf (n : Fin 48) (file : Fin 9) (i : BitVec 8) (s : State) : (pendImsic n file i s).evbuf = s.evbuf := by
  unfold pendImsic; repeat' split
  all_goals rfl
@[simp] theorem pendImsic_fwver (n : Fin 48) (file : Fin 9) (i : BitVec 8) (s : State) : (pendImsic n file i s).fwver = s.fwver := by
  unfold pendImsic; repeat' split
  all_goals rfl
@[simp] theorem pendImsic_rports (n : Fin 48) (file : Fin 9) (i : BitVec 8) (s : State) : (pendImsic n file i s).rports = s.rports := by
  unfold pendImsic; repeat' split
  all_goals rfl
@[simp] theorem pendImsic_clusterHeld (n : Fin 48) (file : Fin 9) (i : BitVec 8) (s : State) : (pendImsic n file i s).clusterHeld = s.clusterHeld := by
  unfold pendImsic; repeat' split
  all_goals rfl
@[simp] theorem pendImsic_clusterStop (n : Fin 48) (file : Fin 9) (i : BitVec 8) (s : State) : (pendImsic n file i s).clusterStop = s.clusterStop := by
  unfold pendImsic; repeat' split
  all_goals rfl
@[simp] theorem pendImsic_tiles (n : Fin 48) (file : Fin 9) (i : BitVec 8) (s : State) : (pendImsic n file i s).tiles = s.tiles := by
  unfold pendImsic; repeat' split
  all_goals rfl
@[simp] theorem pendImsic_shuttle (n : Fin 48) (file : Fin 9) (i : BitVec 8) (s : State) : (pendImsic n file i s).shuttle = s.shuttle := by
  unfold pendImsic; repeat' split
  all_goals rfl
@[simp] theorem pendImsic_peat (n : Fin 48) (file : Fin 9) (i : BitVec 8) (s : State) : (pendImsic n file i s).peat = s.peat := by
  unfold pendImsic; repeat' split
  all_goals rfl
@[simp] theorem pendImsic_lanes (n : Fin 48) (file : Fin 9) (i : BitVec 8) (s : State) : (pendImsic n file i s).lanes = s.lanes := by
  unfold pendImsic; repeat' split
  all_goals rfl
@[simp] theorem pendImsic_fabric (n : Fin 48) (file : Fin 9) (i : BitVec 8) (s : State) : (pendImsic n file i s).fabric = s.fabric := by
  unfold pendImsic; repeat' split
  all_goals rfl
@[simp] theorem pendImsic_ports (n : Fin 48) (file : Fin 9) (i : BitVec 8) (s : State) : (pendImsic n file i s).ports = s.ports := by
  unfold pendImsic; repeat' split
  all_goals rfl
@[simp] theorem pendImsic_loopback (n : Fin 48) (file : Fin 9) (i : BitVec 8) (s : State) : (pendImsic n file i s).loopback = s.loopback := by
  unfold pendImsic; repeat' split
  all_goals rfl
@[simp] theorem pendImsic_nextTid (n : Fin 48) (file : Fin 9) (i : BitVec 8) (s : State) : (pendImsic n file i s).nextTid = s.nextTid := by
  unfold pendImsic; repeat' split
  all_goals rfl
@[simp] theorem pendImsic_remote (n : Fin 48) (file : Fin 9) (i : BitVec 8) (s : State) : (pendImsic n file i s).remote = s.remote := by
  unfold pendImsic; repeat' split
  all_goals rfl
@[simp] theorem pendImsic_paceFrom (n : Fin 48) (file : Fin 9) (i : BitVec 8) (s : State) : (pendImsic n file i s).paceFrom = s.paceFrom := by
  unfold pendImsic; repeat' split
  all_goals rfl
@[simp] theorem pendImsic_chans (n : Fin 48) (file : Fin 9) (i : BitVec 8) (s : State) : (pendImsic n file i s).chans = s.chans := by
  unfold pendImsic; repeat' split
  all_goals rfl
@[simp] theorem pendImsic_axes (n : Fin 48) (file : Fin 9) (i : BitVec 8) (s : State) : (pendImsic n file i s).axes = s.axes := by
  unfold pendImsic; repeat' split
  all_goals rfl
@[simp] theorem pendImsic_trd (n : Fin 48) (file : Fin 9) (i : BitVec 8) (s : State) : (pendImsic n file i s).trd = s.trd := by
  unfold pendImsic; repeat' split
  all_goals rfl
@[simp] theorem pendImsic_fbk (n : Fin 48) (file : Fin 9) (i : BitVec 8) (s : State) : (pendImsic n file i s).fbk = s.fbk := by
  unfold pendImsic; repeat' split
  all_goals rfl
@[simp] theorem pendImsic_cc (n : Fin 48) (file : Fin 9) (i : BitVec 8) (s : State) : (pendImsic n file i s).cc = s.cc := by
  unfold pendImsic; repeat' split
  all_goals rfl
@[simp] theorem pendImsic_can (n : Fin 48) (file : Fin 9) (i : BitVec 8) (s : State) : (pendImsic n file i s).can = s.can := by
  unfold pendImsic; repeat' split
  all_goals rfl
@[simp] theorem pendImsic_dsp (n : Fin 48) (file : Fin 9) (i : BitVec 8) (s : State) : (pendImsic n file i s).dsp = s.dsp := by
  unfold pendImsic; repeat' split
  all_goals rfl
@[simp] theorem pendImsic_power (n : Fin 48) (file : Fin 9) (i : BitVec 8) (s : State) : (pendImsic n file i s).power = s.power := by
  unfold pendImsic; repeat' split
  all_goals rfl
@[simp] theorem pendImsic_flt (n : Fin 48) (file : Fin 9) (i : BitVec 8) (s : State) : (pendImsic n file i s).flt = s.flt := by
  unfold pendImsic; repeat' split
  all_goals rfl
@[simp] theorem pendImsic_parts (n : Fin 48) (file : Fin 9) (i : BitVec 8) (s : State) : (pendImsic n file i s).parts = s.parts := by
  unfold pendImsic; repeat' split
  all_goals rfl
@[simp] theorem pendImsic_frz (n : Fin 48) (file : Fin 9) (i : BitVec 8) (s : State) : (pendImsic n file i s).frz = s.frz := by
  unfold pendImsic; repeat' split
  all_goals rfl
@[simp] theorem pendImsic_free (n : Fin 48) (file : Fin 9) (i : BitVec 8) (s : State) : (pendImsic n file i s).free = s.free := by
  unfold pendImsic; repeat' split
  all_goals rfl

/-! ### Sending an MSI changes cores alone -/
@[simp] theorem sendMsi_pending (h f : Nat) (i : BitVec 8) (s : State) : (sendMsi h f i s).pending = s.pending := by
  unfold sendMsi; split <;> simp
@[simp] theorem sendMsi_time (h f : Nat) (i : BitVec 8) (s : State) : (sendMsi h f i s).time = s.time := by
  unfold sendMsi; split <;> simp
@[simp] theorem sendMsi_island (h f : Nat) (i : BitVec 8) (s : State) : (sendMsi h f i s).island = s.island := by
  unfold sendMsi; split <;> simp
@[simp] theorem sendMsi_store (h f : Nat) (i : BitVec 8) (s : State) : (sendMsi h f i s).store = s.store := by
  unfold sendMsi; split <;> simp
@[simp] theorem sendMsi_loader (h f : Nat) (i : BitVec 8) (s : State) : (sendMsi h f i s).loader = s.loader := by
  unfold sendMsi; split <;> simp
@[simp] theorem sendMsi_console (h f : Nat) (i : BitVec 8) (s : State) : (sendMsi h f i s).console = s.console := by
  unfold sendMsi; split <;> simp
@[simp] theorem sendMsi_tap (h f : Nat) (i : BitVec 8) (s : State) : (sendMsi h f i s).tap = s.tap := by
  unfold sendMsi; split <;> simp
@[simp] theorem sendMsi_pins (h f : Nat) (i : BitVec 8) (s : State) : (sendMsi h f i s).pins = s.pins := by
  unfold sendMsi; split <;> simp
@[simp] theorem sendMsi_pinsUp (h f : Nat) (i : BitVec 8) (s : State) : (sendMsi h f i s).pinsUp = s.pinsUp := by
  unfold sendMsi; split <;> simp
@[simp] theorem sendMsi_hstop (h f : Nat) (i : BitVec 8) (s : State) : (sendMsi h f i s).hstop = s.hstop := by
  unfold sendMsi; split <;> simp
@[simp] theorem sendMsi_hstopOn (h f : Nat) (i : BitVec 8) (s : State) : (sendMsi h f i s).hstopOn = s.hstopOn := by
  unfold sendMsi; split <;> simp
@[simp] theorem sendMsi_dispatched (h f : Nat) (i : BitVec 8) (s : State) : (sendMsi h f i s).dispatched = s.dispatched := by
  unfold sendMsi; split <;> simp
@[simp] theorem sendMsi_tsc (h f : Nat) (i : BitVec 8) (s : State) : (sendMsi h f i s).tsc = s.tsc := by
  unfold sendMsi; split <;> simp
@[simp] theorem sendMsi_mem (h f : Nat) (i : BitVec 8) (s : State) : (sendMsi h f i s).mem = s.mem := by
  unfold sendMsi; split <;> simp
@[simp] theorem sendMsi_poison (h f : Nat) (i : BitVec 8) (s : State) : (sendMsi h f i s).poison = s.poison := by
  unfold sendMsi; split <;> simp
@[simp] theorem sendMsi_scrub (h f : Nat) (i : BitVec 8) (s : State) : (sendMsi h f i s).scrub = s.scrub := by
  unfold sendMsi; split <;> simp
@[simp] theorem sendMsi_rat (h f : Nat) (i : BitVec 8) (s : State) : (sendMsi h f i s).rat = s.rat := by
  unfold sendMsi; split <;> simp
@[simp] theorem sendMsi_aplic (h f : Nat) (i : BitVec 8) (s : State) : (sendMsi h f i s).aplic = s.aplic := by
  unfold sendMsi; split <;> simp
@[simp] theorem sendMsi_srcLevel (h f : Nat) (i : BitVec 8) (s : State) : (sendMsi h f i s).srcLevel = s.srcLevel := by
  unfold sendMsi; split <;> simp
@[simp] theorem sendMsi_queues (h f : Nat) (i : BitVec 8) (s : State) : (sendMsi h f i s).queues = s.queues := by
  unfold sendMsi; split <;> simp
@[simp] theorem sendMsi_evbuf (h f : Nat) (i : BitVec 8) (s : State) : (sendMsi h f i s).evbuf = s.evbuf := by
  unfold sendMsi; split <;> simp
@[simp] theorem sendMsi_fwver (h f : Nat) (i : BitVec 8) (s : State) : (sendMsi h f i s).fwver = s.fwver := by
  unfold sendMsi; split <;> simp
@[simp] theorem sendMsi_rports (h f : Nat) (i : BitVec 8) (s : State) : (sendMsi h f i s).rports = s.rports := by
  unfold sendMsi; split <;> simp
@[simp] theorem sendMsi_clusterHeld (h f : Nat) (i : BitVec 8) (s : State) : (sendMsi h f i s).clusterHeld = s.clusterHeld := by
  unfold sendMsi; split <;> simp
@[simp] theorem sendMsi_clusterStop (h f : Nat) (i : BitVec 8) (s : State) : (sendMsi h f i s).clusterStop = s.clusterStop := by
  unfold sendMsi; split <;> simp
@[simp] theorem sendMsi_tiles (h f : Nat) (i : BitVec 8) (s : State) : (sendMsi h f i s).tiles = s.tiles := by
  unfold sendMsi; split <;> simp
@[simp] theorem sendMsi_shuttle (h f : Nat) (i : BitVec 8) (s : State) : (sendMsi h f i s).shuttle = s.shuttle := by
  unfold sendMsi; split <;> simp
@[simp] theorem sendMsi_peat (h f : Nat) (i : BitVec 8) (s : State) : (sendMsi h f i s).peat = s.peat := by
  unfold sendMsi; split <;> simp
@[simp] theorem sendMsi_lanes (h f : Nat) (i : BitVec 8) (s : State) : (sendMsi h f i s).lanes = s.lanes := by
  unfold sendMsi; split <;> simp
@[simp] theorem sendMsi_fabric (h f : Nat) (i : BitVec 8) (s : State) : (sendMsi h f i s).fabric = s.fabric := by
  unfold sendMsi; split <;> simp
@[simp] theorem sendMsi_ports (h f : Nat) (i : BitVec 8) (s : State) : (sendMsi h f i s).ports = s.ports := by
  unfold sendMsi; split <;> simp
@[simp] theorem sendMsi_loopback (h f : Nat) (i : BitVec 8) (s : State) : (sendMsi h f i s).loopback = s.loopback := by
  unfold sendMsi; split <;> simp
@[simp] theorem sendMsi_nextTid (h f : Nat) (i : BitVec 8) (s : State) : (sendMsi h f i s).nextTid = s.nextTid := by
  unfold sendMsi; split <;> simp
@[simp] theorem sendMsi_remote (h f : Nat) (i : BitVec 8) (s : State) : (sendMsi h f i s).remote = s.remote := by
  unfold sendMsi; split <;> simp
@[simp] theorem sendMsi_paceFrom (h f : Nat) (i : BitVec 8) (s : State) : (sendMsi h f i s).paceFrom = s.paceFrom := by
  unfold sendMsi; split <;> simp
@[simp] theorem sendMsi_chans (h f : Nat) (i : BitVec 8) (s : State) : (sendMsi h f i s).chans = s.chans := by
  unfold sendMsi; split <;> simp
@[simp] theorem sendMsi_axes (h f : Nat) (i : BitVec 8) (s : State) : (sendMsi h f i s).axes = s.axes := by
  unfold sendMsi; split <;> simp
@[simp] theorem sendMsi_trd (h f : Nat) (i : BitVec 8) (s : State) : (sendMsi h f i s).trd = s.trd := by
  unfold sendMsi; split <;> simp
@[simp] theorem sendMsi_fbk (h f : Nat) (i : BitVec 8) (s : State) : (sendMsi h f i s).fbk = s.fbk := by
  unfold sendMsi; split <;> simp
@[simp] theorem sendMsi_cc (h f : Nat) (i : BitVec 8) (s : State) : (sendMsi h f i s).cc = s.cc := by
  unfold sendMsi; split <;> simp
@[simp] theorem sendMsi_can (h f : Nat) (i : BitVec 8) (s : State) : (sendMsi h f i s).can = s.can := by
  unfold sendMsi; split <;> simp
@[simp] theorem sendMsi_dsp (h f : Nat) (i : BitVec 8) (s : State) : (sendMsi h f i s).dsp = s.dsp := by
  unfold sendMsi; split <;> simp
@[simp] theorem sendMsi_power (h f : Nat) (i : BitVec 8) (s : State) : (sendMsi h f i s).power = s.power := by
  unfold sendMsi; split <;> simp
@[simp] theorem sendMsi_flt (h f : Nat) (i : BitVec 8) (s : State) : (sendMsi h f i s).flt = s.flt := by
  unfold sendMsi; split <;> simp
@[simp] theorem sendMsi_parts (h f : Nat) (i : BitVec 8) (s : State) : (sendMsi h f i s).parts = s.parts := by
  unfold sendMsi; split <;> simp
@[simp] theorem sendMsi_frz (h f : Nat) (i : BitVec 8) (s : State) : (sendMsi h f i s).frz = s.frz := by
  unfold sendMsi; split <;> simp
@[simp] theorem sendMsi_free (h f : Nat) (i : BitVec 8) (s : State) : (sendMsi h f i s).free = s.free := by
  unfold sendMsi; split <;> simp

/-! ### A record changes its queue and what a write to memory, its access error and its MSI change -/
@[simp] theorem writeRecord_pending (n : Fin 64) (r : EvRec) (irq : Bool) (s : State) : (writeRecord n r irq s).pending = s.pending := by
  unfold writeRecord; simp only; repeat' split
  all_goals simp
@[simp] theorem writeRecord_time (n : Fin 64) (r : EvRec) (irq : Bool) (s : State) : (writeRecord n r irq s).time = s.time := by
  unfold writeRecord; simp only; repeat' split
  all_goals simp
@[simp] theorem writeRecord_island (n : Fin 64) (r : EvRec) (irq : Bool) (s : State) : (writeRecord n r irq s).island = s.island := by
  unfold writeRecord; simp only; repeat' split
  all_goals simp
@[simp] theorem writeRecord_store (n : Fin 64) (r : EvRec) (irq : Bool) (s : State) : (writeRecord n r irq s).store = s.store := by
  unfold writeRecord; simp only; repeat' split
  all_goals simp
@[simp] theorem writeRecord_loader (n : Fin 64) (r : EvRec) (irq : Bool) (s : State) : (writeRecord n r irq s).loader = s.loader := by
  unfold writeRecord; simp only; repeat' split
  all_goals simp
@[simp] theorem writeRecord_console (n : Fin 64) (r : EvRec) (irq : Bool) (s : State) : (writeRecord n r irq s).console = s.console := by
  unfold writeRecord; simp only; repeat' split
  all_goals simp
@[simp] theorem writeRecord_tap (n : Fin 64) (r : EvRec) (irq : Bool) (s : State) : (writeRecord n r irq s).tap = s.tap := by
  unfold writeRecord; simp only; repeat' split
  all_goals simp
@[simp] theorem writeRecord_pins (n : Fin 64) (r : EvRec) (irq : Bool) (s : State) : (writeRecord n r irq s).pins = s.pins := by
  unfold writeRecord; simp only; repeat' split
  all_goals simp
@[simp] theorem writeRecord_pinsUp (n : Fin 64) (r : EvRec) (irq : Bool) (s : State) : (writeRecord n r irq s).pinsUp = s.pinsUp := by
  unfold writeRecord; simp only; repeat' split
  all_goals simp
@[simp] theorem writeRecord_hstop (n : Fin 64) (r : EvRec) (irq : Bool) (s : State) : (writeRecord n r irq s).hstop = s.hstop := by
  unfold writeRecord; simp only; repeat' split
  all_goals simp
@[simp] theorem writeRecord_hstopOn (n : Fin 64) (r : EvRec) (irq : Bool) (s : State) : (writeRecord n r irq s).hstopOn = s.hstopOn := by
  unfold writeRecord; simp only; repeat' split
  all_goals simp
@[simp] theorem writeRecord_dispatched (n : Fin 64) (r : EvRec) (irq : Bool) (s : State) : (writeRecord n r irq s).dispatched = s.dispatched := by
  unfold writeRecord; simp only; repeat' split
  all_goals simp
@[simp] theorem writeRecord_tsc (n : Fin 64) (r : EvRec) (irq : Bool) (s : State) : (writeRecord n r irq s).tsc = s.tsc := by
  unfold writeRecord; simp only; repeat' split
  all_goals simp
@[simp] theorem writeRecord_scrub (n : Fin 64) (r : EvRec) (irq : Bool) (s : State) : (writeRecord n r irq s).scrub = s.scrub := by
  unfold writeRecord; simp only; repeat' split
  all_goals simp
@[simp] theorem writeRecord_aplic (n : Fin 64) (r : EvRec) (irq : Bool) (s : State) : (writeRecord n r irq s).aplic = s.aplic := by
  unfold writeRecord; simp only; repeat' split
  all_goals simp
@[simp] theorem writeRecord_srcLevel (n : Fin 64) (r : EvRec) (irq : Bool) (s : State) : (writeRecord n r irq s).srcLevel = s.srcLevel := by
  unfold writeRecord; simp only; repeat' split
  all_goals simp
@[simp] theorem writeRecord_evbuf (n : Fin 64) (r : EvRec) (irq : Bool) (s : State) : (writeRecord n r irq s).evbuf = s.evbuf := by
  unfold writeRecord; simp only; repeat' split
  all_goals simp
@[simp] theorem writeRecord_fwver (n : Fin 64) (r : EvRec) (irq : Bool) (s : State) : (writeRecord n r irq s).fwver = s.fwver := by
  unfold writeRecord; simp only; repeat' split
  all_goals simp
@[simp] theorem writeRecord_rports (n : Fin 64) (r : EvRec) (irq : Bool) (s : State) : (writeRecord n r irq s).rports = s.rports := by
  unfold writeRecord; simp only; repeat' split
  all_goals simp
@[simp] theorem writeRecord_clusterHeld (n : Fin 64) (r : EvRec) (irq : Bool) (s : State) : (writeRecord n r irq s).clusterHeld = s.clusterHeld := by
  unfold writeRecord; simp only; repeat' split
  all_goals simp
@[simp] theorem writeRecord_clusterStop (n : Fin 64) (r : EvRec) (irq : Bool) (s : State) : (writeRecord n r irq s).clusterStop = s.clusterStop := by
  unfold writeRecord; simp only; repeat' split
  all_goals simp
@[simp] theorem writeRecord_tiles (n : Fin 64) (r : EvRec) (irq : Bool) (s : State) : (writeRecord n r irq s).tiles = s.tiles := by
  unfold writeRecord; simp only; repeat' split
  all_goals simp
@[simp] theorem writeRecord_shuttle (n : Fin 64) (r : EvRec) (irq : Bool) (s : State) : (writeRecord n r irq s).shuttle = s.shuttle := by
  unfold writeRecord; simp only; repeat' split
  all_goals simp
@[simp] theorem writeRecord_peat (n : Fin 64) (r : EvRec) (irq : Bool) (s : State) : (writeRecord n r irq s).peat = s.peat := by
  unfold writeRecord; simp only; repeat' split
  all_goals simp
@[simp] theorem writeRecord_lanes (n : Fin 64) (r : EvRec) (irq : Bool) (s : State) : (writeRecord n r irq s).lanes = s.lanes := by
  unfold writeRecord; simp only; repeat' split
  all_goals simp
@[simp] theorem writeRecord_fabric (n : Fin 64) (r : EvRec) (irq : Bool) (s : State) : (writeRecord n r irq s).fabric = s.fabric := by
  unfold writeRecord; simp only; repeat' split
  all_goals simp
@[simp] theorem writeRecord_ports (n : Fin 64) (r : EvRec) (irq : Bool) (s : State) : (writeRecord n r irq s).ports = s.ports := by
  unfold writeRecord; simp only; repeat' split
  all_goals simp
@[simp] theorem writeRecord_loopback (n : Fin 64) (r : EvRec) (irq : Bool) (s : State) : (writeRecord n r irq s).loopback = s.loopback := by
  unfold writeRecord; simp only; repeat' split
  all_goals simp
@[simp] theorem writeRecord_nextTid (n : Fin 64) (r : EvRec) (irq : Bool) (s : State) : (writeRecord n r irq s).nextTid = s.nextTid := by
  unfold writeRecord; simp only; repeat' split
  all_goals simp
@[simp] theorem writeRecord_remote (n : Fin 64) (r : EvRec) (irq : Bool) (s : State) : (writeRecord n r irq s).remote = s.remote := by
  unfold writeRecord; simp only; repeat' split
  all_goals simp
@[simp] theorem writeRecord_paceFrom (n : Fin 64) (r : EvRec) (irq : Bool) (s : State) : (writeRecord n r irq s).paceFrom = s.paceFrom := by
  unfold writeRecord; simp only; repeat' split
  all_goals simp
@[simp] theorem writeRecord_chans (n : Fin 64) (r : EvRec) (irq : Bool) (s : State) : (writeRecord n r irq s).chans = s.chans := by
  unfold writeRecord; simp only; repeat' split
  all_goals simp
@[simp] theorem writeRecord_axes (n : Fin 64) (r : EvRec) (irq : Bool) (s : State) : (writeRecord n r irq s).axes = s.axes := by
  unfold writeRecord; simp only; repeat' split
  all_goals simp
@[simp] theorem writeRecord_trd (n : Fin 64) (r : EvRec) (irq : Bool) (s : State) : (writeRecord n r irq s).trd = s.trd := by
  unfold writeRecord; simp only; repeat' split
  all_goals simp
@[simp] theorem writeRecord_fbk (n : Fin 64) (r : EvRec) (irq : Bool) (s : State) : (writeRecord n r irq s).fbk = s.fbk := by
  unfold writeRecord; simp only; repeat' split
  all_goals simp
@[simp] theorem writeRecord_cc (n : Fin 64) (r : EvRec) (irq : Bool) (s : State) : (writeRecord n r irq s).cc = s.cc := by
  unfold writeRecord; simp only; repeat' split
  all_goals simp
@[simp] theorem writeRecord_can (n : Fin 64) (r : EvRec) (irq : Bool) (s : State) : (writeRecord n r irq s).can = s.can := by
  unfold writeRecord; simp only; repeat' split
  all_goals simp
@[simp] theorem writeRecord_dsp (n : Fin 64) (r : EvRec) (irq : Bool) (s : State) : (writeRecord n r irq s).dsp = s.dsp := by
  unfold writeRecord; simp only; repeat' split
  all_goals simp
@[simp] theorem writeRecord_power (n : Fin 64) (r : EvRec) (irq : Bool) (s : State) : (writeRecord n r irq s).power = s.power := by
  unfold writeRecord; simp only; repeat' split
  all_goals simp
@[simp] theorem writeRecord_parts (n : Fin 64) (r : EvRec) (irq : Bool) (s : State) : (writeRecord n r irq s).parts = s.parts := by
  unfold writeRecord; simp only; repeat' split
  all_goals simp
@[simp] theorem writeRecord_frz (n : Fin 64) (r : EvRec) (irq : Bool) (s : State) : (writeRecord n r irq s).frz = s.frz := by
  unfold writeRecord; simp only; repeat' split
  all_goals simp
@[simp] theorem writeRecord_free (n : Fin 64) (r : EvRec) (irq : Bool) (s : State) : (writeRecord n r irq s).free = s.free := by
  unfold writeRecord; simp only; repeat' split
  all_goals simp

/-! ### An event changes the queues and buffers, and what a record changes -/
@[simp] theorem emitTo_pending (p : Fin 32) (x : Fid) (k : BitVec 8) (w : BitVec 128) (s : State) : (emitTo p x k w s).pending = s.pending := by
  unfold emitTo; simp only; repeat' split
  all_goals simp
@[simp] theorem emitTo_time (p : Fin 32) (x : Fid) (k : BitVec 8) (w : BitVec 128) (s : State) : (emitTo p x k w s).time = s.time := by
  unfold emitTo; simp only; repeat' split
  all_goals simp
@[simp] theorem emitTo_island (p : Fin 32) (x : Fid) (k : BitVec 8) (w : BitVec 128) (s : State) : (emitTo p x k w s).island = s.island := by
  unfold emitTo; simp only; repeat' split
  all_goals simp
@[simp] theorem emitTo_store (p : Fin 32) (x : Fid) (k : BitVec 8) (w : BitVec 128) (s : State) : (emitTo p x k w s).store = s.store := by
  unfold emitTo; simp only; repeat' split
  all_goals simp
@[simp] theorem emitTo_loader (p : Fin 32) (x : Fid) (k : BitVec 8) (w : BitVec 128) (s : State) : (emitTo p x k w s).loader = s.loader := by
  unfold emitTo; simp only; repeat' split
  all_goals simp
@[simp] theorem emitTo_console (p : Fin 32) (x : Fid) (k : BitVec 8) (w : BitVec 128) (s : State) : (emitTo p x k w s).console = s.console := by
  unfold emitTo; simp only; repeat' split
  all_goals simp
@[simp] theorem emitTo_tap (p : Fin 32) (x : Fid) (k : BitVec 8) (w : BitVec 128) (s : State) : (emitTo p x k w s).tap = s.tap := by
  unfold emitTo; simp only; repeat' split
  all_goals simp
@[simp] theorem emitTo_pins (p : Fin 32) (x : Fid) (k : BitVec 8) (w : BitVec 128) (s : State) : (emitTo p x k w s).pins = s.pins := by
  unfold emitTo; simp only; repeat' split
  all_goals simp
@[simp] theorem emitTo_pinsUp (p : Fin 32) (x : Fid) (k : BitVec 8) (w : BitVec 128) (s : State) : (emitTo p x k w s).pinsUp = s.pinsUp := by
  unfold emitTo; simp only; repeat' split
  all_goals simp
@[simp] theorem emitTo_hstop (p : Fin 32) (x : Fid) (k : BitVec 8) (w : BitVec 128) (s : State) : (emitTo p x k w s).hstop = s.hstop := by
  unfold emitTo; simp only; repeat' split
  all_goals simp
@[simp] theorem emitTo_hstopOn (p : Fin 32) (x : Fid) (k : BitVec 8) (w : BitVec 128) (s : State) : (emitTo p x k w s).hstopOn = s.hstopOn := by
  unfold emitTo; simp only; repeat' split
  all_goals simp
@[simp] theorem emitTo_dispatched (p : Fin 32) (x : Fid) (k : BitVec 8) (w : BitVec 128) (s : State) : (emitTo p x k w s).dispatched = s.dispatched := by
  unfold emitTo; simp only; repeat' split
  all_goals simp
@[simp] theorem emitTo_tsc (p : Fin 32) (x : Fid) (k : BitVec 8) (w : BitVec 128) (s : State) : (emitTo p x k w s).tsc = s.tsc := by
  unfold emitTo; simp only; repeat' split
  all_goals simp
@[simp] theorem emitTo_scrub (p : Fin 32) (x : Fid) (k : BitVec 8) (w : BitVec 128) (s : State) : (emitTo p x k w s).scrub = s.scrub := by
  unfold emitTo; simp only; repeat' split
  all_goals simp
@[simp] theorem emitTo_aplic (p : Fin 32) (x : Fid) (k : BitVec 8) (w : BitVec 128) (s : State) : (emitTo p x k w s).aplic = s.aplic := by
  unfold emitTo; simp only; repeat' split
  all_goals simp
@[simp] theorem emitTo_srcLevel (p : Fin 32) (x : Fid) (k : BitVec 8) (w : BitVec 128) (s : State) : (emitTo p x k w s).srcLevel = s.srcLevel := by
  unfold emitTo; simp only; repeat' split
  all_goals simp
@[simp] theorem emitTo_fwver (p : Fin 32) (x : Fid) (k : BitVec 8) (w : BitVec 128) (s : State) : (emitTo p x k w s).fwver = s.fwver := by
  unfold emitTo; simp only; repeat' split
  all_goals simp
@[simp] theorem emitTo_rports (p : Fin 32) (x : Fid) (k : BitVec 8) (w : BitVec 128) (s : State) : (emitTo p x k w s).rports = s.rports := by
  unfold emitTo; simp only; repeat' split
  all_goals simp
@[simp] theorem emitTo_clusterHeld (p : Fin 32) (x : Fid) (k : BitVec 8) (w : BitVec 128) (s : State) : (emitTo p x k w s).clusterHeld = s.clusterHeld := by
  unfold emitTo; simp only; repeat' split
  all_goals simp
@[simp] theorem emitTo_clusterStop (p : Fin 32) (x : Fid) (k : BitVec 8) (w : BitVec 128) (s : State) : (emitTo p x k w s).clusterStop = s.clusterStop := by
  unfold emitTo; simp only; repeat' split
  all_goals simp
@[simp] theorem emitTo_tiles (p : Fin 32) (x : Fid) (k : BitVec 8) (w : BitVec 128) (s : State) : (emitTo p x k w s).tiles = s.tiles := by
  unfold emitTo; simp only; repeat' split
  all_goals simp
@[simp] theorem emitTo_shuttle (p : Fin 32) (x : Fid) (k : BitVec 8) (w : BitVec 128) (s : State) : (emitTo p x k w s).shuttle = s.shuttle := by
  unfold emitTo; simp only; repeat' split
  all_goals simp
@[simp] theorem emitTo_peat (p : Fin 32) (x : Fid) (k : BitVec 8) (w : BitVec 128) (s : State) : (emitTo p x k w s).peat = s.peat := by
  unfold emitTo; simp only; repeat' split
  all_goals simp
@[simp] theorem emitTo_lanes (p : Fin 32) (x : Fid) (k : BitVec 8) (w : BitVec 128) (s : State) : (emitTo p x k w s).lanes = s.lanes := by
  unfold emitTo; simp only; repeat' split
  all_goals simp
@[simp] theorem emitTo_fabric (p : Fin 32) (x : Fid) (k : BitVec 8) (w : BitVec 128) (s : State) : (emitTo p x k w s).fabric = s.fabric := by
  unfold emitTo; simp only; repeat' split
  all_goals simp
@[simp] theorem emitTo_ports (p : Fin 32) (x : Fid) (k : BitVec 8) (w : BitVec 128) (s : State) : (emitTo p x k w s).ports = s.ports := by
  unfold emitTo; simp only; repeat' split
  all_goals simp
@[simp] theorem emitTo_loopback (p : Fin 32) (x : Fid) (k : BitVec 8) (w : BitVec 128) (s : State) : (emitTo p x k w s).loopback = s.loopback := by
  unfold emitTo; simp only; repeat' split
  all_goals simp
@[simp] theorem emitTo_nextTid (p : Fin 32) (x : Fid) (k : BitVec 8) (w : BitVec 128) (s : State) : (emitTo p x k w s).nextTid = s.nextTid := by
  unfold emitTo; simp only; repeat' split
  all_goals simp
@[simp] theorem emitTo_remote (p : Fin 32) (x : Fid) (k : BitVec 8) (w : BitVec 128) (s : State) : (emitTo p x k w s).remote = s.remote := by
  unfold emitTo; simp only; repeat' split
  all_goals simp
@[simp] theorem emitTo_paceFrom (p : Fin 32) (x : Fid) (k : BitVec 8) (w : BitVec 128) (s : State) : (emitTo p x k w s).paceFrom = s.paceFrom := by
  unfold emitTo; simp only; repeat' split
  all_goals simp
@[simp] theorem emitTo_chans (p : Fin 32) (x : Fid) (k : BitVec 8) (w : BitVec 128) (s : State) : (emitTo p x k w s).chans = s.chans := by
  unfold emitTo; simp only; repeat' split
  all_goals simp
@[simp] theorem emitTo_axes (p : Fin 32) (x : Fid) (k : BitVec 8) (w : BitVec 128) (s : State) : (emitTo p x k w s).axes = s.axes := by
  unfold emitTo; simp only; repeat' split
  all_goals simp
@[simp] theorem emitTo_trd (p : Fin 32) (x : Fid) (k : BitVec 8) (w : BitVec 128) (s : State) : (emitTo p x k w s).trd = s.trd := by
  unfold emitTo; simp only; repeat' split
  all_goals simp
@[simp] theorem emitTo_fbk (p : Fin 32) (x : Fid) (k : BitVec 8) (w : BitVec 128) (s : State) : (emitTo p x k w s).fbk = s.fbk := by
  unfold emitTo; simp only; repeat' split
  all_goals simp
@[simp] theorem emitTo_cc (p : Fin 32) (x : Fid) (k : BitVec 8) (w : BitVec 128) (s : State) : (emitTo p x k w s).cc = s.cc := by
  unfold emitTo; simp only; repeat' split
  all_goals simp
@[simp] theorem emitTo_can (p : Fin 32) (x : Fid) (k : BitVec 8) (w : BitVec 128) (s : State) : (emitTo p x k w s).can = s.can := by
  unfold emitTo; simp only; repeat' split
  all_goals simp
@[simp] theorem emitTo_dsp (p : Fin 32) (x : Fid) (k : BitVec 8) (w : BitVec 128) (s : State) : (emitTo p x k w s).dsp = s.dsp := by
  unfold emitTo; simp only; repeat' split
  all_goals simp
@[simp] theorem emitTo_power (p : Fin 32) (x : Fid) (k : BitVec 8) (w : BitVec 128) (s : State) : (emitTo p x k w s).power = s.power := by
  unfold emitTo; simp only; repeat' split
  all_goals simp
@[simp] theorem emitTo_parts (p : Fin 32) (x : Fid) (k : BitVec 8) (w : BitVec 128) (s : State) : (emitTo p x k w s).parts = s.parts := by
  unfold emitTo; simp only; repeat' split
  all_goals simp
@[simp] theorem emitTo_frz (p : Fin 32) (x : Fid) (k : BitVec 8) (w : BitVec 128) (s : State) : (emitTo p x k w s).frz = s.frz := by
  unfold emitTo; simp only; repeat' split
  all_goals simp
@[simp] theorem emitTo_free (p : Fin 32) (x : Fid) (k : BitVec 8) (w : BitVec 128) (s : State) : (emitTo p x k w s).free = s.free := by
  unfold emitTo; simp only; repeat' split
  all_goals simp

/-! ### A function event: as to its partition -/
@[simp] theorem emit_pending (x : Fid) (k : BitVec 8) (w : BitVec 128) (s : State) : (emit x k w s).pending = s.pending := by
  unfold emit; split <;> simp
@[simp] theorem emit_time (x : Fid) (k : BitVec 8) (w : BitVec 128) (s : State) : (emit x k w s).time = s.time := by
  unfold emit; split <;> simp
@[simp] theorem emit_island (x : Fid) (k : BitVec 8) (w : BitVec 128) (s : State) : (emit x k w s).island = s.island := by
  unfold emit; split <;> simp
@[simp] theorem emit_store (x : Fid) (k : BitVec 8) (w : BitVec 128) (s : State) : (emit x k w s).store = s.store := by
  unfold emit; split <;> simp
@[simp] theorem emit_loader (x : Fid) (k : BitVec 8) (w : BitVec 128) (s : State) : (emit x k w s).loader = s.loader := by
  unfold emit; split <;> simp
@[simp] theorem emit_console (x : Fid) (k : BitVec 8) (w : BitVec 128) (s : State) : (emit x k w s).console = s.console := by
  unfold emit; split <;> simp
@[simp] theorem emit_tap (x : Fid) (k : BitVec 8) (w : BitVec 128) (s : State) : (emit x k w s).tap = s.tap := by
  unfold emit; split <;> simp
@[simp] theorem emit_pins (x : Fid) (k : BitVec 8) (w : BitVec 128) (s : State) : (emit x k w s).pins = s.pins := by
  unfold emit; split <;> simp
@[simp] theorem emit_pinsUp (x : Fid) (k : BitVec 8) (w : BitVec 128) (s : State) : (emit x k w s).pinsUp = s.pinsUp := by
  unfold emit; split <;> simp
@[simp] theorem emit_hstop (x : Fid) (k : BitVec 8) (w : BitVec 128) (s : State) : (emit x k w s).hstop = s.hstop := by
  unfold emit; split <;> simp
@[simp] theorem emit_hstopOn (x : Fid) (k : BitVec 8) (w : BitVec 128) (s : State) : (emit x k w s).hstopOn = s.hstopOn := by
  unfold emit; split <;> simp
@[simp] theorem emit_dispatched (x : Fid) (k : BitVec 8) (w : BitVec 128) (s : State) : (emit x k w s).dispatched = s.dispatched := by
  unfold emit; split <;> simp
@[simp] theorem emit_tsc (x : Fid) (k : BitVec 8) (w : BitVec 128) (s : State) : (emit x k w s).tsc = s.tsc := by
  unfold emit; split <;> simp
@[simp] theorem emit_scrub (x : Fid) (k : BitVec 8) (w : BitVec 128) (s : State) : (emit x k w s).scrub = s.scrub := by
  unfold emit; split <;> simp
@[simp] theorem emit_aplic (x : Fid) (k : BitVec 8) (w : BitVec 128) (s : State) : (emit x k w s).aplic = s.aplic := by
  unfold emit; split <;> simp
@[simp] theorem emit_srcLevel (x : Fid) (k : BitVec 8) (w : BitVec 128) (s : State) : (emit x k w s).srcLevel = s.srcLevel := by
  unfold emit; split <;> simp
@[simp] theorem emit_fwver (x : Fid) (k : BitVec 8) (w : BitVec 128) (s : State) : (emit x k w s).fwver = s.fwver := by
  unfold emit; split <;> simp
@[simp] theorem emit_rports (x : Fid) (k : BitVec 8) (w : BitVec 128) (s : State) : (emit x k w s).rports = s.rports := by
  unfold emit; split <;> simp
@[simp] theorem emit_clusterHeld (x : Fid) (k : BitVec 8) (w : BitVec 128) (s : State) : (emit x k w s).clusterHeld = s.clusterHeld := by
  unfold emit; split <;> simp
@[simp] theorem emit_clusterStop (x : Fid) (k : BitVec 8) (w : BitVec 128) (s : State) : (emit x k w s).clusterStop = s.clusterStop := by
  unfold emit; split <;> simp
@[simp] theorem emit_tiles (x : Fid) (k : BitVec 8) (w : BitVec 128) (s : State) : (emit x k w s).tiles = s.tiles := by
  unfold emit; split <;> simp
@[simp] theorem emit_shuttle (x : Fid) (k : BitVec 8) (w : BitVec 128) (s : State) : (emit x k w s).shuttle = s.shuttle := by
  unfold emit; split <;> simp
@[simp] theorem emit_peat (x : Fid) (k : BitVec 8) (w : BitVec 128) (s : State) : (emit x k w s).peat = s.peat := by
  unfold emit; split <;> simp
@[simp] theorem emit_lanes (x : Fid) (k : BitVec 8) (w : BitVec 128) (s : State) : (emit x k w s).lanes = s.lanes := by
  unfold emit; split <;> simp
@[simp] theorem emit_fabric (x : Fid) (k : BitVec 8) (w : BitVec 128) (s : State) : (emit x k w s).fabric = s.fabric := by
  unfold emit; split <;> simp
@[simp] theorem emit_ports (x : Fid) (k : BitVec 8) (w : BitVec 128) (s : State) : (emit x k w s).ports = s.ports := by
  unfold emit; split <;> simp
@[simp] theorem emit_loopback (x : Fid) (k : BitVec 8) (w : BitVec 128) (s : State) : (emit x k w s).loopback = s.loopback := by
  unfold emit; split <;> simp
@[simp] theorem emit_nextTid (x : Fid) (k : BitVec 8) (w : BitVec 128) (s : State) : (emit x k w s).nextTid = s.nextTid := by
  unfold emit; split <;> simp
@[simp] theorem emit_remote (x : Fid) (k : BitVec 8) (w : BitVec 128) (s : State) : (emit x k w s).remote = s.remote := by
  unfold emit; split <;> simp
@[simp] theorem emit_paceFrom (x : Fid) (k : BitVec 8) (w : BitVec 128) (s : State) : (emit x k w s).paceFrom = s.paceFrom := by
  unfold emit; split <;> simp
@[simp] theorem emit_chans (x : Fid) (k : BitVec 8) (w : BitVec 128) (s : State) : (emit x k w s).chans = s.chans := by
  unfold emit; split <;> simp
@[simp] theorem emit_axes (x : Fid) (k : BitVec 8) (w : BitVec 128) (s : State) : (emit x k w s).axes = s.axes := by
  unfold emit; split <;> simp
@[simp] theorem emit_trd (x : Fid) (k : BitVec 8) (w : BitVec 128) (s : State) : (emit x k w s).trd = s.trd := by
  unfold emit; split <;> simp
@[simp] theorem emit_fbk (x : Fid) (k : BitVec 8) (w : BitVec 128) (s : State) : (emit x k w s).fbk = s.fbk := by
  unfold emit; split <;> simp
@[simp] theorem emit_cc (x : Fid) (k : BitVec 8) (w : BitVec 128) (s : State) : (emit x k w s).cc = s.cc := by
  unfold emit; split <;> simp
@[simp] theorem emit_can (x : Fid) (k : BitVec 8) (w : BitVec 128) (s : State) : (emit x k w s).can = s.can := by
  unfold emit; split <;> simp
@[simp] theorem emit_dsp (x : Fid) (k : BitVec 8) (w : BitVec 128) (s : State) : (emit x k w s).dsp = s.dsp := by
  unfold emit; split <;> simp
@[simp] theorem emit_power (x : Fid) (k : BitVec 8) (w : BitVec 128) (s : State) : (emit x k w s).power = s.power := by
  unfold emit; split <;> simp
@[simp] theorem emit_parts (x : Fid) (k : BitVec 8) (w : BitVec 128) (s : State) : (emit x k w s).parts = s.parts := by
  unfold emit; split <;> simp
@[simp] theorem emit_frz (x : Fid) (k : BitVec 8) (w : BitVec 128) (s : State) : (emit x k w s).frz = s.frz := by
  unfold emit; split <;> simp
@[simp] theorem emit_free (x : Fid) (k : BitVec 8) (w : BitVec 128) (s : State) : (emit x k w s).free = s.free := by
  unfold emit; split <;> simp

/-! ### The ways a command ends -/
/-- Where no reload has reopened a region entry, a command that reaches memory ends with its effect, settled (R91). -/
theorem doneFrom_next {s : State} (h : s.rat.reopened = none) (t : State) : doneFrom s t = .next (settle t) := by
  simp [doneFrom, h, done]
/-- Every command that reaches memory answers a next state: its effect settled, or the state as it was (R91). -/
theorem doneFrom_cases (s t : State) : doneFrom s t = .next (settle t) ∨ doneFrom s t = .next s := by
  unfold doneFrom done; split <;> simp
/-- A command whose event comes about ends with its effect, settled, where no reload holds its accesses. -/
theorem doneIf_pos {c : Bool} (h : c = true) {s : State} (hr : s.rat.reopened = none) (f : State → State) :
    doneIf c s f = .next (settle (f s)) := by
  simp [doneIf, h, doneFrom_next hr]
/-- A command whose event cannot come about changes nothing (log 23). -/
theorem doneIf_neg {c : Bool} (h : c = false) (s : State) (f : State → State) : doneIf c s f = .next s := by
  simp [doneIf, h]
/-- Every command that ends through doneIf answers a next state: its effect settled, or the state as it was. -/
theorem doneIf_cases (c : Bool) (s : State) (f : State → State) :
    doneIf c s f = .next (settle (f s)) ∨ doneIf c s f = .next s := by
  cases c
  · exact .inr rfl
  · exact doneFrom_cases s (f s)

/-! ### Events are never held (R91, R138) -/
/-- A record whose ring no reload holds does not make its command wait. -/
theorem writeRecord_waits (n : Fin 64) (r : EvRec) (irq : Bool) (s : State)
    (h : ∀ p, queuePart s n = some p →
      ratHeld s p ((vget s.queues n).cqbase.toNat * 4096 + 32 * (vget s.queues n).cqtail.toNat) 32 = false) :
    (writeRecord n r irq s).rat.waits = s.rat.waits := by
  unfold writeRecord
  split
  · rfl
  · rename_i p hp
    simp only [h p hp, Bool.false_eq_true, ↓reduceIte]
    split
    · simp [accessError]
    · split
      · simp [poisonHit]
      · split <;> simp
@[simp] theorem emitTo_waits (p : Fin 32) (x : Fid) (k : BitVec 8) (w : BitVec 128) (s : State) :
    (emitTo p x k w s).rat.waits = s.rat.waits := by
  unfold emitTo
  dsimp only
  split
  · rename_i n hn
    split at hn
    · rename_i m hm
      split at hn
      · rename_i hc
        obtain rfl := Option.some.inj hn
        refine writeRecord_waits _ _ _ _ fun q hq => ?_
        have hp : queuePart s m = some p := by
          have := List.find?_some hm
          simp only [Bool.and_eq_true, decide_eq_true_eq] at this
          exact this.2
        obtain rfl := Option.some.inj (hp.symm.trans hq)
        simp only [streamOpen, Bool.and_eq_true, Bool.not_eq_true'] at hc
        exact hc.2.2
      · cases hn
    · cases hn
  · split <;> rfl
/-- An event never makes its command wait. -/
@[simp] theorem emit_waits (x : Fid) (k : BitVec 8) (w : BitVec 128) (s : State) : (emit x k w s).rat.waits = s.rat.waits := by
  unfold emit; split <;> simp
/-- A command none of whose accesses is held ends with its effect, settled, whatever is under reload. -/
theorem doneFrom_free {s t : State} (h : t.rat.waits = s.rat.waits) : doneFrom s t = .next (settle t) := by
  unfold doneFrom done; rw [h]; cases s.rat.waits <;> simp

end Sys2Proof.Machine
end

