-- ==== Sys2Proof/Laws/Faults.lean ====
section
/-! SUPPORT. What faults, fences and axis states leave alone: the parts of the state that no reaction of Table 17.2 reaches. -/
namespace Sys2Proof.Machine

/-- A fold keeps what each of its steps keeps. -/
theorem foldl_keep {α β : Type} (get : State → β) (g : State → α → State) (h : ∀ s a, get (g s a) = get s) :
    ∀ (l : List α) (s : State), get (l.foldl g s) = get s := by
  intro l
  induction l with
  | nil => intro s; rfl
  | cons a l ih => intro s; rw [List.foldl_cons, ih, h]

/-! ### An engine that runs no axis rejoins the common grid -/
@[simp] theorem rephase_pending (e : Fin 8) (s : State) : (rephase e s).pending = s.pending := by
  unfold rephase; split
  · rfl
  · exact foldl_keep (·.pending) _ (by intros; simp) _ _
@[simp] theorem rephase_time (e : Fin 8) (s : State) : (rephase e s).time = s.time := by
  unfold rephase; split
  · rfl
  · exact foldl_keep (·.time) _ (by intros; simp) _ _
@[simp] theorem rephase_island (e : Fin 8) (s : State) : (rephase e s).island = s.island := by
  unfold rephase; split
  · rfl
  · exact foldl_keep (·.island) _ (by intros; simp) _ _
@[simp] theorem rephase_store (e : Fin 8) (s : State) : (rephase e s).store = s.store := by
  unfold rephase; split
  · rfl
  · exact foldl_keep (·.store) _ (by intros; simp) _ _
@[simp] theorem rephase_loader (e : Fin 8) (s : State) : (rephase e s).loader = s.loader := by
  unfold rephase; split
  · rfl
  · exact foldl_keep (·.loader) _ (by intros; simp) _ _
@[simp] theorem rephase_console (e : Fin 8) (s : State) : (rephase e s).console = s.console := by
  unfold rephase; split
  · rfl
  · exact foldl_keep (·.console) _ (by intros; simp) _ _
@[simp] theorem rephase_tap (e : Fin 8) (s : State) : (rephase e s).tap = s.tap := by
  unfold rephase; split
  · rfl
  · exact foldl_keep (·.tap) _ (by intros; simp) _ _
@[simp] theorem rephase_pins (e : Fin 8) (s : State) : (rephase e s).pins = s.pins := by
  unfold rephase; split
  · rfl
  · exact foldl_keep (·.pins) _ (by intros; simp) _ _
@[simp] theorem rephase_pinsUp (e : Fin 8) (s : State) : (rephase e s).pinsUp = s.pinsUp := by
  unfold rephase; split
  · rfl
  · exact foldl_keep (·.pinsUp) _ (by intros; simp) _ _
@[simp] theorem rephase_hstop (e : Fin 8) (s : State) : (rephase e s).hstop = s.hstop := by
  unfold rephase; split
  · rfl
  · exact foldl_keep (·.hstop) _ (by intros; simp) _ _
@[simp] theorem rephase_hstopOn (e : Fin 8) (s : State) : (rephase e s).hstopOn = s.hstopOn := by
  unfold rephase; split
  · rfl
  · exact foldl_keep (·.hstopOn) _ (by intros; simp) _ _
@[simp] theorem rephase_dispatched (e : Fin 8) (s : State) : (rephase e s).dispatched = s.dispatched := by
  unfold rephase; split
  · rfl
  · exact foldl_keep (·.dispatched) _ (by intros; simp) _ _
@[simp] theorem rephase_tsc (e : Fin 8) (s : State) : (rephase e s).tsc = s.tsc := by
  unfold rephase; split
  · rfl
  · exact foldl_keep (·.tsc) _ (by intros; simp) _ _
@[simp] theorem rephase_mem (e : Fin 8) (s : State) : (rephase e s).mem = s.mem := by
  unfold rephase; split
  · rfl
  · exact foldl_keep (·.mem) _ (by intros; simp) _ _
@[simp] theorem rephase_poison (e : Fin 8) (s : State) : (rephase e s).poison = s.poison := by
  unfold rephase; split
  · rfl
  · exact foldl_keep (·.poison) _ (by intros; simp) _ _
@[simp] theorem rephase_scrub (e : Fin 8) (s : State) : (rephase e s).scrub = s.scrub := by
  unfold rephase; split
  · rfl
  · exact foldl_keep (·.scrub) _ (by intros; simp) _ _
@[simp] theorem rephase_rat (e : Fin 8) (s : State) : (rephase e s).rat = s.rat := by
  unfold rephase; split
  · rfl
  · exact foldl_keep (·.rat) _ (by intros; simp) _ _
@[simp] theorem rephase_cores (e : Fin 8) (s : State) : (rephase e s).cores = s.cores := by
  unfold rephase; split
  · rfl
  · exact foldl_keep (·.cores) _ (by intros; simp) _ _
@[simp] theorem rephase_aplic (e : Fin 8) (s : State) : (rephase e s).aplic = s.aplic := by
  unfold rephase; split
  · rfl
  · exact foldl_keep (·.aplic) _ (by intros; simp) _ _
@[simp] theorem rephase_srcLevel (e : Fin 8) (s : State) : (rephase e s).srcLevel = s.srcLevel := by
  unfold rephase; split
  · rfl
  · exact foldl_keep (·.srcLevel) _ (by intros; simp) _ _
@[simp] theorem rephase_queues (e : Fin 8) (s : State) : (rephase e s).queues = s.queues := by
  unfold rephase; split
  · rfl
  · exact foldl_keep (·.queues) _ (by intros; simp) _ _
@[simp] theorem rephase_evbuf (e : Fin 8) (s : State) : (rephase e s).evbuf = s.evbuf := by
  unfold rephase; split
  · rfl
  · exact foldl_keep (·.evbuf) _ (by intros; simp) _ _
@[simp] theorem rephase_fwver (e : Fin 8) (s : State) : (rephase e s).fwver = s.fwver := by
  unfold rephase; split
  · rfl
  · exact foldl_keep (·.fwver) _ (by intros; simp) _ _
@[simp] theorem rephase_rports (e : Fin 8) (s : State) : (rephase e s).rports = s.rports := by
  unfold rephase; split
  · rfl
  · exact foldl_keep (·.rports) _ (by intros; simp) _ _
@[simp] theorem rephase_clusterHeld (e : Fin 8) (s : State) : (rephase e s).clusterHeld = s.clusterHeld := by
  unfold rephase; split
  · rfl
  · exact foldl_keep (·.clusterHeld) _ (by intros; simp) _ _
@[simp] theorem rephase_clusterStop (e : Fin 8) (s : State) : (rephase e s).clusterStop = s.clusterStop := by
  unfold rephase; split
  · rfl
  · exact foldl_keep (·.clusterStop) _ (by intros; simp) _ _
@[simp] theorem rephase_tiles (e : Fin 8) (s : State) : (rephase e s).tiles = s.tiles := by
  unfold rephase; split
  · rfl
  · exact foldl_keep (·.tiles) _ (by intros; simp) _ _
@[simp] theorem rephase_shuttle (e : Fin 8) (s : State) : (rephase e s).shuttle = s.shuttle := by
  unfold rephase; split
  · rfl
  · exact foldl_keep (·.shuttle) _ (by intros; simp) _ _
@[simp] theorem rephase_peat (e : Fin 8) (s : State) : (rephase e s).peat = s.peat := by
  unfold rephase; split
  · rfl
  · exact foldl_keep (·.peat) _ (by intros; simp) _ _
@[simp] theorem rephase_lanes (e : Fin 8) (s : State) : (rephase e s).lanes = s.lanes := by
  unfold rephase; split
  · rfl
  · exact foldl_keep (·.lanes) _ (by intros; simp) _ _
@[simp] theorem rephase_fabric (e : Fin 8) (s : State) : (rephase e s).fabric = s.fabric := by
  unfold rephase; split
  · rfl
  · exact foldl_keep (·.fabric) _ (by intros; simp) _ _
@[simp] theorem rephase_ports (e : Fin 8) (s : State) : (rephase e s).ports = s.ports := by
  unfold rephase; split
  · rfl
  · exact foldl_keep (·.ports) _ (by intros; simp) _ _
@[simp] theorem rephase_loopback (e : Fin 8) (s : State) : (rephase e s).loopback = s.loopback := by
  unfold rephase; split
  · rfl
  · exact foldl_keep (·.loopback) _ (by intros; simp) _ _
@[simp] theorem rephase_nextTid (e : Fin 8) (s : State) : (rephase e s).nextTid = s.nextTid := by
  unfold rephase; split
  · rfl
  · exact foldl_keep (·.nextTid) _ (by intros; simp) _ _
@[simp] theorem rephase_remote (e : Fin 8) (s : State) : (rephase e s).remote = s.remote := by
  unfold rephase; split
  · rfl
  · exact foldl_keep (·.remote) _ (by intros; simp) _ _
@[simp] theorem rephase_paceFrom (e : Fin 8) (s : State) : (rephase e s).paceFrom = s.paceFrom := by
  unfold rephase; split
  · rfl
  · exact foldl_keep (·.paceFrom) _ (by intros; simp) _ _
@[simp] theorem rephase_chans (e : Fin 8) (s : State) : (rephase e s).chans = s.chans := by
  unfold rephase; split
  · rfl
  · exact foldl_keep (·.chans) _ (by intros; simp) _ _
@[simp] theorem rephase_trd (e : Fin 8) (s : State) : (rephase e s).trd = s.trd := by
  unfold rephase; split
  · rfl
  · exact foldl_keep (·.trd) _ (by intros; simp) _ _
@[simp] theorem rephase_fbk (e : Fin 8) (s : State) : (rephase e s).fbk = s.fbk := by
  unfold rephase; split
  · rfl
  · exact foldl_keep (·.fbk) _ (by intros; simp) _ _
@[simp] theorem rephase_cc (e : Fin 8) (s : State) : (rephase e s).cc = s.cc := by
  unfold rephase; split
  · rfl
  · exact foldl_keep (·.cc) _ (by intros; simp) _ _
@[simp] theorem rephase_can (e : Fin 8) (s : State) : (rephase e s).can = s.can := by
  unfold rephase; split
  · rfl
  · exact foldl_keep (·.can) _ (by intros; simp) _ _
@[simp] theorem rephase_dsp (e : Fin 8) (s : State) : (rephase e s).dsp = s.dsp := by
  unfold rephase; split
  · rfl
  · exact foldl_keep (·.dsp) _ (by intros; simp) _ _
@[simp] theorem rephase_power (e : Fin 8) (s : State) : (rephase e s).power = s.power := by
  unfold rephase; split
  · rfl
  · exact foldl_keep (·.power) _ (by intros; simp) _ _
@[simp] theorem rephase_flt (e : Fin 8) (s : State) : (rephase e s).flt = s.flt := by
  unfold rephase; split
  · rfl
  · exact foldl_keep (·.flt) _ (by intros; simp) _ _
@[simp] theorem rephase_parts (e : Fin 8) (s : State) : (rephase e s).parts = s.parts := by
  unfold rephase; split
  · rfl
  · exact foldl_keep (·.parts) _ (by intros; simp) _ _
@[simp] theorem rephase_frz (e : Fin 8) (s : State) : (rephase e s).frz = s.frz := by
  unfold rephase; split
  · rfl
  · exact foldl_keep (·.frz) _ (by intros; simp) _ _
@[simp] theorem rephase_free (e : Fin 8) (s : State) : (rephase e s).free = s.free := by
  unfold rephase; split
  · rfl
  · exact foldl_keep (·.free) _ (by intros; simp) _ _

/-! ### An axis changes its state -/
@[simp] theorem axisTo_pending (a : Fin 32) (n : AxState) (c r p : Nat) (s : State) : (axisTo a n c r p s).pending = s.pending := by
  unfold axisTo; simp only []; repeat' split
  all_goals simp
@[simp] theorem axisTo_time (a : Fin 32) (n : AxState) (c r p : Nat) (s : State) : (axisTo a n c r p s).time = s.time := by
  unfold axisTo; simp only []; repeat' split
  all_goals simp
@[simp] theorem axisTo_island (a : Fin 32) (n : AxState) (c r p : Nat) (s : State) : (axisTo a n c r p s).island = s.island := by
  unfold axisTo; simp only []; repeat' split
  all_goals simp
@[simp] theorem axisTo_store (a : Fin 32) (n : AxState) (c r p : Nat) (s : State) : (axisTo a n c r p s).store = s.store := by
  unfold axisTo; simp only []; repeat' split
  all_goals simp
@[simp] theorem axisTo_loader (a : Fin 32) (n : AxState) (c r p : Nat) (s : State) : (axisTo a n c r p s).loader = s.loader := by
  unfold axisTo; simp only []; repeat' split
  all_goals simp
@[simp] theorem axisTo_tap (a : Fin 32) (n : AxState) (c r p : Nat) (s : State) : (axisTo a n c r p s).tap = s.tap := by
  unfold axisTo; simp only []; repeat' split
  all_goals simp
@[simp] theorem axisTo_pins (a : Fin 32) (n : AxState) (c r p : Nat) (s : State) : (axisTo a n c r p s).pins = s.pins := by
  unfold axisTo; simp only []; repeat' split
  all_goals simp
@[simp] theorem axisTo_pinsUp (a : Fin 32) (n : AxState) (c r p : Nat) (s : State) : (axisTo a n c r p s).pinsUp = s.pinsUp := by
  unfold axisTo; simp only []; repeat' split
  all_goals simp
@[simp] theorem axisTo_hstop (a : Fin 32) (n : AxState) (c r p : Nat) (s : State) : (axisTo a n c r p s).hstop = s.hstop := by
  unfold axisTo; simp only []; repeat' split
  all_goals simp
@[simp] theorem axisTo_hstopOn (a : Fin 32) (n : AxState) (c r p : Nat) (s : State) : (axisTo a n c r p s).hstopOn = s.hstopOn := by
  unfold axisTo; simp only []; repeat' split
  all_goals simp
@[simp] theorem axisTo_dispatched (a : Fin 32) (n : AxState) (c r p : Nat) (s : State) : (axisTo a n c r p s).dispatched = s.dispatched := by
  unfold axisTo; simp only []; repeat' split
  all_goals simp
@[simp] theorem axisTo_tsc (a : Fin 32) (n : AxState) (c r p : Nat) (s : State) : (axisTo a n c r p s).tsc = s.tsc := by
  unfold axisTo; simp only []; repeat' split
  all_goals simp
@[simp] theorem axisTo_scrub (a : Fin 32) (n : AxState) (c r p : Nat) (s : State) : (axisTo a n c r p s).scrub = s.scrub := by
  unfold axisTo; simp only []; repeat' split
  all_goals simp
@[simp] theorem axisTo_aplic (a : Fin 32) (n : AxState) (c r p : Nat) (s : State) : (axisTo a n c r p s).aplic = s.aplic := by
  unfold axisTo; simp only []; repeat' split
  all_goals simp
@[simp] theorem axisTo_srcLevel (a : Fin 32) (n : AxState) (c r p : Nat) (s : State) : (axisTo a n c r p s).srcLevel = s.srcLevel := by
  unfold axisTo; simp only []; repeat' split
  all_goals simp
@[simp] theorem axisTo_fwver (a : Fin 32) (n : AxState) (c r p : Nat) (s : State) : (axisTo a n c r p s).fwver = s.fwver := by
  unfold axisTo; simp only []; repeat' split
  all_goals simp
@[simp] theorem axisTo_rports (a : Fin 32) (n : AxState) (c r p : Nat) (s : State) : (axisTo a n c r p s).rports = s.rports := by
  unfold axisTo; simp only []; repeat' split
  all_goals simp
@[simp] theorem axisTo_clusterHeld (a : Fin 32) (n : AxState) (c r p : Nat) (s : State) : (axisTo a n c r p s).clusterHeld = s.clusterHeld := by
  unfold axisTo; simp only []; repeat' split
  all_goals simp
@[simp] theorem axisTo_clusterStop (a : Fin 32) (n : AxState) (c r p : Nat) (s : State) : (axisTo a n c r p s).clusterStop = s.clusterStop := by
  unfold axisTo; simp only []; repeat' split
  all_goals simp
@[simp] theorem axisTo_tiles (a : Fin 32) (n : AxState) (c r p : Nat) (s : State) : (axisTo a n c r p s).tiles = s.tiles := by
  unfold axisTo; simp only []; repeat' split
  all_goals simp
@[simp] theorem axisTo_shuttle (a : Fin 32) (n : AxState) (c r p : Nat) (s : State) : (axisTo a n c r p s).shuttle = s.shuttle := by
  unfold axisTo; simp only []; repeat' split
  all_goals simp
@[simp] theorem axisTo_peat (a : Fin 32) (n : AxState) (c r p : Nat) (s : State) : (axisTo a n c r p s).peat = s.peat := by
  unfold axisTo; simp only []; repeat' split
  all_goals simp
@[simp] theorem axisTo_lanes (a : Fin 32) (n : AxState) (c r p : Nat) (s : State) : (axisTo a n c r p s).lanes = s.lanes := by
  unfold axisTo; simp only []; repeat' split
  all_goals simp
@[simp] theorem axisTo_fabric (a : Fin 32) (n : AxState) (c r p : Nat) (s : State) : (axisTo a n c r p s).fabric = s.fabric := by
  unfold axisTo; simp only []; repeat' split
  all_goals simp
@[simp] theorem axisTo_ports (a : Fin 32) (n : AxState) (c r p : Nat) (s : State) : (axisTo a n c r p s).ports = s.ports := by
  unfold axisTo; simp only []; repeat' split
  all_goals simp
@[simp] theorem axisTo_loopback (a : Fin 32) (n : AxState) (c r p : Nat) (s : State) : (axisTo a n c r p s).loopback = s.loopback := by
  unfold axisTo; simp only []; repeat' split
  all_goals simp
@[simp] theorem axisTo_nextTid (a : Fin 32) (n : AxState) (c r p : Nat) (s : State) : (axisTo a n c r p s).nextTid = s.nextTid := by
  unfold axisTo; simp only []; repeat' split
  all_goals simp
@[simp] theorem axisTo_remote (a : Fin 32) (n : AxState) (c r p : Nat) (s : State) : (axisTo a n c r p s).remote = s.remote := by
  unfold axisTo; simp only []; repeat' split
  all_goals simp
@[simp] theorem axisTo_paceFrom (a : Fin 32) (n : AxState) (c r p : Nat) (s : State) : (axisTo a n c r p s).paceFrom = s.paceFrom := by
  unfold axisTo; simp only []; repeat' split
  all_goals simp
@[simp] theorem axisTo_chans (a : Fin 32) (n : AxState) (c r p : Nat) (s : State) : (axisTo a n c r p s).chans = s.chans := by
  unfold axisTo; simp only []; repeat' split
  all_goals simp
@[simp] theorem axisTo_trd (a : Fin 32) (n : AxState) (c r p : Nat) (s : State) : (axisTo a n c r p s).trd = s.trd := by
  unfold axisTo; simp only []; repeat' split
  all_goals simp
@[simp] theorem axisTo_fbk (a : Fin 32) (n : AxState) (c r p : Nat) (s : State) : (axisTo a n c r p s).fbk = s.fbk := by
  unfold axisTo; simp only []; repeat' split
  all_goals simp
@[simp] theorem axisTo_cc (a : Fin 32) (n : AxState) (c r p : Nat) (s : State) : (axisTo a n c r p s).cc = s.cc := by
  unfold axisTo; simp only []; repeat' split
  all_goals simp
@[simp] theorem axisTo_can (a : Fin 32) (n : AxState) (c r p : Nat) (s : State) : (axisTo a n c r p s).can = s.can := by
  unfold axisTo; simp only []; repeat' split
  all_goals simp
@[simp] theorem axisTo_dsp (a : Fin 32) (n : AxState) (c r p : Nat) (s : State) : (axisTo a n c r p s).dsp = s.dsp := by
  unfold axisTo; simp only []; repeat' split
  all_goals simp
@[simp] theorem axisTo_power (a : Fin 32) (n : AxState) (c r p : Nat) (s : State) : (axisTo a n c r p s).power = s.power := by
  unfold axisTo; simp only []; repeat' split
  all_goals simp
@[simp] theorem axisTo_parts (a : Fin 32) (n : AxState) (c r p : Nat) (s : State) : (axisTo a n c r p s).parts = s.parts := by
  unfold axisTo; simp only []; repeat' split
  all_goals simp
@[simp] theorem axisTo_frz (a : Fin 32) (n : AxState) (c r p : Nat) (s : State) : (axisTo a n c r p s).frz = s.frz := by
  unfold axisTo; simp only []; repeat' split
  all_goals simp
@[simp] theorem axisTo_free (a : Fin 32) (n : AxState) (c r p : Nat) (s : State) : (axisTo a n c r p s).free = s.free := by
  unfold axisTo; simp only []; repeat' split
  all_goals simp

/-! ### An axis is made safe -/
@[simp] theorem safeAxis_pending (a : Fin 32) (s : State) : (safeAxis a s).pending = s.pending := by
  unfold safeAxis; split <;> simp
@[simp] theorem safeAxis_time (a : Fin 32) (s : State) : (safeAxis a s).time = s.time := by
  unfold safeAxis; split <;> simp
@[simp] theorem safeAxis_island (a : Fin 32) (s : State) : (safeAxis a s).island = s.island := by
  unfold safeAxis; split <;> simp
@[simp] theorem safeAxis_store (a : Fin 32) (s : State) : (safeAxis a s).store = s.store := by
  unfold safeAxis; split <;> simp
@[simp] theorem safeAxis_loader (a : Fin 32) (s : State) : (safeAxis a s).loader = s.loader := by
  unfold safeAxis; split <;> simp
@[simp] theorem safeAxis_tap (a : Fin 32) (s : State) : (safeAxis a s).tap = s.tap := by
  unfold safeAxis; split <;> simp
@[simp] theorem safeAxis_pins (a : Fin 32) (s : State) : (safeAxis a s).pins = s.pins := by
  unfold safeAxis; split <;> simp
@[simp] theorem safeAxis_pinsUp (a : Fin 32) (s : State) : (safeAxis a s).pinsUp = s.pinsUp := by
  unfold safeAxis; split <;> simp
@[simp] theorem safeAxis_hstop (a : Fin 32) (s : State) : (safeAxis a s).hstop = s.hstop := by
  unfold safeAxis; split <;> simp
@[simp] theorem safeAxis_hstopOn (a : Fin 32) (s : State) : (safeAxis a s).hstopOn = s.hstopOn := by
  unfold safeAxis; split <;> simp
@[simp] theorem safeAxis_dispatched (a : Fin 32) (s : State) : (safeAxis a s).dispatched = s.dispatched := by
  unfold safeAxis; split <;> simp
@[simp] theorem safeAxis_tsc (a : Fin 32) (s : State) : (safeAxis a s).tsc = s.tsc := by
  unfold safeAxis; split <;> simp
@[simp] theorem safeAxis_scrub (a : Fin 32) (s : State) : (safeAxis a s).scrub = s.scrub := by
  unfold safeAxis; split <;> simp
@[simp] theorem safeAxis_aplic (a : Fin 32) (s : State) : (safeAxis a s).aplic = s.aplic := by
  unfold safeAxis; split <;> simp
@[simp] theorem safeAxis_srcLevel (a : Fin 32) (s : State) : (safeAxis a s).srcLevel = s.srcLevel := by
  unfold safeAxis; split <;> simp
@[simp] theorem safeAxis_fwver (a : Fin 32) (s : State) : (safeAxis a s).fwver = s.fwver := by
  unfold safeAxis; split <;> simp
@[simp] theorem safeAxis_rports (a : Fin 32) (s : State) : (safeAxis a s).rports = s.rports := by
  unfold safeAxis; split <;> simp
@[simp] theorem safeAxis_clusterHeld (a : Fin 32) (s : State) : (safeAxis a s).clusterHeld = s.clusterHeld := by
  unfold safeAxis; split <;> simp
@[simp] theorem safeAxis_clusterStop (a : Fin 32) (s : State) : (safeAxis a s).clusterStop = s.clusterStop := by
  unfold safeAxis; split <;> simp
@[simp] theorem safeAxis_tiles (a : Fin 32) (s : State) : (safeAxis a s).tiles = s.tiles := by
  unfold safeAxis; split <;> simp
@[simp] theorem safeAxis_shuttle (a : Fin 32) (s : State) : (safeAxis a s).shuttle = s.shuttle := by
  unfold safeAxis; split <;> simp
@[simp] theorem safeAxis_peat (a : Fin 32) (s : State) : (safeAxis a s).peat = s.peat := by
  unfold safeAxis; split <;> simp
@[simp] theorem safeAxis_lanes (a : Fin 32) (s : State) : (safeAxis a s).lanes = s.lanes := by
  unfold safeAxis; split <;> simp
@[simp] theorem safeAxis_fabric (a : Fin 32) (s : State) : (safeAxis a s).fabric = s.fabric := by
  unfold safeAxis; split <;> simp
@[simp] theorem safeAxis_ports (a : Fin 32) (s : State) : (safeAxis a s).ports = s.ports := by
  unfold safeAxis; split <;> simp
@[simp] theorem safeAxis_loopback (a : Fin 32) (s : State) : (safeAxis a s).loopback = s.loopback := by
  unfold safeAxis; split <;> simp
@[simp] theorem safeAxis_nextTid (a : Fin 32) (s : State) : (safeAxis a s).nextTid = s.nextTid := by
  unfold safeAxis; split <;> simp
@[simp] theorem safeAxis_remote (a : Fin 32) (s : State) : (safeAxis a s).remote = s.remote := by
  unfold safeAxis; split <;> simp
@[simp] theorem safeAxis_paceFrom (a : Fin 32) (s : State) : (safeAxis a s).paceFrom = s.paceFrom := by
  unfold safeAxis; split <;> simp
@[simp] theorem safeAxis_chans (a : Fin 32) (s : State) : (safeAxis a s).chans = s.chans := by
  unfold safeAxis; split <;> simp
@[simp] theorem safeAxis_trd (a : Fin 32) (s : State) : (safeAxis a s).trd = s.trd := by
  unfold safeAxis; split <;> simp
@[simp] theorem safeAxis_fbk (a : Fin 32) (s : State) : (safeAxis a s).fbk = s.fbk := by
  unfold safeAxis; split <;> simp
@[simp] theorem safeAxis_cc (a : Fin 32) (s : State) : (safeAxis a s).cc = s.cc := by
  unfold safeAxis; split <;> simp
@[simp] theorem safeAxis_can (a : Fin 32) (s : State) : (safeAxis a s).can = s.can := by
  unfold safeAxis; split <;> simp
@[simp] theorem safeAxis_dsp (a : Fin 32) (s : State) : (safeAxis a s).dsp = s.dsp := by
  unfold safeAxis; split <;> simp
@[simp] theorem safeAxis_power (a : Fin 32) (s : State) : (safeAxis a s).power = s.power := by
  unfold safeAxis; split <;> simp
@[simp] theorem safeAxis_parts (a : Fin 32) (s : State) : (safeAxis a s).parts = s.parts := by
  unfold safeAxis; split <;> simp
@[simp] theorem safeAxis_frz (a : Fin 32) (s : State) : (safeAxis a s).frz = s.frz := by
  unfold safeAxis; split <;> simp
@[simp] theorem safeAxis_free (a : Fin 32) (s : State) : (safeAxis a s).free = s.free := by
  unfold safeAxis; split <;> simp

/-! ### Commands and work that stop -/
@[simp] theorem mapDisp_pending (g : Fin 64 → Cmd → Cmd) (s : State) : (s.mapDisp g).pending = s.pending := by unfold State.mapDisp; rfl
@[simp] theorem mapDisp_time (g : Fin 64 → Cmd → Cmd) (s : State) : (s.mapDisp g).time = s.time := by unfold State.mapDisp; rfl
@[simp] theorem mapDisp_island (g : Fin 64 → Cmd → Cmd) (s : State) : (s.mapDisp g).island = s.island := by unfold State.mapDisp; rfl
@[simp] theorem mapDisp_store (g : Fin 64 → Cmd → Cmd) (s : State) : (s.mapDisp g).store = s.store := by unfold State.mapDisp; rfl
@[simp] theorem mapDisp_loader (g : Fin 64 → Cmd → Cmd) (s : State) : (s.mapDisp g).loader = s.loader := by unfold State.mapDisp; rfl
@[simp] theorem mapDisp_console (g : Fin 64 → Cmd → Cmd) (s : State) : (s.mapDisp g).console = s.console := by unfold State.mapDisp; rfl
@[simp] theorem mapDisp_tap (g : Fin 64 → Cmd → Cmd) (s : State) : (s.mapDisp g).tap = s.tap := by unfold State.mapDisp; rfl
@[simp] theorem mapDisp_pins (g : Fin 64 → Cmd → Cmd) (s : State) : (s.mapDisp g).pins = s.pins := by unfold State.mapDisp; rfl
@[simp] theorem mapDisp_pinsUp (g : Fin 64 → Cmd → Cmd) (s : State) : (s.mapDisp g).pinsUp = s.pinsUp := by unfold State.mapDisp; rfl
@[simp] theorem mapDisp_hstop (g : Fin 64 → Cmd → Cmd) (s : State) : (s.mapDisp g).hstop = s.hstop := by unfold State.mapDisp; rfl
@[simp] theorem mapDisp_hstopOn (g : Fin 64 → Cmd → Cmd) (s : State) : (s.mapDisp g).hstopOn = s.hstopOn := by unfold State.mapDisp; rfl
@[simp] theorem mapDisp_dispatched (g : Fin 64 → Cmd → Cmd) (s : State) : (s.mapDisp g).dispatched = s.dispatched := by unfold State.mapDisp; rfl
@[simp] theorem mapDisp_tsc (g : Fin 64 → Cmd → Cmd) (s : State) : (s.mapDisp g).tsc = s.tsc := by unfold State.mapDisp; rfl
@[simp] theorem mapDisp_mem (g : Fin 64 → Cmd → Cmd) (s : State) : (s.mapDisp g).mem = s.mem := by unfold State.mapDisp; rfl
@[simp] theorem mapDisp_poison (g : Fin 64 → Cmd → Cmd) (s : State) : (s.mapDisp g).poison = s.poison := by unfold State.mapDisp; rfl
@[simp] theorem mapDisp_scrub (g : Fin 64 → Cmd → Cmd) (s : State) : (s.mapDisp g).scrub = s.scrub := by unfold State.mapDisp; rfl
@[simp] theorem mapDisp_rat (g : Fin 64 → Cmd → Cmd) (s : State) : (s.mapDisp g).rat = s.rat := by unfold State.mapDisp; rfl
@[simp] theorem mapDisp_cores (g : Fin 64 → Cmd → Cmd) (s : State) : (s.mapDisp g).cores = s.cores := by unfold State.mapDisp; rfl
@[simp] theorem mapDisp_aplic (g : Fin 64 → Cmd → Cmd) (s : State) : (s.mapDisp g).aplic = s.aplic := by unfold State.mapDisp; rfl
@[simp] theorem mapDisp_srcLevel (g : Fin 64 → Cmd → Cmd) (s : State) : (s.mapDisp g).srcLevel = s.srcLevel := by unfold State.mapDisp; rfl
@[simp] theorem mapDisp_evbuf (g : Fin 64 → Cmd → Cmd) (s : State) : (s.mapDisp g).evbuf = s.evbuf := by unfold State.mapDisp; rfl
@[simp] theorem mapDisp_fwver (g : Fin 64 → Cmd → Cmd) (s : State) : (s.mapDisp g).fwver = s.fwver := by unfold State.mapDisp; rfl
@[simp] theorem mapDisp_rports (g : Fin 64 → Cmd → Cmd) (s : State) : (s.mapDisp g).rports = s.rports := by unfold State.mapDisp; rfl
@[simp] theorem mapDisp_clusterHeld (g : Fin 64 → Cmd → Cmd) (s : State) : (s.mapDisp g).clusterHeld = s.clusterHeld := by unfold State.mapDisp; rfl
@[simp] theorem mapDisp_clusterStop (g : Fin 64 → Cmd → Cmd) (s : State) : (s.mapDisp g).clusterStop = s.clusterStop := by unfold State.mapDisp; rfl
@[simp] theorem mapDisp_tiles (g : Fin 64 → Cmd → Cmd) (s : State) : (s.mapDisp g).tiles = s.tiles := by unfold State.mapDisp; rfl
@[simp] theorem mapDisp_shuttle (g : Fin 64 → Cmd → Cmd) (s : State) : (s.mapDisp g).shuttle = s.shuttle := by unfold State.mapDisp; rfl
@[simp] theorem mapDisp_peat (g : Fin 64 → Cmd → Cmd) (s : State) : (s.mapDisp g).peat = s.peat := by unfold State.mapDisp; rfl
@[simp] theorem mapDisp_lanes (g : Fin 64 → Cmd → Cmd) (s : State) : (s.mapDisp g).lanes = s.lanes := by unfold State.mapDisp; rfl
@[simp] theorem mapDisp_fabric (g : Fin 64 → Cmd → Cmd) (s : State) : (s.mapDisp g).fabric = s.fabric := by unfold State.mapDisp; rfl
@[simp] theorem mapDisp_ports (g : Fin 64 → Cmd → Cmd) (s : State) : (s.mapDisp g).ports = s.ports := by unfold State.mapDisp; rfl
@[simp] theorem mapDisp_loopback (g : Fin 64 → Cmd → Cmd) (s : State) : (s.mapDisp g).loopback = s.loopback := by unfold State.mapDisp; rfl
@[simp] theorem mapDisp_nextTid (g : Fin 64 → Cmd → Cmd) (s : State) : (s.mapDisp g).nextTid = s.nextTid := by unfold State.mapDisp; rfl
@[simp] theorem mapDisp_remote (g : Fin 64 → Cmd → Cmd) (s : State) : (s.mapDisp g).remote = s.remote := by unfold State.mapDisp; rfl
@[simp] theorem mapDisp_paceFrom (g : Fin 64 → Cmd → Cmd) (s : State) : (s.mapDisp g).paceFrom = s.paceFrom := by unfold State.mapDisp; rfl
@[simp] theorem mapDisp_chans (g : Fin 64 → Cmd → Cmd) (s : State) : (s.mapDisp g).chans = s.chans := by unfold State.mapDisp; rfl
@[simp] theorem mapDisp_axes (g : Fin 64 → Cmd → Cmd) (s : State) : (s.mapDisp g).axes = s.axes := by unfold State.mapDisp; rfl
@[simp] theorem mapDisp_trd (g : Fin 64 → Cmd → Cmd) (s : State) : (s.mapDisp g).trd = s.trd := by unfold State.mapDisp; rfl
@[simp] theorem mapDisp_fbk (g : Fin 64 → Cmd → Cmd) (s : State) : (s.mapDisp g).fbk = s.fbk := by unfold State.mapDisp; rfl
@[simp] theorem mapDisp_cc (g : Fin 64 → Cmd → Cmd) (s : State) : (s.mapDisp g).cc = s.cc := by unfold State.mapDisp; rfl
@[simp] theorem mapDisp_can (g : Fin 64 → Cmd → Cmd) (s : State) : (s.mapDisp g).can = s.can := by unfold State.mapDisp; rfl
@[simp] theorem mapDisp_dsp (g : Fin 64 → Cmd → Cmd) (s : State) : (s.mapDisp g).dsp = s.dsp := by unfold State.mapDisp; rfl
@[simp] theorem mapDisp_power (g : Fin 64 → Cmd → Cmd) (s : State) : (s.mapDisp g).power = s.power := by unfold State.mapDisp; rfl
@[simp] theorem mapDisp_flt (g : Fin 64 → Cmd → Cmd) (s : State) : (s.mapDisp g).flt = s.flt := by unfold State.mapDisp; rfl
@[simp] theorem mapDisp_parts (g : Fin 64 → Cmd → Cmd) (s : State) : (s.mapDisp g).parts = s.parts := by unfold State.mapDisp; rfl
@[simp] theorem mapDisp_frz (g : Fin 64 → Cmd → Cmd) (s : State) : (s.mapDisp g).frz = s.frz := by unfold State.mapDisp; rfl
@[simp] theorem mapDisp_free (g : Fin 64 → Cmd → Cmd) (s : State) : (s.mapDisp g).free = s.free := by unfold State.mapDisp; rfl
@[simp] theorem abortTarget_pending (x : Fid) (r : BitVec 16) (s : State) : (abortTarget x r s).pending = s.pending := by unfold abortTarget; simp
@[simp] theorem abortTarget_time (x : Fid) (r : BitVec 16) (s : State) : (abortTarget x r s).time = s.time := by unfold abortTarget; simp
@[simp] theorem abortTarget_island (x : Fid) (r : BitVec 16) (s : State) : (abortTarget x r s).island = s.island := by unfold abortTarget; simp
@[simp] theorem abortTarget_store (x : Fid) (r : BitVec 16) (s : State) : (abortTarget x r s).store = s.store := by unfold abortTarget; simp
@[simp] theorem abortTarget_loader (x : Fid) (r : BitVec 16) (s : State) : (abortTarget x r s).loader = s.loader := by unfold abortTarget; simp
@[simp] theorem abortTarget_console (x : Fid) (r : BitVec 16) (s : State) : (abortTarget x r s).console = s.console := by unfold abortTarget; simp
@[simp] theorem abortTarget_tap (x : Fid) (r : BitVec 16) (s : State) : (abortTarget x r s).tap = s.tap := by unfold abortTarget; simp
@[simp] theorem abortTarget_pins (x : Fid) (r : BitVec 16) (s : State) : (abortTarget x r s).pins = s.pins := by unfold abortTarget; simp
@[simp] theorem abortTarget_pinsUp (x : Fid) (r : BitVec 16) (s : State) : (abortTarget x r s).pinsUp = s.pinsUp := by unfold abortTarget; simp
@[simp] theorem abortTarget_hstop (x : Fid) (r : BitVec 16) (s : State) : (abortTarget x r s).hstop = s.hstop := by unfold abortTarget; simp
@[simp] theorem abortTarget_hstopOn (x : Fid) (r : BitVec 16) (s : State) : (abortTarget x r s).hstopOn = s.hstopOn := by unfold abortTarget; simp
@[simp] theorem abortTarget_dispatched (x : Fid) (r : BitVec 16) (s : State) : (abortTarget x r s).dispatched = s.dispatched := by unfold abortTarget; simp
@[simp] theorem abortTarget_tsc (x : Fid) (r : BitVec 16) (s : State) : (abortTarget x r s).tsc = s.tsc := by unfold abortTarget; simp
@[simp] theorem abortTarget_mem (x : Fid) (r : BitVec 16) (s : State) : (abortTarget x r s).mem = s.mem := by unfold abortTarget; simp
@[simp] theorem abortTarget_poison (x : Fid) (r : BitVec 16) (s : State) : (abortTarget x r s).poison = s.poison := by unfold abortTarget; simp
@[simp] theorem abortTarget_scrub (x : Fid) (r : BitVec 16) (s : State) : (abortTarget x r s).scrub = s.scrub := by unfold abortTarget; simp
@[simp] theorem abortTarget_rat (x : Fid) (r : BitVec 16) (s : State) : (abortTarget x r s).rat = s.rat := by unfold abortTarget; simp
@[simp] theorem abortTarget_cores (x : Fid) (r : BitVec 16) (s : State) : (abortTarget x r s).cores = s.cores := by unfold abortTarget; simp
@[simp] theorem abortTarget_aplic (x : Fid) (r : BitVec 16) (s : State) : (abortTarget x r s).aplic = s.aplic := by unfold abortTarget; simp
@[simp] theorem abortTarget_srcLevel (x : Fid) (r : BitVec 16) (s : State) : (abortTarget x r s).srcLevel = s.srcLevel := by unfold abortTarget; simp
@[simp] theorem abortTarget_evbuf (x : Fid) (r : BitVec 16) (s : State) : (abortTarget x r s).evbuf = s.evbuf := by unfold abortTarget; simp
@[simp] theorem abortTarget_fwver (x : Fid) (r : BitVec 16) (s : State) : (abortTarget x r s).fwver = s.fwver := by unfold abortTarget; simp
@[simp] theorem abortTarget_rports (x : Fid) (r : BitVec 16) (s : State) : (abortTarget x r s).rports = s.rports := by unfold abortTarget; simp
@[simp] theorem abortTarget_clusterHeld (x : Fid) (r : BitVec 16) (s : State) : (abortTarget x r s).clusterHeld = s.clusterHeld := by unfold abortTarget; simp
@[simp] theorem abortTarget_clusterStop (x : Fid) (r : BitVec 16) (s : State) : (abortTarget x r s).clusterStop = s.clusterStop := by unfold abortTarget; simp
@[simp] theorem abortTarget_tiles (x : Fid) (r : BitVec 16) (s : State) : (abortTarget x r s).tiles = s.tiles := by unfold abortTarget; simp
@[simp] theorem abortTarget_shuttle (x : Fid) (r : BitVec 16) (s : State) : (abortTarget x r s).shuttle = s.shuttle := by unfold abortTarget; simp
@[simp] theorem abortTarget_peat (x : Fid) (r : BitVec 16) (s : State) : (abortTarget x r s).peat = s.peat := by unfold abortTarget; simp
@[simp] theorem abortTarget_lanes (x : Fid) (r : BitVec 16) (s : State) : (abortTarget x r s).lanes = s.lanes := by unfold abortTarget; simp
@[simp] theorem abortTarget_fabric (x : Fid) (r : BitVec 16) (s : State) : (abortTarget x r s).fabric = s.fabric := by unfold abortTarget; simp
@[simp] theorem abortTarget_ports (x : Fid) (r : BitVec 16) (s : State) : (abortTarget x r s).ports = s.ports := by unfold abortTarget; simp
@[simp] theorem abortTarget_loopback (x : Fid) (r : BitVec 16) (s : State) : (abortTarget x r s).loopback = s.loopback := by unfold abortTarget; simp
@[simp] theorem abortTarget_nextTid (x : Fid) (r : BitVec 16) (s : State) : (abortTarget x r s).nextTid = s.nextTid := by unfold abortTarget; simp
@[simp] theorem abortTarget_remote (x : Fid) (r : BitVec 16) (s : State) : (abortTarget x r s).remote = s.remote := by unfold abortTarget; simp
@[simp] theorem abortTarget_paceFrom (x : Fid) (r : BitVec 16) (s : State) : (abortTarget x r s).paceFrom = s.paceFrom := by unfold abortTarget; simp
@[simp] theorem abortTarget_chans (x : Fid) (r : BitVec 16) (s : State) : (abortTarget x r s).chans = s.chans := by unfold abortTarget; simp
@[simp] theorem abortTarget_axes (x : Fid) (r : BitVec 16) (s : State) : (abortTarget x r s).axes = s.axes := by unfold abortTarget; simp
@[simp] theorem abortTarget_trd (x : Fid) (r : BitVec 16) (s : State) : (abortTarget x r s).trd = s.trd := by unfold abortTarget; simp
@[simp] theorem abortTarget_fbk (x : Fid) (r : BitVec 16) (s : State) : (abortTarget x r s).fbk = s.fbk := by unfold abortTarget; simp
@[simp] theorem abortTarget_cc (x : Fid) (r : BitVec 16) (s : State) : (abortTarget x r s).cc = s.cc := by unfold abortTarget; simp
@[simp] theorem abortTarget_can (x : Fid) (r : BitVec 16) (s : State) : (abortTarget x r s).can = s.can := by unfold abortTarget; simp
@[simp] theorem abortTarget_dsp (x : Fid) (r : BitVec 16) (s : State) : (abortTarget x r s).dsp = s.dsp := by unfold abortTarget; simp
@[simp] theorem abortTarget_power (x : Fid) (r : BitVec 16) (s : State) : (abortTarget x r s).power = s.power := by unfold abortTarget; simp
@[simp] theorem abortTarget_flt (x : Fid) (r : BitVec 16) (s : State) : (abortTarget x r s).flt = s.flt := by unfold abortTarget; simp
@[simp] theorem abortTarget_parts (x : Fid) (r : BitVec 16) (s : State) : (abortTarget x r s).parts = s.parts := by unfold abortTarget; simp
@[simp] theorem abortTarget_frz (x : Fid) (r : BitVec 16) (s : State) : (abortTarget x r s).frz = s.frz := by unfold abortTarget; simp
@[simp] theorem abortTarget_free (x : Fid) (r : BitVec 16) (s : State) : (abortTarget x r s).free = s.free := by unfold abortTarget; simp

/-! ### A function stops work -/
@[simp] theorem stopWork_pending (x : Fid) (r : BitVec 16) (s : State) : (stopWork x r s).pending = s.pending := by
  unfold stopWork; simp only []; repeat' split
  all_goals simp
@[simp] theorem stopWork_time (x : Fid) (r : BitVec 16) (s : State) : (stopWork x r s).time = s.time := by
  unfold stopWork; simp only []; repeat' split
  all_goals simp
@[simp] theorem stopWork_island (x : Fid) (r : BitVec 16) (s : State) : (stopWork x r s).island = s.island := by
  unfold stopWork; simp only []; repeat' split
  all_goals simp
@[simp] theorem stopWork_store (x : Fid) (r : BitVec 16) (s : State) : (stopWork x r s).store = s.store := by
  unfold stopWork; simp only []; repeat' split
  all_goals simp
@[simp] theorem stopWork_loader (x : Fid) (r : BitVec 16) (s : State) : (stopWork x r s).loader = s.loader := by
  unfold stopWork; simp only []; repeat' split
  all_goals simp
@[simp] theorem stopWork_console (x : Fid) (r : BitVec 16) (s : State) : (stopWork x r s).console = s.console := by
  unfold stopWork; simp only []; repeat' split
  all_goals simp
@[simp] theorem stopWork_tap (x : Fid) (r : BitVec 16) (s : State) : (stopWork x r s).tap = s.tap := by
  unfold stopWork; simp only []; repeat' split
  all_goals simp
@[simp] theorem stopWork_pins (x : Fid) (r : BitVec 16) (s : State) : (stopWork x r s).pins = s.pins := by
  unfold stopWork; simp only []; repeat' split
  all_goals simp
@[simp] theorem stopWork_pinsUp (x : Fid) (r : BitVec 16) (s : State) : (stopWork x r s).pinsUp = s.pinsUp := by
  unfold stopWork; simp only []; repeat' split
  all_goals simp
@[simp] theorem stopWork_hstop (x : Fid) (r : BitVec 16) (s : State) : (stopWork x r s).hstop = s.hstop := by
  unfold stopWork; simp only []; repeat' split
  all_goals simp
@[simp] theorem stopWork_hstopOn (x : Fid) (r : BitVec 16) (s : State) : (stopWork x r s).hstopOn = s.hstopOn := by
  unfold stopWork; simp only []; repeat' split
  all_goals simp
@[simp] theorem stopWork_dispatched (x : Fid) (r : BitVec 16) (s : State) : (stopWork x r s).dispatched = s.dispatched := by
  unfold stopWork; simp only []; repeat' split
  all_goals simp
@[simp] theorem stopWork_tsc (x : Fid) (r : BitVec 16) (s : State) : (stopWork x r s).tsc = s.tsc := by
  unfold stopWork; simp only []; repeat' split
  all_goals simp
@[simp] theorem stopWork_mem (x : Fid) (r : BitVec 16) (s : State) : (stopWork x r s).mem = s.mem := by
  unfold stopWork; simp only []; repeat' split
  all_goals simp
@[simp] theorem stopWork_poison (x : Fid) (r : BitVec 16) (s : State) : (stopWork x r s).poison = s.poison := by
  unfold stopWork; simp only []; repeat' split
  all_goals simp
@[simp] theorem stopWork_scrub (x : Fid) (r : BitVec 16) (s : State) : (stopWork x r s).scrub = s.scrub := by
  unfold stopWork; simp only []; repeat' split
  all_goals simp
@[simp] theorem stopWork_rat (x : Fid) (r : BitVec 16) (s : State) : (stopWork x r s).rat = s.rat := by
  unfold stopWork; simp only []; repeat' split
  all_goals simp
@[simp] theorem stopWork_cores (x : Fid) (r : BitVec 16) (s : State) : (stopWork x r s).cores = s.cores := by
  unfold stopWork; simp only []; repeat' split
  all_goals simp
@[simp] theorem stopWork_aplic (x : Fid) (r : BitVec 16) (s : State) : (stopWork x r s).aplic = s.aplic := by
  unfold stopWork; simp only []; repeat' split
  all_goals simp
@[simp] theorem stopWork_srcLevel (x : Fid) (r : BitVec 16) (s : State) : (stopWork x r s).srcLevel = s.srcLevel := by
  unfold stopWork; simp only []; repeat' split
  all_goals simp
@[simp] theorem stopWork_evbuf (x : Fid) (r : BitVec 16) (s : State) : (stopWork x r s).evbuf = s.evbuf := by
  unfold stopWork; simp only []; repeat' split
  all_goals simp
@[simp] theorem stopWork_fwver (x : Fid) (r : BitVec 16) (s : State) : (stopWork x r s).fwver = s.fwver := by
  unfold stopWork; simp only []; repeat' split
  all_goals simp
@[simp] theorem stopWork_rports (x : Fid) (r : BitVec 16) (s : State) : (stopWork x r s).rports = s.rports := by
  unfold stopWork; simp only []; repeat' split
  all_goals simp
@[simp] theorem stopWork_clusterHeld (x : Fid) (r : BitVec 16) (s : State) : (stopWork x r s).clusterHeld = s.clusterHeld := by
  unfold stopWork; simp only []; repeat' split
  all_goals simp
@[simp] theorem stopWork_clusterStop (x : Fid) (r : BitVec 16) (s : State) : (stopWork x r s).clusterStop = s.clusterStop := by
  unfold stopWork; simp only []; repeat' split
  all_goals simp
@[simp] theorem stopWork_lanes (x : Fid) (r : BitVec 16) (s : State) : (stopWork x r s).lanes = s.lanes := by
  unfold stopWork; simp only []; repeat' split
  all_goals simp
@[simp] theorem stopWork_fabric (x : Fid) (r : BitVec 16) (s : State) : (stopWork x r s).fabric = s.fabric := by
  unfold stopWork; simp only []; repeat' split
  all_goals simp
@[simp] theorem stopWork_ports (x : Fid) (r : BitVec 16) (s : State) : (stopWork x r s).ports = s.ports := by
  unfold stopWork; simp only []; repeat' split
  all_goals simp
@[simp] theorem stopWork_loopback (x : Fid) (r : BitVec 16) (s : State) : (stopWork x r s).loopback = s.loopback := by
  unfold stopWork; simp only []; repeat' split
  all_goals simp
@[simp] theorem stopWork_nextTid (x : Fid) (r : BitVec 16) (s : State) : (stopWork x r s).nextTid = s.nextTid := by
  unfold stopWork; simp only []; repeat' split
  all_goals simp
@[simp] theorem stopWork_remote (x : Fid) (r : BitVec 16) (s : State) : (stopWork x r s).remote = s.remote := by
  unfold stopWork; simp only []; repeat' split
  all_goals simp
@[simp] theorem stopWork_paceFrom (x : Fid) (r : BitVec 16) (s : State) : (stopWork x r s).paceFrom = s.paceFrom := by
  unfold stopWork; simp only []; repeat' split
  all_goals simp
@[simp] theorem stopWork_axes (x : Fid) (r : BitVec 16) (s : State) : (stopWork x r s).axes = s.axes := by
  unfold stopWork; simp only []; repeat' split
  all_goals simp
@[simp] theorem stopWork_trd (x : Fid) (r : BitVec 16) (s : State) : (stopWork x r s).trd = s.trd := by
  unfold stopWork; simp only []; repeat' split
  all_goals simp
@[simp] theorem stopWork_dsp (x : Fid) (r : BitVec 16) (s : State) : (stopWork x r s).dsp = s.dsp := by
  unfold stopWork; simp only []; repeat' split
  all_goals simp
@[simp] theorem stopWork_power (x : Fid) (r : BitVec 16) (s : State) : (stopWork x r s).power = s.power := by
  unfold stopWork; simp only []; repeat' split
  all_goals simp
@[simp] theorem stopWork_flt (x : Fid) (r : BitVec 16) (s : State) : (stopWork x r s).flt = s.flt := by
  unfold stopWork; simp only []; repeat' split
  all_goals simp
@[simp] theorem stopWork_parts (x : Fid) (r : BitVec 16) (s : State) : (stopWork x r s).parts = s.parts := by
  unfold stopWork; simp only []; repeat' split
  all_goals simp
@[simp] theorem stopWork_frz (x : Fid) (r : BitVec 16) (s : State) : (stopWork x r s).frz = s.frz := by
  unfold stopWork; simp only []; repeat' split
  all_goals simp
@[simp] theorem stopWork_free (x : Fid) (r : BitVec 16) (s : State) : (stopWork x r s).free = s.free := by
  unfold stopWork; simp only []; repeat' split
  all_goals simp

/-! ### A function is stopped by a fence -/
@[simp] theorem fenceWork_pending (x : Fid) (s : State) : (fenceWork x s).pending = s.pending := by
  unfold fenceWork; simp only []; repeat' split
  all_goals simp
@[simp] theorem fenceWork_time (x : Fid) (s : State) : (fenceWork x s).time = s.time := by
  unfold fenceWork; simp only []; repeat' split
  all_goals simp
@[simp] theorem fenceWork_island (x : Fid) (s : State) : (fenceWork x s).island = s.island := by
  unfold fenceWork; simp only []; repeat' split
  all_goals simp
@[simp] theorem fenceWork_store (x : Fid) (s : State) : (fenceWork x s).store = s.store := by
  unfold fenceWork; simp only []; repeat' split
  all_goals simp
@[simp] theorem fenceWork_loader (x : Fid) (s : State) : (fenceWork x s).loader = s.loader := by
  unfold fenceWork; simp only []; repeat' split
  all_goals simp
@[simp] theorem fenceWork_tap (x : Fid) (s : State) : (fenceWork x s).tap = s.tap := by
  unfold fenceWork; simp only []; repeat' split
  all_goals simp
@[simp] theorem fenceWork_pins (x : Fid) (s : State) : (fenceWork x s).pins = s.pins := by
  unfold fenceWork; simp only []; repeat' split
  all_goals simp
@[simp] theorem fenceWork_pinsUp (x : Fid) (s : State) : (fenceWork x s).pinsUp = s.pinsUp := by
  unfold fenceWork; simp only []; repeat' split
  all_goals simp
@[simp] theorem fenceWork_hstop (x : Fid) (s : State) : (fenceWork x s).hstop = s.hstop := by
  unfold fenceWork; simp only []; repeat' split
  all_goals simp
@[simp] theorem fenceWork_hstopOn (x : Fid) (s : State) : (fenceWork x s).hstopOn = s.hstopOn := by
  unfold fenceWork; simp only []; repeat' split
  all_goals simp
@[simp] theorem fenceWork_dispatched (x : Fid) (s : State) : (fenceWork x s).dispatched = s.dispatched := by
  unfold fenceWork; simp only []; repeat' split
  all_goals simp
@[simp] theorem fenceWork_tsc (x : Fid) (s : State) : (fenceWork x s).tsc = s.tsc := by
  unfold fenceWork; simp only []; repeat' split
  all_goals simp
@[simp] theorem fenceWork_scrub (x : Fid) (s : State) : (fenceWork x s).scrub = s.scrub := by
  unfold fenceWork; simp only []; repeat' split
  all_goals simp
@[simp] theorem fenceWork_aplic (x : Fid) (s : State) : (fenceWork x s).aplic = s.aplic := by
  unfold fenceWork; simp only []; repeat' split
  all_goals simp
@[simp] theorem fenceWork_srcLevel (x : Fid) (s : State) : (fenceWork x s).srcLevel = s.srcLevel := by
  unfold fenceWork; simp only []; repeat' split
  all_goals simp
@[simp] theorem fenceWork_fwver (x : Fid) (s : State) : (fenceWork x s).fwver = s.fwver := by
  unfold fenceWork; simp only []; repeat' split
  all_goals simp
@[simp] theorem fenceWork_rports (x : Fid) (s : State) : (fenceWork x s).rports = s.rports := by
  unfold fenceWork; simp only []; repeat' split
  all_goals simp
@[simp] theorem fenceWork_clusterHeld (x : Fid) (s : State) : (fenceWork x s).clusterHeld = s.clusterHeld := by
  unfold fenceWork; simp only []; repeat' split
  all_goals simp
@[simp] theorem fenceWork_clusterStop (x : Fid) (s : State) : (fenceWork x s).clusterStop = s.clusterStop := by
  unfold fenceWork; simp only []; repeat' split
  all_goals simp
@[simp] theorem fenceWork_lanes (x : Fid) (s : State) : (fenceWork x s).lanes = s.lanes := by
  unfold fenceWork; simp only []; repeat' split
  all_goals simp
@[simp] theorem fenceWork_fabric (x : Fid) (s : State) : (fenceWork x s).fabric = s.fabric := by
  unfold fenceWork; simp only []; repeat' split
  all_goals simp
@[simp] theorem fenceWork_ports (x : Fid) (s : State) : (fenceWork x s).ports = s.ports := by
  unfold fenceWork; simp only []; repeat' split
  all_goals simp
@[simp] theorem fenceWork_loopback (x : Fid) (s : State) : (fenceWork x s).loopback = s.loopback := by
  unfold fenceWork; simp only []; repeat' split
  all_goals simp
@[simp] theorem fenceWork_nextTid (x : Fid) (s : State) : (fenceWork x s).nextTid = s.nextTid := by
  unfold fenceWork; simp only []; repeat' split
  all_goals simp
@[simp] theorem fenceWork_remote (x : Fid) (s : State) : (fenceWork x s).remote = s.remote := by
  unfold fenceWork; simp only []; repeat' split
  all_goals simp
@[simp] theorem fenceWork_paceFrom (x : Fid) (s : State) : (fenceWork x s).paceFrom = s.paceFrom := by
  unfold fenceWork; simp only []; repeat' split
  all_goals simp
@[simp] theorem fenceWork_trd (x : Fid) (s : State) : (fenceWork x s).trd = s.trd := by
  unfold fenceWork; simp only []; repeat' split
  all_goals simp
@[simp] theorem fenceWork_dsp (x : Fid) (s : State) : (fenceWork x s).dsp = s.dsp := by
  unfold fenceWork; simp only []; repeat' split
  all_goals simp
@[simp] theorem fenceWork_power (x : Fid) (s : State) : (fenceWork x s).power = s.power := by
  unfold fenceWork; simp only []; repeat' split
  all_goals simp
@[simp] theorem fenceWork_parts (x : Fid) (s : State) : (fenceWork x s).parts = s.parts := by
  unfold fenceWork; simp only []; repeat' split
  all_goals simp
@[simp] theorem fenceWork_frz (x : Fid) (s : State) : (fenceWork x s).frz = s.frz := by
  unfold fenceWork; simp only []; repeat' split
  all_goals simp
@[simp] theorem fenceWork_free (x : Fid) (s : State) : (fenceWork x s).free = s.free := by
  unfold fenceWork; simp only []; repeat' split
  all_goals simp

/-! ### The function fence -/
@[simp] theorem fenceFn_pending (x : Fid) (s : State) : (fenceFn x s).pending = s.pending := by
  unfold fenceFn; simp
@[simp] theorem fenceFn_time (x : Fid) (s : State) : (fenceFn x s).time = s.time := by
  unfold fenceFn; simp
@[simp] theorem fenceFn_island (x : Fid) (s : State) : (fenceFn x s).island = s.island := by
  unfold fenceFn; simp
@[simp] theorem fenceFn_store (x : Fid) (s : State) : (fenceFn x s).store = s.store := by
  unfold fenceFn; simp
@[simp] theorem fenceFn_loader (x : Fid) (s : State) : (fenceFn x s).loader = s.loader := by
  unfold fenceFn; simp
@[simp] theorem fenceFn_tap (x : Fid) (s : State) : (fenceFn x s).tap = s.tap := by
  unfold fenceFn; simp
@[simp] theorem fenceFn_pins (x : Fid) (s : State) : (fenceFn x s).pins = s.pins := by
  unfold fenceFn; simp
@[simp] theorem fenceFn_pinsUp (x : Fid) (s : State) : (fenceFn x s).pinsUp = s.pinsUp := by
  unfold fenceFn; simp
@[simp] theorem fenceFn_hstop (x : Fid) (s : State) : (fenceFn x s).hstop = s.hstop := by
  unfold fenceFn; simp
@[simp] theorem fenceFn_hstopOn (x : Fid) (s : State) : (fenceFn x s).hstopOn = s.hstopOn := by
  unfold fenceFn; simp
@[simp] theorem fenceFn_dispatched (x : Fid) (s : State) : (fenceFn x s).dispatched = s.dispatched := by
  unfold fenceFn; simp
@[simp] theorem fenceFn_tsc (x : Fid) (s : State) : (fenceFn x s).tsc = s.tsc := by
  unfold fenceFn; simp
@[simp] theorem fenceFn_scrub (x : Fid) (s : State) : (fenceFn x s).scrub = s.scrub := by
  unfold fenceFn; simp
@[simp] theorem fenceFn_aplic (x : Fid) (s : State) : (fenceFn x s).aplic = s.aplic := by
  unfold fenceFn; simp
@[simp] theorem fenceFn_srcLevel (x : Fid) (s : State) : (fenceFn x s).srcLevel = s.srcLevel := by
  unfold fenceFn; simp
@[simp] theorem fenceFn_fwver (x : Fid) (s : State) : (fenceFn x s).fwver = s.fwver := by
  unfold fenceFn; simp
@[simp] theorem fenceFn_rports (x : Fid) (s : State) : (fenceFn x s).rports = s.rports := by
  unfold fenceFn; simp
@[simp] theorem fenceFn_clusterHeld (x : Fid) (s : State) : (fenceFn x s).clusterHeld = s.clusterHeld := by
  unfold fenceFn; simp
@[simp] theorem fenceFn_clusterStop (x : Fid) (s : State) : (fenceFn x s).clusterStop = s.clusterStop := by
  unfold fenceFn; simp
@[simp] theorem fenceFn_lanes (x : Fid) (s : State) : (fenceFn x s).lanes = s.lanes := by
  unfold fenceFn; simp
@[simp] theorem fenceFn_fabric (x : Fid) (s : State) : (fenceFn x s).fabric = s.fabric := by
  unfold fenceFn; simp
@[simp] theorem fenceFn_ports (x : Fid) (s : State) : (fenceFn x s).ports = s.ports := by
  unfold fenceFn; simp
@[simp] theorem fenceFn_loopback (x : Fid) (s : State) : (fenceFn x s).loopback = s.loopback := by
  unfold fenceFn; simp
@[simp] theorem fenceFn_nextTid (x : Fid) (s : State) : (fenceFn x s).nextTid = s.nextTid := by
  unfold fenceFn; simp
@[simp] theorem fenceFn_remote (x : Fid) (s : State) : (fenceFn x s).remote = s.remote := by
  unfold fenceFn; simp
@[simp] theorem fenceFn_paceFrom (x : Fid) (s : State) : (fenceFn x s).paceFrom = s.paceFrom := by
  unfold fenceFn; simp
@[simp] theorem fenceFn_trd (x : Fid) (s : State) : (fenceFn x s).trd = s.trd := by
  unfold fenceFn; simp
@[simp] theorem fenceFn_dsp (x : Fid) (s : State) : (fenceFn x s).dsp = s.dsp := by
  unfold fenceFn; simp
@[simp] theorem fenceFn_power (x : Fid) (s : State) : (fenceFn x s).power = s.power := by
  unfold fenceFn; simp
@[simp] theorem fenceFn_parts (x : Fid) (s : State) : (fenceFn x s).parts = s.parts := by
  unfold fenceFn; simp
@[simp] theorem fenceFn_frz (x : Fid) (s : State) : (fenceFn x s).frz = s.frz := by
  unfold fenceFn; simp
@[simp] theorem fenceFn_free (x : Fid) (s : State) : (fenceFn x s).free = s.free := by
  unfold fenceFn; simp

/-! ### A partition's work on a stack stops -/
@[simp] theorem stopStack_pending (k : Fin 8) (p : Fin 32) (s : State) : (stopStack k p s).pending = s.pending := by unfold stopStack; simp
@[simp] theorem stopStack_time (k : Fin 8) (p : Fin 32) (s : State) : (stopStack k p s).time = s.time := by unfold stopStack; simp
@[simp] theorem stopStack_island (k : Fin 8) (p : Fin 32) (s : State) : (stopStack k p s).island = s.island := by unfold stopStack; simp
@[simp] theorem stopStack_store (k : Fin 8) (p : Fin 32) (s : State) : (stopStack k p s).store = s.store := by unfold stopStack; simp
@[simp] theorem stopStack_loader (k : Fin 8) (p : Fin 32) (s : State) : (stopStack k p s).loader = s.loader := by unfold stopStack; simp
@[simp] theorem stopStack_console (k : Fin 8) (p : Fin 32) (s : State) : (stopStack k p s).console = s.console := by unfold stopStack; simp
@[simp] theorem stopStack_tap (k : Fin 8) (p : Fin 32) (s : State) : (stopStack k p s).tap = s.tap := by unfold stopStack; simp
@[simp] theorem stopStack_pins (k : Fin 8) (p : Fin 32) (s : State) : (stopStack k p s).pins = s.pins := by unfold stopStack; simp
@[simp] theorem stopStack_pinsUp (k : Fin 8) (p : Fin 32) (s : State) : (stopStack k p s).pinsUp = s.pinsUp := by unfold stopStack; simp
@[simp] theorem stopStack_hstop (k : Fin 8) (p : Fin 32) (s : State) : (stopStack k p s).hstop = s.hstop := by unfold stopStack; simp
@[simp] theorem stopStack_hstopOn (k : Fin 8) (p : Fin 32) (s : State) : (stopStack k p s).hstopOn = s.hstopOn := by unfold stopStack; simp
@[simp] theorem stopStack_dispatched (k : Fin 8) (p : Fin 32) (s : State) : (stopStack k p s).dispatched = s.dispatched := by unfold stopStack; simp
@[simp] theorem stopStack_tsc (k : Fin 8) (p : Fin 32) (s : State) : (stopStack k p s).tsc = s.tsc := by unfold stopStack; simp
@[simp] theorem stopStack_mem (k : Fin 8) (p : Fin 32) (s : State) : (stopStack k p s).mem = s.mem := by unfold stopStack; simp
@[simp] theorem stopStack_poison (k : Fin 8) (p : Fin 32) (s : State) : (stopStack k p s).poison = s.poison := by unfold stopStack; simp
@[simp] theorem stopStack_scrub (k : Fin 8) (p : Fin 32) (s : State) : (stopStack k p s).scrub = s.scrub := by unfold stopStack; simp
@[simp] theorem stopStack_rat (k : Fin 8) (p : Fin 32) (s : State) : (stopStack k p s).rat = s.rat := by unfold stopStack; simp
@[simp] theorem stopStack_cores (k : Fin 8) (p : Fin 32) (s : State) : (stopStack k p s).cores = s.cores := by unfold stopStack; simp
@[simp] theorem stopStack_aplic (k : Fin 8) (p : Fin 32) (s : State) : (stopStack k p s).aplic = s.aplic := by unfold stopStack; simp
@[simp] theorem stopStack_srcLevel (k : Fin 8) (p : Fin 32) (s : State) : (stopStack k p s).srcLevel = s.srcLevel := by unfold stopStack; simp
@[simp] theorem stopStack_evbuf (k : Fin 8) (p : Fin 32) (s : State) : (stopStack k p s).evbuf = s.evbuf := by unfold stopStack; simp
@[simp] theorem stopStack_fwver (k : Fin 8) (p : Fin 32) (s : State) : (stopStack k p s).fwver = s.fwver := by unfold stopStack; simp
@[simp] theorem stopStack_rports (k : Fin 8) (p : Fin 32) (s : State) : (stopStack k p s).rports = s.rports := by unfold stopStack; simp
@[simp] theorem stopStack_clusterHeld (k : Fin 8) (p : Fin 32) (s : State) : (stopStack k p s).clusterHeld = s.clusterHeld := by unfold stopStack; simp
@[simp] theorem stopStack_clusterStop (k : Fin 8) (p : Fin 32) (s : State) : (stopStack k p s).clusterStop = s.clusterStop := by unfold stopStack; simp
@[simp] theorem stopStack_tiles (k : Fin 8) (p : Fin 32) (s : State) : (stopStack k p s).tiles = s.tiles := by unfold stopStack; simp
@[simp] theorem stopStack_shuttle (k : Fin 8) (p : Fin 32) (s : State) : (stopStack k p s).shuttle = s.shuttle := by unfold stopStack; simp
@[simp] theorem stopStack_lanes (k : Fin 8) (p : Fin 32) (s : State) : (stopStack k p s).lanes = s.lanes := by unfold stopStack; simp
@[simp] theorem stopStack_fabric (k : Fin 8) (p : Fin 32) (s : State) : (stopStack k p s).fabric = s.fabric := by unfold stopStack; simp
@[simp] theorem stopStack_ports (k : Fin 8) (p : Fin 32) (s : State) : (stopStack k p s).ports = s.ports := by unfold stopStack; simp
@[simp] theorem stopStack_loopback (k : Fin 8) (p : Fin 32) (s : State) : (stopStack k p s).loopback = s.loopback := by unfold stopStack; simp
@[simp] theorem stopStack_nextTid (k : Fin 8) (p : Fin 32) (s : State) : (stopStack k p s).nextTid = s.nextTid := by unfold stopStack; simp
@[simp] theorem stopStack_remote (k : Fin 8) (p : Fin 32) (s : State) : (stopStack k p s).remote = s.remote := by unfold stopStack; simp
@[simp] theorem stopStack_paceFrom (k : Fin 8) (p : Fin 32) (s : State) : (stopStack k p s).paceFrom = s.paceFrom := by unfold stopStack; simp
@[simp] theorem stopStack_chans (k : Fin 8) (p : Fin 32) (s : State) : (stopStack k p s).chans = s.chans := by unfold stopStack; simp
@[simp] theorem stopStack_axes (k : Fin 8) (p : Fin 32) (s : State) : (stopStack k p s).axes = s.axes := by unfold stopStack; simp
@[simp] theorem stopStack_trd (k : Fin 8) (p : Fin 32) (s : State) : (stopStack k p s).trd = s.trd := by unfold stopStack; simp
@[simp] theorem stopStack_fbk (k : Fin 8) (p : Fin 32) (s : State) : (stopStack k p s).fbk = s.fbk := by unfold stopStack; simp
@[simp] theorem stopStack_cc (k : Fin 8) (p : Fin 32) (s : State) : (stopStack k p s).cc = s.cc := by unfold stopStack; simp
@[simp] theorem stopStack_can (k : Fin 8) (p : Fin 32) (s : State) : (stopStack k p s).can = s.can := by unfold stopStack; simp
@[simp] theorem stopStack_dsp (k : Fin 8) (p : Fin 32) (s : State) : (stopStack k p s).dsp = s.dsp := by unfold stopStack; simp
@[simp] theorem stopStack_power (k : Fin 8) (p : Fin 32) (s : State) : (stopStack k p s).power = s.power := by unfold stopStack; simp
@[simp] theorem stopStack_flt (k : Fin 8) (p : Fin 32) (s : State) : (stopStack k p s).flt = s.flt := by unfold stopStack; simp
@[simp] theorem stopStack_parts (k : Fin 8) (p : Fin 32) (s : State) : (stopStack k p s).parts = s.parts := by unfold stopStack; simp
@[simp] theorem stopStack_frz (k : Fin 8) (p : Fin 32) (s : State) : (stopStack k p s).frz = s.frz := by unfold stopStack; simp
@[simp] theorem stopStack_free (k : Fin 8) (p : Fin 32) (s : State) : (stopStack k p s).free = s.free := by unfold stopStack; simp

/-! ### The partition fence -/
@[simp] theorem fencePart_pending (p : Fin 32) (x : Fid) (s : State) : (fencePart p x s).pending = s.pending := by
  unfold fencePart; simp only; split
  · rfl
  split
  all_goals (try simp)
  all_goals exact (foldl_keep (·.pending) _ (by intros; split <;> simp) _ _).trans rfl
@[simp] theorem fencePart_time (p : Fin 32) (x : Fid) (s : State) : (fencePart p x s).time = s.time := by
  unfold fencePart; simp only; split
  · rfl
  split
  all_goals (try simp)
  all_goals exact (foldl_keep (·.time) _ (by intros; split <;> simp) _ _).trans rfl
@[simp] theorem fencePart_island (p : Fin 32) (x : Fid) (s : State) : (fencePart p x s).island = s.island := by
  unfold fencePart; simp only; split
  · rfl
  split
  all_goals (try simp)
  all_goals exact (foldl_keep (·.island) _ (by intros; split <;> simp) _ _).trans rfl
@[simp] theorem fencePart_store (p : Fin 32) (x : Fid) (s : State) : (fencePart p x s).store = s.store := by
  unfold fencePart; simp only; split
  · rfl
  split
  all_goals (try simp)
  all_goals exact (foldl_keep (·.store) _ (by intros; split <;> simp) _ _).trans rfl
@[simp] theorem fencePart_loader (p : Fin 32) (x : Fid) (s : State) : (fencePart p x s).loader = s.loader := by
  unfold fencePart; simp only; split
  · rfl
  split
  all_goals (try simp)
  all_goals exact (foldl_keep (·.loader) _ (by intros; split <;> simp) _ _).trans rfl
@[simp] theorem fencePart_tap (p : Fin 32) (x : Fid) (s : State) : (fencePart p x s).tap = s.tap := by
  unfold fencePart; simp only; split
  · rfl
  split
  all_goals (try simp)
  all_goals exact (foldl_keep (·.tap) _ (by intros; split <;> simp) _ _).trans rfl
@[simp] theorem fencePart_pins (p : Fin 32) (x : Fid) (s : State) : (fencePart p x s).pins = s.pins := by
  unfold fencePart; simp only; split
  · rfl
  split
  all_goals (try simp)
  all_goals exact (foldl_keep (·.pins) _ (by intros; split <;> simp) _ _).trans rfl
@[simp] theorem fencePart_pinsUp (p : Fin 32) (x : Fid) (s : State) : (fencePart p x s).pinsUp = s.pinsUp := by
  unfold fencePart; simp only; split
  · rfl
  split
  all_goals (try simp)
  all_goals exact (foldl_keep (·.pinsUp) _ (by intros; split <;> simp) _ _).trans rfl
@[simp] theorem fencePart_hstop (p : Fin 32) (x : Fid) (s : State) : (fencePart p x s).hstop = s.hstop := by
  unfold fencePart; simp only; split
  · rfl
  split
  all_goals (try simp)
  all_goals exact (foldl_keep (·.hstop) _ (by intros; split <;> simp) _ _).trans rfl
@[simp] theorem fencePart_hstopOn (p : Fin 32) (x : Fid) (s : State) : (fencePart p x s).hstopOn = s.hstopOn := by
  unfold fencePart; simp only; split
  · rfl
  split
  all_goals (try simp)
  all_goals exact (foldl_keep (·.hstopOn) _ (by intros; split <;> simp) _ _).trans rfl
@[simp] theorem fencePart_dispatched (p : Fin 32) (x : Fid) (s : State) : (fencePart p x s).dispatched = s.dispatched := by
  unfold fencePart; simp only; split
  · rfl
  split
  all_goals (try simp)
  all_goals exact (foldl_keep (·.dispatched) _ (by intros; split <;> simp) _ _).trans rfl
@[simp] theorem fencePart_tsc (p : Fin 32) (x : Fid) (s : State) : (fencePart p x s).tsc = s.tsc := by
  unfold fencePart; simp only; split
  · rfl
  split
  all_goals (try simp)
  all_goals exact (foldl_keep (·.tsc) _ (by intros; split <;> simp) _ _).trans rfl
@[simp] theorem fencePart_scrub (p : Fin 32) (x : Fid) (s : State) : (fencePart p x s).scrub = s.scrub := by
  unfold fencePart; simp only; split
  · rfl
  split
  all_goals (try simp)
  all_goals exact (foldl_keep (·.scrub) _ (by intros; split <;> simp) _ _).trans rfl
@[simp] theorem fencePart_aplic (p : Fin 32) (x : Fid) (s : State) : (fencePart p x s).aplic = s.aplic := by
  unfold fencePart; simp only; split
  · rfl
  split
  all_goals (try simp)
  all_goals exact (foldl_keep (·.aplic) _ (by intros; split <;> simp) _ _).trans rfl
@[simp] theorem fencePart_srcLevel (p : Fin 32) (x : Fid) (s : State) : (fencePart p x s).srcLevel = s.srcLevel := by
  unfold fencePart; simp only; split
  · rfl
  split
  all_goals (try simp)
  all_goals exact (foldl_keep (·.srcLevel) _ (by intros; split <;> simp) _ _).trans rfl
@[simp] theorem fencePart_fwver (p : Fin 32) (x : Fid) (s : State) : (fencePart p x s).fwver = s.fwver := by
  unfold fencePart; simp only; split
  · rfl
  split
  all_goals (try simp)
  all_goals exact (foldl_keep (·.fwver) _ (by intros; split <;> simp) _ _).trans rfl
@[simp] theorem fencePart_rports (p : Fin 32) (x : Fid) (s : State) : (fencePart p x s).rports = s.rports := by
  unfold fencePart; simp only; split
  · rfl
  split
  all_goals (try simp)
  all_goals exact (foldl_keep (·.rports) _ (by intros; split <;> simp) _ _).trans rfl
@[simp] theorem fencePart_clusterHeld (p : Fin 32) (x : Fid) (s : State) : (fencePart p x s).clusterHeld = s.clusterHeld := by
  unfold fencePart; simp only; split
  · rfl
  split
  all_goals (try simp)
  all_goals exact (foldl_keep (·.clusterHeld) _ (by intros; split <;> simp) _ _).trans rfl
@[simp] theorem fencePart_clusterStop (p : Fin 32) (x : Fid) (s : State) : (fencePart p x s).clusterStop = s.clusterStop := by
  unfold fencePart; simp only; split
  · rfl
  split
  all_goals (try simp)
  all_goals exact (foldl_keep (·.clusterStop) _ (by intros; split <;> simp) _ _).trans rfl
@[simp] theorem fencePart_lanes (p : Fin 32) (x : Fid) (s : State) : (fencePart p x s).lanes = s.lanes := by
  unfold fencePart; simp only; split
  · rfl
  split
  all_goals (try simp)
  all_goals exact (foldl_keep (·.lanes) _ (by intros; split <;> simp) _ _).trans rfl
@[simp] theorem fencePart_fabric (p : Fin 32) (x : Fid) (s : State) : (fencePart p x s).fabric = s.fabric := by
  unfold fencePart; simp only; split
  · rfl
  split
  all_goals (try simp)
  all_goals exact (foldl_keep (·.fabric) _ (by intros; split <;> simp) _ _).trans rfl
@[simp] theorem fencePart_ports (p : Fin 32) (x : Fid) (s : State) : (fencePart p x s).ports = s.ports := by
  unfold fencePart; simp only; split
  · rfl
  split
  all_goals (try simp)
  all_goals exact (foldl_keep (·.ports) _ (by intros; split <;> simp) _ _).trans rfl
@[simp] theorem fencePart_loopback (p : Fin 32) (x : Fid) (s : State) : (fencePart p x s).loopback = s.loopback := by
  unfold fencePart; simp only; split
  · rfl
  split
  all_goals (try simp)
  all_goals exact (foldl_keep (·.loopback) _ (by intros; split <;> simp) _ _).trans rfl
@[simp] theorem fencePart_nextTid (p : Fin 32) (x : Fid) (s : State) : (fencePart p x s).nextTid = s.nextTid := by
  unfold fencePart; simp only; split
  · rfl
  split
  all_goals (try simp)
  all_goals exact (foldl_keep (·.nextTid) _ (by intros; split <;> simp) _ _).trans rfl
@[simp] theorem fencePart_remote (p : Fin 32) (x : Fid) (s : State) : (fencePart p x s).remote = s.remote := by
  unfold fencePart; simp only; split
  · rfl
  split
  all_goals (try simp)
  all_goals exact (foldl_keep (·.remote) _ (by intros; split <;> simp) _ _).trans rfl
@[simp] theorem fencePart_paceFrom (p : Fin 32) (x : Fid) (s : State) : (fencePart p x s).paceFrom = s.paceFrom := by
  unfold fencePart; simp only; split
  · rfl
  split
  all_goals (try simp)
  all_goals exact (foldl_keep (·.paceFrom) _ (by intros; split <;> simp) _ _).trans rfl
@[simp] theorem fencePart_trd (p : Fin 32) (x : Fid) (s : State) : (fencePart p x s).trd = s.trd := by
  unfold fencePart; simp only; split
  · rfl
  split
  all_goals (try simp)
  all_goals exact (foldl_keep (·.trd) _ (by intros; split <;> simp) _ _).trans rfl
@[simp] theorem fencePart_dsp (p : Fin 32) (x : Fid) (s : State) : (fencePart p x s).dsp = s.dsp := by
  unfold fencePart; simp only; split
  · rfl
  split
  all_goals (try simp)
  all_goals exact (foldl_keep (·.dsp) _ (by intros; split <;> simp) _ _).trans rfl
@[simp] theorem fencePart_power (p : Fin 32) (x : Fid) (s : State) : (fencePart p x s).power = s.power := by
  unfold fencePart; simp only; split
  · rfl
  split
  all_goals (try simp)
  all_goals exact (foldl_keep (·.power) _ (by intros; split <;> simp) _ _).trans rfl
@[simp] theorem fencePart_frz (p : Fin 32) (x : Fid) (s : State) : (fencePart p x s).frz = s.frz := by
  unfold fencePart; simp only; split
  · rfl
  split
  all_goals (try simp)
  all_goals exact (foldl_keep (·.frz) _ (by intros; split <;> simp) _ _).trans rfl
@[simp] theorem fencePart_free (p : Fin 32) (x : Fid) (s : State) : (fencePart p x s).free = s.free := by
  unfold fencePart; simp only; split
  · rfl
  split
  all_goals (try simp)
  all_goals exact (foldl_keep (·.free) _ (by intros; split <;> simp) _ _).trans rfl

/-! ### The records of a new cause -/
@[simp] theorem announce_pending (x : Fid) (b : Nat) (s : State) : (announce x b s).pending = s.pending := by
  unfold announce freezeOnFault frzRequest; simp only []; repeat' split
  all_goals simp
@[simp] theorem announce_time (x : Fid) (b : Nat) (s : State) : (announce x b s).time = s.time := by
  unfold announce freezeOnFault frzRequest; simp only []; repeat' split
  all_goals simp
@[simp] theorem announce_island (x : Fid) (b : Nat) (s : State) : (announce x b s).island = s.island := by
  unfold announce freezeOnFault frzRequest; simp only []; repeat' split
  all_goals simp
@[simp] theorem announce_loader (x : Fid) (b : Nat) (s : State) : (announce x b s).loader = s.loader := by
  unfold announce freezeOnFault frzRequest; simp only []; repeat' split
  all_goals simp
@[simp] theorem announce_tap (x : Fid) (b : Nat) (s : State) : (announce x b s).tap = s.tap := by
  unfold announce freezeOnFault frzRequest; simp only []; repeat' split
  all_goals simp
@[simp] theorem announce_pins (x : Fid) (b : Nat) (s : State) : (announce x b s).pins = s.pins := by
  unfold announce freezeOnFault frzRequest; simp only []; repeat' split
  all_goals simp
@[simp] theorem announce_pinsUp (x : Fid) (b : Nat) (s : State) : (announce x b s).pinsUp = s.pinsUp := by
  unfold announce freezeOnFault frzRequest; simp only []; repeat' split
  all_goals simp
@[simp] theorem announce_hstop (x : Fid) (b : Nat) (s : State) : (announce x b s).hstop = s.hstop := by
  unfold announce freezeOnFault frzRequest; simp only []; repeat' split
  all_goals simp
@[simp] theorem announce_hstopOn (x : Fid) (b : Nat) (s : State) : (announce x b s).hstopOn = s.hstopOn := by
  unfold announce freezeOnFault frzRequest; simp only []; repeat' split
  all_goals simp
@[simp] theorem announce_dispatched (x : Fid) (b : Nat) (s : State) : (announce x b s).dispatched = s.dispatched := by
  unfold announce freezeOnFault frzRequest; simp only []; repeat' split
  all_goals simp
@[simp] theorem announce_tsc (x : Fid) (b : Nat) (s : State) : (announce x b s).tsc = s.tsc := by
  unfold announce freezeOnFault frzRequest; simp only []; repeat' split
  all_goals simp
@[simp] theorem announce_scrub (x : Fid) (b : Nat) (s : State) : (announce x b s).scrub = s.scrub := by
  unfold announce freezeOnFault frzRequest; simp only []; repeat' split
  all_goals simp
@[simp] theorem announce_aplic (x : Fid) (b : Nat) (s : State) : (announce x b s).aplic = s.aplic := by
  unfold announce freezeOnFault frzRequest; simp only []; repeat' split
  all_goals simp
@[simp] theorem announce_srcLevel (x : Fid) (b : Nat) (s : State) : (announce x b s).srcLevel = s.srcLevel := by
  unfold announce freezeOnFault frzRequest; simp only []; repeat' split
  all_goals simp
@[simp] theorem announce_fwver (x : Fid) (b : Nat) (s : State) : (announce x b s).fwver = s.fwver := by
  unfold announce freezeOnFault frzRequest; simp only []; repeat' split
  all_goals simp
@[simp] theorem announce_rports (x : Fid) (b : Nat) (s : State) : (announce x b s).rports = s.rports := by
  unfold announce freezeOnFault frzRequest; simp only []; repeat' split
  all_goals simp
@[simp] theorem announce_clusterHeld (x : Fid) (b : Nat) (s : State) : (announce x b s).clusterHeld = s.clusterHeld := by
  unfold announce freezeOnFault frzRequest; simp only []; repeat' split
  all_goals simp
@[simp] theorem announce_clusterStop (x : Fid) (b : Nat) (s : State) : (announce x b s).clusterStop = s.clusterStop := by
  unfold announce freezeOnFault frzRequest; simp only []; repeat' split
  all_goals simp
@[simp] theorem announce_tiles (x : Fid) (b : Nat) (s : State) : (announce x b s).tiles = s.tiles := by
  unfold announce freezeOnFault frzRequest; simp only []; repeat' split
  all_goals simp
@[simp] theorem announce_shuttle (x : Fid) (b : Nat) (s : State) : (announce x b s).shuttle = s.shuttle := by
  unfold announce freezeOnFault frzRequest; simp only []; repeat' split
  all_goals simp
@[simp] theorem announce_peat (x : Fid) (b : Nat) (s : State) : (announce x b s).peat = s.peat := by
  unfold announce freezeOnFault frzRequest; simp only []; repeat' split
  all_goals simp
@[simp] theorem announce_lanes (x : Fid) (b : Nat) (s : State) : (announce x b s).lanes = s.lanes := by
  unfold announce freezeOnFault frzRequest; simp only []; repeat' split
  all_goals simp
@[simp] theorem announce_fabric (x : Fid) (b : Nat) (s : State) : (announce x b s).fabric = s.fabric := by
  unfold announce freezeOnFault frzRequest; simp only []; repeat' split
  all_goals simp
@[simp] theorem announce_ports (x : Fid) (b : Nat) (s : State) : (announce x b s).ports = s.ports := by
  unfold announce freezeOnFault frzRequest; simp only []; repeat' split
  all_goals simp
@[simp] theorem announce_loopback (x : Fid) (b : Nat) (s : State) : (announce x b s).loopback = s.loopback := by
  unfold announce freezeOnFault frzRequest; simp only []; repeat' split
  all_goals simp
@[simp] theorem announce_nextTid (x : Fid) (b : Nat) (s : State) : (announce x b s).nextTid = s.nextTid := by
  unfold announce freezeOnFault frzRequest; simp only []; repeat' split
  all_goals simp
@[simp] theorem announce_remote (x : Fid) (b : Nat) (s : State) : (announce x b s).remote = s.remote := by
  unfold announce freezeOnFault frzRequest; simp only []; repeat' split
  all_goals simp
@[simp] theorem announce_paceFrom (x : Fid) (b : Nat) (s : State) : (announce x b s).paceFrom = s.paceFrom := by
  unfold announce freezeOnFault frzRequest; simp only []; repeat' split
  all_goals simp
@[simp] theorem announce_chans (x : Fid) (b : Nat) (s : State) : (announce x b s).chans = s.chans := by
  unfold announce freezeOnFault frzRequest; simp only []; repeat' split
  all_goals simp
@[simp] theorem announce_axes (x : Fid) (b : Nat) (s : State) : (announce x b s).axes = s.axes := by
  unfold announce freezeOnFault frzRequest; simp only []; repeat' split
  all_goals simp
@[simp] theorem announce_trd (x : Fid) (b : Nat) (s : State) : (announce x b s).trd = s.trd := by
  unfold announce freezeOnFault frzRequest; simp only []; repeat' split
  all_goals simp
@[simp] theorem announce_fbk (x : Fid) (b : Nat) (s : State) : (announce x b s).fbk = s.fbk := by
  unfold announce freezeOnFault frzRequest; simp only []; repeat' split
  all_goals simp
@[simp] theorem announce_cc (x : Fid) (b : Nat) (s : State) : (announce x b s).cc = s.cc := by
  unfold announce freezeOnFault frzRequest; simp only []; repeat' split
  all_goals simp
@[simp] theorem announce_can (x : Fid) (b : Nat) (s : State) : (announce x b s).can = s.can := by
  unfold announce freezeOnFault frzRequest; simp only []; repeat' split
  all_goals simp
@[simp] theorem announce_dsp (x : Fid) (b : Nat) (s : State) : (announce x b s).dsp = s.dsp := by
  unfold announce freezeOnFault frzRequest; simp only []; repeat' split
  all_goals simp
@[simp] theorem announce_power (x : Fid) (b : Nat) (s : State) : (announce x b s).power = s.power := by
  unfold announce freezeOnFault frzRequest; simp only []; repeat' split
  all_goals simp
@[simp] theorem announce_parts (x : Fid) (b : Nat) (s : State) : (announce x b s).parts = s.parts := by
  unfold announce freezeOnFault frzRequest; simp only []; repeat' split
  all_goals simp
@[simp] theorem announce_free (x : Fid) (b : Nat) (s : State) : (announce x b s).free = s.free := by
  unfold announce freezeOnFault frzRequest; simp only []; repeat' split
  all_goals simp

/-! ### OUTPUT on an axis -/
@[simp] theorem raiseOutput_pending (a : Fin 32) (w : Nat) (s : State) : (raiseOutput a w s).pending = s.pending := by
  unfold raiseOutput; simp only []; repeat' split
  all_goals simp
@[simp] theorem raiseOutput_time (a : Fin 32) (w : Nat) (s : State) : (raiseOutput a w s).time = s.time := by
  unfold raiseOutput; simp only []; repeat' split
  all_goals simp
@[simp] theorem raiseOutput_island (a : Fin 32) (w : Nat) (s : State) : (raiseOutput a w s).island = s.island := by
  unfold raiseOutput; simp only []; repeat' split
  all_goals simp
@[simp] theorem raiseOutput_loader (a : Fin 32) (w : Nat) (s : State) : (raiseOutput a w s).loader = s.loader := by
  unfold raiseOutput; simp only []; repeat' split
  all_goals simp
@[simp] theorem raiseOutput_tap (a : Fin 32) (w : Nat) (s : State) : (raiseOutput a w s).tap = s.tap := by
  unfold raiseOutput; simp only []; repeat' split
  all_goals simp
@[simp] theorem raiseOutput_pins (a : Fin 32) (w : Nat) (s : State) : (raiseOutput a w s).pins = s.pins := by
  unfold raiseOutput; simp only []; repeat' split
  all_goals simp
@[simp] theorem raiseOutput_pinsUp (a : Fin 32) (w : Nat) (s : State) : (raiseOutput a w s).pinsUp = s.pinsUp := by
  unfold raiseOutput; simp only []; repeat' split
  all_goals simp
@[simp] theorem raiseOutput_hstop (a : Fin 32) (w : Nat) (s : State) : (raiseOutput a w s).hstop = s.hstop := by
  unfold raiseOutput; simp only []; repeat' split
  all_goals simp
@[simp] theorem raiseOutput_hstopOn (a : Fin 32) (w : Nat) (s : State) : (raiseOutput a w s).hstopOn = s.hstopOn := by
  unfold raiseOutput; simp only []; repeat' split
  all_goals simp
@[simp] theorem raiseOutput_dispatched (a : Fin 32) (w : Nat) (s : State) : (raiseOutput a w s).dispatched = s.dispatched := by
  unfold raiseOutput; simp only []; repeat' split
  all_goals simp
@[simp] theorem raiseOutput_tsc (a : Fin 32) (w : Nat) (s : State) : (raiseOutput a w s).tsc = s.tsc := by
  unfold raiseOutput; simp only []; repeat' split
  all_goals simp
@[simp] theorem raiseOutput_scrub (a : Fin 32) (w : Nat) (s : State) : (raiseOutput a w s).scrub = s.scrub := by
  unfold raiseOutput; simp only []; repeat' split
  all_goals simp
@[simp] theorem raiseOutput_aplic (a : Fin 32) (w : Nat) (s : State) : (raiseOutput a w s).aplic = s.aplic := by
  unfold raiseOutput; simp only []; repeat' split
  all_goals simp
@[simp] theorem raiseOutput_srcLevel (a : Fin 32) (w : Nat) (s : State) : (raiseOutput a w s).srcLevel = s.srcLevel := by
  unfold raiseOutput; simp only []; repeat' split
  all_goals simp
@[simp] theorem raiseOutput_fwver (a : Fin 32) (w : Nat) (s : State) : (raiseOutput a w s).fwver = s.fwver := by
  unfold raiseOutput; simp only []; repeat' split
  all_goals simp
@[simp] theorem raiseOutput_rports (a : Fin 32) (w : Nat) (s : State) : (raiseOutput a w s).rports = s.rports := by
  unfold raiseOutput; simp only []; repeat' split
  all_goals simp
@[simp] theorem raiseOutput_clusterHeld (a : Fin 32) (w : Nat) (s : State) : (raiseOutput a w s).clusterHeld = s.clusterHeld := by
  unfold raiseOutput; simp only []; repeat' split
  all_goals simp
@[simp] theorem raiseOutput_clusterStop (a : Fin 32) (w : Nat) (s : State) : (raiseOutput a w s).clusterStop = s.clusterStop := by
  unfold raiseOutput; simp only []; repeat' split
  all_goals simp
@[simp] theorem raiseOutput_tiles (a : Fin 32) (w : Nat) (s : State) : (raiseOutput a w s).tiles = s.tiles := by
  unfold raiseOutput; simp only []; repeat' split
  all_goals simp
@[simp] theorem raiseOutput_shuttle (a : Fin 32) (w : Nat) (s : State) : (raiseOutput a w s).shuttle = s.shuttle := by
  unfold raiseOutput; simp only []; repeat' split
  all_goals simp
@[simp] theorem raiseOutput_peat (a : Fin 32) (w : Nat) (s : State) : (raiseOutput a w s).peat = s.peat := by
  unfold raiseOutput; simp only []; repeat' split
  all_goals simp
@[simp] theorem raiseOutput_lanes (a : Fin 32) (w : Nat) (s : State) : (raiseOutput a w s).lanes = s.lanes := by
  unfold raiseOutput; simp only []; repeat' split
  all_goals simp
@[simp] theorem raiseOutput_fabric (a : Fin 32) (w : Nat) (s : State) : (raiseOutput a w s).fabric = s.fabric := by
  unfold raiseOutput; simp only []; repeat' split
  all_goals simp
@[simp] theorem raiseOutput_ports (a : Fin 32) (w : Nat) (s : State) : (raiseOutput a w s).ports = s.ports := by
  unfold raiseOutput; simp only []; repeat' split
  all_goals simp
@[simp] theorem raiseOutput_loopback (a : Fin 32) (w : Nat) (s : State) : (raiseOutput a w s).loopback = s.loopback := by
  unfold raiseOutput; simp only []; repeat' split
  all_goals simp
@[simp] theorem raiseOutput_nextTid (a : Fin 32) (w : Nat) (s : State) : (raiseOutput a w s).nextTid = s.nextTid := by
  unfold raiseOutput; simp only []; repeat' split
  all_goals simp
@[simp] theorem raiseOutput_remote (a : Fin 32) (w : Nat) (s : State) : (raiseOutput a w s).remote = s.remote := by
  unfold raiseOutput; simp only []; repeat' split
  all_goals simp
@[simp] theorem raiseOutput_paceFrom (a : Fin 32) (w : Nat) (s : State) : (raiseOutput a w s).paceFrom = s.paceFrom := by
  unfold raiseOutput; simp only []; repeat' split
  all_goals simp
@[simp] theorem raiseOutput_chans (a : Fin 32) (w : Nat) (s : State) : (raiseOutput a w s).chans = s.chans := by
  unfold raiseOutput; simp only []; repeat' split
  all_goals simp
@[simp] theorem raiseOutput_trd (a : Fin 32) (w : Nat) (s : State) : (raiseOutput a w s).trd = s.trd := by
  unfold raiseOutput; simp only []; repeat' split
  all_goals simp
@[simp] theorem raiseOutput_fbk (a : Fin 32) (w : Nat) (s : State) : (raiseOutput a w s).fbk = s.fbk := by
  unfold raiseOutput; simp only []; repeat' split
  all_goals simp
@[simp] theorem raiseOutput_cc (a : Fin 32) (w : Nat) (s : State) : (raiseOutput a w s).cc = s.cc := by
  unfold raiseOutput; simp only []; repeat' split
  all_goals simp
@[simp] theorem raiseOutput_can (a : Fin 32) (w : Nat) (s : State) : (raiseOutput a w s).can = s.can := by
  unfold raiseOutput; simp only []; repeat' split
  all_goals simp
@[simp] theorem raiseOutput_dsp (a : Fin 32) (w : Nat) (s : State) : (raiseOutput a w s).dsp = s.dsp := by
  unfold raiseOutput; simp only []; repeat' split
  all_goals simp
@[simp] theorem raiseOutput_power (a : Fin 32) (w : Nat) (s : State) : (raiseOutput a w s).power = s.power := by
  unfold raiseOutput; simp only []; repeat' split
  all_goals simp
@[simp] theorem raiseOutput_parts (a : Fin 32) (w : Nat) (s : State) : (raiseOutput a w s).parts = s.parts := by
  unfold raiseOutput; simp only []; repeat' split
  all_goals simp
@[simp] theorem raiseOutput_free (a : Fin 32) (w : Nat) (s : State) : (raiseOutput a w s).free = s.free := by
  unfold raiseOutput; simp only []; repeat' split
  all_goals simp


end Sys2Proof.Machine
end

