-- ==== Sys2Proof/Laws/Memory.lean ====
section
/-! SUPPORT. Memory: the canonical form is kept by every memory operation, and a read sees what the last write put there. -/
namespace Sys2Proof.Machine

variable {α : Type} [DecidableEq α]

/-! ### Sparse tables -/

theorem spWfFrom_mono (d : α) : ∀ (m : List (Nat × α)) (lo lo' : Nat), lo' ≤ lo → spWfFrom d lo m = true →
    spWfFrom d lo' m = true
  | [], _, _, _, _ => rfl
  | (k, v) :: m, lo, lo', h, w => by
    simp only [spWfFrom, Bool.and_eq_true, decide_eq_true_eq] at *
    exact ⟨⟨by omega, w.1.2⟩, w.2⟩

theorem spPut_wfFrom (d : α) (i : Nat) (v : α) : ∀ (m : List (Nat × α)) (lo : Nat), lo ≤ i → spWfFrom d lo m = true →
    spWfFrom d lo (spPut d m i v) = true
  | [], lo, h, _ => by
    unfold spPut
    split
    · rfl
    · simp_all [spWfFrom]
  | (k, u) :: m, lo, h, w => by
    simp only [spWfFrom, Bool.and_eq_true, decide_eq_true_eq] at w
    unfold spPut
    split
    · split
      · simpa [spWfFrom] using w
      · rename_i hk hv
        simp only [spWfFrom, Bool.and_eq_true, decide_eq_true_eq]
        exact ⟨⟨h, hv⟩, ⟨by omega, w.1.2⟩, w.2⟩
    · split
      · split
        · exact spWfFrom_mono d m (k + 1) lo (by omega) w.2
        · rename_i hv
          simp only [spWfFrom, Bool.and_eq_true, decide_eq_true_eq]
          subst_vars
          exact ⟨⟨h, hv⟩, w.2⟩
      · simp only [spWfFrom, Bool.and_eq_true, decide_eq_true_eq]
        exact ⟨w.1, spPut_wfFrom d i v m (k + 1) (by omega) w.2⟩

/-- A write keeps a sparse table's canonical form. -/
theorem spPut_wf (d : α) (m : List (Nat × α)) (i : Nat) (v : α) (w : spWf d m = true) : spWf d (spPut d m i v) = true :=
  spPut_wfFrom d i v m 0 (Nat.zero_le i) w

theorem spGet_below (d : α) (i : Nat) : ∀ (m : List (Nat × α)) (lo : Nat), i < lo → spWfFrom d lo m = true → spGet d m i = d
  | [], _, _, _ => rfl
  | (k, v) :: m, lo, h, w => by
    simp only [spWfFrom, Bool.and_eq_true, decide_eq_true_eq] at w
    have hk : k ≠ i := by omega
    simpa [spGet, hk] using spGet_below d i m (k + 1) (by omega) w.2

theorem spGet_spPut_from (d : α) (i : Nat) (v : α) : ∀ (m : List (Nat × α)) (lo : Nat), spWfFrom d lo m = true →
    spGet d (spPut d m i v) i = v
  | [], _, _ => by
    unfold spPut
    split
    · next h => exact h.symm
    · simp [spGet]
  | (k, u) :: m, lo, w => by
    simp only [spWfFrom, Bool.and_eq_true, decide_eq_true_eq] at w
    unfold spPut
    split
    · next h =>
      have hk : k ≠ i := by omega
      split
      · next hv =>
        simp only [spGet, hk, if_false]
        rw [spGet_below d i m (k + 1) (by omega) w.2, hv]
      · simp [spGet]
    · split
      · split
        · next hv =>
          subst_vars
          exact spGet_below _ _ m _ (by omega) w.2
        · simp [spGet]
      · next h1 h2 =>
        have hk : k ≠ i := fun e => h2 e.symm
        simp only [spGet, hk, if_false]
        exact spGet_spPut_from d i v m (k + 1) w.2

/-- A read after a write to the same place gives the value written. -/
theorem spGet_spPut_same (d : α) (m : List (Nat × α)) (i : Nat) (v : α) (w : spWf d m = true) :
    spGet d (spPut d m i v) i = v := spGet_spPut_from d i v m 0 w

/-- A write leaves every other place alone. -/
theorem spGet_spPut_other (d : α) (i j : Nat) (v : α) (h : j ≠ i) : ∀ m : List (Nat × α),
    spGet d (spPut d m i v) j = spGet d m j
  | [] => by
    unfold spPut
    split
    · rfl
    · simp [spGet, h.symm]
  | (k, u) :: m => by
    unfold spPut
    split
    · split
      · rfl
      · simp [spGet, h.symm]
    · split
      · next hik =>
        subst hik
        split <;> simp [spGet, h.symm]
      · simp only [spGet]
        rw [spGet_spPut_other d i j v h m]

/-! ### Memory -/

theorem memPut_wf : ∀ (bs : List Byte) (m : List Host.Cell) (a : Nat), memWf m = true → memWf (memPut m a bs) = true
  | [], _, _, w => w
  | b :: bs, m, a, w => memPut_wf bs (spPut 0 m a b) (a + 1) (spPut_wf 0 m a b w)

/-- Bytes outside a write read as before. -/
theorem memPut_other (x : Nat) : ∀ (bs : List Byte) (m : List Host.Cell) (a : Nat), (x < a ∨ a + bs.length ≤ x) →
    spGet 0 (memPut m a bs) x = spGet 0 m x
  | [], _, _, _ => rfl
  | b :: bs, m, a, h => by
    rw [memPut, memPut_other x bs _ (a + 1) (by simp at h ⊢; omega)]
    exact spGet_spPut_other 0 a x b (by simp at h; omega) m

/-- Bytes of a write read as written. -/
theorem memPut_same : ∀ (bs : List Byte) (m : List Host.Cell) (a i : Nat) (h : i < bs.length), memWf m = true →
    spGet 0 (memPut m a bs) (a + i) = bs[i]
  | b :: bs, m, a, 0, _, w => by
    rw [memPut, memPut_other _ bs _ (a + 1) (by omega)]
    exact spGet_spPut_same 0 m a b w
  | b :: bs, m, a, i + 1, h, w => by
    have := memPut_same bs (spPut 0 m a b) (a + 1) i (by simpa using h) (spPut_wf 0 m a b w)
    rw [memPut, show a + (i + 1) = a + 1 + i by omega, this]
    simp

/-- putRaw keeps memory's canonical form. -/
theorem putRaw_wf (s : State) (a : Nat) (bs : List Byte) (w : memWf s.mem = true) : memWf (putRaw s a bs).mem = true :=
  memPut_wf bs s.mem a w
/-- wrBytes keeps memory's canonical form. -/
theorem wrBytes_wf (s : State) (a : Nat) (bs : List Byte) (w : memWf s.mem = true) : memWf (wrBytes s a bs).mem = true :=
  memPut_wf bs s.mem a w
theorem wrLe_wf (s : State) (a n v : Nat) (w : memWf s.mem = true) : memWf (wrLe s a n v).mem = true := wrBytes_wf s a _ w

theorem loseBytes_fold_wf (f : Nat → Bool) : ∀ (l : List Host.Cell) (r : List Host.Cell × Nat), memWf r.1 = true →
    memWf (l.foldl (fun (r : List Host.Cell × Nat) c =>
      if f c.1 then (spPut 0 r.1 c.1 ((Config.freeWord r.2).setWidth 8), r.2 + 1)
      else (spPut 0 r.1 c.1 c.2, r.2)) r).1 = true
  | [], _, w => w
  | c :: l, r, w => by
    rw [List.foldl_cons]
    refine loseBytes_fold_wf f l _ ?_
    split <;> exact spPut_wf 0 r.1 c.1 _ w
/-- Losing bytes keeps memory's canonical form. -/
theorem loseBytes_wf (f : Nat → Bool) (s : State) : memWf (loseBytes f s).mem = true := by
  unfold loseBytes
  exact loseBytes_fold_wf f s.mem ([], s.free) rfl

/-- A byte outside a write reads as before. -/
theorem rdByte_wrBytes_other (s : State) (a x : Nat) (bs : List Byte) (h : x < a ∨ a + bs.length ≤ x) :
    rdByte (wrBytes s a bs) x = rdByte s x := memPut_other x bs s.mem a h
/-- A byte of a write reads as written. -/
theorem rdByte_wrBytes_same (s : State) (a i : Nat) (bs : List Byte) (h : i < bs.length) (w : memWf s.mem = true) :
    rdByte (wrBytes s a bs) (a + i) = bs[i] := memPut_same bs s.mem a i h w

/-- Memory after reset has the canonical form. -/
theorem reset_memWf : memWf State.reset.mem = true := rfl

end Sys2Proof.Machine
end

