-- ==== Sys2Proof/Machine/BallOut.lean ====
section
/-! DEFINITION. What the configurable output balls show (spec/19, 19.5): R423, Table 19.6, Table 11.3, R424 to R426. A
value derived from State, as a meter at the ball would see it. -/
namespace Sys2Proof.Machine

/-- What an output ball shows. -/
inductive BallOut
  | highZ
  | level (high : Bool)
  /-- Pulses of `on` TQ that rise at these offsets, in TQ, within each `period`: of a PWM period from the counter's valley,
  or of a position period from its tick (R250, R251). -/
  | pulses (on : Nat) (rises : List Nat) (period : Nat)
  /-- The waveform of its function: the modulator clock (R249), an SSI clock. -/
  | wave
deriving DecidableEq, Repr

/-- SAFE of a pin entry: a level at the ball, or high-impedance (R422, Table 2.5). -/
def PinCfg.safeOut (c : PinCfg) : BallOut := if c.safe = 1 then .level false else if c.safe = 2 then .level true else .highZ
/-- A function level, INVERT applied. -/
def PinCfg.funcOut (c : PinCfg) (high : Bool) : BallOut := .level (high != c.invert)
/-- A gate of a phase whose high side has a share of h TQ in a period of P TQ (R250): each side is on for its share less
DEAD, its turn-on delayed by DEAD, and a share of DEAD or less gives no pulse. The high side's share is centred on the
counter's peak; where P − h is odd, the half TQ falls before it (log 76). INVERT turns a pulse into its complement, which
`pulses` states at function level. -/
def gateOut (c : PinCfg) (r : AxisRec) (high : Bool) (h : Nat) : BallOut :=
  let p := 40 * r.pwmPer.toNat
  let dead := r.dead.toNat
  let share := if high then h else p - h
  let start := if high then (p - h) / 2 else (p - h) / 2 + h
  if share ≤ dead then c.funcOut false else .pulses (share - dead) [(start + dead) % p] p
/-- Step pulses of a MOTOR 3 axis: q of DEAD TQ in a position period (R250, R251). -/
def stepOut (c : PinCfg) (r : AxisRec) (x : Axis) : BallOut :=
  let p := 40 * r.posDiv.toNat
  if x.stepQ = 0 then c.funcOut false
  else .pulses r.dead.toNat ((List.range x.stepQ).map fun k => r.dead.toNat + k * p / x.stepQ) p
/-- The gate under the axis's present shares. -/
def shareOut (c : PinCfg) (r : AxisRec) (x : Axis) (leg : Nat) : BallOut :=
  gateOut c r (leg % 2 = 0) (vget x.share (mkFin 3 (by omega) (leg / 2)))
/-- Outputs that a motor type does not use stay at their SAFE level: of MOTOR 3, all but U_H and V_H (R238). -/
def legUsed (r : AxisRec) (leg : Nat) : Bool := r.motor ≠ 3 || leg = 0 || leg = 2
/-- The SAFE_STATE pattern at gate `leg` (U_H, U_L, V_H, V_L, W_H, W_L), INVERT applied (Table 11.3). -/
def patternOut (s : State) (x : Axis) (leg : Nat) (c : PinCfg) : BallOut :=
  match x.rec_ with
  | none => c.safeOut
  | some r =>
    if !legUsed r leg then c.safeOut
    else if r.safeState = 1 then c.funcOut (leg % 2 = 1)
    else if r.safeState = 2 && (match x.safeHold with | some t => decide (s.time.it < t) | none => false) then
      (if r.motor = 3 then c.funcOut (leg = 2 && x.stepDir) else shareOut c r x leg)
    else c.funcOut false
/-- The gates of an axis by its state and MOTOR (Tables 11.2 and 11.3). -/
def pwmOut (s : State) (x : Axis) (leg : Nat) (c : PinCfg) : BallOut :=
  match x.st with
  | .held => c.safeOut
  | .disabled | .safe =>
    match x.pwmTest, x.rec_ with
    | some (ph, duty), some r =>
      if leg / 2 = ph.val then gateOut c r (leg % 2 = 0) (divRne (40 * r.pwmPer.toNat * duty : Nat) 100).toNat
      else patternOut s x leg c
    | _, _ => patternOut s x leg c
  | .enabled | .stopping =>
    match x.rec_ with
    | none => c.safeOut
    | some r =>
      if !legUsed r leg then c.safeOut
      else if r.motor = 3 then (if leg = 0 then stepOut c r x else c.funcOut x.stepDir)
      else if r.motor = 2 && leg / 2 = 2 then c.funcOut false
      else shareOut c r x leg
/-- CANk_TX of a controller on the bus: recessive in loopback and with nothing to send, else the present bit of its attempt
(R326), or the six dominant bits of an active error flag (R318, R319). What a receiver drives in the ACK slot has passed
before FRAME_RECEIVED says that the frame is valid: no state shows it (log 33). -/
def canLevel (s : State) (k : Fin 4) : Bool :=
  let c := vget s.can k
  let since := fun (t : Time) => (s.time.it - t).toNat
  if c.loop || c.listen then true
  else match c.tx with
    | some (j, _) =>
      let f := { moFrame (vget c.mo j) with esi := c.st = .passive && (vget c.mo j).fdf }
      levelAt c.nbt c.dbt (canBits f) (since c.sofAt)
    | none => match c.flag with
      | some g => !(g.active && decide (since g.start < 6 * bitTq c.nbt c.dbt .nominal))
      | none => true
/-- What a ball's function drives: its SAFE level while the function is held, fenced or not yet driving (Table 19.6). -/
def functionOut (s : State) (g : Signal) (c : PinCfg) : BallOut :=
  match g with
  | .pwm a leg => pwmOut s (vget s.axes (mkFin 32 (by omega) a)) leg c
  | .sdclk e =>
    let e := mkFin 8 (by omega) e
    if engineWorks s e && (engineAxes e).any fun a => (partOf s (axFid a)).isSome then .wave else c.safeOut
  | .pcmp n =>
    let m := vget s.cc.cmp (mkFin 16 (by omega) n)
    if !ccWorks s then c.safeOut else if m.test then .wave else if m.en then c.funcOut m.high else c.safeOut
  | .can k _ =>
    let k := mkFin 4 (by omega) k
    let m := vget s.can k
    if !canWorks s k then c.safeOut
    else if canOnBus s k then c.funcOut (canLevel s k) else c.funcOut true
  | .fbk n _ =>
    let n := mkFin 40 (by omega) n
    if !fbkWorks s n then c.safeOut else if (vget s.fbk n).ssiRun.isSome then .wave else c.funcOut true
  | .perst q =>
    let q := mkFin 8 (by omega) q
    if isFenced s (rpFid q) then c.safeOut
    else if s.island.mode = .full && (vget s.rports q).exists_ then c.funcOut true else .level false
  | _ => .highZ
/-- A start, a drop of rails or a failure drives a configured output to its SAFE level, or leaves it high-impedance
until the pin stage of a cold start; none where the function drives it (R423, R424, Table 19.6). -/
def startOut (s : State) (c : PinCfg) : Option BallOut :=
  match s.island.start with
  | some r => match r.kind with
    | .cold | .extended => some .highZ
    | .warm => some c.safeOut
    | .raise => if r.failed.isSome then some c.safeOut else none
  | none => match s.island.seqr with
    | .dropping _ _ _ | .disorderly _ _ => some c.safeOut
    | _ => none
/-- What the configurable output with a signal index shows; none where the ball is no configurable output. -/
def ballOut (s : State) (i : Nat) : Option BallOut :=
  match signalOf i with
  | none => none
  | some g =>
    match (s.pins.find? (·.1 = i)).map (·.2) with
    | none => if g.output 0 then some .highZ else none
    | some c =>
      if !g.output c.func.toNat then none
      else if !(vsvoGood s) || !s.pinsUp || c.func = 0 || (match g.owner with | some f => (partOf s f).isNone | none => false) then
        some .highZ
      else if tapUp s && !s.tap.reset && (s.tap.instr = .extest || s.tap.instr = .clamp) then
        some (.level (spGet false s.tap.boundary i))
      else if tapUp s && !s.tap.reset && s.tap.instr = .highz then some .highZ
      else some ((startOut s c).getD (functionOut s g c))
/-- The steady level at a configurable output: what drives it, else what the board's pull holds; none for a waveform or a
ball without a pull (R423, R427, Table 19.9). -/
def ballLevel (s : State) (i : Nat) : Option Bool :=
  match signalOf i, ballOut s i with
  | some _, some (.level b) => some b
  | some g, some .highZ => g.pull (match (s.pins.find? (·.1 = i)).map (·.2) with | some c => c.invert | none => false)
  | _, _ => none
/-- DDRch_RESET_N: high-impedance until step 7 of a start begins, then low until the DIMMs are initialised (R426). -/
def ddrResetOut (s : State) : BallOut :=
  if s.island.trained then .level true
  else match s.island.start with
    | some r => if 7 ≤ r.step && r.failed.isNone then .level false else .highZ
    | none => .highZ
/-- The enable of sequenced rail n at SEQ_ENn: island outputs are high-impedance while the island is unpowered (R423). -/
def seqEnOut (s : State) (n : Fin 14) : BallOut :=
  if s.island.vaon then .level (s.island.enabled.getLsbD n) else .highZ

end Sys2Proof.Machine
end

