-- ==== Sys2Proof/Tests/Slice0.lean ====
section
/-! SUPPORT. Tests of the model: small states, the spec's worked examples, ill-formed commands, and for every obligation with
hypotheses one theorem `met_<its name>` that shows states and operands meeting them. -/
set_option autoImplicit false
set_option maxRecDepth 100000
set_option Elab.async false
namespace Sys2Proof.Tests
open Sys2Proof Sys2Proof.Machine

/-! ### Small states -/

/-- A partition that names every resource. -/
def whole : Part := { assigned := true, tiles := BitVec.allOnes 64, cores := BitVec.allOnes 48, shuttle := 0xFFFF, axes := 0xFFFFFFFF, treadle := 0xFF, units := 0xFF, rports := 0xFF, clusters := 0xF, fbk := BitVec.allOnes 40, peat := 0xFF, grh := 0xFFFF }
/-- A region over DDR5 and stacked DRAM: X, R, W, PCIE, ENGINE, coherent, for P0. -/
def region : RatEntry := { valid := true, base := 0, limit := 0x12FFFFFF, attr := 0xFC, access := 1 }
def axisRec : AxisRec := { mode := 3, motor := 2, fbkA := 0, fbkB := 0xFF, curDiv := 1000, velDiv := 2000, posDiv := 4000, pwmPer := 2000, sdiBase := 0, lawC := 0, lawV := 1, lawP := 2, lane := 0xFF, posLane := false, safeState := 0, hstop := 1, dead := 10 }
def dspRec : DspRec := { lanes := 4, rate := 1, hact := 64, vact := 64, pclk := 1, sigmask := 0xFF, sigreact := 1 }
/-- Full mode, everything released and owned by P0. -/
def live : State :=
  { State.reset with
    island := { vaon := true, mode := .full, enabled := 0x3FFF, good := 0x3FFF, pll := true, ddrSize := 2 ^ 37, trained := true, everFull := true }
    time := { it := 400000 }
    hstop := 0
    hstopOn := 0xF
    store := { fw0 := .empty }
    rat := { entries := vset (vrep 64 {}) 0 region }
    cores := vrep 48 { held := false, released := true }
    clusterHeld := 0
    tiles := vrep 64 { held := false, gate := 1 }
    shuttle := vrep 16 { held := false }
    rports := vrep 8 { exists_ := true, up := true, lanes := 4, width := 4, rate := 4 }
    ports := vrep 16 { st := .up }
    axes := vrep 32 { rec_ := some axisRec, st := .disabled }
    trd := vrep 8 { held := false }
    fbk := vrep 40 { held := false, mode := 1, good := true }
    cc := { held := false }
    can := vrep 4 { held := false, mode := 2, st := .active }
    dsp := { held := false, rec_ := some dspRec, link := .down }
    parts := vset (vrep 32 {}) 0 whole }

/-- P0's engines may store in all of stacked DRAM. -/
theorem live_stores {s : State} (hr : s.rat.entries = live.rat.entries) (hi : s.island = live.island) {b : Nat}
    (h1 : 0x10000000000 ≤ b) (h2 : b < 0x13000000000) : isDram s b = true ∧ ratCheck s 0 b .store .engine = none := by
  have hc : addrClass b = .stack ⟨(b - 0x10000000000) / 0x600000000 % 8, Nat.mod_lt _ (by decide)⟩ := by
    unfold addrClass; rw [if_neg (by omega), if_pos h2]
  have hf : ratFind s b = some region := by
    unfold ratFind
    rw [hr, (by decide +kernel : live.rat.entries.toList = region :: live.rat.entries.toList.tail)]
    refine List.find?_cons_of_pos ?_
    simp only [RatEntry.covers, region, Bool.and_eq_true]
    exact ⟨⟨trivial, decide_eq_true (Nat.zero_le _)⟩, decide_eq_true (show b / 4096 ≤ 0x12FFFFFF by omega)⟩
  refine ⟨by simp [isDram, hc], ?_⟩
  unfold ratCheck
  rw [hc, hf]
  simp only [stackUp, hi]
  decide +kernel

def plan : List Byte := [87, 82, 80, 76, 1, 0, 64, 0, 176, 0, 0, 0, 0, 0, 0, 0, 6, 0, 0, 0, 0, 0, 0, 0, 9, 0, 176, 0, 0, 0, 0, 0, 0, 0, 0, 0, 0, 0, 0, 0, 0, 0, 0, 0, 0, 0, 0, 0, 0, 0, 0, 0, 0, 0, 0, 0, 0, 0, 0, 0, 0, 0, 0, 0, 87, 83, 73, 71, 64, 0, 0, 0, 0, 0, 0, 0, 0, 0, 0, 0, 24, 62, 170, 193, 204, 229, 105, 16, 157, 189, 59, 107, 74, 101, 77, 48, 48, 166, 225, 193, 74, 166, 137, 126, 52, 254, 104, 105, 61, 176, 75, 133, 108, 15, 124, 192, 100, 103, 195, 58, 47, 103, 170, 219, 205, 106, 178, 174, 24, 62, 170, 193, 204, 229, 105, 16, 157, 189, 59, 107, 74, 101, 77, 48, 48, 166, 225, 193, 74, 166, 137, 126, 52, 254, 104, 105, 61, 176, 75, 133, 108, 15, 124, 192, 100, 103, 195, 58, 47, 103, 170, 219, 205, 106, 178, 174]
def planKey : BitVec 384 × BitVec 384 := (0x1adb5b94563c52f951afc421d2adeec00d47eb5013208ab0cd6df028ed47db5b43d4afd26e03fab4755086af2595095e, 0x4e138996ffd7a0e0f5aa6af72b8a1293587c07abadd7bfedef5e60b7dca0031cf6ad08b70080474b476eaf41fb442f75)
-- seq 6
def keys0 : Vector (Option (Option (BitVec 384 × BitVec 384))) 4 := vset (vrep 4 none) 0 (some (some planKey))

def lk : State := { live with console := { locked := true } }
def stLog : State := { live with store := { live.store with log := [{ kind := 2 }] } }
def laneOn : State := { live with lanes := vrep 8 { on := true } }
def taken : State := { lk with axes := vset lk.axes 31 { vget lk.axes 31 with taken := true } }

/-- Service-only mode, no rail up. -/
def boot : State := { State.reset with island := { vaon := true, enabled := 0 } }
/-- A start at a step. -/
def startAt (r : StartRun) : State := { State.reset with island := { vaon := true, enabled := 0x3FFF, good := 0x3FFF, start := some r } }
def halted0 : State := { live with queues := vset live.queues 63 { enable := true, cqlog := 4, sqlog := 4, cqbase := 0x40 } }
def disA (st : AxState) : State := { lk with axes := vset lk.axes 31 { vget lk.axes 31 with st := st } }
def hstopA : State := { lk with hstop := 1, hstopOn := 1 }
def lines : State := { live with console := { lost := 3, held := [.lockLapsed] } }
def xferA (k : XferKind) (n : Nat) (e : Bool) : State :=
  { lk with console := { lk.console with xfer := some { kind := k, buf := (List.range n).map fun i => (i, 0), ended := e } } }
def meters : State := { live with console := { mp := vset (vset (vrep 8 .off) 7 (.rail 13)) 6 .temp }, power := { rail := vrep 16 1100, temp := vset (vrep 14 0) 13 0x640 } }
def meterG : State := { live with console := { mp := vset (vrep 8 .off) 7 (.tempGroup 13) }, power := { temp := vset (vrep 14 0) 13 0x640 } }

def run4 : StartRun := { step := 4, kind := .cold, target := 2, group := 8 }
def rail13 : State := { startAt run4 with island := { (startAt run4).island with good := 0x1FFF } }
def run4w : StartRun := { run4 with group := 7, waiting := true }
def runAt (n : BitVec 4) : StartRun := { step := n, kind := .cold, target := 2, group := 8 }
def planned (n : BitVec 4) (k : StartKind) : State :=
  let r : StartRun := { runAt n with kind := k }
  let s := startAt r
  { s with island := { s.island with keys := keys0 }, store := { fw0 := .empty, slotA := .valid plan 6 },
           loader := { active := some 0, plan := plan } }
def vaonOff (m : Marker) (latch : Bool) : State := { State.reset with store := { fw0 := .empty, block := { marker := m, latch := latch }, work := { marker := m, latch := latch } } }
def latched : State := { live with store := { live.store with work := { latch := true } } }
def orderly : State := { live with store := { live.store with work := { marker := .running } } }
def servoOnly : State := { orderly with island := { orderly.island with mode := .servoOnly, enabled := 3, good := 3 } }
/-- Servo-only mode with a cluster that still could write: full is needed for a master, so none writes there. -/
def retrying : State := { boot with island := { boot.island with seqr := .retry, start := some { runAt 0 with target := 2 } }, store := { fw0 := .empty, block := { target := 1 } } }
def graceS : State := { live with island := { live.island with seqr := .grace } }
def dropping (why : DropWhy) (g : Nat) (w : Bool) (en : BitVec 14) : State := { live with island := { live.island with seqr := .dropping why g w, enabled := en } }
def disord : State := { live with island := { live.island with seqr := .disorderly 13 8 } }

/-- An image whose law record has a wrong N; unsigned. -/
def badLaw : List Byte := [87, 82, 80, 76, 1, 0, 64, 0, 232, 0, 0, 0, 1, 0, 0, 0, 7, 0, 0, 0, 0, 0, 0, 0, 9, 0, 176, 0, 0, 0, 0, 0, 0, 0, 0, 0, 0, 0, 0, 0, 0, 0, 0, 0, 0, 0, 0, 0, 0, 0, 0, 0, 0, 0, 0, 0, 0, 0, 0, 0, 0, 0, 0, 0, 7, 31, 56, 0, 0, 0, 0, 0, 0, 0, 5, 0, 0, 0, 0, 0, 0, 0, 0, 0, 0, 0, 0, 0, 0, 0, 0, 0, 0, 0, 0, 0, 0, 0, 0, 0, 0, 0, 0, 0, 0, 0, 0, 0, 0, 0, 0, 0, 0, 0, 0, 0, 0, 0, 0, 0] ++ List.replicate 112 0
def loading (j : WrpJob) (img : List Byte) (seq : BitVec 64) : State :=
  { live with loader := { job := j, active := some 0, plan := plan, seq := 5 }, island := { live.island with keys := keys0 }
              store := { live.store with slotB := .valid img seq } }
def acc (k : AccKind) (a : BitVec 64) (z : BitVec 2) (rd : Fin 32) (fp sg : Bool) : MemAcc :=
  { pc := 0x1000, kind := k, addr := a, size := z, data := 0x1122334455667788, rd := rd, fp := fp, signed := sg }
def memS : State := { live with mem := [(2, 0x80), (7, 0x55), (8, 0x7F)], cores := vset live.cores 0 { vget live.cores 0 with resv := some (8, true), x := vset (vrep 32 5) 0 0 } }
def vel (st : Bool) (a : BitVec 64) : VElem := { idx := 0, store := st, addr := a, size := 0, data := 0x11, vd := 31, elem := 31 }
def cvs : State := { live with cores := vset live.cores 47 { vget live.cores 47 with vstart := 1 } }
def coreIn (c : Core → Core) : State := { live with cores := vset live.cores 47 (c (vget live.cores 47)) }

def pc_ (a n : Nat) : Piece := { va := BitVec.ofNat 64 a, pa := a, len := n, pb := .pma }
/-- 256 bytes of zeros with fields (offset, bytes, value) put in. -/
def fields (len : Nat) (fs : List (Nat × Nat × Nat)) : List Byte :=
  fs.foldl (fun b f => b.take f.1 ++ natLe f.2.1 f.2.2 ++ b.drop (f.1 + f.2.1)) (List.replicate len 0)
/-- A command of slot 0 with an opcode, an inline length, a target and further fields. -/
def cmd (op inl : Nat) (target : Fid) (fs : List (Nat × Nat × Nat)) : Cmd :=
  { slot := 0, bytes := fields 256 ([(0, 2, op), (3, 1, inl), (4, 2, target.toNat)] ++ fs) }
def queue : Queue := { enable := true, sqlog := 4, cqlog := 4, sqbase := 0x10, cqbase := 0x40, nextSeq := 1, evt := true }
def inQueue (q : Queue) : State := { live with queues := vset live.queues 63 q }
def ranWith (c : Cmd) : State := inQueue { queue with disp := [c] }
/-- Every region entry gone: ring accesses are refused. -/
def noRegion (s : State) : State := { s with rat := {} }
def coreP1 : State := { live with parts := vset (vset live.parts 0 { whole with cores := 0x7FFFFFFFFFFF }) 31 { assigned := true, cores := 0x800000000000 } }
def tileWith (t : Tile → Tile) : State := { live with tiles := vset live.tiles 63 (t (vget live.tiles 63)) }

/-- An operator descriptor: OPID, DLEN, operands of 1 × 1 elements at (address, format), further fields. -/
def opd (opid dlen : Nat) (os : List (Nat × Nat)) (fs : List (Nat × Nat × Nat)) : List Byte :=
  fields dlen ([(0, 2, opid), (2, 2, dlen)] ++
    (os.zipIdx.flatMap fun o => [(32 + 32 * o.2, 8, o.1.1), (40 + 32 * o.2, 1, o.1.2), (44 + 32 * o.2, 4, 1), (48 + 32 * o.2, 4, 1), (52 + 32 * o.2, 4, 8)]) ++ fs)
def job (d : List Byte) : OpJob := { origin := (63, 0), desc := d, part := 0, started := true }
/-- Tile 63 at work on a descriptor for a command of queue 63; its scratchpad holds 2.0 at 0 and INT32 0 elsewhere. -/
def atOp (d : List Byte) : State :=
  { live with tiles := vset live.tiles 63 { vget live.tiles 63 with jobs := [job d], gate := 0 }
              queues := vset live.queues 63 { queue with disp := [{ cmd 0x10 0 0x023F [] with st := .running }] }
              mem := [(hostBase 63 + 3, 0x40)] }
def opCmd (inl : Nat) (fs : List (Nat × Nat × Nat)) : Cmd := cmd 0x10 inl 0x023F fs
def laneWith (f : Lane → Lane) : State :=
  { live with lanes := vset live.lanes 7 (f { on := true, tiles := [63], nin := 4, nout := 1, deadline := 1000, axes := [31], period := 4000, layers := [{ nin := 4, nout := 1, act := 0, wofs := 64, bofs := 0 }], model := List.replicate 128 0 }) }
def laneReq : LaneReq := { t0 := 399000, input := [0, 0, 0, 0] }
def shuttleCmd (inl : Nat) (fs : List (Nat × Nat × Nat)) : Cmd := cmd 0x20 inl 0x030F fs
def sd (ctrl len src dst : Nat) (fs : List (Nat × Nat × Nat)) : List Byte := fields 64 ([(0, 2, ctrl), (4, 4, len), (8, 8, src), (16, 8, dst)] ++ fs)
def chain (ds : List (List Byte)) : Chain := { origin := (63, 0), inline := ds }
/-- Channel 7 of group 15 at work on a chain of a command of queue 63. -/
def atChain (c : Chain) : State :=
  { (ranWith { shuttleCmd 0 [] with st := .running }) with
    shuttle := vset live.shuttle 15 { held := false, ch := vset (vrep 8 {}) 7 { running := some c } }
    mem := [(9, 0x77), (15, 0x33)] }
def withEng (f : PeatEngine → PeatEngine) (s : State) : State := s.modEng 7 31 f
def eng (e : PeatEngine) : State := withEng (fun _ => e) live
def pcmd (fs : List (Nat × Nat × Nat)) : Cmd := cmd 0x30 0 0x0407 fs
def mine : PeatEngine := { claimed := true, owner := 0 }
def prun (opc : BitVec 8) (base len : Nat) : PeatRun := { why := .trig, opc := opc, tag := 5, base := base, len := len }

def dNop : List Byte := opd 0 32 [] [(16, 8, 64), (24, 8, 7)]
def dAct : List Byte := opd 0x11 128 [(0, 0), (8, 0)] []
def dCvt : List Byte := opd 0x30 128 [(0, 0), (8, 1)] [(16, 8, 64), (24, 8, 7)]
def dElt : List Byte := opd 0x10 160 [(0, 0), (0, 0), (8, 0)] []
def dRed : List Byte := opd 0x20 128 [(0, 0), (8, 0)] []
def dSmx : List Byte := opd 0x21 128 [(0, 0), (8, 0)] []
def dNorm : List Byte := opd 0x22 192 [(0, 0), (0, 0), (0, 0), (8, 0)] []
def dGemm : List Byte := opd 1 192 [(0, 0), (0, 0), (0, 0xFF), (8, 0)] [(160, 4, 0x3F800000)]
def dBias : List Byte := opd 1 192 [(0, 0), (0, 0), (0, 0), (8, 0)] [(160, 4, 0x3F800000), (176, 8, 64)]
def dGth : List Byte := opd 0x40 160 [(0, 0), (16, 6), (8, 0)] [(128, 4, 1)]
def dGthBad : List Byte := opd 0x40 160 [(0, 0), (16, 6), (8, 0)] []
/-- The operand 2.0 as the tiles read it. -/
def two : List (List FV) := [[.fin { neg := false, m := 8388608, e := -22 }]]
def zero : List (List FV) := [[.fin { neg := false, m := 0, e := 0 }]]
theorem operates_at {s : State} {n : Fin 64} {op : Nat} {j : OpJob} (h1 : opJob s n op = some j)
    (h2 : descCheck (opDesc j.desc) = none) (h3 : (opDesc j.desc).inv = false) : Operates s n op j s :=
  ⟨h1, h2, by rw [h3]; rfl⟩
theorem gives_at {s : State} {n : Fin 64} {i : Nat} {j : OpJob} {x : List (List FV)}
    (h0 : ((opDesc j.desc).opd i).absent = false) (h1 : (readOpd ⟨n, j.part⟩ ((opDesc j.desc).opd i) s).1 = .ok x)
    (h2 : (readOpd ⟨n, j.part⟩ ((opDesc j.desc).opd i) s).2 = s) : Gives n j i s x s := by
  unfold Gives; rw [if_neg (by simp [h0])]; exact Prod.ext h1 h2
theorem gives_none {s : State} {n : Fin 64} {i : Nat} {j : OpJob} (h0 : ((opDesc j.desc).opd i).absent = true) :
    Gives n j i s [] s := by unfold Gives; rw [if_pos h0]; exact ⟨rfl, rfl⟩

def hdr : LinkHdr := { ack := 0, cvc := 0, credit := 0, fec := 0 }
def tf : TimeFrame := { tx := 5000, echoTx := 1000, echoRx := 4000, gmId := 7, stratum := 3, locked := true, holdover := false, refLost := false, tseq := 9, order := none }
def pkt (tt : BitVec 8) (data : List Byte) : Packet :=
  { ttype := tt, final := false, detour := false, dchip := 0, schip := 0, spart := 0, hops := 48, daddr := 0, cause := 4, tid := 0, stream := 0, data := data }
def portS (f : Port → Port) : State := { live with ports := vset live.ports 15 (f (vget live.ports 15)) }
def nw : NetWrite := { tid := 7, dst := 0, part := 0, addr := 8, data := List.replicate 8 1, stream := 0, idx := 3 }
/-- Channel 7 of group 15 with one write in flight, and a packet delivered through port 15. -/
def inFlight (r : Option (BitVec 16 × BitVec 32)) (k : Packet) : State :=
  { (atChain { chain [] with result := r }) with remote := [(15, 7, nw)], ports := vset live.ports 15 { vget live.ports 15 with rx := [(none, k)] } }
/-- A pace notice of chip 1: cause, ratio, sent, until. -/
def notice (sent til : Nat) : Packet := { pkt 0x20 (fields 24 [(0, 1, 1), (1, 1, 200), (8, 8, sent), (16, 8, til)]) with schip := 1 }
/-- A member list of this chip (0) and chip 1, and a spare. -/
def desc0 : ChanDesc :=
  { id := 0x77, drop := false, fmt := 0, nmemb := 2, nspare := 1, self := 0, staleMax := 1, missMax := 1, paceGrace := 0, earlyClose := false, stepEvents := true, kper := 0, t0 := 300000, period := 80000, deadlineOfs := 40000, nelem := 8, ckptEvery := 0, recover := 0, grad := 0x1000, resid := 0, master := 0x10000000000, param := 0x10000010000, acc := 0x10000020000, short := 0x10000040000, stage := 0x10000060000, ckpt := 0x10000080000, members := [0, 1, 2], crc := 0x1234 }
def chan0 : Chan := { st := .run, desc := some desc0 }
def chanS (x : Chan) : State := { live with chans := vset live.chans 3 (vset (vrep 8 {}) 7 x) }
def got (x : Chan) (k : Packet) : State := { (chanS x) with ports := vset live.ports 15 { vget live.ports 15 with rx := [(none, k)] } }
def ccmd (sub : Nat) (fs : List (Nat × Nat × Nat)) : Cmd := cmd 0x40 0 0x0D03 ([(32, 1, sub), (33, 1, 7)] ++ fs)
def ranOn (x : Chan) (c : Cmd) : State := { (chanS x) with queues := vset live.queues 63 { queue with disp := [c] } }
def cpk (kind ch m step ofs : Nat) (data : List Byte) (final : Bool) : Packet :=
  { pkt 0x10 (fields 16 [(0, 2, ch), (2, 1, kind), (4, 4, step), (8, 4, ofs), (12, 2, m)] ++ data) with final := final, schip := 1 }
def runs (s : State) (c : Cmd) : State := { s with queues := vset live.queues 63 { queue with disp := [{ c with st := .running }] } }
/-- A channel descriptor (Table 10.2) of two members and no spare, in memory at 0x12FFFFF0000. -/
def descBytes (self : Nat) : List Byte := fields 132 [(0, 2, 0x77), (4, 2, 2), (8, 2, self), (10, 1, 1), (11, 1, 1), (14, 2, 1), (16, 8, 300000), (24, 8, 1600000), (40, 8, 8192), (64, 8, 0x1000), (80, 8, 0x10000000000), (88, 8, 0x10000010000), (96, 8, 0x10000020000), (104, 8, 0x10000040000), (112, 8, 0x10000060000), (120, 8, 0x10000080000), (130, 2, 1)]
def opening (self : Nat) (stack : Stack) : State :=
  let s := putRaw (putRaw (ranOn {} (ccmd 0 [(48, 8, 0x10000090000)])) 0x10000090000 (descBytes self)) 0x10000010000 (fields 128 [(48, 8, 0x100000A0000)])
  { s with peat := vset s.peat 0 stack }
def doneRun : PeatRun := { prun 0 0 0 with result := some 4, why := .command 63 0 }
def peatDone : State := withEng (fun _ => { mine with run := some doneRun }) (ranWith { pcmd [] with st := .running })
theorem peatDone_others (i : Fin 32) (r : PeatRun) (h : i ≠ 31) (hr : (peatDone.eng 7 i).run = some r) :
    r.why ≠ .command 63 0 := by
  have := (by decide +kernel : ∀ i : Fin 32, i ≠ 31 → (peatDone.eng 7 i).run = none) i h
  rw [this] at hr; cases hr
/-- SGDM with ZG on the last granule of stack 7's first 8 KiB; gradient 1.0 in its first element. -/
def pblk0 : List Byte := fields 128 [(1, 1, 1), (4, 4, 0x3F000000), (8, 4, 0x3F000000), (32, 4, 0x3F800000), (40, 8, 0x12A00003F00), (48, 8, 0x12A00005F00), (56, 8, 0x12A00007F00), (64, 8, 0x12A00010000), (72, 8, 0x12A00020000)]
def prun7 (opc : BitVec 8) : PeatRun := { prun opc 0x12A00001F00 256 with par := 0x12A00030000, pblk := pblk0 }
def optS (opc : BitVec 8) (bad : List Nat) : State :=
  { (eng { mine with run := some (prun7 opc) }) with mem := [(0x12A00001F03, 0x40), (0x12A00003F02, 0x80), (0x12A00003F03, 0x3F)], poison := bad }
def claimedAll : Stack := { eng := vrep 32 { claimed := true, owner := 0 } }

theorem chanS_descs (d : Fin 4) (c : Fin 8) : ((chanS chan0).chan d c).desc = none ∨ ((chanS chan0).chan d c).desc = some desc0 := by
  revert d c; decide +kernel
theorem no_early_close (k : Packet) (d : Fin 4) (c : Fin 8) (e : ChanDesc) (h : ((got chan0 k).chan d c).desc = some e) :
    e.earlyClose = false := by
  rcases chanS_descs d c with g | g
  · exact absurd (g.symm.trans h) (by simp)
  · exact Option.some.inj (g.symm.trans h) ▸ rfl

def opn (hs : List Nat) : Chan := { chan0 with st := .opening, openCmd := some (63, 0), hellos := hs }
def hello (crc m : Nat) : Packet := { cpk 5 0x77 m 0 0 (natLe 4 crc) true with schip := 1 }
def fail (m fit : Nat) : Packet := cpk 2 0x77 m 0 0 (natLe 8 m ++ natLe 8 fit) true
def descR : ChanDesc := { desc0 with ckptEvery := 1, recover := 1000, t0 := 1000, period := 100000 }
/-- Axis 31 as given, otherwise full mode under the console's lock. -/
def ax (f : Axis → Axis) : State := { lk with axes := vset lk.axes 31 (f (vget lk.axes 31)) }
def on (f : Axis → Axis) : State := ax fun x => f { x with st := .enabled }
def lawQ : Law := { float := false, struct_ := 0, coef := [(0x40000000, 0), (0, 0), (0, 0), (0x7FFFFFFF, 0)] }
def trdS (f : Engine → Engine) : State := { lk with trd := vset lk.trd 7 (f (vget lk.trd 7)) }

/-- Engine 7 running the background program at PC 0 with word `w` there. -/
def bgW (w : BitVec 32) (f : Engine → Engine) : State :=
  trdS fun t => f { t with bg := .running, pm := spPut 0 t.pm 0 w, xm := [(0, 5), (1, 0x80000000)], ym := [(0, 7)], cm := [(0, 0x7FFFFFFF), (1, 3)] }
/-- Engine 7 in the hook of axis 31 with word `w` at PC 0. -/
def hkW (w : BitVec 32) (f : Engine → Engine) : State :=
  bgW w fun t => f { t with hook := some 3, pendHooks := [] }
def d01 (x y : BitVec 32) : Engine → Engine := fun t => { t with bank0 := { t.bank0 with d := #v[x, y, 0, 0, 0, 0, 0, 0xFFFFFFFF], a0 := 0x7FFFFFFFFFFFFFFFFF, a1 := 0x812345678A0000000 }, bank1 := { t.bank1 with d := #v[x, y, 0, 0, 0, 0, 0, 0xFFFFFFFF], a0 := 0x8000000000 } }
/-- Format A: op d s1 s2 -/
def fa (op d s1 s2 rest : Nat) : BitVec 32 := BitVec.ofNat 32 (op * 2^26 + d * 2^23 + s1 * 2^20 + s2 * 2^17 + rest)
def fb (op rest : Nat) : BitVec 32 := BitVec.ofNat 32 (op * 2^26 + rest)

def atIt (t : Time) (s : State) : State := { s with time := { s.time with it := t } }
def lawF : Law := { float := false, struct_ := 1, coef := [(0x40000000, 1), (0x20000000, 0), (0x7FFFFFFF, 0), (0x7FFFFFFF, 0)] }
/-- Axis 31 with the law in its current loop, enabled. -/
def tickAx (f : Axis → Axis) : State := on fun x => f { x with laws := #v[some lawQ, some lawQ, some lawQ], spc := 0x40000000, src := 0 }

/-- Channel 39 as given, everything running under the console's lock. -/
def fbkS (t : Time) (f : Fbk → Fbk) : State := atIt t { lk with fbk := vset lk.fbk 39 (f (vget lk.fbk 39)) }
def ssiX (x : Fbk) : Fbk := { x with mode := 5, ssi := 0x001E_0014_0000_0800, good := false }
def cmpS (f : Cmp → Cmp) (g : Cap → Cap) : State :=
  { lk with cc := { lk.cc with cmp := vset lk.cc.cmp 15 (f (vget lk.cc.cmp 15)), cap := vset lk.cc.cap 15 (g (vget lk.cc.cap 15)), list := [(4095, 10), (0, 20)].reverse } }
def canS (f : Can → Can) : State := { lk with can := vset lk.can 3 (f (vget lk.can 3)) }
def moS (j : Fin 64) (f : MsgObj → MsgObj) (g : Can → Can) : State := canS fun c => g { c with mo := vset c.mo j (f (vget c.mo j)) }
def frm : CanFrame := { ide := true, id := 0x1FFFFFFF, fdf := true, rtr := false, brs := true, esi := false, dlc := 15, data := List.replicate 64 0xA5 }

def dspS (t : Time) (f : Display → Display) : State := atIt t { lk with dsp := f lk.dsp }
def sigS (m : BitVec 2) (e : BitVec 32) (l : Bool) : State := dspS 266666667 fun d => { d with
  frame := 5, active := { d.active with sig := vset d.active.sig 7 { mode := m, x := 63, y := 63, w := 1, h := 1, exp := e } },
  sigres := vset d.sigres 7 { vget d.sigres 7 with learned := l } }
def layS (f : Display → Display) : State := dspS 400000 fun d => f { d with active := { d.active with layer := vset d.active.layer 5 { en := true, srcW := 1, srcH := 1, dstW := 1, dstH := 1, stride := 64 } } }
def powS (f : Domain → Domain) (g : Power → Power) : State := atIt 20000000 { lk with power := g { lk.power with dom := vset lk.power.dom 4 (f (vget lk.power.dom 4)) } }
theorem voltOf_lt (d : Fin 5) (a : BitVec 6) (b : BitVec 5) : voltOf d a b < 1000#10 := by
  unfold voltOf
  simp only [BitVec.lt_def, BitVec.toNat_ofNat]
  show _ < 1000
  omega

def img : FrzImage := { it := 77, source := 0, late := false, holdover := false, origin := 0, tsc := 5, fbk := vrep 40 (0, true), axes := vrep 32 (0, 0, 0, 0, 4) }
def frzS (f : Freeze → Freeze) : State := { lk with frz := f lk.frz }
def p31 (f : Part) (fl : Bool) : State := { lk with parts := vset (vset lk.parts 31 f) 0 { whole with tiles := 0x7FFFFFFFFFFFFFFF }, flt := if fl then vset lk.flt (fidSlot (fidMk 2 63)) { a := { cause := 0x004 }, b := { cause := 0x004 } } else lk.flt }
theorem not_sent {o : Option (Fin 64 × BitVec 32)} {j : Fin 64} (h : o.map (·.1) ≠ some j) (sof : BitVec 32) :
    o ≠ some (j, sof) := fun e => h (e ▸ rfl)

/-! ### The spec's worked examples (each names its chapter) -/

/-- 12.5: MAC A0, D0, D1 with D0 := XM[I0], I0 += M0 and D1 := YM[I4], I4 += M4 encodes as 0x0802_4849. -/
theorem test_mac_fields : let f := fmtA 0x08024849
    opc 0x08024849 = 2 ∧ (f.d, f.s1, f.s2, f.cf) = (0, 0, 1, false) ∧ (f.xop, f.xi, f.xu, f.xd) = (1, 0, true, 0) ∧
      (f.yop, f.yi, f.yu, f.yd) = (1, 4, true, 1) := by decide +kernel
/-- 12.5: MAXI D2, D3, I0, 256 encodes as 0xE130_0100. -/
theorem test_maxi_fields : opc 0xE1300100 = 0x38 ∧ fld 0xE1300100 23 3 = 2 ∧ fld 0xE1300100 20 3 = 3 ∧
    fld 0xE1300100 16 3 = 0 ∧ fld 0xE1300100 0 12 = 256 ∧ scanReserved 0xE1300100 = false := by decide +kernel
/-- 12.6, the peak scan of the Hollin Press cell: a ring of 256 from 0x1F0 whose largest value is at 0x107. -/
def peakScan : State := trdS fun t => { t with
  bg := .running, pm := [(0, 0xE1300100)], xm := [(0x107, 0x2A000000)]
  bank0 := { t.bank0 with i := vset t.bank0.i 0 0x1F0, b := vset t.bank0.b 0 0x100, l := vset t.bank0.l 0 256, m := vset t.bank0.m 0 1 } }
def bankAfter (o : Host.Outcome State Fault Refusal) : Bank := match o with | .next t => (vget t.trd 7).bank0 | _ => {}
theorem test_peak_scan : let b := bankAfter (execMaxi 7 none peakScan)
    vget b.d 2 = 0x2A000000 ∧ vget b.d 3 = 23 ∧ vget b.i 0 = 0x1F0 ∧ b.lip = false := by decide +kernel
/-- 12.6: interrupted after element 39: LIP 1, SCNT 216, I0 0x118, SPOS 23. -/
theorem test_peak_scan_interrupted : let b := bankAfter (execMaxi 7 (some 40) peakScan)
    b.lip = true ∧ b.scnt = 216 ∧ vget b.i 0 = 0x118 ∧ b.spos = 23 := by decide +kernel
/-- 18.1: the body 123456789 has the check code 29B1. -/
theorem test_check_code : checkCode [0x31, 0x32, 0x33, 0x34, 0x35, 0x36, 0x37, 0x38, 0x39] = [0x32, 0x39, 0x42, 0x31] := by
  decide +kernel
/-- 4, the Marram fleet: stack 2, PCIe window of RP3, host window of tile 63, and no DRAM at the end of 512 GiB. -/
theorem test_addresses : addrClass 0x10C80000100 = .stack 2 ∧ addrClass 0x2C000001000 = .pcie 3 ∧
    addrClass 0xE001F800000 = .host 63 ∧ addrClass 0x00012345940 = .ddr ∧
    isDram { live with island := { live.island with ddrSize := 2 ^ 39 } } 0x08000000000 = false := by decide +kernel
/-- 7: ABASE 0x112_4000_0000 and length 0x10_0000 give ALIM 0x112_400F_FFFF; the aperture of stack 3. -/
theorem test_alim : BitVec.ofNat 44 (0x11240000000 + 0x100000 + (2 ^ 44 - 1)) = (0x112400FFFFF : BitVec 44) ∧
    stackBase 3 + 0x40000000 = 0x11240000000 ∧ apertureBase 3 + 0x40000000 = 0xE7040000000 ∧ hostBase 20 = 0xE000A000000 := by
  decide +kernel
/-- 8.3: a block with amax 5.3 has the scale byte 0x7F; in E2M1 5.3 is written as 6 and 0.7 as 0.5. -/
theorem test_mx_block : (blockScale 2 [f32v 0x40A9999A, f32v 0x3F333333]).1 = 0x7F ∧
    ((ElFmt.convRow ⟨.flt fmtE2M1, 4, true, 2⟩ false 0 0 0 [f32v 0x40A9999A, f32v 0x3F333333]).1 = [0x17]) := by decide +kernel
/-- 9: from (1, 6, 3) to (6, 2, 3) in a fleet of 8 × 8 × 8: −X first, class 0; +Y from (6, 6, 3). -/
def marram (x y z : BitVec 8) : State := { live with
  fabric := { live.fabric with dims := #v[8, 8, 8], pos := #v[x, y, z] }
  ports := Vector.ofFn fun p : Fin 16 => { vget live.ports p with dir := BitVec.ofNat 3 (if p.val < 6 then p.val + 1 else 0) } }
theorem test_route : (route (marram 1 6 3) 806 false none).map (fun r => (r.ports, r.cls, r.detour)) = some ([1], false, false) ∧
    (route (marram 6 6 3) 806 false none).map (fun r => (r.ports, r.cls, r.detour)) = some ([2], false, false) ∧
    (route (marram 6 0 3) 806 false (arrivalOf (marram 6 0 3) 3 0)).map (fun r => (r.ports, r.cls)) = some ([2], true) := by
  decide +kernel
/-- 9: t1 = 1,000,000, t2 = 1,000,812, t3 = 1,004,000, t4 = 1,004,780: the delay is 796 TQ, usable. -/
theorem test_delay : (match execTimeFrameRx 15 (outBytes hdr (.time { tf with tx := 1004000, echoTx := 1000000, echoRx := 1000812 })) 0
      { (portS fun x => { x with txTimes := [1000000] }) with time := { live.time with it := 1004780 } } with
    | .next t => some ((vget t.ports 15).delay, (vget t.ports 15).timeUse) | _ => none) = some (796, true) := by decide +kernel
/-- 13: 2^31 counts per revolution, 4 pole pairs: at count 300,000,000 the angle is 2,400,000,000. -/
theorem test_electrical_angle : elecAngle { cpr := 0x80000000, poles := 4, eofs := 0 } 300000000 = 2400000000 := by decide +kernel
/-- 15: 2,560 × 1,440 scaled to 960 × 540 passes; a 4,096-wide source is refused with LINEBUF (code 6). -/
def camera (w : BitVec 13) : DspSet := { layer := vset (vrep 6 {}) 1 { en := true, fmt := 0, stride := 16384, srcW := w, srcH := 1440, dstW := 1024, dstH := 540 } }
theorem test_linebuf : commitCode { dspRec with hact := 1920, vact := 1080 } (camera 2560) = 0 ∧
    commitCode { dspRec with hact := 1920, vact := 1080 } (camera 4096) = 6 := by decide +kernel
/-- 19: the ball D20 has index 235; CG25 and CG26, indices 4,560 and 4,561, carry PWM_2_U_H and PWM_2_U_L. -/
theorem test_balls : ballIndex (4, 20) = 235 ∧ signalOf 4560 = some (.pwm 2 0) ∧ signalOf 4561 = some (.pwm 2 1) ∧
    ballName 235 = "D20" ∧ ballName 4560 = "CG25" := by decide +kernel
/-- A pin entry with drive 0, no pull and the given SAFE. -/
def pinEntry (safe : BitVec 2) : PinCfg := { func := 1, drive := 0, pull := 0, invert := false, safe := safe, filter := 0, owner := 0 }
/-- `live` with the entry of PWM_2_U_H, SAFE 2 (high). -/
def ballLive : State := { live with pins := [(4560, pinEntry 2)], pinsUp := true }
/-- 19, Corners: high-impedance until the pin stage; then a disabled axis shows its SAFE_STATE pattern, gates off, and a held one
the SAFE level of the entry (Table 19.6). -/
theorem test_ball_out :
    ballOut { ballLive with pinsUp := false } 4560 = some .highZ ∧ ballOut ballLive 4560 = some (.level false) ∧
    ballOut (ballLive.modAxis 2 fun x => { x with st := .held }) 4560 = some (.level true) := by decide +kernel

/-! ### Commands the check refuses, one for each of its conditions, and some it takes -/

def rv : Rival := { axis := 0, rank := 6, port := 0, op := 5, src := 0, value := 0, spd := false }
def bytes (n : Nat) : List Byte := List.replicate n 0
def pk (n : Nat) : Packet := { ttype := 0, final := false, detour := false, dchip := 0, schip := 0, spart := 0, hops := 0, daddr := 0, cause := 0, tid := 0, stream := 0, data := bytes n }
def fr (fdf : Bool) (n : Nat) : CanFrame := { ide := false, id := 0, rtr := false, fdf := fdf, brs := false, esi := false, dlc := 0, data := bytes n }
theorem test_rivals_refused : Rival.wf rv = true ∧ Rival.wf { rv with rank := 7 } = false ∧ Rival.wf { rv with op := 0 } = false ∧
    Rival.wf { rv with op := 6 } = false := by decide +kernel
/-- Data of 208 bytes fills a frame; a LEN above it makes no packet. -/
theorem test_packet_refused : packetOf (packetBytes (pk 208)) 240 = some (pk 208) ∧ packetOf (packetBytes (pk 209)) 241 = none := by
  decide +kernel
theorem test_frame_refused : (fr true 64).wf = true ∧ (fr true 65).wf = false ∧ (fr false 8).wf = true ∧ (fr false 9).wf = false := by
  decide +kernel
theorem test_ranks_refused : Instr.wf (.enable 6 0 0 [rv]) = true ∧ Instr.wf (.enable 7 0 0 []) = false ∧ Instr.wf (.disable 7 0 0 []) = false ∧
    Instr.wf (.run 7 0 0 0 []) = false ∧ Instr.wf (.axsStop 7 0 0 []) = false ∧ Instr.wf (.axsSpWrite 7 0 0 0 []) = false ∧
    Instr.wf (.axsSpdWrite 7 0 0 0 []) = false := by decide +kernel
theorem test_rival_lists_refused : let bad := [{ rv with op := 0 }]
    Instr.wf (.enable 0 0 0 bad) = false ∧ Instr.wf (.disable 0 0 0 bad) = false ∧ Instr.wf (.run 0 0 0 0 bad) = false ∧
    Instr.wf (.axsStop 0 0 0 bad) = false ∧ Instr.wf (.axsSpWrite 0 0 0 0 bad) = false ∧ Instr.wf (.axsSpdWrite 0 0 0 0 bad) = false ∧
    Instr.wf (.hstopAssert 0 bad) = false ∧ Instr.wf (.out 0 bad) = false ∧ Instr.wf (.reth 0 bad) = false ∧
    Instr.wf (.frameReceived 0 (fr false 8) 0 bad) = false := by decide +kernel
theorem test_traffic_refused : Instr.wf (.inboundPcieAccess 0 true 0 2 (bytes 2)) = true ∧ Instr.wf (.inboundPcieAccess 0 true 0 0 []) = false ∧
    Instr.wf (.inboundPcieAccess 0 false 0 4097 []) = false ∧ Instr.wf (.inboundPcieAccess 0 true 0 2 (bytes 3)) = false ∧
    Instr.wf (.dataFrameRx 0 (bytes 256) 0 false) = true ∧ Instr.wf (.dataFrameRx 0 (bytes 255) 0 false) = false ∧
    Instr.wf (.timeFrameRx 0 (bytes 257) 0) = false ∧ Instr.wf (.nak 0 [] 0) = false ∧ Instr.wf (.hello 0 (bytes 255) 0) = false ∧ Instr.wf (.frameReceived 0 (fr false 9) 0 []) = false ∧
    Instr.wf (.canError 0 ⟨6, false, false, false, false, none⟩) = true ∧ Instr.wf (.canError 0 ⟨0, false, false, false, false, none⟩) = false ∧
    Instr.wf (.canError 0 ⟨7, false, false, false, false, none⟩) = false := by decide +kernel
theorem test_lines_refused : Instr.wf (.xferData 0 (bytes 64)) = true ∧ Instr.wf (.xferData 0 []) = false ∧
    Instr.wf (.xferData 0 (bytes 65)) = false ∧ Instr.wf (.lineRefused []) = false ∧ Instr.wf (.lineRefused (bytes 1)) = true := by
  decide +kernel

/-- 18, the console: known words with another form are SYNTAX, a word Table 18.1 lacks is UNKNOWN. -/
theorem test_line_reasons : let line := fun t : String => (lineRefusal (t.toUTF8.toList.map fun b => BitVec.ofNat 8 b.toNat)).map (·.reason)
    line "STATE 1 67D4\r" = some "SYNTAX" ∧ line "AXIS 3 take 3262\r" = none ∧ line "NOPE  x 09ED\r" = some "UNKNOWN" := by
  decide +kernel

/-- 4: the scrubber goes from the last DDR5 line to stack 0, through the stacks, and from the last line of stack 7 to the first. -/
theorem test_scrub : scrubNext live (2 ^ 31 - 1) = 2 ^ 34 ∧ scrubNext live (2 ^ 34) = 2 ^ 34 + 1 ∧
    scrubNext live (0x4C0000000 - 1) = 0 := by decide +kernel

/-! ### Hypotheses of the obligations are met -/

/-- The hypotheses of `Obligations.EmptyQueuePassesTime` are met, in states and with operands named here. -/
theorem met_EmptyQueuePassesTime :
    live.pending = [] := by
  decide +kernel

/-- The hypotheses of `Obligations.QueriesAndRefusalsFrame` are met, in states and with operands named here. -/
theorem met_QueriesAndRefusalsFrame :
    isQuery (Instr.canMo 3 63) = true ∧
    needsLock Instr.clearStart = true ∧
    live.island.vaon = true ∧
    live.console.locked = false := by
  and_intros <;> (decide +kernel)

/-- The hypotheses of `Obligations.IslandQueriesAnswer` are met, in states and with operands named here. -/
theorem met_IslandQueriesAnswer :
    stLog.island.vaon = true ∧
    stLog.store.log[0]? = some { kind := 2 } := by
  and_intros <;> (decide +kernel)

/-- The hypotheses of `Obligations.FunctionQueriesAnswer` are met, in states and with operands named here. -/
theorem met_FunctionQueriesAnswer :
    live.island.vaon = true ∧
    powered live (fidMk 14 7) = true ∧
    powered live (fidMk 13 3) = true ∧
    domLive live 4 = true ∧
    powered live (coreFid 47) = true ∧
    powered live (fidMk 1 0) = true ∧
    (vget live.queues 63).halted = false ∧
    powered live (fidMk 12 7) = true ∧
    powered live (fidMk 2 63) = true ∧
    powered live (fidMk 4 7) = true ∧
    laneOn.island.vaon = true ∧
    laneOn.island.mode = Mode.full ∧
    (vget laneOn.lanes 7).on = true ∧
    powered live (fidMk 5 15) = true ∧
    powered live timeFid = true := by
  and_intros <;> (decide +kernel)

/-- The hypotheses of `Obligations.ServoQueriesAnswer` are met, in states and with operands named here. -/
theorem met_ServoQueriesAnswer :
    live.island.vaon = true ∧
    servoUp live = true ∧
    fidOk 3841 = true := by
  and_intros <;> (decide +kernel)

/-- The hypotheses of `Obligations.SelfTestsReport` are met, in states and with operands named here. -/
theorem met_SelfTestsReport :
    lk.island.vaon = true ∧
    powered lk (fidMk 3 15) = true ∧
    ((vget lk.shuttle 15).ch.toList.any fun x => x.running.isSome) = false ∧
    powered lk (fidMk 2 63) = true ∧
    (vget lk.tiles 63).lane = false ∧
    (vget lk.tiles 63).jobs = [] ∧
    powered lk (fidMk 4 7) = true ∧
    ((vget lk.peat 7).eng.toList.any fun e => !e.ready) = false ∧
    servoUp lk = true ∧
    (vget lk.trd 7).bg ≠ Bg.running ∧
    lk.console.locked = true ∧
    canBusy lk 3 = false ∧
    lk.dsp.pend = false ∧
    lk.dsp.rec_ = some dspRec := by
  and_intros <;> (decide +kernel)

/-- The hypotheses of `Obligations.ConsoleFieldsWritten` are met, in states and with operands named here. -/
theorem met_ConsoleFieldsWritten :
    lk.island.vaon = true ∧
    921600 ∈ bauds ∧
    lk.console.locked = true ∧
    2 ≠ 3 ∧
    servoUp lk = true ∧
    taken.island.vaon = true ∧
    taken.console.locked = true ∧
    servoUp taken = true ∧
    100 ≤ 100 ∧
    (vget taken.axes 31).st = AxState.disabled ∧
    (vget taken.axes 31).taken = true ∧
    (vget taken.cc.cmp 15).en = false := by
  and_intros <;> (decide +kernel)

def serviceLock1 : State := { taken with island := { taken.island with hours := 1 } }
/-- The hypotheses of `Obligations.ServiceLock` are met, in states and with operands named here. -/
theorem met_ServiceLock :
    lk.island.vaon = true ∧
    lk.console.locked = true ∧
    live.island.vaon = true ∧
    live.console.locked = false ∧
    serviceLock1.island.vaon = true ∧
    serviceLock1.console.locked = true ∧
    serviceLock1.console.lineAt + 600 * 16000000000 ≤ upTime serviceLock1 ∧
    serviceLock1.rat.reopened = none := by
  and_intros <;> (decide +kernel)

def consoleActsAsRegisters1 : State := { lk with tiles := vrep 64 {} }
def consoleActsAsRegisters2 : State := (disA .enabled)
/-- The hypotheses of `Obligations.ConsoleActsAsRegisters` are met, in states and with operands named here. -/
theorem met_ConsoleActsAsRegisters :
    boot.island.vaon = true ∧
    (1 = 1 ∨ 1 = 2) ∧
    startAnswer boot (some 1) = StartAnswer.ok ∧
    startAnswer boot none = StartAnswer.ok ∧
    live.island.vaon = true ∧
    starting live = false ∧
    halted0.island.vaon = true ∧
    powered halted0 (fidMk 1 0) = true ∧
    (vget halted0.queues 63).halted = false ∧
    (vget halted0.queues 63).enable = true ∧
    (vget halted0.queues 63).spare ≠ 0 ∧
    halted0.rat.reopened = none ∧
    servoUp live = true ∧
    isFenced live frzFid = false ∧
    powered live 575 = true ∧
    rstRefusal live ⟨32, by decide⟩ 575 0 = none ∧
    consoleActsAsRegisters1.island.vaon = true ∧
    servoUp consoleActsAsRegisters1 = true ∧
    consoleActsAsRegisters1.console.locked = true ∧
    powered consoleActsAsRegisters1 575 = true ∧
    rstRefusal consoleActsAsRegisters1 ⟨32, by decide⟩ 575 1 = none ∧
    lk.island.vaon = true ∧
    servoUp lk = true ∧
    lk.console.locked = true ∧
    fidOk 3841 = true ∧
    clearRefused lk 3841 4095 = false ∧
    reopenBlocked lk 31 = false ∧
    standing lk 31 = [] ∧
    orderWinner lk 31 [consoleOrder 31 1] = some (consoleOrder 31 1) ∧
    (consoleOrder 31 1).rank = 2 ∧
    orderValid lk 31 1 = true ∧
    orderWinner lk 31 [consoleOrder 31 1, { rv with axis := 31, rank := 1, op := 2 }] = some { rv with axis := 31, rank := 1, op := 2 } ∧
    ({ rv with axis := 31, rank := 1, op := 2 } : Rival).rank ≠ 2 ∧
    consoleActsAsRegisters2.island.vaon = true ∧
    servoUp consoleActsAsRegisters2 = true ∧
    consoleActsAsRegisters2.console.locked = true ∧
    orderWinner consoleActsAsRegisters2 31 [consoleOrder 31 2] = some (consoleOrder 31 2) ∧
    orderWinner consoleActsAsRegisters2 31 [consoleOrder 31 4] = some (consoleOrder 31 4) ∧
    orderValid consoleActsAsRegisters2 31 2 = true ∧
    orderValid consoleActsAsRegisters2 31 4 = true ∧
    hstopA.island.vaon = true ∧
    servoUp hstopA = true ∧
    hstopA.console.locked = true ∧
    (orderWinner hstopA 31 [consoleOrder 31 1]).any (fun w => w.rank ≠ 2) = true := by
  and_intros <;> (decide +kernel)

def consoleLinesMetersScan1 : State := { lines with console := { held := [.lockLapsed] } }
/-- The hypotheses of `Obligations.ConsoleLinesMetersScan` are met, in states and with operands named here. -/
theorem met_ConsoleLinesMetersScan :
    lines.island.vaon = true ∧
    lines.console.lost ≠ 0 ∧
    consoleLinesMetersScan1.island.vaon = true ∧
    consoleLinesMetersScan1.console.lost = 0 ∧
    consoleLinesMetersScan1.console.held = [ULine.lockLapsed] ∧
    live.island.vaon = true ∧
    lineRefusal (List.replicate 1025 65) = some { ok := false, word := "", reason := "OVERFLOW" } ∧
    (List.replicate 1025 65).getLast? ≠ some 13 ∧
    List.replicate 1025 65 ≠ [] ∧
    1024 < (List.replicate 1025 65).length ∧
    (List.replicate 1024 127).getLast? ≠ some 13 ∧
    (List.replicate 1024 127).length ≤ 1024 ∧
    ((List.replicate 1024 127).any fun b => decide (b < 32) || decide (126 < b)) = true ∧
    (List.replicate 1024 126).getLast? ≠ some 13 ∧
    240 < (List.replicate 1024 126).length ∧
    (List.replicate 1024 126).length ≤ 1024 ∧
    ((List.replicate 1024 126).any fun b => decide (b < 32) || decide (126 < b)) = false ∧
    meters.island.vaon = true ∧
    vget meters.console.mp 7 = MpSource.rail 13 ∧
    (13 < 14 → meters.island.enabled.getLsbD 13 = true) ∧
    (vget meters.power.rail 13).toNat ≤ 5000 ∧
    meterG.island.vaon = true ∧
    vget meterG.console.mp 7 = MpSource.tempGroup 13 ∧
    -800 ≤ (vget meterG.power.temp 13).toInt ∧
    (vget meterG.power.temp 13).toInt ≤ 3200 ∧
    vget meters.console.mp 6 = MpSource.temp ∧
    (∀ (g : Fin 14), -800 ≤ (vget meters.power.temp g).toInt ∧ (vget meters.power.temp g).toInt ≤ 3200) ∧
    tapUp live = true ∧
    (Instr.highz, TapInstr.highz) ∈ [(Instr.extest, TapInstr.extest), (Instr.clamp, TapInstr.clamp), (Instr.highz,
      TapInstr.highz)] ∧
    5 ≤ 5 := by
  and_intros <;> (decide +kernel)

def transfersAndJournal1 : State := (xferA (.key 4) 2 false)
def transfersAndJournal2 : State := (xferA (.plan 1 8) 2 false)
def transfersAndJournal3 : State := (xferA (.fw 2) 2 true)
def transfersAndJournal5 : State := { transfersAndJournal2 with loader := { job := .apply } }
def transfersAndJournal4 : State := { live with store := { live.store with queue := [.fw 1 .empty] } }
/-- The hypotheses of `Obligations.TransfersAndJournal` are met, in states and with operands named here. -/
theorem met_TransfersAndJournal :
    lk.island.vaon = true ∧
    lk.console.locked = true ∧
    lk.console.xfer = none ∧
    262144 ≤ 262144 ∧
    wrpBusy lk = false ∧
    4194304 % 8 = 0 ∧
    4194304 ≤ slotRoom lk 1 ∧
    lk.loader.active ≠ some 1 ∧
    transfersAndJournal1.island.vaon = true ∧
    transfersAndJournal1.console.locked = true ∧
    transfersAndJournal1.console.xfer.isSome = true ∧
    transfersAndJournal2.island.vaon = true ∧
    transfersAndJournal2.console.locked = true ∧
    transfersAndJournal2.console.xfer = some { kind := XferKind.plan 1 8, buf := [(0, 0), (1, 0)] } ∧
    xferDataWf [1] = true ∧
    7 + [1].length ≤ xferLen (XferKind.plan 1 8) ∧
    transfersAndJournal2.console.xferOpen = true ∧
    transfersAndJournal2.loader.job = WrpJob.none ∧
    transfersAndJournal5.console.locked = true ∧
    transfersAndJournal5.console.xfer = some { kind := XferKind.plan 1 8, buf := [(0, 0), (1, 0)] } ∧
    transfersAndJournal5.loader.job ≠ WrpJob.none ∧
    transfersAndJournal3.island.vaon = true ∧
    transfersAndJournal3.console.xfer = some { kind := XferKind.fw 2, buf := [(0, 0), (1, 0)], ended := true } ∧
    transfersAndJournal3.rat.reopened = none ∧
    (true) = true ∧
    transfersAndJournal4.island.vaon = true ∧
    transfersAndJournal4.store.queue = [JWrite.fw 1 FwCopy.empty] := by
  and_intros <;> (decide +kernel)

def railsRaisedInOrder1 : State := (startAt run4w)
def railsRaisedInOrder2 : State := (startAt (runAt 3))
/-- The hypotheses of `Obligations.RailsRaisedInOrder` are met, in states and with operands named here. -/
theorem met_RailsRaisedInOrder :
    rail13.island.vaon = true ∧
    rail13.island.enabled.getLsbD 13 = true ∧
    rail13.island.good.getLsbD 13 = false ∧
    rail13.island.start = some run4 ∧
    run4.kind ≠ StartKind.extended ∧
    railsRaisedInOrder1.island.vaon = true ∧
    railsRaisedInOrder1.island.seqr = SeqState.idle ∧
    railsRaisedInOrder1.island.start = some run4w ∧
    run4w.step = 4 ∧
    run4w.waiting = true ∧
    nextGroup run4w run4w.group = some 8 ∧
    atStep railsRaisedInOrder2 3 = true ∧
    railsRaisedInOrder2.island.start = some (runAt 3) ∧
    ((runAt 3).kind = StartKind.extended → false = true) ∧
    nextGroup (runAt 3) 0 = some 1 := by
  and_intros <;> (decide +kernel)

def operand1 := { runAt 9 with kind := .raise }
def startStepsComplete1 : State := (startAt (runAt 5))
def startStepsComplete2 : State := (planned 6 .cold)
def startStepsComplete3 : State := (startAt (runAt 7))
def startStepsComplete4 : State := (startAt (runAt 8))
def startStepsComplete5 : State := (planned 9 .raise)
/-- The hypotheses of `Obligations.StartStepsComplete` are met, in states and with operands named here. -/
theorem met_StartStepsComplete :
    startStepsComplete1.island.start = some (runAt 5) ∧
    atStep startStepsComplete1 5 = true ∧
    startStepsComplete1.island.refclk = true ∧
    startStepsComplete2.island.start = some (runAt 6) ∧
    atStep startStepsComplete2 6 = true ∧
    slotOrder startStepsComplete2 = [(0, plan)] ∧
    startStepsComplete3.island.start = some (runAt 7) ∧
    atStep startStepsComplete3 7 = true ∧
    (true) = true ∧
    startStepsComplete4.island.start = some (runAt 8) ∧
    atStep startStepsComplete4 8 = true ∧
    startStepsComplete5.island.start = some operand1 ∧
    atStep startStepsComplete5 9 = true ∧
    startStepsComplete5.rat.reopened = none ∧
    (operand1.kind ≠ StartKind.raise → (applySlots (if operand1.target = 2 then Scope.full else Scope.servo) (slotOrder
      (trimsFromStore startStepsComplete5)) (trimsFromStore startStepsComplete5)).2 = true) ∧
    (operand1.kind = StartKind.raise → (runStages Scope.raise (trimsFromStore startStepsComplete5).loader.plan (trimsFromStore
      startStepsComplete5)).2 = none) := by
  and_intros <;> (decide +kernel)

def operand2 := { runAt 3 with kind := .extended }
def startFailuresDropRails1 : State := (startAt { runAt 3 with kind := .extended })
def startFailuresDropRails2 : State :=
  { rail13 with island := { rail13.island with start := some { run4 with kind := .extended } } }
/-- The hypotheses of `Obligations.StartFailuresDropRails` are met, in states and with operands named here. -/
theorem met_StartFailuresDropRails :
    rail13.island.start = some run4 ∧
    nextDrop rail13 DropWhy.failedStart 9 = some 8 ∧
    run4.step = 4 ∧
    run4.waiting = false ∧
    run4.failed = none ∧
    rail13.island.seqr = SeqState.idle ∧
    rail13.island.enabled.getLsbD 13 = true ∧
    rail13.island.good.getLsbD 13 = false ∧
    railGroup 13 = run4.group ∧
    rail13.rat.reopened = none ∧
    startFailuresDropRails2.rat.reopened = none ∧
    startFailuresDropRails2.island.start = some { run4 with kind := .extended } ∧
    nextDrop startFailuresDropRails2 DropWhy.failedStart 9 = some 8 ∧
    atStep startFailuresDropRails2 4 = true ∧
    startFailuresDropRails2.island.enabled.getLsbD 13 = true ∧
    startFailuresDropRails2.island.good.getLsbD 13 = false ∧
    startStepsComplete1.island.start = some (runAt 5) ∧
    nextDrop startStepsComplete1 DropWhy.failedStart 9 = some 8 ∧
    atStep startStepsComplete1 5 = true ∧
    startFailuresDropRails1.island.start = some operand2 ∧
    nextDrop startFailuresDropRails1 DropWhy.failedStart 9 = some 8 ∧
    atStep startFailuresDropRails1 3 = true ∧
    operand2.kind = StartKind.extended ∧
    startStepsComplete3.island.start = some (runAt 7) ∧
    nextDrop startStepsComplete3 DropWhy.failedStart 9 = some 8 ∧
    atStep startStepsComplete3 7 = true ∧
    (false) = false ∧
    canReuse (runAt 7) (0) startStepsComplete3 = false ∧
    startStepsComplete4.island.start = some (runAt 8) ∧
    nextDrop startStepsComplete4 DropWhy.failedStart 9 = some 8 ∧
    atStep startStepsComplete4 8 = true := by
  and_intros <;> (decide +kernel)

def vaonAndRequests1 : State := (vaonOff .running false)
/-- The hypotheses of `Obligations.VaonAndRequests` are met, in states and with operands named here. -/
theorem met_VaonAndRequests :
    vaonAndRequests1.island.vaon = false ∧
    vaonAndRequests1.island.enabled = 0 ∧
    live.island.vaon = true ∧
    latched.island.vaon = true ∧
    latched.store.work.latch = true ∧
    Admits (Master.core 0) (elvBase + 264) latched ∧
    graceS.island.vaon = true ∧
    graceS.store.work.latch = false ∧
    starting graceS = true ∧
    Admits (Master.core 0) (elvBase + 264) graceS ∧
    servoOnly.island.vaon = true ∧
    servoOnly.store.work.latch = false ∧
    starting servoOnly = false ∧
    servoOnly.island.mode = Mode.servoOnly ∧
    startAnswer boot none = StartAnswer.ok ∧
    servoOnly.island.prevFailed = false ∧
    servoOnly.store.work.marker ≠ Marker.disorderly ∧
    retrying.island.vaon = true ∧
    retrying.island.seqr = SeqState.retry ∧
    retrying.island.start = some (runAt 0) ∧
    retrying.island.enabled = 0 ∧
    (retrying.store.recover { }).work.latch = false ∧
    (runAt 0).target ≠ 0 := by
  unfold Admits; and_intros <;> (decide +kernel)

def orderlyPowerDown1 : State := (dropping .powerDown 8 false 0x1FFF)
def orderlyPowerDown2 : State := (dropping .powerDown 1 false 0)
def orderlyPowerDown3 : State := (dropping .powerDown 8 true 0x1FFF)
/-- The hypotheses of `Obligations.OrderlyPowerDown` are met, in states and with operands named here. -/
theorem met_OrderlyPowerDown :
    live.island.vaon = true ∧
    starting live = false ∧
    live.island.mode ≠ Mode.serviceOnly ∧
    live.island.grace ≠ 0 ∧
    live.rat.reopened = none ∧
    255 ≠ 0 ∧
    Admits (Master.core 0) (elvBase + 304) live ∧
    graceS.island.vaon = true ∧
    graceS.island.seqr = SeqState.grace ∧
    nextDrop graceS DropWhy.powerDown 9 = some 8 ∧
    Admits (Master.core 0) (elvBase + 304) graceS ∧
    orderlyPowerDown1.island.vaon = true ∧
    orderlyPowerDown1.island.seqr = SeqState.dropping DropWhy.powerDown 8 false ∧
    nextDrop orderlyPowerDown1 DropWhy.powerDown 8 = some 7 ∧
    orderlyPowerDown2.island.vaon = true ∧
    orderlyPowerDown2.island.seqr = SeqState.dropping DropWhy.powerDown 1 false ∧
    nextDrop orderlyPowerDown2 DropWhy.powerDown 1 = none ∧
    DropWhy.powerDown = DropWhy.powerDown ∧
    orderlyPowerDown2.island.stopStart = false ∧
    orderlyPowerDown3.island.vaon = true ∧
    orderlyPowerDown3.island.seqr = SeqState.dropping DropWhy.powerDown 8 true ∧
    nextDrop orderlyPowerDown3 DropWhy.powerDown 8 = some 7 := by
  unfold Admits; and_intros <;> (decide +kernel)

def railAndClockLoss1 : State := { live with island := { live.island with pll := false } }
/-- The hypotheses of `Obligations.RailAndClockLoss` are met, in states and with operands named here. -/
theorem met_RailAndClockLoss :
    live.island.vaon = true ∧
    live.island.enabled.getLsbD 13 = true ∧
    live.island.good.getLsbD 13 = true ∧
    live.island.seqr = SeqState.idle ∧
    live.island.start = none ∧
    live.rat.reopened = none ∧
    disord.rat.reopened = none ∧
    disord.island.vaon = true ∧
    disord.island.seqr = SeqState.disorderly 13 8 ∧
    live.island.refclk = true ∧
    live.island.pll = true ∧
    (railAndClockLoss1.island.refclk = false ∨ railAndClockLoss1.island.pll = false) := by
  and_intros <;> (decide +kernel)

def reloadAndStore1 : State := (loading .apply [] 0)
def reloadAndStore2 : State := (loading (.reloadCompare 31 1 true) [] 0)
def reloadAndStore3 : State := (loading (.reloadCompare 0 1 true) plan 6)
def reloadAndStore4 : State := (loading (.reloadStages 0 1) plan 6)
def reloadAndStore5 : State := (loading (.reloadStages 31 1) badLaw 7)
def reloadAndStore6 : State := { live with loader := { storeLen := 8 } }
def reloadAndStore7 : State := (loading (.store 1 [] 0x0F) [] 0)
def reloadAndStore8 : State := (loading (.store 1 [] 0) [] 0)
def reloadAndStore10 : State := (loading (.reloadStages 0 0) plan 6)
def reloadAndStore9 : State := (loading (.store 1 plan 0) [] 0)
/-- The hypotheses of `Obligations.ReloadAndStore` are met, in states and with operands named here. -/
theorem met_ReloadAndStore :
    Admits (Master.core 47) (wrpBase + 256) live ∧
    live.loader.job = WrpJob.none ∧
    Admits (Master.core 47) (wrpBase + 256) reloadAndStore1 ∧
    reloadAndStore1.loader.job ≠ WrpJob.none ∧
    reloadAndStore2.loader.job = WrpJob.reloadCompare 31 1 true ∧
    reloadRefusal reloadAndStore2 31 1 true = some (1, 1, 0) ∧
    reloadAndStore3.loader.job = WrpJob.reloadCompare 0 1 true ∧
    reloadRefusal reloadAndStore3 0 1 true = none ∧
    reloadAndStore4.loader.job = WrpJob.reloadStages 0 1 ∧
    slotImage reloadAndStore4 1 = some plan ∧
    reloadAndStore10.loader.job = WrpJob.reloadStages 0 0 ∧
    slotImage reloadAndStore10 0 = none ∧
    (runStages (Scope.part 0) plan reloadAndStore4).2 = none ∧
    reloadAndStore5.loader.job = WrpJob.reloadStages 31 1 ∧
    slotImage reloadAndStore5 1 = some badLaw ∧
    (runStages (Scope.part 31) badLaw reloadAndStore5).2 = some (7, 10, 64) ∧
    Admits (Master.core 47) (wrpBase + 528) reloadAndStore6 ∧
    reloadAndStore6.loader.job = WrpJob.none ∧
    Admits (Master.core 47) (wrpBase + 528) reloadAndStore1 ∧
    reloadAndStore7.loader.job = WrpJob.store 1 [] 15 ∧
    15 ≠ 0 ∧
    reloadAndStore8.loader.job = WrpJob.store 1 [] 0 ∧
    0 = 0 ∧
    storeRefusal reloadAndStore8 1 [] = some (1, 1, 0) ∧
    reloadAndStore9.loader.job = WrpJob.store 1 plan 0 ∧
    storeRefusal reloadAndStore9 1 plan = none := by
  unfold Admits; and_intros <;> (decide +kernel)

/-- The hypotheses of `Obligations.CoreLoads` are met, in states and with operands named here. -/
theorem met_CoreLoads :
    coreRuns memS 0 = true ∧
    (acc AccKind.fetch 0 2 31 true true).kind ≠ AccKind.store ∧
    coreSpan memS 0 .fetch 0 (2 ^ (2#2).toNat) = .ok [pc_ 0 4] ∧
    isDram memS 0 = true ∧
    poisoned memS 0 4 = false ∧
    coreRuns memS 47 = true ∧
    coreSpan memS 47 .load 16492677562372 (2 ^ (2#2).toNat) = .ok [pc_ 16492677562372 4] ∧
    addrClass 16492677562372 = .reg ∧
    partOf memS (coreFid 47) = some 0 := by
  and_intros <;> (first | rfl | decide +kernel)

/-- The hypotheses of `Obligations.CoreStores` are met, in states and with operands named here. -/
theorem met_CoreStores :
    (acc AccKind.store 7 0 31 true true).kind = AccKind.store ∧
    DramAccess 0 AccKind.store 7 (2 ^ (0#2).toNat) (pc_ 7 1) memS := by
  unfold DramAccess; and_intros <;> (first | rfl | decide +kernel)

/-- P0's entries reopened by a reload; a core of Sv39 in S-mode and one of a guest of Sv39x4, their tables empty; a poisoned line 0. -/
def reopenedS : State := { live with rat := { reopened := some 31, entries := vset (vrep 64 {}) 0 { region with valid := false, owner := some 31 } } }
def pmpAll (c : Core) : Core := { c with pmpcfg := vset c.pmpcfg 0 0x1F, pmpaddr := vset c.pmpaddr 0 (BitVec.ofNat _ (2 ^ 54 - 1)) }
def sv39S : State := coreIn fun c => { pmpAll c with priv := .hs, satp := 0x8000000000000001 }
def guestS : State := coreIn fun c => { pmpAll c with priv := .vs, hgatp := 0x8000000000000004 }
def badS : State := { live with poison := [0] }
/-- The hypotheses of `Obligations.RefusedAccessTraps` are met, in states and with operands named here. -/
theorem met_RefusedAccessTraps :
    coreRuns memS 47 = true ∧
    memS.rat.waits = false ∧
    coreSpan memS 47 .store 1305670057984 8 = .error (1305670057984, .access (some (true, 4)) 1305670057984) ∧
    coreSpan memS 47 .load 17592186044416 1 = .error (17592186044416, .access none 17592186044416) ∧
    coreRuns reopenedS 47 = true ∧
    reopenedS.rat.waits = false ∧
    reopenedS.rat.reopened ≠ none ∧
    coreSpan reopenedS 47 .load 0 4 = .error (0, .held) ∧
    coreRuns sv39S 47 = true ∧
    coreSpan sv39S 47 .load 0 4 = .error (0, .page) ∧
    coreRuns guestS 47 = true ∧
    coreSpan guestS 47 .load 64 4 = .error (64, .guest 64) ∧
    coreRuns badS 47 = true ∧
    coreSpan badS 47 .load 0 4 = .ok [pc_ 0 4] ∧
    isDram badS 0 = true ∧
    poisoned badS 0 4 = true := by
  and_intros <;> (first | rfl | decide +kernel)

/-- The hypotheses of `Obligations.AtomicsAndCacheBlocks` are met, in states and with operands named here. -/
theorem met_AtomicsAndCacheBlocks :
    (0 % if false = true then 8 else 4) = 0 ∧
    poisoned memS 0 (if false = true then 8 else 4) = false ∧
    AmoOp.minu ≠ AmoOp.lr ∧
    AmoOp.minu ≠ AmoOp.sc ∧
    DramAccess 0 AccKind.store 0 (if false = true then 8 else 4) (pc_ 0 4) memS ∧
    pmpOk (vget memS.cores 0) AccKind.load 0 (if false = true then 8 else 4) = true ∧
    (8 % if true = true then 8 else 4) = 0 ∧
    poisoned memS 8 (if true = true then 8 else 4) = false ∧
    DramAccess 0 AccKind.load 8 (if true = true then 8 else 4) (pc_ 8 8) memS ∧
    DramAccess 0 AccKind.store 8 (if true = true then 8 else 4) (pc_ 8 8) memS ∧
    (vget memS.cores 0).resv = some (8, true) ∧
    coreRuns memS 0 = true ∧
    coreSpan memS 0 .store 8 (if false = true then 8 else 4) = .ok [pc_ 8 4] ∧
    (vget memS.cores 0).resv ≠ some (8, false) ∧
    (6 % if true = true then 8 else 4) ≠ 0 ∧
    coreRuns memS 47 = true ∧
    Instr.fence 47 15 15 false = Instr.fence 47 15 15 false ∧
    Instr.cboFlush 47 4096 63 ∈ [Instr.cboClean 47 4096 63, Instr.cboFlush 47 4096 63, Instr.cboInval 47 4096 63] ∧
    cboLine (atPc 47 4096 memS) 47 63 = .ok 0 ∧
    cboLine (atPc 47 4096 memS) 47 17592186044416 = .error (.access none 17592186044416) ∧
    memS.rat.reopened = none := by
  unfold DramAccess; and_intros <;> (first | rfl | decide +kernel)

/-- The hypotheses of `Obligations.Vectors` are met, in states and with operands named here. -/
theorem met_Vectors :
    coreRuns live 47 = true ∧
    (vget live.cores 47).vstart = 0 ∧
    coreRuns cvs 47 = true ∧
    (vget cvs.cores 47).vstart ≠ 0 ∧
    coreRuns memS 47 = true ∧
    (vget memS.cores 47).vstart = 0 ∧
    (vel false 2).store = false ∧
    DramAccess 47 AccKind.load 2 (2 ^ (0#2).toNat) (pc_ 2 1) memS ∧
    poisoned memS 2 (2 ^ (0#2).toNat) = false ∧
    (vel true 2).store = true ∧
    (vget memS.cores 47).vstart.toNat ≤ (vel true 2).idx.toNat ∧
    DramAccess 47 AccKind.store 2 (2 ^ (0#2).toNat) (pc_ 2 1) memS ∧
    memS.rat.reopened = none ∧
    [vel false 17592186044416].filter (fun e => (vget memS.cores 47).vstart.toNat ≤ e.idx.toNat) = [vel false 17592186044416] ∧
    coreSpan memS 47 .load 17592186044416 (2 ^ (0#2).toNat) = .error (17592186044416, .access none 17592186044416) ∧
    (vel false 2).idx = 0 ∧
    ({ vel false 17592186044416 with idx := 255 } : VElem).idx ≠ 0 := by
  unfold DramAccess; and_intros <;> (first | rfl | decide +kernel)

def coreTimersAndInterrupts1 : State := (coreIn fun c => { c with priv := .vu })
def coreTimersAndInterrupts2 : State := (coreIn fun c => { c with mtimecmp := 25000 })
def coreTimersAndInterrupts3 : State := (coreIn fun c => { c with stimecmp := 25000 })
def coreTimersAndInterrupts4 : State := (coreIn fun c => { c with status := 8, mtimecmp := 25000, mie := 0x80 })
def coreTimersAndInterrupts6 : State := (coreIn fun c => { c with hvip := 0x40 })
def coreTimersAndInterrupts7 : State := (coreIn fun c => { c with vstimecmp := 25007, htimedelta := 7 })
def coreTimersAndInterrupts5 : State := (coreIn fun c => { c with hpmEvent := vset (vrep 29 1) 28 12 })
/-- The hypotheses of `Obligations.CoreTimersAndInterrupts` are met, in states and with operands named here. -/
theorem met_CoreTimersAndInterrupts :
    coreRuns live 47 = true ∧
    (vget live.cores 47).priv = Priv.m ∧
    coreRuns coreTimersAndInterrupts1 47 = true ∧
    (vget coreTimersAndInterrupts1.cores 47).priv ≠ Priv.m ∧
    coreTimersAndInterrupts2.island.mode = Mode.full ∧
    (vget coreTimersAndInterrupts2.cores 47).mtimecmp ≤ coreTimersAndInterrupts2.time.it >>> 4 ∧
    coreTimersAndInterrupts3.island.mode = Mode.full ∧
    (vget coreTimersAndInterrupts3.cores 47).stimecmp ≤ coreTimersAndInterrupts3.time.it >>> 4 ∧
    coreTimersAndInterrupts6.island.mode = Mode.full ∧
    (vget coreTimersAndInterrupts6.cores 47).hvip.getLsbD 6 = true ∧
    coreTimersAndInterrupts7.island.mode = Mode.full ∧
    (vget coreTimersAndInterrupts7.cores 47).vstimecmp ≤
      (coreTimersAndInterrupts7.time.it >>> 4) + (vget coreTimersAndInterrupts7.cores 47).htimedelta ∧
    coreRuns coreTimersAndInterrupts4 47 = true ∧
    intrNow coreTimersAndInterrupts4 (vget coreTimersAndInterrupts4.cores 47) = some (7, Priv.m) ∧
    coreRuns coreTimersAndInterrupts5 47 = true ∧
    1 ≤ (vget (vget coreTimersAndInterrupts5.cores 47).hpmEvent 28).toNat % 65536 ∧
    (vget (vget coreTimersAndInterrupts5.cores 47).hpmEvent 28).toNat % 65536 ≤ 12 := by
  and_intros <;> (decide +kernel)

def registerWrites1 : State := { live with flt := vset live.flt (fidSlot (axFid 31)) { fence := true } }
/-- The hypotheses of `Obligations.RegisterWrites` are met, in states and with operands named here. -/
theorem met_RegisterWrites :
    masterRuns coreP1 (Master.core 47) = true ∧
    addrClass (16492677562372) = AddrClass.reg ∧
    regErr coreP1 (Master.core 47) (16492677562372) (if false = true then 8 else 4) true = some 5 ∧
    masterRuns live (Master.core 0) = true ∧
    regErr live (Master.core 0) (16492677562372) (if false = true then 8 else 4) true = none ∧
    masterPart live (Master.core 0) = some 0 ∧
    pageFenced live (16492677562372) = false ∧
    regDefined live 0 (16492677562372 - regBase) = true ∧
    live.rat.reopened = none ∧
    regErr live (Master.core 0) (regBase + 0x300FFC) (if false = true then 8 else 4) true = none ∧
    pageFenced live (regBase + 0x300FFC) = false ∧
    regDefined live 0 0x300FFC = false ∧
    masterRuns registerWrites1 (Master.core 0) = true ∧
    addrClass (BitVec.ofNat 44 (axsBase 31 + 80)).toNat = AddrClass.reg ∧
    regErr registerWrites1 (Master.core 0) (BitVec.ofNat 44 (axsBase 31 + 80)).toNat (if false = true then 8 else 4) true = none ∧
    masterPart registerWrites1 (Master.core 0) = some 0 ∧
    pageFenced registerWrites1 (BitVec.ofNat 44 (axsBase 31 + 80)).toNat = true ∧
    isFenced live frzFid = false ∧
    16492677562372 = regBase + 3145732 ∧
    regDefined live 0 3145732 = true := by
  and_intros <;> (decide +kernel)

def interruptsScrubAndPorts1 : State := { live with scrub := 0x7FFFFFFF }
def interruptsScrubAndPorts2 : State := { live with rports := vset live.rports 7 { exists_ := true, lanes := 4 } }
/-- The last line of stack 7. -/
def interruptsScrubAndPorts3 : State := { live with scrub := 0x13000000000 / 64 - 1 }
/-- The hypotheses of `Obligations.InterruptsScrubAndPorts` are met, in states and with operands named here. -/
theorem met_InterruptsScrubAndPorts :
    masterRuns live (Master.core 0) = true ∧
    masterPart live (Master.core 0) = some 0 ∧
    regErr live (Master.core 0) (regBase + 201326592 + 7104) 4 true = none ∧
    regDefined live 0 (201326592 + 7104) = true ∧
    rpOpen live 7 = true ∧
    partOf live (rpFid 7) = some 0 ∧
    belongs live 0 (fidMk 1 47) = true ∧
    255 ≠ 0 ∧
    rpOpen coreP1 7 = true ∧
    partOf coreP1 (rpFid 7) = some 0 ∧
    belongs coreP1 0 (fidMk 1 47) = false ∧
    interruptsScrubAndPorts1.island.mode = Mode.full ∧
    isDram interruptsScrubAndPorts1 (64 * interruptsScrubAndPorts1.scrub) = true ∧
    (eccFid (64 * interruptsScrubAndPorts1.scrub)).isSome = true ∧
    isDram interruptsScrubAndPorts3 (64 * interruptsScrubAndPorts3.scrub) = true ∧
    eccFid (64 * interruptsScrubAndPorts3.scrub) = some (fidMk 4 7) ∧
    interruptsScrubAndPorts3.rat.reopened = none ∧
    live.rat.reopened = none ∧
    isDram live (1305670057976) = true ∧
    ratCheck live 0 (1305670057976) AccKind.store Side.pcie = none ∧
    (List.replicate 8 90).length = 8 ∧
    1305670057976 % 8 = 0 ∧
    ratCheck live 0 (1305670057976) AccKind.load Side.pcie = none ∧
    poisoned live (1305670057976) 8 = false ∧
    ratHeld live 0 1305670057976 8 = false ∧
    imsicAt (imsicAddr 47 8) = some (47, 8) ∧
    imsicAddr 47 8 < 2 ^ 44 ∧
    addrClass (imsicAddr 47 8) = .reg ∧
    leNat [255, 0, 0, 0] < 256 ∧
    tlpOk true 17592186044416 0 [] = true ∧
    inboundErr (17592186044416) = some 4 ∧
    ([] : List Byte).length ≠ 4 ∧
    (vget live.rports 7).up = true ∧
    interruptsScrubAndPorts2.island.mode = Mode.full ∧
    (vget interruptsScrubAndPorts2.rports 7).exists_ = true ∧
    (vget interruptsScrubAndPorts2.rports 7).up = false ∧
    linkOk (vget interruptsScrubAndPorts2.rports 7) 4 5 = true ∧
    interruptsScrubAndPorts2.rat.reopened = none := by
  and_intros <;> (decide +kernel)

def queueRegisters1 : State := (inQueue { queue with enable := false, sqlog := 0 })
def queueRegisters2 : State := (inQueue queue)
def queueRegisters3 : State := (inQueue { queue with enable := false })
def queueRegisters4 : State := (inQueue { queue with cqtail := 2 })
/-- The hypotheses of `Obligations.QueueRegisters` are met, in states and with operands named here. -/
theorem met_QueueRegisters :
    Admits (Master.core 47) (cqSet 63 + 16) queueRegisters1 ∧
    (vget queueRegisters1.queues 63).enable = false ∧
    queueCfgOk
      { queueRegisters1 with queues := vset queueRegisters1.queues 63 { (vget queueRegisters1.queues 63) with sqlog := 4, cqlog := 5, evt := true } }
      63 = true ∧
    queueCfgOk
      { queueRegisters1 with queues := vset queueRegisters1.queues 63 { (vget queueRegisters1.queues 63) with sqlog := 3, cqlog := 4, evt := true } }
      63 = false ∧
    Admits (Master.core 47) (cqSet 63 + 16) queueRegisters2 ∧
    (vget queueRegisters2.queues 63).enable = true ∧
    Admits (Master.core 47) (cqSet 63 + 16) queueRegisters3 ∧
    (vget queueRegisters3.queues 63).enable = false ∧
    Admits (Master.core 47) (cqSet 63 + 24) queueRegisters2 ∧
    Admits (Master.core 47) (cqSet 63 + 36) queueRegisters4 := by
  unfold Admits; and_intros <;> (decide +kernel)

def operand3 := { cmd 0 0 0 [(2,1,2)] with st := .done 0 7 { it := 9, hold := false } }
def operand4 := { cmd 0 0 0 [(2,1,2)] with st := .done 1 7 { it := 9, hold := false } }
def commandsFlow1 : State := (inQueue { queue with sqtail := 0, sqhead := 15 })
/-- P31's region entry reopened: P0's ring in it is held. -/
def heldRing (s : State) : State :=
  { s with rat := { reopened := some 31, entries := vset (vrep 64 {}) 0 { region with valid := false, owner := some 31 } } }
def commandsFlow11 : State := heldRing commandsFlow1
def commandsFlow12 : State := { commandsFlow1 with poison := [(0x10 * 4096 + 15 * 256) / 64] }
def commandsFlow13 : State := (inQueue { queue with disp := [operand4], cqtail := 15 })
def commandsFlow2 : State := (noRegion (inQueue { queue with sqtail := 1 }))
def commandsFlow3 : State := (inQueue { queue with fetched := [cmd 0 0 0 [(16, 8, 400000)]] })
def commandsFlow4 : State := (inQueue { queue with fetched := [cmd 0x99 0 0 []] })
def commandsFlow5 : State := (ranWith { cmd 0 0 0 [(2,1,2)] with st := .done 0 7 { it := 9, hold := false } })
def commandsFlow6 : State := (ranWith { cmd 0 0 0 [(2,1,2)] with st := .done 1 7 { it := 9, hold := false } })
def commandsFlow7 : State := (ranWith (cmd 0 0 0 []))
def commandsFlow8 : State := (ranWith (cmd 1 0 0x0D03 []))
def commandsFlow9 : State := (ranWith (cmd 1 8 0x0D03 [(32, 8, 8), (64, 8, 0x1122334455667788)]))
def commandsFlow10 : State := (noRegion (ranWith (cmd 1 192 0x0D03 [(32, 8, 8), (64, 8, 0x1122334455667788)])))
/-- The hypotheses of `Obligations.CommandsFlow` are met, in states and with operands named here. -/
theorem met_CommandsFlow :
    (vget commandsFlow1.queues 63).enable = true ∧
    (vget commandsFlow1.queues 63).halted = false ∧
    (vget commandsFlow1.queues 63).sqhead ≠ (vget commandsFlow1.queues 63).sqtail ∧
    commandsFlow1.island.mode = Mode.full ∧
    queuePart commandsFlow1 63 = some 0 ∧
    ratHeld commandsFlow1 0 ((vget commandsFlow1.queues 63).sqbase.toNat * 4096 + 256 * (vget commandsFlow1.queues
      63).sqhead.toNat) 256 = false ∧
    queuePart commandsFlow11 63 = some 0 ∧
    commandsFlow11.rat.waits = false ∧
    ratHeld commandsFlow11 0 ((vget commandsFlow11.queues 63).sqbase.toNat * 4096 + 256 * (vget commandsFlow11.queues
      63).sqhead.toNat) 256 = true ∧
    queuePart commandsFlow12 63 = some 0 ∧
    poisoned commandsFlow12 ((vget commandsFlow12.queues 63).sqbase.toNat * 4096 + 256 * (vget commandsFlow12.queues
      63).sqhead.toNat) 256 = true ∧
    ratCheck commandsFlow1 0 ((vget commandsFlow1.queues 63).sqbase.toNat * 4096 + 256 * (vget commandsFlow1.queues
      63).sqhead.toNat) AccKind.load Side.plain = none ∧
    poisoned commandsFlow1 ((vget commandsFlow1.queues 63).sqbase.toNat * 4096 + 256 * (vget commandsFlow1.queues
      63).sqhead.toNat) 256 = false ∧
    (vget commandsFlow2.queues 63).enable = true ∧
    (vget commandsFlow2.queues 63).halted = false ∧
    (vget commandsFlow2.queues 63).sqhead ≠ (vget commandsFlow2.queues 63).sqtail ∧
    commandsFlow2.island.mode = Mode.full ∧
    queuePart commandsFlow2 63 = some 0 ∧
    ratCheck commandsFlow2 0 ((vget commandsFlow2.queues 63).sqbase.toNat * 4096 + 256 * (vget commandsFlow2.queues
      63).sqhead.toNat) AccKind.load Side.plain = some 0 ∧
    (vget commandsFlow3.queues 63).fetched = [cmd 0 0 0 [(16, 8, 400000)]] ∧
    (cmd 0 0 0 [(16, 8, 400000)]).startIt ≠ 0 ∧
    (cmd 0 0 0 [(16, 8, 400000)]).startIt ≤ BitVec.toNat commandsFlow3.time.it ∧
    (vget commandsFlow4.queues 63).fetched = [cmd 153 0 0 []] ∧
    mayDispatch commandsFlow4 63 (cmd 153 0 0 []) = true ∧
    (vget commandsFlow5.queues 63).disp[0]? = some operand3 ∧
    operand3.st = CmdState.done 0 7 { it := 9, hold := false } ∧
    ((List.take 0 (vget commandsFlow5.queues 63).disp).all fun e => decide (e.target ≠ operand3.target)) = true ∧
    operand3.nocomp = true ∧
    0 = 0 ∧
    (vget commandsFlow6.queues 63).disp[0]? = some operand4 ∧
    0 < (vget commandsFlow6.queues 63).room ∧
    commandsFlow6.rat.reopened = none ∧
    (vget commandsFlow13.queues 63).disp[0]? = some operand4 ∧
    (vget commandsFlow13.queues 63).room = 0 ∧
    operand4.st = CmdState.done 1 7 { it := 9, hold := false } ∧
    ((List.take 0 (vget commandsFlow6.queues 63).disp).all fun e => decide (e.target ≠ operand4.target)) = true ∧
    1 ≠ 0 ∧
    beginCmd commandsFlow7 63 0 0 = some (cmd 0 0 0 []) ∧
    beginCmd commandsFlow8 63 0 1 = some (cmd 1 0 3331 []) ∧
    queuePart commandsFlow8 63 = some 0 ∧
    (cmd 1 0 3331 []).inlineLen = 0 ∧
    beginCmd commandsFlow9 63 0 1 = some (cmd 1 8 3331 [(32, 8, 8), (64, 8, 1234605616436508552)]) ∧
    queuePart commandsFlow9 63 = some 0 ∧
    (cmd 1 8 3331 [(32, 8, 8), (64, 8, 1234605616436508552)]).inlineLen = 8 ∧
    isDram commandsFlow9 (leAt (cmd 1 8 3331 [(32, 8, 8), (64, 8, 1234605616436508552)]).bytes 32 8) = true ∧
    DramRange commandsFlow9 0 AccKind.store Side.plain (leAt (cmd 1 8 3331 [(32, 8, 8), (64, 8,
      1234605616436508552)]).bytes 32 8) (cmd 1 8 3331 [(32, 8, 8), (64, 8, 1234605616436508552)]).inline.length ∧
    (cmd 1 192 3331 [(32, 8, 8), (64, 8, 1234605616436508552)]).inline ≠ [] ∧
    commandsFlow10.rat.reopened = none ∧
    beginCmd commandsFlow10 63 0 1 = some (cmd 1 192 3331 [(32, 8, 8), (64, 8, 1234605616436508552)]) ∧
    queuePart commandsFlow10 63 = some 0 ∧
    (cmd 1 192 3331 [(32, 8, 8), (64, 8, 1234605616436508552)]).inlineLen ≠ 0 ∧
    isDram commandsFlow10 (leAt (cmd 1 192 3331 [(32, 8, 8), (64, 8, 1234605616436508552)]).bytes 32 8) = true ∧
    ratCheck commandsFlow10 0 (leAt (cmd 1 192 3331 [(32, 8, 8), (64, 8, 1234605616436508552)]).bytes 32 8) AccKind.store
      Side.plain = some 0 := by
  unfold DramRange; and_intros <;> (decide +kernel)

def recordsWritten1 : State := (inQueue { queue with cqtail := 15, nextSeq := 0xFFFFFFFF })
def recordsWritten3 : State := heldRing recordsWritten1
def recordsWritten4 : State := { recordsWritten1 with poison := [(0x40 * 4096 + 32 * 15) / 64] }
def recordsWritten2 : State := (noRegion (inQueue queue))
/-- The hypotheses of `Obligations.RecordsWritten` are met, in states and with operands named here. -/
theorem met_RecordsWritten :
    queuePart recordsWritten1 63 = some 0 ∧
    ratCheck recordsWritten1 0 ((vget recordsWritten1.queues 63).cqbase.toNat * 4096 + 32 * (vget recordsWritten1.queues
      63).cqtail.toNat) AccKind.store Side.plain = none ∧
    ratHeld recordsWritten1 0 ((vget recordsWritten1.queues 63).cqbase.toNat * 4096 + 32 * (vget recordsWritten1.queues
      63).cqtail.toNat) 32 = false ∧
    poisoned recordsWritten1 ((vget recordsWritten1.queues 63).cqbase.toNat * 4096 + 32 * (vget recordsWritten1.queues
      63).cqtail.toNat) 32 = false ∧
    queuePart recordsWritten3 63 = some 0 ∧
    ratHeld recordsWritten3 0 ((vget recordsWritten3.queues 63).cqbase.toNat * 4096 + 32 * (vget recordsWritten3.queues
      63).cqtail.toNat) 32 = true ∧
    queuePart recordsWritten4 63 = some 0 ∧
    poisoned recordsWritten4 ((vget recordsWritten4.queues 63).cqbase.toNat * 4096 + 32 * (vget recordsWritten4.queues
      63).cqtail.toNat) 32 = true ∧
    ratHeld recordsWritten2 0 ((vget recordsWritten2.queues 63).cqbase.toNat * 4096 + 32 * (vget recordsWritten2.queues
      63).cqtail.toNat) 32 = false ∧
    queuePart recordsWritten2 63 = some 0 ∧
    ratCheck recordsWritten2 0 ((vget recordsWritten2.queues 63).cqbase.toNat * 4096 + 32 * (vget recordsWritten2.queues
      63).cqtail.toNat) AccKind.store Side.plain = some 0 := by
  and_intros <;> (decide +kernel)

def eventsAndSupervision1 : State := { live with evbuf := vset live.evbuf 31 { recs := List.replicate 63 {} } }
def eventsAndSupervision2 : State := { live with evbuf := vset live.evbuf 31 { recs := List.replicate 64 {} } }
def eventsAndSupervision3 : State := { (inQueue queue) with evbuf := vset live.evbuf 0 { recs := [{ fid := 1 }] } }
def eventsAndSupervision4 : State := (tileWith fun t => { t with jobs := [{ origin := (63, 0), desc := [], part := 0, started := true }] })
/-- The hypotheses of `Obligations.EventsAndSupervision` are met, in states and with operands named here. -/
theorem met_EventsAndSupervision :
    eventQueue eventsAndSupervision1 31 = none ∧
    (vget eventsAndSupervision1.evbuf 31).recs.length < 64 ∧
    eventQueue eventsAndSupervision2 31 = none ∧
    64 ≤ (vget eventsAndSupervision2.evbuf 31).recs.length ∧
    eventsAndSupervision3.rat.reopened = none ∧
    drainQueue eventsAndSupervision3 0 = some 63 ∧
    vget eventsAndSupervision3.evbuf 0 = { recs := [{ fid := 1 }] } ∧
    fidOk 575 = true ∧
    eventsAndSupervision4.rat.reopened = none ∧
    atWork eventsAndSupervision4 575 = true := by
  and_intros <;> (decide +kernel)

def operand5 := { job (opd 2 32 [] []) with started := false }
def loomTiles1 : State := (tileWith fun t => { t with lane := true })
def loomTiles2 : State := (atOp [])
def loomTiles3 : State := (tileWith fun t => { t with cache := [(1, [])] })
def loomTiles4 : State := (ranWith (opCmd 32 [(66, 2, 32)]))
def loomTiles5 : State := (ranWith (opCmd 31 [(66, 2, 31)]))
def loomTiles6 : State := (ranWith (opCmd 0 [(32, 8, 8)]))
def loomTiles7 : State := (ranWith (opCmd 0 [(32, 8, 0x12FFFFFFF00)]))
def loomTiles8 : State := (tileWith fun t => { t with jobs := [{ job (opd 2 32 [] []) with started := false }] })
def loomTiles9 : State := (atOp (opd 0x40 160 [(0, 0), (16, 0), (8, 0)] []))
/-- The hypotheses of `Obligations.LoomTiles` are met, in states and with operands named here. -/
theorem met_LoomTiles :
    Admits (Master.core 47) (loomBase 63) loomTiles1 ∧
    (vget loomTiles1.tiles 63).lane = true ∧
    Admits (Master.core 47) (loomBase 63) loomTiles2 ∧
    (vget loomTiles2.tiles 63).lane = false ∧
    tileState loomTiles2 63 ≠ 0 ∧
    Admits (Master.core 47) (loomBase 63) loomTiles3 ∧
    (vget loomTiles3.tiles 63).lane = false ∧
    tileState loomTiles3 63 = 0 ∧
    Admits (Master.core 47) (loomBase 63 + 16) loomTiles3 ∧
    beginCmd loomTiles4 63 0 16 = some (opCmd 32 [(66, 2, 32)]) ∧
    queuePart loomTiles4 63 = some 0 ∧
    fidIdx (opCmd 32 [(66, 2, 32)]).target = 63 ∧
    zeroAt (opCmd 32 [(66, 2, 32)]).bytes 40 24 = true ∧
    leAt (opCmd 32 [(66, 2, 32)]).bytes 32 8 = 0 ∧
    (opCmd 32 [(66, 2, 32)]).inlineLen = leAt (opCmd 32 [(66, 2, 32)]).inline 2 2 ∧
    32 ≤ (opCmd 32 [(66, 2, 32)]).inlineLen ∧
    beginCmd loomTiles5 63 0 16 = some (opCmd 31 [(66, 2, 31)]) ∧
    queuePart loomTiles5 63 = some 0 ∧
    fidIdx (opCmd 31 [(66, 2, 31)]).target = 63 ∧
    zeroAt (opCmd 31 [(66, 2, 31)]).bytes 40 24 = true ∧
    leAt (opCmd 31 [(66, 2, 31)]).bytes 32 8 = 0 ∧
    ((opCmd 31 [(66, 2, 31)]).inlineLen ≠ leAt (opCmd 31 [(66, 2, 31)]).inline 2 2 ∨ (opCmd 31 [(66, 2, 31)]).inlineLen < 32) ∧
    beginCmd loomTiles6 63 0 16 = some (opCmd 0 [(32, 8, 8)]) ∧
    queuePart loomTiles6 63 = some 0 ∧
    fidIdx (opCmd 0 [(32, 8, 8)]).target = 63 ∧
    zeroAt (opCmd 0 [(32, 8, 8)]).bytes 40 24 = true ∧
    leAt (opCmd 0 [(32, 8, 8)]).bytes 32 8 ≠ 0 ∧
    leAt (opCmd 0 [(32, 8, 8)]).bytes 32 8 % 64 ≠ 0 ∧
    beginCmd loomTiles7 63 0 16 = some (opCmd 0 [(32, 8, 1305670057728)]) ∧
    queuePart loomTiles7 63 = some 0 ∧
    fidIdx (opCmd 0 [(32, 8, 1305670057728)]).target = 63 ∧
    zeroAt (opCmd 0 [(32, 8, 1305670057728)]).bytes 40 24 = true ∧
    leAt (opCmd 0 [(32, 8, 1305670057728)]).bytes 32 8 ≠ 0 ∧
    leAt (opCmd 0 [(32, 8, 1305670057728)]).bytes 32 8 % 64 = 0 ∧
    isDram loomTiles7 (leAt (opCmd 0 [(32, 8, 1305670057728)]).bytes 32 8) = true ∧
    (∀ i < 24, ratCheck loomTiles7 0 (leAt (opCmd 0 [(32, 8, 1305670057728)]).bytes 32 8 + 8 * i) AccKind.load Side.plain =
      none) ∧
    loomTiles7.rat.reopened = none ∧
    poisoned loomTiles7 (leAt (opCmd 0 [(32, 8, 1305670057728)]).bytes 32 8) 192 = false ∧
    (vget loomTiles8.tiles 63).jobs = [operand5] ∧
    operand5.started = false ∧
    (vget loomTiles8.tiles 63).held = false ∧
    isFenced loomTiles8 (fidMk 2 63) = false ∧
    loomTiles8.island.mode = Mode.full ∧
    (Instr.gather 63, 64) ∈ [(Instr.opNop 63, 0), (Instr.gemm 63, 1), (Instr.eltwise 63, 16), (Instr.act 63, 17), (Instr.reduce
      63, 32), (Instr.softmax 63, 33), (Instr.norm 63, 34), (Instr.convert 63, 48), (Instr.gather 63, 64)] ∧
    loomTiles9.rat.reopened = none ∧
    opJob loomTiles9 63 64 = some (job (opd 64 160 [(0, 0), (16, 0), (8, 0)] [])) ∧
    descCheck (opDesc (job (opd 64 160 [(0, 0), (16, 0), (8, 0)] [])).desc) = some 290 ∧
    (vget loomTiles2.tiles 63).jobs = [job []] := by
  unfold Admits; and_intros <;> (decide +kernel)

def reflexLanes1 : State := (laneWith fun n => { n with req := some laneReq })
def reflexLanes2 : State := (laneWith fun n => { n with req := some laneReq, normOfs := 64, model := List.replicate 67 0 ++ [0x7F, 0, 0, 0, 0x7F] ++ List.replicate 100 0xFF })
/-- The hypotheses of `Obligations.ReflexLanes` are met, in states and with operands named here. -/
theorem met_ReflexLanes :
    vsvoGood reflexLanes1 = true ∧
    (vget reflexLanes1.lanes 7).on = true ∧
    (vget reflexLanes1.lanes 7).axes ≠ [] ∧
    (vget reflexLanes1.lanes 7).period ≠ 0 ∧
    BitVec.toNat reflexLanes1.time.it % (vget reflexLanes1.lanes 7).period = 0 ∧
    (vget reflexLanes1.lanes 7).req = some laneReq ∧
    laneWorks reflexLanes1 7 = true ∧
    laneAge reflexLanes1 laneReq ≤ (vget reflexLanes1.lanes 7).deadline.toNat ∧
    laneAge reflexLanes1 laneReq ≤ laneBound reflexLanes1 (vget reflexLanes1.lanes 7) ∧
    (laneNet (vget reflexLanes1.lanes 7) laneReq.input).all f32fin = true ∧
    (vget reflexLanes2.lanes 7).req = some laneReq ∧
    laneWorks reflexLanes2 7 = true ∧
    laneAge reflexLanes2 laneReq ≤ (vget reflexLanes2.lanes 7).deadline.toNat ∧
    laneAge reflexLanes2 laneReq ≤ laneBound reflexLanes2 (vget reflexLanes2.lanes 7) ∧
    (laneNet (vget reflexLanes2.lanes 7) laneReq.input).all f32fin = false ∧
    BitVec.toNat laneReq.t0 + (vget reflexLanes1.lanes 7).deadline.toNat ≤ BitVec.toNat reflexLanes1.time.it := by
  and_intros <;> (decide +kernel)

def operand6 := { chain [] with done := 65536 }
def operand7 := { shuttleCmd 0 [] with st := .running }
def operand8 := { chain [] with done := 3, waitPeat := some (7, 31) }
def shuttleChains1 : State := (ranWith (shuttleCmd 0 [(32, 1, 7), (40, 8, 64)]))
def shuttleChains2 : State := (ranWith (shuttleCmd 128 [(32, 1, 7), (64, 8, 64)]))
def shuttleChains3 : State := (ranWith (shuttleCmd 64 [(32, 1, 8)]))
def shuttleChains4 : State := { (ranWith { shuttleCmd 0 [] with st := .waiting }) with shuttle := vset live.shuttle 15 { held := false, ch := vset (vrep 8 {}) 7 { waiting := [chain [], chain []] } } }
def shuttleChains5 : State := (atChain { chain [] with done := 65536 })
def shuttleChains6 : State := withEng (fun _ => { mine with run := some (prun 0 0 0) }) (atChain { chain [] with done := 3, waitPeat := some (7, 31) })
def shuttleChains7 : State := (atChain (chain [sd 16 0 0 0 []]))
def shuttleChains8 : State := (atChain (chain [sd 17 16 0 0 []]))
def shuttleChains9 : State := (withEng (fun e => { e with modePending := some (.mode, 1) }) (atChain (chain [sd 24 16 0 0 [(26, 1, 0xFF)]])))
def shuttleChains10 : State := (atChain (chain [sd 8 7 9 0x12FFFFFFFF9 [(48, 8, 128)]]))
def shuttleChains11 : State := { (ranWith { shuttleCmd 0 [] with st := .running }) with shuttle := vset live.shuttle 15 { held := false, ch := vset (vrep 8 {}) 7 { out := [{ remote := false, dst := 0, part := 0, addr := 8, data := List.replicate 8 0x41, stream := 0, final := true }] } } }
/-- The hypotheses of `Obligations.ShuttleChains` are met, in states and with operands named here. -/
theorem met_ShuttleChains :
    partOf shuttleChains1 (shuttleFid 15) = some 0 ∧
    beginCmd shuttleChains1 63 0 32 = some (shuttleCmd 0 [(32, 1, 7), (40, 8, 64)]) ∧
    fidIdx (shuttleCmd 0 [(32, 1, 7), (40, 8, 64)]).target = 15 ∧
    byteAt (shuttleCmd 0 [(32, 1, 7), (40, 8, 64)]).bytes 32 = 7 ∧
    zeroAt (shuttleCmd 0 [(32, 1, 7), (40, 8, 64)]).bytes 33 7 = true ∧
    leAt (shuttleCmd 0 [(32, 1, 7), (40, 8, 64)]).bytes 40 8 ≠ 0 ∧
    leAt (shuttleCmd 0 [(32, 1, 7), (40, 8, 64)]).bytes 40 8 % 64 = 0 ∧
    (shuttleCmd 0 [(32, 1, 7), (40, 8, 64)]).inlineLen = 0 ∧
    partOf shuttleChains2 (shuttleFid 15) = some 0 ∧
    beginCmd shuttleChains2 63 0 32 = some (shuttleCmd 128 [(32, 1, 7), (64, 8, 64)]) ∧
    fidIdx (shuttleCmd 128 [(32, 1, 7), (64, 8, 64)]).target = 15 ∧
    byteAt (shuttleCmd 128 [(32, 1, 7), (64, 8, 64)]).bytes 32 = 7 ∧
    zeroAt (shuttleCmd 128 [(32, 1, 7), (64, 8, 64)]).bytes 33 7 = true ∧
    leAt (shuttleCmd 128 [(32, 1, 7), (64, 8, 64)]).bytes 40 8 = 0 ∧
    (shuttleCmd 128 [(32, 1, 7), (64, 8, 64)]).inlineLen = 128 ∧
    partOf shuttleChains3 (shuttleFid 15) = some 0 ∧
    beginCmd shuttleChains3 63 0 32 = some (shuttleCmd 64 [(32, 1, 8)]) ∧
    fidIdx (shuttleCmd 64 [(32, 1, 8)]).target = 15 ∧
    (8 ≤ byteAt (shuttleCmd 64 [(32, 1, 8)]).bytes 32 ∨ zeroAt (shuttleCmd 64 [(32, 1, 8)]).bytes 33 7 = false ∨ leAt
      (shuttleCmd 64 [(32, 1, 8)]).bytes 40 8 ≠ 0 ∧ (leAt (shuttleCmd 64 [(32, 1, 8)]).bytes 40 8 % 64 ≠ 0 ∨ (shuttleCmd 64 [(32,
      1, 8)]).inlineLen ≠ 0) ∨ leAt (shuttleCmd 64 [(32, 1, 8)]).bytes 40 8 = 0 ∧ (shuttleCmd 64 [(32, 1, 8)]).inlineLen ∉ [64,
      128, 192]) ∧
    partOf shuttleChains4 (shuttleFid 15) = some 0 ∧
    (shuttleChains4.channel 15 7).waiting = [chain [], chain []] ∧
    (shuttleChains4.channel 15 7).running = none ∧
    shuttleRuns shuttleChains4 15 = true ∧
    shuttleChains4.island.mode = Mode.full ∧
    partOf shuttleChains5 (shuttleFid 15) = some 0 ∧
    (shuttleChains5.channel 15 7).running = some operand6 ∧
    operand6.result = none ∧
    shuttleRuns shuttleChains5 15 = true ∧
    Quiet shuttleChains5 15 7 ∧
    InProgress shuttleChains5 operand6.origin operand7 ∧
    65536 ≤ operand6.done ∧
    shuttleChains5.rat.reopened = none ∧
    shuttleChains7.rat.reopened = none ∧
    shuttleChains8.rat.reopened = none ∧
    shuttleChains9.rat.reopened = none ∧
    partOf shuttleChains6 (shuttleFid 15) = some 0 ∧
    (shuttleChains6.channel 15 7).running = some operand8 ∧
    operand8.result = none ∧
    shuttleRuns shuttleChains6 15 = true ∧
    Quiet shuttleChains6 15 7 ∧
    InProgress shuttleChains6 operand8.origin operand7 ∧
    shuttleChains6.rat.reopened = none ∧
    operand8.waitPeat = some (7, 31) ∧
    (shuttleChains6.eng 7 31).ready = false ∧
    partOf shuttleChains7 (shuttleFid 15) = some 0 ∧
    (shuttleChains7.channel 15 7).running = some (chain [sd 16 0 0 0 []]) ∧
    (chain [sd 16 0 0 0 []]).result = none ∧
    shuttleRuns shuttleChains7 15 = true ∧
    Quiet shuttleChains7 15 7 ∧
    InProgress shuttleChains7 (chain [sd 16 0 0 0 []]).origin operand7 ∧
    (chain [sd 16 0 0 0 []]).done < 65536 ∧
    (chain [sd 16 0 0 0 []]).inline = [sd 16 0 0 0 []] ∧
    (sdesc (sd 16 0 0 0 [])).bad (!(sdesc (sd 16 0 0 0 [])).last && true) = true ∧
    partOf shuttleChains8 (shuttleFid 15) = some 0 ∧
    (shuttleChains8.channel 15 7).running = some (chain [sd 17 16 0 0 []]) ∧
    (chain [sd 17 16 0 0 []]).result = none ∧
    shuttleRuns shuttleChains8 15 = true ∧
    Quiet shuttleChains8 15 7 ∧
    InProgress shuttleChains8 (chain [sd 17 16 0 0 []]).origin operand7 ∧
    (chain [sd 17 16 0 0 []]).done < 65536 ∧
    (chain [sd 17 16 0 0 []]).inline = [sd 17 16 0 0 []] ∧
    (sdesc (sd 17 16 0 0 [])).bad (!(sdesc (sd 17 16 0 0 [])).last && true) = false ∧
    (sdesc (sd 17 16 0 0 [])).badFinal = true ∧
    partOf shuttleChains9 (shuttleFid 15) = some 0 ∧
    (shuttleChains9.channel 15 7).running = some (chain [sd 24 16 0 0 [(26, 1, 255)]]) ∧
    (chain [sd 24 16 0 0 [(26, 1, 255)]]).result = none ∧
    shuttleRuns shuttleChains9 15 = true ∧
    Quiet shuttleChains9 15 7 ∧
    InProgress shuttleChains9 (chain [sd 24 16 0 0 [(26, 1, 255)]]).origin operand7 ∧
    (chain [sd 24 16 0 0 [(26, 1, 255)]]).done < 65536 ∧
    (chain [sd 24 16 0 0 [(26, 1, 255)]]).inline = [sd 24 16 0 0 [(26, 1, 255)]] ∧
    (sdesc (sd 24 16 0 0 [(26, 1, 255)])).bad (!(sdesc (sd 24 16 0 0 [(26, 1, 255)])).last && true) = false ∧
    (sdesc (sd 24 16 0 0 [(26, 1, 255)])).badFinal = false ∧
    (sdesc (sd 24 16 0 0 [(26, 1, 255)])).waitPeat = true ∧
    (shuttleChains9.eng (sdesc (sd 24 16 0 0 [(26, 1, 255)])).peatStack (sdesc (sd 24 16 0 0 [(26, 1, 255)])).peatEng).ready =
      false ∧
    partOf shuttleChains10 (shuttleFid 15) = some 0 ∧
    (shuttleChains10.channel 15 7).running = some (chain [sd 8 7 9 1305670057977 [(48, 8, 128)]]) ∧
    (chain [sd 8 7 9 1305670057977 [(48, 8, 128)]]).result = none ∧
    shuttleRuns shuttleChains10 15 = true ∧
    Quiet shuttleChains10 15 7 ∧
    InProgress shuttleChains10 (chain [sd 8 7 9 1305670057977 [(48, 8, 128)]]).origin operand7 ∧
    (chain [sd 8 7 9 1305670057977 [(48, 8, 128)]]).done < 65536 ∧
    (chain [sd 8 7 9 1305670057977 [(48, 8, 128)]]).inline = [sd 8 7 9 1305670057977 [(48, 8, 128)]] ∧
    (sdesc (sd 8 7 9 1305670057977 [(48, 8, 128)])).bad (!(sdesc (sd 8 7 9 1305670057977 [(48, 8, 128)])).last && true) = false ∧
    (sdesc (sd 8 7 9 1305670057977 [(48, 8, 128)])).badFinal = false ∧
    (sdesc (sd 8 7 9 1305670057977 [(48, 8, 128)])).remote = false ∧
    (sdesc (sd 8 7 9 1305670057977 [(48, 8, 128)])).rows = 1 ∧
    DramRange shuttleChains10 0 AccKind.load Side.engine (sdesc (sd 8 7 9 1305670057977 [(48, 8, 128)])).src (sdesc (sd 8 7 9
      1305670057977 [(48, 8, 128)])).len ∧
    DramRange shuttleChains10 0 AccKind.store Side.engine (sdesc (sd 8 7 9 1305670057977 [(48, 8, 128)])).dst (sdesc (sd 8 7 9
      1305670057977 [(48, 8, 128)])).len ∧
    partOf shuttleChains11 (shuttleFid 15) = some 0 ∧
    (shuttleChains11.channel 15 7).out =
      [{ remote := false, dst := 0, part := 0, addr := 8, data := List.replicate 8 65, stream := 0, final := true }] ∧
    (true) = true ∧
    (false) = false ∧
    (0) = 0 ∧
    mayIssue shuttleChains11 15 7
      [{ remote := false, dst := 0, part := 0, addr := 8, data := List.replicate 8 65, stream := 0, final := true }]
      { remote := false, dst := 0, part := 0, addr := 8, data := List.replicate 8 65, stream := 0, final := true } = true ∧
    shuttleRuns shuttleChains11 15 = true ∧
    (8) % 8 = 0 ∧
    (List.replicate 8 65).length = 8 ∧
    DramRange shuttleChains11 0 AccKind.store Side.engine (8) 8 := by
  unfold DramRange InProgress Quiet; and_intros <;> (decide +kernel)

def operand9 := { prun 0 0 0 with result := some 4 }
def operand10 := { pcmd [] with st := .running }
def operand11 := { (optS 3 []) with mem := [(0x12A00003FFE, 0x80), (0x12A00003FFF, 0x7F)] }
def peatEngines1 : State := (eng mine)
def peatEngines2 : State := (eng {})
def peatEngines3 : State := (eng { mine with modePending := some (.mode, 1) })
def peatEngines4 : State := (eng { mine with modePending := some (.abase, 1) })
def peatEngines5 : State := (eng { mine with modePending := some (.alim, 1) })
def peatEngines6 : State := (ranWith (pcmd [(32, 4, 1)]))
def peatEngines7 : State := (withEng (fun _ => { mine with modePending := some (.mode, 1) }) (ranWith (pcmd [(32, 4, 0x80000000)])))
def peatEngines8 : State := (withEng (fun _ => mine) (ranWith (pcmd [(32, 4, 0x80000000), (36, 1, 4)])))
def peatEngines9 : State := (ranWith (pcmd []))
def peatEngines10 : State := (withEng (fun _ => mine) (ranWith (pcmd [(32, 4, 0x80000000), (36, 1, 4), (40, 8, 0x12A00000000), (48, 8, 0x600000000)])))
def peatEngines11 : State := (eng { mine with run := some { prun 0 0 0 with result := some 4 } })
def peatEngines12 : State := (eng { mine with run := some (prun 0 0 0) })
def peatEngines13 : State := (eng { mine with run := some (prun 1 0 0) })
def peatEngines14 : State := { (eng { mine with run := some (prun 2 7936 256) }) with mem := [(7935, 1), (7936, 2), (8191, 3), (8192, 4)] }
def peatEngines15 : State := (eng { mine with run := some (prun 3 0 0) })
def peatEngines16 : State := (eng { mine with run := some (prun 4 0 0) })
def peatEngines17 : State := (optS 3 [0x12A00003FFF / 64])
def peatEngines18 : State := (optS 4 [0x12A0003007F / 64])
def peatEngines19 : State := (optS 3 [])
def peatEngines20 : State := (optS 4 [])
theorem peatDone_noChannel (d : Fin 4) (q : Fin 8) (c : ChanDesc) (h : (peatDone.chan d q).desc = some c) :
    stackOf c.master ≠ some 7 := by
  rw [(by decide +kernel : ∀ (d : Fin 4) (q : Fin 8), (peatDone.chan d q).desc = none) d q] at h; cases h
/-- The hypotheses of `Obligations.PeatEngines` are met, in states and with operands named here. -/
theorem met_PeatEngines :
    masterPart peatEngines1 (Master.core 47) = some 0 ∧
    Admits (Master.core 47) (peatReg 7 31 0) peatEngines1 ∧
    Admits (Master.core 47) (peatReg 7 31 (peatRegOff PeatReg.alim)) peatEngines1 ∧
    (peatEngines1.eng 7 31).owns 0 = true ∧
    (peatEngines1.eng 7 31).ready = true ∧
    masterPart peatEngines2 (Master.core 47) = some 0 ∧
    Admits (Master.core 47) (peatReg 7 31 (peatRegOff PeatReg.alim)) peatEngines2 ∧
    (peatEngines2.eng 7 31).owns 0 = false ∧
    masterPart peatEngines3 (Master.core 47) = some 0 ∧
    Admits (Master.core 47) (peatReg 7 31 (peatRegOff PeatReg.alim)) peatEngines3 ∧
    (peatEngines3.eng 7 31).owns 0 = true ∧
    (peatEngines3.eng 7 31).ready = false ∧
    (peatEngines3.eng 7 31).modePending = some (PeatReg.mode, 1) ∧
    (peatEngines4.eng 7 31).modePending = some (PeatReg.abase, 1) ∧
    (peatEngines5.eng 7 31).modePending = some (PeatReg.alim, 1) ∧
    beginCmd peatEngines6 63 0 48 = some (pcmd [(32, 4, 1)]) ∧
    queuePart peatEngines6 63 = some 0 ∧
    fidIdx (pcmd [(32, 4, 1)]).target = 7 ∧
    (¬∀ (i : Fin 32), bitOf (leAt (pcmd [(32, 4, 1)]).bytes 32 4) ↑i = true → (peatEngines6.eng 7 i).owns 0 = true) ∧
    beginCmd peatEngines7 63 0 48 = some (pcmd [(32, 4, 2147483648)]) ∧
    queuePart peatEngines7 63 = some 0 ∧
    fidIdx (pcmd [(32, 4, 2147483648)]).target = 7 ∧
    (∀ (i : Fin 32), bitOf (leAt (pcmd [(32, 4, 2147483648)]).bytes 32 4) ↑i = true → (peatEngines7.eng 7 i).owns 0 = true) ∧
    (¬∀ (i : Fin 32), bitOf (leAt (pcmd [(32, 4, 2147483648)]).bytes 32 4) ↑i = true → (peatEngines7.eng 7 i).ready = true) ∧
    beginCmd peatEngines8 63 0 48 = some (pcmd [(32, 4, 2147483648), (36, 1, 4)]) ∧
    queuePart peatEngines8 63 = some 0 ∧
    fidIdx (pcmd [(32, 4, 2147483648), (36, 1, 4)]).target = 7 ∧
    (∀ (i : Fin 32), bitOf (leAt (pcmd [(32, 4, 2147483648), (36, 1, 4)]).bytes 32 4) ↑i = true → (peatEngines8.eng 7 i).owns 0
      = true) ∧
    (∀ (i : Fin 32), bitOf (leAt (pcmd [(32, 4, 2147483648), (36, 1, 4)]).bytes 32 4) ↑i = true → (peatEngines8.eng 7 i).ready =
      true) ∧
    (¬(2 ≤ byteAt (pcmd [(32, 4, 2147483648), (36, 1, 4)]).bytes 36 ∧ byteAt (pcmd [(32, 4, 2147483648), (36, 1, 4)]).bytes 36 ≤
      4 → peatRangeOk 7 (leAt (pcmd [(32, 4, 2147483648), (36, 1, 4)]).bytes 40 8) (leAt (pcmd [(32, 4, 2147483648), (36, 1,
      4)]).bytes 48 8) = true)) ∧
    beginCmd peatEngines9 63 0 48 = some (pcmd []) ∧
    queuePart peatEngines9 63 = some 0 ∧
    fidIdx (pcmd []).target = 7 ∧
    (∀ (i : Fin 32), bitOf (leAt (pcmd []).bytes 32 4) ↑i = true → (peatEngines9.eng 7 i).owns 0 = true) ∧
    (∀ (i : Fin 32), bitOf (leAt (pcmd []).bytes 32 4) ↑i = true → (peatEngines9.eng 7 i).ready = true) ∧
    (2 ≤ byteAt (pcmd []).bytes 36 ∧ byteAt (pcmd []).bytes 36 ≤ 4 → peatRangeOk 7 (leAt (pcmd []).bytes 40 8) (leAt (pcmd
      []).bytes 48 8) = true) ∧
    leAt (pcmd []).bytes 32 4 = 0 ∧
    beginCmd peatEngines10 63 0 48 = some (pcmd [(32, 4, 2147483648), (36, 1, 4), (40, 8, 1279900254208), (48, 8, 25769803776)]) ∧
    queuePart peatEngines10 63 = some 0 ∧
    fidIdx (pcmd [(32, 4, 2147483648), (36, 1, 4), (40, 8, 1279900254208), (48, 8, 25769803776)]).target = 7 ∧
    (∀ (i : Fin 32), bitOf (leAt (pcmd [(32, 4, 2147483648), (36, 1, 4), (40, 8, 1279900254208), (48, 8, 25769803776)]).bytes 32
      4) ↑i = true → (peatEngines10.eng 7 i).owns 0 = true) ∧
    (∀ (i : Fin 32), bitOf (leAt (pcmd [(32, 4, 2147483648), (36, 1, 4), (40, 8, 1279900254208), (48, 8, 25769803776)]).bytes 32
      4) ↑i = true → (peatEngines10.eng 7 i).ready = true) ∧
    (2 ≤ byteAt (pcmd [(32, 4, 2147483648), (36, 1, 4), (40, 8, 1279900254208), (48, 8, 25769803776)]).bytes 36 ∧ byteAt (pcmd
      [(32, 4, 2147483648), (36, 1, 4), (40, 8, 1279900254208), (48, 8, 25769803776)]).bytes 36 ≤ 4 → peatRangeOk 7 (leAt (pcmd
      [(32, 4, 2147483648), (36, 1, 4), (40, 8, 1279900254208), (48, 8, 25769803776)]).bytes 40 8) (leAt (pcmd [(32, 4,
      2147483648), (36, 1, 4), (40, 8, 1279900254208), (48, 8, 25769803776)]).bytes 48 8) = true) ∧
    bitOf (leAt (pcmd [(32, 4, 2147483648), (36, 1, 4), (40, 8, 1279900254208), (48, 8, 25769803776)]).bytes 32 4) 31 = true ∧
    (peatEngines11.eng 7 31).run = some operand9 ∧
    operand9.result = some 4 ∧
    operand9.why = PeatWhy.trig ∧
    (peatDone.eng 7 31).run = some doneRun ∧
    doneRun.result = some 4 ∧
    doneRun.why = PeatWhy.command (63, 0).1 (63, 0).2 ∧
    (∀ (i : Fin 32) (r' : PeatRun), i ≠ 31 → (peatDone.eng 7 i).run = some r' → r'.why ≠ PeatWhy.command (63, 0).1 (63, 0).2) ∧
    List.find? (fun x => decide (x.1 = (63, 0))) (vget peatDone.peat 7).fails = none ∧
    InProgress peatDone (63, 0) operand10 ∧
    peatDone.rat.reopened = none ∧
    peatEngines3.rat.reopened = none ∧
    peatEngines11.rat.reopened = none ∧
    (∀ (d : Fin 4) (q : Fin 8) (c : ChanDesc), (peatDone.chan d q).desc = some c → stackOf c.master ≠ some 7) ∧
    peatRun peatEngines12 7 31 0 = some (prun 0 0 0) ∧
    peatRun peatEngines13 7 31 1 = some (prun 1 0 0) ∧
    peatRun peatEngines14 7 31 2 = some (prun 2 7936 256) ∧
    (prun 2 7936 256).base % 256 = 0 ∧
    (prun 2 7936 256).len % 256 = 0 ∧
    peatRun peatEngines15 7 31 3 = some (prun 3 0 0) ∧
    paramOk 7 (prun 3 0 0) = false ∧
    peatRun peatEngines16 7 31 4 = some (prun 4 0 0) ∧
    paramOk 7 (prun 4 0 0) = false ∧
    peatRun peatEngines17 7 31 3 = some (prun7 3) ∧
    paramOk 7 (prun7 3) = true ∧
    rangePoisoned peatEngines17 31 (prun7 3) = true ∧
    peatRun peatEngines18 7 31 4 = some (prun7 4) ∧
    paramOk 7 (prun7 4) = true ∧
    rangePoisoned peatEngines18 31 (prun7 4) = true ∧
    peatRun peatEngines19 7 31 3 = some (prun7 3) ∧
    rangePoisoned peatEngines19 31 (prun7 3) = false ∧
    peatRun peatEngines20 7 31 4 = some (prun7 4) ∧
    rangePoisoned peatEngines20 31 (prun7 4) = false ∧
    ((fun x y => x + 4 ≤ y ∨ y + 4 ≤ x) 1279900262144 ((paramOf pblk0).gbase + (1279900262144 - 1279900262144))) ∧
    ((fun x y => x + 4 ≤ y ∨ y + 4 ≤ x) 1279900262144 ((paramOf pblk0).mbase + (1279900262144 - 1279900262144))) ∧
    ((fun x y => x + 4 ≤ y ∨ y + 4 ≤ x) ((paramOf pblk0).gbase + (1279900262144 - 1279900262144)) ((paramOf pblk0).mbase +
      (1279900262144 - 1279900262144))) ∧
    f32fin (f32mul (rd32 (optS 3 []) ((paramOf pblk0).gbase + (1279900262144 - 1279900262144))) (paramOf pblk0).gscale) = true ∧
    (paramOf pblk0).alg = 0 ∧
    ((fun x y => x + 4 ≤ y ∨ y + 4 ≤ x) 1279900262396 ((paramOf pblk0).gbase + (1279900262396 - 1279900262144))) ∧
    ((fun x y => x + 4 ≤ y ∨ y + 4 ≤ x) 1279900262396 ((paramOf pblk0).mbase + (1279900262396 - 1279900262144))) ∧
    ((fun x y => x + 4 ≤ y ∨ y + 4 ≤ x) ((paramOf pblk0).gbase + (1279900262396 - 1279900262144)) ((paramOf pblk0).mbase +
      (1279900262396 - 1279900262144))) ∧
    f32fin (f32mul (rd32 operand11 ((paramOf pblk0).gbase + (1279900262396 - 1279900262144))) (paramOf pblk0).gscale) = false := by
  unfold Admits InProgress; and_intros <;> (first | exact peatDone_others | exact peatDone_noChannel | decide +kernel)

def fabricLinks1 : State := (portS id)
def fabricLinks2 : State := (portS fun x => { x with txTimes := [1000] })
def fabricLinks3 : State := (portS fun x => { x with st := .hello })
def fabricLinks4 : State := (portS fun x => { x with replayBuf := [(0, 0, pkt 1 [])] })
def fabricLinks5 : State := (portS fun x => { x with st := .down })
def fabricLinks6 : State := (portS fun x => { x with st := .training })
def fabricLinks7 : State := (portS fun x => { x with st := .training, helloRx := true })
/-- The hypotheses of `Obligations.FabricLinks` are met, in states and with operands named here. -/
theorem met_FabricLinks :
    (pkt 1 [7]).data.length ≤ 208 ∧
    fabricLinks1.rat.reopened = none ∧
    (vget fabricLinks1.ports 15).st = PortState.up ∧
    frameOk (outBytes hdr (.time tf)) = true ∧
    frameType (outBytes hdr (.time tf)) = 2 ∧
    (timeOf (framePay (outBytes hdr (.time tf))) (framePlen (outBytes hdr (.time tf)))).echoTx ∉ (vget fabricLinks1.ports 15).txTimes ∧
    (vget fabricLinks2.ports 15).st = PortState.up ∧
    1000 ∈ (vget fabricLinks2.ports 15).txTimes ∧
    ((4000 : Int) - 1000 + ((fabricLinks2.time.it.toNat : Int) - 5000) = 2 * 199000 ∧ 199000 < 2 ^ 20) ∧
    frameOk (outBytes hdr (.data 0 (pkt 1 [7]))) = true ∧
    frameType (outBytes hdr (.data 0 (pkt 1 [7]))) = 1 ∧
    packetOf (framePay (outBytes hdr (.data 0 (pkt 1 [7])))) (framePlen (outBytes hdr (.data 0 (pkt 1 [7])))) = some (pkt 1 [7]) ∧
    leAt (outBytes hdr (.data 0 (pkt 1 [7]))) 2 2 = (vget fabricLinks1.ports 15).rxSeq.toNat ∧
    (pkt 1 [7]).dchip = chipId fabricLinks1 ∧
    knownType (pkt 1 [7]).ttype = true ∧
    vcHeld (linkHdr 15 hdr fabricLinks1) 15 (vcOf (pkt 1 [7]) true) < vcFrames (vcOf (pkt 1 [7]) true) ∧
    frameOk (List.replicate 256 1) = false ∧
    (vget fabricLinks1.ports 15).nakSent = false ∧
    (vget fabricLinks1.ports 15).naks = [] ∧
    ctlFrame (outBytes hdr (.ctl (.nak 5))) 1 = true ∧
    (vget fabricLinks3.ports 15).st = PortState.hello ∧
    (vget fabricLinks1.ports 15).st.hears = true ∧
    (vget fabricLinks3.ports 15).st.hears = true ∧
    (vget fabricLinks6.ports 15).st.hears = true ∧
    ctlFrame (outBytes hdr (.ctl (.hello 1 0 ownCredits))) 0 = true ∧
    leAt (outBytes hdr (.ctl (.hello 1 0 ownCredits))) 12 2 ≠ (vget fabricLinks3.ports 15).peerPlan.toNat ∧
    ctlFrame (outBytes hdr (.ctl (.hello 0 1 ownCredits))) 0 = true ∧
    leAt (outBytes hdr (.ctl (.hello 0 1 ownCredits))) 12 2 = (vget fabricLinks3.ports 15).peerPlan.toNat ∧
    BitVec.ofNat 64 (leAt (outBytes hdr (.ctl (.hello 0 1 ownCredits))) 16 8) ≠ fabricLinks3.fabric.installId ∧
    BitVec.ofNat 64 (leAt (outBytes hdr (.ctl (.hello 0 0 ownCredits))) 16 8) = fabricLinks3.fabric.installId ∧
    (vget fabricLinks4.ports 15).st = PortState.up ∧
    (vget fabricLinks4.ports 15).replayBuf ≠ [] ∧
    (vget fabricLinks5.ports 15).st = PortState.down ∧
    fabricLinks5.island.mode = Mode.full ∧
    (vget fabricLinks6.ports 15).st = PortState.training ∧
    (vget fabricLinks6.ports 15).helloRx = false ∧
    (vget fabricLinks7.ports 15).st = PortState.training ∧
    (vget fabricLinks7.ports 15).helloRx = true := by
  and_intros <;> (decide +kernel)

def operand13 := { pkt 1 [1, 2, 3] with daddr := 5 }
def operand14 := { pkt 1 [1] with spart := 31 }
def operand15 := { pkt 2 [] with tid := 7 }
def operand16 := { chain [] with result := some (0, 1) }
def operand17 := { pkt 3 [] with tid := 7 }
def operand18 := { nw with dst := 1 }
def operand19 := { nw with dst := 0 }
def fabricWrites1 : State := (portS fun x => { x with rx := [(none, { pkt 1 [1, 2, 3] with daddr := 5 })] })
def fabricWrites2 : State := (portS fun x => { x with rx := [(none, { pkt 1 [1] with spart := 31 })] })
def fabricWrites3 : State := (inFlight (some (0, 1)) { pkt 2 [] with tid := 7 })
def fabricWrites4 : State := (inFlight none { pkt 3 [] with tid := 7 })
def fabricWrites5 : State := (got chan0 (notice 5 6))
def fabricWrites6 : State := (got chan0 (notice 6 6))
def fabricWrites7 : State := { live with paceFrom := [(1, { chip := 1, ratio := 3, cause := 1, until_ := 399999 })] }
def fabricWrites8 : State := (atChain (chain []))
def fabricWrites9 : State := { (atChain (chain [])) with shuttle := vset live.shuttle 15 { held := false, ch := vset (vrep 8 {}) 7 { running := some (chain []), out := [nw], ord := 1 } } }
/-- The hypotheses of `Obligations.FabricWrites` are met, in states and with operands named here. -/
theorem met_FabricWrites :
    (firstPacket fabricWrites1 15 fun x => decide (x.ttype = 1)) = some operand13 ∧
    operand13.spart.toNat < 32 ∧
    fabricWrites2.rat.reopened = none ∧
    fabricWrites5.rat.reopened = none ∧
    fabricWrites7.rat.reopened = none ∧
    partTakes fabricWrites1 ⟨operand13.spart.toNat % 32, by decide⟩ = true ∧
    DramRange fabricWrites1 ⟨operand13.spart.toNat % 32, by decide⟩ AccKind.store Side.engine (BitVec.toNat operand13.daddr)
      operand13.data.length ∧
    (firstPacket fabricWrites2 15 fun x => decide (x.ttype = 1)) = some operand14 ∧
    partTakes fabricWrites2 ⟨operand14.spart.toNat % 32, by decide⟩ = false ∧
    fabricWrites3.remote = [(15, 7, nw)] ∧
    nw.coll = false ∧
    (fabricWrites3.channel 15 7).out = [] ∧
    (fabricWrites3.channel 15 7).running = some operand16 ∧
    InProgress fabricWrites3 operand16.origin operand7 ∧
    operand15.tid = nw.tid ∧
    (firstPacket fabricWrites3 15 fun x => decide (x.ttype = 2)) = some operand15 ∧
    operand16.result = some (0, 1) ∧
    fabricWrites4.remote = [(15, 7, nw)] ∧
    (fabricWrites4.channel 15 7).out = [] ∧
    (fabricWrites4.channel 15 7).running = some (chain []) ∧
    InProgress fabricWrites4 (chain []).origin operand7 ∧
    (chain []).result = none ∧
    operand17.tid = nw.tid ∧
    (firstPacket fabricWrites4 15 fun x => decide (x.ttype = 3)) = some operand17 ∧
    (firstPacket fabricWrites5 15 fun x => decide (x.ttype = 32)) = some (notice 5 6) ∧
    (∀ (d : Fin 4) (c : Fin 8) (e : ChanDesc), (fabricWrites5.chan d c).desc = some e → e.earlyClose = false) ∧
    listed fabricWrites5 (notice 5 6).schip = true ∧
    leAt (notice 5 6).data 8 8 < leAt (notice 5 6).data 16 8 ∧
    (firstPacket fabricWrites6 15 fun x => decide (x.ttype = 32)) = some (notice 6 6) ∧
    (∀ (d : Fin 4) (c : Fin 8) (e : ChanDesc), (fabricWrites6.chan d c).desc = some e → e.earlyClose = false) ∧
    listed fabricWrites6 (notice 6 6).schip = true ∧
    leAt (notice 6 6).data 16 8 ≤ leAt (notice 6 6).data 8 8 ∧
    List.find? (fun x => decide (x.1 = 1)) fabricWrites7.paceFrom = some (1,
      { chip := 1, ratio := 3, cause := 1, until_ := 399999 }) ∧
    (399999) < fabricWrites7.time.it ∧
    0 < 600 ∧
    operand18.remote = true ∧
    mayIssue fabricWrites8 15 7 (fabricWrites8.channel 15 7).out { operand18 with ord := (fabricWrites8.channel 15 7).ord } =
      true ∧
    operand19.remote = true ∧
    mayIssue fabricWrites9 15 7 (fabricWrites9.channel 15 7).out { operand19 with ord := (fabricWrites9.channel 15 7).ord } =
      false := by
  unfold DramRange InProgress; and_intros <;> (first | exact no_early_close _ | decide +kernel)

def operand20 := { desc0 with self := 2 }
def operand21 := { desc0 with fmt := 1, resid := 0x2000 }
def collectiveCommands1 : State := (ranOn chan0 (ccmd 0 []))
def collectiveCommands2 : State := (opening 1 claimedAll)
def collectiveCommands3 : State := (opening 0 {})
def collectiveCommands4 : State := (opening 0 claimedAll)
def collectiveCommands5 : State := (ranOn { chan0 with st := .halted } (ccmd 1 []))
def collectiveCommands6 : State := (ranOn { chan0 with st := .recovering } (ccmd 1 []))
def collectiveCommands7 : State := (ranOn { chan0 with st := .expelled } (ccmd 1 []))
def collectiveCommands8 : State := (ranOn {} (ccmd 1 []))
def collectiveCommands9 : State := (ranOn { chan0 with desc := some { desc0 with self := 2 } } (ccmd 1 []))
def collectiveCommands10 : State := (ranOn chan0 (ccmd 1 [(40, 4, 1)]))
def collectiveCommands11 : State := (ranOn { chan0 with desc := some { desc0 with fmt := 1, resid := 0x2000 } } (ccmd 1 []))
def collectiveCommands12 : State := (ranOn {} (ccmd 2 []))
def collectiveCommands13 : State := (ranOn chan0 (ccmd 2 []))
/-- The hypotheses of `Obligations.CollectiveCommands` are met, in states and with operands named here. -/
theorem met_CollectiveCommands :
    queuePart collectiveCommands1 63 = some 0 ∧
    (ccmd 0 []).collSlot = some (3, 7) ∧
    beginColl collectiveCommands1 63 0 0 = some (ccmd 0 []) ∧
    (collectiveCommands1.chan 3 7).st ≠ ChanState.closed ∧
    queuePart collectiveCommands2 63 = some 0 ∧
    (ccmd 0 [(48, 8, 1099512217600)]).collSlot = some (3, 7) ∧
    beginColl collectiveCommands2 63 0 0 = some (ccmd 0 [(48, 8, 1099512217600)]) ∧
    (ccmd 0 [(48, 8, 1099512217600)]).sub = 0 ∧
    (collectiveCommands2.chan 3 7).st = ChanState.closed ∧
    leAt (ccmd 0 [(48, 8, 1099512217600)]).bytes 48 8 % 8 = 0 ∧
    DramRange collectiveCommands2 0 AccKind.load Side.plain (leAt (ccmd 0 [(48, 8, 1099512217600)]).bytes 48 8) (rdBytes
      collectiveCommands2 (leAt (ccmd 0 [(48, 8, 1099512217600)]).bytes 48 8) (128 + 2 * min 4160 (leAt (rdBytes
      collectiveCommands2 (leAt (ccmd 0 [(48, 8, 1099512217600)]).bytes 48 8) 128) 4 2 + leAt (rdBytes collectiveCommands2 (leAt
      (ccmd 0 [(48, 8, 1099512217600)]).bytes 48 8) 128) 6 2))).length ∧
    descInRange collectiveCommands2 (rdBytes collectiveCommands2 (leAt (ccmd 0 [(48, 8, 1099512217600)]).bytes 48 8) (128 + 2 *
      min 4160 (leAt (rdBytes collectiveCommands2 (leAt (ccmd 0 [(48, 8, 1099512217600)]).bytes 48 8) 128) 4 2 + leAt (rdBytes
      collectiveCommands2 (leAt (ccmd 0 [(48, 8, 1099512217600)]).bytes 48 8) 128) 6 2))) (chanDesc (rdBytes collectiveCommands2
      (leAt (ccmd 0 [(48, 8, 1099512217600)]).bytes 48 8) (128 + 2 * min 4160 (leAt (rdBytes collectiveCommands2 (leAt (ccmd 0
      [(48, 8, 1099512217600)]).bytes 48 8) 128) 4 2 + leAt (rdBytes collectiveCommands2 (leAt (ccmd 0 [(48, 8,
      1099512217600)]).bytes 48 8) 128) 6 2)))) = false ∧
    queuePart collectiveCommands3 63 = some 0 ∧
    beginColl collectiveCommands3 63 0 0 = some (ccmd 0 [(48, 8, 1099512217600)]) ∧
    (collectiveCommands3.chan 3 7).st = ChanState.closed ∧
    DramRange collectiveCommands3 0 AccKind.load Side.plain (leAt (ccmd 0 [(48, 8, 1099512217600)]).bytes 48 8) (rdBytes
      collectiveCommands3 (leAt (ccmd 0 [(48, 8, 1099512217600)]).bytes 48 8) (128 + 2 * min 4160 (leAt (rdBytes
      collectiveCommands3 (leAt (ccmd 0 [(48, 8, 1099512217600)]).bytes 48 8) 128) 4 2 + leAt (rdBytes collectiveCommands3 (leAt
      (ccmd 0 [(48, 8, 1099512217600)]).bytes 48 8) 128) 6 2))).length ∧
    descInRange collectiveCommands3 (rdBytes collectiveCommands3 (leAt (ccmd 0 [(48, 8, 1099512217600)]).bytes 48 8) (128 + 2 *
      min 4160 (leAt (rdBytes collectiveCommands3 (leAt (ccmd 0 [(48, 8, 1099512217600)]).bytes 48 8) 128) 4 2 + leAt (rdBytes
      collectiveCommands3 (leAt (ccmd 0 [(48, 8, 1099512217600)]).bytes 48 8) 128) 6 2))) (chanDesc (rdBytes collectiveCommands3
      (leAt (ccmd 0 [(48, 8, 1099512217600)]).bytes 48 8) (128 + 2 * min 4160 (leAt (rdBytes collectiveCommands3 (leAt (ccmd 0
      [(48, 8, 1099512217600)]).bytes 48 8) 128) 4 2 + leAt (rdBytes collectiveCommands3 (leAt (ccmd 0 [(48, 8,
      1099512217600)]).bytes 48 8) 128) 6 2)))) = true ∧
    descPlaced collectiveCommands3 0 (chanDesc (rdBytes collectiveCommands3 (leAt (ccmd 0 [(48, 8, 1099512217600)]).bytes 48 8)
      (128 + 2 * min 4160 (leAt (rdBytes collectiveCommands3 (leAt (ccmd 0 [(48, 8, 1099512217600)]).bytes 48 8) 128) 4 2 + leAt
      (rdBytes collectiveCommands3 (leAt (ccmd 0 [(48, 8, 1099512217600)]).bytes 48 8) 128) 6 2)))) = true ∧
    stackOf (chanDesc (rdBytes collectiveCommands3 (leAt (ccmd 0 [(48, 8, 1099512217600)]).bytes 48 8) (128 + 2 * min 4160 (leAt
      (rdBytes collectiveCommands3 (leAt (ccmd 0 [(48, 8, 1099512217600)]).bytes 48 8) 128) 4 2 + leAt (rdBytes
      collectiveCommands3 (leAt (ccmd 0 [(48, 8, 1099512217600)]).bytes 48 8) 128) 6 2)))).master = some 0 ∧
    allClaimed collectiveCommands3 0 0 = false ∧
    queuePart collectiveCommands4 63 = some 0 ∧
    beginColl collectiveCommands4 63 0 0 = some (ccmd 0 [(48, 8, 1099512217600)]) ∧
    (collectiveCommands4.chan 3 7).st = ChanState.closed ∧
    DramRange collectiveCommands4 0 AccKind.load Side.plain (leAt (ccmd 0 [(48, 8, 1099512217600)]).bytes 48 8) (rdBytes
      collectiveCommands4 (leAt (ccmd 0 [(48, 8, 1099512217600)]).bytes 48 8) (128 + 2 * min 4160 (leAt (rdBytes
      collectiveCommands4 (leAt (ccmd 0 [(48, 8, 1099512217600)]).bytes 48 8) 128) 4 2 + leAt (rdBytes collectiveCommands4 (leAt
      (ccmd 0 [(48, 8, 1099512217600)]).bytes 48 8) 128) 6 2))).length ∧
    descInRange collectiveCommands4 (rdBytes collectiveCommands4 (leAt (ccmd 0 [(48, 8, 1099512217600)]).bytes 48 8) (128 + 2 *
      min 4160 (leAt (rdBytes collectiveCommands4 (leAt (ccmd 0 [(48, 8, 1099512217600)]).bytes 48 8) 128) 4 2 + leAt (rdBytes
      collectiveCommands4 (leAt (ccmd 0 [(48, 8, 1099512217600)]).bytes 48 8) 128) 6 2))) (chanDesc (rdBytes collectiveCommands4
      (leAt (ccmd 0 [(48, 8, 1099512217600)]).bytes 48 8) (128 + 2 * min 4160 (leAt (rdBytes collectiveCommands4 (leAt (ccmd 0
      [(48, 8, 1099512217600)]).bytes 48 8) 128) 4 2 + leAt (rdBytes collectiveCommands4 (leAt (ccmd 0 [(48, 8,
      1099512217600)]).bytes 48 8) 128) 6 2)))) = true ∧
    descPlaced collectiveCommands4 0 (chanDesc (rdBytes collectiveCommands4 (leAt (ccmd 0 [(48, 8, 1099512217600)]).bytes 48 8)
      (128 + 2 * min 4160 (leAt (rdBytes collectiveCommands4 (leAt (ccmd 0 [(48, 8, 1099512217600)]).bytes 48 8) 128) 4 2 + leAt
      (rdBytes collectiveCommands4 (leAt (ccmd 0 [(48, 8, 1099512217600)]).bytes 48 8) 128) 6 2)))) = true ∧
    stackOf (chanDesc (rdBytes collectiveCommands4 (leAt (ccmd 0 [(48, 8, 1099512217600)]).bytes 48 8) (128 + 2 * min 4160 (leAt
      (rdBytes collectiveCommands4 (leAt (ccmd 0 [(48, 8, 1099512217600)]).bytes 48 8) 128) 4 2 + leAt (rdBytes
      collectiveCommands4 (leAt (ccmd 0 [(48, 8, 1099512217600)]).bytes 48 8) 128) 6 2)))).master = some 0 ∧
    allClaimed collectiveCommands4 0 0 = true ∧
    (chanDesc (descBytes 0)).acc = 0x10000020000 ∧ (chanDesc (descBytes 0)).S = 4096 ∧
    DramRange collectiveCommands4 0 AccKind.store Side.engine 0x10000020000 32768 ∧
    queuePart collectiveCommands5 63 = some 0 ∧
    (ccmd 1 []).collSlot = some (3, 7) ∧
    beginColl collectiveCommands5 63 0 1 = some (ccmd 1 []) ∧
    contribMayBegin collectiveCommands5 3 7 (leAt (ccmd 1 []).bytes 40 4) = true ∧
    (collectiveCommands5.chan 3 7).st = ChanState.halted ∧
    queuePart collectiveCommands6 63 = some 0 ∧
    beginColl collectiveCommands6 63 0 1 = some (ccmd 1 []) ∧
    contribMayBegin collectiveCommands6 3 7 (leAt (ccmd 1 []).bytes 40 4) = true ∧
    (collectiveCommands6.chan 3 7).st = ChanState.recovering ∧
    queuePart collectiveCommands7 63 = some 0 ∧
    beginColl collectiveCommands7 63 0 1 = some (ccmd 1 []) ∧
    contribMayBegin collectiveCommands7 3 7 (leAt (ccmd 1 []).bytes 40 4) = true ∧
    (collectiveCommands7.chan 3 7).st = ChanState.expelled ∧
    queuePart collectiveCommands8 63 = some 0 ∧
    beginColl collectiveCommands8 63 0 1 = some (ccmd 1 []) ∧
    contribMayBegin collectiveCommands8 3 7 (leAt (ccmd 1 []).bytes 40 4) = true ∧
    (collectiveCommands8.chan 3 7).st = ChanState.closed ∧
    queuePart collectiveCommands9 63 = some 0 ∧
    beginColl collectiveCommands9 63 0 1 = some (ccmd 1 []) ∧
    contribMayBegin collectiveCommands9 3 7 (leAt (ccmd 1 []).bytes 40 4) = true ∧
    (collectiveCommands9.chan 3 7).st = ChanState.run ∧
    (collectiveCommands9.chan 3 7).desc = some operand20 ∧
    operand20.nmemb ≤ operand20.self ∧
    queuePart collectiveCommands10 63 = some 0 ∧
    (ccmd 1 [(40, 4, 1)]).collSlot = some (3, 7) ∧
    beginColl collectiveCommands10 63 0 1 = some (ccmd 1 [(40, 4, 1)]) ∧
    contribMayBegin collectiveCommands10 3 7 (leAt (ccmd 1 [(40, 4, 1)]).bytes 40 4) = true ∧
    (collectiveCommands10.chan 3 7).st = ChanState.run ∧
    (collectiveCommands10.chan 3 7).desc = some desc0 ∧
    desc0.self < desc0.nmemb ∧
    BitVec.ofNat 32 (leAt (ccmd 1 [(40, 4, 1)]).bytes 40 4) ≠ (collectiveCommands10.chan 3 7).nextStep ∧
    queuePart collectiveCommands11 63 = some 0 ∧
    beginColl collectiveCommands11 63 0 1 = some (ccmd 1 []) ∧
    contribMayBegin collectiveCommands11 3 7 (leAt (ccmd 1 []).bytes 40 4) = true ∧
    (collectiveCommands11.chan 3 7).st = ChanState.run ∧
    (collectiveCommands11.chan 3 7).desc = some operand21 ∧
    operand21.self < operand21.nmemb ∧
    BitVec.ofNat 32 (leAt (ccmd 1 []).bytes 40 4) = (collectiveCommands11.chan 3 7).nextStep ∧
    DramRange collectiveCommands11 (collectiveCommands11.chan 3 7).part AccKind.load Side.engine operand21.grad (4 *
      operand21.nelem) ∧
    DramRange collectiveCommands11 (collectiveCommands11.chan 3 7).part AccKind.load Side.engine operand21.resid (4 *
      operand21.nelem) ∧
    DramRange collectiveCommands11 (collectiveCommands11.chan 3 7).part AccKind.store Side.engine operand21.resid (4 *
      operand21.nelem) ∧
    queuePart collectiveCommands12 63 = some 0 ∧
    (ccmd 2 []).collSlot = some (3, 7) ∧
    beginColl collectiveCommands12 63 0 2 = some (ccmd 2 []) ∧
    (collectiveCommands12.chan 3 7).desc = none ∧
    queuePart collectiveCommands13 63 = some 0 ∧
    beginColl collectiveCommands13 63 0 2 = some (ccmd 2 []) ∧
    (collectiveCommands13.chan 3 7).desc = some desc0 ∧
    (collectiveCommands13.chan 3 7).contrib = [] ∧
    (collectiveCommands13.chan 3 7).st = ChanState.run ∧
    stackOf desc0.master = some 0 := by
  unfold DramRange
  and_intros <;> (first | exact fun b h1 h2 => live_stores rfl rfl (by omega) (by omega) | decide +kernel)

def operand22 := { descR with self := 2, nspare := 2 }
def operand23 := { desc0 with missMax := 2 }
def channelSteps1 : State := (runs (got (opn [0]) (hello 0x1235 1)) (ccmd 0 []))
def channelSteps2 : State := (runs (got (opn [0]) (hello 0x1234 1)) (ccmd 0 []))
def channelSteps3 : State := (runs (got (opn [0, 2]) (hello 0x1234 1)) (ccmd 0 []))
def channelSteps4 : State := (got chan0 (cpk 1 0x77 1 0 4 [1,2,3,4] true))
def channelSteps5 : State := (got chan0 (cpk 0 0x77 1 2 4 [1,2,3,4] true))
def channelSteps15 : State := (got chan0 (cpk 0 0x77 1 1 4 [1,2,3,4] true))
def channelSteps16 : State := (got { chan0 with st := .recovering, desc := some { descR with self := 2, nspare := 2 }, replaced := [1], recover := some { cr := 3, fMin := 401000, fMax := 401000, rit := 500000 } } (fail 1 401000))
def channelSteps6 : State := (got chan0 (fail 0 5))
def channelSteps7 : State := (got chan0 (fail 1 5))
def channelSteps8 : State := (got { chan0 with desc := some { descR with self := 2, nspare := 2 }, hellos := [0, 1, 2, 3], sparesUsed := [2] } (fail 1 401000))
def channelSteps9 : State := (runs (chanS (opn [0])) (ccmd 0 []))
def channelSteps10 : State := (chanS { chan0 with added := [(0, 0)], desc := some { desc0 with missMax := 2 } })
def channelSteps11 : State := (runs (chanS { chan0 with contrib := [{ origin := (63, 0), step := 0, nonfin := 70000 }] }) (ccmd 1 []))
def channelSteps12 : State := (chanS { chan0 with ckptPend := some 5, castWait := some (5, .waitCkpt, 0) })
def channelSteps13 : State := (chanS { chan0 with st := .recovering, restored := true, recover := some { cr := 3, fMin := 1, fMax := 1, rit := 400000 } })
def channelSteps14 : State := (chanS { chan0 with st := .recovering, recover := some { cr := 3, fMin := 1, fMax := 1, rit := 400000 } })
/-- The hypotheses of `Obligations.ChannelSteps` are met, in states and with operands named here. -/
theorem met_ChannelSteps :
    (channelSteps1.chan 3 7).desc = some desc0 ∧
    partTakes channelSteps1 (packetPart (hello 4661 1)) = true ∧
    findChan channelSteps1 (packetPart (hello 4661 1)) (leAt (hello 4661 1).data 0 2) = some (3, 7) ∧
    firstPacket channelSteps1 15 (isColl fun x => decide (x = 5)) = some (hello 4661 1) ∧
    (channelSteps1.chan 3 7).st = ChanState.opening ∧
    desc0.members[leAt (hello 4661 1).data 12 2]? = some (hello 4661 1).schip ∧
    leAt (hello 4661 1).data 16 4 ≠ desc0.crc.toNat ∧
    (channelSteps2.chan 3 7).desc = some desc0 ∧
    partTakes channelSteps2 (packetPart (hello 4660 1)) = true ∧
    findChan channelSteps2 (packetPart (hello 4660 1)) (leAt (hello 4660 1).data 0 2) = some (3, 7) ∧
    firstPacket channelSteps2 15 (isColl fun x => decide (x = 5)) = some (hello 4660 1) ∧
    (channelSteps2.chan 3 7).st = ChanState.opening ∧
    desc0.members[leAt (hello 4660 1).data 12 2]? = some (hello 4660 1).schip ∧
    leAt (hello 4660 1).data 16 4 = desc0.crc.toNat ∧
    (insertNat (leAt (hello 4660 1).data 12 2) (channelSteps2.chan 3 7).hellos).length ≠ desc0.nmemb + desc0.nspare ∧
    (channelSteps3.chan 3 7).desc = some desc0 ∧
    partTakes channelSteps3 (packetPart (hello 4660 1)) = true ∧
    findChan channelSteps3 (packetPart (hello 4660 1)) (leAt (hello 4660 1).data 0 2) = some (3, 7) ∧
    firstPacket channelSteps3 15 (isColl fun x => decide (x = 5)) = some (hello 4660 1) ∧
    (channelSteps3.chan 3 7).st = ChanState.opening ∧
    (insertNat (leAt (hello 4660 1).data 12 2) (channelSteps3.chan 3 7).hellos).length = desc0.nmemb + desc0.nspare ∧
    (channelSteps4.chan 3 7).desc = some desc0 ∧
    partTakes channelSteps4 (packetPart (cpk 1 119 1 0 4 [1, 2, 3, 4] true)) = true ∧
    findChan channelSteps4 (packetPart (cpk 1 119 1 0 4 [1, 2, 3, 4] true)) (leAt (cpk 1 119 1 0 4 [1, 2, 3, 4] true).data 0 2)
      = some (3, 7) ∧
    firstPacket channelSteps4 15 (isColl fun c => decide (c ≠ 2) && decide (c ≠ 5)) = some (cpk 1 119 1 0 4 [1, 2, 3, 4] true) ∧
    collPlace channelSteps4 desc0 (ckindOf (cpk 1 119 1 0 4 [1, 2, 3, 4] true).data) (leAt (cpk 1 119 1 0 4 [1, 2, 3, 4]
      true).data 12 2) (BitVec.ofNat 32 (cstepOf (cpk 1 119 1 0 4 [1, 2, 3, 4] true).data)) (leAt (cpk 1 119 1 0 4 [1, 2, 3, 4]
      true).data 8 4) (List.drop 16 (cpk 1 119 1 0 4 [1, 2, 3, 4] true).data).length = some [(1099511889932, 4)] ∧
    DramRange channelSteps4 (packetPart (cpk 1 119 1 0 4 [1, 2, 3, 4] true)) AccKind.store Side.engine 1099511889932 4 ∧
    (cpk 1 119 1 0 4 [1, 2, 3, 4] true).spart.toNat < 32 ∧
    channelSteps4.rat.reopened = none ∧
    (cpk 1 119 1 0 4 [1, 2, 3, 4] true).final = true ∧
    (channelSteps4.chan 3 7).st = ChanState.run ∧
    ckindOf (cpk 1 119 1 0 4 [1, 2, 3, 4] true).data = 1 ∧
    (channelSteps5.chan 3 7).desc = some desc0 ∧
    partTakes channelSteps5 (packetPart (cpk 0 119 1 2 4 [1, 2, 3, 4] true)) = true ∧
    findChan channelSteps5 (packetPart (cpk 0 119 1 2 4 [1, 2, 3, 4] true)) (leAt (cpk 0 119 1 2 4 [1, 2, 3, 4] true).data 0 2)
      = some (3, 7) ∧
    firstPacket channelSteps5 15 (isColl fun c => decide (c ≠ 2) && decide (c ≠ 5)) = some (cpk 0 119 1 2 4 [1, 2, 3, 4] true) ∧
    collPlace channelSteps5 desc0 (ckindOf (cpk 0 119 1 2 4 [1, 2, 3, 4] true).data) (leAt (cpk 0 119 1 2 4 [1, 2, 3, 4]
      true).data 12 2) (BitVec.ofNat 32 (cstepOf (cpk 0 119 1 2 4 [1, 2, 3, 4] true).data)) (leAt (cpk 0 119 1 2 4 [1, 2, 3, 4]
      true).data 8 4) (List.drop 16 (cpk 0 119 1 2 4 [1, 2, 3, 4] true).data).length = some [(stageSlot desc0 1 2 + 4, 4)] ∧
    DramRange channelSteps5 (packetPart (cpk 0 119 1 2 4 [1, 2, 3, 4] true)) AccKind.store Side.engine (stageSlot desc0 1 2 + 4) 4 ∧
    accOpen (channelSteps5.chan 3 7) 2 = false ∧
    findChan channelSteps15 (packetPart (cpk 0 119 1 1 4 [1, 2, 3, 4] true)) (leAt (cpk 0 119 1 1 4 [1, 2, 3, 4] true).data 0 2)
      = some (3, 7) ∧
    firstPacket channelSteps15 15 (isColl fun c => decide (c ≠ 2) && decide (c ≠ 5)) = some (cpk 0 119 1 1 4 [1, 2, 3, 4] true) ∧
    collPlace channelSteps15 desc0 0 1 1 4 4 = some [(stageSlot desc0 1 1 + 4, 4)] ∧
    accOpen (channelSteps15.chan 3 7) 1 = true ∧
    stackReady channelSteps15 desc0 = true ∧
    (stackOf desc0.acc).isSome = true ∧
    DramRange channelSteps15 (channelSteps15.chan 3 7).part AccKind.load Side.engine (stageSlot desc0 1 1) desc0.cbytes ∧
    (cpk 0 119 1 2 4 [1, 2, 3, 4] true).final = true ∧
    ckindOf (cpk 0 119 1 2 4 [1, 2, 3, 4] true).data = 0 ∧
    (channelSteps5.chan 3 7).st = ChanState.run ∧
    desc0.earlyClose = false ∧
    (channelSteps5.chan 3 7).openStep ≤ (BitVec.ofNat 32 (cstepOf (cpk 0 119 1 2 4 [1, 2, 3, 4] true).data), leAt (cpk 0 119 1 2
      4 [1, 2, 3, 4] true).data 12 2).1 ∧
    (BitVec.ofNat 32 (cstepOf (cpk 0 119 1 2 4 [1, 2, 3, 4] true).data), leAt (cpk 0 119 1 2 4 [1, 2, 3, 4] true).data 12 2) ∉
      (channelSteps5.chan 3 7).added ∧
    (channelSteps6.chan 3 7).desc = some desc0 ∧
    partTakes channelSteps6 (packetPart (fail 0 5)) = true ∧
    findChan channelSteps6 (packetPart (fail 0 5)) (leAt (fail 0 5).data 0 2) = some (3, 7) ∧
    firstPacket channelSteps6 15 (isColl fun x => decide (x = 2)) = some (fail 0 5) ∧
    (channelSteps6.chan 3 7).st = ChanState.run ∧
    leAt (fail 0 5).data 16 2 = desc0.self ∧
    leAt (fail 0 5).data 16 2 ∉ (channelSteps6.chan 3 7).replaced ∧
    channelSteps6.rat.reopened = none ∧
    desc0.members[leAt (fail 0 5).data 16 2]? = some (chipId channelSteps6) ∧
    (channelSteps7.chan 3 7).desc = some desc0 ∧
    partTakes channelSteps7 (packetPart (fail 1 5)) = true ∧
    findChan channelSteps7 (packetPart (fail 1 5)) (leAt (fail 1 5).data 0 2) = some (3, 7) ∧
    firstPacket channelSteps7 15 (isColl fun x => decide (x = 2)) = some (fail 1 5) ∧
    (channelSteps7.chan 3 7).st = ChanState.run ∧
    leAt (fail 1 5).data 16 2 ≠ desc0.self ∧
    leAt (fail 1 5).data 16 2 ∉ (channelSteps7.chan 3 7).replaced ∧
    (channelSteps7.chan 3 7).lastRit = none ∧
    ckptStep desc0 (BitVec.ofNat 64 (leAt (fail 1 5).data 24 8)) = none ∧
    (channelSteps7.chan 3 7).recover = none ∧
    (channelSteps8.chan 3 7).desc = some operand22 ∧
    partTakes channelSteps8 (packetPart (fail 1 401000)) = true ∧
    findChan channelSteps8 (packetPart (fail 1 401000)) (leAt (fail 1 401000).data 0 2) = some (3, 7) ∧
    firstPacket channelSteps8 15 (isColl fun x => decide (x = 2)) = some (fail 1 401000) ∧
    (channelSteps8.chan 3 7).st = ChanState.run ∧
    leAt (fail 1 401000).data 16 2 ≠ operand22.self ∧
    (channelSteps8.chan 3 7).replaced = [] ∧
    2 ≤ operand22.nmemb ∧
    firstPacket channelSteps16 15 (isColl fun x => decide (x = 2)) = some (fail 1 401000) ∧
    (channelSteps16.chan 3 7).st = ChanState.recovering ∧
    leAt (fail 1 401000).data 16 2 ∈ (channelSteps16.chan 3 7).replaced ∧
    (channelSteps16.chan 3 7).recover = some { cr := 3, fMin := 401000, fMax := 401000, rit := 500000 } ∧
    (channelSteps16.chan 3 7).desc = some operand22 ∧
    ckptStep operand22 401000 = some 3 ∧
    recoverHalts operand22 (channelSteps16.chan 3 7) operand22.self (channelSteps16.chan 3 7).replaced (some 3) (some 1) = none ∧
    (channelSteps8.chan 3 7).lastRit = none ∧
    (channelSteps8.chan 3 7).recover = none ∧
    ckptStep operand22 (BitVec.ofNat 64 (leAt (fail 1 401000).data 24 8)) = some 3 ∧
    nextSpare operand22 (channelSteps8.chan 3 7) = some 3 ∧
    operand22.nmemb ≤ operand22.self ∧
    3 ≠ operand22.self ∧
    (channelSteps9.chan 3 7).desc = some desc0 ∧
    (channelSteps9.chan 3 7).st = ChanState.opening ∧
    (channelSteps10.chan 3 7).desc = some operand23 ∧
    atDeadline channelSteps10 3 7 = some operand23 ∧
    (countMisses 3 7 operand23 (channelSteps10.chan 3 7).openStep channelSteps10).1 = [] ∧
    (channelSteps10.chan 3 7).landed = [] ∧
    channelSteps10.rat.reopened = none ∧
    (channelSteps11.chan 3 7).desc = some desc0 ∧
    contribEnds channelSteps11 3 7 = some ({ origin := (63, 0), step := 0, nonfin := 70000 }, desc0) ∧
    (channelSteps12.chan 3 7).desc = some desc0 ∧
    (channelSteps12.chan 3 7).ckptPend = some 5 ∧
    (channelSteps12.chan 3 7).ckptLost = false ∧
    channelSteps12.rat.reopened = none ∧
    (collPending channelSteps12 3 7 fun b => decide (ckindOf b = 3) && decide (cstepOf b = 5)) = false ∧
    (channelSteps13.chan 3 7).desc = some desc0 ∧
    (channelSteps13.chan 3 7).recover = some { cr := 3, fMin := 1, fMax := 1, rit := 400000 } ∧
    (channelSteps13.chan 3 7).st = ChanState.recovering ∧
    (400000) ≤ channelSteps13.time.it ∧
    (channelSteps13.chan 3 7).restored = true ∧
    channelSteps13.rat.reopened = none ∧
    (channelSteps14.chan 3 7).desc = some desc0 ∧
    (channelSteps14.chan 3 7).recover = some { cr := 3, fMin := 1, fMax := 1, rit := 400000 } ∧
    (channelSteps14.chan 3 7).st = ChanState.recovering ∧
    (400000) ≤ channelSteps14.time.it ∧
    (channelSteps14.chan 3 7).restored = false := by
  unfold DramRange; and_intros <;> (decide +kernel)

def axisOrders1 : State := (ax id)
def axisOrders2 : State := (on id)
def axisOrders3 : State := { (on id) with can := vset live.can 3 { maps := [{ obj := 63, axis := 31, target := 0 }] } }
def axisOrders4 : State := (on fun x => { x with gearIndex := 0, gearKind := 0, gearDen := 1 })
def axisOrders5 : State := (on fun x => { x with rec_ := some { axisRec with mode := 2 } })
def axisOrders6 : State := { (on fun x => { x with rec_ := some { axisRec with hstop := 8 } }) with hstop := 8 }
/-- The hypotheses of `Obligations.AxisOrders` are met, in states and with operands named here. -/
theorem met_AxisOrders :
    2 = 2 ∧ 0 = 0 ∧ 64 = 64 ∧ axisOrders1.console.locked = true ∧
    Uncontested axisOrders1 31 2 ∧
    (vget axisOrders1.axes 31).rec_ = some axisRec ∧
    axisOrders1.rat.reopened = none ∧
    axisOrders2.rat.reopened = none ∧
    axisOrders3.rat.reopened = none ∧
    axisOrders4.rat.reopened = none ∧
    axisOrders5.rat.reopened = none ∧
    axisOrders6.rat.reopened = none ∧
    (vget axisOrders1.axes 31).st = AxState.disabled ∧
    axisOrders1.tap.seizes = false ∧
    3 = 3 ∧ 7 = ↑(axEngine 31) ∧
    Uncontested axisOrders2 31 3 ∧
    (vget axisOrders2.axes 31).st ≠ AxState.disabled ∧
    6 = 6 ∧ ((vget axisOrders3.can ⟨255 / 64 % 4, by decide⟩).maps.any fun m => decide (↑m.obj = 255 % 64) && decide (m.axis =
      31)) = true ∧
    Uncontested axisOrders3 31 6 ∧
    (vget axisOrders3.axes 31).rec_ ≠ none ∧
    (vget axisOrders3.axes 31).st.runs = true ∧
    masterRank (Master.cluster 3) = (4, 3) ∧ Admits (Master.cluster 3) (axsBase 31 + 64) axisOrders1 ∧
    Uncontested axisOrders1 31 4 ∧
    (vget axisOrders1.axes 31).st.runs = false ∧
    (vget axisOrders1.axes 31).st ≠ AxState.enabled ∧
    2 = 2 ∧ 0 = 0 ∧ 64 = 64 ∧ axisOrders2.console.locked = true ∧
    Uncontested axisOrders2 31 2 ∧
    (vget axisOrders2.axes 31).rec_ ≠ none ∧
    (vget axisOrders2.axes 31).st = AxState.enabled ∧
    (vget axisOrders2.axes 31).mode = 3 ∧
    2 = 2 ∧ 0 = 0 ∧ 64 = 64 ∧ axisOrders4.console.locked = true ∧
    Uncontested axisOrders4 31 2 ∧
    (vget axisOrders4.axes 31).rec_ ≠ none ∧
    (vget axisOrders4.axes 31).st = AxState.enabled ∧
    3 = 3 ∧
    (vget axisOrders4.axes 31).mode = 3 ∧
    gearMaster axisOrders4 31 = some 0 ∧
    (vget axisOrders4.axes 31).gearDen ≠ 0 ∧
    2 = 2 ∧ 0 = 0 ∧ 64 = 64 ∧ axisOrders5.console.locked = true ∧
    Uncontested axisOrders5 31 2 ∧
    (vget axisOrders5.axes 31).rec_ ≠ none ∧
    (vget axisOrders5.axes 31).st = AxState.enabled ∧
    3 ≠ 0 ∧
    (vget axisOrders5.axes 31).mode ≠ 3 ∧
    5 ≠ 2 ∧
    (vget axisOrders1.axes 31).taken = false ∧
    masterRank (Master.core 47) = (5, 47) ∧ Admits (Master.core 47) (axsBase 31 + 72) axisOrders1 ∧
    3 ≠ 2 ∧
    (vget axisOrders5.axes 31).taken = false ∧
    masterRank (Master.core 47) = (5, 47) ∧ Admits (Master.core 47) (axsBase 31 + 80) axisOrders1 ∧
    (vget axisOrders2.axes 31).taken = false ∧
    masterRank (Master.core 47) = (5, 47) ∧ Admits (Master.core 47) (axsBase 31 + 80) axisOrders2 ∧
    (namedStops axisOrders6 31).getLsbD 3 = true := by
  unfold Admits Uncontested; and_intros <;> (decide +kernel)

def treadleArithmetic1 : State := (bgW (fa 0 0 0 1 0x15955) (d01 0x80000000 0x80000000))
def treadleArithmetic2 : State := (bgW (fa 1 0 0 1 0) (d01 0x80000000 0x80000000))
def treadleArithmetic3 : State := (bgW (fa 2 0 0 1 0x8888) (d01 0x80000000 0x80000000))
def treadleArithmetic4 : State := (bgW (fa 3 1 0 1 0x4D4D) (d01 0x80000000 0x80000000))
def treadleArithmetic5 : State := (hkW (fa 4 0 0 1 0x1514D) (d01 0x80000000 0x80000000))
def treadleArithmetic6 : State := (hkW (fa 5 7 0 1 0x1514D) (d01 0x80000000 0x7FFFFFFF))
def treadleArithmetic7 : State := (hkW (fa 6 7 0 1 0x1514D) (d01 0x80000000 0xFFFFFFFF))
def treadleArithmetic8 : State := (hkW (fa 7 7 0 1 0x1514D) (d01 0x7FFFFFFF 0xFFFFFFFF))
def treadleArithmetic9 : State := (bgW (fa 8 7 0 1 0) (d01 0x7FFFFFFF 0xFFFF0000))
def treadleArithmetic10 : State := (bgW (fa 9 7 0 1 0) (d01 0x7FFFFFFF 0xFFFF0000))
def treadleArithmetic11 : State := (bgW (fa 10 7 0 0 0) (d01 0x7FFFFFFF 0xFFFF0000))
def treadleArithmetic12 : State := (bgW (fa 11 7 1 0 0) (d01 0x7FFFFFFF 0xFFFF0000))
def treadleArithmetic13 : State := (bgW (fa 12 7 1 0 0) (d01 0x7FFFFFFF 0x80000000))
def treadleArithmetic14 : State := (bgW (fa 13 7 1 0 0) (d01 0x7FFFFFFF 0x80000000))
def treadleArithmetic15 : State := (bgW (fa 14 7 1 0 0) (d01 0x7FFFFFFF 0x80000000))
def treadleArithmetic16 : State := (bgW (fa 15 7 1 0 0) (d01 0x7FFFFFFF 0x80000000))
def treadleArithmetic17 : State := (bgW (fa 16 7 0 1 0) (d01 0 0x7FFFFFFF))
def treadleArithmetic18 : State := (bgW (fa 17 7 0 1 0) (d01 0x80000003 0x80000000))
def treadleArithmetic19 : State := (hkW (fa 18 7 1 1 0) (d01 0x80000003 0x80000000))
def treadleArithmetic20 : State := (bgW (fa 19 0 0 1 0) (d01 0x7FFFFFFF 0x80000000))
def treadleArithmetic21 : State := (bgW (fa 20 0 0 1 0x10000) (d01 0x80000003 0x80000000))
def treadleArithmetic22 : State := (bgW (fa 21 0 0 1 0) (d01 0x80000000 1))
def treadleArithmetic23 : State := (bgW (fa 22 0 1 1 0) (d01 0x80000000 1))
/-- The hypotheses of `Obligations.TreadleArithmetic` are met, in states and with operands named here. -/
theorem met_TreadleArithmetic :
    Fetches treadleArithmetic1 7 false (fa 0 0 0 1 88405) ∧
    (fmtA (fa 0 0 0 1 88405)).xop ≠ 3 ∧
    (fmtA (fa 0 0 0 1 88405)).yop ≠ 3 ∧
    opc (fa 0 0 0 1 88405) = 0 ∧
    Fetches treadleArithmetic2 7 false (fa 1 0 0 1 0) ∧
    (fmtA (fa 1 0 0 1 0)).xop ≠ 3 ∧
    (fmtA (fa 1 0 0 1 0)).yop ≠ 3 ∧
    opc (fa 1 0 0 1 0) = 1 ∧
    Fetches treadleArithmetic3 7 false (fa 2 0 0 1 34952) ∧
    (fmtA (fa 2 0 0 1 34952)).xop ≠ 3 ∧
    (fmtA (fa 2 0 0 1 34952)).yop ≠ 3 ∧
    opc (fa 2 0 0 1 34952) = 2 ∧
    Fetches treadleArithmetic4 7 false (fa 3 1 0 1 19789) ∧
    (fmtA (fa 3 1 0 1 19789)).xop ≠ 3 ∧
    (fmtA (fa 3 1 0 1 19789)).yop ≠ 3 ∧
    opc (fa 3 1 0 1 19789) = 3 ∧
    Fetches treadleArithmetic5 7 true (fa 4 0 0 1 86349) ∧
    (fmtA (fa 4 0 0 1 86349)).xop ≠ 3 ∧
    (fmtA (fa 4 0 0 1 86349)).yop ≠ 3 ∧
    opc (fa 4 0 0 1 86349) = 4 ∧
    Fetches treadleArithmetic6 7 true (fa 5 7 0 1 86349) ∧
    (fmtA (fa 5 7 0 1 86349)).xop ≠ 3 ∧
    (fmtA (fa 5 7 0 1 86349)).yop ≠ 3 ∧
    opc (fa 5 7 0 1 86349) = 5 ∧
    Fetches treadleArithmetic7 7 true (fa 6 7 0 1 86349) ∧
    (fmtA (fa 6 7 0 1 86349)).xop ≠ 3 ∧
    (fmtA (fa 6 7 0 1 86349)).yop ≠ 3 ∧
    opc (fa 6 7 0 1 86349) = 6 ∧
    Fetches treadleArithmetic8 7 true (fa 7 7 0 1 86349) ∧
    (fmtA (fa 7 7 0 1 86349)).xop ≠ 3 ∧
    (fmtA (fa 7 7 0 1 86349)).yop ≠ 3 ∧
    opc (fa 7 7 0 1 86349) = 7 ∧
    Fetches treadleArithmetic9 7 false (fa 8 7 0 1 0) ∧
    (fmtA (fa 8 7 0 1 0)).xop ≠ 3 ∧
    (fmtA (fa 8 7 0 1 0)).yop ≠ 3 ∧
    opc (fa 8 7 0 1 0) = 8 ∧
    Fetches treadleArithmetic10 7 false (fa 9 7 0 1 0) ∧
    (fmtA (fa 9 7 0 1 0)).xop ≠ 3 ∧
    (fmtA (fa 9 7 0 1 0)).yop ≠ 3 ∧
    opc (fa 9 7 0 1 0) = 9 ∧
    Fetches treadleArithmetic11 7 false (fa 10 7 0 0 0) ∧
    (fmtA (fa 10 7 0 0 0)).xop ≠ 3 ∧
    (fmtA (fa 10 7 0 0 0)).yop ≠ 3 ∧
    opc (fa 10 7 0 0 0) = 10 ∧
    Fetches treadleArithmetic12 7 false (fa 11 7 1 0 0) ∧
    (fmtA (fa 11 7 1 0 0)).xop ≠ 3 ∧
    (fmtA (fa 11 7 1 0 0)).yop ≠ 3 ∧
    opc (fa 11 7 1 0 0) = 11 ∧
    Fetches treadleArithmetic13 7 false (fa 12 7 1 0 0) ∧
    (fmtA (fa 12 7 1 0 0)).xop ≠ 3 ∧
    (fmtA (fa 12 7 1 0 0)).yop ≠ 3 ∧
    opc (fa 12 7 1 0 0) = 12 ∧
    Fetches treadleArithmetic14 7 false (fa 13 7 1 0 0) ∧
    (fmtA (fa 13 7 1 0 0)).xop ≠ 3 ∧
    (fmtA (fa 13 7 1 0 0)).yop ≠ 3 ∧
    opc (fa 13 7 1 0 0) = 13 ∧
    Fetches treadleArithmetic15 7 false (fa 14 7 1 0 0) ∧
    (fmtA (fa 14 7 1 0 0)).xop ≠ 3 ∧
    (fmtA (fa 14 7 1 0 0)).yop ≠ 3 ∧
    opc (fa 14 7 1 0 0) = 14 ∧
    Fetches treadleArithmetic16 7 false (fa 15 7 1 0 0) ∧
    (fmtA (fa 15 7 1 0 0)).xop ≠ 3 ∧
    (fmtA (fa 15 7 1 0 0)).yop ≠ 3 ∧
    opc (fa 15 7 1 0 0) = 15 ∧
    Fetches treadleArithmetic17 7 false (fa 16 7 0 1 0) ∧
    (fmtA (fa 16 7 0 1 0)).xop ≠ 3 ∧
    (fmtA (fa 16 7 0 1 0)).yop ≠ 3 ∧
    opc (fa 16 7 0 1 0) = 16 ∧
    Fetches treadleArithmetic18 7 false (fa 17 7 0 1 0) ∧
    (fmtA (fa 17 7 0 1 0)).xop ≠ 3 ∧
    (fmtA (fa 17 7 0 1 0)).yop ≠ 3 ∧
    opc (fa 17 7 0 1 0) = 17 ∧
    Fetches treadleArithmetic19 7 true (fa 18 7 1 1 0) ∧
    (fmtA (fa 18 7 1 1 0)).xop ≠ 3 ∧
    (fmtA (fa 18 7 1 1 0)).yop ≠ 3 ∧
    opc (fa 18 7 1 1 0) = 18 ∧
    Fetches treadleArithmetic20 7 false (fa 19 0 0 1 0) ∧
    (fmtA (fa 19 0 0 1 0)).xop ≠ 3 ∧
    (fmtA (fa 19 0 0 1 0)).yop ≠ 3 ∧
    opc (fa 19 0 0 1 0) = 19 ∧
    Fetches treadleArithmetic21 7 false (fa 20 0 0 1 65536) ∧
    (fmtA (fa 20 0 0 1 65536)).xop ≠ 3 ∧
    (fmtA (fa 20 0 0 1 65536)).yop ≠ 3 ∧
    opc (fa 20 0 0 1 65536) = 20 ∧
    Fetches treadleArithmetic22 7 false (fa 21 0 0 1 0) ∧
    (fmtA (fa 21 0 0 1 0)).xop ≠ 3 ∧
    (fmtA (fa 21 0 0 1 0)).yop ≠ 3 ∧
    opc (fa 21 0 0 1 0) = 21 ∧
    Fetches treadleArithmetic23 7 false (fa 22 0 1 1 0) ∧
    (fmtA (fa 22 0 1 1 0)).xop ≠ 3 ∧
    (fmtA (fa 22 0 1 1 0)).yop ≠ 3 ∧
    opc (fa 22 0 1 1 0) = 22 := by
  unfold Fetches; and_intros <;> (decide +kernel)

def treadleHost1 : State := (trdS fun t => { t with held := false })
def treadleHost2 : State := (trdS fun t => { t with bg := .waitit })
def treadleHost3 : State := (trdS fun t => t)
def treadleHost4 : State := (trdS fun t => { t with bg := .running })
def treadleHost5 : State := (ax fun x => { x with hook := 7 })
def treadleHost6 : State := (trdS fun t => { t with hook := some 3 })
/-- The hypotheses of `Obligations.TreadleHost` are met, in states and with operands named here. -/
theorem met_TreadleHost :
    Admits (Master.core 47) (trdBase 7) treadleHost1 ∧
    (vget treadleHost1.trd 7).held = false ∧
    (vget treadleHost1.trd 7).bg = Bg.halted ∧
    Admits (Master.core 47) (trdBase 7) treadleHost2 ∧
    (vget treadleHost2.trd 7).held = false ∧
    (vget treadleHost2.trd 7).bg ≠ Bg.halted ∧
    Admits (Master.core 47) (trdBase 7) treadleHost3 ∧
    (vget treadleHost3.trd 7).held = false ∧
    (vget treadleHost3.trd 7).bg = Bg.halted ∧
    Admits (Master.core 47) (trdBase 7) treadleHost4 ∧
    (vget treadleHost4.trd 7).bg ≠ Bg.halted ∧
    (false = true → 4095 < 1024) ∧
    Admits (Master.core 47) ((trdBase 7 + if false = true then 12288 else 16384) + 4 * 4095) treadleHost3 ∧
    (∀ (a : Fin 32), axEngine a = 7 → (vget treadleHost3.axes a).hook = 0) ∧
    Admits (Master.core 47) ((trdBase 7 + if false = true then 12288 else 16384) + 4 * 4095) treadleHost5 ∧
    axEngine 31 = 7 ∧ (vget treadleHost5.axes 31).hook ≠ 0 ∧
    Admits (Master.core 47) (trdBase 7 + 256 + 4 * 63) treadleHost4 ∧
    Admits (Master.core 47) (trdBase 7 + 256 + 4 * 43) treadleHost3 ∧
    43 ≠ 63 ∧
    ((vget treadleHost3.trd 7).bank0.put (43) 4294967295).isSome = true ∧
    Admits (Master.core 47) (trdBase 7 + 256 + 4 * 63) treadleHost3 ∧
    63 = 63 ∧
    Admits (Master.core 47) (trdBase 7 + 512 + 4 * 63) treadleHost6 ∧
    (vget treadleHost6.trd 7).hook ≠ none ∧
    Admits (Master.core 47) (trdBase 7 + 512 + 4 * 0) treadleHost3 ∧
    (vget treadleHost3.trd 7).hook = none ∧
    0 ≠ 63 ∧
    ((vget treadleHost3.trd 7).bank1.put (0) 4294967295).isSome = true ∧
    Admits (Master.core 47) (trdBase 7 + 32768 + 4 * 4095) treadleHost3 ∧
    Admits (Master.core 47) (trdBase 7 + 49152 + 4 * 4095) treadleHost3 := by
  unfold Admits; and_intros <;> (decide +kernel)

def servoTicks1 : State := (atIt 470000 (tickAx id))
def servoTicks2 : State := (atIt 470000 (tickAx fun x => { x with laws := #v[some lawF, some lawQ, some lawQ] }))
def servoTicks3 : State := (let s := atIt 470000 (tickAx fun x => { x with rec_ := some { axisRec with mode := 1 } }); { s with trd := vset s.trd 7 { vget s.trd 7 with pendHooks := [3] } })
def servoTicks4 : State := (let s := (ax fun x => { x with hook := 0xFFF }); { s with trd := vset s.trd 7 { vget s.trd 7 with pendHooks := [3, 0], cache := [3] } })
def servoTicks5 : State := (ax fun x => { x with seg := vset x.seg 0 0x1 })
def servoTicks6 : State := (ax fun x => { x with taken := true })
/-- The hypotheses of `Obligations.ServoTicks` are met, in states and with operands named here. -/
theorem met_ServoTicks :
    servoTicks3.rat.reopened = none ∧
    axisRec.hstop.getLsbD 0 = true ∧
    live.hstopOn.getLsbD 0 = true ∧
    axisRec.hstop.getLsbD 1 = false ∧
    namedStops live 31 = 0 ∧
    tickDue servoTicks1 31 = some axisRec ∧
    tickDue servoTicks2 31 = some axisRec ∧
    axisRec.motor = 2 ∧
    due servoTicks2 31 axisRec axisRec.pV = false ∧
    hookOpen servoTicks2 31 = false ∧
    vget (vget servoTicks2.axes 31).laws 0 = some lawF ∧
    lawF.float = false ∧
    (vget servoTicks2.axes 31).st.runs = true ∧
    (tickDue servoTicks3 31).isSome = true ∧
    hookOpen servoTicks3 31 = true ∧
    (vget servoTicks4.trd 7).pendHooks = [3, 0] ∧
    vsvoGood servoTicks4 = true ∧
    engineWorks servoTicks4 7 = true ∧
    (vget servoTicks4.trd 7).hook = none ∧
    Admits (Master.cluster 3) (axsBase 31 + 320) servoTicks5 ∧
    (vget servoTicks5.axes 31).taken = false ∧
    Admits (Master.cluster 3) (axsBase 31 + 320) servoTicks6 ∧
    (vget servoTicks6.axes 31).taken = true ∧
    Instr.segmentFlush (Master.cluster 3) 31 ∈ [Instr.segmentPush (Master.cluster 3) 31, Instr.segmentFlush (Master.cluster 3)
      31] := by
  unfold Admits; and_intros <;> (decide +kernel)

def treadleSequence1 : State := (hkW (fb 0x3B 0) id)
def treadleSequence2 : State := (bgW (fb 0x20 (8*2^20+0x8000)) id)
def treadleSequence3 : State := (bgW (fb 0x21 (7*2^23+0x8000)) (d01 5 6))
def treadleSequence4 : State := (bgW (fb 0x22 (9*2^20+0x2*2^14)) (d01 5 6))
def treadleSequence5 : State := (bgW (fb 0x23 (7*2^23+0xFFFF)) (d01 5 6))
def treadleSequence6 : State := (hkW (fb 0x24 (7*2^23+1)) (d01 5 6))
def treadleSequence7 : State := (hkW (fb 0x25 (7*2^23+0x1FFF)) (d01 5 6))
def treadleSequence8 : State := (hkW (fb 0x28 (0xFFF)) (d01 5 6))
def treadleSequence9 : State := (hkW (fb 0x29 (1*2^22+0xFFF)) (d01 5 6))
def treadleSequence10 : State := (hkW (fb 0x2A (0xFFF)) (d01 5 6))
def treadleSequence11 : State := (bgW (fb 0x2A (0xFFF)) fun t => { t with bank0 := { t.bank0 with calls := [1,2,3,4,5,6,7,8] } })
def treadleSequence12 : State := (bgW (fb 0x2B 0) fun t => { t with bank0 := { t.bank0 with calls := [0,2,3,4,5,6,7,8] } })
def treadleSequence13 : State := (bgW (fb 0x2B 0) id)
def treadleSequence14 : State := (bgW (fb 0x2C 4095) id)
def treadleSequence15 : State := (bgW (fb 0x2C 0) id)
def treadleSequence16 : State := (bgW (fb 0x2D (1*2^12)) id)
def treadleSequence17 : State := (bgW (fb 0x2D (4095*2^12+4095)) id)
def treadleSequence18 : State := (bgW (fb 0x2D (4095*2^12+4095)) fun t => { t with bank0 := { t.bank0 with loops := List.replicate 4 (1, 2, 3, 0) } })
def treadleSequence19 : State := (bgW (fb 0x2E (7*2^23+0x43)) id)
def treadleSequence20 : State := (bgW (fb 0x2E (6*2^23+2^22+0x31)) id)
def treadleSequence21 : State := (hkW (fb 0x2F (7*2^23+0x3A)) (d01 5 6))
def treadleSequence39 : State := (hkW (fb 0x2F (6*2^23+2^22+0x3A)) (d01 5 6))
def treadleSequence22 : State := (bgW (fb 0x2F (7*2^23+0x3C)) (d01 5 6))
def treadleSequence23 : State := (hkW (fb 0x30 0) fun t => { t with out := [(3, 1, 5)] })
def treadleSequence24 : State := (bgW (fb 0x31 0) id)
def treadleSequence25 : State := (hkW (fb 0x31 0) id)
def treadleSequence26 : State := (bgW (fb 0x32 0) id)
def treadleSequence27 : State := (bgW (fb 0x32 0) (d01 0 1))
def treadleSequence28 : State := (hkW (fb 0x32 0) id)
def treadleSequence29 : State := (bgW (fb 0x38 (2^20+0)) id)
def treadleSequence30 : State := (bgW (fb 0x38 (2^20+4)) id)
def treadleSequence31 : State := (hkW (fb 0x39 (2^20+0)) id)
def treadleSequence32 : State := (hkW (fb 0x39 (2^20+5)) id)
def treadleSequence33 : State := (bgW (fb 0x3A 0) id)
def treadleSequence34 : State := (bgW (fb 0x3A 5) id)
def treadleSequence35 : State := (bgW (fb 0x38 (2^20+4095)) fun t => { t with bank0 := { t.bank0 with lip := true, scnt := 2 } })
def treadleSequence36 : State := (bgW (fb 0x39 (2^20+4095)) fun t => { t with bank0 := { t.bank0 with lip := true, scnt := 2 } })
def treadleSequence37 : State := (hkW (fb 0x3A (4095)) fun t => { t with bank1 := { t.bank1 with lip := true, scnt := 2 } })
def treadleSequence38 : State := (bgW (fb 0x32 0) fun t => { t with bg := .waitit })
/-- The hypotheses of `Obligations.TreadleSequence` are met, in states and with operands named here. -/
theorem met_TreadleSequence :
    Fetches treadleSequence1 7 true (fb 59 0) ∧
    opcDefined (opc (fb 59 0)) = false ∧
    Instr.halt 7 ∈ [Instr.trdNop 7, Instr.ldi 7, Instr.halt 7] ∧
    Fetches treadleSequence2 7 false (fb 32 (8 * 2 ^ 20 + 32768)) ∧
    opc (fb 32 (8 * 2 ^ 20 + 32768)) = 32 ∧
    fld (fb 32 (8 * 2 ^ 20 + 32768)).toNat 16 4 = 0 ∧
    ((((vget treadleSequence2.trd 7).fill false).bank false).put (fld (fb 32 (8 * 2 ^ 20 + 32768)).toNat 20 6) (if fld (fb 32 (8
      * 2 ^ 20 + 32768)).toNat 20 6 < 8 then BitVec.signExtend 32 (BitVec.setWidth 16 (fb 32 (8 * 2 ^ 20 + 32768))) else
      BitVec.setWidth 32 (BitVec.setWidth 16 (fb 32 (8 * 2 ^ 20 + 32768))))).isSome = true ∧
    Fetches treadleSequence3 7 false (fb 33 (7 * 2 ^ 23 + 32768)) ∧
    opc (fb 33 (7 * 2 ^ 23 + 32768)) = 33 ∧
    fld (fb 33 (7 * 2 ^ 23 + 32768)).toNat 16 7 = 0 ∧
    Fetches treadleSequence4 7 false (fb 34 (9 * 2 ^ 20 + 2 * 2 ^ 14)) ∧
    opc (fb 34 (9 * 2 ^ 20 + 2 * 2 ^ 14)) = 34 ∧
    fld (fb 34 (9 * 2 ^ 20 + 2 * 2 ^ 14)).toNat 0 14 = 0 ∧
    ((((vget treadleSequence4.trd 7).fill false).bank false).get (fld (fb 34 (9 * 2 ^ 20 + 2 * 2 ^ 14)).toNat 14 6)).isSome =
      true ∧
    ((((vget treadleSequence4.trd 7).fill false).bank false).put (fld (fb 34 (9 * 2 ^ 20 + 2 * 2 ^ 14)).toNat 20 6) ((((vget
      treadleSequence4.trd 7).fill false).bank false).dReg (fld (fb 34 (9 * 2 ^ 20 + 2 * 2 ^ 14)).toNat 14 6))).isSome = true ∧
    Fetches treadleSequence5 7 false (fb 35 (7 * 2 ^ 23 + 65535)) ∧
    opc (fb 35 (7 * 2 ^ 23 + 65535)) = 35 ∧
    fld (fb 35 (7 * 2 ^ 23 + 65535)).toNat 16 7 = 0 ∧
    Fetches treadleSequence6 7 true (fb 36 (7 * 2 ^ 23 + 1)) ∧
    opc (fb 36 (7 * 2 ^ 23 + 1)) = 36 ∧
    fld (fb 36 (7 * 2 ^ 23 + 1)).toNat 13 10 = 0 ∧
    Fetches treadleSequence7 7 true (fb 37 (7 * 2 ^ 23 + 8191)) ∧
    opc (fb 37 (7 * 2 ^ 23 + 8191)) = 37 ∧
    fld (fb 37 (7 * 2 ^ 23 + 8191)).toNat 13 10 = 0 ∧
    Fetches treadleSequence8 7 true (fb 40 4095) ∧
    opc (fb 40 4095) = 40 ∧
    fld (fb 40 4095).toNat 12 14 = 0 ∧
    Fetches treadleSequence9 7 true (fb 41 (1 * 2 ^ 22 + 4095)) ∧
    opc (fb 41 (1 * 2 ^ 22 + 4095)) = 41 ∧
    fld (fb 41 (1 * 2 ^ 22 + 4095)).toNat 12 10 = 0 ∧
    ((((vget treadleSequence9.trd 7).fill true).bank true).cond (fld (fb 41 (1 * 2 ^ 22 + 4095)).toNat 22 4)).isSome = true ∧
    Fetches treadleSequence10 7 true (fb 42 4095) ∧
    opc (fb 42 4095) = 42 ∧
    fld (fb 42 4095).toNat 12 14 = 0 ∧
    (((vget treadleSequence10.trd 7).fill true).bank true).calls.length < 8 ∧
    Fetches treadleSequence11 7 false (fb 42 4095) ∧
    8 ≤ (((vget treadleSequence11.trd 7).fill false).bank false).calls.length ∧
    Fetches treadleSequence12 7 false (fb 43 0) ∧
    opc (fb 43 0) = 43 ∧
    fld (fb 43 0).toNat 12 14 = 0 ∧
    (((vget treadleSequence12.trd 7).fill false).bank false).calls = [0, 2, 3, 4, 5, 6, 7, 8] ∧
    Fetches treadleSequence13 7 false (fb 43 0) ∧
    (((vget treadleSequence13.trd 7).fill false).bank false).calls = [] ∧
    Fetches treadleSequence14 7 false (fb 44 4095) ∧
    opc (fb 44 4095) = 44 ∧
    fld (fb 44 4095).toNat 12 14 = 0 ∧
    (((vget treadleSequence14.trd 7).fill false).bank false).next.past = false ∧
    opc (((vget treadleSequence14.trd 7).fill false).word (((vget treadleSequence14.trd 7).fill false).bank false).next) ≤ 22 ∧
    (if fld (fb 44 4095).toNat 0 12 = 0 then (((vget treadleSequence14.trd 7).fill false).bank false).lc else BitVec.ofNat 12
      (fld (fb 44 4095).toNat 0 12)) ≠ 0 ∧
    Fetches treadleSequence15 7 false (fb 44 0) ∧
    opc (fb 44 0) = 44 ∧
    fld (fb 44 0).toNat 12 14 = 0 ∧
    (((vget treadleSequence15.trd 7).fill false).bank false).next.past = false ∧
    opc (((vget treadleSequence15.trd 7).fill false).word (((vget treadleSequence15.trd 7).fill false).bank false).next) ≤ 22 ∧
    (if fld (fb 44 0).toNat 0 12 = 0 then (((vget treadleSequence15.trd 7).fill false).bank false).lc else BitVec.ofNat 12 (fld
      (fb 44 0).toNat 0 12)) = 0 ∧
    Fetches treadleSequence16 7 false (fb 45 (1 * 2 ^ 12)) ∧
    opc (fb 45 (1 * 2 ^ 12)) = 45 ∧
    fld (fb 45 (1 * 2 ^ 12)).toNat 24 2 = 0 ∧
    (((vget treadleSequence16.trd 7).fill false).bank false).pc.toNat < fld (fb 45 (1 * 2 ^ 12)).toNat 12 12 ∧
    (if fld (fb 45 (1 * 2 ^ 12)).toNat 0 12 = 0 then (((vget treadleSequence16.trd 7).fill false).bank false).lc else
      BitVec.ofNat 12 (fld (fb 45 (1 * 2 ^ 12)).toNat 0 12)) = 0 ∧
    Fetches treadleSequence17 7 false (fb 45 (4095 * 2 ^ 12 + 4095)) ∧
    opc (fb 45 (4095 * 2 ^ 12 + 4095)) = 45 ∧
    fld (fb 45 (4095 * 2 ^ 12 + 4095)).toNat 24 2 = 0 ∧
    (((vget treadleSequence17.trd 7).fill false).bank false).pc.toNat < fld (fb 45 (4095 * 2 ^ 12 + 4095)).toNat 12 12 ∧
    (if fld (fb 45 (4095 * 2 ^ 12 + 4095)).toNat 0 12 = 0 then (((vget treadleSequence17.trd 7).fill false).bank false).lc else
      BitVec.ofNat 12 (fld (fb 45 (4095 * 2 ^ 12 + 4095)).toNat 0 12)) ≠ 0 ∧
    (((vget treadleSequence17.trd 7).fill false).bank false).loops.length < 4 ∧
    Fetches treadleSequence18 7 false (fb 45 (4095 * 2 ^ 12 + 4095)) ∧
    (((vget treadleSequence18.trd 7).fill false).bank false).pc.toNat < fld (fb 45 (4095 * 2 ^ 12 + 4095)).toNat 12 12 ∧
    (if fld (fb 45 (4095 * 2 ^ 12 + 4095)).toNat 0 12 = 0 then (((vget treadleSequence18.trd 7).fill false).bank false).lc else
      BitVec.ofNat 12 (fld (fb 45 (4095 * 2 ^ 12 + 4095)).toNat 0 12)) ≠ 0 ∧
    4 ≤ (((vget treadleSequence18.trd 7).fill false).bank false).loops.length ∧
    Fetches treadleSequence19 7 false (fb 46 (7 * 2 ^ 23 + 67)) ∧
    opc (fb 46 (7 * 2 ^ 23 + 67)) = 46 ∧
    fld (fb 46 (7 * 2 ^ 23 + 67)).toNat 8 14 = 0 ∧
    (portIn treadleSequence19 7 (fld (fb 46 (7 * 2 ^ 23 + 67)).toNat 0 8)).isSome = true ∧
    bitOf (fb 46 (7 * 2 ^ 23 + 67)).toNat 22 = false ∧
    Fetches treadleSequence20 7 false (fb 46 (6 * 2 ^ 23 + 2 ^ 22 + 49)) ∧
    opc (fb 46 (6 * 2 ^ 23 + 2 ^ 22 + 49)) = 46 ∧
    fld (fb 46 (6 * 2 ^ 23 + 2 ^ 22 + 49)).toNat 8 14 = 0 ∧
    (portIn treadleSequence20 7 (fld (fb 46 (6 * 2 ^ 23 + 2 ^ 22 + 49)).toNat 0 8)).isSome = true ∧
    bitOf (fb 46 (6 * 2 ^ 23 + 2 ^ 22 + 49)).toNat 22 = true ∧
    fld (fb 46 (6 * 2 ^ 23 + 2 ^ 22 + 49)).toNat 23 3 % 2 = 0 ∧
    pairIn (fld (fb 46 (6 * 2 ^ 23 + 2 ^ 22 + 49)).toNat 0 8) = true ∧
    Fetches treadleSequence21 7 true (fb 47 (7 * 2 ^ 23 + 58)) ∧
    opc (fb 47 (7 * 2 ^ 23 + 58)) = 47 ∧
    fld (fb 47 (7 * 2 ^ 23 + 58)).toNat 8 14 = 0 ∧
    bitOf (fb 47 (7 * 2 ^ 23 + 58)).toNat 22 = false ∧
    portOut (fld (fb 47 (7 * 2 ^ 23 + 58)).toNat 0 8) = some (3, 0) ∧
    true = true ∧
    Fetches treadleSequence39 7 true (fb 47 (6 * 2 ^ 23 + 2 ^ 22 + 58)) ∧
    opc (fb 47 (6 * 2 ^ 23 + 2 ^ 22 + 58)) = 47 ∧
    fld (fb 47 (6 * 2 ^ 23 + 2 ^ 22 + 58)).toNat 8 14 = 0 ∧
    bitOf (fb 47 (6 * 2 ^ 23 + 2 ^ 22 + 58)).toNat 22 = true ∧
    fld (fb 47 (6 * 2 ^ 23 + 2 ^ 22 + 58)).toNat 23 3 % 2 = 0 ∧
    fld (fb 47 (6 * 2 ^ 23 + 2 ^ 22 + 58)).toNat 0 8 % 16 = 0xA ∧
    portOut (fld (fb 47 (6 * 2 ^ 23 + 2 ^ 22 + 58)).toNat 0 8) = some (3, 0) ∧
    Fetches treadleSequence22 7 false (fb 47 (7 * 2 ^ 23 + 60)) ∧
    opc (fb 47 (7 * 2 ^ 23 + 60)) = 47 ∧
    fld (fb 47 (7 * 2 ^ 23 + 60)).toNat 8 14 = 0 ∧
    bitOf (fb 47 (7 * 2 ^ 23 + 60)).toNat 22 = false ∧
    portOut (fld (fb 47 (7 * 2 ^ 23 + 60)).toNat 0 8) = some (3, 1) ∧
    false = false ∧
    Fetches treadleSequence23 7 true (fb 48 0) ∧
    opc (fb 48 0) = 48 ∧
    fld (fb 48 0).toNat 0 26 = 0 ∧
    ((vget treadleSequence23.trd 7).fill true).hook = some 3 ∧
    Fetches treadleSequence24 7 false (fb 49 0) ∧
    opc (fb 49 0) = 49 ∧
    fld (fb 49 0).toNat 0 26 = 0 ∧
    Fetches treadleSequence25 7 true (fb 49 0) ∧
    Fetches treadleSequence26 7 false (fb 50 0) ∧
    opc (fb 50 0) = 50 ∧
    fld (fb 50 0).toNat 0 23 = 0 ∧
    fld (fb 50 0).toNat 23 3 % 2 = 0 ∧
    waitTime (((vget treadleSequence26.trd 7).fill false).bank false) (fld (fb 50 0).toNat 23 3) ≤ treadleSequence26.time.it ∧
    Fetches treadleSequence27 7 false (fb 50 0) ∧
    treadleSequence27.time.it < waitTime (((vget treadleSequence27.trd 7).fill false).bank false) (fld (fb 50 0).toNat 23 3) ∧
    Fetches treadleSequence28 7 true (fb 50 0) ∧
    Fetches treadleSequence29 7 false (fb 56 (2 ^ 20 + 0)) ∧
    scanReserved (fb 56 (2 ^ 20 + 0)) = false ∧
    (((vget treadleSequence29.trd 7).fill false).bank false).lip = false ∧
    opc (fb 56 (2 ^ 20 + 0)) = 56 ∧
    (if fld (fb 56 (2 ^ 20 + 0)).toNat 0 12 = 0 then (((vget treadleSequence29.trd 7).fill false).bank false).lc.toNat else fld
      (fb 56 (2 ^ 20 + 0)).toNat 0 12) = 0 ∧
    Fetches treadleSequence30 7 false (fb 56 (2 ^ 20 + 4)) ∧
    scanReserved (fb 56 (2 ^ 20 + 4)) = false ∧
    (((vget treadleSequence30.trd 7).fill false).bank false).lip = false ∧
    opc (fb 56 (2 ^ 20 + 4)) = 56 ∧
    (if fld (fb 56 (2 ^ 20 + 4)).toNat 0 12 = 0 then (((vget treadleSequence30.trd 7).fill false).bank false).lc.toNat else fld
      (fb 56 (2 ^ 20 + 4)).toNat 0 12) ≠ 0 ∧
    (elems (scanElem ((vget treadleSequence30.trd 7).fill false) true (fb 56 (2 ^ 20 + 4)) (if fld (fb 56 (2 ^ 20 + 4)).toNat 0 12 = 0 then (((vget treadleSequence30.trd 7).fill false).bank false).lc.toNat else fld (fb 56 (2 ^ 20 + 4)).toNat 0 12)) (match (none : Option (BitVec 12)) with | some k => min k.toNat (if fld (fb 56 (2 ^ 20 + 4)).toNat 0 12 = 0 then (((vget treadleSequence30.trd 7).fill false).bank false).lc.toNat else fld (fb 56 (2 ^ 20 + 4)).toNat 0 12) | none => if fld (fb 56 (2 ^ 20 + 4)).toNat 0 12 = 0 then (((vget treadleSequence30.trd 7).fill false).bank false).lc.toNat else fld (fb 56 (2 ^ 20 + 4)).toNat 0 12) (have __src := (((vget treadleSequence30.trd 7).fill false).bank false).setD (fld (fb 56 (2 ^ 20 + 4)).toNat 23 3) (if true = true then 2147483648#32 else 2147483647#32); { __src with scnt := BitVec.ofNat 16 (if fld (fb 56 (2 ^ 20 + 4)).toNat 0 12 = 0 then (((vget treadleSequence30.trd 7).fill false).bank false).lc.toNat else fld (fb 56 (2 ^ 20 + 4)).toNat 0 12) })).scnt = 0 ∧
    (elems (scanElem ((vget treadleSequence30.trd 7).fill false) true (fb 56 (2 ^ 20 + 4)) (if fld (fb 56 (2 ^ 20 + 4)).toNat 0 12 = 0 then (((vget treadleSequence30.trd 7).fill false).bank false).lc.toNat else fld (fb 56 (2 ^ 20 + 4)).toNat 0 12)) (match (some 3 : Option (BitVec 12)) with | some k => min k.toNat (if fld (fb 56 (2 ^ 20 + 4)).toNat 0 12 = 0 then (((vget treadleSequence30.trd 7).fill false).bank false).lc.toNat else fld (fb 56 (2 ^ 20 + 4)).toNat 0 12) | none => if fld (fb 56 (2 ^ 20 + 4)).toNat 0 12 = 0 then (((vget treadleSequence30.trd 7).fill false).bank false).lc.toNat else fld (fb 56 (2 ^ 20 + 4)).toNat 0 12) (have __src := (((vget treadleSequence30.trd 7).fill false).bank false).setD (fld (fb 56 (2 ^ 20 + 4)).toNat 23 3) (if true = true then 2147483648#32 else 2147483647#32); { __src with scnt := BitVec.ofNat 16 (if fld (fb 56 (2 ^ 20 + 4)).toNat 0 12 = 0 then (((vget treadleSequence30.trd 7).fill false).bank false).lc.toNat else fld (fb 56 (2 ^ 20 + 4)).toNat 0 12) })).scnt ≠ 0 ∧
    Fetches treadleSequence31 7 true (fb 57 (2 ^ 20 + 0)) ∧
    scanReserved (fb 57 (2 ^ 20 + 0)) = false ∧
    (((vget treadleSequence31.trd 7).fill true).bank true).lip = false ∧
    opc (fb 57 (2 ^ 20 + 0)) = 57 ∧
    (if fld (fb 57 (2 ^ 20 + 0)).toNat 0 12 = 0 then (((vget treadleSequence31.trd 7).fill true).bank true).lc.toNat else fld
      (fb 57 (2 ^ 20 + 0)).toNat 0 12) = 0 ∧
    Fetches treadleSequence32 7 true (fb 57 (2 ^ 20 + 5)) ∧
    scanReserved (fb 57 (2 ^ 20 + 5)) = false ∧
    (((vget treadleSequence32.trd 7).fill true).bank true).lip = false ∧
    opc (fb 57 (2 ^ 20 + 5)) = 57 ∧
    (if fld (fb 57 (2 ^ 20 + 5)).toNat 0 12 = 0 then (((vget treadleSequence32.trd 7).fill true).bank true).lc.toNat else fld
      (fb 57 (2 ^ 20 + 5)).toNat 0 12) ≠ 0 ∧
    (elems (scanElem ((vget treadleSequence32.trd 7).fill true) false (fb 57 (2 ^ 20 + 5)) (if fld (fb 57 (2 ^ 20 + 5)).toNat 0 12 = 0 then (((vget treadleSequence32.trd 7).fill true).bank true).lc.toNat else fld (fb 57 (2 ^ 20 + 5)).toNat 0 12)) (match (none : Option (BitVec 12)) with | some k => min k.toNat (if fld (fb 57 (2 ^ 20 + 5)).toNat 0 12 = 0 then (((vget treadleSequence32.trd 7).fill true).bank true).lc.toNat else fld (fb 57 (2 ^ 20 + 5)).toNat 0 12) | none => if fld (fb 57 (2 ^ 20 + 5)).toNat 0 12 = 0 then (((vget treadleSequence32.trd 7).fill true).bank true).lc.toNat else fld (fb 57 (2 ^ 20 + 5)).toNat 0 12) (have __src := (((vget treadleSequence32.trd 7).fill true).bank true).setD (fld (fb 57 (2 ^ 20 + 5)).toNat 23 3) (if false = true then 2147483648#32 else 2147483647#32); { __src with scnt := BitVec.ofNat 16 (if fld (fb 57 (2 ^ 20 + 5)).toNat 0 12 = 0 then (((vget treadleSequence32.trd 7).fill true).bank true).lc.toNat else fld (fb 57 (2 ^ 20 + 5)).toNat 0 12) })).scnt = 0 ∧
    (elems (scanElem ((vget treadleSequence32.trd 7).fill true) false (fb 57 (2 ^ 20 + 5)) (if fld (fb 57 (2 ^ 20 + 5)).toNat 0 12 = 0 then (((vget treadleSequence32.trd 7).fill true).bank true).lc.toNat else fld (fb 57 (2 ^ 20 + 5)).toNat 0 12)) (match (some 0 : Option (BitVec 12)) with | some k => min k.toNat (if fld (fb 57 (2 ^ 20 + 5)).toNat 0 12 = 0 then (((vget treadleSequence32.trd 7).fill true).bank true).lc.toNat else fld (fb 57 (2 ^ 20 + 5)).toNat 0 12) | none => if fld (fb 57 (2 ^ 20 + 5)).toNat 0 12 = 0 then (((vget treadleSequence32.trd 7).fill true).bank true).lc.toNat else fld (fb 57 (2 ^ 20 + 5)).toNat 0 12) (have __src := (((vget treadleSequence32.trd 7).fill true).bank true).setD (fld (fb 57 (2 ^ 20 + 5)).toNat 23 3) (if false = true then 2147483648#32 else 2147483647#32); { __src with scnt := BitVec.ofNat 16 (if fld (fb 57 (2 ^ 20 + 5)).toNat 0 12 = 0 then (((vget treadleSequence32.trd 7).fill true).bank true).lc.toNat else fld (fb 57 (2 ^ 20 + 5)).toNat 0 12) })).scnt ≠ 0 ∧
    Fetches treadleSequence33 7 false (fb 58 0) ∧
    opc (fb 58 0) = 58 ∧
    fld (fb 58 0).toNat 12 8 = 0 ∧
    (((vget treadleSequence33.trd 7).fill false).bank false).lip = false ∧
    (elems (bmacElem ((vget treadleSequence33.trd 7).fill false) (fb 58 0) (if fld (fb 58 0).toNat 0 12 = 0 then (((vget treadleSequence33.trd 7).fill false).bank false).lc.toNat else fld (fb 58 0).toNat 0 12)) (match (none : Option (BitVec 12)) with | some k => min k.toNat (if fld (fb 58 0).toNat 0 12 = 0 then (((vget treadleSequence33.trd 7).fill false).bank false).lc.toNat else fld (fb 58 0).toNat 0 12) | none => if fld (fb 58 0).toNat 0 12 = 0 then (((vget treadleSequence33.trd 7).fill false).bank false).lc.toNat else fld (fb 58 0).toNat 0 12) { (((vget treadleSequence33.trd 7).fill false).bank false) with scnt := BitVec.ofNat 16 (if fld (fb 58 0).toNat 0 12 = 0 then (((vget treadleSequence33.trd 7).fill false).bank false).lc.toNat else fld (fb 58 0).toNat 0 12) }).scnt = 0 ∧
    Fetches treadleSequence34 7 false (fb 58 5) ∧
    opc (fb 58 5) = 58 ∧
    fld (fb 58 5).toNat 12 8 = 0 ∧
    (((vget treadleSequence34.trd 7).fill false).bank false).lip = false ∧
    (elems (bmacElem ((vget treadleSequence34.trd 7).fill false) (fb 58 5) (if fld (fb 58 5).toNat 0 12 = 0 then (((vget treadleSequence34.trd 7).fill false).bank false).lc.toNat else fld (fb 58 5).toNat 0 12)) (match (some 2 : Option (BitVec 12)) with | some k => min k.toNat (if fld (fb 58 5).toNat 0 12 = 0 then (((vget treadleSequence34.trd 7).fill false).bank false).lc.toNat else fld (fb 58 5).toNat 0 12) | none => if fld (fb 58 5).toNat 0 12 = 0 then (((vget treadleSequence34.trd 7).fill false).bank false).lc.toNat else fld (fb 58 5).toNat 0 12) { (((vget treadleSequence34.trd 7).fill false).bank false) with scnt := BitVec.ofNat 16 (if fld (fb 58 5).toNat 0 12 = 0 then (((vget treadleSequence34.trd 7).fill false).bank false).lc.toNat else fld (fb 58 5).toNat 0 12) }).scnt ≠ 0 ∧
    Fetches treadleSequence35 7 false (fb 56 (2 ^ 20 + 4095)) ∧
    ((vget treadleSequence35.trd 7).bank false).lip = true ∧
    opc (fb 56 (2 ^ 20 + 4095)) = 56 ∧
    scanReserved (fb 56 (2 ^ 20 + 4095)) = false ∧
    (elems (scanElem (vget treadleSequence35.trd 7) true (fb 56 (2 ^ 20 + 4095)) (if fld (fb 56 (2 ^ 20 + 4095)).toNat 0 12 = 0 then ((vget treadleSequence35.trd 7).bank false).lc.toNat else fld (fb 56 (2 ^ 20 + 4095)).toNat 0 12)) (match (none : Option (BitVec 12)) with | some k => min k.toNat ((vget treadleSequence35.trd 7).bank false).scnt.toNat | none => ((vget treadleSequence35.trd 7).bank false).scnt.toNat) ((vget treadleSequence35.trd 7).bank false)).scnt = 0 ∧
    Fetches treadleSequence36 7 false (fb 57 (2 ^ 20 + 4095)) ∧
    ((vget treadleSequence36.trd 7).bank false).lip = true ∧
    opc (fb 57 (2 ^ 20 + 4095)) = 57 ∧
    scanReserved (fb 57 (2 ^ 20 + 4095)) = false ∧
    (elems (scanElem (vget treadleSequence36.trd 7) false (fb 57 (2 ^ 20 + 4095)) (if fld (fb 57 (2 ^ 20 + 4095)).toNat 0 12 = 0 then ((vget treadleSequence36.trd 7).bank false).lc.toNat else fld (fb 57 (2 ^ 20 + 4095)).toNat 0 12)) (match (some 1 : Option (BitVec 12)) with | some k => min k.toNat ((vget treadleSequence36.trd 7).bank false).scnt.toNat | none => ((vget treadleSequence36.trd 7).bank false).scnt.toNat) ((vget treadleSequence36.trd 7).bank false)).scnt ≠ 0 ∧
    Fetches treadleSequence37 7 true (fb 58 4095) ∧
    ((vget treadleSequence37.trd 7).bank true).lip = true ∧
    opc (fb 58 4095) = 58 ∧
    fld (fb 58 4095).toNat 12 8 = 0 ∧
    (elems (bmacElem (vget treadleSequence37.trd 7) (fb 58 4095) (if fld (fb 58 4095).toNat 0 12 = 0 then ((vget treadleSequence37.trd 7).bank true).lc.toNat else fld (fb 58 4095).toNat 0 12)) (match (some 2 : Option (BitVec 12)) with | some k => min k.toNat ((vget treadleSequence37.trd 7).bank true).scnt.toNat | none => ((vget treadleSequence37.trd 7).bank true).scnt.toNat) ((vget treadleSequence37.trd 7).bank true)).scnt = 0 ∧
    (elems (bmacElem (vget treadleSequence37.trd 7) (fb 58 4095) (if fld (fb 58 4095).toNat 0 12 = 0 then ((vget treadleSequence37.trd 7).bank true).lc.toNat else fld (fb 58 4095).toNat 0 12)) (match (some 1 : Option (BitVec 12)) with | some k => min k.toNat ((vget treadleSequence37.trd 7).bank true).scnt.toNat | none => ((vget treadleSequence37.trd 7).bank true).scnt.toNat) ((vget treadleSequence37.trd 7).bank true)).scnt ≠ 0 ∧
    vsvoGood treadleSequence38 = true ∧
    engineWorks treadleSequence38 7 = true ∧
    (vget treadleSequence38.trd 7).hook = none ∧
    (vget treadleSequence38.trd 7).pendHooks = [] ∧
    (vget treadleSequence38.trd 7).bg = Bg.waitit ∧
    waitTime (vget treadleSequence38.trd 7).bank0 (fld ((vget treadleSequence38.trd 7).word (vget treadleSequence38.trd
      7).bank0).toNat 23 3) ≤ treadleSequence38.time.it := by
  unfold Fetches; and_intros <;> (decide +kernel)

def feedbackChannels1 : State := (fbkS 400000 fun x => { x with good := false, invDir := true })
def feedbackChannels2 : State := (fbkS 400000 id)
def feedbackChannels3 : State := (fbkS 400000 fun x => { x with mode := 4 })
def feedbackChannels4 : State := (fbkS 400000 fun x => { x with mode := 4, invDir := true, periods := -3 })
def feedbackChannels5 : State := (fbkS 430000 fun x => { ssiX x with ssiRun := some 5 })
def feedbackChannels6 : State := (fbkS 430000 fun x => { ssiX x with ssiRun := some 5, par := true })
def feedbackChannels7 : State := (fbkS 430000 fun x => { x with good := false, badSince := 430000 - 64000 })
def feedbackChannels8 : State := (fbkS 160000 id)
def feedbackChannels9 : State := (fbkS (81920*5) ssiX)
/-- The hypotheses of `Obligations.FeedbackChannels` are met, in states and with operands named here. -/
theorem met_FeedbackChannels :
    fbkWorks feedbackChannels1 39 = true ∧
    (vget feedbackChannels1.fbk 39).mode = 1 ∧
    (vget feedbackChannels1.fbk 39).good = false ∧
    feedbackChannels1.rat.reopened = none ∧
    newLevels (vget feedbackChannels1.fbk 39) true false false ≠ [] ∧
    filterOk feedbackChannels1 (vget (vget feedbackChannels1.fbk 39).filt 0) (vget (vget feedbackChannels1.fbk 39).edges 0) 400000 = true ∧
    newLevels (vget feedbackChannels2.fbk 39) true true false ≠ [] ∧
    filterOk feedbackChannels2 (vget (vget feedbackChannels2.fbk 39).filt 0) (vget (vget feedbackChannels2.fbk 39).edges 0) 400000 = true ∧
    fbkWorks feedbackChannels2 39 = true ∧
    (vget feedbackChannels2.fbk 39).mode = 1 ∧
    (vget feedbackChannels2.fbk 39).good = true ∧
    (quadPhase true true + 4 - quadPhase (vget feedbackChannels2.fbk 39).levA (vget feedbackChannels2.fbk 39).levB) % 4 = 2 ∧
    fbkWorks feedbackChannels3 39 = true ∧
    (vget feedbackChannels3.fbk 39).mode = 4 ∧
    BitVec.toNat feedbackChannels3.time.it % 800 = 0 ∧
    (pairA2 (vget feedbackChannels3.fbk 39) 32767 32767 < (vget feedbackChannels3.fbk 39).amin ∨ (vget feedbackChannels3.fbk
      39).amax < pairA2 (vget feedbackChannels3.fbk 39) 32767 32767) ∧
    fbkWorks feedbackChannels4 39 = true ∧
    (vget feedbackChannels4.fbk 39).mode = 4 ∧
    BitVec.toNat feedbackChannels4.time.it % 800 = 0 ∧
    (¬(pairA2 (vget feedbackChannels4.fbk 39) 49152 0 < (vget feedbackChannels4.fbk 39).amin ∨ (vget feedbackChannels4.fbk
      39).amax < pairA2 (vget feedbackChannels4.fbk 39) 49152 0)) ∧
    (vget feedbackChannels4.fbk 39).hasPair = false ∧
    fbkWorks feedbackChannels5 39 = true ∧
    (vget feedbackChannels5.fbk 39).mode = 5 ∧
    (vget feedbackChannels5.fbk 39).ssiRun.isSome = true ∧
    (frameData (vget feedbackChannels5.fbk 39) 562949953421311).2 = true ∧
    fbkWorks feedbackChannels6 39 = true ∧
    (vget feedbackChannels6.fbk 39).mode = 5 ∧
    (vget feedbackChannels6.fbk 39).ssiRun.isSome = true ∧
    (frameData (vget feedbackChannels6.fbk 39) 562949953421311).2 = false ∧
    fbkWorks feedbackChannels7 39 = true ∧
    (vget feedbackChannels7.fbk 39).good = false ∧
    (vget feedbackChannels7.fbk 39).badFault = false ∧
    BitVec.toNat (vget feedbackChannels7.fbk 39).badSince + 16000 * (vget feedbackChannels7.fbk 39).cableT.toNat ≤ BitVec.toNat
      feedbackChannels7.time.it ∧
    feedbackChannels8.island.vaon = true ∧
    feedbackChannels8.island.good.getLsbD 0 = true ∧
    (vget feedbackChannels8.fbk 39).held = false ∧
    BitVec.toNat feedbackChannels8.time.it % 16000 = 0 ∧
    fbkConfigReg (40) = true ∧
    Admits (Master.core 47) (fbkBase 39 + 40) feedbackChannels8 ∧
    fbkInUse feedbackChannels8 39 = false ∧
    (fbkConfig (vget feedbackChannels8.fbk 39) (40) 549755813887).isSome = true ∧
    fbkConfigReg (8) = true ∧
    Admits (Master.core 47) (fbkBase 0 + 8) axisOrders2 ∧
    fbkInUse axisOrders2 0 = true ∧
    fbkWorks feedbackChannels9 39 = true ∧
    ssiDue feedbackChannels9 39 = true := by
  unfold Admits; and_intros <;> (decide +kernel)

def sincosPairErrors1 : State := (fbkS 400000 fun x => { x with mode := 4, hasPair := true, rawFine := 0xBFFFE })
/-- The hypotheses of `Obligations.SincosPairErrors` are met, in states and with operands named here. -/
theorem met_SincosPairErrors :
    fbkWorks sincosPairErrors1 39 = true ∧
    (vget sincosPairErrors1.fbk 39).mode = 4 ∧
    BitVec.toNat sincosPairErrors1.time.it % 800 = 0 := by
  and_intros <;> (decide +kernel)

def compareCapture1 : State := (cmpS id id)
def compareCapture2 : State := (cmpS (fun x => { x with en := true }) id)
def compareCapture3 : State := (cmpS (fun x => { x with high := true }) id)
def compareCapture4 : State := (cmpS id (fun x => { x with edge := 2, src := 39 }))
def compareCapture5 : State := (cmpS id (fun x => { x with edge := 3, keep := true, tag := { valid := true } }))
def compareCapture8 : State := (cmpS id (fun x => { x with edge := 3, tag := { valid := true } }))
def compareCapture6 : State := (cmpS (fun x => { x with lbase := 4095, llen := 2, prev := some 9 }) id)
def compareCapture7 : State := (cmpS (fun x => { x with lbase := 4095, llen := 2, prev := some 9, dir := 2 }) id)
/-- The hypotheses of `Obligations.CompareCapture` are met, in states and with operands named here. -/
theorem met_CompareCapture :
    BitVec.getLsbD 1728#32 6 = true ∧
    Admits (Master.core 47) (ccBase + 256 * 15) compareCapture1 ∧
    (vget compareCapture1.cc.cmp 15).en = false ∧
    Admits (Master.core 47) (ccBase + 256 * 15) compareCapture2 ∧
    (vget compareCapture2.cc.cmp 15).en = true ∧
    ccWorks compareCapture3 = true ∧
    (vget compareCapture3.cc.cmp 15).high = true ∧
    (vget compareCapture3.cc.cmp 15).pulseEnd ≤ compareCapture3.time.it ∧
    ccWorks compareCapture4 = true ∧
    ((vget compareCapture4.cc.cap 15).edge = 3 ∨ (vget compareCapture4.cc.cap 15).edge = if false = true then 1 else 2) ∧
    (vget compareCapture4.cc.cap 15).tag.valid = false ∧
    filterOk compareCapture4 (vget compareCapture4.cc.cap 15).filt (vget compareCapture4.cc.cap 15).edgeIt 400000 = true ∧
    compareCapture4.rat.reopened = none ∧
    filterOk compareCapture5 (vget compareCapture5.cc.cap 15).filt (vget compareCapture5.cc.cap 15).edgeIt 400000 = true ∧
    (vget compareCapture8.cc.cap 15).edge = 3 ∧
    (vget compareCapture8.cc.cap 15).tag.valid = true ∧
    (vget compareCapture8.cc.cap 15).keep = false ∧
    ccWorks compareCapture5 = true ∧
    ((vget compareCapture5.cc.cap 15).edge = 3 ∨ (vget compareCapture5.cc.cap 15).edge = if false = true then 1 else 2) ∧
    (vget compareCapture5.cc.cap 15).tag.valid = true ∧
    (vget compareCapture5.cc.cap 15).keep = true ∧
    (vget compareCapture6.cc.cmp 15).periodic = false ∧
    (vget compareCapture6.cc.cmp 15).cyclic = false ∧
    (vget compareCapture6.cc.cmp 15).done = false ∧
    (vget compareCapture6.cc.cmp 15).prev = some 9 ∧
    (vget compareCapture6.cc.cmp 15).ptr.toNat < (vget compareCapture6.cc.cmp 15).llen.toNat ∧
    reached (vget compareCapture6.cc.cmp 15).dir (9) (30) (listEntry compareCapture6 ((vget compareCapture6.cc.cmp
      15).lbase.toNat + (vget compareCapture6.cc.cmp 15).ptr.toNat)) = true ∧
    (vget compareCapture7.cc.cmp 15).periodic = false ∧
    (vget compareCapture7.cc.cmp 15).cyclic = false ∧
    (vget compareCapture7.cc.cmp 15).done = false ∧
    (vget compareCapture7.cc.cmp 15).prev = some 9 ∧
    (vget compareCapture7.cc.cmp 15).ptr.toNat < (vget compareCapture7.cc.cmp 15).llen.toNat ∧
    reached (vget compareCapture7.cc.cmp 15).dir (9) (30) (listEntry compareCapture7 ((vget compareCapture7.cc.cmp
      15).lbase.toNat + (vget compareCapture7.cc.cmp 15).ptr.toNat)) = false := by
  unfold Admits; and_intros <;> (decide +kernel)

def canControllers1 : State := (canS id)
def canControllers2 : State := (moS 7 (fun m => { m with cfg := 5, id := 0x1FFFFFFF, tag := { valid := true } }) id)
def canControllers3 : State := (moS 7 (fun m => { m with cfg := 0x85, id := 0x1FFFFFFF, tag := { valid := true } }) id)
def canControllers4 : State := (moS 63 (fun m => { m with cfg := 3, pend := true }) id)
def canControllers5 : State := (moS 63 (fun m => { m with cfg := 3, pend := true }) fun c => { c with tx := some (63, 9), tec := 127 })
def canControllers6 : State := (moS 63 (fun m => { m with cfg := 0x43, pend := true }) fun c => { c with tx := some (63, 9), tec := 127 })
def canControllers7 : State := (moS 63 (fun m => { m with cfg := 0x43, pend := true }) fun c => { c with tx := some (63, 9), tec := 119, rec_ := 0 })
def canControllers8 : State := (moS 63 (fun m => { m with cfg := 0x43, pend := true }) fun c => { c with tx := some (63, 9), tec := 248, rec_ := 0, autorec := false, st := .passive })
def canControllers9 : State := (moS 63 (fun m => { m with cfg := 3 }) id)
def canControllers10 : State := (moS 63 (fun m => { m with cfg := 3 }) fun c => { c with st := .busOff })
def canControllers11 : State := (moS 63 (fun m => { m with cfg := 3, pend := true }) fun c => { c with st := .busOff })
def canControllers12 : State := (moS 63 (fun m => { m with cfg := 3, pend := true }) fun c => { c with tx := some (63, 9) })
def canControllers13 : State := (canS fun c => { c with st := .busOff })
def canControllers14 : State := (canS fun c => { c with st := .integrating, recovering := true })
def canControllers15 : State := (canS fun c => { c with st := .integrating })
def canControllers16 : State := (canS fun c => { c with mode := 1, tec := 255, rec_ := 255 })
def canControllers17 : State := (moS 63 (fun m => { m with cfg := 7, id := 7 }) fun c => { c with mo := vset c.mo 62 { cfg := 5, id := 7 } })
def tdcS (d : BitVec 8 → Can → Can) : State := (moS 63 (fun m => { m with cfg := 0x33, pend := true }) fun c => d 32 { c with tx := some (63, 9), dbt := c.dbt ||| 0x10000000, tec := 119 })
/-- An error of a transmitter and of a receiver, one that ISO 11898-1 exempts, and one for a delay above 400 ns. -/
def errTx : CanErr := ⟨3, true, true, false, false, none⟩
def errRx : CanErr := ⟨1, true, false, true, false, none⟩
def errExempt : CanErr := ⟨1, false, true, false, true, none⟩
def errDelay : CanErr := ⟨4, true, true, false, false, some 33⟩
/-- The hypotheses of `Obligations.CanControllers` are met, in states and with operands named here. -/
theorem met_CanControllers :
    canControllers1.rat.reopened = none ∧
    canOnBus canControllers1 3 = true ∧
    (vget canControllers1.can 3).loop = false ∧
    (vget canControllers1.can 3).tx = none ∧
    ¬ (frm.fdf = true ∧ (vget canControllers1.can 3).mode = 1) ∧
    ¬ (frm.fdf = true ∧ frm.rtr = true) ∧
    sofFits (vget canControllers1.can 3).nbt (vget canControllers1.can 3).dbt frm 4294966395#32 canControllers1.tsc = true ∧
    (vget canControllers1.can 3).rec_ = 0 ∧
    matchObj (vget canControllers1.can 3) frm = none ∧
    canControllers2.rat.reopened = none ∧
    canOnBus canControllers2 3 = true ∧
    (vget canControllers2.can 3).loop = false ∧
    (vget canControllers2.can 3).tx = none ∧
    ¬ (frm.fdf = true ∧ (vget canControllers2.can 3).mode = 1) ∧
    ¬ (frm.fdf = true ∧ frm.rtr = true) ∧
    sofFits (vget canControllers2.can 3).nbt (vget canControllers2.can 3).dbt frm 4294966395#32 canControllers2.tsc = true ∧
    (vget canControllers2.can 3).rec_ = 0 ∧
    matchObj (vget canControllers2.can 3) frm = some 7 ∧
    (vget (vget canControllers2.can 3).mo 7).mapped = false ∧
    (vget (vget canControllers2.can 3).mo 7).hold = false ∧
    canControllers3.rat.reopened = none ∧
    canOnBus canControllers3 3 = true ∧
    (vget canControllers3.can 3).loop = false ∧
    (vget canControllers3.can 3).tx = none ∧
    ¬ (frm.fdf = true ∧ (vget canControllers3.can 3).mode = 1) ∧
    ¬ (frm.fdf = true ∧ frm.rtr = true) ∧
    sofFits (vget canControllers3.can 3).nbt (vget canControllers3.can 3).dbt frm 4294966395#32 canControllers3.tsc = true ∧
    (vget canControllers3.can 3).rec_ = 0 ∧
    matchObj (vget canControllers3.can 3) frm = some 7 ∧
    (vget (vget canControllers3.can 3).mo 7).mapped = false ∧
    (vget (vget canControllers3.can 3).mo 7).hold = true ∧
    (vget (vget canControllers3.can 3).mo 7).tag.valid = true ∧
    canControllers16.rat.reopened = none ∧
    canOnBus canControllers16 3 = true ∧
    (vget canControllers16.can 3).loop = false ∧
    (vget canControllers16.can 3).tx = none ∧
    frm.fdf = true ∧
    (vget canControllers16.can 3).mode = 1 ∧
    (vget canControllers16.can 3).tec.toNat < 256 ∧
    (vget canControllers16.can 3).rec_ = 255 ∧
    canControllers4.rat.reopened = none ∧
    offer (vget canControllers4.can 3) = some 63 ∧
    canOnBus canControllers4 3 = true ∧
    (vget canControllers4.can 3).tx = none ∧
    (vget canControllers4.can 3).listen = false ∧
    (vget canControllers4.can 3).stopTx = false ∧
    canControllers5.rat.reopened = none ∧
    (vget canControllers5.can 3).tx = some (63, 9) ∧
    canOnBus canControllers5 3 = true ∧
    (vget canControllers5.can 3).loop = false ∧
    (vget canControllers5.can 3).tec.toNat < 128 ∧
    (vget canControllers5.can 3).rec_.toNat < 128 ∧
    tdcRuns (vget canControllers5.can 3) (vget (vget canControllers5.can 3).mo 63) = false ∧
    canControllers6.rat.reopened = none ∧
    (vget canControllers6.can 3).tx = some (63, 9) ∧
    canOnBus canControllers6 3 = true ∧
    (vget canControllers6.can 3).loop = false ∧
    (vget canControllers6.can 3).tec.toNat < 128 ∧
    (vget canControllers6.can 3).rec_.toNat < 128 ∧
    tdcRuns (vget canControllers6.can 3) (vget (vget canControllers6.can 3).mo 63) = false ∧
    (vget (vget canControllers5.can 3).mo 63).oneshot = false ∧
    (vget (vget canControllers6.can 3).mo 63).oneshot = true ∧
    tdcRuns (vget (tdcS fun _ c => c).can 3) (vget (vget (tdcS fun _ c => c).can 3).mo 63) = true ∧
    (32 : BitVec 8) ≤ tdcMax ∧
    canOnBus (tdcS fun _ c => c) 3 = true ∧
    (vget (tdcS fun _ c => c).can 3).tx = some (63, 9) ∧
    canControllers7.rat.reopened = none ∧
    (vget canControllers7.can 3).tx = some (63, 9) ∧
    canOnBus canControllers7 3 = true ∧
    errFits (vget canControllers7.can 3) errTx = true ∧
    errFits (vget canControllers7.can 3) errExempt = true ∧
    errFits (vget (tdcS fun _ c => c).can 3) errDelay = true ∧
    1 ≤ errTx.lec ∧ errTx.lec ≤ 6 ∧
    1 ≤ errExempt.lec ∧ errDelay.lec ≤ 6 ∧
    errTx.tx = true ∧ errExempt.tx = true ∧ errDelay.tx = true ∧
    (vget canControllers7.can 3).tec.toNat < 248 ∧
    canControllers8.rat.reopened = none ∧
    (vget canControllers8.can 3).tx = some (63, 9) ∧
    canOnBus canControllers8 3 = true ∧
    errFits (vget canControllers8.can 3) errTx = true ∧
    errTx.exempt = false ∧
    248 ≤ (vget canControllers8.can 3).tec.toNat ∧
    (vget canControllers8.can 3).tec.toNat < 256 ∧
    (vget canControllers8.can 3).autorec = false ∧
    errFits (vget canControllers1.can 3) errRx = true ∧
    canOnBus canControllers1 3 = true ∧
    1 ≤ errRx.lec ∧ errRx.lec ≤ 6 ∧
    errRx.tx = false ∧ errRx.heavy = true ∧
    (vget canControllers1.can 3).tec.toNat < 256 ∧
    Admits (Master.core 47) (moBase 3 63 + 28) canControllers9 ∧
    ((vget (vget canControllers9.can 3).mo 63).en && (vget (vget canControllers9.can 3).mo 63).tx && !(vget (vget canControllers9.can 3).mo 63).pend && !(vget canControllers9.can 3).listen && !(vget canControllers9.can 3).off &&
      decide ((vget canControllers9.can 3).mode ≠ 0) && !((vget (vget canControllers9.can 3).mo 63).fdf && decide ((vget canControllers9.can 3).mode = 1)) &&
      !((vget (vget canControllers9.can 3).mo 63).fdf && (vget (vget canControllers9.can 3).mo 63).rtr)) = true ∧
    Admits (Master.core 47) (moBase 3 63 + 28) canControllers10 ∧
    ((vget (vget canControllers10.can 3).mo 63).en && (vget (vget canControllers10.can 3).mo 63).tx && !(vget (vget canControllers10.can 3).mo 63).pend && !(vget canControllers10.can 3).listen && !(vget canControllers10.can 3).off &&
      decide ((vget canControllers10.can 3).mode ≠ 0) && !((vget (vget canControllers10.can 3).mo 63).fdf && decide ((vget canControllers10.can 3).mode = 1)) &&
      !((vget (vget canControllers10.can 3).mo 63).fdf && (vget (vget canControllers10.can 3).mo 63).rtr)) = false ∧
    (vget (vget canControllers10.can 3).mo 63).pend = false ∧
    Admits (Master.core 47) (moBase 3 63 + 28) canControllers11 ∧
    (vget (vget canControllers11.can 3).mo 63).pend = true ∧
    (vget canControllers11.can 3).tx = none ∧
    Admits (Master.core 47) (moBase 3 63 + 28) canControllers12 ∧
    (vget (vget canControllers12.can 3).mo 63).pend = true ∧
    (vget canControllers12.can 3).tx = some (63, 9) ∧
    canControllers9.rat.reopened = none ∧
    canControllers10.rat.reopened = none ∧
    canControllers11.rat.reopened = none ∧
    canControllers12.rat.reopened = none ∧
    canControllers13.rat.reopened = none ∧
    canControllers14.rat.reopened = none ∧
    canControllers15.rat.reopened = none ∧
    canControllers17.rat.reopened = none ∧
    Admits (Master.core 47) (canBase 3 + 16) canControllers13 ∧
    (vget canControllers13.can 3).st = CanState.busOff ∧
    Admits (Master.core 47) (canBase 3 + 16) canControllers1 ∧
    (vget canControllers1.can 3).st ≠ CanState.busOff ∧
    canWorks canControllers14 3 = true ∧
    (vget canControllers14.can 3).st = CanState.integrating ∧
    (vget canControllers14.can 3).recovering = true ∧
    canWorks canControllers15 3 = true ∧
    (vget canControllers15.can 3).st = CanState.integrating ∧
    (vget canControllers15.can 3).recovering = false ∧
    (vget (vget canControllers1.can 3).mo 63).mapped = false ∧
    (vget (vget canControllers1.can 3).mo 63).pend = false ∧
    Admits (Master.core 47) (moBase 3 63 + 4) canControllers1 ∧
    Admits (Master.core 47) (moBase 3 63 + 0) canControllers1 ∧
    claimsIdent true (vget (vget canControllers1.can 3).mo 63) { (vget (vget canControllers1.can 3).mo 63) with id := BitVec.setWidth 29 536870911#32 } = true ∧
    clashes (vget canControllers1.can 3) 63 { (vget (vget canControllers1.can 3).mo 63) with id := BitVec.setWidth 29 536870911#32 } = false ∧
    claimsIdent false (vget (vget canControllers1.can 3).mo 63) { (vget (vget canControllers1.can 3).mo 63) with cfg := BitVec.setWidth 16 4294967295#32 &&& 61823 } = true ∧
    clashes (vget canControllers1.can 3) 63 { (vget (vget canControllers1.can 3).mo 63) with cfg := BitVec.setWidth 16 4294967295#32 &&& 61823 } = false ∧
    (vget (vget canControllers17.can 3).mo 63).mapped = false ∧
    Admits (Master.core 47) (moBase 3 63 + 0) canControllers17 ∧
    Admits (Master.core 47) (moBase 3 63 + 4) canControllers17 ∧
    claimsIdent false (vget (vget canControllers17.can 3).mo 63) { (vget (vget canControllers17.can 3).mo 63) with cfg := BitVec.setWidth 16 5#32 &&& 61823 } = true ∧ clashes (vget canControllers17.can 3) 63 { (vget (vget canControllers17.can 3).mo 63) with cfg := BitVec.setWidth 16 5#32 &&& 61823 } = true ∧
    claimsIdent true (vget (vget canControllers17.can 3).mo 63) { (vget (vget canControllers17.can 3).mo 63) with id := BitVec.setWidth 29 7#32 } = true ∧ clashes (vget canControllers17.can 3) 63 { (vget (vget canControllers17.can 3).mo 63) with id := BitVec.setWidth 29 7#32 } = true ∧
    (vget (vget canControllers12.can 3).mo 63).mapped = false := by
  unfold Admits; and_intros <;> (decide +kernel)

def cancelPendingFrame1 : State := (moS 63 (fun m => { m with cfg := 3 }) fun c => { c with tx := some (63, 9) })
def cancelPendingFrame2 : State := (moS 63 (fun m => { m with cfg := 3, pend := true }) fun c => { c with tx := some (62, 9) })
/-- The hypotheses of `Obligations.CancelPendingFrame` are met, in states and with operands named here. -/
theorem met_CancelPendingFrame :
    Admits (Master.core 47) (moBase 3 63 + 28) canControllers12 ∧
    (vget (vget canControllers12.can 3).mo 63).pend = true ∧
    (vget canControllers12.can 3).tx = some (63, 9) ∧
    canOnBus canControllers12 3 = true ∧
    (vget canControllers12.can 3).loop = false ∧
    (vget (vget canControllers12.can 3).mo 63).oneshot = false ∧
    tdcRuns (vget canControllers12.can 3) (vget (vget canControllers12.can 3).mo 63) = false ∧
    Admits (Master.core 47) (moBase 3 63 + 28) cancelPendingFrame1 ∧
    (vget (vget cancelPendingFrame1.can 3).mo 63).pend = false ∧
    Admits (Master.core 47) (moBase 3 63 + 28) cancelPendingFrame2 ∧
    (vget (vget cancelPendingFrame2.can 3).mo 63).pend = true ∧
    (∀ (sof : BitVec 32), (vget cancelPendingFrame2.can 3).tx ≠ some (63, sof)) := by
  unfold Admits; and_intros <;> (first | exact not_sent (by decide +kernel) | decide +kernel)

def displayFramesAndLink1 : State := (dspS 400000 fun d => { d with pend := true })
def displayFramesAndLink2 : State := (dspS 400000 fun d => { d with pend := false })
def displayFramesAndLink3 : State := (dspS 400000 fun d => { d with shadow := { d.shadow with layer := vset d.shadow.layer 5 { en := true } } })
def displayFramesAndLink4 : State := (dspS 266666667 fun d => { d with pend := true, goIt := 266666667-15999, errNext := true, missed := [(5, 0)], dead := [(5,0)] })
def displayFramesAndLink5 : State := (layS id)
def displayFramesAndLink6 : State := (layS fun d => { d with missed := [(0, 1)] })
def displayFramesAndLink7 : State := (sigS 1 4282505490 false)
def displayFramesAndLink8 : State := (sigS 2 5 true)
def displayFramesAndLink9 : State := (sigS 2 5 false)
def displayFramesAndLink10 : State := (dspS 400000 id)
def displayFramesAndLink11 : State := (dspS 400000 fun d => { d with link := .up, hpd := true })
def displayFramesAndLink12 : State := (dspS 400000 fun d => { d with hpd := true })
def displayFramesAndLink13 : State := (dspS 400000 fun d => { d with link := .training, hpd := true })
def displayFramesAndLink16 : State := { displayFramesAndLink12 with island := { displayFramesAndLink12.island with mode := .servoOnly } }
def displayFramesAndLink14 : State := { (layS id) with poison := [0] }
def displayFramesAndLink15 : State := (layS fun d => { d with active := { d.active with layer := vset d.active.layer 5 { vget d.active.layer 5 with
  addr := 0xFFFFFFFFFC0 } } })
/-- The hypotheses of `Obligations.DisplayFramesAndLink` are met, in states and with operands named here. -/
theorem met_DisplayFramesAndLink :
    dspRuns displayFramesAndLink1 = some dspRec ∧
    Admits (Master.core 47) (dspBase + 8) displayFramesAndLink1 ∧
    displayFramesAndLink1.dsp.pend = true ∧
    dspRuns displayFramesAndLink2 = some dspRec ∧
    Admits (Master.core 47) (dspBase + 8) displayFramesAndLink2 ∧
    displayFramesAndLink2.dsp.pend = false ∧
    commitCode dspRec displayFramesAndLink2.dsp.shadow = 0 ∧
    dspRuns displayFramesAndLink3 = some dspRec ∧
    Admits (Master.core 47) (dspBase + 8) displayFramesAndLink3 ∧
    displayFramesAndLink3.dsp.pend = false ∧
    commitCode dspRec displayFramesAndLink3.dsp.shadow ≠ 0 ∧
    dspRuns displayFramesAndLink4 = some dspRec ∧
    BitVec.toNat displayFramesAndLink4.time.it % fPer = 0 ∧
    displayFramesAndLink4.rat.reopened = none ∧
    displayFramesAndLink4.dsp.pend = true ∧ displayFramesAndLink4.dsp.clearReq = false ∧
    BitVec.toNat displayFramesAndLink4.time.it < displayFramesAndLink4.dsp.goIt.toNat + 16000 ∧
    dspRuns displayFramesAndLink5 = some dspRec ∧
    layerReads displayFramesAndLink5 5 = true ∧
    displayFramesAndLink5.dsp.clear 5 0 = false ∧
    pixAddrs displayFramesAndLink5 dspRec.hact.toNat 5 0 ≠ [] ∧
    displayFramesAndLink5.rat.reopened = none ∧
    displayFramesAndLink5.dsp.missed = [] ∧
    dspRuns displayFramesAndLink6 = some dspRec ∧
    layerReads displayFramesAndLink6 5 = true ∧
    displayFramesAndLink6.dsp.clear 5 0 = false ∧
    pixAddrs displayFramesAndLink6 dspRec.hact.toNat 5 0 ≠ [] ∧
    displayFramesAndLink6.rat.reopened = none ∧
    displayFramesAndLink6.dsp.missed ≠ [] ∧
    dspRuns displayFramesAndLink7 = some dspRec ∧
    sigOn dspRec 7 (vget displayFramesAndLink7.dsp.active.sig 7) = true ∧
    (vget displayFramesAndLink7.dsp.sigres 7).it ≠ displayFramesAndLink7.dsp.frame ∧
    displayFramesAndLink7.rat.reopened = none ∧
    (vget displayFramesAndLink7.dsp.active.sig 7).mode = 1 ∧
    crc32 (sigBytes (fetchUpTo 64 4096 displayFramesAndLink7) dspRec.hact.toNat (vget displayFramesAndLink7.dsp.active.sig 7)) = (vget
      displayFramesAndLink7.dsp.active.sig 7).exp ∧
    dspRuns displayFramesAndLink8 = some dspRec ∧
    sigOn dspRec 7 (vget displayFramesAndLink8.dsp.active.sig 7) = true ∧
    (vget displayFramesAndLink8.dsp.sigres 7).it ≠ displayFramesAndLink8.dsp.frame ∧
    displayFramesAndLink8.rat.reopened = none ∧
    (vget displayFramesAndLink8.dsp.active.sig 7).mode = 2 ∧ (vget displayFramesAndLink8.dsp.sigres 7).learned = true ∧
    crc32 (sigBytes (fetchUpTo 64 4096 displayFramesAndLink8) dspRec.hact.toNat (vget displayFramesAndLink8.dsp.active.sig 7)) ≠ (vget
      displayFramesAndLink8.dsp.active.sig 7).exp ∧
    dspRuns displayFramesAndLink9 = some dspRec ∧
    sigOn dspRec 7 (vget displayFramesAndLink9.dsp.active.sig 7) = true ∧
    (vget displayFramesAndLink9.dsp.sigres 7).it ≠ displayFramesAndLink9.dsp.frame ∧
    displayFramesAndLink9.rat.reopened = none ∧
    (vget displayFramesAndLink9.dsp.active.sig 7).mode = 2 ∧
    (vget displayFramesAndLink9.dsp.sigres 7).learned = false ∧
    Admits (Master.core 47) (dspBase + 64) displayFramesAndLink9 ∧
    dpRec displayFramesAndLink16 = none ∧
    dpRec displayFramesAndLink10 = some dspRec ∧
    displayFramesAndLink10.rat.reopened = none ∧
    displayFramesAndLink10.dsp.link ≠ DpLink.up ∧
    displayFramesAndLink10.dsp.hpd = false ∧
    dpRec displayFramesAndLink11 = some dspRec ∧
    displayFramesAndLink11.rat.reopened = none ∧
    displayFramesAndLink11.dsp.link = DpLink.up ∧
    displayFramesAndLink11.dsp.hpd = true ∧
    dpRec displayFramesAndLink13 = some dspRec ∧
    displayFramesAndLink13.rat.reopened = none ∧
    displayFramesAndLink13.dsp.link = DpLink.training ∧
    dpRec displayFramesAndLink12 = some dspRec ∧
    displayFramesAndLink12.dsp.hpd = true ∧
    displayFramesAndLink12.dsp.link ≠ DpLink.up ∧
    dspRuns displayFramesAndLink14 = some dspRec ∧
    displayFramesAndLink14.rat.reopened = none ∧
    fetchesAt displayFramesAndLink14 64 5 0 0 = true ∧
    fetchFails displayFramesAndLink14 true 0 = true ∧
    dspRuns displayFramesAndLink15 = some dspRec ∧
    displayFramesAndLink15.rat.reopened = none ∧
    fetchesAt displayFramesAndLink15 64 5 0xFFFFFFFFFC0 0 = true ∧
    fetchFails displayFramesAndLink15 false 0xFFFFFFFFFC0 = true ∧
    (∀ n, firstFailure displayFramesAndLink10 64 n 64 = none) := by
  unfold Admits; and_intros <;> (decide +kernel)

def powerLoops1 : State := (powS (fun x => { x with raiseTo := some 39, vout := 750 }) id)
def powerLoops2 : State := (powS (fun x => { x with vout := 1000 }) id)
def powerLoops3 : State := (powS id id)
def powerLoops4 : State := (powS (fun x => { x with stretching := true }) id)
def powerLoops5 : State := (powS (fun x => { x with loop := 10, cap := 40, step := 40 }) id)
def powerLoops6 : State := (powS (fun x => { x with loop := 40, cap := 39, step := 40 }) fun p => { p with crit := vrep 14 true })
/-- The hypotheses of `Obligations.PowerLoops` are met, in states and with operands named here. -/
theorem met_PowerLoops :
    domLive powerLoops1 4 = true ∧
    (vget powerLoops1.power.dom 4).raiseTo = some 39 ∧
    powerLoops1.power.pmbErr = false ∧
    nearVolt 20 3072 (vget powerLoops1.power.dom 4).vout.toNat = true ∧
    domLive powerLoops2 4 = true ∧
    (vget powerLoops2.power.dom 4).raiseTo = none ∧
    voltOf 4 (vget powerLoops2.power.dom 4).step (vget powerLoops2.power.dom 4).trim < (vget powerLoops2.power.dom 4).vout ∧
    16000000 ≤ BitVec.toNat (powerLoops2.time.it - (vget powerLoops2.power.dom 4).lowSince) ∧
    domLive powerLoops3 4 = true ∧
    (vget powerLoops3.power.dom 4).stretching = false ∧
    domLive powerLoops4 4 = true ∧
    (vget powerLoops4.power.dom 4).stretching = true ∧
    domLive powerLoops5 4 = true ∧
    powerLoops5.rat.reopened = none ∧
    curLimit 4 < calibrated powerLoops5 4 0xFFFFFFFF ∧
    domLive powerLoops6 4 = true ∧
    powerLoops6.rat.reopened = none ∧
    (tempLive powerLoops6 13 = true ∧ vget powerLoops6.power.crit 13 = true ∧ tempLive powerLoops1 13 = true) := by
  and_intros <;> (first | exact voltOf_lt _ _ _ | decide +kernel)

def powerMonitors1 : State := (powS id fun p => { p with mode1 := true })
def powerMonitors2 : State := (powS id fun p => { p with paceCnt := 0, slow := true })
def powerMonitors3 : State := (powS id fun p => { p with pacing := true, lastUntil := 900000000, dom := p.dom.map fun x => { x with step := 40 } })
def powerMonitors4 : State := { (powS id fun p => { p with budget := vset p.budget 0 4 }) with tiles := vrep 64 { held := false, gate := 1 } }
def powerMonitors5 : State := (powS id fun p => { p with paceCnt := 1, lastSent := 20000000 })
/-- The hypotheses of `Obligations.PowerMonitors` are met, in states and with operands named here. -/
theorem met_PowerMonitors :
    (powerLoops3.rat.reopened = none ∧ powerMonitors1.rat.reopened = none ∧ powerMonitors2.rat.reopened = none ∧
      powerMonitors3.rat.reopened = none ∧ powerMonitors4.rat.reopened = none ∧ powerMonitors5.rat.reopened = none) ∧
    powerLoops3.island.vaon = true ∧
    vget (vset (vrep 14 (some 0)) 13 none) 13 = none ∧
    0 = 0 ∧
    (∀ (n : Fin 14), vget (vrep 14 (some 0)) n = some 0) ∧
    powerMonitors1.island.mode = Mode.full ∧
    powerLoops3.island.mode = Mode.full ∧
    powerMonitors2.island.mode = Mode.full ∧
    paceDue (ratioNow { powerMonitors2 with power := have __src := powerMonitors2.power; __src }) = true ∧
    paceRatio (ratioNow { powerMonitors2 with power := have __src := powerMonitors2.power; __src }) < (ratioNow
      { powerMonitors2 with power := have __src := powerMonitors2.power; __src }).power.thresh.toNat ∧
    powerMonitors3.island.mode = Mode.full ∧
    paceDue (ratioNow { powerMonitors3 with power := have __src := powerMonitors3.power; __src }) = true ∧
    (ratioNow { powerMonitors3 with power := have __src := powerMonitors3.power; __src }).power.thresh.toNat ≤ paceRatio
      (ratioNow { powerMonitors3 with power := have __src := powerMonitors3.power; __src }) ∧
    powerMonitors4.island.mode = Mode.full ∧
    powerMonitors4.power.mode1 = false ∧
    (vget powerMonitors4.parts 0).assigned = true ∧
    (vget { powerMonitors4 with tiles := vset powerMonitors4.tiles 63 { vget powerMonitors4.tiles 63 with lane := true } }.tiles 63).lane = true ∧
    vget powerMonitors4.power.budget 0 ≠ 65535 ∧
    powerMonitors5.island.mode = Mode.full ∧
    paceDue (ratioNow { powerMonitors5 with power := have __src := powerMonitors5.power; __src }) = false := by
  and_intros <;> (decide +kernel)

def faultCauses1 : State := { lk with flt := vset lk.flt (fidSlot (fidMk 2 63)) { vget lk.flt (fidSlot (fidMk 2 63)) with fence := true } }
def faultCauses2 : State := { lk with flt := vset lk.flt (fidSlot (axFid 31)) { a := { cause := 0x002 }, b := { cause := 0x002 }, fence := true }, axes := vset lk.axes 31 { vget lk.axes 31 with st := .safe } }
def faultCauses3 : State := { lk with flt := vset lk.flt (fidSlot (fbkFid 39)) { a := { cause := 0x400 }, b := { cause := 0x400 }, fence := true }, fbk := vset lk.fbk 39 { vget lk.fbk 39 with good := false, cable := true } }
def faultCauses4 : State := (p31 { assigned := true, fenced := true, tiles := 0x8000000000000000 } false)
def faultCauses5 : State := (let s := p31 { assigned := true, fenced := true, tiles := 0x8000000000000000 } true; { s with flt := vset s.flt (fidSlot (fidMk 2 63)) { a := { cause := 0x008 }, b := { cause := 0x008 } } })
/-- The hypotheses of `Obligations.FaultCauses` are met, in states and with operands named here. -/
theorem met_FaultCauses :
    (lk.rat.reopened = none ∧ faultCauses1.rat.reopened = none ∧ faultCauses2.rat.reopened = none ∧
      faultCauses3.rat.reopened = none) ∧
    fidOk (fidMk 11 0) = true ∧
    powered lk (fidMk 11 0) = true ∧
    6 ≠ 0 ∧
    causeOn (fidMk 11 0) 6 = true ∧
    fidOk (fidMk 2 63) = true ∧
    powered lk (fidMk 2 63) = true ∧
    (vget lk.flt (fidSlot (fidMk 2 63))).a.cause = (vget lk.flt (fidSlot (fidMk 2 63))).b.cause ∧
    2048 ≠ 0 ∧
    powered faultCauses1 (fidMk 2 63) = true ∧
    isFenced faultCauses1 (fidMk 2 63) = true ∧
    fidOk (axFid 31) = true ∧
    Admits (Master.core 47) (slotBase (axFid 31)) faultCauses2 ∧
    (vget faultCauses2.flt (fidSlot (axFid 31))).a.cause.getLsbD 1 = true ∧
    persists faultCauses2 (axFid 31) 1 = false ∧
    fidOk (fbkFid 39) = true ∧
    Admits (Master.core 47) (slotBase (fbkFid 39)) faultCauses3 ∧
    (vget faultCauses3.flt (fidSlot (fbkFid 39))).a.cause.getLsbD 10 = true ∧
    persists faultCauses3 (fbkFid 39) 10 = true ∧
    Admits (Master.core 47) (pctrlAddr 0) lk ∧
    (vget lk.parts 0).fenced = false ∧
    Admits (Master.core 47) (pctrlAddr 31) faultCauses4 ∧
    (vget faultCauses4.parts 31).fenced = true ∧
    reopenBlocked faultCauses4 31 = false ∧
    Admits (Master.core 47) (pctrlAddr 31) faultCauses5 ∧
    (vget faultCauses5.parts 31).fenced = true ∧
    reopenBlocked faultCauses5 31 = true := by
  unfold Admits; and_intros <;> (decide +kernel)

def resetAndRelease1 : State := { lk with parts := vset lk.parts 0 { whole with reqBusy := true } }
def resetAndRelease2 : State := (p31 {} false)
def resetAndRelease3 : State := { lk with flt := vset lk.flt (fidSlot (fidMk 3 15)) { busy := some (true, 31) } }
def resetAndRelease4 : State := { lk with flt := vset lk.flt (fidSlot (fidMk 2 63)) { busy := some (false, 0) } }
/-- The hypotheses of `Obligations.ResetAndRelease` are met, in states and with operands named here. -/
theorem met_ResetAndRelease :
    Admits (Master.core 47) (rstBase 0) resetAndRelease1 ∧
    (Instr.rstRelease (Master.core 47) 0 (fidMk 2 63), 1) ∈ [(Instr.rstReset (Master.core 47) 0 (fidMk 2 63), 0#2),
      (Instr.rstRelease (Master.core 47) 0 (fidMk 2 63), 1#2)] ∧
    (vget resetAndRelease1.parts 0).reqBusy = true ∧
    Admits (Master.core 47) (rstBase 0) lk ∧
    (Instr.rstReset (Master.core 47) 0 (fidMk 2 63), 0) ∈ [(Instr.rstReset (Master.core 47) 0 (fidMk 2 63), 0#2),
      (Instr.rstRelease (Master.core 47) 0 (fidMk 2 63), 1#2)] ∧
    (vget lk.parts 0).reqBusy = false ∧
    rstRefusal { lk with parts := vset lk.parts 0 { (vget lk.parts 0) with reqFid := fidMk 2 63 } } ⟨0, by decide⟩ (fidMk 2 63)
      0 = none ∧
    Admits (Master.core 47) (rstBase 0) resetAndRelease2 ∧
    (vget resetAndRelease2.parts 0).reqBusy = false ∧
    rstRefusal
      { resetAndRelease2 with parts := vset resetAndRelease2.parts 0 { (vget resetAndRelease2.parts 0) with reqFid := fidMk 2 63 } }
      ⟨0, by decide⟩ (fidMk 2 63) 0 = some 1 ∧
    fidOk (fidMk 3 15) = true ∧
    (vget resetAndRelease3.flt (fidSlot (fidMk 3 15))).busy = some (true, 31) ∧
    resetAndRelease3.rat.reopened = none ∧
    fidOk (fidMk 2 63) = true ∧
    (vget resetAndRelease4.flt (fidSlot (fidMk 2 63))).busy = some (false, 0) ∧
    resetAndRelease4.rat.reopened = none ∧
    coreVector lk 47 ≠ none := by
  unfold Admits; and_intros <;> (decide +kernel)

def freezes1 : State := { lk with frz := { lk.frz with arm := 416001 } }
def freezes2 : State := { lk with frz := { lk.frz with arm := 3600000 } }
def freezes3 : State := { lk with frz := { lk.frz with pending := some { t := 400000, source := 2, late := true, origin := 7 } } }
def freezes4 : State := { servoOnly with time := { it := 400000 }, frz := { lk.frz with pending := some { t := 400000, source := 2, late := true, origin := 7 } } }
def freezes5 : State := (frzS fun z => { z with pending := some { t := 400000, source := 2, late := true, origin := 7 }, writing := some img })
def freezes6 : State := (frzS fun z => { z with writing := some img, base := 2, images := 0xFFFFFFFF, mlen := 64 })
/-- The hypotheses of `Obligations.Freezes` are met, in states and with operands named here. -/
theorem met_Freezes :
    Admits (Master.core 47) (frzBase + 40) freezes1 ∧
    isFenced freezes1 frzFid = false ∧
    freezes1.frz.pending = none ∧
    Admits (Master.core 47) (frzBase + 40) lk ∧
    isFenced lk frzFid = false ∧
    lk.frz.arm < lk.time.it + 3200000 ∧
    Admits (Master.core 47) (frzBase + 40) freezes2 ∧
    isFenced freezes2 frzFid = false ∧
    (¬freezes2.frz.arm < freezes2.time.it + 3200000) ∧
    freezes2.frz.pending = none ∧
    freezeDue freezes3 = some { t := 400000, source := 2, late := true, origin := 7 } ∧
    freezes3.frz.writing = none ∧
    freezes3.island.mode = Mode.full ∧
    freezeDue freezes4 = some { t := 400000, source := 2, late := true, origin := 7 } ∧
    freezes4.frz.writing = none ∧
    freezes4.island.mode ≠ Mode.full ∧
    freezeDue freezes5 = some { t := 400000, source := 2, late := true, origin := 7 } ∧
    freezes5.frz.writing.isSome = true ∧
    freezes6.frz.writing = some img ∧
    freezes6.rat.reopened = none ∧
    eventQueue freezes6 0 = none ∧
    ratCheckRange freezes6 0 (freezes6.frz.base.toNat * 2 ^ 15 + (freezes6.frz.images + 1).toNat % 8 * 4096) 4096 AccKind.store
      Side.plain = none ∧
    ratCheckRange freezes6 0 (freezes6.frz.maddr.toNat * 8) freezes6.frz.mlen.toNat AccKind.load Side.plain = none ∧
    poisoned freezes6 (freezes6.frz.maddr.toNat * 8) freezes6.frz.mlen.toNat = false := by
  unfold Admits; and_intros <;> (decide +kernel)

theorem works_of {d : List Byte} {op : Nat} (h1 : opJob (atOp d) 63 op = some (job d)) (h2 : descCheck (opDesc d) = none)
    (h3 : (opDesc d).inv = false) : Operates (atOp d) 63 op (job d) (atOp d) := operates_at h1 h2 h3
theorem reads_two {d : List Byte} {i : Nat} (h0 : ((opDesc d).opd i).absent = false)
    (h1 : (readOpd ⟨63, 0⟩ ((opDesc d).opd i) (atOp d)).1 = .ok two) (h2 : (readOpd ⟨63, 0⟩ ((opDesc d).opd i) (atOp d)).2 = atOp d) :
    Gives 63 (job d) i (atOp d) two (atOp d) := gives_at h0 h1 h2
theorem reads_zero {d : List Byte} {i : Nat} (h0 : ((opDesc d).opd i).absent = false)
    (h1 : (readOpd ⟨63, 0⟩ ((opDesc d).opd i) (atOp d)).1 = .ok zero) (h2 : (readOpd ⟨63, 0⟩ ((opDesc d).opd i) (atOp d)).2 = atOp d) :
    Gives 63 (job d) i (atOp d) zero (atOp d) := gives_at h0 h1 h2
/-- The hypotheses of `Obligations.LoomOperators` are met, for each operator in turn. -/
theorem met_LoomOperators :
    (Operates (atOp dAct) 63 0x11 (job dAct) (atOp dAct) ∧ Gives 63 (job dAct) 0 (atOp dAct) two (atOp dAct)) ∧
    (Operates (atOp dCvt) 63 0x30 (job dCvt) (atOp dCvt) ∧ Gives 63 (job dCvt) 0 (atOp dCvt) two (atOp dCvt)) ∧
    (Operates (atOp dElt) 63 0x10 (job dElt) (atOp dElt) ∧ Gives 63 (job dElt) 0 (atOp dElt) two (atOp dElt) ∧
      Gives 63 (job dElt) 1 (atOp dElt) two (atOp dElt)) ∧
    (Operates (atOp dRed) 63 0x20 (job dRed) (atOp dRed) ∧ Gives 63 (job dRed) 0 (atOp dRed) two (atOp dRed)) ∧
    (Operates (atOp dSmx) 63 0x21 (job dSmx) (atOp dSmx) ∧ Gives 63 (job dSmx) 0 (atOp dSmx) two (atOp dSmx)) ∧
    (Operates (atOp dNorm) 63 0x22 (job dNorm) (atOp dNorm) ∧ Gives 63 (job dNorm) 0 (atOp dNorm) two (atOp dNorm) ∧
      Gives 63 (job dNorm) 1 (atOp dNorm) two (atOp dNorm) ∧ Gives 63 (job dNorm) 2 (atOp dNorm) two (atOp dNorm)) ∧
    (Operates (atOp dGemm) 63 1 (job dGemm) (atOp dGemm) ∧ Gives 63 (job dGemm) 0 (atOp dGemm) two (atOp dGemm) ∧
      Gives 63 (job dGemm) 1 (atOp dGemm) two (atOp dGemm) ∧ Gives 63 (job dGemm) 2 (atOp dGemm) [] (atOp dGemm) ∧
      leAt (opDesc dGemm).par 16 8 = 0) ∧
    (Operates (atOp dBias) 63 1 (job dBias) (atOp dBias) ∧ Gives 63 (job dBias) 0 (atOp dBias) two (atOp dBias) ∧
      Gives 63 (job dBias) 1 (atOp dBias) two (atOp dBias) ∧ Gives 63 (job dBias) 2 (atOp dBias) two (atOp dBias) ∧
      leAt (opDesc dBias).par 16 8 ≠ 0 ∧
      (tileRead 63 0 (opAddr (leAt (opDesc dBias).par 16 8)) (4 * (opDesc dBias).dst.cols) (atOp dBias)).1 = .ok [0, 0, 0, 0]) ∧
    (Operates (atOp dGth) 63 0x40 (job dGth) (atOp dGth) ∧ Gives 63 (job dGth) 0 (atOp dGth) two (atOp dGth) ∧
      Gives 63 (job dGth) 1 (atOp dGth) zero (atOp dGth)) ∧
    (Operates (atOp dGthBad) 63 0x40 (job dGthBad) (atOp dGthBad) ∧ Gives 63 (job dGthBad) 0 (atOp dGthBad) two (atOp dGthBad) ∧
      Gives 63 (job dGthBad) 1 (atOp dGthBad) zero (atOp dGthBad)) :=
  ⟨⟨works_of (by decide +kernel) (by decide +kernel) (by decide +kernel),
    reads_two (by decide +kernel) (by decide +kernel) rfl⟩,
   ⟨works_of (by decide +kernel) (by decide +kernel) (by decide +kernel),
    reads_two (by decide +kernel) (by decide +kernel) rfl⟩,
   ⟨works_of (by decide +kernel) (by decide +kernel) (by decide +kernel),
    reads_two (by decide +kernel) (by decide +kernel) rfl,
    reads_two (by decide +kernel) (by decide +kernel) rfl⟩,
   ⟨works_of (by decide +kernel) (by decide +kernel) (by decide +kernel),
    reads_two (by decide +kernel) (by decide +kernel) rfl⟩,
   ⟨works_of (by decide +kernel) (by decide +kernel) (by decide +kernel),
    reads_two (by decide +kernel) (by decide +kernel) rfl⟩,
   ⟨works_of (by decide +kernel) (by decide +kernel) (by decide +kernel),
    reads_two (by decide +kernel) (by decide +kernel) rfl,
    reads_two (by decide +kernel) (by decide +kernel) rfl,
    reads_two (by decide +kernel) (by decide +kernel) rfl⟩,
   ⟨works_of (by decide +kernel) (by decide +kernel) (by decide +kernel),
    reads_two (by decide +kernel) (by decide +kernel) rfl,
    reads_two (by decide +kernel) (by decide +kernel) rfl,
    gives_none (by decide +kernel),
    by decide +kernel⟩,
   ⟨works_of (by decide +kernel) (by decide +kernel) (by decide +kernel),
    reads_two (by decide +kernel) (by decide +kernel) rfl,
    reads_two (by decide +kernel) (by decide +kernel) rfl,
    reads_two (by decide +kernel) (by decide +kernel) rfl,
    by decide +kernel,
    by decide +kernel⟩,
   ⟨works_of (by decide +kernel) (by decide +kernel) (by decide +kernel),
    reads_two (by decide +kernel) (by decide +kernel) rfl,
    reads_zero (by decide +kernel) (by decide +kernel) rfl⟩,
   ⟨works_of (by decide +kernel) (by decide +kernel) (by decide +kernel),
    reads_two (by decide +kernel) (by decide +kernel) rfl,
    reads_zero (by decide +kernel) (by decide +kernel) rfl⟩⟩
/-- An operator of OPID 0 and the flag write after it: the hypotheses of the fifth clause of `Obligations.LoomTiles`. -/
theorem met_LoomTiles_nop : Operates (atOp (opd 0 32 [] [])) 63 0 (job (opd 0 32 [] [])) (atOp (opd 0 32 [] [])) ∧
    Flagged 63 (job (opd 0 32 [] [])) (atOp (opd 0 32 [] [])) (atOp (opd 0 32 [] [])) :=
  ⟨works_of (by decide +kernel) (by decide +kernel) (by decide +kernel), by unfold Flagged; exact (if_pos (by decide +kernel)).mpr rfl⟩
def seenReset : State := { State.reset with srcLevel := levels State.reset }
theorem levels_of_update (s : State) (v : BitVec 512) : levels { s with srcLevel := v } = levels s := rfl
/-- The hypotheses of `Obligations.SourcesStaySeen` are met after reset, in both forms of the level last seen. -/
theorem met_SourcesStaySeen : Seen seenReset ∧ ∃ t, step seenReset = .next t :=
  ⟨(levels_of_update State.reset _).symm, _, rfl⟩

end Sys2Proof.Tests
end

section
/-! SUPPORT. Sin/cos pairs in error (R302): what a pair's result does to its channel. -/
namespace Sys2Proof.Machine

/-! ### The compare outputs leave the feedback channels alone and are never held -/

/-- A firing changes its output alone, or changes it and reports the end of its list (R312, R313). -/
theorem fire_cases (i : Fin 16) (n : Nat) (ptr : BitVec 13) (s : State) :
    (∃ f, fire i n ptr s = s.modCmp i f) ∨
      ∃ f g w, fire i n ptr s = emit ccFid 0x41 w ((s.modCmp i f).modCmp i g) := by
  unfold fire
  extract_lets
  split
  · exact .inr ⟨_, _, _, rfl⟩
  · exact .inl ⟨_, rfl⟩
@[simp] theorem fire_fbk (i : Fin 16) (n : Nat) (ptr : BitVec 13) (s : State) : (fire i n ptr s).fbk = s.fbk := by
  obtain ⟨f, e⟩ | ⟨f, g, w, e⟩ := fire_cases i n ptr s <;> simp [e]
@[simp] theorem fire_waits (i : Fin 16) (n : Nat) (ptr : BitVec 13) (s : State) :
    (fire i n ptr s).rat.waits = s.rat.waits := by
  obtain ⟨f, e⟩ | ⟨f, g, w, e⟩ := fire_cases i n ptr s <;> simp [e]
/-- An output that evaluates an update changes itself alone, or changes itself and fires (R311). -/
theorem evalCmp_cases (good : Bool) (cur : BitVec 64) (i : Fin 16) (s : State) :
    (∃ f, evalCmp good cur i s = s.modCmp i f) ∨ ∃ f n ptr, evalCmp good cur i s = fire i n ptr (s.modCmp i f) := by
  unfold evalCmp
  split_ifs
  · exact .inl ⟨_, rfl⟩
  · dsimp only
    split
    · exact .inl ⟨_, rfl⟩
    · split_ifs
      · exact .inl ⟨_, rfl⟩
      · exact .inl ⟨_, rfl⟩
      · exact .inr ⟨_, _, _, rfl⟩
      · exact .inl ⟨_, rfl⟩
      · exact .inr ⟨_, _, _, rfl⟩
@[simp] theorem evalCmp_fbk (good : Bool) (cur : BitVec 64) (i : Fin 16) (s : State) :
    (evalCmp good cur i s).fbk = s.fbk := by
  obtain ⟨f, e⟩ | ⟨f, n, ptr, e⟩ := evalCmp_cases good cur i s <;> simp [e]
@[simp] theorem evalCmp_waits (good : Bool) (cur : BitVec 64) (i : Fin 16) (s : State) :
    (evalCmp good cur i s).rat.waits = s.rat.waits := by
  obtain ⟨f, e⟩ | ⟨f, n, ptr, e⟩ := evalCmp_cases good cur i s <;> simp [e]
@[simp] theorem updateCmps_fbk (c : Fin 40) (s : State) : (updateCmps c s).fbk = s.fbk := by
  unfold updateCmps
  split
  · rfl
  · exact foldl_keep (·.fbk) _ (by intros; split <;> simp) _ _
@[simp] theorem updateCmps_waits (c : Fin 40) (s : State) : (updateCmps c s).rat.waits = s.rat.waits := by
  unfold updateCmps
  split
  · rfl
  · dsimp only
    exact foldl_keep (·.rat.waits) _ (by intros; split <;> simp) _ _

/-! ### A channel that becomes BAD -/

/-- Becoming BAD touches the channel's validity alone (R305); a channel that is BAD already stays as it is. -/
@[simp] theorem becomeBad_channel (c : Fin 40) (s : State) :
    vget (becomeBad c s).fbk c =
      if (vget s.fbk c).good then { vget s.fbk c with good := false, badSince := s.time.it, badFault := false }
      else vget s.fbk c := by
  unfold becomeBad
  cases h : (vget s.fbk c).good <;> simp [h]
@[simp] theorem becomeBad_waits (c : Fin 40) (s : State) : (becomeBad c s).rat.waits = s.rat.waits := by
  unfold becomeBad
  cases h : (vget s.fbk c).good <;> simp [h]

/-! ### The two errors of a pair -/

/-- A pair's amplitude is outside AMIN to AMAX (R302). -/
def pairAmp (x : Fbk) (sin cos : BitVec 16) : Bool :=
  decide (pairA2 x sin cos < x.amin) || decide (x.amax < pairA2 x sin cos)
/-- A pair's fine is a quarter period or more from the previous pair's as it was computed (R302, log 50). -/
def pairFast (x : Fbk) (sin cos : BitVec 16) : Bool := x.hasPair && quarterApart (pairFine x sin cos) x.rawFine

theorem pairAmp_iff (x : Fbk) (sin cos : BitVec 16) :
    pairAmp x sin cos = true ↔ pairA2 x sin cos < x.amin ∨ x.amax < pairA2 x sin cos := by simp [pairAmp]
theorem quarterApart_iff (a b : BitVec 20) :
    quarterApart a b = true ↔ 2 ^ 18 ≤ (a - b).toNat ∧ 2 ^ 20 - (a - b).toNat ≥ 2 ^ 18 := by
  simp only [quarterApart, Bool.and_eq_true, decide_eq_true_eq]
  omega
theorem pairFast_iff (x : Fbk) (sin cos : BitVec 16) :
    pairFast x sin cos = true ↔ x.hasPair = true ∧ 2 ^ 18 ≤ (pairFine x sin cos - x.rawFine).toNat ∧
      2 ^ 20 - (pairFine x sin cos - x.rawFine).toNat ≥ 2 ^ 18 := by
  simp only [pairFast, Bool.and_eq_true, quarterApart_iff]

/-! ### The result of a pair -/

section
variable (c : Fin 40) (sin cos : BitVec 16) (s : State)

@[simp] theorem sincosPair_waits : (sincosPair c sin cos s).rat.waits = s.rat.waits := by
  unfold sincosPair
  dsimp only
  split <;> simp

variable {c sin cos s}

/-- A pair in error sets the sticky bits of its errors and touches validity; fine, the period counter and the count
stay (R302). -/
theorem sincosPair_of_error (h : (pairAmp (vget s.fbk c) sin cos || pairFast (vget s.fbk c) sin cos) = true) :
    ∃ good since fault, vget (sincosPair c sin cos s).fbk c =
      { vget s.fbk c with
        a2 := pairA2 (vget s.fbk c) sin cos, rawFine := pairFine (vget s.fbk c) sin cos, hasPair := true,
        amp := (vget s.fbk c).amp || pairAmp (vget s.fbk c) sin cos,
        ospeed := (vget s.fbk c).ospeed || pairFast (vget s.fbk c) sin cos,
        goodRun := 0, good := good, badSince := since, badFault := fault } := by
  unfold sincosPair
  simp only [pairAmp, pairFast] at h ⊢
  simp only [if_pos h, becomeBad_channel, modFbk_fbk, vget_vmod_same]
  split
  · exact ⟨_, _, _, rfl⟩
  · exact ⟨_, _, _, rfl⟩
/-- A pair without an error moves the position (R301) and leaves both error bits. -/
theorem sincosPair_of_no_error (h : ¬ (pairAmp (vget s.fbk c) sin cos || pairFast (vget s.fbk c) sin cos) = true) :
    ∃ fine periods count run good, vget (sincosPair c sin cos s).fbk c =
      { vget s.fbk c with
        a2 := pairA2 (vget s.fbk c) sin cos, rawFine := pairFine (vget s.fbk c) sin cos, hasPair := true,
        fine := fine, periods := periods, count := count, goodRun := run, good := good } := by
  unfold sincosPair
  simp only [pairAmp, pairFast] at h ⊢
  simp only [if_neg h, updateCmps_fbk, modFbk_fbk, vget_vmod_same]
  exact ⟨_, _, _, _, _, rfl⟩

/-- No access of a pair's result is ever held: where the pair is due, it enters and the command ends settled. -/
theorem exec_sincosPair (hworks : fbkWorks s c = true) (hmode : (vget s.fbk c).mode = 4)
    (hdue : s.time.it.toNat % 800 = 0) :
    exec (.sincosPair c sin cos) s = .next (settle (sincosPair c sin cos s)) := by
  show doneIf _ s (sincosPair c sin cos) = _
  rw [doneIf, if_pos (by simp [hworks, hmode, hdue]), doneFrom_free (sincosPair_waits c sin cos s)]
end

/-- Settles O51: the channel after the command is that of `sincosPair_of_error` or of `sincosPair_of_no_error`. -/
theorem sincosPairErrors : Obligations.SincosPairErrors := by
  intro s c sin cos hworks hmode hdue
  refine ⟨_, exec_sincosPair hworks hmode hdue, ?_⟩
  simp only [settle_fbk, ← pairAmp_iff, ← pairFast_iff]
  by_cases h : (pairAmp (vget s.fbk c) sin cos || pairFast (vget s.fbk c) sin cos) = true
  · obtain ⟨_, _, _, after⟩ := sincosPair_of_error h
    simp +contextual [after]
  · obtain ⟨_, _, _, _, _, after⟩ := sincosPair_of_no_error h
    obtain ⟨hamp, hfast⟩ : pairAmp (vget s.fbk c) sin cos = false ∧ pairFast (vget s.fbk c) sin cos = false := by
      simpa using h
    simp [after, hamp, hfast]

end Sys2Proof.Machine
end

section
/-! SUPPORT. Cancelling a CAN frame (R327): the three answers of a cancel, and how an attempt in progress ends after it. -/
namespace Sys2Proof.Machine

/-! ### An object completes (R328) -/

/-- A transmit object with its new result (R328). -/
def MsgObj.completed (m : MsgObj) (res : BitVec 3) : MsgObj :=
  { m with pend := false, txres := res, tag := m.tag.bump, ts := m.att.getD m.ts, att := none }

@[simp] theorem moIrq_can (k : Fin 4) (j : Fin 64) (s : State) : (moIrq k j s).can = s.can := by
  unfold moIrq; dsimp only; split <;> simp
@[simp] theorem moIrq_rat (k : Fin 4) (j : Fin 64) (s : State) : (moIrq k j s).rat = s.rat := by
  unfold moIrq; dsimp only; split <;> simp
/-- A completion changes its object alone. -/
@[simp] theorem txDone_can (k : Fin 4) (j : Fin 64) (res : BitVec 3) (s : State) :
    (txDone k j res s).can = vmod s.can k fun c => { c with mo := vmod c.mo j (·.completed res) } := moIrq_can _ _ _
@[simp] theorem txDone_rat (k : Fin 4) (j : Fin 64) (res : BitVec 3) (s : State) : (txDone k j res s).rat = s.rat :=
  moIrq_rat _ _ _

/-! ### A change of error state leaves the objects that do not wait -/

/-- A change of error state changes the controller's state alone, and no access of it is held. -/
@[simp] theorem canTo_controller (k : Fin 4) (new : CanState) (s : State) :
    vget (canTo k new s).can k = { vget s.can k with st := new } := by
  unfold canTo
  dsimp only
  split
  · rename_i h; rw [← h]
  · simp
@[simp] theorem canTo_waits (k : Fin 4) (new : CanState) (s : State) : (canTo k new s).rat.waits = s.rat.waits := by
  unfold canTo; dsimp only; split <;> simp

/-- The completions of bus-off: each pending object in turn. -/
def busOffSweep (k : Fin 4) (js : List (Fin 64)) (s : State) : State :=
  js.foldl (fun s j => if (vget (vget s.can k).mo j).pend then txDone k j 2 s else s) s

@[simp] theorem busOffSweep_loop (k : Fin 4) (js : List (Fin 64)) (s : State) :
    (vget (busOffSweep k js s).can k).loop = (vget s.can k).loop :=
  foldl_keep (fun s => (vget s.can k).loop) _ (by intros; split <;> simp) _ _
@[simp] theorem busOffSweep_rat (k : Fin 4) (js : List (Fin 64)) (s : State) : (busOffSweep k js s).rat = s.rat :=
  foldl_keep (·.rat) _ (by intros; split <;> simp) _ _
theorem busOffSweep_object {k : Fin 4} {j : Fin 64} (js : List (Fin 64)) {s : State}
    (h : (vget (vget s.can k).mo j).pend = false) :
    vget (vget (busOffSweep k js s).can k).mo j = vget (vget s.can k).mo j := by
  induction js generalizing s with
  | nil => rfl
  | cons i js ih =>
    simp only [busOffSweep, List.foldl_cons] at ih ⊢
    split
    · rename_i hi
      have hne : j ≠ i := by rintro rfl; simp [h] at hi
      have same : vget (vget (txDone k i 2 s).can k).mo j = vget (vget s.can k).mo j := by simp [hne]
      rw [ih (by rwa [same]), same]
    · exact ih h

theorem busOff_eq (k : Fin 4) (s : State) : busOff k s =
    let t := busOffSweep k (List.finRange 64) (canTo k .busOff (s.modCan k fun c => { c with tx := none }))
    if (vget t.can k).autorec then canTo k .integrating (t.modCan k fun c => { c with recovering := true }) else t := rfl
@[simp] theorem busOff_loop (k : Fin 4) (s : State) : (vget (busOff k s).can k).loop = (vget s.can k).loop := by
  rw [busOff_eq]; dsimp only; split <;> simp
@[simp] theorem busOff_waits (k : Fin 4) (s : State) : (busOff k s).rat.waits = s.rat.waits := by
  rw [busOff_eq]; dsimp only; split <;> simp
theorem busOff_object {k : Fin 4} {j : Fin 64} {s : State} (h : (vget (vget s.can k).mo j).pend = false) :
    vget (vget (busOff k s).can k).mo j = vget (vget s.can k).mo j := by
  have sweep := busOffSweep_object (List.finRange 64)
    (s := canTo k .busOff (s.modCan k fun c => { c with tx := none })) (k := k) (j := j) (by simpa using h)
  rw [busOff_eq]; dsimp only; split <;> simp [sweep]

@[simp] theorem canState_loop (k : Fin 4) (s : State) : (vget (canState k s).can k).loop = (vget s.can k).loop := by
  unfold canState; dsimp only; split <;> simp
@[simp] theorem canState_waits (k : Fin 4) (s : State) : (canState k s).rat.waits = s.rat.waits := by
  unfold canState; dsimp only; split <;> simp
/-- The error state that the counters give, bus-off included, leaves an object that does not wait as it is. -/
theorem canState_object {k : Fin 4} {j : Fin 64} {s : State} (h : (vget (vget s.can k).mo j).pend = false) :
    vget (vget (canState k s).can k).mo j = vget (vget s.can k).mo j := by
  unfold canState
  dsimp only
  split
  · exact busOff_object h
  · simp

/-! ### How an attempt ends outside loopback -/

section
variable {k : Fin 4} {j : Fin 64} {sof : BitVec 32} {delay : BitVec 8} {s : State}

@[simp] theorem tdcMeasure_rat (m : MsgObj) : (tdcMeasure k m delay s).rat = s.rat := rfl
/-- The measured delay is all that a measurement changes of the controller (R321). -/
theorem tdcMeasure_controller (m : MsgObj) :
    ∃ v, vget (tdcMeasure k m delay s).can k = { vget s.can k with tdcv := v } := by
  unfold tdcMeasure
  rw [modCan_can, vget_vmod_same]
  split
  · exact ⟨_, rfl⟩
  · exact ⟨_, rfl⟩
@[simp] theorem tdcMeasure_loop (m : MsgObj) : (vget (tdcMeasure k m delay s).can k).loop = (vget s.can k).loop := by
  obtain ⟨v, e⟩ := tdcMeasure_controller (k := k) (delay := delay) (s := s) m
  rw [e]
@[simp] theorem tdcMeasure_mo (m : MsgObj) : (vget (tdcMeasure k m delay s).can k).mo = (vget s.can k).mo := by
  obtain ⟨v, e⟩ := tdcMeasure_controller (k := k) (delay := delay) (s := s) m
  rw [e]

/-- The controller after a frame sent, before the error state that its counters give. -/
def sentFrame (k : Fin 4) (j : Fin 64) (delay : BitVec 8) (s : State) : State :=
  txDone k j 0 ((tdcMeasure k (vget (vget s.can k).mo j) delay s).modCan k fun c =>
    { c with tx := none, tec := if c.tec = 0 then 0 else c.tec - 1 })
theorem frameSent_of_no_loop (h : (vget s.can k).loop = false) :
    frameSent k j sof delay s = canState k (sentFrame k j delay s) := by
  have hloop : (vget (canState k (sentFrame k j delay s)).can k).loop = false := by simp [sentFrame, h]
  unfold frameSent
  exact if_neg (ne_true_of_eq_false hloop)
theorem frameSent_waits (h : (vget s.can k).loop = false) :
    (frameSent k j sof delay s).rat.waits = s.rat.waits := by
  rw [frameSent_of_no_loop h]; simp [sentFrame]
/-- A frame that is sent completes its object with SENT, even where an error counter then leads to bus-off (R328). -/
theorem frameSent_object (h : (vget s.can k).loop = false) :
    vget (vget (frameSent k j sof delay s).can k).mo j = (vget (vget s.can k).mo j).completed 0 := by
  have sent : vget (vget (sentFrame k j delay s).can k).mo j = (vget (vget s.can k).mo j).completed 0 := by
    simp [sentFrame]
  rw [frameSent_of_no_loop h, canState_object (by rw [sent]; rfl), sent]

/-- Arbitration lost without ONESHOT ends the attempt, and its object still waits (R326). -/
theorem exec_arbitrationLost (hbus : canOnBus s k = true) (hloop : (vget s.can k).loop = false)
    (htx : (vget s.can k).tx = some (j, sof)) (hshot : (vget (vget s.can k).mo j).oneshot = false) :
    ∃ u, exec (.arbitrationLost k) s = .next u ∧ (vget u.can k).mo = (vget s.can k).mo ∧ (vget u.can k).tx = none := by
  have fails : attemptFails k j (s.modCan k fun c => { c with arblost := satInc c.arblost }) =
      (s.modCan k fun c => { c with arblost := satInc c.arblost }).modCan k fun c => { c with tx := none } := by
    simp [attemptFails, hshot]
  refine ⟨settle (attemptFails k j (s.modCan k fun c => { c with arblost := satInc c.arblost })), ?_, ?_, ?_⟩
  · show execArbitrationLost k s = _
    simp only [execArbitrationLost, htx, hbus, hloop, doneIf, Bool.not_false, Bool.and_self, if_true]
    exact doneFrom_free (by simp [fails])
  · simp [fails]
  · simp [fails]
/-- A frame sent outside loopback ends its command settled, whatever is under reload. -/
theorem exec_frameSent (hbus : canOnBus s k = true) (hloop : (vget s.can k).loop = false)
    (htx : (vget s.can k).tx = some (j, sof))
    (hdelay : tdcRuns (vget s.can k) (vget (vget s.can k).mo j) = true → delay ≤ tdcMax) :
    exec (.frameSent k delay) s = .next (settle (frameSent k j sof delay s)) := by
  have fits : (canOnBus s k &&
      (!tdcRuns (vget s.can k) (vget (vget s.can k).mo j) || decide (delay ≤ tdcMax))) = true := by
    simpa [hbus, imp_iff_not_or] using hdelay
  show execFrameSent k delay s = _
  simp only [execFrameSent, htx, doneIf, fits, if_true]
  exact doneFrom_free (frameSent_waits hloop)

/-! ### The three answers of a cancel (R327) -/

theorem cancelTx_of_idle (h : (vget (vget s.can k).mo j).pend = false) : cancelTx k j s = canIgn k s := by
  simp [cancelTx, h]
theorem cancelTx_of_attempt (h : (vget (vget s.can k).mo j).pend = true) (htx : (vget s.can k).tx = some (j, sof)) :
    cancelTx k j s = s.modCan k fun c => { c with canref := satInc c.canref } := by
  simp [cancelTx, h, htx]
theorem cancelTx_of_no_attempt (h : (vget (vget s.can k).mo j).pend = true)
    (htx : ∀ sof, (vget s.can k).tx ≠ some (j, sof)) :
    cancelTx k j s = txDone k j 1 s := by
  have other : ((vget s.can k).tx.any fun t => t.1 = j) = false := by
    cases ha : (vget s.can k).tx with
    | none => rfl
    | some t => exact decide_eq_false fun e => htx t.2 (by rw [ha, ← e])
  simp [cancelTx, h, other]

theorem regWriteAt_of_admits {w : Master} {a : Nat} (h : Admits w a s) (eff : State → State) :
    regWriteAt w a eff s = eff s := by
  obtain ⟨runs, page, fence⟩ := h
  simp [regWriteAt, runs, page, fence]
theorem exec_cancel {w : Master} (h : Admits w (moBase k j + 0x1C) s) :
    exec (.cancel w k j) s = .next (settle (cancelTx k j s)) := by
  show done (regWriteAt w (moBase k j + 0x1C) (cancelTx k j) s) = _
  rw [regWriteAt_of_admits h, done]

/-- The state after a refused cancel: the count of it alone (R327). -/
def refusedCancel (k : Fin 4) (s : State) : State := settle (s.modCan k fun c => { c with canref := satInc c.canref })
@[simp] theorem refusedCancel_controller :
    vget (refusedCancel k s).can k = { vget s.can k with canref := satInc (vget s.can k).canref } := by
  simp [refusedCancel]
@[simp] theorem refusedCancel_canOnBus : canOnBus (refusedCancel k s) k = canOnBus s k := by
  simp [refusedCancel, canOnBus, canWorks, isFenced, resetting, partOf]
end

/-- Settles O54: a cancel takes one of the three branches of `cancelTx`; after a refused one the attempt ends as
`exec_arbitrationLost` and `exec_frameSent` say, in a controller that differs in CANREF alone. -/
theorem cancelPendingFrame : Obligations.CancelPendingFrame := by
  intro s w k j hadmits c m
  have cancelled := exec_cancel hadmits
  refine ⟨fun hpend hnone => ?_, fun sof hpend htx => ?_, fun hidle => ?_⟩
  · rw [cancelTx_of_no_attempt hpend hnone] at cancelled
    exact ⟨_, cancelled, by simp [MsgObj.completed], by simp [MsgObj.completed], by simp [MsgObj.completed, m, c],
      fun i hi => by simp [hi, c], by simp [c]⟩
  · rw [cancelTx_of_attempt hpend htx] at cancelled
    have tx : (vget (refusedCancel k s).can k).tx = some (j, sof) := by simpa using htx
    have loop (h : c.loop = false) : (vget (refusedCancel k s).can k).loop = false := by simpa using h
    have onBus (h : canOnBus s k = true) : canOnBus (refusedCancel k s) k = true := by simpa using h
    refine ⟨refusedCancel k s, cancelled, rfl, fun hbus hloop hshot => ?_, fun hbus hloop delay hdelay => ?_⟩
    · obtain ⟨u, lost, objects, ended⟩ := exec_arbitrationLost (onBus hbus) (loop hloop) tx (by simpa using hshot)
      exact ⟨u, lost, by simpa [objects] using hpend, ended⟩
    · refine ⟨_, exec_frameSent (onBus hbus) (loop hloop) tx (by simpa [tdcRuns] using hdelay), ?_, ?_⟩
      · simp [frameSent_object (loop hloop), MsgObj.completed]
      · simp [frameSent_object (loop hloop), MsgObj.completed]
  · rw [cancelTx_of_idle hidle] at cancelled
    exact cancelled

end Sys2Proof.Machine
end

section
/-! SUPPORT. How every command ends: with its effect, settled, or with a state whose interrupt sources stand as they did
(R107; log 23). -/
set_option Elab.async false
namespace Sys2Proof.Machine

/-- A command whose event comes about and whose accesses no reload holds ends with its effect, settled. -/
theorem doneIf_free {c : Bool} {s : State} {f : State → State} (h : c = true)
    (hwaits : (f s).rat.waits = s.rat.waits) : doneIf c s f = .next (settle (f s)) := by
  rw [doneIf, if_pos h, doneFrom_free hwaits]

/-- The wired sources stand at the same levels, and the APLIC has seen the same of them. -/
def SameSources (s t : State) : Prop := levels t = levels s ∧ t.srcLevel = s.srcLevel

/-- The two ways in which a command given in state `s` ends. -/
inductive Ends (s : State) : Host.Outcome State Fault Refusal → Prop
  | settled (t : State) : Ends s (.next (settle t))
  | same {t : State} (h : SameSources s t) : Ends s (.next t)

namespace Ends
variable {s : State}

/-! ### The forms that commands share -/

@[simp] theorem self : Ends s (.next s) := .same ⟨rfl, rfl⟩
@[simp] theorem done (t : State) : Ends s (done t) := .settled t
@[simp] theorem doneFrom (t : State) : Ends s (doneFrom s t) := by
  obtain h | h := doneFrom_cases s t <;> rw [h]
  · exact .settled t
  · exact .self
@[simp] theorem doneIf (c : Bool) (f : State → State) : Ends s (doneIf c s f) := by
  obtain h | h := doneIf_cases c s f <;> rw [h]
  · exact .settled _
  · exact .self
@[simp] theorem reply (r : Reply) : Ends s (.next (reply r s)) := .same ⟨rfl, rfl⟩
@[simp] theorem refuse (word : String) (args : List Nat) (reason : String) (fields : Fields) :
    Ends s (.next (refuse word args reason fields s)) := .reply _
@[simp] theorem query (word : String) (args : List Nat) (g : Gate) (own : Reason) (fields : Fields) :
    Ends s (query word args g own fields s) := by
  unfold Machine.query
  repeat' split
  · exact .self
  · exact .refuse _ _ _ _
  · exact .refuse _ _ _ _
  · exact .reply _
@[simp] theorem queryIx (word : String) (m n : Nat) (power : Fin m → Bool) (own : Fin m → Reason)
    (fields : Fin m → Fields) : Ends s (queryIx word m n power own fields s) := by
  unfold Machine.queryIx
  split <;> exact .query _ _ _ _ _
@[simp] theorem action (word : String) (args : List Nat) (g : Gate) (own : Reason) (eff : State → State) :
    Ends s (action word args g own eff s) := by
  unfold Machine.action
  repeat' split
  · exact .self
  · exact .refuse _ _ _ _
  · exact .refuse _ _ _ _
  · exact .done _
@[simp] theorem actionIx (word : String) (m n : Nat) (args : List Nat) (g : Fin m → Gate) (own : Fin m → Reason)
    (eff : Fin m → State → State) : Ends s (actionIx word m n args g own eff s) := by
  unfold Machine.actionIx
  split <;> exact .action _ _ _ _ _
@[simp] theorem consoleAxis (word : String) (op : BitVec 3) (n : Nat) (rivals : List Rival) :
    Ends s (consoleAxis word op n rivals s) := by
  unfold Machine.consoleAxis
  repeat' split
  · exact .self
  · exact .refuse _ _ _ _
  · exact .done _
  · exact .query _ _ _ _ _
@[simp] theorem consoleRst (word : String) (lock : Bool) (f : Fid) (act : BitVec 2) :
    Ends s (consoleRst word lock f act s) := by
  unfold Machine.consoleRst
  simp only
  split
  · exact .self
  · split
    · exact .refuse _ _ _ _
    · exact .done _
/-- SDI draws its density as a free value, which no source shows. -/
@[simp] theorem sdi (n : Nat) : Ends s (execSdi n s) := by
  unfold execSdi
  simp only
  split
  · split
    · unfold Machine.query
      repeat' split
      all_goals exact .same ⟨rfl, rfl⟩
    · exact .query _ _ _ _ _
  · exact .query _ _ _ _ _
@[simp] theorem orderArrives (o : Rival) (off : Nat) (rivals : List Rival) : Ends s (orderArrives o off rivals s) := by
  unfold Machine.orderArrives
  simp only
  repeat' split
  all_goals simp
@[simp] theorem opRow (n : Fin 64) (opid : Nat) (body : OpJob → OpCtx → OpDesc → State → State) :
    Ends s (opRow n opid body s) := by
  unfold Machine.opRow
  split <;> simp
@[simp] theorem peatRow (k : Fin 8) (j : Fin 32) (opc : BitVec 8) (eff : PeatRun → State → BitVec 8 × State) :
    Ends s (peatRow k j opc eff s) := by
  unfold Machine.peatRow
  split <;> simp
@[simp] theorem trdRow (e : Fin 8) (op : Nat) (body : Bool → BitVec 32 → State → State) :
    Ends s (trdRow e op body s) := by
  unfold Machine.trdRow
  simp only
  repeat' split
  all_goals simp
@[simp] theorem rowA (e : Fin 8) (op : Nat) (f : FmtA → Bank → Bank) : Ends s (rowA e op f s) := .trdRow _ _ _
@[simp] theorem rowB (e : Fin 8) (op mask : Nat) (f : State → Bool → BitVec 32 → Bank → BOut) :
    Ends s (rowB e op mask f s) := .trdRow _ _ _
end Ends

/-- Every command, in every state, ends in one of the two ways. -/
theorem exec_ends (c : Instr) (s : State) : Ends s (exec c s) := by
  cases c
  all_goals dsimp only [exec]
  case sysResetN | elvStartGo | sysOffN | elvPdnGo | elvPdnAck | wrpReloadGo | wrpStoreGo | queueEnable | queueDisable
    | sqDoorbell | cqHeadWrite | spmodeWrite | loomInval | peatTake | peatRelease | peatModeWrite | segmentPush |
    segmentFlush | hstopAssert | trdStart | trdStop | trdResume | bankRegisterWrite | xmYmWrite | txreq | cancel |
    recover | moConfigWrite | dspCommitGo | sigackClear | hpdRise | reopen | rstReset | rstRelease | frzLocal |
    frzInstall | tapReset | hstopDeassert => exact .done _
  case registerWrite | vaonGood | vaonLoss | seqRailGood | seqGroupDelay | railEnableTimeout | railFailure |
    disorderlyDropDelay | pllLocked | pllLockTimeout | planVerifyDone | memoryTrainingDone | bistDone | planApplyDone
    | graceExpiry | railDecayed | refclkLoss | refclkReturn | loadStore | amoLrSc | fence | fenceI | pause | cboClean
    | cboFlush | cboInval | vectorLoadStore | vectorArithmetic | faultOnlyFirstLoad | clwMtimecmpAccess | timeCsrRead
    | machineTimer | supervisorTimer | counterOverflow | msiWrite | aplicWrite | patrolScrub | inboundPcieAccess |
    pcieLinkDown | nop | watchdog | laneTick | timeFrameTx | timeFrameRx | dataFrameRx | nak | hello | linkDown |
    ackStallTimeout | linkRetrain | linkTrained | writeTimeout | openTimeout | hookDeadline | pmCmWrite |
    fbkLevelAccepted | sincosPair | ssiFrameStart | ssiFrameEnd | fbkObsUpdate | fbkConfigWrite | cmpEnable |
    cmpPulseEnd | captureEdge | canError | busOffRecoveryDone | busIntegrationDone | dpTrainingRetry | currentLoopEval
    | pmbusCalibration | pmbAlert | voutSettled | voltageLower | droop | stretchEnd | thermalEval | budgetEval |
    paceNoticeSend | ageingMeasurement | energyUpdate | faultDetected | dupMismatch | drainTimeout | faultCauseClear |
    resetDone | journalEntry | break_ | lockLapsed | unsolicitedLine | extest | samplePreload | idcode | clamp | highz
    | bypass | fuseSensingDone | railMonitorReport => exact .doneIf _ _
  case eventBufferDrain => exact .doneFrom _
  case state | rails | target | plan | pace | dispSig | dispTest | age | pmbScan | id | keys => exact .query _ _ _ _ _
  case core | queue | pcie | tile | peatQuery | shtTest | lane | opTest | link | peatTest | axis | trd | trdTest | fbk
    | cap | can | powerDomain | fenceQuery | dram | clusterQuery => exact .queryIx _ _ _ _ _ _
  case stop | clearStart | targetSet | freeze | baud | lock | unlock | xferBegin | xferData | xferAbort =>
    exact .action _ _ _ _ _
  case axisTake | axisGive | pwmTest | pwmTestOff | cmpTest | cmpTestOff | mp => exact .actionIx _ _ _ _ _ _ _
  case trdNop | mpy | mac | msu | add | sub | adds | subs | and | or | xor | mov | neg | abs | max2 | min2 | ash | lsh
    | rnd | acc | clr | cmp | mva => exact .rowA _ _ _
  case ldi | ldih | mvr | modi | ldm | jmp | bcc | call | ret | rep | loop | in_ => exact .rowB _ _ _ _
  case stm | out | reth | halt | waitit | maxi | mini | bmac => exact .trdRow _ _ _
  case enable | disable | run | axsStop | axsSpWrite | axsSpdWrite =>
    exact .orderArrives _ _ _
  case opNop | gemm | eltwise | act | reduce | softmax | norm | convert | gather => exact .opRow _ _ _
  case peatNone | peatSetMode | peatZero | optStep | cast => exact .peatRow _ _ _ _
  case axisEnable | axisDisable | axisStop => exact .consoleAxis _ _ _ _
  case reset | release => exact .consoleRst _ _ _ _
  case sdi => exact .sdi _
  all_goals
    simp only [execStartRetry, execInterruptTaken, execPcieLinkUp, execReloadCompareDone, execReloadDone,
      execStoreVerifyDone, execCommandFetch, execStartItReached, execCommandDispatch, execWriteInline,
      execOperator, execShuttle, execPeat, execOpen, execContrib, execClose, execCommandComplete,
      execOperatorStart, execShuttleChainStart, execShuttleDescriptor, execWaitpeatTimeout,
      execFinalWriteRelease, execPeatModeSettled, execPeatOpDone, execLaneAnswer, execLaneDeadline,
      execRemoteWriteRx, execAck, execNack, execCollectivePacketRx, execChannelHello, execStepDeadline,
      execContribComplete, execCheckpointComplete, execFailNotice, execRecoveryResume, execPaceNoticeRx,
      execCurrentTick, execHookStart, execLongInstructionResume, execWaititWake, execCableTimeout,
      execFrameReceived, execFrameSent, execArbitrationLost, execCommitPoint, execLayerFetchError,
      execSignatureResult, execHpdFall, execDpTrainingDone, execFreezeInstant, execFreezeImageWritten,
      execXferCheckDone, execStart, execConsoleNop, execTime, execChan, execCanMo, execCanTest,
      execDisp, execPower, execFault, execFaultClr, execFenceReopen, execStore, execLog, execXferEnd,
      execLineRefused, execPaceNoticeExpiry, execTransmissionAttempt, execUnderflow]
    repeat' split
    all_goals simp only [Ends.self, Ends.done, Ends.doneFrom, Ends.doneIf, Ends.reply, Ends.refuse, Ends.query,
      Ends.action]

/-! ### The sources at the end of a command -/

@[simp] theorem srcHigh_settle (s : State) (n : Nat) : srcHigh (settle s) n = srcHigh s n := by
  simp only [srcHigh, slotHigh, blockHigh, settle_flt, settle_power, settle_rat, settle_peat, settle_trd, settle_fbk,
    settle_cc, settle_can, settle_dsp]
/-- Settling leaves every source at its level: the levels are read from what it does not touch. -/
@[simp] theorem levels_settle (s : State) : levels (settle s) = levels s := by simp only [levels, srcHigh_settle]
/-- A settled state's levels have all been seen. -/
theorem seen_settle (s : State) : Seen (settle s) := (levels_settle s).symm
/-- The passing of 1 TQ moves no source. -/
theorem sameSources_idle (s : State) : SameSources s (idle s) := by
  unfold idle
  simp only
  repeat' split
  all_goals exact ⟨rfl, rfl⟩
theorem SameSources.seen {s t : State} (h : SameSources s t) (hs : Seen s) : Seen t := by
  obtain ⟨hlevels, hseen⟩ := h
  unfold Seen at hs ⊢
  rw [hlevels, hseen, hs]
theorem Ends.seen {s t : State} (h : Ends s (.next t)) (hs : Seen s) : Seen t := by
  cases h with
  | settled u => exact seen_settle u
  | same h => exact h.seen hs
theorem Ends.next {s : State} {o : Host.Outcome State Fault Refusal} (h : Ends s o) : ∃ t, o = .next t := by
  cases h with
  | settled t => exact ⟨_, rfl⟩
  | same _ => exact ⟨_, rfl⟩
/-- Taking a command off the queue moves no source. -/
theorem seen_dequeue {s : State} (rest : List Instr) (h : Seen s) : Seen { s with pending := rest } := h

/-- Settles O4: a step either ends a command, by `exec_ends`, or lets 1 TQ pass. -/
theorem sourcesStaySeen : Obligations.SourcesStaySeen := by
  intro s t hs hstep
  unfold step at hstep
  split at hstep
  · cases hstep
    exact (sameSources_idle s).seen hs
  · next c rest _ =>
    exact (hstep ▸ exec_ends c { s with pending := rest } : Ends _ (.next t)).seen (seen_dequeue rest hs)

/-- Settles O3: whichever way a command ends, it answers a next state. -/
theorem everyCommandAnswered : Obligations.EveryCommandAnswered := fun c s => (exec_ends c s).next

/-- Settles O1. -/
theorem stepRunsFront : Obligations.StepRunsFront := fun _ _ => rfl

end Sys2Proof.Machine
end

section
/-! SUPPORT. The passing of time on an empty queue, the state after reset, and what settling changes. -/
set_option Elab.async false
namespace Sys2Proof.Machine

/-! ### The passing of time (R209, log 2) -/

section
variable (s : State)

@[simp] theorem tickHour_vaon (i : Island) : (tickHour i).vaon = i.vaon := by unfold tickHour; split_ifs <;> rfl
@[simp] theorem tickHour_good (i : Island) : (tickHour i).good = i.good := by unfold tickHour; split_ifs <;> rfl
@[simp] theorem tickHour_count (i : Island) : (tickHour i).count = i.count := by unfold tickHour; split_ifs <;> rfl
/-- The powered hours alone are counted. -/
theorem tickHour_frame (i : Island) :
    tickHour i = { i with hours := (tickHour i).hours, hourTq := (tickHour i).hourTq } := by
  unfold tickHour; split_ifs <;> rfl
theorem tickHour_of_unpowered {i : Island} (h : i.vaon = false) : tickHour i = i := by simp [tickHour, h]
@[simp] theorem vsvoGood_tickHour : vsvoGood (s.modIsland tickHour) = vsvoGood s := by simp [vsvoGood]
/-- While VSVO is good, installation time counts. -/
theorem idle_of_vsvoGood (h : vsvoGood s = true) : ∃ sub tsc, idle s =
    { s with island := tickHour s.island, time := { s.time with it := s.time.it + 1, sub := sub }, tsc := tsc } := by
  refine ⟨(s.time.sub + 1) % 400, if s.time.sub + 1 = 400 then s.tsc + 1 else s.tsc, ?_⟩
  unfold idle
  simp only [vsvoGood_tickHour, h, if_true]
  rfl
/-- Else the island counts by itself, while VAON is good. -/
theorem idle_of_not_vsvoGood (h : vsvoGood s = false) : idle s =
    if s.island.vaon then { s with island := { tickHour s.island with count := s.island.count + 1 } } else s := by
  unfold idle
  simp only [vsvoGood_tickHour, h, Bool.false_eq_true, if_false, modIsland_island, tickHour_vaon]
  split
  · simp [State.modIsland]
  · next hoff => simp [State.modIsland, tickHour_of_unpowered (by simpa using hoff)]
end

/-- Settles O2, by the two ways in which time passes. -/
theorem emptyQueuePassesTime : Obligations.EmptyQueuePassesTime := by
  intro s hempty
  refine ⟨idle s, by simp [step, hempty], ?_⟩
  cases hgood : vsvoGood s with
  | true =>
    have hon : s.island.vaon = true := by simp [vsvoGood] at hgood; exact hgood.1
    obtain ⟨sub, tsc, hidle⟩ := idle_of_vsvoGood s hgood
    rw [hidle]
    have hframe := tickHour_frame s.island
    refine ⟨by simp, by simp, by simp, by simp [hon], rfl, ?_, rfl⟩
    simpa using hframe
  | false =>
    rw [idle_of_not_vsvoGood s hgood]
    have hframe := tickHour_frame s.island
    cases hon : s.island.vaon with
    | true =>
      refine ⟨by simp, by simp, by simp, by simp, rfl, ?_, rfl⟩
      simp only [if_true]
      rw [hframe]
    | false => simp

/-! ### Reset -/

@[simp] theorem vget_vrep {α : Type} {n : Nat} (a : α) (i : Fin n) : vget (vrep n a) i = a := by simp [vget, vrep]
/-- No source is high at reset: no slot has a cause, and no block a condition. -/
theorem srcHigh_reset (n : Nat) : srcHigh State.reset n = false := by
  have hslot (f : Fid) : slotHigh State.reset f = false := by simp [slotHigh, State.reset]
  have hcold : ¬ tjMax ≤ 0 := by unfold tjMax; split <;> decide
  have hblock : blockHigh State.reset n = false := by
    simp [blockHigh, State.reset, hcold]
  rw [srcHigh, hblock]
  cases srcFid n <;> simp [hslot]
theorem levels_reset : levels State.reset = 0 := by
  have hnone (l : List Nat) : l.foldl (fun a n => if srcHigh State.reset n then a + 2 ^ n else a) 0 = 0 := by
    induction l with
    | nil => rfl
    | cons n l ih => simp [srcHigh_reset]
  rw [levels, hnone]
  rfl

/-- Settles O5. -/
theorem resetState : Obligations.ResetState := by
  refine ⟨levels_reset.symm, rfl, reset_memWf, fun n => ?_, fun n => ?_, fun a => ?_, fun e => ?_, fun i => ?_,
    rfl, rfl, rfl⟩
  all_goals simp [State.reset]

/-! ### What settling changes (R107) -/

/-- The same cores but for the identities pending in their interrupt files. -/
def SameButImsic (s t : State) : Prop := ∀ n : Fin 48, ∃ f, vget t.cores n = { vget s.cores n with imsic := f }

theorem SameButImsic.refl (s : State) : SameButImsic s s := fun n => ⟨(vget s.cores n).imsic, rfl⟩
theorem SameButImsic.of_cores {s s' t : State} (h : SameButImsic s' t) (hc : s'.cores = s.cores) : SameButImsic s t := by
  unfold SameButImsic at h ⊢
  rwa [hc] at h
theorem SameButImsic.trans {s t u : State} (h : SameButImsic s t) (k : SameButImsic t u) : SameButImsic s u := by
  intro n
  obtain ⟨f, hf⟩ := h n
  obtain ⟨g, hg⟩ := k n
  exact ⟨g, by rw [hg, hf]⟩
theorem sameButImsic_pendImsic (n : Fin 48) (file : Fin 9) (ident : BitVec 8) (s : State) :
    SameButImsic s (pendImsic n file ident s) := by
  unfold pendImsic
  generalize (decide (ident = 0) || _) = discarded
  cases discarded
  · intro m
    rcases eq_or_ne m n with rfl | hne
    · exact ⟨_, by simp; rfl⟩
    · exact ⟨(vget s.cores m).imsic, by simp [hne]⟩
  · exact .refl s
theorem sameButImsic_sendMsi (hart file : Nat) (ident : BitVec 8) (s : State) :
    SameButImsic s (sendMsi hart file ident s) := by
  unfold sendMsi
  split
  · exact sameButImsic_pendImsic _ _ _ s
  · exact .refl s
theorem sameButImsic_aplicForward (d : Fin 2) (n : Nat) (s : State) : SameButImsic s (aplicForward d n s) := by
  unfold aplicForward
  simp only
  split_ifs
  · exact (sameButImsic_sendMsi _ _ _ _).of_cores rfl
  · exact (sameButImsic_sendMsi _ _ _ _).of_cores rfl
  · exact .refl s
  · exact .refl s
theorem sameButImsic_aplicSense (lv : BitVec 512) (n : Nat) (s : State) : SameButImsic s (aplicSense lv n s) := by
  unfold aplicSense
  split
  · exact .refl s
  · exact (sameButImsic_aplicForward _ _ _).of_cores rfl
theorem sameButImsic_sensing (lv : BitVec 512) (l : List Nat) (s : State) :
    SameButImsic s (l.foldl (fun t n => aplicSense lv n t) s) := by
  induction l generalizing s with
  | nil => exact .refl s
  | cons n l ih =>
    rw [List.foldl_cons]
    exact (sameButImsic_aplicSense lv n s).trans (ih _)
@[simp] theorem settle_cores (s : State) : (settle s).cores = (sensed s).cores := by simp only [settle]
@[simp] theorem settle_aplic (s : State) : (settle s).aplic = (sensed s).aplic := by simp only [settle]
@[simp] theorem settle_srcLevel (s : State) : (settle s).srcLevel = levels s := by simp only [settle]
theorem sameButImsic_settle (s : State) : SameButImsic s (settle s) := by
  unfold SameButImsic
  rw [settle_cores]
  exact sameButImsic_sensing (levels s) listedSources s

/-- Settles O6. -/
theorem settleFrame : Obligations.SettleFrame := by
  refine fun s => ⟨?_, sameButImsic_settle s⟩
  simp only [settle_cores, settle_aplic]
  simp only [settle]

end Sys2Proof.Machine
end

section
/-! SUPPORT. The service console's commands (R397 to R401): what a query and an action answer, and the refusal of a command
that needs the lock. -/
set_option Elab.async false
namespace Sys2Proof.Machine

/-! ### The gate of a command (Table 18.1) -/

theorem gateReason_eq_none {g : Gate} {s : State} (hform : g.form = true) (hrange : g.range = true)
    (hlock : g.lock = true → s.console.locked = true) (hpower : g.power = true) : gateReason g s = none := by
  cases hl : g.lock <;> simp_all [gateReason]
/-- A gate that asks for the lock names a reason while the lock is free: LOCK, or SYNTAX or RANGE before it. -/
theorem gateReason_of_unlocked {g : Gate} {s : State} (hlock : g.lock = true) (hfree : s.console.locked = false) :
    ∃ reason, gateReason g s = some (reason, []) ∧ (reason = "LOCK" ∨ reason = "SYNTAX" ∨ reason = "RANGE") := by
  unfold gateReason
  simp only [hlock, hfree, Bool.not_false, Bool.and_self, if_true]
  split_ifs
  · exact ⟨_, rfl, .inr (.inl rfl)⟩
  · exact ⟨_, rfl, .inr (.inr rfl)⟩
  · exact ⟨_, rfl, .inl rfl⟩

/-! ### Queries -/

section
variable {word : String} {args : List Nat} {g : Gate} {own : Reason} {fields : Fields} {s : State}

theorem query_answers (hon : s.island.vaon = true) (hgate : gateReason g s = none) :
    query word args g none fields s = .next (replyOk word args fields s) := by simp [query, hon, hgate]
theorem query_declines (hon : s.island.vaon = true) {reason : String} (hgate : gateReason g s = some (reason, [])) :
    query word args g own fields s = .next (refuse word args reason [] s) := by simp [query, hon, hgate]
theorem queryIx_eq {m : Nat} (n : Fin m) (power : Fin m → Bool) (own : Fin m → Reason) (fields : Fin m → Fields) :
    queryIx word m n power own fields s = query word [n.val] { power := power n } (own n) (fields n) s := by
  simp [queryIx]
/-- A query of one thing, whose function is powered and which has no reason of its own, answers with its fields. -/
theorem queryIx_answers {m : Nat} {n : Fin m} {power : Fin m → Bool} {own : Fin m → Reason} {fields : Fin m → Fields}
    (hon : s.island.vaon = true) (hpower : power n = true) (hown : own n = none) :
    queryIx word m n power own fields s = .next (replyOk word [n.val] (fields n) s) := by
  rw [queryIx_eq, hown]
  exact query_answers hon (gateReason_eq_none rfl rfl (by simp) hpower)

/-! ### Actions -/

variable {eff : State → State}

theorem action_performs (hon : s.island.vaon = true) (hgate : gateReason g s = none) :
    action word args g none eff s = .next (settle (replyOk word args [] (eff s))) := by
  simp [action, hon, hgate, done]
theorem action_declines (hon : s.island.vaon = true) {reason : String} (hgate : gateReason g s = some (reason, [])) :
    action word args g own eff s = .next (refuse word args reason [] s) := by simp [action, hon, hgate]
theorem action_own_reason (hon : s.island.vaon = true) (hgate : gateReason g s = none) {reason : String} :
    action word args g (some (reason, [])) eff s = .next (refuse word args reason [] s) := by
  simp [action, hon, hgate]
theorem actionIx_eq {m : Nat} (n : Fin m) (g : Fin m → Gate) (own : Fin m → Reason) (eff : Fin m → State → State) :
    actionIx word m n args g own eff s = action word (n.val :: args) (g n) (own n) (eff n) s := by simp [actionIx]
end

/-! ### A query's frame (R8, R400) -/

/-- A command that changes nothing but the console's reply and the time of its last good line. -/
def OnlyReplies (s : State) (o : Host.Outcome State Fault Refusal) : Prop :=
  ∃ (r : Option Reply) (l : Nat), o = .next { s with console := { s.console with reply := r, lineAt := l } }

namespace OnlyReplies
variable {s : State}
theorem query (word : String) (args : List Nat) (g : Gate) (own : Reason) (fields : Fields) :
    OnlyReplies s (query word args g own fields s) := by
  unfold Machine.query
  repeat' split
  all_goals exact ⟨_, _, rfl⟩
theorem queryIx (word : String) (m n : Nat) (power : Fin m → Bool) (own : Fin m → Reason) (fields : Fin m → Fields) :
    OnlyReplies s (queryIx word m n power own fields s) := by
  unfold Machine.queryIx
  split <;> exact query _ _ _ _ _
end OnlyReplies

theorem exec_onlyReplies_of_isQuery {c : Instr} (s : State) (h : isQuery c = true) : OnlyReplies s (exec c s) := by
  cases c
  all_goals dsimp only [exec]
  case state | rails | target | plan | id | keys | age | pmbScan | pace | dispSig => exact .query _ _ _ _ _
  case store | power | time | disp | fault =>
    dsimp only [execStore, execPower, execTime, execDisp, execFault]
    exact .query _ _ _ _ _
  case dram | clusterQuery | powerDomain | core | queue | pcie | tile | peatQuery | lane | link | axis | trd | fbk | cap
    | can | fenceQuery => exact .queryIx _ _ _ _ _ _
  case log n =>
    unfold execLog
    split <;> exact .query _ _ _ _ _
  case chan d k =>
    unfold execChan
    split <;> exact .query _ _ _ _ _
  case canMo k j =>
    unfold execCanMo
    split <;> exact .query _ _ _ _ _
  all_goals exact absurd h Bool.false_ne_true

/-! ### A command marked L while the lock is free (R399, R400) -/

/-- The line is refused for want of the lock, or for its form or range, and nothing but the reply changes. -/
def RefusedUnlocked (s : State) (o : Host.Outcome State Fault Refusal) : Prop :=
  ∃ word args reason, o = .next (refuse word args reason [] s) ∧ (reason = "LOCK" ∨ reason = "SYNTAX" ∨ reason = "RANGE")

namespace RefusedUnlocked
section
variable {s : State} (hon : s.island.vaon = true) (hfree : s.console.locked = false)
include hon
theorem range (word : String) (args : List Nat) :
    RefusedUnlocked s (query word args { range := false } none [] s) :=
  ⟨word, args, "RANGE", query_declines hon rfl, .inr (.inr rfl)⟩
include hfree
theorem query (word : String) (args : List Nat) (g : Gate) (hlock : g.lock = true) (own : Reason) (fields : Fields) :
    RefusedUnlocked s (query word args g own fields s) := by
  obtain ⟨reason, hgate, hreason⟩ := gateReason_of_unlocked hlock hfree
  exact ⟨word, args, reason, query_declines hon hgate, hreason⟩
theorem action (word : String) (args : List Nat) (g : Gate) (hlock : g.lock = true) (own : Reason)
    (eff : State → State) : RefusedUnlocked s (action word args g own eff s) := by
  obtain ⟨reason, hgate, hreason⟩ := gateReason_of_unlocked hlock hfree
  exact ⟨word, args, reason, action_declines hon hgate, hreason⟩
theorem actionIx (word : String) (m n : Nat) (args : List Nat) (g : Fin m → Gate) (hlock : ∀ i, (g i).lock = true)
    (own : Fin m → Reason) (eff : Fin m → State → State) :
    RefusedUnlocked s (actionIx word m n args g own eff s) := by
  unfold Machine.actionIx
  split
  · exact action hon hfree _ _ _ (hlock _) _ _
  · exact ⟨word, n :: args, "RANGE", action_declines hon rfl, .inr (.inr rfl)⟩
theorem consoleAxis (word : String) (op : BitVec 3) (n : Nat) (rivals : List Rival) :
    RefusedUnlocked s (consoleAxis word op n rivals s) := by
  obtain ⟨reason, hgate, hreason⟩ := gateReason_of_unlocked (g := axisArgs s) rfl hfree
  unfold Machine.consoleAxis
  split
  · exact ⟨word, [n], reason, by simp [hon, hgate], hreason⟩
  · exact range hon _ _
theorem release (f : Fid) : RefusedUnlocked s (execRelease f s) := by
  obtain ⟨reason, hgate, hreason⟩ := gateReason_of_unlocked
    (g := { lock := true, power := servoUp s && (!fidOk f || powered s f) }) rfl hfree
  exact ⟨"RELEASE", [f.toNat], reason, by simp [execRelease, consoleRst, hon, hgate], hreason⟩
theorem faultClr (f : Fid) (mask : BitVec 12) : RefusedUnlocked s (execFaultClr f mask s) := by
  obtain ⟨reason, hgate, hreason⟩ := gateReason_of_unlocked
    (g := { range := fidOk f, lock := true, power := servoUp s }) rfl hfree
  exact ⟨"FAULTCLR", [f.toNat, mask.toNat], reason, by simp [execFaultClr, hon, hgate], hreason⟩
theorem fenceReopen (p : Nat) : RefusedUnlocked s (execFenceReopen p s) := by
  obtain ⟨reason, hgate, hreason⟩ := gateReason_of_unlocked (g := { lock := true, power := servoUp s }) rfl hfree
  unfold execFenceReopen
  split
  · exact ⟨"FENCE REOPEN", [p], reason, by simp [hon, hgate], hreason⟩
  · exact range hon _ _
theorem canTest (k : Nat) : RefusedUnlocked s (execCanTest k s) := by
  unfold execCanTest
  split
  · exact query hon hfree _ _ _ rfl _ _
  · exact range hon _ _
/-- END is counted as ignored under the lock alone. -/
theorem xferEnd : RefusedUnlocked s (execXferEnd s) := by
  have hcounted : endIgnored s = false := by simp [endIgnored, hfree]
  unfold execXferEnd
  rw [hcounted]
  exact action hon hfree _ _ _ rfl _ _
end
end RefusedUnlocked

theorem exec_refusedUnlocked {c : Instr} {s : State} (h : needsLock c = true) (hon : s.island.vaon = true)
    (hfree : s.console.locked = false) : RefusedUnlocked s (exec c s) := by
  cases c
  all_goals dsimp only [exec]
  case clearStart | targetSet | xferBegin | xferData | xferAbort => exact .action hon hfree _ _ _ rfl _ _
  case axisTake | axisGive | pwmTest | pwmTestOff | cmpTest | cmpTestOff =>
    exact .actionIx hon hfree _ _ _ _ _ (fun _ => rfl) _ _
  case axisEnable | axisDisable | axisStop => exact .consoleAxis hon hfree _ _ _ _
  case dispTest => exact .query hon hfree _ _ _ rfl _ _
  case canTest k => exact .canTest hon hfree k
  case release f => exact .release hon hfree f
  case faultClr f mask => exact .faultClr hon hfree f mask
  case fenceReopen p => exact .fenceReopen hon hfree p
  case xferEnd => exact .xferEnd hon hfree
  all_goals exact absurd h Bool.false_ne_true

/-- Settles O7. -/
theorem queriesAndRefusalsFrame : Obligations.QueriesAndRefusalsFrame :=
  ⟨fun _ s h => exec_onlyReplies_of_isQuery s h, fun _ _ h hon hfree => exec_refusedUnlocked h hon hfree⟩

end Sys2Proof.Machine
end

section
/-! SUPPORT. What the console's queries and self tests answer (R393, R400; log 12, 69). -/
set_option Elab.async false
namespace Sys2Proof.Machine

section
variable {s : State} (hon : s.island.vaon = true)
include hon

/-! ### The island -/

theorem answers_store : ∃ fs, Answers .store "STORE" [] (("RECOV", s.store.recov.toNat) :: fs) s ∧
    ("LOG", s.store.logSeq.toNat) ∈ fs := by
  simp only [Answers, exec, execStore]
  exact ⟨_, query_answers hon rfl, by simp⟩
theorem answers_log {n : Nat} {e : LogEntry} (h : s.store.log[n]? = some e) :
    Answers (.log n) "LOG" [n] [("LSEQ", e.lseq.toNat), ("KIND", e.kind.toNat), ("FID", e.fid.toNat),
      ("CLASS", e.cls.toNat), ("CAUSE", e.cause.toNat), ("HOURS", e.hours.toNat)] s := by
  simp only [Answers, exec, execLog, h]
  exact query_answers hon rfl
theorem answers_age : ∃ fs, Answers .age "AGE" [] fs s ∧ ("HOURS", s.island.hours.toNat) ∈ fs ∧
    ("TRIM", (vget s.power.dom 0).trim.toNat) ∈ fs := by
  simp only [Answers, exec, execAge]
  refine ⟨_, query_answers hon rfl, by simp, List.mem_append_left _ (List.mem_map.2 ⟨_, ?_, rfl⟩)⟩
  simp [vget]
/-- The first regulator's answer comes first. -/
theorem answers_pmbScan (a : Vector PmbAnswer 14) :
    ∃ fs, Answers (.pmbScan a) "PMBSCAN" [] (("40", pmbCode (vget a 0)) :: fs) s := by
  have hfirst : a.toList = vget a 0 :: a.toList.tail := by
    rcases a with ⟨⟨l⟩, hl⟩
    cases l with
    | nil => simp at hl
    | cons x l => rfl
  simp only [Answers, exec, execPmbScan]
  rw [hfirst, List.map_cons, List.zip_cons_cons]
  exact ⟨_, query_answers hon rfl⟩

end

/-- Settles O8. -/
theorem islandQueriesAnswer : Obligations.IslandQueriesAnswer := by
  intro s hon
  have hgate : gateReason {} s = none := rfl
  refine ⟨?_, ?_, ?_, ?_, ?_, ?_, answers_store hon, fun n e h => ?_, ?_, answers_age hon, answers_pmbScan hon⟩
  case refine_7 => exact ⟨_, answers_log hon h, by simp, by simp, by simp⟩
  all_goals
    simp only [Answers, exec, execState, execRails, execTarget, execPlan, execId, execKeys, execPower]
    exact query_answers hon hgate

/-! ### Powered functions -/

/-- Settles O9. -/
theorem functionQueriesAnswer : Obligations.FunctionQueriesAnswer := by
  intro s hon
  simp only [Answers, exec]
  refine ⟨fun c h => ?_, fun d h => ?_, fun d h => queryIx_answers hon h rfl, fun n h => ?_, fun n h hrun => ?_,
    fun q h => queryIx_answers hon h rfl, fun n h => ?_, fun k h => ?_, fun l hfull hlane => ?_, fun p h => ?_,
    fun h => ?_, fun d k h => ?_⟩
  · exact ⟨_, queryIx_answers hon h rfl, by simp, by simp⟩
  · exact ⟨_, queryIx_answers hon h rfl, by simp, by simp⟩
  · exact ⟨_, queryIx_answers hon h rfl, by simp, by simp⟩
  · exact ⟨_, queryIx_answers hon h (by simp [hrun]), by simp, by simp⟩
  · exact ⟨_, queryIx_answers hon h rfl, by simp, by simp⟩
  · exact ⟨_, queryIx_answers hon h rfl, by simp⟩
  · exact ⟨_, queryIx_answers hon (decide_eq_true hfull) (by simp [reasonIf, hlane]), by simp, by simp⟩
  · exact ⟨_, queryIx_answers hon h rfl, by simp, by simp⟩
  · exact ⟨_, query_answers hon (gateReason_eq_none rfl rfl (by simp) h), by simp, by simp⟩
  · refine ⟨chanFields s d k, ?_, by simp [chanFields], by simp [chanFields]⟩
    simp only [execChan, d.isLt, k.isLt, and_self, dite_true]
    exact query_answers hon (gateReason_eq_none rfl rfl (by simp) h)

/-! ### The display in servo-only mode (R55) -/

theorem replyOk_ne_refuse (word word' : String) (args args' : List Nat) (fields fields' : Fields) (reason : String)
    (s t : State) : replyOk word args fields s ≠ refuse word' args' reason fields' t := by
  intro h
  have hok := congrArg (fun u : State => u.console.reply.map (·.ok)) h
  simp [replyOk, refuse, reply] at hok
/-- A line that is declined is not answered. -/
theorem not_answers_of_declines {c : Instr} {word word' reason : String} {args args' : List Nat} {fields : Fields}
    {s : State} (h : Declines c word' args' reason s) : ¬ Answers c word args fields s := by
  intro ha
  rw [Declines, ha] at h
  exact replyOk_ne_refuse _ _ _ _ _ _ _ _ _ (Host.Outcome.next.inj h)

/-- A display of 64 by 64 pixels on one lane. -/
def smallDisplay : DspRec := { lanes := 1, rate := 0, hact := 64, vact := 64, pclk := 1, sigmask := 0, sigreact := 0 }
/-- Servo-only mode with VSVO good, under the service lock, a display record named by the plan: the display itself has no
power (R55). -/
def servoOnlyState : State :=
  { State.reset with
    island := { State.reset.island with vaon := true, mode := .servoOnly, good := 1 }
    console := { State.reset.console with locked := true }
    dsp := { State.reset.dsp with rec_ := some smallDisplay } }

theorem servoOnly_dsp_unpowered : powered servoOnlyState dspFid = false := by decide
theorem declines_disp_servoOnly : Declines .disp "DISP" [] "MODE" servoOnlyState := by
  simp only [Declines, exec, execDisp, servoOnly_dsp_unpowered]
  exact query_declines rfl rfl
theorem declines_dispTest_servoOnly : Declines .dispTest "DISPTEST" [] "MODE" servoOnlyState := by
  simp only [Declines, exec, execDispTest, servoOnly_dsp_unpowered]
  exact query_declines rfl rfl

/-- Refutes O10: VSVO is good in servo-only mode too, where the display has no power and DISP is refused with MODE. -/
theorem not_servoQueriesAnswer : ¬ Obligations.ServoQueriesAnswer := by
  intro h
  obtain ⟨_, _, _, _, _, _, _, _, ⟨_, hdisp, _⟩, _⟩ := h servoOnlyState rfl rfl
  exact not_answers_of_declines declines_disp_servoOnly hdisp

/-- Refutes O11: in servo-only mode DISPTEST is refused with MODE, idle though the display is. -/
theorem not_selfTestsReport : ¬ Obligations.SelfTestsReport := by
  intro h
  obtain ⟨_, _, _, _, _, hdisp⟩ := h servoOnlyState rfl
  exact not_answers_of_declines declines_dispTest_servoOnly (hdisp rfl rfl rfl smallDisplay rfl)

end Sys2Proof.Machine
end

section
/-! SUPPORT. What the console's actions do and answer (R398, R399, R401). -/
set_option Elab.async false
namespace Sys2Proof.Machine

/-! ### An action under the lock -/

section
variable {s : State} (hon : s.island.vaon = true)
include hon

theorem exec_break : exec .break_ s = .next (settle { s with console := { s.console with baud := 0 } }) := by
  simp only [exec, execBreak]
  exact doneIf_free hon rfl
theorem performs_baud {b : Nat} (hb : b ∈ bauds) : Performs (.baud b) "BAUD" [b] s
    { s with console := { s.console with baud := BitVec.ofNat 3 (bauds.idxOf b) } } := by
  simp only [Performs, exec, execBaud]
  exact action_performs hon (gateReason_eq_none rfl (by simpa using hb) (by simp) rfl)
theorem performs_mp (n : Fin 8) (src : MpSource) : Performs (.mp n src) "MP" [n.val] s
    { s with console := { s.console with mp := vset s.console.mp n src } } := by
  simp only [Performs, exec, execMp, actionIx_eq]
  exact action_performs hon rfl

variable (hlock : s.console.locked = true)
include hlock

omit hon in
theorem gateReason_of_locked {g : Gate} (hform : g.form = true) (hrange : g.range = true) (hpower : g.power = true) :
    gateReason g s = none := gateReason_eq_none hform hrange (fun _ => hlock) hpower
theorem exec_targetSet {t : BitVec 2} (ht : t ≠ 3) : exec (.targetSet t) s =
    .next (settle (replyOk "TARGET" [t.toNat] [] (setBlock (fun b => { b with target := t }) s))) := by
  simp only [exec, execTargetSet]
  exact action_performs hon (gateReason_of_locked hlock (by simpa using ht) rfl rfl)
theorem exec_clearStart : exec .clearStart s = .next (settle (replyOk "CLEARSTART" [] [] (clearStart s))) := by
  simp only [exec, execClearStart]
  exact action_performs hon (gateReason_of_locked hlock rfl rfl rfl)

variable (hup : servoUp s = true)
include hup

/-- An action on one axis or compare unit under the lock performs its effect where it has no reason of its own. -/
theorem actionIx_performs {word : String} {m : Nat} {n : Fin m} {args : List Nat} {g : Fin m → Gate}
    {own : Fin m → Reason} {eff : Fin m → State → State} (hform : (g n).form = true) (hrange : (g n).range = true)
    (hpower : (g n).power = servoUp s) (hown : own n = none) :
    actionIx word m n args g own eff s = .next (settle (replyOk word (n.val :: args) [] (eff n s))) := by
  rw [actionIx_eq, hown]
  exact action_performs hon (gateReason_of_locked hlock hform hrange (hpower.trans hup))
end

/-- Settles O12. -/
theorem consoleFieldsWritten : Obligations.ConsoleFieldsWritten := by
  intro s hon
  refine ⟨fun b hb => performs_baud hon hb, fun n src => performs_mp hon n src, exec_break hon,
    fun hlock => ⟨fun t ht => ?_, ?_⟩, fun hlock hup => ?_⟩
  · exact ⟨_, exec_targetSet hon hlock ht, rfl, rfl, rfl, rfl⟩
  · exact ⟨_, { fid := islandFid, kind := 4, lseq := s.store.logNext + 1, it := islandTime s, hours := s.island.hours },
      exec_clearStart hon hlock, rfl, by simp [clearStart, logEntry, setBlock, storeReq, replyOk, reply, islandTime],
      rfl, rfl⟩
  · simp only [Performs, exec]
    refine ⟨fun a => ?_, fun a => ?_, fun a p d hd hst htaken => ?_, fun a => ?_, fun n hen => ?_, fun n => ?_⟩
    · exact actionIx_performs hon hlock hup rfl rfl rfl rfl
    · exact actionIx_performs hon hlock hup rfl rfl rfl rfl
    · exact actionIx_performs hon hlock hup rfl (decide_eq_true hd) rfl (by simp [reasonIf, hst, htaken])
    · exact actionIx_performs hon hlock hup rfl rfl rfl rfl
    · exact actionIx_performs hon hlock hup rfl rfl rfl (by simp [reasonIf, hen])
    · exact actionIx_performs hon hlock hup rfl rfl rfl rfl

/-! ### The service lock (R399) -/

theorem lockTake_of_locked {s : State} (h : s.console.locked = true) : lockTake s = s := if_pos h
theorem lockTake_of_free {s : State} (h : s.console.locked = false) :
    lockTake s = emit islandFid 0x23 1 { s with console := { s.console with locked := true } } :=
  if_neg (by simp [h])
theorem lockRelease_of_free {s : State} (cause : Nat) (h : s.console.locked = false) : lockRelease cause s = s :=
  if_neg (by simp [h])
theorem lockRelease_of_locked {s : State} (cause : Nat) (h : s.console.locked = true) :
    lockRelease cause s = emit islandFid 0x23 (pl 16 0 + pl 17 cause) (lockGive s) := if_pos h

@[simp] theorem vget_map {α β : Type} {n : Nat} (v : Vector α n) (f : α → β) (i : Fin n) :
    vget (v.map f) i = f (vget v i) := by simp [vget]
theorem say_console (l : ULine) (s : State) (h : s.console.held.length < 32) :
    (say l s).console = { s.console with held := s.console.held ++ [l] } := by simp [say, h]
/-- A line is held or counted; the rest of the console stays. -/
theorem say_console_frame (l : ULine) (s : State) :
    (say l s).console = { s.console with held := (say l s).console.held, lost := (say l s).console.lost } := by
  simp only [say, modConsole_console]
  split <;> rfl

/-- A lapse releases the lock and reports it. -/
theorem exec_lockLapsed {s : State} (hon : s.island.vaon = true) (hlock : s.console.locked = true)
    (hlate : s.console.lineAt + 600 * 16000000000 ≤ upTime s) (hr : s.rat.reopened = none) :
    exec .lockLapsed s = .next (settle (say .lockLapsed (lockRelease 1 s))) := by
  simp only [exec, execLockLapsed]
  exact doneIf_pos (by simp [hon, hlock, hlate]) hr _

/-- Settles O13. -/
theorem serviceLock : Obligations.ServiceLock := by
  intro s hon
  simp only [Performs, exec]
  refine ⟨fun h => ?_, fun h => ?_, fun h => ?_, fun h => ?_, fun h hlate hr => ?_⟩
  · rw [execLock, action_performs hon rfl, lockTake_of_locked h]
  · rw [execLock, action_performs hon rfl, lockTake_of_free h]
  · rw [execUnlock, action_performs hon rfl, lockRelease_of_free 0 h]
  · rw [execUnlock, action_performs hon rfl, lockRelease_of_locked 0 h]
    rfl
  · have hframe := say_console_frame .lockLapsed (lockRelease 1 s)
    refine ⟨_, exec_lockLapsed hon h hlate hr, ?_⟩
    rw [lockRelease_of_locked 1 h] at hframe ⊢
    refine ⟨?_, ?_, fun hroom => ?_, fun a => ?_, fun n => ?_, ?_, ?_, ?_⟩
    · rw [settle_console, hframe]; simp [lockGive]
    · rw [settle_console, hframe]; simp [lockGive]
    · rw [settle_console, say_console _ _ (by simpa [lockGive] using hroom)]; simp [lockGive]
    · simp [lockGive]
    · simp [lockGive]
    · simp [lockGive]
    · simp [lockGive]
    · simp [lockGive]

end Sys2Proof.Machine
end

section
/-! SUPPORT. Console requests that stand for register operations (R401), the lines of the console (R394 to R398), meter
points (R405) and boundary scan (R428, R429). -/
set_option Elab.async false
namespace Sys2Proof.Machine

/-! ### Requests -/

section
variable {s : State} (hon : s.island.vaon = true)
include hon

theorem performs_start {cold : Bool} {t : BitVec 2} (ht : cold = true ∨ t = 1 ∨ t = 2)
    (hok : startAnswer s (startArgs cold t) = .ok) :
    Performs (.start cold t) "START" [b2n cold, t.toNat] s (startRequest (startArgs cold t) cold s) := by
  have hform : (!cold && (decide (t = 0) || decide (t = 3))) = false := by
    rcases ht with rfl | rfl | rfl <;> simp
  simp only [Performs, exec, execStart, hon, hform, hok, startReply, done]
  simp
theorem performs_stop (h : starting s = false) : Performs .stop "STOP" [] s (stopRequest s) := by
  simp only [Performs, exec, execStop, h, reasonIf, Bool.false_eq_true, if_false]
  exact action_performs hon rfl
theorem exec_consoleNop {n : Fin 64} (hpower : powered s (fidMk 1 0) = true) (hrun : (vget s.queues n).halted = false)
    (hen : (vget s.queues n).enable = true) (hspare : (vget s.queues n).spare ≠ 0) (hr : s.rat.reopened = none) :
    exec (.consoleNop n) s = .next (settle (replyOk "NOP" [n.val]
      [("SEQ", (vget s.queues n).nextSeq.toNat), ("STATUS", 0)] (writeRecord n (consoleNopRec s) false s))) := by
  have hreason : nopReason s n = none := by simp [nopReason, hrun, reasonIf, hen, hspare]
  simp only [exec, execConsoleNop, n.isLt, dite_true, Fin.eta, hreason, hpower, hon]
  exact doneFrom_next hr _
theorem performs_rst {word : String} {lock : Bool} {f : Fid} {act : BitVec 2} (hup : servoUp s = true)
    (hlock : lock = true → s.console.locked = true) (hpower : powered s f = true)
    (hok : rstRefusal s ⟨32, by omega⟩ f act = none) :
    consoleRst word lock f act s = .next (settle (replyOk word [f.toNat] [] (rstRequest ⟨32, by omega⟩ f act s))) := by
  have hgate : gateReason { lock := lock, power := servoUp s && (!fidOk f || powered s f) } s = none :=
    gateReason_eq_none rfl rfl hlock (by simp [hup, hpower])
  unfold consoleRst
  simp only [hon, hgate, hok, done, Bool.not_true, Bool.false_eq_true, if_false]
theorem performs_freeze (hup : servoUp s = true) (hopen : isFenced s frzFid = false) :
    Performs .freeze "FREEZE" [] s
      (frzRequest { t := s.time.it + 16000000, source := 3, late := false, origin := chipId s } s) := by
  simp only [Performs, exec, execFreeze]
  rw [action_performs hon (gateReason_eq_none rfl rfl (by simp) hup)]
  simp [freezeCmd, hopen]

variable (hup : servoUp s = true) (hlock : s.console.locked = true)
include hup hlock

theorem performs_faultClr {f : Fid} {mask : BitVec 12} (hf : fidOk f = true) (hok : clearRefused s f mask = false) :
    Performs (.faultClr f mask) "FAULTCLR" [f.toNat, mask.toNat] s (clearCauses f mask s) := by
  have hgate : gateReason { range := fidOk f, lock := true, power := servoUp s } s = none :=
    gateReason_of_locked hlock rfl hf hup
  simp [Performs, exec, execFaultClr, hon, hgate, hok, done]
theorem performs_fenceReopen {p : Fin 32} (hok : reopenBlocked s p = false) :
    Performs (.fenceReopen p) "FENCE REOPEN" [p.val] s (reopen p s) := by
  have hgate : gateReason { lock := true, power := servoUp s } s = none := gateReason_of_locked hlock rfl rfl hup
  simp [Performs, exec, execFenceReopen, hon, hgate, hok, done]
theorem consoleAxis_eq {word : String} {op : BitVec 3} {a : Fin 32} {rivals : List Rival} :
    consoleAxis word op a rivals s =
      .next (settle (orderReply word a op rivals s (orders (consoleOrder a op :: rivals) s))) := by
  have hgate : gateReason (axisArgs s) s = none := gateReason_of_locked hlock rfl rfl hup
  simp [consoleAxis, hon, hgate, done]
/-- The console's order is answered "=" where it wins and the axis's state accepts it, CONFLICT where another wins. -/
theorem consoleAxis_answers {word : String} {op : BitVec 3} {a : Fin 32} {rivals : List Rival} {win : Rival}
    (hwin : orderWinner s a (consoleOrder a op :: rivals) = some win) :
    (win.rank = 2 → orderValid s a op = true → consoleAxis word op a rivals s =
      .next (settle (replyOk word [a.val] [] (orders (consoleOrder a op :: rivals) s)))) ∧
    (win.rank ≠ 2 → ∃ t, consoleAxis word op a rivals s = .next t ∧ t.console.reply = some
      { ok := false, word := word, args := [a.val], reason := "CONFLICT",
        fields := [("RANK", win.rank.toNat), ("PORT", win.port.toNat)] }) := by
  rw [consoleAxis_eq hon hup hlock, orderReply, hwin]
  refine ⟨fun hrank hvalid => by simp [hrank, hvalid], fun hrank => ⟨_, rfl, ?_⟩⟩
  dsimp only
  rw [if_pos hrank]
  simp [refuse, reply]
end

/-- With no standing order, the console's own order wins against nobody: TAKE does not beat its rank. -/
theorem orderWinner_alone {s : State} {a : Fin 32} {op : BitVec 3} (hstand : standing s a = []) (hop : op ≤ 4) :
    orderWinner s a [consoleOrder a op] = some (consoleOrder a op) := by
  have hstate : rivalState (consoleOrder a op) = true := decide_eq_true hop
  have hwins : beaten s a (consoleOrder a op) = false := by simp [beaten, consoleOrder]
  have haxis : (consoleOrder a op).axis = a := rfl
  simp only [orderWinner, hstand, List.nil_append, List.filter_cons, List.filter_nil, haxis, hstate, hwins, decide_true,
    Bool.not_false, Bool.and_self, if_true]
  rfl

/-- Settles O14. -/
theorem consoleActsAsRegisters : Obligations.ConsoleActsAsRegisters := by
  intro s hon
  refine ⟨fun t ht hok => performs_start hon (.inr ht) hok, fun t hok => performs_start hon (.inl rfl) hok,
    performs_stop hon, fun n hpower hrun hen hspare hr => exec_consoleNop hon hpower hrun hen hspare hr,
    fun hup => ⟨performs_freeze hon hup, fun f hpower hok => ?_⟩,
    fun hup hlock => ⟨fun f hpower hok => ?_, fun f mask => performs_faultClr hon hup hlock,
      fun p => performs_fenceReopen hon hup hlock, fun a rivals win c word op hc hwin => ?_,
      fun a op hstand hop => orderWinner_alone hstand hop⟩⟩
  · simp only [Performs, exec, execReset]
    exact performs_rst hon hup (by simp) hpower hok
  · simp only [Performs, exec, execRelease]
    exact performs_rst hon hup (fun _ => hlock) hpower hok
  · have hexec : exec c s = consoleAxis word op a rivals s := by
      simp only [List.mem_cons, Prod.mk.injEq, List.not_mem_nil, or_false] at hc
      rcases hc with ⟨rfl, rfl, rfl⟩ | ⟨rfl, rfl, rfl⟩ | ⟨rfl, rfl, rfl⟩ <;> rfl
    rw [Performs, hexec]
    exact consoleAxis_answers hon hup hlock hwin

/-! ### Lines (R394 to R398) -/

theorem exec_unsolicitedLine {s : State} (hon : s.island.vaon = true)
    (h : (decide (s.console.lost ≠ 0) || !s.console.held.isEmpty) = true) :
    exec .unsolicitedLine s = .next (settle (sendLine s)) := by
  simp only [exec, execUnsolicitedLine]
  exact doneIf_free (by rw [hon]; simpa using h) rfl
theorem exec_lineRefused {s : State} {bytes : List Byte} {r : Reply} (hon : s.island.vaon = true)
    (h : lineRefusal bytes = some r) : exec (.lineRefused bytes) s = .next (reply r s) := by
  simp [exec, execLineRefused, hon, h]

/-! ### Meter points (R72, R405) -/

/-- Temperatures from -50 to 200 °C keep a sensor's point within the port's range. -/
theorem tempMicro_range {t : Int} (h0 : -800 ≤ t) (h1 : t ≤ 3200) : 0 ≤ tempMicro t ∧ tempMicro t ≤ 2500000 := by
  unfold tempMicro
  omega

section
variable {s : State} {n : Fin 8} (hon : s.island.vaon = true)
include hon

theorem meterMicro_rail {r : Fin 16} (hmp : vget s.console.mp n = .rail r)
    (hen : r.val < 14 → s.island.enabled.getLsbD r = true) (hmv : (vget s.power.rail r).toNat ≤ 5000) :
    meterMicro s n = 500 * ((vget s.power.rail r).toNat : Int) := by
  have hraised : (decide (r.val < 14) && !s.island.enabled.getLsbD r) = false := by
    by_cases h : r.val < 14
    · simp [hen h]
    · simp [h]
  simp only [meterMicro, hmp, hon, hraised]
  simp
  omega
theorem meterMicro_tempGroup {g : Fin 14} (hmp : vget s.console.mp n = .tempGroup g)
    (h0 : -800 ≤ (vget s.power.temp g).toInt) (h1 : (vget s.power.temp g).toInt ≤ 3200) :
    meterMicro s n = tempMicro (vget s.power.temp g).toInt := by
  obtain ⟨hlo, hhi⟩ := tempMicro_range h0 h1
  simp only [meterMicro, hmp, hon]
  simp
  omega
end

/-- The greatest of a starting value and the values on a list is one of them, and no less than any. -/
theorem foldl_max_mem {α : Type} (f : α → Int) (l : List α) (a : α) :
    ∃ g, (g = a ∨ g ∈ l) ∧ l.foldl (fun m x => max m (f x)) (f a) = f g ∧ f a ≤ f g ∧ ∀ x ∈ l, f x ≤ f g := by
  induction l generalizing a with
  | nil => exact ⟨a, .inl rfl, rfl, le_rfl, by simp⟩
  | cons b l ih =>
    rcases le_total (f b) (f a) with h | h
    · obtain ⟨g, hg, hfold, ha, hl⟩ := ih a
      refine ⟨g, by tauto, by simpa [max_eq_left h] using hfold, ha, ?_⟩
      rintro x (_ | ⟨_, hx⟩)
      · exact h.trans ha
      · exact hl x hx
    · obtain ⟨g, hg, hfold, hb, hl⟩ := ih b
      refine ⟨g, .inr (by rcases hg with rfl | hg <;> simp [*]), by simpa [max_eq_right h] using hfold, h.trans hb, ?_⟩
      rintro x (_ | ⟨_, hx⟩)
      · exact hb
      · exact hl x hx
theorem meterMicro_temp {s : State} {n : Fin 8} (hon : s.island.vaon = true) (hmp : vget s.console.mp n = .temp)
    (hrange : ∀ g, -800 ≤ (vget s.power.temp g).toInt ∧ (vget s.power.temp g).toInt ≤ 3200) :
    ∃ g, (∀ h, (vget s.power.temp h).toInt ≤ (vget s.power.temp g).toInt) ∧
      meterMicro s n = tempMicro (vget s.power.temp g).toInt := by
  obtain ⟨g, -, hfold, -, hmax⟩ := foldl_max_mem (fun g : Fin 14 => (vget s.power.temp g).toInt) (List.finRange 14) 0
  obtain ⟨hlo, hhi⟩ := tempMicro_range (hrange g).1 (hrange g).2
  refine ⟨g, fun h => hmax h (List.mem_finRange h), ?_⟩
  simp only [meterMicro, hmp, hon, hfold]
  simp
  omega

/-! ### Boundary scan (R428, R429) -/

theorem exec_tap {s : State} (hup : tapUp s = true) (i : TapInstr) :
    doneIf (tapUp s) s (tapLoad i) = .next (settle (tapLoad i s)) := doneIf_free hup rfl

/-- Settles O15. -/
theorem consoleLinesMetersScan : Obligations.ConsoleLinesMetersScan := by
  refine ⟨fun s hon => ⟨fun hlost => ?_, fun hlost l rest hheld => ?_, fun bytes r h => exec_lineRefused hon h,
      fun bytes hcr hne hlong => ?_, fun bytes hcr hshort hchar => ?_, fun bytes hcr hlong hshort hchar => ?_⟩,
    fun s n hon => ⟨fun r hmp hen hmv => ?_, fun g hmp h0 h1 => meterMicro_tempGroup hon hmp h0 h1,
      fun hmp hrange => meterMicro_temp hon hmp hrange⟩,
    fun s => ⟨fun hup => ⟨fun c i hc => ?_, exec_tap hup .idcode, fun code hcode => ?_, fun cap pre => ?_⟩, rfl⟩⟩
  · rw [exec_unsolicitedLine hon (by simp [hlost])]
    simp [sendLine, State.modConsole, hlost]
  · rw [exec_unsolicitedLine hon (by simp [hheld])]
    simp [sendLine, State.modConsole, hlost, hheld]
  · simp only [lineRefusal, hcr, if_false, hne, hlong, if_true]
  · have hne : bytes ≠ [] := by rintro rfl; simp at hchar
    simp only [lineRefusal, hcr, if_false, hne, Nat.not_lt.2 hshort, hchar, if_true]
  · have hne : bytes ≠ [] := by rintro rfl; simp at hlong
    simp only [lineRefusal, hcr, if_false, hne, Nat.not_lt.2 hshort, hchar, hlong, if_true, Bool.false_eq_true]
  · rw [meterMicro_rail hon hmp hen hmv]
    ring
  · simp only [List.mem_cons, Prod.mk.injEq, List.not_mem_nil, or_false] at hc
    rcases hc with ⟨rfl, rfl⟩ | ⟨rfl, rfl⟩ | ⟨rfl, rfl⟩
    all_goals
      simp only [exec, execExtest, execClamp, execHighz, exec_tap hup]
      simp [tapLoad]
  · simp only [exec, execBypass]
    rw [doneIf_free (by rw [hup, decide_eq_true hcode]; rfl) rfl]
    simp [tapLoad]
  · simp only [exec, execSamplePreload]
    rw [doneIf_free hup rfl]
    simp [tapLoad]

end Sys2Proof.Machine
end

section
/-! SUPPORT. Signed transfers over the console (R402 to R404) and the entries of the store's journal (R408, R410). -/
set_option Elab.async false
namespace Sys2Proof.Machine

/-! ### BEGIN, data, END and ABORT under the lock -/

section
variable {s : State} (hon : s.island.vaon = true) (hlock : s.console.locked = true)
include hon hlock

theorem performs_xferBegin {k : XferKind} (h : beginReason s k = none) :
    Performs (.xferBegin k) "XFER BEGIN" [xferCode k, xferLen k] s (xferBegin k s) := by
  simp only [Performs, exec, execXferBegin, h]
  exact action_performs hon (gateReason_of_locked hlock rfl rfl rfl)
theorem declines_xferBegin_busy {k : XferKind} (h : s.console.xfer.isSome = true) :
    Declines (.xferBegin k) "XFER BEGIN" [xferCode k, xferLen k] "BUSY" s := by
  have hreason : beginReason s k = some ("BUSY", []) := if_pos h
  simp only [Declines, exec, execXferBegin, hreason]
  exact action_own_reason hon (gateReason_of_locked hlock rfl rfl rfl)
theorem performs_xferData {x : Xfer} {off : BitVec 32} {data : List Byte} (hx : s.console.xfer = some x)
    (hopen : x.ended = false) (hwf : xferDataWf data = true) (hfit : off.toNat + data.length ≤ xferLen x.kind) :
    Performs (.xferData off data) "XFER" [off.toNat, data.length] s (xferData off data s) := by
  have hreason : dataReason s off data = none := by simp [dataReason, hx, hopen, reasonIf, hfit]
  simp only [Performs, exec, execXferData, hreason]
  exact action_performs hon (gateReason_of_locked hlock hwf rfl rfl)
theorem exec_xferEnd_ignored {x : Xfer} {i : Fin 2} {n : Nat} (hx : s.console.xfer = some x) (hopen : x.ended = false)
    (hkind : x.kind = .plan i n) (hbusy : s.loader.job ≠ .none) :
    exec .xferEnd s = .next (settle (refuse "XFER END" [] "BUSY" [] (wrpIgn s))) := by
  have hcounted : endIgnored s = true := by
    simp [endIgnored, hon, hlock, Console.xferOpen, hx, hopen, hkind, wrpBusy, hbusy]
  simp only [exec, execXferEnd, hcounted, if_true, done]
theorem performs_xferEnd {x : Xfer} (hx : s.console.xfer = some x) (hopen : x.ended = false)
    (hfree : ∀ i n, x.kind = .plan i n → s.loader.job = .none) : Performs .xferEnd "XFER END" [] s (xferEnd s) := by
  have hcounted : endIgnored s = false := by
    cases hk : x.kind <;> simp [endIgnored, hx, hk, wrpBusy]
    next i n => simp [hfree i n hk]
  have hxfer : s.console.xferOpen = true := by simp [Console.xferOpen, hx, hopen]
  simp only [Performs, exec, execXferEnd, hcounted, hxfer, Bool.false_eq_true, if_false]
  exact action_performs hon (gateReason_of_locked hlock rfl rfl rfl)
theorem performs_xferAbort (h : s.console.xferOpen = true) : Performs .xferAbort "XFER ABORT" [] s
    { s with console := { s.console with xfer := none } } := by
  simp only [Performs, exec, execXferAbort]
  rw [action_performs hon (gateReason_of_locked hlock rfl rfl rfl), xferAbort, if_pos h]
  rfl
end

/-! ### The check of an ended transfer -/

/-- A transfer's line is held where there is room. -/
def SaysXfer (s t : State) (k : XferKind) (code : String) : Prop :=
  s.console.held.length < 32 → t.console.held = s.console.held ++ [.xfer (xferCode k) code 0]

theorem saysXfer_of_console {s t : State} {k : XferKind} {code : String} (hheld : t.console.held = s.console.held) :
    SaysXfer s (sayXfer k code 0 t) k code := by
  intro hroom
  rw [sayXfer, say_console _ _ (by rwa [hheld]), ← hheld]
@[simp] theorem say_xfer (l : ULine) (s : State) : (say l s).console.xfer = s.console.xfer := by
  rw [say_console_frame]
@[simp] theorem accepted_island (act slot version : Nat) (s : State) : (accepted act slot version s).island = s.island := by
  simp [accepted]
@[simp] theorem accepted_console (act slot version : Nat) (s : State) :
    (accepted act slot version s).console = s.console := by simp [accepted]
/-- An accepted transfer asks for its fault-log entry, after what was asked for before. -/
theorem accepted_store (act slot version : Nat) (s : State) :
    ∃ n e, (accepted act slot version s).store = { s.store with logNext := n, queue := s.store.queue ++ [.log e] } := by
  simp only [accepted, emit_store, logEntry, storeReq, modStore_store]
  exact ⟨_, _, rfl⟩
@[simp] theorem accepted_block (act slot version : Nat) (s : State) :
    (accepted act slot version s).store.block = s.store.block := by
  obtain ⟨n, e, h⟩ := accepted_store act slot version s
  rw [h]

section
variable (k : XferKind) (b : List Byte) (s : State)

/-- A key request that is refused changes the console alone; one that is accepted blows its fuses (R403). -/
theorem keyTransfer_eq : keyTransfer k b s = sayXfer k (keyCheck s.island.keys b) 0
    (if keyCheck s.island.keys b = "OK" then accepted (byteAt b 4) (byteAt b 5) 0 (blowKey b s) else s) := rfl
@[simp] theorem keyTransfer_xfer : (keyTransfer k b s).console.xfer = s.console.xfer := by
  rw [keyTransfer_eq, sayXfer, say_xfer]; split <;> simp [blowKey]
@[simp] theorem keyTransfer_block : (keyTransfer k b s).store.block = s.store.block := by
  rw [keyTransfer_eq, sayXfer, say_store]; split <;> simp [blowKey]
theorem keyTransfer_says : SaysXfer s (keyTransfer k b s) k (keyCheck s.island.keys b) := by
  refine saysXfer_of_console ?_
  split <;> simp [blowKey]
theorem keyTransfer_effect : if keyCheck s.island.keys b = "OK" then
    (keyTransfer k b s).island.keys = (blowKey b s).island.keys
    else (keyTransfer k b s).island = s.island ∧ (keyTransfer k b s).store = s.store := by
  rw [keyTransfer_eq, sayXfer]
  split <;> simp

/-- A firmware image that is accepted is asked for in the copy that is not running (R404). -/
theorem fwTransfer_eq : fwTransfer k b s = sayXfer k (fwCheck s b) 0
    (if fwCheck s b = "OK" then accepted 2 (fwSpare s).val (leAt b 8 8)
      (storeReq (.fw (fwSpare s) (.valid (BitVec.ofNat 64 (leAt b 8 8)) b)) s) else s) := rfl
@[simp] theorem fwTransfer_xfer : (fwTransfer k b s).console.xfer = s.console.xfer := by
  rw [fwTransfer_eq, sayXfer, say_xfer]; split <;> simp
@[simp] theorem fwTransfer_block : (fwTransfer k b s).store.block = s.store.block := by
  rw [fwTransfer_eq, sayXfer, say_store]; split <;> simp [storeReq]
@[simp] theorem fwTransfer_island : (fwTransfer k b s).island = s.island := by
  rw [fwTransfer_eq, sayXfer, say_island]; split <;> simp
theorem fwTransfer_says : SaysXfer s (fwTransfer k b s) k (fwCheck s b) := by
  refine saysXfer_of_console ?_
  split <;> simp
theorem fwTransfer_effect : if fwCheck s b = "OK" then
    JWrite.fw (fwSpare s) (.valid (BitVec.ofNat 64 (leAt b 8 8)) b) ∈ (fwTransfer k b s).store.queue
    else (fwTransfer k b s).store = s.store := by
  rw [fwTransfer_eq, sayXfer, say_store]
  split
  · obtain ⟨n, e, h⟩ := accepted_store 2 (fwSpare s).val (leAt b 8 8)
      (storeReq (.fw (fwSpare s) (.valid (BitVec.ofNat 64 (leAt b 8 8)) b)) s)
    rw [h]
    simp [storeReq]
  · rfl

@[simp] theorem planResult_block (kind : Nat) (code : BitVec 8) (stage part ofs : Nat) (seq : BitVec 64) :
    (planResult kind code stage part ofs seq s).store = s.store := by simp [planResult]
@[simp] theorem planResult_console (kind : Nat) (code : BitVec 8) (stage part ofs : Nat) (seq : BitVec 64) :
    (planResult kind code stage part ofs seq s).console = s.console := by simp [planResult]
theorem storeAccept_block (i : Fin 2) : (storeAccept i b s).store.block = s.store.block := rfl
theorem storeAccept_console (i : Fin 2) : (storeAccept i b s).console = s.console := rfl
@[simp] theorem planTransfer_xfer (i : Fin 2) : (planTransfer k i b s).console.xfer = s.console.xfer := by
  unfold planTransfer
  split <;> simp [sayXfer, storeAccept_console]
@[simp] theorem planTransfer_block (i : Fin 2) : (planTransfer k i b s).store.block = s.store.block := by
  unfold planTransfer
  split <;> simp [sayXfer, storeAccept_block]
end

section
variable {x : Xfer} {s : State}

/-- The console without the transfer whose check completes. -/
def State.closeXfer (s : State) : State := { s with console := { s.console with xfer := none } }

@[simp] theorem xferCheck_xfer : (xferCheck x s).console.xfer = none := by
  unfold xferCheck
  dsimp only
  repeat' split
  all_goals simp [sayXfer]
@[simp] theorem xferCheck_block : (xferCheck x s).store.block = s.store.block := by
  unfold xferCheck
  dsimp only
  repeat' split
  all_goals simp [sayXfer]
/-- A transfer with a gap changes the console, and for a plan the loader's job (R402). -/
theorem xferCheck_of_gap (h : x.buf.length ≠ xferLen x.kind) : (xferCheck x s).island = s.island ∧
    (xferCheck x s).store = s.store ∧ SaysXfer s (xferCheck x s) x.kind "GAP" := by
  have hsays (t : State) (ht : t.console.held = s.console.held) : SaysXfer s (sayXfer x.kind "GAP" 0 t) x.kind "GAP" :=
    saysXfer_of_console ht
  unfold xferCheck
  dsimp only
  split <;> simp only [h, ne_eq, not_false_eq_true, if_true, sayXfer, say_island, say_store] <;>
    exact ⟨rfl, rfl, hsays _ rfl⟩
theorem xferCheck_of_key {n : Nat} (hk : x.kind = .key n) (hlen : x.buf.length = n) :
    xferCheck x s = keyTransfer x.kind (x.buf.map (·.2)) s.closeXfer := by
  simp [xferCheck, hk, xferLen, hlen, State.closeXfer, State.modConsole]
theorem xferCheck_of_fw {n : Nat} (hk : x.kind = .fw n) (hlen : x.buf.length = n) :
    xferCheck x s = fwTransfer x.kind (x.buf.map (·.2)) s.closeXfer := by
  simp [xferCheck, hk, xferLen, hlen, State.closeXfer, State.modConsole]
theorem exec_xferCheckDone (hon : s.island.vaon = true) (hx : s.console.xfer = some x) (hended : x.ended = true)
    (hr : s.rat.reopened = none) : exec .xferCheckDone s = .next (settle (xferCheck x s)) := by
  simp only [exec, execXferCheckDone, hx]
  exact doneIf_pos (by simp [hon, hended]) hr _
end

/-! ### The journal (R408, R410) -/

@[simp] theorem natLe_length (n v : Nat) : (natLe n v).length = n := by
  induction n generalizing v with
  | zero => rfl
  | succ n ih => simp [natLe, ih]
theorem leNat_natLe (n v : Nat) : leNat (natLe n v) = v % 256 ^ n := by
  induction n generalizing v with
  | zero => simp [natLe, leNat, Nat.mod_one]
  | succ n ih =>
    rw [natLe, leNat, ih]
    show v % 256 + 256 * (v / 256 % 256 ^ n) = v % 256 ^ (n + 1)
    rw [Nat.pow_succ', Nat.mod_mul]
/-- A field of a byte string is read back where it was laid. -/
theorem leAt_of_append {l m r : List Byte} {off n : Nat} (hoff : l.length = off) (hn : m.length = n) :
    leAt (l ++ m ++ r) off n = leNat m := by
  subst hoff hn
  simp [leAt, slice]
/-- Committed and released, an entry carries its sequence number and its complement (Table 18.7). -/
theorem jEntry_words {e : JEntry} (hc : e.committed = true) (hr : e.released = true) :
    leAt e.bytes 48 8 + e.jseq.toNat = 2 ^ 64 - 1 ∧ leAt e.bytes 56 8 = e.jseq.toNat := by
  have hseq := e.jseq.isLt
  obtain ⟨head, hlen, hbytes⟩ : ∃ head : List Byte, head.length = 48 ∧
      e.bytes = head ++ natLe 8 (~~~e.jseq).toNat ++ natLe 8 e.jseq.toNat := by
    simp only [JEntry.bytes, hc, hr, if_true]
    exact ⟨_, by simp, rfl⟩
  rw [hbytes]
  constructor
  · rw [leAt_of_append hlen (by simp), leNat_natLe, BitVec.toNat_not]
    omega
  · rw [← List.append_nil (_ ++ natLe 8 e.jseq.toNat), leAt_of_append (by simp [hlen]) (by simp), leNat_natLe]
    omega

section
variable (it : Time) (t : Store) (w : JWrite)

@[simp] theorem release_frame : (t.release w).queue = t.queue ∧ (t.release w).work = t.work ∧
    (t.release w).jseq = t.jseq ∧ (t.release w).journal = t.journal := by
  cases w with
  | slot i v => refine ⟨?_, ?_, ?_, ?_⟩ <;> (simp only [Store.release, Store.setSlot]; split <;> rfl)
  | slotData i o d => refine ⟨?_, ?_, ?_, ?_⟩ <;> (simp only [Store.release, Store.setSlot]; split <;> rfl)
  | fw c v => refine ⟨?_, ?_, ?_, ?_⟩ <;> (simp only [Store.release, Store.setFw]; split <;> rfl)
  | _ => exact ⟨rfl, rfl, rfl, rfl⟩
end

/-- The item that a write names takes its new value, and every other item stays (R408). -/
theorem release_items (t : Store) (w : JWrite) :
    (t.release w).block = (match w with | .block b => b | _ => t.block) ∧
    (t.release w).training = (match w with | .training r => some r | _ => t.training) ∧
    (t.release w).trims = (match w with | .trim r => (r :: t.trims).take 4096 | _ => t.trims) ∧
    (t.release w).log = (match w with | .log e => (e :: t.log).take 512 | _ => t.log) ∧
    (t.release w).slotA = (match w with | .slot 0 v => v | .slotData 0 _ _ => .empty | _ => t.slotA) ∧
    (t.release w).slotB = (match w with | .slot 1 v => v | .slotData 1 _ _ => .empty | _ => t.slotB) ∧
    (t.release w).fw0 = (match w with | .fw 0 v => v | _ => t.fw0) ∧
    (t.release w).fw1 = (match w with | .fw 1 v => v | _ => t.fw1) := by
  cases w with
  | slot i v => fin_cases i <;> exact ⟨rfl, rfl, rfl, rfl, rfl, rfl, rfl, rfl⟩
  | slotData i o d => fin_cases i <;> exact ⟨rfl, rfl, rfl, rfl, rfl, rfl, rfl, rfl⟩
  | fw c v => fin_cases c <;> exact ⟨rfl, rfl, rfl, rfl, rfl, rfl, rfl, rfl⟩
  | _ => exact ⟨rfl, rfl, rfl, rfl, rfl, rfl, rfl, rfl⟩

theorem exec_journalEntry {s : State} {w : JWrite} {q : List JWrite} (hon : s.island.vaon = true)
    (hq : s.store.queue = w :: q) : exec .journalEntry s = .next (settle { s with
      store := { (s.store.release w).logged (s.store.entry (islandTime s) w true true) with queue := q } }) := by
  have heffect : journalEntry s = { s with
      store := { (s.store.release w).logged (s.store.entry (islandTime s) w true true) with queue := q } } := by
    simp only [journalEntry, hq]
    rfl
  simp only [exec, execJournalEntry]
  rw [doneIf_free (by simp [hon, hq]) (by rw [heffect]), heffect]

/-- Settles O16. -/
theorem transfersAndJournal : Obligations.TransfersAndJournal := by
  refine ⟨fun s hon => ⟨fun hlock => ⟨fun n hx hn => ⟨?_, ?_⟩, fun i n hx hbusy hmod hroom hact => ?_,
    fun k h => declines_xferBegin_busy hon hlock h, fun x off data hx hopen hwf hfit => ?_,
    fun x i n hx hopen hk hbusy => exec_xferEnd_ignored hon hlock hx hopen hk hbusy,
    fun x hx hopen hfree => ?_, fun h => performs_xferAbort hon hlock h⟩, fun x hx hended hr => ?_⟩,
    fun s w q hon hq => ?_⟩
  · exact performs_xferBegin hon hlock (k := .key n) (by simp [beginReason, hx, reasonIf, hn])
  · exact performs_xferBegin hon hlock (k := .fw n) (by simp [beginReason, hx, reasonIf, hn])
  · have hmax : n ≤ 4194304 := hroom.trans (Nat.min_le_left _ _)
    exact performs_xferBegin hon hlock (k := .plan i n)
      (by simp [beginReason, hx, hbusy, hmod, Nat.not_lt.2 hmax, hact, reasonIf, Nat.not_lt.2 hroom])
  · have h := performs_xferData hon hlock hx hopen hwf hfit
    simp only [xferData, hx] at h
    cases hk : x.kind <;> simp only [hk] at h ⊢ <;> simpa [Performs, storeReq, State.modConsole, State.modStore] using h
  · have h := performs_xferEnd hon hlock hx hopen hfree
    simp only [xferEnd, hx] at h
    cases hk : x.kind <;> simp only [hk] at h ⊢ <;> simpa [Performs, State.modConsole, State.modLoader] using h
  · refine ⟨_, exec_xferCheckDone hon hx hended hr, ?_⟩
    simp only [settle_console, settle_store, settle_island]
    refine ⟨xferCheck_xfer, xferCheck_block, xferCheck_of_gap, fun n hk hlen => ?_, fun n hk hlen => ?_⟩
    · rw [xferCheck_of_key hk hlen]
      exact ⟨keyTransfer_says _ _ s.closeXfer, keyTransfer_effect _ _ s.closeXfer⟩
    · rw [xferCheck_of_fw hk hlen]
      exact ⟨fwTransfer_says _ _ s.closeXfer, by simp [State.closeXfer], fwTransfer_effect _ _ s.closeXfer⟩
  · obtain ⟨-, hwork, -, -⟩ := release_frame s.store w
    refine ⟨_, exec_journalEntry hon hq, by rw [settle_store], ?_⟩
    rw [settle_store]
    refine ⟨rfl, rfl, rfl, ?_, hwork, release_items s.store w⟩
    rintro e he
    obtain rfl : s.store.entry (islandTime s) w true true = e := by simpa [Store.logged] using he
    exact jEntry_words rfl rfl

end Sys2Proof.Machine
end

section
/-! SUPPORT. Rails becoming good, the next group's enables and the sensed fuses of a start (R48, R49, R59). -/
set_option Elab.async false
namespace Sys2Proof.Machine

/-! ### A rail becomes good -/

/-- The state in which rail `n` is marked good, before the start takes note of it. -/
def railUp (n : Fin 14) (s : State) : State :=
  let s := s.modIsland fun i => { i with good := i.good ||| (1#14 <<< n.val) }
  if n = 0 then s.modTime fun t => { t with refLost := !s.island.refclk } else s
/-- What a start at step 4 does when the rails of its group are good (R49). -/
def groupUp (r : StartRun) (s : State) : State :=
  let m := wantedRails r &&& railMask (· = r.group)
  if r.step = 4 && !r.waiting && r.failed.isNone && (m &&& ~~~s.island.good) = 0 then
    match nextGroup r r.group with
    | some _ => setRun (fun r => { r with waiting := true }) s
    | none => setRun (fun r => { r with step := 5 }) s
  else s
/-- The ramp is judged, and does not agree (R62). -/
def rampFails (ramp : Bool) (r : StartRun) (s : State) : Bool :=
  r.step = 4 && r.kind = .extended && r.failed.isNone && s.island.seqr = .idle && !ramp

theorem railGood_eq (n : Fin 14) (ramp : Bool) (s : State) : railGood n ramp s =
    withRun (fun r t => if rampFails ramp r t then startFail .rail t else groupUp r t) (railUp n s) := rfl
theorem groupUp_eq (r : StartRun) (s : State) : groupUp r s = s ∨ ∃ f, groupUp r s = setRun f s := by
  unfold groupUp; dsimp only; split
  · cases nextGroup r r.group <;> exact .inr ⟨_, rfl⟩
  · exact .inl rfl
@[simp] theorem railUp_island (n : Fin 14) (s : State) :
    (railUp n s).island = { s.island with good := s.island.good ||| (1#14 <<< n.val) } := by
  unfold railUp; dsimp only; split <;> rfl
@[simp] theorem railUp_rat (n : Fin 14) (s : State) : (railUp n s).rat = s.rat := by unfold railUp; dsimp only; split <;> rfl
@[simp] theorem railUp_store (n : Fin 14) (s : State) : (railUp n s).store = s.store := by
  unfold railUp; dsimp only; split <;> rfl
@[simp] theorem railUp_axes (n : Fin 14) (s : State) : (railUp n s).axes = s.axes := by
  unfold railUp; dsimp only; split <;> rfl
theorem groupUp_frame (r : StartRun) (s : State) : ∃ x, groupUp r s = s.modIsland fun i => { i with start := x } := by
  obtain h | ⟨f, h⟩ := groupUp_eq r s <;> rw [h]
  · exact ⟨s.island.start, rfl⟩
  · exact ⟨s.island.start.map f, rfl⟩
theorem groupUp_start {r : StartRun} {s : State} (hstart : s.island.start = some r) (hstep : r.step = 4)
    (hwait : r.waiting = false) (hfailed : r.failed = none)
    (hall : (wantedRails r &&& railMask (· = r.group) &&& ~~~s.island.good) = 0) :
    (groupUp r s).island.start =
      some (if (nextGroup r r.group).isSome then { r with waiting := true } else { r with step := 5 }) := by
  rw [groupUp, if_pos (by rw [decide_eq_true hstep, decide_eq_true hall, hwait, hfailed]; rfl)]
  cases nextGroup r r.group <;> simp [setRun, hstart]

/-- A rail whose ramp is not judged, or agrees, is good, and the start goes on when its group is (R49, R62). -/
theorem railGood_of_agrees {s : State} {n : Fin 14} {ramp : Bool}
    (h : ramp = true ∨ ∀ r, s.island.start = some r → r.kind ≠ .extended) :
    railGood n ramp s = withRun groupUp (railUp n s) := by
  rw [railGood_eq]
  cases hstart : s.island.start with
  | none => simp [withRun, hstart]
  | some r =>
    have hagrees : rampFails ramp r (railUp n s) = false := by
      rcases h with rfl | h
      · simp [rampFails]
      · simp [rampFails, h r hstart]
    simp [withRun, hstart, hagrees]
/-- What a rail that becomes good changes: GOOD, the reference's flag and the start in progress. -/
theorem withRun_groupUp_frame (s : State) :
    ∃ x, withRun groupUp s = s.modIsland fun i => { i with start := x } := by
  unfold withRun
  cases s.island.start with
  | none => exact ⟨s.island.start, rfl⟩
  | some r => exact groupUp_frame r s

theorem seqRailGood_settles {s : State} {n : Fin 14} {ramp : Bool} (hon : s.island.vaon = true)
    (hen : s.island.enabled.getLsbD n = true) (hbad : s.island.good.getLsbD n = false)
    (h : ramp = true ∨ ∀ r, s.island.start = some r → r.kind ≠ .extended) :
    exec (.seqRailGood n ramp) s = .next (settle (withRun groupUp (railUp n s))) := by
  simp only [exec, execSeqRailGood]
  rw [doneIf_free (by rw [hon, hen, hbad]; rfl), railGood_of_agrees h]
  obtain ⟨x, hx⟩ := withRun_groupUp_frame (railUp n s)
  rw [railGood_of_agrees h, hx]
  simp

/-! ### The next group, and the sensed fuses -/

/-- The next group's enables of a start (R49). -/
theorem raiseGroup_eq (r : StartRun) (g : Nat) (s : State) : raiseGroup r g s = { s with island := { s.island with
    enabled := s.island.enabled ||| (wantedRails r &&& railMask (· = g))
    start := some { r with step := 4, group := g, waiting := false } } } := rfl
theorem groupDelay_raises {s : State} {r : StartRun} {g : Nat} (hidle : s.island.seqr = .idle)
    (hstart : s.island.start = some r) (hstep : r.step = 4) (hwait : r.waiting = true)
    (hnext : nextGroup r r.group = some g) : groupDelay s = raiseGroup r g s := by
  simp [groupDelay, hidle, hstart, hstep, hwait, hnext]
theorem doneIf_atStep {s : State} {n : BitVec 4} {r : StartRun} {f : StartRun → State → State} (hat : atStep s n = true)
    (hstart : s.island.start = some r) (hwaits : (f r s).rat.waits = s.rat.waits) :
    doneIf (atStep s n) s (withRun f) = .next (settle (f r s)) := by
  have hrun : withRun f s = f r s := by simp [withRun, hstart]
  rw [doneIf_free hat (by rw [hrun, hwaits]), hrun]
theorem fusesSensed_raises {s : State} {r : StartRun} {g : Nat} {same : Bool} (hsame : r.kind = .extended → same = true)
    (hnext : nextGroup r 0 = some g) :
    fusesSensed same r s = raiseGroup r g (s.modIsland fun i => { i with fusesHeld := true }) := by
  have hagrees : (decide (r.kind = .extended) && !same) = false := by
    by_cases h : r.kind = .extended
    · simp [hsame h]
    · simp [h]
  simp [fusesSensed, hagrees, raiseFirst, hnext]

/-- Settles O17. -/
theorem railsRaisedInOrder : Obligations.RailsRaisedInOrder := by
  refine ⟨fun s n ramp hon hen hbad hagrees => ?_, fun s r g hon hidle hstart hstep hwait hnext => ?_,
    fun s r g same hat hstart hsame hnext => ?_⟩
  · refine ⟨_, seqRailGood_settles hon hen hbad hagrees, ?_⟩
    obtain ⟨x, hx⟩ := withRun_groupUp_frame (railUp n s)
    simp only [settle_island, settle_store, settle_axes]
    refine ⟨by simp [hx], by simp [hx], by simp [hx], by simp [hx], by simp [hx], ?_⟩
    intro r hstart hstep hwait hfailed hall
    have hstart' : (railUp n s).island.start = some r := by simpa using hstart
    have hrun : withRun groupUp (railUp n s) = groupUp r (railUp n s) := by simp [withRun, hstart]
    rw [hrun]
    refine groupUp_start hstart' hstep hwait hfailed ?_
    rw [hx] at hall
    simpa using hall
  · refine ⟨_, doneIf_free hon (by rw [groupDelay_raises hidle hstart hstep hwait hnext]; rfl), ?_⟩
    rw [groupDelay_raises hidle hstart hstep hwait hnext]
    simp only [settle_island, settle_store, settle_axes, settle_mem, raiseGroup_eq]
    rw [← hstep]
    simp
  · refine ⟨_, doneIf_atStep hat hstart (by rw [fusesSensed_raises hsame hnext]; rfl), ?_⟩
    rw [fusesSensed_raises hsame hnext]
    simp [raiseGroup_eq]

end Sys2Proof.Machine
end

section
/-! SUPPORT. States that the refutations run in: small ones, which satisfy the statements' hypotheses. -/
set_option Elab.async false
namespace Sys2Proof.Machine

/-- One partition that names core 0, and core 0's queue as its event stream: a completion ring of 16 records at the
bottom of stacked DRAM, which the one region entry admits. -/
def ringState : State :=
  { State.reset with
    island := { State.reset.island with vaon := true, good := 0x3FFF, enabled := 0x3FFF }
    parts := vset (vrep 32 {}) 0 { assigned := true, cores := 1 }
    rat := { entries := vset (vrep 64 {}) 0 { valid := true, base := 0, limit := 0x12FFFFFF, attr := 0xFC, access := 1 } }
    queues := vset (vrep 64 {}) 0 { enable := true, evt := true, cqbase := 0x10000000, cqlog := 4, nextSeq := 1 } }

end Sys2Proof.Machine
end

section
/-! SUPPORT. The training step of a cold start, whose ageing measurements send events (R63, R138, R366). -/
set_option Elab.async false
namespace Sys2Proof.Machine

/-- A cold start at step 7, P0's event stream open. -/
def coldAtTraining : State :=
  { ringState with island := { ringState.island with start := some { step := 7, kind := .cold, target := 2 } } }
/-- Training succeeds; the first domain has aged by 0.15 %, which raises its trim by one unit. -/
def agedTraining : TrainResult := { ok := true, dimm := 0, temp := 0, ageing := vset (vrep 5 0) 0 1500 }

/-- Event 0x75 of the raised trim goes into P0's completion ring. -/
theorem agedTraining_writes_ring :
    (withRun (trained agedTraining) coldAtTraining).mem ≠ coldAtTraining.mem := by decide +kernel

/-- Refutes O18: the ageing measured in step 7 of a cold start sends event 0x75, which is written into an open event
stream's ring, so memory does not stay. -/
theorem not_startStepsComplete : ¬ Obligations.StartStepsComplete := by
  intro h
  obtain ⟨hsteps, -⟩ := h
  obtain ⟨-, -, htrain, -⟩ := hsteps coldAtTraining _ rfl
  obtain ⟨t, ht, -, -, -, -, hmem⟩ := htrain (by decide) agedTraining rfl
  rw [exec, execMemoryTrainingDone, doneIf_pos (by decide) rfl] at ht
  rw [← Host.Outcome.next.inj ht, settle_mem] at hmem
  exact agedTraining_writes_ring hmem

end Sys2Proof.Machine
end

section
/-! SUPPORT. What a block without its rail loses, in the four parts of `clearUnpowered` (R11, Table 3.1). -/
set_option Elab.async false
namespace Sys2Proof.Machine

/-! ### The parts of the reset -/

/-- The host's blocks, tiles, engines and memories whose rail is off. -/
def offBlocks (good : BitVec 14) (s : State) : State :=
  let on := fun n => good.getLsbD n
  let die := fun (d : Nat) => on (5 + d % 4)
  let s := if on 4 then s else
    { s with cores := vrep 48 {}, queues := vrep 64 {}, aplic := vrep 2 {}, srcLevel := 0, rat := {}, fwver := 0 }
  let s := { s with
    tiles := Vector.ofFn fun n => if die (n.val / 16) then vget s.tiles n else {}
    shuttle := Vector.ofFn fun g => if die (g.val / 4) then vget s.shuttle g else {}
    chans := Vector.ofFn fun d => if die d.val then vget s.chans d else vrep 8 {}
    lanes := s.lanes.map fun l => if l.tiles.all fun t => die (t.val / 16) then l else {}
    clusterHeld := s.clusterHeld ||| BitVec.ofNat 4 ((List.range 4).foldl (fun a d => if die d then a else a + 2 ^ d) 0)
    power := { s.power with dom := Vector.ofFn fun d => if on (4 + d.val) then vget s.power.dom d else
      { trim := (vget s.power.dom d).trim, d := (vget s.power.dom d).d, ageHours := (vget s.power.dom d).ageHours,
        ageTag := (vget s.power.dom d).ageTag } } }
  let s := if on 10 then s else { s with peat := vrep 8 {} }
  loseBytes (fun a => match addrClass a with
    | .host n => !(die (n.val / 16) && on 3) | .stack _ => !on 10 | .ddr => !on 9 | _ => false) s
/-- Memory whose rail is off is no longer trained. -/
def offTraining (good : BitVec 14) (s : State) : State :=
  if good.getLsbD 9 && good.getLsbD 10 && good.getLsbD 11 then s else s.modIsland fun i => { i with
    ddrSize := if good.getLsbD 9 then i.ddrSize else 0, trained := false }
/-- The links and root ports whose rails are off. -/
def offPorts (good : BitVec 14) (s : State) : State :=
  if good.getLsbD 12 && good.getLsbD 13 then s else
    { s with
      ports := vrep 16 {}, remote := [], rports := s.rports.map fun r => { exists_ := r.exists_, lanes := r.lanes, out := r.out }
      dsp := if s.dsp.link = .off then s.dsp else { s.dsp with link := .down, lanes := 0, rate := 0 } }
/-- The servo subsystem without VSVO. -/
def offServo (good : BitVec 14) (s : State) : State :=
  if good.getLsbD 0 then s else
    let count := if s.time.it = 0 then s.island.count else s.time.it
    { s with
      axes := vrep 32 {}, trd := vrep 8 {}, fbk := vrep 40 {}, cc := {}, can := vrep 4 {}, dsp := { hpd := s.dsp.hpd }
      rports := vrep 8 {}, flt := vrep 1024 {}, parts := vrep 32 {}, frz := {}, time := {}, tsc := 0, pins := []
      pinsUp := false, fabric := {}, evbuf := vrep 32 {}, island := { s.island with count := count, pll := false } }
theorem clearUnpowered_eq (s : State) : clearUnpowered s =
    offServo s.island.good (offPorts s.island.good (offTraining s.island.good (offBlocks s.island.good s))) := by
  unfold clearUnpowered offServo offPorts offTraining offBlocks
  rfl

/-! ### What stays -/

section
variable (good : BitVec 14) (s : State)
@[simp] theorem offBlocks_island : (offBlocks good s).island = s.island := by
  simp only [offBlocks, apply_ite State.island, loseBytes, ite_self]
@[simp] theorem offBlocks_store : (offBlocks good s).store = s.store := by
  simp only [offBlocks, apply_ite State.store, loseBytes, ite_self]
@[simp] theorem offBlocks_loader : (offBlocks good s).loader = s.loader := by
  simp only [offBlocks, apply_ite State.loader, loseBytes, ite_self]
@[simp] theorem offBlocks_console : (offBlocks good s).console = s.console := by
  simp only [offBlocks, apply_ite State.console, loseBytes, ite_self]
@[simp] theorem offBlocks_tap : (offBlocks good s).tap = s.tap := by
  simp only [offBlocks, apply_ite State.tap, loseBytes, ite_self]
@[simp] theorem offTraining_store : (offTraining good s).store = s.store := by unfold offTraining; split <;> rfl
@[simp] theorem offTraining_loader : (offTraining good s).loader = s.loader := by unfold offTraining; split <;> rfl
@[simp] theorem offTraining_console : (offTraining good s).console = s.console := by unfold offTraining; split <;> rfl
@[simp] theorem offTraining_tap : (offTraining good s).tap = s.tap := by unfold offTraining; split <;> rfl
@[simp] theorem offPorts_island : (offPorts good s).island = s.island := by unfold offPorts; split <;> rfl
@[simp] theorem offPorts_store : (offPorts good s).store = s.store := by unfold offPorts; split <;> rfl
@[simp] theorem offPorts_loader : (offPorts good s).loader = s.loader := by unfold offPorts; split <;> rfl
@[simp] theorem offPorts_console : (offPorts good s).console = s.console := by unfold offPorts; split <;> rfl
@[simp] theorem offPorts_tap : (offPorts good s).tap = s.tap := by unfold offPorts; split <;> rfl
@[simp] theorem offServo_store : (offServo good s).store = s.store := by unfold offServo; split <;> rfl
@[simp] theorem offServo_loader : (offServo good s).loader = s.loader := by unfold offServo; split <;> rfl
@[simp] theorem offServo_console : (offServo good s).console = s.console := by unfold offServo; split <;> rfl
@[simp] theorem offServo_tap : (offServo good s).tap = s.tap := by unfold offServo; split <;> rfl
end

@[simp] theorem clearUnpowered_store (s : State) : (clearUnpowered s).store = s.store := by simp [clearUnpowered_eq]
@[simp] theorem clearUnpowered_loader (s : State) : (clearUnpowered s).loader = s.loader := by simp [clearUnpowered_eq]
@[simp] theorem clearUnpowered_console (s : State) : (clearUnpowered s).console = s.console := by simp [clearUnpowered_eq]
@[simp] theorem clearUnpowered_tap (s : State) : (clearUnpowered s).tap = s.tap := by simp [clearUnpowered_eq]
/-- Of the island an unpowered block changes the size and training of memory, the count and the servo PLL. -/
theorem clearUnpowered_island (s : State) : ∃ d tr c p, (clearUnpowered s).island = { s.island with
    ddrSize := d, trained := tr, count := c, pll := p } := by
  have htrained : ∃ d tr, (offPorts s.island.good (offTraining s.island.good (offBlocks s.island.good s))).island =
      { s.island with ddrSize := d, trained := tr } := by
    rw [offPorts_island]; unfold offTraining
    split
    · exact ⟨s.island.ddrSize, s.island.trained, by rw [offBlocks_island]⟩
    · exact ⟨_, _, by rw [modIsland_island, offBlocks_island]⟩
  obtain ⟨d, tr, htrained⟩ := htrained
  rw [clearUnpowered_eq]; unfold offServo
  split
  · exact ⟨d, tr, s.island.count, s.island.pll, htrained⟩
  · dsimp only
    rw [htrained]
    exact ⟨d, tr, _, false, rfl⟩
@[simp] theorem clearUnpowered_enabled (s : State) : (clearUnpowered s).island.enabled = s.island.enabled := by
  obtain ⟨_, _, _, _, h⟩ := clearUnpowered_island s; rw [h]
@[simp] theorem clearUnpowered_good (s : State) : (clearUnpowered s).island.good = s.island.good := by
  obtain ⟨_, _, _, _, h⟩ := clearUnpowered_island s; rw [h]
@[simp] theorem clearUnpowered_mode (s : State) : (clearUnpowered s).island.mode = s.island.mode := by
  obtain ⟨_, _, _, _, h⟩ := clearUnpowered_island s; rw [h]
@[simp] theorem clearUnpowered_start (s : State) : (clearUnpowered s).island.start = s.island.start := by
  obtain ⟨_, _, _, _, h⟩ := clearUnpowered_island s; rw [h]
@[simp] theorem clearUnpowered_seqr (s : State) : (clearUnpowered s).island.seqr = s.island.seqr := by
  obtain ⟨_, _, _, _, h⟩ := clearUnpowered_island s; rw [h]
@[simp] theorem clearUnpowered_stopStart (s : State) : (clearUnpowered s).island.stopStart = s.island.stopStart := by
  obtain ⟨_, _, _, _, h⟩ := clearUnpowered_island s; rw [h]
@[simp] theorem clearUnpowered_grace (s : State) : (clearUnpowered s).island.grace = s.island.grace := by
  obtain ⟨_, _, _, _, h⟩ := clearUnpowered_island s; rw [h]

/-- Without VCORE_H the host holds nothing. -/
theorem offBlocks_hostOff {good : BitVec 14} (h : good.getLsbD 4 = false) (s : State) :
    (offBlocks good s).rat = {} ∧ (offBlocks good s).cores = vrep 48 {} := by
  simp only [offBlocks, h, Bool.false_eq_true, if_false]
  constructor <;> split <;> rfl
theorem clearUnpowered_hostOff {s : State} (h : s.island.good.getLsbD 4 = false) :
    (clearUnpowered s).rat = {} ∧ (clearUnpowered s).cores = vrep 48 {} := by
  obtain ⟨hrat, hcores⟩ := offBlocks_hostOff h s
  rw [← hrat, ← hcores, clearUnpowered_eq]
  constructor
  · unfold offServo offPorts offTraining; split <;> split <;> split <;> rfl
  · unfold offServo offPorts offTraining; split <;> split <;> split <;> rfl
/-- Without VSVO every axis is held. -/
theorem clearUnpowered_servoOff {s : State} (h : s.island.good.getLsbD 0 = false) :
    (clearUnpowered s).axes = vrep 32 {} := by
  rw [clearUnpowered_eq, offServo, if_neg (by simpa using h)]

/-! ### Drops of a group -/

@[simp] theorem dropGroup_store (why : DropWhy) (g : Nat) (s : State) : (dropGroup why g s).store = s.store := by
  simp [dropGroup, dropEnables]
@[simp] theorem dropGroup_loader (why : DropWhy) (g : Nat) (s : State) : (dropGroup why g s).loader = s.loader := by
  simp [dropGroup, dropEnables]
@[simp] theorem dropGroup_enabled (why : DropWhy) (g : Nat) (s : State) :
    (dropGroup why g s).island.enabled = s.island.enabled &&& ~~~(why.mask &&& railMask (· = g)) := by
  simp [dropGroup, dropEnables]
@[simp] theorem dropGroup_start (why : DropWhy) (g : Nat) (s : State) :
    (dropGroup why g s).island.start = s.island.start := by simp [dropGroup, dropEnables]
@[simp] theorem dropGroup_seqr (why : DropWhy) (g : Nat) (s : State) :
    (dropGroup why g s).island.seqr = .dropping why g false := by simp [dropGroup, dropEnables]
@[simp] theorem dropGroup_grace (why : DropWhy) (g : Nat) (s : State) :
    (dropGroup why g s).island.grace = s.island.grace := by simp [dropGroup, dropEnables]
/-- Every enable but those of the servo set is one of the rails'. -/
theorem mask_and_railMask {why : DropWhy} (h : why ≠ .trim) (m : BitVec 14) : why.mask &&& m = m := by
  have hall : why.mask = BitVec.allOnes 14 := by
    cases why
    case trim => exact absurd rfl h
    all_goals rfl
  rw [hall, BitVec.allOnes_and]
theorem nextDrop_congr {s t : State} (h : t.island.enabled = s.island.enabled) (why : DropWhy) (k : Nat) :
    nextDrop t why k = nextDrop s why k := by unfold nextDrop; rw [h]

end Sys2Proof.Machine
end

section
/-! SUPPORT. A start that fails: its log entry, and the rails dropped from the highest group down (R49, R52, R62, R67). -/
set_option Elab.async false
namespace Sys2Proof.Machine

/-- What a failure of a start in state `s` leaves: the start marked with the code, the log's entry, the first drop. -/
structure FailedStart (s : State) (r : StartRun) (g : Nat) (code : StartCode) (t : State) : Prop where
  start : t.island.start = some { r with failed := some code }
  seqr : t.island.seqr = .dropping .failedStart g false
  enabled : t.island.enabled = s.island.enabled &&& ~~~(railMask (· = g))
  logged : ∃ e, t.store.queue = s.store.queue ++ [.log e] ∧ e.kind = 2 ∧
    e.detail.toNat = code.code + 256 * r.step.toNat
  job : t.loader.job = .none

theorem code_lt (code : StartCode) : code.code < 8 := by cases code <;> decide
theorem startFail_failed {s : State} {r : StartRun} {g : Nat} (code : StartCode) (hstart : s.island.start = some r)
    (hnext : nextDrop s .failedStart 9 = some g) : FailedStart s r g code (startFail code s) := by
  have hmask : DropWhy.mask .failedStart &&& railMask (· = g) = railMask (· = g) := mask_and_railMask (by decide) _
  have hdrop : nextDrop ((startFailed code r s).modIsland fun i => { i with
      start := some { r with failed := some code } }) .failedStart 9 = some g := (nextDrop_congr rfl _ _).trans hnext
  have hfail : startFail code s = dropGroup .failedStart g ((startFailed code r s).modIsland fun i => { i with
      start := some { r with failed := some code } }) := by
    simp only [startFail, hstart, hdrop]
  rw [hfail]
  refine ⟨by simp, by simp, ?_, ?_, by simp [startFailed]⟩
  · rw [dropGroup_enabled, hmask]; rfl
  · rw [dropGroup_store]
    refine ⟨_, rfl, rfl, ?_⟩
    have := code_lt code
    have := r.step.isLt
    simp only [BitVec.toNat_ofNat]
    omega

/-- Settles O19. -/
theorem startFailuresDropRails : Obligations.StartFailuresDropRails := by
  intro s r g hr hstart hnext Fails
  have hfails {c : Instr} {code : StartCode} {u : State} (hexec : exec c s = .next (settle (startFail code u)))
      (hu : u.island.start = s.island.start) (hen : u.island.enabled = s.island.enabled) (hstore : u.store = s.store) :
      Fails c code := by
    obtain ⟨h1, h2, h3, ⟨e, h4, h5, h6⟩, h7⟩ :=
      startFail_failed (s := u) code (hu.trans hstart) ((nextDrop_congr hen _ _).trans hnext)
    refine ⟨_, e, hexec, ?_⟩
    rw [settle_island, settle_store, settle_loader]
    exact ⟨h1, h2, hen ▸ h3, hstore ▸ h4, h5, h6, h7⟩
  have hat {n : BitVec 4} {f : StartRun → State → State} {code : StartCode} {c : Instr}
      (hc : exec c s = doneIf (atStep s n) s (withRun f)) (hn : atStep s n = true) (hf : f r s = startFail code s) :
      Fails c code := by
    refine hfails (u := s) ?_ rfl rfl rfl
    rw [hc, doneIf_pos hn hr]
    simp [withRun, hstart, hf]
  refine ⟨fun n hstep hwait hfailed hidle hen hbad hgroup => ?_, fun n hat4 hkind hen hbad => ?_, fun h => ?_,
    fun h hkind => ?_, fun h x hok hreuse => ?_, fun h => ?_⟩
  · refine hfails (u := s) (doneIf_pos ?_ hr _) rfl rfl rfl
    simp only [hstart]
    rw [decide_eq_true hstep, hwait, hfailed, decide_eq_true hidle, hen, hbad, decide_eq_true hgroup]
    rfl
  · have hon : s.island.vaon = true := by
      simp only [atStep, Bool.and_eq_true] at hat4
      exact hat4.1.1
    have hramp : rampFails false r (railUp n s) = true := by
      simp only [atStep, hstart, Bool.and_eq_true, decide_eq_true_eq] at hat4
      obtain ⟨⟨-, hidle⟩, hstep, hfailed⟩ := hat4
      rw [rampFails, decide_eq_true hstep, decide_eq_true hkind, hfailed, railUp_island, decide_eq_true hidle]
      rfl
    refine hfails (u := railUp n s) ?_ (by simp) (by simp) (by simp)
    rw [exec, execSeqRailGood, doneIf_pos (by rw [hon, hen, hbad]; rfl) hr, railGood_eq]
    simp [withRun, hstart, hramp]
  · exact hfails (u := s) (doneIf_pos h hr _) rfl rfl rfl
  · exact hat rfl h (by simp [fusesSensed, hkind])
  · exact hat rfl h (by simp [trained, hok, hreuse])
  · exact hat rfl h (by simp [bistDone])

end Sys2Proof.Machine
end

section
/-! SUPPORT. VAON good and lost, and requests for a start (R11, R56, R58, R60, R66, R68, R407). -/
set_option Elab.async false
namespace Sys2Proof.Machine

/-! ### The store as a start's first step leaves it -/

@[simp] theorem loseBytes_island (f : Nat → Bool) (s : State) : (loseBytes f s).island = s.island := rfl
@[simp] theorem loseBytes_store (f : Nat → Bool) (s : State) : (loseBytes f s).store = s.store := rfl
@[simp] theorem loseBytes_rat (f : Nat → Bool) (s : State) : (loseBytes f s).rat = s.rat := rfl
@[simp] theorem loseBytes_console (f : Nat → Bool) (s : State) : (loseBytes f s).console = s.console := rfl
@[simp] theorem loseBytes_tap (f : Nat → Bool) (s : State) : (loseBytes f s).tap = s.tap := rfl
@[simp] theorem loseBytes_axes (f : Nat → Bool) (s : State) : (loseBytes f s).axes = s.axes := rfl
@[simp] theorem loseBytes_cores (f : Nat → Bool) (s : State) : (loseBytes f s).cores = s.cores := rfl

/-- A write that the journal performs leaves the island's working copy and the lost update alone. -/
theorem perform_keeps (it : Time) (t : Store) (w : JWrite) :
    (Store.perform it t w).work = t.work ∧ (Store.perform it t w).lost = t.lost := by
  cases w with
  | slot i v | slotData i v _ => by_cases h : i = 0 <;> simp [Store.perform, Store.release, Store.setSlot, Store.logged, h]
  | fw i v => by_cases h : i = 0 <;> simp [Store.perform, Store.release, Store.setFw, Store.logged, h]
  | block | training | trim | log => exact ⟨rfl, rfl⟩
theorem performAll_keeps (it : Time) (l : List JWrite) (t : Store) :
    (l.foldl (Store.perform it) t).work = t.work ∧ (l.foldl (Store.perform it) t).lost = t.lost := by
  induction l generalizing t with
  | nil => exact ⟨rfl, rfl⟩
  | cons w l ih => exact ⟨(ih _).1.trans (perform_keeps it t w).1, (ih _).2.trans (perform_keeps it t w).2⟩
@[simp] theorem journalFlush_work (s : State) : (journalFlush s).store.work = s.store.work :=
  (performAll_keeps _ _ _).1
@[simp] theorem journalFlush_lost (s : State) : (journalFlush s).store.lost = s.store.lost :=
  (performAll_keeps _ _ _).2
@[simp] theorem setBlock_work (f : StateBlock → StateBlock) (s : State) : (setBlock f s).store.work = f s.store.work := rfl
@[simp] theorem recover_lost (t : Store) (d : StoreDamage) (it : Time) : (t.recover d it).lost = none := rfl
/-- The working copy that a recovery leaves does not depend on its time. -/
theorem recover_work (t : Store) (d : StoreDamage) (it : Time) : (t.recover d it).work = (t.recover d).work := rfl

/-! ### The beginning of a start -/

/-- The marker RUNNING stands in the store before a start's first step ends (R71). -/
def startMarked (r : StartRun) (s : State) : State :=
  journalFlush (setBlock (fun b => { b with marker := .running })
    (s.modIsland fun i => { i with kind := r.kind, reused := false, start := some r, seqr := .idle }))
theorem startBegin_cold {t : BitVec 2} {coldReq boot : Bool} {k : StartKind} {s : State}
    (hk : startKind t coldReq boot s = k) (hcold : k = .cold ∨ k = .extended) (hdown : s.island.enabled = 0) :
    startBegin t coldReq boot s =
      coldStep3 { step := 2, kind := k, target := t } (startMarked { step := 2, kind := k, target := t } s) := by
  have hdrop : nextDrop (startMarked { step := 2, kind := k, target := t } s) .restart 9 = none := by
    have hsame : (startMarked { step := 2, kind := k, target := t } s).island.enabled = s.island.enabled := rfl
    rw [nextDrop_congr hsame]
    simp [nextDrop, hdown]
  have hnot : k ≠ .raise := by rintro rfl; simp at hcold
  unfold startMarked at hdrop ⊢
  unfold startBegin
  dsimp only
  rw [hk, if_neg hnot, if_pos (by simpa using hcold), hdrop]
@[simp] theorem startMarked_island (r : StartRun) (s : State) : (startMarked r s).island =
    { s.island with kind := r.kind, reused := false, start := some r, seqr := .idle } := rfl
@[simp] theorem startMarked_work (r : StartRun) (s : State) :
    (startMarked r s).store.work = { s.store.work with marker := .running } := journalFlush_work _
@[simp] theorem startMarked_lost (r : StartRun) (s : State) : (startMarked r s).store.lost = s.store.lost :=
  journalFlush_lost _
@[simp] theorem startMarked_console (r : StartRun) (s : State) : (startMarked r s).console = s.console := rfl
@[simp] theorem startMarked_rat (r : StartRun) (s : State) : (startMarked r s).rat = s.rat := rfl
@[simp] theorem startMarked_axes (r : StartRun) (s : State) : (startMarked r s).axes = s.axes := rfl
@[simp] theorem startMarked_fbk (r : StartRun) (s : State) : (startMarked r s).fbk = s.fbk := rfl
@[simp] theorem startMarked_can (r : StartRun) (s : State) : (startMarked r s).can = s.can := rfl
@[simp] theorem startMarked_time (r : StartRun) (s : State) : (startMarked r s).time = s.time := rfl
@[simp] theorem coldStep3_start (r : StartRun) (s : State) : (coldStep3 r s).island.start = some { r with step := 3 } := rfl
@[simp] theorem coldStep3_mode (r : StartRun) (s : State) : (coldStep3 r s).island.mode = .serviceOnly := rfl
@[simp] theorem coldStep3_vaon (r : StartRun) (s : State) : (coldStep3 r s).island.vaon = s.island.vaon := rfl
@[simp] theorem coldStep3_keys (r : StartRun) (s : State) : (coldStep3 r s).island.keys = s.island.keys := rfl
@[simp] theorem coldStep3_hours (r : StartRun) (s : State) : (coldStep3 r s).island.hours = s.island.hours := rfl
@[simp] theorem coldStep3_store (r : StartRun) (s : State) : (coldStep3 r s).store = s.store := rfl
@[simp] theorem coldStep3_console (r : StartRun) (s : State) : (coldStep3 r s).console = s.console := rfl
@[simp] theorem coldStep3_rat (r : StartRun) (s : State) : (coldStep3 r s).rat = s.rat := rfl

/-- A start's first step recovers the store, unless it is a raise (R60, R61). -/
def startStore (rais : Bool) (d : StoreDamage) (s : State) : State :=
  if rais then s.modIsland fun i => { i with recovDamaged := false } else
    let t := s.modStore fun t => t.recover d (islandTime s)
    t.modIsland fun i => { i with recovDamaged := t.store.recov = 3 }
/-- The marker that the store names is noted. -/
def markNoted (s : State) : State := s.modIsland fun i => { i with dis := s.store.work.marker = .disorderly }
/-- The decision of a start's first step: a latched start, one to service-only mode, or its beginning (R60, R68). -/
def startDecided (target : Option (BitVec 2)) (coldReq boot : Bool) (s : State) : State :=
  let t := target.getD s.store.work.target
  let idle := (markNoted s).modIsland fun i => { i with kind := startKind t coldReq boot (markNoted s), reused := false }
  if (markNoted s).store.work.latch then startResult .latched idle
  else if t = 0 then startResult .ok idle
  else startBegin t coldReq boot (markNoted s)
/-- A raise (R58). -/
def raising (target : Option (BitVec 2)) (coldReq : Bool) (s : State) : Bool :=
  s.island.mode = .servoOnly && target.getD s.store.work.target = 2 && !coldReq && !s.island.prevFailed
theorem startStep1_eq (target : Option (BitVec 2)) (coldReq boot : Bool) (d : StoreDamage) (s : State) :
    startStep1 target coldReq boot d s =
      startDecided target coldReq boot (startStore (raising target coldReq s && !boot) d s) := by
  unfold startStep1 startDecided startStore raising markNoted
  rfl

/-- The store as a start that is no raise finds it. -/
def recovered (d : StoreDamage) (s : State) : State := markNoted (startStore false d s)
theorem recovered_eq (d : StoreDamage) (s : State) : recovered d s =
    ((s.modStore fun t => t.recover d (islandTime s)).modIsland fun i => { i with
      recovDamaged := (s.store.recover d (islandTime s)).recov = 3 }).modIsland fun i => { i with
      dis := (s.store.recover d).work.marker = .disorderly } := by
  unfold recovered markNoted startStore
  rw [if_neg Bool.false_ne_true]
  rfl
theorem recovered_island (d : StoreDamage) (s : State) :
    ∃ x y, (recovered d s).island = { s.island with recovDamaged := x, dis := y } := by
  rw [recovered_eq, modIsland_island, modIsland_island, modStore_island]
  exact ⟨_, _, rfl⟩
theorem recovered_work (d : StoreDamage) (s : State) : (recovered d s).store.work = (s.store.recover d).work := rfl
theorem recovered_lost (d : StoreDamage) (s : State) : (recovered d s).store.lost = none := rfl
theorem startStep1_begins {target : Option (BitVec 2)} {coldReq boot : Bool} {d : StoreDamage} {s : State}
    (hcond : (boot || coldReq) = true) (hlatch : (s.store.recover d).work.latch = false)
    (ht : target.getD (s.store.recover d).work.target ≠ 0) :
    startStep1 target coldReq boot d s =
      startBegin (target.getD (s.store.recover d).work.target) coldReq boot (recovered d s) := by
  have hrec : (raising target coldReq s && !boot) = false := by
    cases coldReq <;> cases boot <;> simp at hcond <;> simp [raising]
  rw [startStep1_eq, hrec, startDecided]
  rw [if_neg (by rw [← recovered, recovered_work, hlatch]; simp),
    if_neg (show target.getD (startStore false d s).store.work.target ≠ 0 from ht)]
  rfl
/-- A start that a boot decides not to begin. -/
def notBegun (target : Option (BitVec 2)) (d : StoreDamage) (s : State) : State :=
  (recovered d s).modIsland fun i => { i with
    kind := startKind (target.getD (s.store.recover d).work.target) false true (recovered d s), reused := false }
theorem startStep1_latched {target : Option (BitVec 2)} {d : StoreDamage} {s : State}
    (hlatch : (s.store.recover d).work.latch = true) :
    startStep1 target false true d s = startResult .latched (notBegun target d s) := by
  rw [startStep1_eq, Bool.not_true, Bool.and_false, startDecided]
  rw [if_pos (by rw [← recovered, recovered_work, hlatch])]
  rfl
theorem startStep1_serviceOnly {target : Option (BitVec 2)} {d : StoreDamage} {s : State}
    (hlatch : (s.store.recover d).work.latch = false) (ht : target.getD (s.store.recover d).work.target = 0) :
    startStep1 target false true d s = startResult .ok (notBegun target d s) := by
  rw [startStep1_eq, Bool.not_true, Bool.and_false, startDecided]
  rw [if_neg (by rw [← recovered, recovered_work, hlatch]; simp),
    if_pos (show target.getD (startStore false d s).store.work.target = 0 from ht)]
  rfl
/-- Kind of a start that is cold on request or at boot (R61, R62). -/
theorem startKind_cold {t : BitVec 2} {coldReq boot : Bool} {s : State} (hcond : (boot || coldReq) = true) :
    startKind t coldReq boot s = .cold ∨ startKind t coldReq boot s = .extended := by
  unfold startKind
  dsimp only
  rw [hcond]
  simp only [Bool.true_or, Bool.not_true, Bool.and_false, Bool.false_and, Bool.false_eq_true, if_false]
  split
  · exact .inr rfl
  · exact .inl rfl

/-- A start that is cold on request or at boot, no rail being up, is at step 3 in service-only mode, RUNNING in the store. -/
structure ColdBegun (t : BitVec 2) (kind : StartKind) (s u : State) : Prop where
  start : ∃ r, u.island.start = some r ∧ r.step = 3 ∧ r.target = t ∧ r.kind = kind
  mode : u.island.mode = .serviceOnly
  vaon : u.island.vaon = s.island.vaon
  keys : u.island.keys = s.island.keys
  hours : u.island.hours = s.island.hours
  marker : u.store.work.marker = .running
  lost : u.store.lost = none
  console : u.console = s.console
  rat : u.rat = s.rat
theorem startStep1_coldBegun {target : Option (BitVec 2)} {coldReq boot : Bool} {d : StoreDamage} {s : State}
    (hcond : (boot || coldReq) = true) (hlatch : (s.store.recover d).work.latch = false)
    (ht : target.getD (s.store.recover d).work.target ≠ 0) (hdown : s.island.enabled = 0) :
    ColdBegun (target.getD (s.store.recover d).work.target)
      (startKind (target.getD (s.store.recover d).work.target) coldReq boot (recovered d s)) s
      (startStep1 target coldReq boot d s) := by
  obtain ⟨x, y, hisland⟩ := recovered_island d s
  rw [startStep1_begins hcond hlatch ht, startBegin_cold rfl (startKind_cold hcond) (by rw [hisland, hdown])]
  refine ⟨⟨_, coldStep3_start _ _, rfl, rfl, rfl⟩, coldStep3_mode _ _, ?_, ?_, ?_, ?_, ?_, ?_, ?_⟩
  · simp [hisland]
  · simp [hisland]
  · simp [hisland]
  · simp
  · rw [coldStep3_store, startMarked_lost, recovered_lost]
  · simp [recovered_eq]
  · simp [recovered_eq]

/-! ### VAON good -/

/-- The island as VAON finds it: its fuses and hours, and nothing else. -/
def vaonFoundIsland (s : State) : Island :=
  { vaon := true, refclk := s.island.refclk, keys := s.island.keys, hours := s.island.hours, hourTq := s.island.hourTq }
/-- The part as VAON finds it, before its start begins. -/
def vaonFound (s : State) : State :=
  clearUnpowered { s with island := vaonFoundIsland s, console := {}, loader := {}, power := {} }
/-- A command whose effect leaves no access waiting ends with it. -/
theorem doneIf_unheld {c : Bool} {s : State} {f : State → State} (h : c = true) (hwaits : (f s).rat.waits = false) :
    doneIf c s f = .next (settle (f s)) := by
  rw [doneIf, if_pos h, doneFrom, hwaits]
  simp [done]
theorem vaonFound_island (s : State) : ∃ d tr c p, (vaonFound s).island = { vaonFoundIsland s with
    ddrSize := d, trained := tr, count := c, pll := p } := clearUnpowered_island _
theorem vaonFound_rat (s : State) : (vaonFound s).rat = {} := (clearUnpowered_hostOff (by simp [vaonFoundIsland])).1
theorem vaonFound_store (s : State) : (vaonFound s).store = s.store := clearUnpowered_store _
theorem vaonFound_console (s : State) : (vaonFound s).console = {} := clearUnpowered_console _
theorem vaonGood_eq (d : StoreDamage) (s : State) : vaonGood d s = startStep1 none false true d (vaonFound s) := rfl
/-- What VAON becoming good leaves, however the start is decided. -/
structure Booted (s u : State) : Prop where
  vaon : u.island.vaon = true
  mode : u.island.mode = .serviceOnly
  keys : u.island.keys = s.island.keys
  hours : u.island.hours = s.island.hours
  locked : u.console.locked = false
  baud : u.console.baud = 0
  xfer : u.console.xfer = none
  mp : u.console.mp = vrep 8 .off
  lost : u.store.lost = none
  rat : u.rat = {}
@[simp] theorem startCode_island (c : StartCode) (s : State) :
    (startCode c s).island = { s.island with code := c, tag := s.island.tag.bump, hasResult := true } := rfl
@[simp] theorem startCode_store (c : StartCode) (s : State) : (startCode c s).store = s.store := rfl
/-- Outside full mode a start's result sends no event. -/
theorem startResult_quiet {s : State} (h : s.island.mode ≠ .full) (c : StartCode) :
    startResult c s = say (.start s.island.mode c) (startCode c s) := by
  have hquiet : (startCode c s).island.mode ≠ .full := h
  unfold startResult
  dsimp only
  rw [decide_eq_false hquiet, Bool.and_false, if_neg Bool.false_ne_true]
  rfl
/-- A boot that begins no start leaves its result. -/
theorem booted_notBegun (d : StoreDamage) (s : State) (c : StartCode) :
    Booted s (startResult c (notBegun none d (vaonFound s))) ∧
      (startResult c (notBegun none d (vaonFound s))).island.code = c ∧
      (startResult c (notBegun none d (vaonFound s))).island.start = none := by
  obtain ⟨_, _, hrec⟩ := recovered_island d (vaonFound s)
  obtain ⟨_, _, _, _, hfound⟩ := vaonFound_island s
  have hmode : (notBegun none d (vaonFound s)).island.mode = .serviceOnly := by
    rw [notBegun, modIsland_island, hrec, hfound]; rfl
  have hcons : (notBegun none d (vaonFound s)).console = {} := by simp [notBegun, recovered_eq, vaonFound_console]
  rw [startResult_quiet (by rw [hmode]; decide)]
  have hsaid := say_console_frame (.start (notBegun none d (vaonFound s)).island.mode c)
    (startCode c (notBegun none d (vaonFound s)))
  rw [show (startCode c (notBegun none d (vaonFound s))).console = {} from hcons] at hsaid
  refine ⟨⟨?_, ?_, ?_, ?_, ?_, ?_, ?_, ?_, ?_, ?_⟩, ?_, ?_⟩
  · simp [notBegun, hrec, hfound, vaonFoundIsland]
  · simp [hmode]
  · simp [notBegun, hrec, hfound, vaonFoundIsland]
  · simp [notBegun, hrec, hfound, vaonFoundIsland]
  · rw [hsaid]
  · rw [hsaid]
  · rw [hsaid]
  · rw [hsaid]
  · rw [say_store, startCode_store, notBegun, modIsland_store, recovered_lost]
  · rw [say_rat]; simp [startCode, notBegun, recovered_eq, vaonFound_rat]
  · simp
  · simp [notBegun, hrec, hfound, vaonFoundIsland]
theorem booted_begun {d : StoreDamage} {s : State} (hlatch : (s.store.recover d).work.latch = false)
    (ht : (s.store.recover d).work.target ≠ 0) : Booted s (vaonGood d s) ∧ (vaonGood d s).store.work.marker = .running ∧
    ∃ r, (vaonGood d s).island.start = some r ∧ r.step = 3 ∧ r.target = (s.store.recover d).work.target ∧
      r.kind = if (s.store.recover d).work.marker = .orderly then .cold else .extended := by
  obtain ⟨x, y, hrec⟩ := recovered_island d (vaonFound s)
  obtain ⟨_, _, _, _, hfound⟩ := vaonFound_island s
  have hkind (t : BitVec 2) : startKind t false true (recovered d (vaonFound s)) =
      if (s.store.recover d).work.marker = .orderly then .cold else .extended := by
    unfold startKind
    rw [recovered_work, vaonFound_store]
    cases (s.store.recover d).work.marker <;> simp
  obtain ⟨⟨r, hstart, hstep, htarget, hk⟩, hmode, hvaon, hkeys, hhours, hmarker, hlost, hconsole, hrat⟩ :=
    startStep1_coldBegun (target := none) (coldReq := false) (boot := true) (d := d) (s := vaonFound s) rfl
      (by rw [vaonFound_store, hlatch]) (by rw [vaonFound_store]; exact ht) (by rw [hfound]; rfl)
  rw [vaonFound_store] at htarget hk
  rw [hkind] at hk
  rw [vaonFound_console] at hconsole
  rw [← vaonGood_eq] at *
  refine ⟨⟨?_, hmode, ?_, ?_, ?_, ?_, ?_, ?_, hlost, hrat.trans (vaonFound_rat s)⟩, hmarker, r, hstart, hstep, htarget, hk⟩
  · rw [hvaon, hfound]; rfl
  · rw [hkeys, hfound]; rfl
  · rw [hhours, hfound]; rfl
  all_goals rw [hconsole]

theorem booted (d : StoreDamage) (s : State) : Booted s (vaonGood d s) := by
  cases hlatch : (s.store.recover d).work.latch with
  | true =>
    rw [vaonGood_eq, startStep1_latched (by rw [vaonFound_store, hlatch])]
    exact (booted_notBegun d s _).1
  | false =>
    by_cases ht : (s.store.recover d).work.target = 0
    · rw [vaonGood_eq, startStep1_serviceOnly (by rw [vaonFound_store, hlatch]) (by rw [vaonFound_store]; exact ht)]
      exact (booted_notBegun d s _).1
    · exact (booted_begun hlatch ht).1

/-! ### VAON lost -/

@[simp] theorem lockRelease_store (n : Nat) (s : State) : (lockRelease n s).store = s.store := by
  unfold lockRelease; split
  · simp [lockEvent, lockGive]
  · rfl
@[simp] theorem lockRelease_islandTime (n : Nat) (s : State) : islandTime (lockRelease n s) = islandTime s := by
  unfold lockRelease islandTime; split
  · simp [lockEvent, lockGive]
  · rfl
/-- The part as VAON's loss leaves it, before its blocks lose their contents. -/
def vaonGone (p : LossPoint) (s : State) : State :=
  { (lockRelease 2 s).modStore fun t => t.powerLoss (islandTime s) p with
    island := { vaon := false, refclk := s.island.refclk, keys := s.island.keys, hours := s.island.hours,
                hourTq := s.island.hourTq }
    console := {}, loader := {}, power := {}, tap := {}, poison := [] }
theorem vaonLoss_eq (p : LossPoint) (s : State) :
    vaonLoss p s = loseBytes (fun _ => true) (clearUnpowered (vaonGone p s)) := by
  rw [vaonGone, ← lockRelease_islandTime 2 s, vaonLoss]
/-- What the loss of VAON leaves (R47, R407, R428). -/
theorem exec_vaonLoss {s : State} (p : LossPoint) (hon : s.island.vaon = true) :
    ∃ t, exec (.vaonLoss p) s = .next t ∧ t.island.vaon = false ∧ t.island.enabled = 0 ∧ t.island.good = 0 ∧
      t.island.mode = .serviceOnly ∧ t.island.keys = s.island.keys ∧ t.island.hours = s.island.hours ∧
      t.console = {} ∧ t.tap = {} ∧ t.store = s.store.powerLoss (islandTime s) p ∧ (∀ a, (vget t.axes a).st = .held) ∧
      (∀ n, (vget t.cores n).held = true) := by
  have hoff (k : Nat) : (vaonGone p s).island.good.getLsbD k = false := by simp [vaonGone]
  obtain ⟨hrat, hcores⟩ := clearUnpowered_hostOff (hoff 4)
  have haxes := clearUnpowered_servoOff (hoff 0)
  have hheld : ∀ n, (vget (settle (vaonLoss p s)).cores n).held = true := by
    intro n
    obtain ⟨b, hb⟩ := sameButImsic_settle (vaonLoss p s) n
    rw [hb, vaonLoss_eq, loseBytes_cores, hcores, vget_vrep]
  obtain ⟨_, _, _, _, hisland⟩ := clearUnpowered_island (vaonGone p s)
  refine ⟨_, doneIf_unheld hon (by rw [vaonLoss_eq, loseBytes_rat, hrat]), ?_⟩
  rw [settle_island, settle_console, settle_tap, settle_store, settle_axes]
  rw [vaonLoss_eq] at hheld ⊢
  rw [loseBytes_island, loseBytes_console, loseBytes_tap, loseBytes_store, loseBytes_axes, haxes, hisland]
  refine ⟨rfl, rfl, rfl, rfl, rfl, rfl, clearUnpowered_console _, clearUnpowered_tap _, ?_, ?_, hheld⟩
  · rw [clearUnpowered_store]; simp [vaonGone]
  · intro a; rw [vget_vrep]

/-! ### Requests while VAON is good -/

/-- A request written in ELV_START_CTRL, or SYS_RESET_N, for full mode: the register's fields aside, one request. -/
def asked (tg : Option (BitVec 2)) (cold : Bool) (reg : BitVec 2) (s : State) : State :=
  startRequest tg false (s.modIsland fun i => { i with cold := cold, target := reg })
theorem asked_of_requests {s : State} {Q : State → Prop}
    (h : ∀ tg cold reg, tg.getD s.store.work.target = 2 → Q (settle (asked tg cold reg s))) :
    (∃ t, exec .sysResetN s = .next t ∧ (s.store.work.target = 2 → Q t)) ∧
      ∀ w : Master, Admits w (elvBase + 0x108) s → ∃ t, exec (.elvStartGo w false 2) s = .next t ∧ Q t := by
  refine ⟨⟨_, rfl, fun ht => h none s.island.cold s.island.target ht⟩, fun w hw => ⟨_, ?_, h (some 2) false 2 rfl⟩⟩
  rw [exec, execElvStartGo, regWriteAt_of_admits hw, done]
  rfl
theorem asked_latched {s : State} {tg : Option (BitVec 2)} {cold : Bool} {reg : BitVec 2} (hon : s.island.vaon = true)
    (hlatch : s.store.work.latch = true) :
    asked tg cold reg s = startCode .latched (s.modIsland fun i => { i with cold := cold, target := reg }) := by
  simp [asked, startRequest, startAnswer, hon, hlatch]
theorem asked_busy {s : State} {tg : Option (BitVec 2)} {cold : Bool} {reg : BitVec 2} (hon : s.island.vaon = true)
    (hlatch : s.store.work.latch = false) (hbusy : starting s = true) : asked tg cold reg s =
      (s.modIsland fun i => { i with cold := cold, target := reg }).modIsland fun i => { i with ign := satInc i.ign } := by
  have hbusy' : starting (s.modIsland fun i => { i with cold := cold, target := reg }) = true := hbusy
  simp [asked, startRequest, startAnswer, hon, hlatch, hbusy']
/-- A raise: the marker written, VIO18's group enabled (R58). -/
def raised (s : State) : State :=
  raiseGroup { step := 2, kind := .raise, target := 2 } 2
    (startMarked { step := 2, kind := .raise, target := 2 } (markNoted (s.modIsland fun i => { i with recovDamaged := false })))
theorem startRequest_raises {s : State} {tg : Option (BitVec 2)} (ht : tg.getD s.store.work.target = 2)
    (hon : s.island.vaon = true) (hlatch : s.store.work.latch = false) (hidle : starting s = false)
    (hmode : s.island.mode = .servoOnly) (hprev : s.island.prevFailed = false) (hmark : s.store.work.marker ≠ .disorderly) :
    startRequest tg false s = raised s := by
  have hanswer : startAnswer s tg = .ok := by simp [startAnswer, ht, hon, hlatch, hidle]
  have hraise : raising tg false s = true := by simp [raising, ht, hmode, hprev]
  have hkind : startKind 2 false false (markNoted (s.modIsland fun i => { i with recovDamaged := false })) = .raise := by
    simp [startKind, markNoted, hmode, hprev, hmark]
  have hnext : nextGroup { step := 2, kind := .raise, target := 2 } 0 = some 2 := by decide
  rw [startRequest, hanswer]
  simp only
  rw [startStep1_eq, hraise, startDecided, startStore, Bool.not_false, Bool.and_self, if_pos rfl]
  rw [if_neg (by simp [markNoted, hlatch]), if_neg (by simp [ht]), modIsland_store, ht, startBegin]
  simp only [hkind, if_true, raiseFirst, hnext]
  rfl
/-- What a raise leaves. -/
theorem raised_spec (s : State) :
    (raised s).island.start = some { step := 4, kind := .raise, target := 2, group := 2 } ∧
      (raised s).island.enabled = s.island.enabled ||| (railMask (· = 2) &&& ~~~servoRails) ∧
      (raised s).island.mode = s.island.mode ∧ (raised s).store.work = { s.store.work with marker := .running } ∧
      (raised s).axes = s.axes ∧ (raised s).fbk = s.fbk ∧ (raised s).can = s.can ∧ (raised s).time = s.time := by
  simp [raised, raiseGroup_eq, wantedRails, markNoted, BitVec.and_comm]
/-- The retry of a failed start whose rails are down (R67). -/
theorem exec_startRetry {s : State} {r : StartRun} (hretry : s.island.seqr = .retry) (hstart : s.island.start = some r) :
    exec .startRetry s = .next (settle (startStep1 (some r.target) true false {}
      (s.modIsland fun i => { i with seqr := .idle, start := none }))) := by
  simp only [exec, execStartRetry, hretry, hstart, done]

/-- Kind of a start that is cold on request (R61, R62). -/
theorem startKind_onRequest (t : BitVec 2) (s : State) :
    startKind t true false s = if s.store.work.marker = .disorderly then .extended else .cold := by
  unfold startKind
  cases s.store.work.marker <;> simp

/-- Settles O20. -/
theorem vaonAndRequests : Obligations.VaonAndRequests := by
  refine ⟨⟨fun s d hoff _ => ?_, fun s p hon => exec_vaonLoss p hon⟩, fun s => ⟨rfl, fun hok => ?_⟩, fun s hon => ?_⟩
  · obtain ⟨hvaon, hmode, hkeys, hhours, hlocked, hbaud, hxfer, hmp, hlost, hrat⟩ := booted d s
    refine ⟨_, doneIf_unheld (by rw [hoff]; rfl) (by rw [hrat]), ?_⟩
    rw [settle_island, settle_console, settle_store]
    refine ⟨hvaon, hmode, hkeys, hhours, hlocked, hbaud, hxfer, hmp, hlost, fun hlatch => ?_, fun hlatch ht => ?_⟩
    · rw [vaonGood_eq, startStep1_latched (by rw [vaonFound_store, hlatch])]
      exact (booted_notBegun d s _).2
    · obtain ⟨-, hmarker, r, hstart, hstep, htarget, hkind⟩ := booted_begun hlatch ht
      exact ⟨r, hstart, hstep, htarget, hkind, hmarker⟩
  · rw [startRequest, hok]
  · refine ⟨fun hlatch => asked_of_requests fun tg cold reg _ => ?_,
      fun hlatch hbusy => asked_of_requests fun tg cold reg _ => ?_,
      fun hlatch hidle hmode hprev hmark => asked_of_requests fun tg cold reg ht => ?_,
      fun r hretry hstart hdown hlatch ht => ?_⟩
    · rw [asked_latched hon hlatch]
      simp
    · rw [asked_busy hon hlatch hbusy]
      simp
    · have hraised : asked tg cold reg s = raised (s.modIsland fun i => { i with cold := cold, target := reg }) :=
        startRequest_raises ht hon hlatch hidle hmode hprev hmark
      obtain ⟨hstart, hen, hm, hwork, haxes, hfbk, hcan, htime⟩ :=
        raised_spec (s.modIsland fun i => { i with cold := cold, target := reg })
      rw [hraised, settle_island, settle_store, settle_axes, settle_fbk, settle_can, settle_time]
      exact ⟨hstart, hen, hm.trans hmode, hwork, haxes, hfbk, hcan, htime⟩
    · obtain ⟨⟨q, hq, hstep, htarget, hkind⟩, hm, -, -, -, hmarker, -⟩ := startStep1_coldBegun (target := some r.target) (coldReq := true)
        (boot := false) (d := {}) (s := s.modIsland fun i => { i with seqr := .idle, start := none }) rfl hlatch ht hdown
      refine ⟨_, exec_startRetry hretry hstart, ?_⟩
      rw [settle_island, settle_store]
      exact ⟨hm, hmarker, q, hq, hstep, htarget, hkind.trans (startKind_onRequest _ _)⟩

end Sys2Proof.Machine
end

section
/-! SUPPORT. The state of every axis after one axis changes its state (R239, R244, R269). -/
set_option Elab.async false
namespace Sys2Proof.Machine

/-- The state of an axis. -/
def stOf (s : State) (a : Fin 32) : AxState := (vget s.axes a).st

theorem stOf_congr {s t : State} (h : t.axes = s.axes) (a : Fin 32) : stOf t a = stOf s a := by rw [stOf, h, stOf]
theorem stOf_modAxis_keep {f : Axis → Axis} (hf : ∀ x, (f x).st = x.st) (a b : Fin 32) (s : State) :
    stOf (s.modAxis a f) b = stOf s b := by
  simp only [stOf, modAxis_axes]
  rcases eq_or_ne b a with rfl | hne
  · rw [vget_vmod_same, hf]
  · rw [vget_vmod_other (h := hne)]
@[simp] theorem stOf_rephase (e : Fin 8) (s : State) (b : Fin 32) : stOf (rephase e s) b = stOf s b := by
  unfold rephase
  split
  · rfl
  · refine foldl_keep (stOf · b) _ (fun s a => ?_) _ _
    exact stOf_modAxis_keep (by intro x; rfl) a b s
/-- An axis that moves to a state is in it; the others keep theirs. -/
theorem stOf_axisTo (a b : Fin 32) (new : AxState) (cause rank port : Nat) (s : State) :
    stOf (axisTo a new cause rank port s) b = if b = a then new else stOf s b := by
  unfold axisTo
  dsimp only
  split
  next h =>
    rcases eq_or_ne b a with rfl | hne
    · rw [if_pos rfl, stOf, h]
    · rw [if_neg hne]
  next h =>
    have hmoved (x : Fid) (k : BitVec 8) (w : BitVec 128) (f : Axis → Axis) (hf : ∀ x, (f x).st = new) :
        stOf (emit x k w (s.modAxis a f)) b = if b = a then new else stOf s b := by
      rw [stOf_congr (emit_axes _ _ _ _), stOf, modAxis_axes]
      rcases eq_or_ne b a with rfl | hne
      · rw [if_pos rfl, vget_vmod_same, hf]
      · rw [if_neg hne, vget_vmod_other (h := hne), stOf]
    have hsaid (l : ULine) (t : State) : stOf (say l t) b = stOf t b := stOf_congr (say_axes l t) b
    split <;> split <;> simp only [hsaid, stOf_rephase, hmoved, implies_true]
theorem stOf_safeAxis (a b : Fin 32) (s : State) :
    stOf (safeAxis a s) b = if b = a ∧ stOf s a ≠ .held then .safe else stOf s b := by
  unfold safeAxis
  split
  next h => rw [if_neg (fun hb => hb.2 h)]
  next h => rw [stOf_axisTo]; simp [stOf, h]
/-- Axes of a state in `P` made safe one after the other. -/
theorem stOf_foldl_safe {P : AxState → Prop} [DecidablePred P] {g : State → Fin 32 → State}
    (hg : ∀ s a b, stOf (g s a) b = if b = a ∧ P (stOf s a) then .safe else stOf s b) (l : List (Fin 32)) (s : State)
    (b : Fin 32) : stOf (l.foldl g s) b = if b ∈ l ∧ P (stOf s b) then .safe else stOf s b := by
  induction l generalizing s with
  | nil => simp
  | cons a l ih =>
    rw [List.foldl_cons, ih, hg]
    by_cases hb : b = a
    · subst hb; by_cases hh : P (stOf s b) <;> simp [hh]
    · simp [hb]

end Sys2Proof.Machine
end

section
/-! SUPPORT. An orderly power-down (R69): its request, the grace wait, the groups dropped from the highest down. -/
set_option Elab.async false
namespace Sys2Proof.Machine

/-! ### The request -/

/-- Running axes leave their running states. -/
def axesStopped (s : State) : State :=
  (List.finRange 32).foldl (fun s a => if (vget s.axes a).st.runs then axisTo a .safe 0 1 0 s else s) s
def cansStopped (s : State) : State := (List.finRange 4).foldl (fun s k => s.modCan k fun c => { c with stopTx := true }) s
theorem pdnBegin_eq (asStart : Bool) (s : State) : pdnBegin asStart s =
    ((cansStopped (axesStopped (emit islandFid 0x22 (pl 16 s.island.grace.toNat) s))).modDsp fun d =>
      { d with blank := true }).modIsland fun i => { i with stopStart := asStart, seqr := .grace } := rfl

theorem stOf_axesStopped (s : State) (b : Fin 32) :
    stOf (axesStopped s) b = if (stOf s b).runs = true then .safe else stOf s b := by
  rw [axesStopped, stOf_foldl_safe (P := fun x => x.runs = true)]
  · simp
  · intro s a b
    split
    next h => rw [stOf_axisTo]; simp [stOf, h]
    next h => rw [if_neg (fun hb => h hb.2)]
theorem runs_axesStopped (s : State) (b : Fin 32) : (stOf (axesStopped s) b).runs = false := by
  rw [stOf_axesStopped]
  split
  · rfl
  next h => simpa using h
@[simp] theorem axesStopped_island (s : State) : (axesStopped s).island = s.island :=
  foldl_keep (·.island) _ (by intro s a; split <;> simp) _ _
@[simp] theorem cansStopped_island (s : State) : (cansStopped s).island = s.island :=
  foldl_keep (·.island) _ (by intro s a; rfl) _ _
@[simp] theorem cansStopped_axes (s : State) : (cansStopped s).axes = s.axes :=
  foldl_keep (·.axes) _ (by intro s a; rfl) _ _
theorem stopTx_foldl (k : Fin 4) (l : List (Fin 4)) (s : State) (h : k ∈ l ∨ (vget s.can k).stopTx = true) :
    (vget (l.foldl (fun s k => s.modCan k fun c => { c with stopTx := true }) s).can k).stopTx = true := by
  induction l generalizing s with
  | nil => simpa using h
  | cons j l ih =>
    rw [List.foldl_cons]
    apply ih
    rcases eq_or_ne k j with rfl | hne
    · right; simp
    · rcases h with h | h
      · left; simpa [hne] using h
      · right; simpa [hne] using h
theorem stopTx_cansStopped (s : State) (k : Fin 4) : (vget (cansStopped s).can k).stopTx = true :=
  stopTx_foldl k _ s (.inl (List.mem_finRange k))

/-- A power-down begun: the grace wait runs, display and transmission have stopped, no axis runs (R69). -/
structure PdnBegun (s t : State) : Prop where
  seqr : t.island.seqr = .grace
  grace : t.island.grace = s.island.grace
  blank : t.dsp.blank = true
  stopTx : ∀ k, (vget t.can k).stopTx = true
  runs : ∀ a, (vget t.axes a).st.runs = false
  enabled : t.island.enabled = s.island.enabled
theorem stopRequest_begun {s : State} (hon : s.island.vaon = true) (hidle : starting s = false)
    (hmode : s.island.mode ≠ .serviceOnly) (hgrace : s.island.grace ≠ 0) : PdnBegun s (stopRequest s) := by
  have hgrace' : (pdnBegin false s).island.grace ≠ 0 := by rw [pdnBegin_eq]; simpa using hgrace
  have hbegin : stopRequest s = pdnBegin false s := by
    rw [stopRequest, hon, hidle, decide_eq_false hmode, pdnRequest]
    simp only [Bool.not_true, Bool.or_false, Bool.false_eq_true, if_false]
    rw [if_neg hgrace']
  rw [hbegin, pdnBegin_eq]
  refine ⟨rfl, by simp, rfl, fun k => ?_, fun a => ?_, by simp⟩
  · simp only [modIsland_can, modDsp_can]
    exact stopTx_cansStopped _ k
  · simp only [modIsland_axes, modDsp_axes, cansStopped_axes]
    exact runs_axesStopped _ a

/-! ### The drops -/

theorem pdnDrop_drops {s : State} {g : Nat} (hnext : nextDrop s .powerDown 9 = some g) :
    (pdnDrop s).island.seqr = .dropping .powerDown g false ∧
      (pdnDrop s).island.enabled = s.island.enabled &&& ~~~(railMask (· = g)) ∧ (pdnDrop s).island.grace = s.island.grace := by
  have hmask : DropWhy.mask .powerDown &&& railMask (· = g) = railMask (· = g) := mask_and_railMask (by decide) _
  simp only [pdnDrop, hnext]
  refine ⟨by simp, ?_, by simp⟩
  rw [dropGroup_enabled, hmask]
theorem railDecayed_waits {s : State} {why : DropWhy} {g k : Nat} (hdrop : s.island.seqr = .dropping why g false)
    (hnext : nextDrop s why g = some k) :
    railDecayed s = (clearUnpowered s).modIsland fun i => { i with seqr := .dropping why g true } := by
  have hnext' : nextDrop (clearUnpowered s) why g = some k := (nextDrop_congr (by simp) _ _).trans hnext
  simp only [railDecayed, hdrop, hnext']
/-- The last decay of a power-down (R69). -/
theorem railDecayed_ends {s : State} {g : Nat} (hdrop : s.island.seqr = .dropping .powerDown g false)
    (hnext : nextDrop s .powerDown g = none) (hstop : s.island.stopStart = false) :
    railDecayed s = say (.stop .orderly) ((setBlock (fun b => { b with marker := .orderly })
      ((clearUnpowered s).modIsland fun i => { i with seqr := .idle })).modIsland fun i =>
        { i with mode := .serviceOnly, stopStart := false }) := by
  have hnext' : nextDrop (clearUnpowered s) .powerDown g = none := (nextDrop_congr (by simp) _ _).trans hnext
  simp only [railDecayed, hdrop, hnext', clearUnpowered_stopStart, hstop, Bool.and_false, Bool.false_eq_true, if_false]
  rfl

/-- Settles O21. -/
theorem orderlyPowerDown : Obligations.OrderlyPowerDown := by
  intro s hon hr
  refine ⟨?_, ?_, fun why g hdrop => ⟨fun k hnext => ?_, ?_⟩, fun why g k hdrop hnext => ?_⟩
  · intro hidle hmode hgrace Begun
    refine ⟨⟨_, rfl, ?_⟩, fun w q hq hw => ?_⟩
    · obtain ⟨hseqr, hsame, hblank, htx, hruns, hen⟩ := stopRequest_begun hon hidle hmode hgrace
      simp only [Begun, settle_island, settle_dsp, settle_can, settle_axes]
      exact ⟨hseqr, hsame, hblank, htx, hruns, hen⟩
    · obtain ⟨hseqr, hsame, hblank, htx, hruns, hen⟩ :=
        stopRequest_begun (s := s.modIsland fun i => { i with grace := q }) hon hidle hmode hq
      refine ⟨settle (pdnWrite q false true s), by rw [exec, execElvPdnGo, regWriteAt_of_admits hw, done], ?_⟩
      simp only [Begun, settle_island, settle_dsp, settle_can, settle_axes]
      exact ⟨hseqr, hsame, hblank, htx, hruns, hen⟩
  · intro g hwait hnext Drops
    refine ⟨⟨_, doneIf_pos (by rw [hon, hwait]; rfl) hr _, ?_⟩, fun w q hw => ?_⟩
    · obtain ⟨hseqr, hen, hgrace⟩ := pdnDrop_drops hnext
      simp only [Drops, settle_island]
      exact ⟨⟨hseqr, hen⟩, hgrace⟩
    · have hack : pdnWrite q true false s = pdnDrop (s.modIsland fun i => { i with grace := q }) := if_pos hwait
      obtain ⟨hseqr, hen, hgrace⟩ := pdnDrop_drops (s := s.modIsland fun i => { i with grace := q }) hnext
      refine ⟨_, by rw [exec, execElvPdnAck, regWriteAt_of_admits hw, done], ?_⟩
      simp only [Drops, settle_island, hack]
      exact ⟨⟨hseqr, hen⟩, hgrace⟩
  · refine ⟨_, doneIf_pos (by rw [hon, hdrop]; rfl) hr _, ?_⟩
    rw [railDecayed_waits hdrop hnext]
    simp
  · rintro hnext rfl hstop
    refine ⟨_, doneIf_pos (by rw [hon, hdrop]; rfl) hr _, ?_⟩
    rw [railDecayed_ends hdrop hnext hstop, settle_island, settle_store, settle_console]
    refine ⟨by simp, by simp, by simp, fun hroom => ?_⟩
    rw [say_console _ _ (by simpa using hroom)]
    simp
  · refine ⟨_, doneIf_pos hon hr _, ?_⟩
    have hdelay : groupDelay s = dropGroup why k s := by simp only [groupDelay, hdrop, hnext]
    rw [hdelay]
    simp

end Sys2Proof.Machine
end

section
/-! SUPPORT. Causes are set and stay set: what events, axis states and announcements do to the fault slots (R375, R376). -/
set_option Elab.async false
namespace Sys2Proof.Machine

/-- A cause stands in a fault slot's first copy. -/
def causeAt (s : State) (i : Fin 1024) (b : Nat) : Bool := (vget s.flt i).a.cause.getLsbD b
/-- Every cause that stands in `s` stands in `t`. -/
structure CausesGrow (s t : State) : Prop where
  stands : ∀ i b, causeAt s i b = true → causeAt t i b = true

theorem CausesGrow.refl (s : State) : CausesGrow s s := ⟨fun _ _ h => h⟩
theorem CausesGrow.trans {s t u : State} (h : CausesGrow s t) (h' : CausesGrow t u) : CausesGrow s u :=
  ⟨fun i b hb => h'.stands i b (h.stands i b hb)⟩
theorem CausesGrow.of_flt {s t : State} (h : t.flt = s.flt) : CausesGrow s t := by
  constructor
  intro i b hb
  rwa [causeAt, h]
theorem CausesGrow.of_same {s s' t : State} (k : CausesGrow s' t) (h : s'.flt = s.flt) : CausesGrow s t :=
  (CausesGrow.of_flt h).trans k
theorem CausesGrow.ite {s t u : State} {c : Prop} [Decidable c] (ht : CausesGrow s t) (hu : CausesGrow s u) :
    CausesGrow s (if c then t else u) := by split <;> assumption
theorem CausesGrow.foldl {α : Type} {g : State → α → State} (h : ∀ s a, CausesGrow s (g s a)) (l : List α) (s : State) :
    CausesGrow s (l.foldl g s) := by
  induction l generalizing s with
  | nil => exact .refl s
  | cons a l ih => exact (h s a).trans (ih _)
theorem causesGrow_modFlt {f : FltSlot → FltSlot} (hf : ∀ x b, x.a.cause.getLsbD b = true → (f x).a.cause.getLsbD b = true)
    (j : Fin 1024) (s : State) : CausesGrow s (s.modFlt j f) := by
  constructor
  intro i b hb
  rw [causeAt, modFlt_flt]
  rcases eq_or_ne i j with rfl | hne
  · rw [vget_vmod_same]; exact hf _ _ hb
  · rw [vget_vmod_other (h := hne)]; exact hb
theorem put_grows (x : FltStat) (bit b : Nat) (h : x.cause.getLsbD b = true) : (x.put bit).cause.getLsbD b = true := by
  unfold FltStat.put
  split
  · exact h
  · simp only [BitVec.getLsbD_or, h, Bool.true_or]
theorem put_sets (x : FltStat) {bit : Nat} (h : bit < 12) : (x.put bit).cause.getLsbD bit = true := by
  unfold FltStat.put
  split
  next hset => exact hset
  next => simp [h]
theorem causesGrow_putCause (f : Fid) (bit : Nat) (s : State) : CausesGrow s (putCause f bit s) :=
  causesGrow_modFlt (fun x b h => put_grows x.a bit b h) _ s
theorem causeAt_putCause (f : Fid) {bit : Nat} (h : bit < 12) (s : State) :
    causeAt (putCause f bit s) (fidSlot f) bit = true := by
  rw [causeAt, putCause, modFlt_flt, vget_vmod_same]
  exact put_sets _ h
theorem causesGrow_accessError (f : Fid) (w : Bool) (c : BitVec 3) (a : Nat) (s : State) :
    CausesGrow s (accessError f w c a s) := by
  unfold accessError
  exact .of_same (causesGrow_putCause f 1 _) rfl

/-! ### Events -/

theorem causesGrow_writeRecord (n : Fin 64) (r : EvRec) (irq : Bool) (s : State) : CausesGrow s (writeRecord n r irq s) := by
  unfold writeRecord
  dsimp only
  split
  · exact .of_flt rfl
  · split
    · exact .of_flt rfl
    · split
      · exact .of_same (causesGrow_accessError _ _ _ _ _) rfl
      · refine .ite (.of_same (causesGrow_putCause _ _ _) rfl) (.of_flt ?_)
        split <;> simp
theorem causesGrow_emit (f : Fid) (c : BitVec 8) (w : BitVec 128) (s : State) : CausesGrow s (emit f c w s) := by
  unfold emit
  split
  · unfold emitTo
    dsimp only
    split
    · exact causesGrow_writeRecord _ _ _ _
    · exact .ite (.of_flt rfl) (.of_flt rfl)
  · exact .refl s
theorem causesGrow_axisTo (a : Fin 32) (new : AxState) (cause rank port : Nat) (s : State) :
    CausesGrow s (axisTo a new cause rank port s) := by
  unfold axisTo
  dsimp only
  have hevent (g : Axis → Axis) (w : BitVec 128) : CausesGrow s (emit (axFid a) 0x30 w (s.modAxis a g)) :=
    .of_same (causesGrow_emit _ _ _ _) (modAxis_flt a g s)
  have hsaid (g : Axis → Axis) (w : BitVec 128) (l : ULine) :
      CausesGrow s (say l (emit (axFid a) 0x30 w (s.modAxis a g))) := (hevent g w).trans (.of_flt (say_flt _ _))
  have hrephase (e : Fin 8) (t : State) (h : CausesGrow s t) : CausesGrow s (rephase e t) := h.trans (.of_flt (rephase_flt e t))
  split
  · exact .refl s
  · exact .ite (.ite (hsaid _ _ _) (hevent _ _)) (hrephase _ _ (.ite (hsaid _ _ _) (hevent _ _)))
theorem causesGrow_safeAxis (a : Fin 32) (s : State) : CausesGrow s (safeAxis a s) :=
  .ite (.refl s) (causesGrow_axisTo _ _ _ _ _ s)
theorem causesGrow_freezeOnFault (c : Nat) (s : State) : CausesGrow s (freezeOnFault c s) := .ite (.of_flt rfl) (.refl s)
theorem causesGrow_announce (f : Fid) (bit : Nat) (s : State) : CausesGrow s (announce f bit s) := by
  unfold announce
  dsimp only
  refine .ite (.refl s) (CausesGrow.trans ?_ (causesGrow_freezeOnFault _ _))
  have hsaid (c : BitVec 8) (w : BitVec 128) (l : ULine) : CausesGrow s (say l (emit f c w s)) :=
    (causesGrow_emit f c w s).trans (.of_flt (say_flt _ _))
  exact .ite (hsaid _ _ _) ((hsaid _ _ _).trans (.of_flt (logEntry_flt _ _)))
theorem causesGrow_raiseOutput (a : Fin 32) (why : Nat) (s : State) :
    CausesGrow (putCause (axFid a) 10 s) (raiseOutput a why s) := by
  unfold raiseOutput
  dsimp only
  generalize putCause (axFid a) 10 s = t
  have hsafe : CausesGrow t (safeAxis a (t.modFlt (fidSlot (axFid a)) fun x => { x with outWhy := x.outWhy ||| (1#5 <<< why) })) :=
    (causesGrow_modFlt (by intro x b h; exact h) _ _).trans (causesGrow_safeAxis _ _)
  split
  · exact hsafe.trans (causesGrow_announce _ _ _)
  · exact hsafe
/-- OUTPUT stands on an axis once it is raised there. -/
theorem causeAt_raiseOutput (a : Fin 32) (why : Nat) (s : State) :
    causeAt (raiseOutput a why s) (fidSlot (axFid a)) 10 = true :=
  (causesGrow_raiseOutput a why s).stands _ _ (causeAt_putCause _ (by decide) s)
theorem stOf_raiseOutput (a b : Fin 32) (why : Nat) (s : State) :
    stOf (raiseOutput a why s) b = if b = a ∧ stOf s a ≠ .held then .safe else stOf s b := by
  unfold raiseOutput
  dsimp only
  have hann (t : State) : stOf (announce (axFid a) 10 t) b = stOf t b := stOf_congr (announce_axes _ _ t) b
  have hsafe (g : FltSlot → FltSlot) : stOf (safeAxis a ((putCause (axFid a) 10 s).modFlt (fidSlot (axFid a)) g)) b =
      if b = a ∧ stOf s a ≠ .held then .safe else stOf s b := stOf_safeAxis a b _
  split
  · rw [hann]; exact hsafe _
  · exact hsafe _

end Sys2Proof.Machine
end

section
/-! SUPPORT. What events, axis states, faults, links, stages and resets leave of the island, the loader and the fences. -/
set_option Elab.async false
namespace Sys2Proof.Machine

/-! ### The frame -/

/-- The island, its working copy of the state block and the plan loader stay, and so do the partition fences. -/
structure IslandFrame (s t : State) : Prop where
  island : t.island = s.island
  work : t.store.work = s.store.work
  loader : t.loader = s.loader
  fenced : ∀ p, (vget s.parts p).fenced = true → (vget t.parts p).fenced = true

theorem IslandFrame.of_fields {s t : State} (hi : t.island = s.island) (hw : t.store.work = s.store.work)
    (hl : t.loader = s.loader) (hp : t.parts = s.parts) : IslandFrame s t := ⟨hi, hw, hl, fun p h => by rw [hp]; exact h⟩
theorem IslandFrame.refl (s : State) : IslandFrame s s := .of_fields rfl rfl rfl rfl
theorem IslandFrame.trans {s t u : State} (h : IslandFrame s t) (k : IslandFrame t u) : IslandFrame s u :=
  ⟨k.island.trans h.island, k.work.trans h.work, k.loader.trans h.loader, fun p hp => k.fenced p (h.fenced p hp)⟩
theorem IslandFrame.of_same {s s' t : State} (k : IslandFrame s' t) (hi : s'.island = s.island)
    (hw : s'.store.work = s.store.work) (hl : s'.loader = s.loader) (hp : s'.parts = s.parts) : IslandFrame s t :=
  (IslandFrame.of_fields hi hw hl hp).trans k
theorem IslandFrame.foldl {α : Type} {g : State → α → State} (h : ∀ s a, IslandFrame s (g s a)) (l : List α) (s : State) :
    IslandFrame s (l.foldl g s) := by
  induction l generalizing s with
  | nil => exact .refl s
  | cons a l ih => exact (h s a).trans (ih _)
theorem IslandFrame.ite {s t u : State} {c : Prop} [Decidable c] (ht : IslandFrame s t) (hu : IslandFrame s u) :
    IslandFrame s (if c then t else u) := by split <;> assumption
theorem islandFrame_emit (f : Fid) (c : BitVec 8) (w : BitVec 128) (s : State) : IslandFrame s (emit f c w s) :=
  .of_fields (emit_island f c w s) (by rw [emit_store]) (emit_loader f c w s) (emit_parts f c w s)
theorem IslandFrame.emit {s t : State} (h : IslandFrame s t) (f : Fid) (c : BitVec 8) (w : BitVec 128) :
    IslandFrame s (emit f c w t) := h.trans (islandFrame_emit f c w t)
theorem IslandFrame.say {s t : State} (h : IslandFrame s t) (l : ULine) : IslandFrame s (say l t) := h.trans (.of_fields rfl rfl rfl rfl)
theorem islandFrame_freezeOnFault (c : Nat) (s : State) : IslandFrame s (freezeOnFault c s) := by
  unfold freezeOnFault; split <;> exact .of_fields rfl rfl rfl rfl
theorem islandFrame_announce (f : Fid) (bit : Nat) (s : State) : IslandFrame s (announce f bit s) := by
  unfold announce
  dsimp only
  refine .ite (.refl s) (IslandFrame.trans ?_ (islandFrame_freezeOnFault _ _))
  exact .ite ((islandFrame_emit _ _ _ _).say _) (((islandFrame_emit _ _ _ _).say _).trans (.of_fields rfl rfl rfl rfl))
theorem islandFrame_raiseOutput (a : Fin 32) (why : Nat) (s : State) : IslandFrame s (raiseOutput a why s) := by
  unfold raiseOutput
  dsimp only
  have hsafe (g : FltSlot → FltSlot) : IslandFrame s (safeAxis a ((putCause (axFid a) 10 s).modFlt (fidSlot (axFid a)) g)) :=
    .of_fields (by simp) (by simp) (by simp) (by simp)
  exact .ite ((hsafe _).trans (islandFrame_announce _ _ _)) (hsafe _)
theorem islandFrame_clockLoss (s : State) : IslandFrame s (clockLoss s) := by
  unfold clockLoss
  dsimp only
  exact .of_same (.foldl (fun s a => islandFrame_raiseOutput a 0 s) _ _) rfl rfl rfl rfl
/-- A cause of class 1 fences its function, and an engine's axes get OUTPUT (Table 17.2). -/
theorem islandFrame_raiseCause {f : Fid} {bit : Nat} (h : causeClass f bit = 1) (s : State) :
    IslandFrame s (raiseCause f bit s) := by
  have hreact (t : State) : IslandFrame t (react f bit t) := by
    unfold react
    rw [h]
    have hfence : IslandFrame t (fenceFn f t) := .of_fields (by simp) (by simp) (by simp) (by simp)
    exact .ite (hfence.trans (.foldl (fun s a => islandFrame_raiseOutput a 2 s) _ _)) hfence
  unfold raiseCause
  dsimp only
  have hset : IslandFrame s (react f bit (putCause f bit s)) := .of_same (hreact _) rfl rfl rfl rfl
  exact .ite (hset.trans (islandFrame_announce _ _ _)) hset

/-! ### Links -/

theorem causeClass_link (f : Fid) : causeClass f 5 = 1 := rfl

theorem islandFrame_freeBuf (o : Option (Fin 16 × Fin 8)) (s : State) : IslandFrame s (freeBuf o s) := by
  unfold freeBuf; split <;> exact .of_fields rfl rfl rfl rfl
theorem islandFrame_pushPort (p : Fin 16) (e : Fin 8 × Packet × Option (Fin 16 × Fin 8)) (s : State) :
    IslandFrame s (pushPort p e s) := by
  unfold pushPort
  exact .ite (.of_same (islandFrame_freeBuf _ _) rfl rfl rfl rfl) (.of_fields rfl rfl rfl rfl)
theorem islandFrame_sendFrom (a : Option Arrival) (b : Option (Fin 16 × Fin 8)) (k : Packet) (s : State) :
    IslandFrame s (sendFrom a b k s) := by
  unfold sendFrom
  refine .ite (.of_fields rfl rfl rfl rfl) ?_
  split
  · exact islandFrame_freeBuf _ _
  · exact islandFrame_pushPort _ _ _
theorem islandFrame_timeSelect (s : State) : IslandFrame s (timeSelect s) := by
  have hgm (old : BitVec 12) (had : Bool) (t : TimeBase) : IslandFrame s (gmEvent old had { s with time := t }) :=
    .ite (.of_same (islandFrame_emit _ _ _ _) rfl rfl rfl rfl) (.of_fields rfl rfl rfl rfl)
  unfold timeSelect
  dsimp only
  split
  · exact .ite (.of_same (islandFrame_emit _ _ _ _) rfl rfl rfl rfl) (.of_fields rfl rfl rfl rfl)
  · exact .ite (.ite (hgm _ _ _) ((hgm _ _ _).emit _ _ _)) (hgm _ _ _)
theorem islandFrame_reroute (s : State) : IslandFrame s (reroute s) := .of_fields rfl rfl rfl rfl
theorem islandFrame_portDown (p : Fin 16) (cause : BitVec 4) (s : State) : IslandFrame s (portDown p cause s) := by
  unfold portDown
  dsimp only
  have hforgot (f : Port → Port) : IslandFrame s ((forgetBufs p s).modPort p f) := .of_fields rfl rfl rfl rfl
  have hsent (q : List (Fin 8 × Packet × Option (Fin 16 × Fin 8))) (f : Port → Port) : IslandFrame s
      (q.foldl (fun s e => sendFrom none e.2.2 e.2.1 s) ((forgetBufs p s).modPort p f)) :=
    (hforgot f).trans (.foldl (fun s e => islandFrame_sendFrom none _ _ s) _ _)
  have hdown {t : State} (h : IslandFrame s t) :
      IslandFrame s (timeSelect (say (.linkDown p cause) (linkEvent p 0x60 (reroute t)))) :=
    (((h.trans (islandFrame_reroute t)).emit _ _ _).say _).trans (islandFrame_timeSelect _)
  split
  · exact hdown (hsent _ _)
  · exact (hdown (hsent _ _)).trans (islandFrame_raiseCause (causeClass_link _) _)
/-- A root port that is up goes down with its rails. -/
def rootDown (s : State) (q : Fin 8) : State :=
  let r := vget s.rports q
  if !r.up then s else
  raiseCause (fidMk 12 q) 5 (emit (fidMk 12 q) 0x58 (pl 16 r.width.toNat + pl 17 r.rate.toNat)
    (s.modRp q fun r => { r with up := false, width := 0, rate := 0 }))
/-- The links that are up go down with their rails, then the display's, then the root ports'. -/
def portsCut (s : State) : State :=
  if s.island.good.getLsbD 12 && s.island.good.getLsbD 13 then s else
    (List.finRange 16).foldl (fun s p => if (vget s.ports p).st = .up then portDown p 1 s else s) s
def dpCut (s : State) : State :=
  if s.dsp.link = .up && !(s.island.good.getLsbD 12 && s.island.good.getLsbD 13) then dpDown 2 s else s
def rootsCut (s : State) : State :=
  if s.island.good.getLsbD 12 && s.island.good.getLsbD 13 then s else (List.finRange 8).foldl rootDown s
theorem failLinks_eq (s : State) : failLinks s = rootsCut (dpCut (portsCut s)) := rfl
theorem islandFrame_portsCut (s : State) : IslandFrame s (portsCut s) :=
  .ite (.refl s) (.foldl (fun s p => .ite (islandFrame_portDown p 1 s) (.refl s)) _ _)
theorem islandFrame_dpCut (s : State) : IslandFrame s (dpCut s) := by
  unfold dpCut dpDown
  exact .ite (.of_same (islandFrame_emit _ _ _ _) rfl rfl rfl rfl) (.refl s)
theorem islandFrame_rootDown (s : State) (q : Fin 8) : IslandFrame s (rootDown s q) := by
  unfold rootDown
  refine .ite (.refl s) (IslandFrame.trans ?_ (islandFrame_raiseCause (causeClass_link _) _))
  exact .of_same (islandFrame_emit _ _ _ _) rfl rfl rfl rfl
theorem islandFrame_failLinks (s : State) : IslandFrame s (failLinks s) := by
  rw [failLinks_eq]
  exact ((islandFrame_portsCut s).trans (islandFrame_dpCut _)).trans
    (.ite (.refl _) (.foldl islandFrame_rootDown _ _))


/-! ### Resets -/

theorem islandFrame_axisTo (a : Fin 32) (new : AxState) (cause rank port : Nat) (s : State) :
    IslandFrame s (axisTo a new cause rank port s) := .of_fields (by simp) (by simp) (by simp) (by simp)
theorem islandFrame_axisGoHome (cause : Nat) (a : Fin 32) (s : State) : IslandFrame s (axisGoHome cause a s) :=
  islandFrame_axisTo _ _ _ _ _ s
theorem islandFrame_stopWork (f : Fid) (run : BitVec 16) (s : State) : IslandFrame s (stopWork f run s) :=
  .of_fields (by simp) (by simp) (by simp) (by simp)
theorem islandFrame_dspReset (s : State) : IslandFrame s (dspReset s) := by
  have hflat : IslandFrame s (setFlat false 0 0 s) :=
    .ite (.of_same (islandFrame_emit _ _ _ _) rfl rfl rfl rfl) (.of_fields rfl rfl rfl rfl)
  unfold dspReset
  dsimp only
  split <;> exact hflat.trans (.of_fields rfl rfl rfl rfl)
theorem islandFrame_resetEffect (f : Fid) (s : State) : IslandFrame s (resetEffect f s) := by
  unfold resetEffect
  dsimp only
  refine IslandFrame.trans (islandFrame_stopWork f statusAborted s) ?_
  generalize stopWork f statusAborted s = t
  split
  case h_5 =>
    refine IslandFrame.trans ?_ (.ite (.refl _) (islandFrame_portDown _ _ _))
    exact .of_fields rfl rfl rfl rfl
  case h_6 => exact .of_same (.foldl (fun s a => islandFrame_axisGoHome 3 a s) _ _) rfl rfl rfl rfl
  case h_11 => exact islandFrame_dspReset _
  case h_12 => exact .ite (.of_same (islandFrame_emit _ _ _ _) rfl rfl rfl rfl) (.refl _)
  case h_14 =>
    split
    · refine IslandFrame.trans ?_ (islandFrame_timeSelect _)
      split
      · exact .of_same (islandFrame_emit _ _ _ _) rfl rfl rfl rfl
      · exact .of_fields rfl rfl rfl rfl
    · exact .of_fields rfl rfl rfl rfl
  all_goals exact .of_fields rfl rfl rfl rfl
theorem islandFrame_resetCauses (f : Fid) (s : State) : IslandFrame s (resetCauses f s) := by
  unfold resetCauses
  dsimp only
  refine .of_same (.foldl (fun s b => ?_) _ _) rfl rfl rfl rfl
  exact .ite (.refl s) (.of_fields rfl rfl rfl rfl)
theorem islandFrame_leaveFault (f : Fid) (prev : Nat) (s : State) : IslandFrame s (leaveFault f prev s) := by
  unfold leaveFault
  dsimp only
  have hleft (w : BitVec 128) (g : FltSlot → FltSlot) : IslandFrame s (emit f 0x13 w (s.modFlt (fidSlot f) g)) :=
    .of_same (islandFrame_emit _ _ _ _) rfl rfl rfl rfl
  exact .ite (.refl s) (.ite (.ite ((hleft _ _).trans (islandFrame_axisTo _ _ _ _ _ _)) (hleft _ _)) (hleft _ _))
theorem islandFrame_fenceFn (f : Fid) (s : State) : IslandFrame s (fenceFn f s) :=
  .of_fields (by simp) (by simp) (by simp) (by simp)
theorem islandFrame_fencePart (p : Fin 32) (f : Fid) (s : State) :
    IslandFrame s (fencePart p f s) ∧ (vget (fencePart p f s).parts p).fenced = true := by
  have hparts : (vget s.parts p).fenced = false →
      (fencePart p f s).parts = vmod s.parts p fun x => { x with fenced := true, byFid := f } := by
    intro h
    have hkept (l : List Fid) (t : State) : (l.foldl (fun s f =>
        if fidType f = 4 then stopStack ⟨fidIdx f % 8, by omega⟩ p s else fenceWork f s) t).parts = t.parts :=
      foldl_keep (·.parts) _ (by intros; split <;> simp) _ _
    rw [fencePart, if_neg (by simp [h])]
    dsimp only
    rw [apply_ite State.parts, emitTo_parts, ite_self, say_parts]
    dsimp only
    rw [hkept]
    rfl
  cases h : (vget s.parts p).fenced with
  | true =>
    have hsame : fencePart p f s = s := by rw [fencePart, if_pos h]
    rw [hsame]
    exact ⟨.refl s, h⟩
  | false =>
    refine ⟨⟨by simp, by simp, by simp, fun q hq => ?_⟩, by rw [hparts h]; simp⟩
    rw [hparts h]
    rcases eq_or_ne q p with rfl | hne
    · simp
    · simpa [hne] using hq
/-- Class 2 fences the function, then its partition (Table 17.2). -/
def fenceOut (f : Fid) (s : State) : State :=
  let s := fenceFn f s
  if fidType f = 6 then (assignedAxes s ⟨fidIdx f % 8, by omega⟩).foldl (fun s a => raiseOutput a 2 s) s else s
def fenceHome (f : Fid) (s : State) : State :=
  match partOf s f with
  | some p => fencePart p f s
  | none => s
theorem react_class2 {f : Fid} {bit : Nat} (h : causeClass f bit = 2) (s : State) :
    react f bit s = fenceHome f (fenceOut f s) := by
  unfold react; rw [h]; rfl
theorem islandFrame_fenceOut (f : Fid) (s : State) : IslandFrame s (fenceOut f s) :=
  .ite ((islandFrame_fenceFn f s).trans (.foldl (fun s a => islandFrame_raiseOutput a 2 s) _ _)) (islandFrame_fenceFn f s)
theorem islandFrame_fenceHome (f : Fid) (s : State) : IslandFrame s (fenceHome f s) := by
  unfold fenceHome
  split
  · exact (islandFrame_fencePart _ _ _).1
  · exact .refl s
/-- A line shared between coherent caches is lost: class 2 (Table 17.3). -/
theorem islandFrame_raiseShared (f : Fid) (s : State) : IslandFrame s (raiseCause f 9 s) := by
  have hreact (t : State) : IslandFrame t (react f 9 t) := by
    rw [react_class2 rfl]
    exact (islandFrame_fenceOut f t).trans (islandFrame_fenceHome f _)
  unfold raiseCause
  dsimp only
  have hset : IslandFrame s (react f 9 (putCause f 9 s)) := .of_same (hreact _) rfl rfl rfl rfl
  exact .ite (hset.trans (islandFrame_announce _ _ _)) hset
theorem islandFrame_resetFn (f : Fid) (s : State) : IslandFrame s (resetFn f s) := by
  unfold resetFn
  dsimp only
  have hreset : IslandFrame s (resetCauses f (resetEffect f s)) :=
    (islandFrame_resetEffect f s).trans (islandFrame_resetCauses f _)
  have hhome : IslandFrame s (if fidType f = 7 then
      axisGoHome 3 ⟨fidIdx f % 32, by omega⟩ (resetCauses f (resetEffect f s)) else resetCauses f (resetEffect f s)) :=
    .ite (hreset.trans (islandFrame_axisGoHome _ _ _)) hreset
  have hleft := hhome.trans (islandFrame_leaveFault f (faultClass s f) _)
  exact .ite (hleft.trans (islandFrame_raiseShared _ _)) hleft
theorem islandFrame_resetPart (p : Fin 32) (s : State) : IslandFrame s (resetPart p s) := by
  unfold resetPart
  dsimp only
  refine IslandFrame.trans (.foldl (fun s f => ?_) _ _) (.foldl (fun s k => ?_) _ _)
  · exact .ite (.of_fields (by simp) (by simp) (by simp) (by simp)) (islandFrame_resetFn f s)
  · exact .of_fields rfl rfl rfl rfl

/-! ### The stages of a partial reload -/

theorem islandFrame_holdFn (f : Fid) (s : State) : IslandFrame s (holdFn f s) := by
  unfold holdFn
  dsimp only
  split
  case h_3 => exact .ite (.of_same (islandFrame_axisGoHome _ _ _) rfl rfl rfl rfl) (.refl _)
  all_goals first | exact .of_fields rfl rfl rfl rfl | exact .ite (.of_fields rfl rfl rfl rfl) (.refl _)
theorem islandFrame_modPart {f : Part → Part} (hf : ∀ x, (f x).fenced = x.fenced) (p : Fin 32) (s : State) :
    IslandFrame s (s.modPart p f) := by
  refine ⟨rfl, rfl, rfl, fun q hq => ?_⟩
  rw [modPart_parts]
  rcases eq_or_ne q p with rfl | hne
  · rw [vget_vmod_same, hf]; exact hq
  · rw [vget_vmod_other (h := hne)]; exact hq
theorem islandFrame_stagePartition (p : Fin 32) (rs : List PlanRec) (s : State) :
    IslandFrame s (stagePartition (.part p) rs s) := by
  unfold stagePartition
  dsimp only
  exact (islandFrame_modPart (f := (·.member (memberOf rs p))) (fun _ => rfl) p s).trans (.foldl (fun s f => islandFrame_holdFn f s) _ _)
theorem islandFrame_obeyStops (s : State) : IslandFrame s (obeyStops s) := by
  refine .foldl (fun s a => ?_) _ _
  split
  · exact .ite (.of_same (islandFrame_axisTo _ _ _ _ _ _) rfl rfl rfl rfl) (.of_fields rfl rfl rfl rfl)
  · exact .refl s
/-- A step of a fold that leaves functions outside the scope alone. -/
theorem IslandFrame.unless {s t : State} {c : Bool} (h : IslandFrame s t) : IslandFrame s (if c then s else t) := .ite (.refl s) h
theorem IslandFrame.hstopOn {s t : State} (h : IslandFrame s t) (m : BitVec 4) : IslandFrame s { t with hstopOn := m } :=
  h.trans (.of_fields rfl rfl rfl rfl)
theorem islandFrame_cc (s : State) (c : CmpCap) : IslandFrame s { s with cc := c } := .of_fields rfl rfl rfl rfl
theorem islandFrame_stagePin (p : Fin 32) (rs : List PlanRec) (s : State) : IslandFrame s (stagePin (.part p) rs s) := by
  unfold stagePin
  dsimp only
  refine IslandFrame.trans ?_ (.ite (.refl _) (.foldl (fun s q => .unless ?_) _ _))
  · refine IslandFrame.trans ?_ (islandFrame_obeyStops _)
    refine IslandFrame.hstopOn ?_ _
    refine IslandFrame.trans ?_ (.unless (islandFrame_cc _ _))
    refine .of_same (.foldl (fun s c => .unless ?_) _ _) rfl rfl rfl rfl
    exact .of_fields rfl rfl rfl rfl
  · exact .of_fields rfl rfl rfl rfl
theorem islandFrame_stageFabric (p : Fin 32) (rs : List PlanRec) (s : State) : IslandFrame s (stageFabric (.part p) rs s) := by
  unfold stageFabric
  dsimp only
  refine .foldl (fun s q => .unless ?_) _ _
  exact .of_fields rfl rfl rfl rfl
theorem islandFrame_clearLanes (sc : Scope) (s : State) : IslandFrame s (clearLanes sc s) := by
  unfold clearLanes
  dsimp only
  refine .foldl (fun s l => ?_) _ _
  refine .ite ?_ (.refl s)
  refine .of_same (.foldl (fun s t => ?_) _ _) rfl rfl rfl rfl
  exact .of_fields rfl rfl rfl rfl
theorem islandFrame_stageLanes (all : List PlanRec) (rs : List PlanRec) (s : State) :
    IslandFrame s (stageLanes all rs s).1 := by
  induction rs generalizing s with
  | nil => exact .refl s
  | cons r rs ih =>
    unfold stageLanes
    dsimp only
    split
    · exact .refl s
    · refine IslandFrame.trans ?_ (ih _)
      refine .of_same (.foldl (fun s t => ?_) _ _) rfl rfl rfl rfl
      exact .of_fields rfl rfl rfl rfl
theorem islandFrame_stageAxes (sc : Scope) (rs : List PlanRec) (s : State) : IslandFrame s (stageAxes sc rs s) := by
  unfold stageAxes
  refine .foldl (fun s a => .ite (.refl s) ?_) _ _
  dsimp only
  refine IslandFrame.trans ?_ (islandFrame_axisGoHome _ _ _)
  split <;> exact .of_fields rfl rfl rfl rfl
theorem islandFrame_stageCan (sc : Scope) (rs : List PlanRec) (s : State) : IslandFrame s (stageCan sc rs s) := by
  unfold stageCan
  refine .foldl (fun s k => .ite (.refl s) ?_) _ _
  dsimp only
  split <;> exact .of_fields rfl rfl rfl rfl
theorem islandFrame_stageDisplay (sc : Scope) (rs : List PlanRec) (s : State) : IslandFrame s (stageDisplay sc rs s) := by
  unfold stageDisplay
  refine .ite (.refl s) ?_
  split
  · exact .ite (.of_fields rfl rfl rfl rfl) (.of_fields rfl rfl rfl rfl)
  · exact .of_fields rfl rfl rfl rfl
theorem islandFrame_stageRegion (sc : Scope) (rs : List PlanRec) (s : State) : IslandFrame s (stageRegion sc rs s) :=
  .of_fields rfl rfl rfl rfl
theorem islandFrame_modPower (f : Power → Power) (s : State) : IslandFrame s (s.modPower f) :=
  .of_fields rfl rfl rfl rfl
theorem islandFrame_stagePower (p : Fin 32) (rs : List PlanRec) (s : State) :
    IslandFrame s (stagePower (.part p) rs s) := by
  unfold stagePower
  dsimp only
  exact islandFrame_modPower _ _
/-- The state with which stage 7 of a partial reload begins. -/
def confStages (p : Fin 32) (rs : List PlanRec) (s : State) : State :=
  stagePower (.part p) rs (stageFabric (.part p) rs (stageRegion (.part p) rs
    (stagePin (.part p) rs (stagePartition (.part p) rs s))))
theorem islandFrame_confStages (p : Fin 32) (rs : List PlanRec) (s : State) :
    IslandFrame s (confStages p rs s) :=
  ((((islandFrame_stagePartition p rs s).trans (islandFrame_stagePin p rs _)).trans
    (islandFrame_stageRegion (.part p) rs _)).trans (islandFrame_stageFabric p rs _)).trans
    (islandFrame_stagePower p rs _)
/-- The stages of a partial reload leave the island, the loader and the fences as they are (R42). -/
theorem islandFrame_runStages (p : Fin 32) (img : List Byte) (s : State) :
    IslandFrame s (runStages (.part p) img s).1 := by
  have hconf := islandFrame_confStages p (planRecs img) s
  have hlanes : IslandFrame s (stageLanes (planRecs img) (Scope.recs (.part p) (planRecs img) 8)
      (clearLanes (.part p) (confStages p (planRecs img) s))).1 :=
    (hconf.trans (islandFrame_clearLanes (.part p) _)).trans (islandFrame_stageLanes _ _ _)
  have hend (t : State) (h : IslandFrame s t) : IslandFrame s (stageDisplay (.part p) (planRecs img)
      (stageCan (.part p) (planRecs img) (stageAxes (.part p) (planRecs img) t))) :=
    ((h.trans (islandFrame_stageAxes _ _ _)).trans (islandFrame_stageCan _ _ _)).trans
      (islandFrame_stageDisplay _ _ _)
  unfold runStages
  simp only [reduceCtorEq, if_false]
  rw [← confStages]
  generalize confStages p (planRecs img) s = t at hconf hlanes ⊢
  generalize stageLanes (planRecs img) _ (clearLanes (.part p) t) = l at hlanes ⊢
  split
  · exact hconf
  · split
    · exact hlanes
    · split
      · exact hlanes
      · dsimp only
        exact hend l.1 hlanes

end Sys2Proof.Machine
end

section
/-! SUPPORT. A rail or a clock is lost: what goes with it, and what the store records (R50, R54, R70, R148, R199). -/
set_option Elab.async false
namespace Sys2Proof.Machine

/-! ### A rail fails -/

/-- The failed rail is good no longer, and the rails that depend on it lose their enables (R46, R50). -/
def railsOff (n : Fin 14) (s : State) : State :=
  dropEnables (railMask (railGroup n < ·)) (s.modIsland fun i => { i with good := i.good &&& ~~~(1#14 <<< n.val) })
/-- VANA's failure takes the servo PLL's lock with it (R54). -/
def vanaLost (s : State) : State :=
  let t := s.modIsland fun i => { i with pll := false }
  if s.island.good.getLsbD 0 then clockLoss t else t
theorem railsLost_eq (n : Fin 14) (s : State) : railsLost n s =
    clearUnpowered (failLinks (if n = 1 then vanaLost (railsOff n s) else railsOff n s)) := rfl
/-- What the loss of rails leaves: the enables and rails still good, the sequencer, the store's working copy. -/
structure RailsLost (n : Fin 14) (s t : State) : Prop where
  enabled : t.island.enabled = s.island.enabled &&& ~~~(railMask (railGroup n < ·))
  good : t.island.good = (s.island.good &&& ~~~(1#14 <<< n.val)) &&& ~~~(railMask (railGroup n < ·))
  seqr : t.island.seqr = s.island.seqr
  start : t.island.start = s.island.start
  work : t.store.work = s.store.work
theorem railsLost_spec (n : Fin 14) (s : State) : RailsLost n s (railsLost n s) := by
  have hvana (u : State) : ∃ p, (vanaLost u).island = { u.island with pll := p } ∧ (vanaLost u).store.work = u.store.work := by
    unfold vanaLost
    dsimp only
    split
    · obtain ⟨hi, hw, -⟩ := islandFrame_clockLoss (u.modIsland fun i => { i with pll := false })
      exact ⟨false, hi, hw⟩
    · exact ⟨false, rfl, rfl⟩
  have hcut : ∃ p, (if n = 1 then vanaLost (railsOff n s) else railsOff n s).island = { (railsOff n s).island with pll := p } ∧
      (if n = 1 then vanaLost (railsOff n s) else railsOff n s).store.work = s.store.work := by
    split
    · exact hvana _
    · exact ⟨s.island.pll, rfl, rfl⟩
  obtain ⟨p, hi, hw⟩ := hcut
  rw [railsLost_eq]
  generalize (if n = 1 then vanaLost (railsOff n s) else railsOff n s) = u at hi hw ⊢
  obtain ⟨hi', hw', -⟩ := islandFrame_failLinks u
  refine ⟨?_, ?_, ?_, ?_, ?_⟩
  · rw [clearUnpowered_enabled, hi', hi]; rfl
  · rw [clearUnpowered_good, hi', hi]; rfl
  · rw [clearUnpowered_seqr, hi', hi]; rfl
  · rw [clearUnpowered_start, hi', hi]; rfl
  · rw [clearUnpowered_store, hw', hw]
/-- A rail fails with nothing in progress: the rails lost, the power-down recorded, and the mode that is left. -/
theorem railFailure_idle {s : State} {n : Fin 14} (hidle : s.island.seqr = .idle) (hnone : s.island.start = none) :
    (railFailure n s).island.enabled = (railsLost n s).island.enabled ∧
      (railFailure n s).island.good = (railsLost n s).island.good ∧
      (railFailure n s).store.work = { (railsLost n s).store.work with marker := .disorderly } := by
  obtain ⟨-, -, hseqr, hstart, -⟩ := railsLost_spec n s
  rw [hidle] at hseqr
  rw [hnone] at hstart
  have htime (t : State) (d : Display) (r : Vector RootPort 8) : IslandFrame
      { t with dsp := d, rports := r, island := { t.island with mode := .servoOnly } }
      (timeSelect { t with dsp := d, rports := r, island := { t.island with mode := .servoOnly } }) := islandFrame_timeSelect _
  simp only [railFailure, hseqr, hstart]
  split
  · exact ⟨rfl, rfl, rfl⟩
  · split
    · unfold toServoOnly
      obtain ⟨hi, hw, -⟩ := htime (recordDisorderly n 0 (railsLost n s)) { hpd := (recordDisorderly n 0 (railsLost n s)).dsp.hpd }
        (vrep 8 {})
      rw [hi, hw]
      exact ⟨rfl, rfl, rfl⟩
    · exact ⟨rfl, rfl, rfl⟩
  · exact ⟨rfl, rfl, rfl⟩

/-- The log's entry of a disorderly power-down that rail `n` began at step `k`. -/
def disorderlyEntry (n : Fin 14) (k : Nat) (s : State) : LogEntry :=
  let u := clearUnpowered (dropEnables 0x3FFF s)
  { fid := islandFid, kind := 1, detail := BitVec.ofNat 256 (n.val + 256 * k), lseq := s.store.logNext + 1,
    it := islandTime u, hours := u.island.hours }
/-- Every enable dropped 200 µs after a rail failed during an orderly power-down (R70). -/
theorem disorderlyDrop_spec {s : State} {n : Fin 14} {k : Nat} (hdrop : s.island.seqr = .disorderly n k) :
    (disorderlyDrop s).island.enabled = 0 ∧ (disorderlyDrop s).island.good = 0 ∧ (disorderlyDrop s).island.seqr = .idle ∧
      (disorderlyDrop s).island.mode = .serviceOnly ∧ (disorderlyDrop s).island.start = none ∧
      (disorderlyDrop s).store = { s.store with
        work := { s.store.work with marker := .disorderly }
        logNext := s.store.logNext + 1
        queue := s.store.queue ++ [.block { s.store.work with marker := .disorderly }, .log (disorderlyEntry n k s)] } := by
  have hnone (x : BitVec 14) : x &&& ~~~(0x3FFF#14) = 0 := by simp
  have hoff : (clearUnpowered (dropEnables 0x3FFF s)).island.enabled = 0 ∧
      (clearUnpowered (dropEnables 0x3FFF s)).island.good = 0 := by
    rw [clearUnpowered_enabled, clearUnpowered_good]
    exact ⟨hnone _, hnone _⟩
  have hstore : (clearUnpowered (dropEnables 0x3FFF s)).store = s.store := by rw [clearUnpowered_store]; rfl
  simp only [disorderlyDrop, hdrop]
  generalize hu : clearUnpowered (dropEnables 0x3FFF s) = u at hoff hstore
  have hentry : disorderlyEntry n k s = { fid := islandFid, kind := 1, detail := BitVec.ofNat 256 (n.val + 256 * k),
                                          lseq := s.store.logNext + 1, it := islandTime u, hours := u.island.hours } := by
    rw [← hu]; rfl
  have hrecorded : (recordDisorderly n k u).store = { s.store with
      work := { s.store.work with marker := .disorderly }
      logNext := s.store.logNext + 1
      queue := s.store.queue ++ [.block { s.store.work with marker := .disorderly }, .log (disorderlyEntry n k s)] } := by
    rw [hentry, ← hstore]
    simp [recordDisorderly, setBlock, logEntry, storeReq, islandTime]
  split
  · rw [startResult_quiet (by simp)]
    simp only [say_island, say_store, startCode_island, startCode_store, modIsland_island, modIsland_store]
    exact ⟨hoff.1, hoff.2, trivial, trivial, trivial, hrecorded⟩
  · simp only [say_island, say_store, modIsland_island, modIsland_store]
    exact ⟨hoff.1, hoff.2, trivial, trivial, trivial, hrecorded⟩

/-! ### A clock is lost -/

theorem causeAt_foldl_raiseOutput (a : Fin 32) (l : List (Fin 32)) (s : State)
    (h : a ∈ l ∨ causeAt s (fidSlot (axFid a)) 10 = true) :
    causeAt (l.foldl (fun s a => raiseOutput a 0 s) s) (fidSlot (axFid a)) 10 = true := by
  induction l generalizing s with
  | nil => simpa using h
  | cons b l ih =>
    rw [List.foldl_cons]
    apply ih
    rcases eq_or_ne a b with rfl | hne
    · exact .inr (causeAt_raiseOutput a 0 s)
    · refine h.imp (fun hm => by simpa [hne] using hm) fun hset => ?_
      exact ((causesGrow_putCause _ 10 s).trans (causesGrow_raiseOutput b 0 s)).stands _ _ hset
/-- The clock's loss reaches every axis (R54, R376). -/
theorem clockLoss_axes (s : State) (a : Fin 32) :
    stOf (clockLoss s) a = (if stOf s a = .held then .held else .safe) ∧ causeAt (clockLoss s) (fidSlot (axFid a)) 10 = true := by
  unfold clockLoss
  refine ⟨?_, causeAt_foldl_raiseOutput a _ _ (.inl (List.mem_finRange a))⟩
  rw [stOf_foldl_safe (P := (· ≠ .held)) fun s a b => stOf_raiseOutput a b 0 s]
  have hsame (t : TimeBase → TimeBase) : stOf (s.modTime t) a = stOf s a := rfl
  by_cases hh : stOf s a = .held <;> simp [hsame, hh]
theorem clockLoss_refLost (s : State) : (clockLoss s).time.refLost = (s.time.refLost || !s.island.refclk) := by
  unfold clockLoss
  exact congrArg TimeBase.refLost (foldl_keep (·.time) _ (fun s a => raiseOutput_time a 0 s) _ _)
/-- The state in which the clock is known to be lost. -/
def clockGone (pllOnly : Bool) (s : State) : State := s.modIsland fun i => { i with refclk := i.refclk && pllOnly, pll := false }
theorem refclkLoss_eq (pllOnly : Bool) (s : State) : refclkLoss pllOnly s =
    if s.island.good.getLsbD 0 then clockLoss (clockGone pllOnly s) else clockGone pllOnly s := rfl
theorem refclkLoss_island (pllOnly : Bool) (s : State) : (refclkLoss pllOnly s).island = (clockGone pllOnly s).island := by
  rw [refclkLoss_eq]
  split
  · exact (islandFrame_clockLoss _).island
  · rfl

/-- Settles O22. -/
theorem railAndClockLoss : Obligations.RailAndClockLoss := by
  refine ⟨⟨fun s n hon hen hgood hidle hnone hr => ?_, fun s n k hon hr hdrop => ?_⟩,
    fun s pllOnly href hpll hr => ?_, fun s hlost => ?_⟩
  · obtain ⟨hen', hgood', -, -, hwork⟩ := railsLost_spec n s
    obtain ⟨h1, h2, h3⟩ := railFailure_idle (n := n) hidle hnone
    refine ⟨_, doneIf_pos (by rw [hon, hen, hgood]; rfl) hr _, ?_⟩
    rw [settle_island, settle_store, h1, h2, h3, hen', hgood', hwork]
    exact ⟨rfl, rfl, rfl⟩
  · obtain ⟨hen, hgood, hseqr, hmode, hstart, hstore⟩ := disorderlyDrop_spec hdrop
    refine ⟨_, disorderlyEntry n k s, doneIf_pos (by rw [hon, hdrop]; rfl) hr _, ?_⟩
    rw [settle_island, settle_store, hstore]
    exact ⟨hen, hgood, hseqr, hmode, hstart, rfl, rfl, rfl, rfl⟩
  · refine ⟨_, doneIf_pos ?_ hr _, ?_⟩
    · rw [href]; cases pllOnly <;> simp [hpll]
    · rw [settle_island, settle_axes, settle_flt, settle_time, refclkLoss_island]
      refine ⟨by simp [clockGone, href], fun hservo => ?_⟩
      rw [refclkLoss_eq, if_pos hservo]
      have haxes (a : Fin 32) := clockLoss_axes (clockGone pllOnly s) a
      refine ⟨fun a ha => (haxes a).1.trans (if_neg ha), fun a ha => (haxes a).1.trans (if_pos ha), fun a => (haxes a).2, ?_⟩
      rintro rfl
      simp [clockLoss_refLost, clockGone]
  · have hc : (!s.island.refclk || !s.island.pll) = true := by rcases hlost with h | h <;> simp [h]
    rw [exec, execRefclkReturn, doneIf_free hc rfl]
    rfl

end Sys2Proof.Machine
end

section
/-! SUPPORT. Partial reloads and stores of a plan: GO, refusal, the stages, the slot (R39 to R45). -/
set_option Elab.async false
namespace Sys2Proof.Machine

/-! ### Results (R45) -/

/-- What WRP_RESULT and the loader take when an apply, a reload or a store completes. -/
def Loader.result (kind : Nat) (code : BitVec 8) (stage part ofs : Nat) (l : Loader) : Loader :=
  { l with
    code := code, rstage := BitVec.ofNat 4 stage, part := BitVec.ofNat 5 part, kind := BitVec.ofNat 2 kind,
    tag := l.tag.bump, ofs := BitVec.ofNat 32 ofs, job := .none, stage := 0 }
@[simp] theorem planResult_loader (kind : Nat) (code : BitVec 8) (stage part ofs : Nat) (q : BitVec 64) (s : State) :
    (planResult kind code stage part ofs q s).loader = s.loader.result kind code stage part ofs := by
  simp [planResult, Loader.result]
theorem planResult_axes (kind : Nat) (code : BitVec 8) (stage part ofs : Nat) (q : BitVec 64) (s : State) :
    (planResult kind code stage part ofs q s).axes = s.axes := by simp [planResult]
theorem planResult_parts (kind : Nat) (code : BitVec 8) (stage part ofs : Nat) (q : BitVec 64) (s : State) :
    (planResult kind code stage part ofs q s).parts = s.parts := by simp [planResult]
theorem rejected_setRejected (i : Fin 2) (v : Bool) (s : State) :
    rejected (setRejected i v s).store.work i = v := by
  unfold setRejected rejected
  rw [setBlock_work]
  by_cases h : i = 0 <;> simp [h]

/-! ### The selvedge opens again (R385) -/

/-- The plan loader and the island's working copy of the state block stay. -/
def KeepsPlan (s t : State) : Prop := t.loader = s.loader ∧ t.store.work = s.store.work
theorem KeepsPlan.trans {s t u : State} (h : KeepsPlan s t) (k : KeepsPlan t u) : KeepsPlan s u :=
  ⟨k.1.trans h.1, k.2.trans h.2⟩
theorem IslandFrame.keepsPlan {s t : State} (h : IslandFrame s t) : KeepsPlan s t := ⟨h.loader, h.work⟩
theorem keepsPlan_openPart (p : Fin 32) (s : State) : KeepsPlan s (openPart p s) := by
  unfold openPart
  dsimp only
  have hdrop : KeepsPlan s ((partFids s p).foldl (fun s f => dropCause f 9 (dropCause f 8 s)) s) :=
    (IslandFrame.foldl (g := fun s f => dropCause f 9 (dropCause f 8 s)) (fun s f => .of_fields rfl rfl rfl rfl) _ _).keepsPlan
  refine hdrop.trans (KeepsPlan.trans ?_ (IslandFrame.foldl (fun s f => islandFrame_leaveFault _ _ _) _ _).keepsPlan)
  exact ⟨rfl, rfl⟩
theorem fidType_core {n : Nat} (hn : n < 48) : fidType (fidMk 1 n) = 1 := by
  unfold fidType fidMk
  simp only [BitVec.toNat_ofNat]
  omega
theorem keepsPlan_releaseFirstCore (p : Fin 32) (s : State) : KeepsPlan s (releaseFirstCore p s) := by
  unfold releaseFirstCore
  split
  · next hfind =>
    obtain ⟨n, rfl⟩ : ∃ n : Fin 48, _ = n.val := by simpa using List.mem_of_find?_eq_some hfind
    split
    · exact ⟨rfl, rfl⟩
    · unfold releaseFn
      rw [fidType_core n.isLt]
      dsimp only
      generalize coreVector s _ = v
      cases v <;> exact ⟨rfl, rfl⟩
  · exact ⟨rfl, rfl⟩
theorem keepsPlan_reloadOpen (p : Fin 32) (s : State) : KeepsPlan s (reloadOpen p s) := by
  unfold reloadOpen
  split
  · exact ⟨rfl, rfl⟩
  · refine ((keepsPlan_openPart p s).trans (keepsPlan_releaseFirstCore p _)).trans ?_
    exact ⟨by rw [openEnd, emitTo_loader], by rw [openEnd, emitTo_store]⟩

/-! ### The partial reload -/

/-- Step 1 to 3 of R42: the running axes go safe, the selvedge closes, and every function of the partition is reset. -/
def closeSelvedge (p : Fin 32) (s : State) : State :=
  resetPart p (fencePart p islandFid ((runningAxes s p).foldl (fun s a => axisTo a .safe 0 1 0 s) s))
theorem reloadCompare_refused {s : State} {p : Fin 32} {i : Fin 2} {f : Bool} {e : BitVec 8 × Nat × Nat}
    (h : reloadRefusal s p i f = some e) :
    reloadCompare p i f s = planResult 1 e.1 e.2.1 p e.2.2 (slotSeq s i) s := by rw [reloadCompare, h]
theorem reloadCompare_accepted {s : State} {p : Fin 32} {i : Fin 2} {f : Bool} (h : reloadRefusal s p i f = none) :
    reloadCompare p i f s = (reopenEntries p (closeSelvedge p s)).modLoader fun l =>
      { l with job := .reloadStages p i, stage := 2 } := by rw [reloadCompare, h]; rfl
theorem reloadCompare_goesOn {s : State} {p : Fin 32} {i : Fin 2} {f : Bool} (h : reloadRefusal s p i f = none) :
    let t := reloadCompare p i f s
    t.loader.job = .reloadStages p i ∧ t.loader.stage = 2 ∧ t.rat.reopened = some p ∧
      t.parts = (closeSelvedge p s).parts ∧ t.rat = (reopenEntries p (closeSelvedge p s)).rat := by
  rw [reloadCompare_accepted h]
  generalize closeSelvedge p s = u
  exact ⟨rfl, rfl, rfl, rfl, rfl⟩
theorem closeSelvedge_fenced (p : Fin 32) (s : State) : (vget (closeSelvedge p s).parts p).fenced = true :=
  (islandFrame_resetPart p _).fenced p (islandFrame_fencePart p islandFid _).2
theorem reopenEntries_invalid (p : Fin 32) (s : State) :
    ∀ e ∈ (reopenEntries p s).rat.entries.toList, e.owner = some p → e.valid = false := by
  intro e he hp
  simp only [reopenEntries, State.modRat, Vector.toList_map, List.mem_map] at he
  obtain ⟨a, -, rfl⟩ := he
  split
  · rfl
  · next h => rw [if_neg h] at hp; exact absurd hp h
theorem execReloadCompareDone_of_job {s : State} {p : Fin 32} {i : Fin 2} {f : Bool}
    (h : s.loader.job = .reloadCompare p i f) :
    exec .reloadCompareDone s = .next (settle (reloadCompare p i f s)) := by
  simp only [exec, execReloadCompareDone, h, done]
theorem execReloadDone_of_job {s : State} {p : Fin 32} {i : Fin 2} (h : s.loader.job = .reloadStages p i) :
    exec .reloadDone s = .next (settle (reloadStages p i s)) := by simp only [exec, execReloadDone, h, done]
theorem execStoreVerifyDone_of_job {s : State} {i : Fin 2} {img : List Byte} {c : BitVec 8}
    (h : s.loader.job = .store i img c) :
    exec .storeVerifyDone s = .next (settle (storeVerify i img c s)) := by
  simp only [exec, execStoreVerifyDone, h, done]
/-- The stages end: the new plan is sealed, and the selvedge opens as R385 states. -/
theorem reloadStages_applied {s : State} {p : Fin 32} {i : Fin 2} {img : List Byte} (himg : slotImage s i = some img)
    (h : (runStages (.part p) img s).2 = none) :
    (reloadStages p i s).loader = ({ s.loader with
      active := some i, plan := img, isSealed := true, seq := planSeq img, hash := planHash img } : Loader).result
        1 0 12 p 0 := by
  have hrun : runStages (.part p) img s = ((runStages (.part p) img s).1, none) := Prod.ext rfl h
  rw [reloadStages, himg]
  dsimp only
  rw [hrun]
  dsimp only
  rw [(keepsPlan_reloadOpen _ _).1, planResult_loader]
  unfold activate State.modLoader
  dsimp only
  rw [(islandFrame_runStages p img s).loader]
/-- A rejected stage: the old share again, and the slot's rejected mark (R42, R43). -/
theorem reloadStages_rejected {s : State} {p : Fin 32} {i : Fin 2} {img : List Byte} {e : Nat × BitVec 8 × Nat}
    (himg : slotImage s i = some img) (h : (runStages (.part p) img s).2 = some e) :
    (reloadStages p i s).loader = s.loader.result 1 e.2.1 e.1 p e.2.2 ∧
      rejected (reloadStages p i s).store.work i = true := by
  have hrun : runStages (.part p) img s = ((runStages (.part p) img s).1, some e) := Prod.ext rfl h
  rw [reloadStages, himg]
  dsimp only
  rw [hrun]
  dsimp only
  rw [(keepsPlan_reloadOpen _ _).1, (keepsPlan_reloadOpen _ _).2, planResult_loader, planResult_block]
  refine ⟨?_, rejected_setRejected i true _⟩
  have hold := (islandFrame_runStages p img s).trans
    (islandFrame_runStages p (runStages (.part p) img s).1.loader.plan (runStages (.part p) img s).1)
  have hmark (t : State) : (setRejected i true t).loader = t.loader := rfl
  rw [hmark, hold.loader]

/-! ### The store -/

theorem storeVerify_refused {s : State} {i : Fin 2} {img : List Byte} {e : BitVec 8 × Nat × Nat}
    (h : storeRefusal s i img = some e) :
    storeVerify i img 0 s = planResult 2 e.1 e.2.1 0 e.2.2 (planSeq img) s := by
  rw [storeVerify, if_neg (by decide), h]
theorem storeVerify_accepted {s : State} {i : Fin 2} {img : List Byte} (h : storeRefusal s i img = none) :
    storeVerify i img 0 s = planResult 2 0 1 0 0 (planSeq img) (storeAccept i img s) := by
  rw [storeVerify, if_neg (by decide), h]
theorem storeAccept_queue (i : Fin 2) (img : List Byte) (s : State) : (storeAccept i img s).store.queue =
    s.store.queue ++ [.slot i (.valid img (planSeq img)), .block (storeAccept i img s).store.work] := by
  simp [storeAccept, setRejected, setBlock, storeReq, State.modStore]

/-! ### The writes that start one -/

theorem wrpBusy_eq_false {s : State} (h : s.loader.job = .none) : wrpBusy s = false := by simp [wrpBusy, h]
theorem wrpBusy_eq_true {s : State} (h : s.loader.job ≠ .none) : wrpBusy s = true := by simp [wrpBusy, h]
theorem reloadWrite_free {s : State} {p : Fin 32} {i : Fin 2} {f : Bool} (h : s.loader.job = .none) :
    reloadWrite p i f true s = { s with loader := { s.loader with
      relPart := BitVec.ofNat 5 p, relSlot := i = 1, relForce := f, job := .reloadCompare p i f } } := by
  unfold reloadWrite
  dsimp only
  rw [if_neg (by decide), if_neg (by rw [wrpBusy_eq_false (by exact h)]; decide)]
  rfl
theorem reloadWrite_busy {s : State} {p : Fin 32} {i : Fin 2} {f : Bool} (h : s.loader.job ≠ .none) :
    reloadWrite p i f true s = { s with loader := { s.loader with
      relPart := BitVec.ofNat 5 p, relSlot := i = 1, relForce := f, ign := satInc s.loader.ign } } := by
  unfold reloadWrite
  dsimp only
  rw [if_neg (by decide), if_pos (wrpBusy_eq_true (by exact h))]
  rfl

/-- A write of WRP_RELOAD with GO (R40, R44). -/
theorem exec_wrpReloadGo {s : State} {w : Master} {p : Fin 32} {i : Fin 2} {f : Bool}
    (hw : Admits w (wrpBase + 0x100) s) :
    exec (.wrpReloadGo w p i f) s = .next (settle (reloadWrite p i f true s)) := by
  rw [exec, execWrpReloadGo, regWriteAt_of_admits hw, done]
/-- A write of WRP_STORE_CTRL with GO (R39, R44). -/
theorem exec_wrpStoreGo {s : State} {w : Master} {i : Fin 2} (hw : Admits w (wrpBase + 0x210) s) :
    exec (.wrpStoreGo w i) s = .next (settle (storeWrite i true s)) := by
  rw [exec, execWrpStoreGo, regWriteAt_of_admits hw, done]
theorem rdBytes_congr {s t : State} (h : t.mem = s.mem) (a n : Nat) : rdBytes t a n = rdBytes s a n := by
  induction n generalizing a with
  | zero => rfl
  | succ n ih => rw [rdBytes, rdBytes, ih, rdByte, rdByte, h]
theorem rdBytes_modLoader (f : Loader → Loader) (s : State) (a n : Nat) :
    rdBytes (s.modLoader f) a n = rdBytes s a n :=
  rdBytes_congr (t := s.modLoader f) (s := s) rfl a n
theorem storeReadable_modLoader (f : Loader → Loader) (s : State) (i : Fin 2) (a n : Nat) :
    storeReadable (s.modLoader f) i a n = storeReadable s i a n := by
  unfold storeReadable
  rfl
theorem storeWrite_free {s : State} {i : Fin 2} (h : s.loader.job = .none) :
    let c := storeReadable s i s.loader.storeAddr.toNat s.loader.storeLen.toNat
    let img := if c = 0 then rdBytes s s.loader.storeAddr.toNat s.loader.storeLen.toNat else []
    storeWrite i true s = { s with loader := { s.loader with
      storeSlot := i = 1, stage := 1, job := .store i img c } } := by
  unfold storeWrite
  dsimp only
  rw [if_neg (by decide), if_neg (by rw [wrpBusy_eq_false (by exact h)]; decide)]
  rw [storeReadable_modLoader, rdBytes_modLoader]
  rfl
theorem storeWrite_busy {s : State} {i : Fin 2} (h : s.loader.job ≠ .none) :
    storeWrite i true s = { s with loader := { s.loader with
      storeSlot := i = 1, ign := satInc s.loader.ign } } := by
  unfold storeWrite
  dsimp only
  rw [if_neg (by decide), if_pos (wrpBusy_eq_true (by exact h))]
  rfl

/-! ### The obligation -/

/-- Settles O23: GO starts the comparison or counts in IGN; the comparison refuses or closes the selvedge; the stages
frame the loader, which the result then fills; a store's check refuses, or queues the slot and its cleared mark. -/
theorem reloadAndStore : Obligations.ReloadAndStore := by
  refine ⟨⟨?_, ?_, ?_⟩, ?_, ?_⟩
  · intro s w p i f hw
    rw [exec_wrpReloadGo hw]
    exact ⟨fun hjob => by rw [reloadWrite_free hjob], fun hjob => by rw [reloadWrite_busy hjob]⟩
  · intro s p i f hjob
    rw [execReloadCompareDone_of_job hjob]
    refine ⟨fun e he => ⟨_, rfl, ?_⟩, fun hnone => ⟨_, rfl, ?_⟩⟩
    · rw [reloadCompare_refused he, settle_loader, settle_axes, settle_parts, planResult_axes, planResult_parts,
        planResult_loader]
      exact ⟨rfl, rfl, rfl⟩
    · obtain ⟨hnext, hstage, hopen, hparts, hrat⟩ := reloadCompare_goesOn hnone
      rw [settle_loader, settle_rat, settle_parts]
      refine ⟨hnext, hstage, hopen, ?_, ?_⟩
      · rw [hparts]
        exact closeSelvedge_fenced p s
      · rw [hrat]
        exact reopenEntries_invalid p _
  · intro s p i img hjob
    rw [execReloadDone_of_job hjob]
    refine ⟨fun hslot => by rw [reloadStages, hslot]; rfl, fun hslot => ⟨fun hrun => ⟨_, rfl, ?_⟩,
      fun e hrun => ⟨_, rfl, ?_⟩⟩⟩
    · rw [settle_loader, reloadStages_applied hslot hrun]
      exact ⟨rfl, rfl, rfl, rfl, rfl, rfl, rfl, rfl⟩
    · obtain ⟨hloader, hmark⟩ := reloadStages_rejected hslot hrun
      rw [settle_loader, settle_store, hloader]
      exact ⟨rfl, rfl, rfl, rfl, rfl, rfl, hmark⟩
  · intro s w i hw c img
    rw [exec_wrpStoreGo hw]
    exact ⟨fun hjob => by rw [storeWrite_free hjob], fun hjob => by rw [storeWrite_busy hjob]⟩
  · intro s i img c hjob
    rw [execStoreVerifyDone_of_job hjob]
    refine ⟨fun hc => ⟨_, rfl, ?_⟩, ?_, ?_⟩
    · rw [settle_loader, settle_store, storeVerify, if_pos hc, planResult_loader, planResult_block]
      exact ⟨rfl, rfl⟩
    · rintro rfl e he
      refine ⟨_, rfl, ?_⟩
      rw [settle_loader, settle_store, storeVerify_refused he, planResult_loader, planResult_block]
      exact ⟨rfl, rfl⟩
    · rintro rfl hnone
      refine ⟨_, rfl, ?_⟩
      rw [settle_loader, settle_store, storeVerify_accepted hnone, planResult_loader, planResult_block]
      exact ⟨rfl, storeAccept_queue i img s, rejected_setRejected i false _⟩

end Sys2Proof.Machine
end

section
/-! SUPPORT. A chip in full mode whose functions P0 owns: the scene of the refutations that need a unit at work. -/
set_option Elab.async false
namespace Sys2Proof.Machine

/-- Full mode, every function released and P0's; P0's event stream is open, and its ring lies in stacked DRAM. -/
def busyState : State :=
  { ringState with
    island := { ringState.island with mode := .full, pll := true, ddrSize := 2 ^ 37 }
    parts := vset (vrep 32 {}) 0 {
      assigned := true, tiles := BitVec.allOnes 64, cores := BitVec.allOnes 48, shuttle := 0xFFFF, axes := 0xFFFFFFFF,
      treadle := 0xFF, units := 0xFF, rports := 0xFF, clusters := 0xF, fbk := BitVec.allOnes 40, peat := 0xFF, grh := 0xFFFF }
    cores := vrep 48 { held := false }
    clusterHeld := 0
    tiles := vrep 64 { held := false }
    shuttle := vrep 16 { held := false }
    rports := vrep 8 { exists_ := true, up := true }
    ports := vrep 16 { st := .up }
    trd := vrep 8 { held := false }
    fbk := vrep 40 { held := false }
    cc := { held := false } }
/-- An address of stacked DRAM above the ring. -/
def cellAddr : Nat := 0x10000001000
/-- Memory lists the byte at `cellAddr` behind a byte of a higher address, so that no write of 0 finds it: the list is
not in the canonical form that every write keeps (`memWf`), which the statements do not ask for. -/
def unsortedMem : List Host.Cell := [(cellAddr + 0x1000, 1), (cellAddr, 1)]
def unsortedState : State := { busyState with mem := unsortedMem }

/-- The state that a command leads to. -/
def outState : Host.Outcome State Fault Refusal → State
  | .next t => t
  | _ => State.reset
theorem eq_outState {o : Host.Outcome State Fault Refusal} {t : State} (h : o = .next t) : t = outState o := by
  rw [h]
  rfl

end Sys2Proof.Machine
end

section
/-! SUPPORT. Stores, atomics and vector stores of a core, where memory's list is not in its canonical form. -/
set_option Elab.async false
namespace Sys2Proof.Machine

/-- The byte at `cellAddr` as a core reaches it in M-mode. -/
def cellPiece (len : Nat) : Piece := { va := BitVec.ofNat 64 cellAddr, pa := cellAddr, len := len, pb := .pma }
theorem cell_admits_byte : DramAccess 0 .store (BitVec.ofNat 64 cellAddr) 1 (cellPiece 1) unsortedState :=
  ⟨by decide +kernel, by decide +kernel, rfl, by decide +kernel⟩
theorem cell_admits_word : DramAccess 0 .store (BitVec.ofNat 64 cellAddr) 4 (cellPiece 4) unsortedState :=
  ⟨by decide +kernel, by decide +kernel, rfl, by decide +kernel⟩

/-- A byte store of 0 at `cellAddr`. -/
def zeroStore : MemAcc :=
  { pc := 0, kind := .store, addr := BitVec.ofNat 64 cellAddr, size := 0, data := 0, rd := 0, fp := false, signed := false }
theorem zeroStore_misses_cell :
    rdByte (outState (exec (.loadStore 0 zeroStore .clean) unsortedState)) cellAddr = 1 := by decide +kernel
/-- Refutes O25: core 0 stores the byte 0 at a DRAM address that P0's region entry admits. Memory lists that address
behind a greater one, so the store of 0 does not find it, and the byte still reads 1. -/
theorem not_coreStores : ¬ Obligations.CoreStores := by
  intro h
  obtain ⟨t, ht, hbytes, -⟩ := h unsortedState 0 zeroStore .clean (cellPiece 1) rfl cell_admits_byte
  have hcell := hbytes cellAddr
  rw [eq_outState ht, zeroStore_misses_cell] at hcell
  exact absurd hcell (by decide)

theorem swap_misses_cell : rdBytes (outState (exec (.amoLrSc 0 0 .swap (BitVec.ofNat 64 cellAddr) false 0 0 false false)
    unsortedState)) cellAddr 4 = [1, 0, 0, 0] := by decide +kernel
/-- Refutes O27: AMOSWAP.W of 0 into a word whose first byte memory lists behind a greater address; the write of 0 does
not find it, so the word still reads 1. -/
theorem not_atomicsAndCacheBlocks : ¬ Obligations.AtomicsAndCacheBlocks := by
  rintro ⟨hatomics, -⟩
  obtain ⟨halign, -⟩ := hatomics unsortedState 0 0 (BitVec.ofNat 64 cellAddr) 0 false 0 false false (cellPiece 4)
  obtain ⟨hamo, -⟩ := halign (by decide) (by decide +kernel)
  obtain ⟨t, ht, -, ⟨hword, -⟩, -⟩ := hamo .swap (by decide) (by decide) cell_admits_word (by decide +kernel)
  have hswap := swap_misses_cell
  rw [← eq_outState ht] at hswap
  exact absurd (hword.symm.trans hswap) (by decide)

/-- The store of an element 0 of one byte at `cellAddr`. -/
def zeroElem : VElem :=
  { idx := 0, store := true, addr := BitVec.ofNat 64 cellAddr, size := 0, data := 0, vd := 0, elem := 0 }
theorem zeroElem_misses_cell :
    rdByte (outState (exec (.vectorLoadStore 0 0 [zeroElem] none) unsortedState)) cellAddr = 1 := by decide +kernel
/-- Refutes O28: a vector store of one element 0 at a byte that memory lists behind a greater address; the byte still
reads 1. -/
theorem not_vectors : ¬ Obligations.Vectors := by
  intro h
  obtain ⟨-, -, -, hstore, -⟩ := h unsortedState 0 0 (by decide +kernel)
  obtain ⟨t, ht, -, -, hbytes⟩ := hstore zeroElem (cellPiece 1) rfl (by decide) cell_admits_byte
  have hcell := hbytes cellAddr
  rw [eq_outState ht, zeroElem_misses_cell] at hcell
  exact absurd hcell (by decide)

end Sys2Proof.Machine
end

section
/-! SUPPORT. Writes of 0 by root ports, commands, the Shuttle, the Peat engines and the fabric, where memory's list is
not in its canonical form: they do not find the byte they are meant for. -/
set_option Elab.async false
namespace Sys2Proof.Machine

/-! ### The cell -/

theorem dramRange_of_lt {s : State} {p : Fin 32} {k : AccKind} {side : Side} {a n : Nat}
    (h : ∀ i, i < n → isDram s (a + i) = true ∧ ratCheck s p (a + i) k side = none) (hp : poisoned s a n = false)
    (hr : s.rat.reopened = none) : DramRange s p k side a n := by
  refine ⟨fun b h1 h2 => ?_, hp, hr⟩
  rw [← Nat.add_sub_cancel' h1]
  exact h (b - a) (by omega)
def zeros : List Byte := List.replicate 8 0

/-! ### Root ports -/

theorem inbound_misses_cell : rdByte (outState (exec (.inboundPcieAccess 0 true (BitVec.ofNat 64 cellAddr) 8 zeros)
    unsortedState)) cellAddr = 1 := by decide +kernel
/-- Refutes O31: root port 0 writes eight bytes 0 to DRAM that P0's region admits; memory lists the first of them behind
a greater address, and it still reads 1. -/
theorem not_interruptsScrubAndPorts : ¬ Obligations.InterruptsScrubAndPorts := by
  rintro ⟨-, hports, -⟩
  obtain ⟨hwrite, -⟩ := hports unsortedState 0 0 (BitVec.ofNat 64 cellAddr) 8 zeros (by decide +kernel) (by decide +kernel)
  obtain ⟨t, ht, -, hbytes⟩ := hwrite (by decide +kernel) (by decide +kernel) (by decide +kernel) rfl (by decide +kernel)
  have hcell := hbytes cellAddr
  rw [eq_outState ht, inbound_misses_cell] at hcell
  exact absurd hcell (by decide +kernel)

/-! ### Commands -/

/-- A WRITE_INLINE of one byte 0 at `cellAddr`, in place 0 of queue 0. -/
def zeroInline : Cmd :=
  { slot := 0, bytes := [1, 0, 0, 1] ++ List.replicate 28 0 ++ natLe 8 cellAddr ++ List.replicate 216 0 }
def inlineState : State :=
  { unsortedState with queues := vset unsortedState.queues 0 { vget unsortedState.queues 0 with disp := [zeroInline] } }
theorem writeInline_misses_cell : rdByte (outState (exec (.writeInline 0 0) inlineState)) cellAddr = 1 := by
  decide +kernel
/-- Refutes O33: WRITE_INLINE of one byte 0 into DRAM that P0's region admits; memory lists the byte behind a greater
address, and it still reads 1. -/
theorem not_commandsFlow : ¬ Obligations.CommandsFlow := by
  rintro ⟨-, hinline⟩
  obtain ⟨-, hwrite⟩ := hinline inlineState 0 0 zeroInline
  obtain ⟨-, hbytes, -⟩ := hwrite (by decide +kernel) 0 (by decide +kernel)
  obtain ⟨t, ht, -, hbyte, -⟩ := hbytes (by decide +kernel) (by decide +kernel)
    (dramRange_of_lt (by decide +kernel) (by decide +kernel) rfl)
  have hcell := hbyte cellAddr
  rw [eq_outState ht, writeInline_misses_cell] at hcell
  exact absurd hcell (by decide +kernel)

/-! ### The Shuttle -/

/-- The final write of channel 0 of group 0: eight bytes 0 at `cellAddr`. -/
def zeroFinal : NetWrite :=
  { remote := false, dst := 0, part := 0, addr := cellAddr, data := zeros, stream := 0, final := true }
def finalState : State :=
  { unsortedState with shuttle := vset unsortedState.shuttle 0 { held := false, ch := vset (vrep 8 {}) 0 { out := [zeroFinal] } } }
theorem finalWrite_misses_cell : rdByte (outState (exec (.finalWriteRelease 0 0) finalState)) cellAddr = 1 := by
  decide +kernel
/-- Refutes O39: a final write of eight bytes 0 into DRAM that P0's region admits; memory lists the first of them behind
a greater address, and it still reads 1. -/
theorem not_shuttleChains : ¬ Obligations.ShuttleChains := by
  intro h
  obtain ⟨-, -, -, hfinal⟩ := h finalState 0 0 0 (by decide +kernel)
  obtain ⟨t, ht, -, hbytes⟩ := hfinal zeroFinal (by decide +kernel) rfl rfl rfl (by decide +kernel) (by decide +kernel)
    (by decide +kernel) rfl (dramRange_of_lt (by decide +kernel) (by decide +kernel) rfl)
  have hcell := hbytes cellAddr
  rw [eq_outState ht, finalWrite_misses_cell] at hcell
  exact absurd hcell (by decide +kernel)

/-! ### Peat engines -/

/-- ZERO of the granule at `cellAddr`, which is engine 16's. -/
def zeroRun : PeatRun := { why := .trig, opc := 2, tag := 0, base := cellAddr, len := 256 }
def zeroState : State := unsortedState.modEng 0 16 fun e => { e with run := some zeroRun }
theorem peatZero_misses_cell : rdByte (outState (exec (.peatZero 0 16) zeroState)) cellAddr = 1 := by decide +kernel
/-- Refutes O40: ZERO of a granule whose first byte memory lists behind a greater address; the byte still reads 1. -/
theorem not_peatEngines : ¬ Obligations.PeatEngines := by
  rintro ⟨-, hops, -⟩
  obtain ⟨-, -, hzero, -⟩ := hops zeroState 0 16 zeroRun
  obtain ⟨t, ht, -, hbytes⟩ := hzero (by decide +kernel) (by decide +kernel) (by decide +kernel)
  have hcell := hbytes cellAddr
  rw [eq_outState ht, peatZero_misses_cell] at hcell
  exact absurd hcell (by decide +kernel)

/-! ### The fabric -/

/-- A WRITE packet of eight bytes 0 to P0 at `cellAddr`, delivered through port 0. -/
def zeroPacket : Packet :=
  { ttype := 1, final := false, detour := false, dchip := 0, schip := 0, spart := 0, hops := 48,
    daddr := BitVec.ofNat 44 cellAddr, cause := 0, tid := 0, stream := 0, data := zeros }
def deliveredState : State :=
  { unsortedState with ports := vset unsortedState.ports 0 { st := .up, rx := [(none, zeroPacket)] } }
theorem remoteWrite_misses_cell : rdByte (outState (exec (.remoteWriteRx 0) deliveredState)) cellAddr = 1 := by
  decide +kernel
/-- Refutes O42: a WRITE of eight bytes 0 into DRAM that P0's region admits; memory lists the first of them behind a
greater address, and it still reads 1. -/
theorem not_fabricWrites : ¬ Obligations.FabricWrites := by
  rintro ⟨hwrites, -⟩
  obtain ⟨hlands, -⟩ := hwrites deliveredState 0 zeroPacket (by decide +kernel)
  obtain ⟨t, ht, -, -, hbytes⟩ := hlands (by decide) (by decide +kernel)
    (dramRange_of_lt (by decide +kernel) (by decide +kernel) rfl)
  have hcell := hbytes cellAddr
  rw [eq_outState ht, remoteWrite_misses_cell] at hcell
  exact absurd hcell (by decide +kernel)

/-! ### Training channels -/

/-- A channel of this chip and chip 1, whose staging area begins at `cellAddr`. -/
def stagedDesc : ChanDesc :=
  { id := 7, drop := false, fmt := 0, nmemb := 2, nspare := 0, self := 0, staleMax := 1, missMax := 1, paceGrace := 0,
    earlyClose := false, stepEvents := true, kper := 0, t0 := 0, period := 80000, deadlineOfs := 40000, nelem := 8,
    ckptEvery := 0, recover := 0, grad := 0x1000, resid := 0, master := 0x10000010000, param := 0x10000020000,
    acc := 0x10000030000, short := 0x10000040000, stage := cellAddr, ckpt := 0x10000050000, members := [0, 1], crc := 0 }
/-- A contribution of four bytes 0, not the last packet of its stream. -/
def zeroContrib : Packet := { zeroPacket with ttype := 0x10, schip := 1, data := natLe 8 7 ++ List.replicate 12 0 }
def stagedState : State :=
  { unsortedState with
    chans := vset unsortedState.chans 0 (vset (vrep 8 {}) 0 { st := .run, desc := some stagedDesc })
    ports := vset unsortedState.ports 0 { st := .up, rx := [(none, zeroContrib)] } }
theorem contribution_misses_cell : rdByte (outState (exec (.collectivePacketRx 0) stagedState)) cellAddr = 1 := by
  decide +kernel
theorem contribution_place : collPlace stagedState stagedDesc (ckindOf zeroContrib.data) (leAt zeroContrib.data 12 2)
    (BitVec.ofNat 32 (cstepOf zeroContrib.data)) (leAt zeroContrib.data 8 4) (zeroContrib.data.drop 16).length =
      some [(cellAddr, 4)] := by decide +kernel
/-- Refutes O44: a contribution of four bytes 0 lands in its staging area; memory lists the first of them behind a
greater address, and it still reads 1. -/
theorem not_channelSteps : ¬ Obligations.ChannelSteps := by
  intro h
  obtain ⟨hpackets, -⟩ := h stagedState 0 0 stagedDesc (by decide +kernel)
  obtain ⟨-, hlands, -⟩ := hpackets 0 zeroContrib (by decide) (by decide +kernel) (by decide +kernel)
  have hrange : DramRange stagedState (packetPart zeroContrib) .store .engine cellAddr 4 :=
    dramRange_of_lt (by decide +kernel) (by decide +kernel) rfl
  obtain ⟨hopen, -⟩ := hlands _ (by decide +kernel) contribution_place
    (fun r hr => by rw [List.mem_singleton.mp hr]; exact hrange) rfl
  obtain ⟨t, ht, -, hbytes, -⟩ := hopen (.inl rfl)
  have hcell := hbytes cellAddr rfl cellAddr
  rw [eq_outState ht, contribution_misses_cell] at hcell
  exact absurd hcell (by decide +kernel)

end Sys2Proof.Machine
end

section
/-! SUPPORT. Reflex lanes: requests, answers and misses (R190, R192, R261). -/
set_option Elab.async false
namespace Sys2Proof.Machine

/-- Lane l replaced. -/
def State.setLane (l : Fin 8) (n : Lane) (s : State) : State := { s with lanes := vset s.lanes l n }
/-- The request that a lane's tick makes. -/
def Lane.asks (s : State) (n m : Lane) : Lane :=
  { m with req := some { t0 := s.time.it, input := laneInput s n s.time.it }, requests := satInc n.requests }
theorem laneTick_idle {s : State} {l : Fin 8} (h : (vget s.lanes l).req = none) :
    laneTick l s = s.setLane l ((vget s.lanes l).asks s (vget s.lanes l)) := by
  unfold laneTick State.modLane vmod
  dsimp only
  rw [h]
  rfl
theorem laneTick_late {s : State} {l : Fin 8} {q : LaneReq} (h : (vget s.lanes l).req = some q) :
    laneTick l s = s.setLane l ((vget s.lanes l).asks s { vget s.lanes l with
      missed := ((vget s.lanes l).missed ++ [q.t0]).drop ((vget s.lanes l).missed.length - 7)
      late := satInc (vget s.lanes l).late }) := by
  unfold laneTick State.modLane vmod
  dsimp only
  rw [h]
  rfl
/-- A finite answer is delivered with its latency (R192). -/
def Lane.answered (s : State) (q : LaneReq) (n : Lane) : Lane :=
  let lat : BitVec 24 := BitVec.ofNat 24 (laneAge s q)
  { n with
    req := none, answers := (n.answers ++ [(q.t0, laneNet n q.input)]).drop (n.answers.length - 7), last := lat,
    max := if n.max < lat then lat else n.max, tag := n.tag.bump }
theorem laneAnswer_finite {s : State} {l : Fin 8} {q : LaneReq}
    (h : (laneNet (vget s.lanes l) q.input).all f32fin = true) :
    laneAnswer l q s = s.setLane l ((vget s.lanes l).answered s q) := by
  unfold laneAnswer State.modLane vmod
  dsimp only
  rw [if_pos h]
  rfl
theorem laneAnswer_nonfinite {s : State} {l : Fin 8} {q : LaneReq}
    (h : (laneNet (vget s.lanes l) q.input).all f32fin = false) :
    laneAnswer l q s = s.setLane l { laneMissed q.t0 (vget s.lanes l) with
      nonfinite := satInc (vget s.lanes l).nonfinite } := by
  unfold laneAnswer State.modLane vmod
  dsimp only
  rw [if_neg (by rw [h]; decide)]
  rfl

/-- Settles O38: a tick, an answer and a deadline each change their lane alone, as the lemmas above say of each case. -/
theorem reflexLanes : Obligations.ReflexLanes := by
  intro s l n
  refine ⟨fun hgood hon haxes hper hgrid => ?_, fun q hq hworks hage hbound => ?_, fun q hq hdead => ?_⟩
  · have hdue : (vsvoGood s && n.on && decide (n.axes ≠ []) && decide (n.period ≠ 0) &&
        decide (s.time.it.toNat % n.period = 0)) = true := by simp [*]
    have hexec : exec (.laneTick l) s = .next (settle (laneTick l s)) := doneIf_free hdue rfl
    exact ⟨fun hreq => by rw [hexec, laneTick_idle hreq]; rfl, fun q hreq => by rw [hexec, laneTick_late hreq]; rfl⟩
  · have hmay : (laneWorks s l && decide (laneAge s q ≤ n.deadline.toNat) && decide (laneAge s q ≤ laneBound s n)) = true := by
      simp [*]
    have hexec : exec (.laneAnswer l) s = .next (settle (laneAnswer l q s)) := by
      rw [exec, execLaneAnswer]
      rw [show (vget s.lanes l).req = some q from hq]
      exact doneIf_free hmay rfl
    exact ⟨fun hfin => by rw [hexec, laneAnswer_finite hfin]; rfl,
      fun hinf => by rw [hexec, laneAnswer_nonfinite hinf]; rfl⟩
  · rw [exec, execLaneDeadline, show (vget s.lanes l).req = some q from hq]
    exact doneIf_free (decide_eq_true hdead) rfl

end Sys2Proof.Machine
end

section
/-! SUPPORT. One instruction of a Treadle engine: what a fetched word runs, format A and format B rows, program faults. -/
set_option Elab.async false
namespace Sys2Proof.Machine

theorem vset_vset {α : Type} {n : Nat} (v : Vector α n) (i : Fin n) (a b : α) : vset (vset v i a) i b = vset v i b := by
  simp [vset]
theorem vset_vget {α : Type} {n : Nat} (v : Vector α n) (i : Fin n) : vset v i (vget v i) = v := by
  simp [vset, vget]

/-! ### Fields of a word -/

theorem and_mask (n lo len : Nat) : n &&& ((2 ^ len - 1) <<< lo) = fld n lo len <<< lo := by
  apply Nat.eq_of_testBit_eq
  intro i
  simp only [fld, Nat.testBit_and, Nat.testBit_shiftLeft, Nat.testBit_two_pow_sub_one, Nat.testBit_mod_two_pow,
    Nat.testBit_shiftRight]
  by_cases h : lo ≤ i
  · simp only [h, decide_true, Bool.true_and, show lo + (i - lo) = i by omega]
    exact Bool.and_comm _ _
  · simp [h]
/-- Reserved bits that a field names are clear. -/
theorem and_eq_zero_of_fld {n lo len m : Nat} (h : fld n lo len = 0) (hm : m = (2 ^ len - 1) <<< lo) : n &&& m = 0 := by
  rw [hm, and_mask, h, Nat.zero_shiftLeft]

/-! ### The engine with its cache filled -/

/-- The state in which an instruction's body runs: its word may have entered the cache (R287). -/
def filled (e : Fin 8) (h : Bool) (s : State) : State := s.modTrd e fun t => t.fill h
theorem vget_filled (e : Fin 8) (h : Bool) (s : State) : vget (filled e h s).trd e = (vget s.trd e).fill h :=
  vget_vmod_same _ _ _
/-- An engine of the filled state replaced is that engine of the state replaced. -/
theorem vset_filled (e : Fin 8) (h : Bool) (s : State) (t : Engine) :
    vset (filled e h s).trd e t = vset s.trd e t := by
  unfold filled State.modTrd vmod
  exact vset_vset _ _ _ _
theorem fill_eq (t : Engine) (h : Bool) : ∃ c, t.fill h = { t with cache := c } := by
  unfold Engine.fill
  dsimp only
  split
  · split
    · exact ⟨_, rfl⟩
    · exact ⟨t.cache, rfl⟩
  · exact ⟨t.cache, rfl⟩
theorem fill_bank (t : Engine) (h k : Bool) : (t.fill h).bank k = t.bank k := by
  obtain ⟨c, hc⟩ := fill_eq t h
  rw [hc]
  rfl
theorem fill_hook (t : Engine) (h : Bool) : (t.fill h).hook = t.hook := by
  obtain ⟨c, hc⟩ := fill_eq t h
  rw [hc]
theorem fill_pfault (t : Engine) (h : Bool) : (t.fill h).pfault = t.pfault := by
  obtain ⟨c, hc⟩ := fill_eq t h
  rw [hc]
theorem commit_filled (e : Fin 8) (h : Bool) (b : Bank) (s : State) :
    commit e h b (filled e h s) = { s with trd := vset s.trd e (((vget s.trd e).fill h).into h b) } := by
  unfold commit State.modTrd vmod
  rw [vget_filled, vset_filled]
  rfl

/-! ### Rows -/

variable {s : State} {e : Fin 8} {h : Bool} {w : BitVec 32} {op : Nat}

theorem trdRow_fetched {body : Bool → BitVec 32 → State → State} (hf : Fetches s e h w) (hdef : opcDefined op = true)
    (hop : opc w = op) : trdRow e op body s = .next (settle (body h w (filled e h s))) := by
  obtain ⟨hact, hpast, hword⟩ := hf
  unfold trdRow
  rw [hact]
  dsimp only
  rw [hpast, hword, hop, hdef, if_neg (by decide), if_neg (by decide), if_neg (by simp)]
  rfl
theorem trdRow_undefined {body : Bool → BitVec 32 → State → State} (hf : Fetches s e h w)
    (hdef : opcDefined (opc w) = false) : trdRow e op body s = .next (settle (progFault e h 1 s)) := by
  obtain ⟨hact, hpast, hword⟩ := hf
  unfold trdRow
  rw [hact]
  dsimp only
  rw [hpast, hword, hdef, if_neg (by decide), if_pos (by decide)]
  rfl
/-- A format A instruction: its operation's bank, then the moves and the C bus (R288). -/
theorem rowA_fetched {f : FmtA → Bank → Bank} {r : Bank} (hf : Fetches s e h w) (hx : (fmtA w).xop ≠ 3)
    (hy : (fmtA w).yop ≠ 3) (hdef : opcDefined op = true) (hop : opc w = op)
    (hr : f (fmtA w) (((vget s.trd e).fill h).bank h) = r) :
    let t := (vget s.trd e).fill h
    let m := moves (fmtA w) (t.bank h) r ((Config.freeWord s.free).setWidth 32) t
    rowA e op f s = .next (settle { s with free := s.free + 1, trd := vset s.trd e (m.1.into h m.2.next) }) := by
  subst hr
  intro t m
  rw [rowA, trdRow_fetched hf hdef hop]
  dsimp only
  rw [if_neg (by simp [hx, hy])]
  have hfree : freshFree (filled e h s) = (Config.freeWord s.free, { filled e h s with free := s.free + 1 }) := rfl
  rw [hfree]
  dsimp only
  rw [vget_filled, vset_filled]
  rfl
/-- A format B instruction that completes. -/
theorem rowB_ok {res : Nat} {f : State → Bool → BitVec 32 → Bank → BOut} {b : Bank} (hf : Fetches s e h w)
    (hdef : opcDefined op = true) (hop : opc w = op) (hres : w.toNat &&& res = 0)
    (hok : f (filled e h s) h w (((vget s.trd e).fill h).bank h) = .ok b) :
    rowB e op res f s = .next (settle { s with trd := vset s.trd e (((vget s.trd e).fill h).into h b) }) := by
  rw [rowB, trdRow_fetched hf hdef hop]
  rw [if_neg (by simp [hres]), vget_filled, hok, ← commit_filled]
/-- A format B instruction that faults. -/
theorem rowB_error {res : Nat} {f : State → Bool → BitVec 32 → Bank → BOut} {c : BitVec 8} (hf : Fetches s e h w)
    (hdef : opcDefined op = true) (hop : opc w = op) (hres : w.toNat &&& res = 0)
    (herr : f (filled e h s) h w (((vget s.trd e).fill h).bank h) = .error c) :
    rowB e op res f s = .next (settle (progFault e h c (filled e h s))) := by
  rw [rowB, trdRow_fetched hf hdef hop]
  rw [if_neg (by simp [hres]), vget_filled, herr]

/-! ### Program faults (R294) -/

theorem progFault_eq (h : Bool) (code : BitVec 8) (s : State) : let t := vget s.trd e
    let u := vget (progFault e h code s).trd e
    u.errCode = code ∧ u.errPc = (t.bank h).pc ∧ u.errBank = h ∧ (h = false → u.bg = .halted) ∧
      u.pfault = satInc t.pfault := by
  have habandon (i : Fin 4) (v : State) : ∃ k o c f n p, vget (hookAbandon e i v).trd e = { vget v.trd e with
      hook := k, out := o, cache := c, filling := f, haband := n, pendHooks := p } := by
    unfold hookAbandon State.modTrd
    dsimp only
    rw [vget_vmod_same]
    split <;> exact ⟨_, _, _, _, _, _, rfl⟩
  unfold progFault
  dsimp only
  cases h
  · split <;> simp [State.modTrd]
  · split
    · next i hi =>
      obtain ⟨k, o, c, f, n, p, hu⟩ := habandon i (s.modTrd e fun t => { t with
        errCode := code, errPc := (t.bank true).pc, errBank := true, errTag := t.errTag.bump, pfault := satInc t.pfault })
      simp only [if_true] at hi ⊢
      rw [hu]
      simp [State.modTrd]
    · simp [State.modTrd]
/-- A fault of an instruction that was fetched into the cache is that of the instruction. -/
theorem progFault_filled (h : Bool) (code : BitVec 8) (s : State) :
    let t := (vget s.trd e).fill h
    let u := vget (progFault e h code (filled e h s)).trd e
    u.errCode = code ∧ u.errPc = (t.bank h).pc ∧ u.errBank = h ∧ (h = false → u.bg = .halted) ∧
      u.pfault = satInc (vget s.trd e).pfault := by
  have hfault := progFault_eq (e := e) h code (filled e h s)
  dsimp only at hfault
  rw [vget_filled, fill_pfault] at hfault
  exact hfault

end Sys2Proof.Machine
end

section
/-! SUPPORT. The operations of format A as the statement writes them (R288, R289, Table 12.5). -/
set_option Elab.async false
namespace Sys2Proof.Machine

/-! ### Exact results narrowed -/

theorem toInt_ofInt_eq_iff (n : Nat) (v : Int) : (BitVec.ofInt (n + 1) v).toInt ≠ v ↔ v < -(2 ^ n) ∨ 2 ^ n ≤ v := by
  have hpow : (2 : Int) ^ (n + 1) = 2 * 2 ^ n := by ring
  have hpos : (0 : Int) < 2 ^ n := by positivity
  constructor
  · intro h
    by_contra hin
    push Not at hin
    exact h (BitVec.toInt_ofInt_eq_self (by omega) (by simpa using hin.1) (by simpa using hin.2))
  · rintro h heq
    have hlow := BitVec.le_toInt (BitVec.ofInt (n + 1) v)
    have hhigh := BitVec.toInt_lt (x := BitVec.ofInt (n + 1) v)
    simp only [Nat.add_sub_cancel] at hlow hhigh
    omega
/-- A saturated result differs from the exact one where that is out of range. -/
theorem toInt_satInt_ne_iff (v : Int) : (satInt 32 v).toInt ≠ v ↔ v < -(2 ^ 31) ∨ 2 ^ 31 ≤ v := by
  unfold satInt
  split
  · next h =>
    refine iff_of_true ?_ (.inr (by omega))
    rw [show (BitVec.ofInt 32 (2 ^ (32 - 1) - 1)).toInt = 2 ^ 31 - 1 by decide]
    omega
  · split
    · next h =>
      refine iff_of_true ?_ (.inl (by omega))
      rw [show (BitVec.ofInt 32 (-(2 ^ (32 - 1)))).toInt = -(2 ^ 31) by decide]
      omega
    · exact toInt_ofInt_eq_iff 31 v
theorem wrap72_eq (v : Int) : wrap72 v = (BitVec.ofInt 72 v, decide (v < -(2 ^ 71) ∨ 2 ^ 71 ≤ v)) := by
  unfold wrap72
  rw [decide_eq_decide.mpr (toInt_ofInt_eq_iff 71 v)]
theorem sat32f_eq (v : Int) : sat32f v = (satInt 32 v, decide (v < -(2 ^ 31) ∨ 2 ^ 31 ≤ v)) := by
  unfold sat32f
  rw [decide_eq_decide.mpr (toInt_satInt_ne_iff v)]
theorem wrap32_add (x y : BitVec 32) :
    wrap32 (x.toInt + y.toInt) = (x + y, decide ((x + y).toInt ≠ x.toInt + y.toInt)) := by
  have h : BitVec.ofInt 32 (x.toInt + y.toInt) = x + y := by simp [BitVec.ofInt_add]
  rw [wrap32, h]
theorem wrap32_sub (x y : BitVec 32) :
    wrap32 (x.toInt - y.toInt) = (x - y, decide ((x - y).toInt ≠ x.toInt - y.toInt)) := by
  have h : BitVec.ofInt 32 (x.toInt - y.toInt) = x - y := by
    rw [Int.sub_eq_add_neg, BitVec.ofInt_add, BitVec.ofInt_neg, BitVec.ofInt_toInt, BitVec.ofInt_toInt, BitVec.sub_eq_add_neg]
  rw [wrap32, h]
/-- A product, doubled or not, is within 72 bits. -/
theorem product_range (b : Bank) (x y : BitVec 32) : ¬ (b.product x y < -(2 ^ 71) ∨ 2 ^ 71 ≤ b.product x y) := by
  have hx : |x.toInt| ≤ 2 ^ 31 := abs_le.mpr ⟨by have := BitVec.le_toInt x; omega, by have := BitVec.toInt_lt (x := x); omega⟩
  have hy : |y.toInt| ≤ 2 ^ 31 := abs_le.mpr ⟨by have := BitVec.le_toInt y; omega, by have := BitVec.toInt_lt (x := y); omega⟩
  have hxy : |x.toInt * y.toInt| ≤ 2 ^ 31 * 2 ^ 31 := by
    rw [abs_mul]
    exact mul_le_mul hx hy (abs_nonneg _) (by positivity)
  have := abs_le.mp hxy
  unfold Bank.product
  split <;> omega
theorem add72_eq (b : Bank) (d : Nat) (v : Int) : b.add72 d v =
    { b.setAcc d (BitVec.ofInt 72 ((b.acc d).toInt + v)) with
      n := (BitVec.ofInt 72 ((b.acc d).toInt + v)).msb
      z := decide (BitVec.ofInt 72 ((b.acc d).toInt + v) = 0)
      v := decide ((b.acc d).toInt + v < -(2 ^ 71) ∨ 2 ^ 71 ≤ (b.acc d).toInt + v) } := by
  unfold Bank.add72
  rw [wrap72_eq]
  rfl

/-- Settles O48: each row runs its operation on the bank (`rowA_fetched`); the narrowing of exact results is that of the
lemmas above. -/
theorem treadleArithmetic : Obligations.TreadleArithmetic := by
  intro s e h w hf hxop hyop f t b x y a Does Res Acc Sat Sum
  have hrow {c : Instr} {x : Host.Outcome State Fault Refusal} {op : Nat} {r : Bank} {g : FmtA → Bank → Bank}
      (hexec : exec c s = x) (hx : x = rowA e op g s) (hdef : opcDefined op = true) (hr : g f b = r) : Does c op r := by
    intro hop
    exact (hexec.trans hx).trans (rowA_fetched hf hxop hyop hdef hop hr)
  have hsat (v : Int) : b.result f.d (sat32f v).1 false (sat32f v).2 = Sat v := by rw [sat32f_eq]; rfl
  refine ⟨hrow (x := execTrdNop e s) rfl rfl rfl ?trdnop, hrow (x := execMpy e s) rfl rfl rfl ?mpy,
    hrow (x := execMac e s) rfl rfl rfl ?mac, hrow (x := execMsu e s) rfl rfl rfl ?msu,
    hrow (x := execAdd e s) rfl rfl rfl ?add, hrow (x := execSub e s) rfl rfl rfl ?sub,
    hrow (x := execAdds e s) rfl rfl rfl ?adds, hrow (x := execSubs e s) rfl rfl rfl ?subs,
    hrow (x := execAnd e s) rfl rfl rfl ?and, hrow (x := execOr e s) rfl rfl rfl ?or,
    hrow (x := execXor e s) rfl rfl rfl ?xor, hrow (x := execMov e s) rfl rfl rfl ?mov,
    hrow (x := execNeg e s) rfl rfl rfl ?neg, hrow (x := execAbs e s) rfl rfl rfl ?abs,
    hrow (x := execMax2 e s) rfl rfl rfl ?max2, hrow (x := execMin2 e s) rfl rfl rfl ?min2,
    hrow (x := execAsh e s) rfl rfl rfl ?ash, hrow (x := execLsh e s) rfl rfl rfl ?lsh,
    hrow (x := execRnd e s) rfl rfl rfl ?rnd, hrow (x := execAcc e s) rfl rfl rfl ?acc,
    hrow (x := execClr e s) rfl rfl rfl ?clr, hrow (x := execCmp e s) rfl rfl rfl ?cmp,
    hrow (x := execMva e s) rfl rfl rfl ?mva⟩
  case mpy =>
    dsimp only
    rw [wrap72_eq, decide_eq_false (product_range _ _ _)]
    rfl
  case mac => exact add72_eq _ _ _
  case msu =>
    refine (add72_eq _ _ _).trans ?_
    rw [← sub_eq_add_neg]
    rfl
  case add =>
    dsimp only
    rw [wrap32_add]
    rfl
  case sub =>
    dsimp only
    rw [wrap32_sub]
    rfl
  case adds => exact hsat _
  case subs => exact hsat _
  case neg => exact hsat _
  case abs =>
    dsimp only
    rw [Int.natCast_natAbs]
    exact hsat _
  case ash =>
    dsimp only [ashOf]
    split
    · next hk => exact (hsat _).trans (if_pos hk).symm
    · next hk => exact Eq.trans rfl (if_neg hk).symm
  case acc => exact add72_eq _ _ _
  case cmp =>
    dsimp only
    rw [wrap32_sub]
    have hz : decide (x - y = 0) = decide (x = y) := decide_eq_decide.mpr sub_eq_zero
    exact congrArg (fun z : Bool => { b with
      n := (x - y).msb, z := z, v := decide ((x - y).toInt ≠ x.toInt - y.toInt) }) hz
  all_goals rfl

end Sys2Proof.Machine
end

section
/-! SUPPORT. Formats B and C of a Treadle engine: sequencing, ports, program ends, the long instructions. -/
set_option Elab.async false
namespace Sys2Proof.Machine

section Rows
variable {s : State} {e : Fin 8} {h : Bool} {w : BitVec 32}

theorem modTrd_filled (e : Fin 8) (h : Bool) (f : Engine → Engine) (s : State) :
    (filled e h s).modTrd e f = { s with trd := vset s.trd e (f ((vget s.trd e).fill h)) } := by
  unfold State.modTrd vmod
  rw [vget_filled, vset_filled]
  rfl

/-! ### What an instruction comes to -/

/-- The command replaces the bank that runs by `b`. -/
def Becomes (s : State) (e : Fin 8) (h : Bool) (c : Instr) (b : Bank) : Prop :=
  exec c s = .next (settle { s with trd := vset s.trd e (((vget s.trd e).fill h).into h b) })
/-- The command is a program fault of the instruction that runs. -/
def FaultsWith (s : State) (e : Fin 8) (h : Bool) (c : Instr) (code : BitVec 8) : Prop :=
  ∃ u, exec c s = .next u ∧ (vget u.trd e).errCode = code ∧
    (vget u.trd e).errPc = (((vget s.trd e).fill h).bank h).pc ∧ (vget u.trd e).errBank = h ∧
    (h = false → (vget u.trd e).bg = .halted) ∧ (vget u.trd e).pfault = satInc (vget s.trd e).pfault
theorem faultsWith_of_filled {c : Instr} {code : BitVec 8}
    (hexec : exec c s = .next (settle (progFault e h code (filled e h s)))) : FaultsWith s e h c code := by
  refine ⟨_, hexec, ?_⟩
  rw [settle_trd]
  exact progFault_filled h code s
theorem faultsWith_of_undefined {c : Instr} (hexec : exec c s = .next (settle (progFault e h 1 s))) :
    FaultsWith s e h c 1 := by
  refine ⟨_, hexec, ?_⟩
  rw [settle_trd, fill_bank]
  exact progFault_eq h 1 s
/-- A format B row that completes. -/
theorem becomes_of_rowB {c : Instr} {x : Host.Outcome State Fault Refusal} {op res : Nat}
    {f : State → Bool → BitVec 32 → Bank → BOut} {b : Bank} (hf : Fetches s e h w) (hexec : exec c s = x)
    (hx : x = rowB e op res f s) (hdef : opcDefined op = true) (hop : opc w = op) (hres : w.toNat &&& res = 0)
    (hok : f (filled e h s) h w (((vget s.trd e).fill h).bank h) = .ok b) : Becomes s e h c b :=
  (hexec.trans hx).trans (rowB_ok hf hdef hop hres hok)
/-- A format B row that faults. -/
theorem faultsWith_of_rowB {c : Instr} {x : Host.Outcome State Fault Refusal} {op res : Nat}
    {f : State → Bool → BitVec 32 → Bank → BOut} {code : BitVec 8} (hf : Fetches s e h w) (hexec : exec c s = x)
    (hx : x = rowB e op res f s) (hdef : opcDefined op = true) (hop : opc w = op) (hres : w.toNat &&& res = 0)
    (herr : f (filled e h s) h w (((vget s.trd e).fill h).bank h) = .error code) : FaultsWith s e h c code :=
  faultsWith_of_filled ((hexec.trans hx).trans (rowB_error hf hdef hop hres herr))

/-! ### Counts, ports and banks -/

theorem fld_lt (n lo len : Nat) : fld n lo len < 2 ^ len := Nat.mod_lt _ (by positivity)
theorem longN_eq (b : Bank) (w : BitVec 32) :
    longN b w = if fld w.toNat 0 12 = 0 then b.lc.toNat else fld w.toNat 0 12 := by
  unfold longN Bank.count
  split
  · rfl
  · rw [BitVec.toNat_ofNat, Nat.mod_eq_of_lt (fld_lt _ _ _)]
theorem longN_lt (b : Bank) (w : BitVec 32) : longN b w < 2 ^ 12 := BitVec.isLt _
theorem portIn_filled (port : Nat) : portIn (filled e h s) e port = portIn s e port := by
  unfold portIn
  rw [vget_filled, fill_hook]
  rfl
theorem word_fill (t : Engine) (h : Bool) (b : Bank) : (t.fill h).word b = t.word b := by
  obtain ⟨c, hc⟩ := fill_eq t h
  rw [hc]
  rfl

/-! ### Long instructions -/

/-- How many elements a budget lets run. -/
def stepsOf (budget : Option (BitVec 12)) (m : Nat) : Nat := match budget with | some k => min k.toNat m | none => m
/-- A long run comes to an end, or stops at an element boundary with LIP set (R291). -/
theorem longRun_eq (budget : Option (BitVec 12)) (f fin_ : Bank → Bank) (b : Bank) (s : State) :
    let r := elems f (stepsOf budget b.scnt.toNat) b
    (r.scnt = 0 → longRun e h budget f fin_ b s =
      { s with trd := vset s.trd e ((vget s.trd e).into h (Bank.next { fin_ r with lip := false })) }) ∧
    (r.scnt ≠ 0 → longRun e h budget f fin_ b s =
      { s with trd := vset s.trd e ((vget s.trd e).setBank h { r with lip := true }) }) := by
  have hsteps : ∃ k, longRun e h budget f fin_ b s = (
      let r := elems f k b
      if r.scnt = 0 then commit e h (Bank.next { fin_ r with lip := false }) s
      else s.modTrd e fun t => t.setBank h { r with lip := true }) ∧ k = stepsOf budget b.scnt.toNat := by
    refine ⟨_, rfl, ?_⟩
    cases budget with
    | none => exact min_eq_right (show b.scnt.toNat ≤ 65536 from b.scnt.isLt.le)
    | some k => rfl
  obtain ⟨k, hrun, rfl⟩ := hsteps
  rw [hrun]
  exact ⟨fun hr => if_pos hr, fun hr => if_neg hr⟩
theorem longRun_filled (budget : Option (BitVec 12)) (f fin_ : Bank → Bank) (b : Bank) :
    let r := elems f (stepsOf budget b.scnt.toNat) b
    (r.scnt = 0 → longRun e h budget f fin_ b (filled e h s) =
      { s with trd := vset s.trd e (((vget s.trd e).fill h).into h (Bank.next { fin_ r with lip := false })) }) ∧
    (r.scnt ≠ 0 → longRun e h budget f fin_ b (filled e h s) =
      { s with trd := vset s.trd e (((vget s.trd e).fill h).setBank h { r with lip := true }) }) := by
  have hrun := longRun_eq (e := e) (h := h) budget f fin_ b (filled e h s)
  dsimp only at hrun
  rw [vget_filled, vset_filled, vset_filled] at hrun
  exact hrun

/-- The bank with which MAXI or MINI begins its scan. -/
def scanBank (max : Bool) (w : BitVec 32) (b : Bank) : Bank :=
  b.setD (fld w.toNat 23 3) (if max then 0x80000000#32 else 0x7FFFFFFF#32)
/-- A scan that is not resumed: without elements it ends at once. -/
theorem scan_first {max : Bool} {budget : Option (BitVec 12)} (hres : scanReserved w = false)
    (hlip : (((vget s.trd e).fill h).bank h).lip = false) :
    let t := (vget s.trd e).fill h
    let b := t.bank h
    longFirst e h (scan e max h w false budget) (filled e h s) =
      if longN b w = 0 then commit e h (Bank.next ((scanBank max w b).setD (fld w.toNat 20 3) 0xFFFFFFFF#32)) (filled e h s)
      else longRun e h budget (scanElem t max w (longN b w)) (fun b => b.setD (fld w.toNat 20 3) (b.spos.setWidth 32))
        { scanBank max w b with scnt := BitVec.ofNat 16 (longN b w), spos := 0 } (filled e h s) := by
  intro t b
  unfold longFirst
  rw [if_neg (by rw [vget_filled, hlip]; decide)]
  unfold scan
  rw [hres, if_neg (by decide)]
  dsimp only
  rw [vget_filled, if_neg (by decide)]
  rfl
theorem bmac_first {budget : Option (BitVec 12)} (hres : w.toNat &&& 0x000FF000 = 0)
    (hlip : (((vget s.trd e).fill h).bank h).lip = false) :
    let t := (vget s.trd e).fill h
    let b := t.bank h
    longFirst e h (bmacRun e h w false budget) (filled e h s) =
      longRun e h budget (bmacElem t w (longN b w)) id { b with scnt := BitVec.ofNat 16 (longN b w), spos := 0 }
        (filled e h s) := by
  dsimp only
  unfold longFirst
  rw [if_neg (by rw [vget_filled, hlip]; decide)]
  unfold bmacRun
  rw [hres, if_neg (by decide)]
  dsimp only
  rw [vget_filled, if_neg (by decide)]
theorem toNat_ofNat_longN (b : Bank) (w : BitVec 32) : (BitVec.ofNat 16 (longN b w)).toNat = longN b w := by
  rw [BitVec.toNat_ofNat, Nat.mod_eq_of_lt (by have := longN_lt b w; omega)]

/-! ### The rows of Table 12.6 -/

theorem undefined_faults (hf : Fetches s e h w) (hdef : opcDefined (opc w) = false) :
    ∀ c, c ∈ [Instr.trdNop e, .ldi e, .halt e] → FaultsWith s e h c 1 := by
  have hrow {c : Instr} {x : Host.Outcome State Fault Refusal} {op : Nat} {body : Bool → BitVec 32 → State → State}
      (hexec : exec c s = x) (hx : x = trdRow e op body s) : FaultsWith s e h c 1 :=
    faultsWith_of_undefined ((hexec.trans hx).trans (trdRow_undefined hf hdef))
  intro c hc
  simp only [List.mem_cons, List.not_mem_nil, or_false] at hc
  obtain rfl | rfl | rfl := hc
  · exact hrow (x := rowA e 0 (fun _ b => b) s) rfl rfl
  · exact hrow (x := execLdi e s) rfl (by rw [execLdi, rowB])
  · exact hrow (x := execHalt e s) rfl rfl
theorem stm_stores (hf : Fetches s e h w) (hop : opc w = 0x25) (hres : fld w.toNat 13 10 = 0) :
    let t := (vget s.trd e).fill h
    let b := t.bank h
    let u := t.setData (w.setWidth 13) (vget b.d (reg8 (fld w.toNat 23 3)))
    exec (.stm e) s = .next (settle { s with trd := vset s.trd e (u.into h b.next) }) := by
  dsimp only
  have hclear : w.toNat &&& 0x007FE000 = 0 := and_eq_zero_of_fld hres rfl
  rw [exec, execStm, trdRow_fetched hf rfl hop]
  dsimp only
  rw [if_neg (not_not_intro hclear), modTrd_filled]
  rfl
theorem call_row (hf : Fetches s e h w) (hop : opc w = 0x2A) (hres : fld w.toNat 12 14 = 0) :
    let b := ((vget s.trd e).fill h).bank h
    (b.calls.length < 8 → Becomes s e h (.call e) { b with pc := w.setWidth 12, calls := (b.pc + 1) :: b.calls }) ∧
      (8 ≤ b.calls.length → FaultsWith s e h (.call e) 3) := by
  refine ⟨fun hlen => ?_, fun hlen => ?_⟩
  · exact becomes_of_rowB (x := execCall e s) hf rfl rfl rfl hop (and_eq_zero_of_fld hres rfl) (if_pos hlen)
  · exact faultsWith_of_rowB (x := execCall e s) hf rfl rfl rfl hop (and_eq_zero_of_fld hres rfl) (if_neg (by omega))
theorem ret_row (hf : Fetches s e h w) (hop : opc w = 0x2B) (hres : fld w.toNat 12 14 = 0) :
    let b := ((vget s.trd e).fill h).bank h
    (∀ r l, b.calls = r :: l → Becomes s e h (.ret e) (Bank.next { b with pc := r - 1, calls := l })) ∧
      (b.calls = [] → FaultsWith s e h (.ret e) 3) := by
  refine ⟨fun r l hcalls => ?_, fun hcalls => ?_⟩
  · exact becomes_of_rowB (x := execRet e s) hf rfl rfl rfl hop (and_eq_zero_of_fld hres rfl) (by rw [hcalls])
  · exact faultsWith_of_rowB (x := execRet e s) hf rfl rfl rfl hop (and_eq_zero_of_fld hres rfl) (by rw [hcalls])
theorem rep_row (hf : Fetches s e h w) (hop : opc w = 0x2C) (hres : fld w.toNat 12 14 = 0) :
    let t := (vget s.trd e).fill h
    let b := t.bank h
    b.next.past = false → opc (t.word b.next) ≤ 0x16 →
      (b.count (fld w.toNat 0 12) ≠ 0 →
        Becomes s e h (.rep e) { b.next with inRep := true, repeat_ := b.count (fld w.toNat 0 12) }) ∧
      (b.count (fld w.toNat 0 12) = 0 → Becomes s e h (.rep e) b.next.next) := by
  intro t b hpast hword
  have hfits : ¬ ((!b.next.past) = true ∧ 0x16 < opc ((vget (filled e h s).trd e).word b.next)) := by
    rintro ⟨-, hlong⟩
    rw [vget_filled] at hlong
    exact absurd hword (not_le.mpr hlong)
  refine ⟨fun hm => ?_, fun hm => ?_⟩
  · refine becomes_of_rowB (x := execRep e s) hf rfl rfl rfl hop (and_eq_zero_of_fld hres rfl) ?_
    dsimp only
    rw [if_neg hfits, if_neg hm]
  · refine becomes_of_rowB (x := execRep e s) hf rfl rfl rfl hop (and_eq_zero_of_fld hres rfl) ?_
    dsimp only
    rw [if_neg hfits, if_pos hm, hpast, if_neg (by decide)]
theorem loop_row (hf : Fetches s e h w) (hop : opc w = 0x2D) (hres : fld w.toNat 24 2 = 0) :
    let b := ((vget s.trd e).fill h).bank h
    let m := b.count (fld w.toNat 0 12)
    let en := BitVec.ofNat 12 (fld w.toNat 12 12)
    b.pc.toNat < fld w.toNat 12 12 →
      (m = 0 → Becomes s e h (.loop e) (Bank.next { b with pc := en })) ∧
      (m ≠ 0 → b.loops.length < 4 →
        Becomes s e h (.loop e) { b with pc := b.pc + 1, loops := (b.pc + 1, en, m, b.calls.length) :: b.loops }) ∧
      (m ≠ 0 → 4 ≤ b.loops.length → FaultsWith s e h (.loop e) 3) := by
  intro b m en hbody
  have hahead : ¬ en ≤ b.pc := by
    rw [BitVec.le_def, BitVec.toNat_ofNat, Nat.mod_eq_of_lt (fld_lt _ _ _)]
    omega
  refine ⟨fun hm => ?_, fun hm hlen => ?_, fun hm hlen => ?_⟩
  · refine becomes_of_rowB (x := execLoop e s) hf rfl rfl rfl hop (and_eq_zero_of_fld hres rfl) ?_
    dsimp only
    rw [if_neg hahead, if_pos hm]
  · refine becomes_of_rowB (x := execLoop e s) hf rfl rfl rfl hop (and_eq_zero_of_fld hres rfl) ?_
    dsimp only
    rw [if_neg hahead, if_neg hm, if_neg (not_le.mpr hlen)]
  · refine faultsWith_of_rowB (x := execLoop e s) hf rfl rfl rfl hop (and_eq_zero_of_fld hres rfl) ?_
    dsimp only
    rw [if_neg hahead, if_neg hm, if_pos hlen]
theorem in_row (hf : Fetches s e h w) (hop : opc w = 0x2E) (hres : fld w.toNat 8 14 = 0) {v : BitVec 64}
    (hport : portIn s e (fld w.toNat 0 8) = some v) :
    let b := ((vget s.trd e).fill h).bank h
    let d := fld w.toNat 23 3
    (bitOf w.toNat 22 = false → Becomes s e h (.in_ e) (b.setD d (v.setWidth 32)).next) ∧
    (bitOf w.toNat 22 = true → d % 2 = 0 → pairIn (fld w.toNat 0 8) = true → Becomes s e h (.in_ e)
      ((b.setD d (v.setWidth 32)).setD (d + 1) ((v >>> 32).setWidth 32)).next) := by
  intro b d
  refine ⟨fun hone => ?_, fun htwo heven hpair => ?_⟩
  · refine becomes_of_rowB (x := execIn e s) hf rfl rfl rfl hop (and_eq_zero_of_fld hres rfl) ?_
    dsimp only
    rw [hone, if_neg (by simp), portIn_filled, hport]
    rfl
  · refine becomes_of_rowB (x := execIn e s) hf rfl rfl rfl hop (and_eq_zero_of_fld hres rfl) ?_
    dsimp only
    rw [htwo, if_neg (by omega), portIn_filled, hport]
    dsimp only
    rw [hpair, if_pos rfl, if_pos rfl]

/-- What OUT writes: a pair's two words, SP sign-extended, any other one word (R293). -/
def outValue (n : Nat) (k : Fin 3) (b : Bank) : BitVec 64 :=
  let d := fld n 23 3
  if bitOf n 22 then (b.dReg (d + 1)).setWidth 64 <<< 32 ||| (b.dReg d).setWidth 64
  else if k = 0 then (b.dReg d).signExtend 64 else (b.dReg d).setWidth 64
theorem out_row (hf : Fetches s e h w) (hop : opc w = 0x2F) (hres : fld w.toNat 8 14 = 0)
    (hpair : bitOf w.toNat 22 = true → fld w.toNat 23 3 % 2 = 0 ∧ fld w.toNat 0 8 % 16 = 0xA) {i : Fin 4} {k : Fin 3}
    (rivals : List Rival) (hport : portOut (fld w.toNat 0 8) = some (i, k)) :
    let t := (vget s.trd e).fill h
    let b := t.bank h
    let v := outValue w.toNat k b
    exec (.out e rivals) s = .next (settle (outPort e h i k v rivals { s with trd := vset s.trd e (t.into h b.next) })) := by
  have hclear : w.toNat &&& 0x003FFF00 = 0 := and_eq_zero_of_fld hres rfl
  have hlegal : ¬ (w.toNat &&& 0x003FFF00 ≠ 0 ∨ (bitOf w.toNat 22 = true ∧ fld w.toNat 23 3 % 2 = 1)) := by
    rintro (hbits | ⟨htwo, hodd⟩)
    · exact hbits hclear
    · have := (hpair htwo).1
      omega
  have hsp : ¬ (bitOf w.toNat 22 = true ∧ fld w.toNat 0 8 % 16 ≠ 0xA) := fun hn => hn.2 (hpair hn.1).2
  dsimp only
  rw [exec, execOut, trdRow_fetched hf rfl hop]
  dsimp only
  rw [if_neg hlegal, hport]
  dsimp only
  rw [if_neg hsp, vget_filled, commit_filled]
  rfl
theorem reth_row (hf : Fetches s e h w) (hop : opc w = 0x30) (hres : fld w.toNat 0 26 = 0) {i : Fin 4} (rivals : List Rival)
    (hhook : ((vget s.trd e).fill h).hook = some i) :
    let t := (vget s.trd e).fill h
    exec (.reth e rivals) s = .next (settle (orders (hookOrders e t.out ++ rivals) { s with
      trd := vset s.trd e { t with bank1 := t.bank1.next, cache := [], filling := false, hook := none, out := [] }
      axes := vmod s.axes (engineAxis e i) fun x => { x with hookPend := false } })) := by
  have hclear : w.toNat &&& 0x03FFFFFF = 0 := and_eq_zero_of_fld hres rfl
  dsimp only
  rw [exec, execReth, trdRow_fetched hf rfl hop]
  rw [if_neg (not_not_intro hclear), vget_filled, hhook]
  dsimp only
  rw [modTrd_filled]
  unfold hookEnd State.modTrd vmod
  rw [vget_vset_same, vset_vset]
  rfl
theorem halt_row (hf : Fetches s e h w) (hop : opc w = 0x31) (hres : fld w.toNat 0 26 = 0) :
    let t := (vget s.trd e).fill h
    (h = false → exec (.halt e) s = .next (settle { s with
      trd := vset s.trd e { t.into h (t.bank h).next with bg := .halted } })) ∧
    (h = true → FaultsWith s e h (.halt e) 5) := by
  have hclear : w.toNat &&& 0x03FFFFFF = 0 := and_eq_zero_of_fld hres rfl
  have hexec : exec (.halt e) s = .next (settle (if h then progFault e h 5 (filled e h s)
      else (commit e h ((vget s.trd e).fill h).bank0.next (filled e h s)).modTrd e fun t => { t with bg := .halted })) := by
    rw [exec, execHalt, trdRow_fetched hf rfl hop]
    rw [if_neg (not_not_intro hclear), vget_filled]
  refine ⟨fun hbg => ?_, fun hhook => faultsWith_of_filled ?_⟩
  · rw [hexec, if_neg (by rw [hbg]; decide), commit_filled]
    subst hbg
    unfold State.modTrd vmod
    rw [vget_vset_same, vset_vset]
    rfl
  · rw [hexec, if_pos hhook]
theorem waitit_row (hf : Fetches s e h w) (hop : opc w = 0x32) (hres : fld w.toNat 0 23 = 0)
    (heven : fld w.toNat 23 3 % 2 = 0) :
    let t := (vget s.trd e).fill h
    let b := t.bank h
    let d := fld w.toNat 23 3
    (h = false → waitTime b d ≤ s.time.it → Becomes s e h (.waitit e) b.next) ∧
    (h = false → s.time.it < waitTime b d → exec (.waitit e) s = .next (settle { s with
      trd := vset s.trd e { t with bg := .waitit } })) ∧
    (h = true → FaultsWith s e h (.waitit e) 5) := by
  have hclear : w.toNat &&& 0x007FFFFF = 0 := and_eq_zero_of_fld hres rfl
  have hlegal : ¬ (w.toNat &&& 0x007FFFFF ≠ 0 ∨ fld w.toNat 23 3 % 2 = 1) := by
    rintro (hbits | hodd)
    · exact hbits hclear
    · omega
  have hexec : exec (.waitit e) s = .next (settle (if h then progFault e h 5 (filled e h s)
      else if waitTime ((vget s.trd e).fill h).bank0 (fld w.toNat 23 3) ≤ s.time.it
      then commit e h ((vget s.trd e).fill h).bank0.next (filled e h s)
      else (filled e h s).modTrd e fun t => { t with bg := .waitit })) := by
    rw [exec, execWaitit, trdRow_fetched hf rfl hop]
    dsimp only
    rw [if_neg hlegal, vget_filled]
    rfl
  refine ⟨?_, ?_, fun hhook => faultsWith_of_filled ?_⟩
  · rintro rfl hnow
    exact hexec.trans (by rw [if_neg (by decide), if_pos (by exact hnow), commit_filled]; rfl)
  · rintro rfl hlater
    rw [hexec, if_neg (by decide), if_neg (by exact BitVec.not_le.mpr hlater), modTrd_filled]
  · rw [hexec, if_pos hhook]

theorem ldi_row (hf : Fetches s e h w) (hop : opc w = 0x20) (hres : fld w.toNat 16 4 = 0) {r : Bank}
    (hput : (((vget s.trd e).fill h).bank h).put (fld w.toNat 20 6)
      (if fld w.toNat 20 6 < 8 then (w.setWidth 16).signExtend 32 else (w.setWidth 16).setWidth 32) = some r) :
    Becomes s e h (.ldi e) r.next := by
  refine becomes_of_rowB (x := execLdi e s) hf rfl rfl rfl hop (and_eq_zero_of_fld hres rfl) ?_
  dsimp only
  rw [hput]
  rfl
theorem mvr_row (hf : Fetches s e h w) (hop : opc w = 0x22) (hres : fld w.toNat 0 14 = 0) {v : BitVec 32} {r : Bank}
    (hget : (((vget s.trd e).fill h).bank h).get (fld w.toNat 14 6) = some v)
    (hput : (((vget s.trd e).fill h).bank h).put (fld w.toNat 20 6) v = some r) : Becomes s e h (.mvr e) r.next := by
  refine becomes_of_rowB (x := execMvr e s) hf rfl rfl rfl hop (and_eq_zero_of_fld hres rfl) ?_
  rw [hget]
  dsimp only
  rw [hput]
  rfl
theorem ldm_row (hf : Fetches s e h w) (hop : opc w = 0x24) (hres : fld w.toNat 13 10 = 0) :
    let t := (vget s.trd e).fill h
    Becomes s e h (.ldm e) ((t.bank h).setD (fld w.toNat 23 3) (t.data (w.setWidth 13))).next := by
  refine becomes_of_rowB (x := execLdm e s) hf rfl rfl rfl hop (and_eq_zero_of_fld hres rfl) ?_
  rw [vget_filled]
theorem bcc_row (hf : Fetches s e h w) (hop : opc w = 0x29) (hres : fld w.toNat 12 10 = 0) {c : Bool} :
    let b := ((vget s.trd e).fill h).bank h
    b.cond (fld w.toNat 22 4) = some c →
      Becomes s e h (.bcc e) (if c then b.jump (w.setWidth 12) else b.next) := by
  intro b hc
  refine becomes_of_rowB (x := execBcc e s) hf rfl rfl rfl hop (and_eq_zero_of_fld hres rfl) ?_
  rw [hc]
  cases c <;> rfl

/-- What a long run from the bank `b` leaves: it ends with `fin_`, or stops with LIP set. -/
def RunsLong (s : State) (e : Fin 8) (h : Bool) (c : Instr) (t : Engine) (fin_ : Bank → Bank) (r : Bank) : Prop :=
  (r.scnt = 0 → exec c s = .next (settle { s with
    trd := vset s.trd e (t.into h (Bank.next { fin_ r with lip := false })) })) ∧
  (r.scnt ≠ 0 → exec c s = .next (settle { s with trd := vset s.trd e (t.setBank h { r with lip := true }) }))
theorem scan_row {c : Instr} {max : Bool} {budget : Option (BitVec 12)} {x : Host.Outcome State Fault Refusal} {op : Nat}
    (hf : Fetches s e h w) (hexec : exec c s = x)
    (hx : x = trdRow e op (fun h w s => longFirst e h (scan e max h w false budget) s) s) (hdef : opcDefined op = true)
    (hop : opc w = op) (hres : scanReserved w = false) (hlip : (((vget s.trd e).fill h).bank h).lip = false) :
    let t := (vget s.trd e).fill h
    let b := t.bank h
    let m := longN b w
    (m = 0 → Becomes s e h c ((scanBank max w b).setD (fld w.toNat 20 3) 0xFFFFFFFF#32).next) ∧
    (m ≠ 0 → RunsLong s e h c t (fun r => r.setD (fld w.toNat 20 3) (r.spos.setWidth 32))
      (elems (scanElem t max w m) (stepsOf budget m)
        { scanBank max w b with scnt := BitVec.ofNat 16 m, spos := 0 })) := by
  intro t b m
  have hrun : exec c s = .next (settle (longFirst e h (scan e max h w false budget) (filled e h s))) :=
    (hexec.trans hx).trans (trdRow_fetched hf hdef hop)
  have hfirst := scan_first (budget := budget) (max := max) hres hlip
  dsimp only at hfirst
  refine ⟨fun hm => ?_, fun hm => ?_⟩
  · rw [if_pos hm] at hfirst
    exact hrun.trans (by rw [hfirst, commit_filled])
  · rw [if_neg hm] at hfirst
    have hlong := longRun_filled (s := s) (e := e) (h := h) budget (scanElem t max w m)
      (fun r => r.setD (fld w.toNat 20 3) (r.spos.setWidth 32))
      { scanBank max w b with scnt := BitVec.ofNat 16 m, spos := 0 }
    dsimp only at hlong
    rw [toNat_ofNat_longN] at hlong
    exact ⟨fun hr => hrun.trans (by rw [hfirst, hlong.1 hr]), fun hr => hrun.trans (by rw [hfirst, hlong.2 hr])⟩
theorem bmac_row {budget : Option (BitVec 12)} (hf : Fetches s e h w) (hop : opc w = 0x3A)
    (hres : fld w.toNat 12 8 = 0) (hlip : (((vget s.trd e).fill h).bank h).lip = false) :
    let t := (vget s.trd e).fill h
    let b := t.bank h
    let m := longN b w
    RunsLong s e h (.bmac e budget) t id
      (elems (bmacElem t w m) (stepsOf budget m) { b with scnt := BitVec.ofNat 16 m, spos := 0 }) := by
  intro t b m
  have hrun : exec (.bmac e budget) s = .next (settle (longFirst e h (bmacRun e h w false budget) (filled e h s))) := by
    rw [exec, execBmac, trdRow_fetched hf rfl hop]
  have hfirst := bmac_first (budget := budget) (and_eq_zero_of_fld hres rfl) hlip
  dsimp only at hfirst
  have hlong := longRun_filled (s := s) (e := e) (h := h) budget (bmacElem t w m) id
    { b with scnt := BitVec.ofNat 16 m, spos := 0 }
  dsimp only at hlong
  rw [toNat_ofNat_longN] at hlong
  exact ⟨fun hr => hrun.trans (by rw [hfirst, hlong.1 hr]), fun hr => hrun.trans (by rw [hfirst, hlong.2 hr])⟩

/-! ### Resumption and the end of a wait -/

theorem resume_row {budget : Option (BitVec 12)} {f fin_ : Bank → Bank} (hf : Fetches s e h w)
    (hlip : ((vget s.trd e).bank h).lip = true) (hlong : 0x38 ≤ opc w ∧ opc w ≤ 0x3A)
    (hrun : resumeLong e h w budget s = longRun e h budget f fin_ ((vget s.trd e).bank h) s) :
    RunsLong s e h (.longInstructionResume e budget) (vget s.trd e) fin_
      (elems f (stepsOf budget ((vget s.trd e).bank h).scnt.toNat) ((vget s.trd e).bank h)) := by
  obtain ⟨hact, hpast, hword⟩ := hf
  have hexec : exec (.longInstructionResume e budget) s = doneIf true s (resumeLong e h w budget) := by
    rw [exec, execLongInstructionResume, hact]
    dsimp only
    rw [hword, hlip, hpast, decide_eq_true hlong.1, decide_eq_true hlong.2]
    rfl
  have hends := longRun_eq (e := e) (h := h) budget f fin_ ((vget s.trd e).bank h) s
  refine ⟨fun hr => ?_, fun hr => ?_⟩
  · have hbody := hrun.trans (hends.1 hr)
    rw [hexec, doneIf_free rfl (by rw [hbody]), hbody]
  · have hbody := hrun.trans (hends.2 hr)
    rw [hexec, doneIf_free rfl (by rw [hbody]), hbody]
theorem scan_resume {budget : Option (BitVec 12)} {max : Bool} (hres : scanReserved w = false) :
    scan e max h w true budget s = longRun e h budget (scanElem (vget s.trd e) max w (longN ((vget s.trd e).bank h) w))
      (fun r => r.setD (fld w.toNat 20 3) (r.spos.setWidth 32)) ((vget s.trd e).bank h) s := by
  unfold scan
  rw [hres, if_neg (by decide)]
  dsimp only
  rw [if_pos rfl]
theorem bmac_resume {budget : Option (BitVec 12)} (hres : fld w.toNat 12 8 = 0) :
    bmacRun e h w true budget s = longRun e h budget (bmacElem (vget s.trd e) w (longN ((vget s.trd e).bank h) w)) id
      ((vget s.trd e).bank h) s := by
  have hclear : w.toNat &&& 0x000FF000 = 0 := and_eq_zero_of_fld hres rfl
  unfold bmacRun
  rw [hclear, if_neg (by decide)]
  dsimp only
  rw [if_pos rfl]
end Rows

theorem waititWake_row {s : State} {e : Fin 8} (hgood : vsvoGood s = true) (hworks : engineWorks s e = true)
    (hhook : (vget s.trd e).hook = none) (hpend : (vget s.trd e).pendHooks = []) (hbg : (vget s.trd e).bg = .waitit)
    (hdue : waitTime (vget s.trd e).bank0 (fld ((vget s.trd e).word (vget s.trd e).bank0).toNat 23 3) ≤ s.time.it) :
    exec (.waititWake e) s = .next (settle { s with
      trd := vset s.trd e { (vget s.trd e).into false (vget s.trd e).bank0.next with bg := .running } }) := by
  have hfree : (vget s.trd e).free = true := by
    unfold Engine.free
    rw [hhook, hpend]
    rfl
  have hbody : (commit e false (vget s.trd e).bank0.next s).modTrd e (fun t => { t with bg := .running }) =
      { s with trd := vset s.trd e { (vget s.trd e).into false (vget s.trd e).bank0.next with bg := .running } } := by
    unfold commit State.modTrd vmod
    rw [vget_vset_same, vset_vset]
  rw [exec, execWaititWake]
  dsimp only
  rw [hgood, hworks, hfree, decide_eq_true hbg, decide_eq_true hdue]
  refine (doneIf_free rfl ?_).trans ?_
  · rw [hbody]
  · rw [hbody]

section Rows
variable {s : State} {e : Fin 8} {h : Bool} {w : BitVec 32}

theorem out_port (hf : Fetches s e h w) (hop : opc w = 0x2F) (hres : fld w.toNat 8 14 = 0)
    (hpair : bitOf w.toNat 22 = true → fld w.toNat 23 3 % 2 = 0 ∧ fld w.toNat 0 8 % 16 = 0xA) {i : Fin 4} {k : Fin 3}
    (rivals : List Rival) (hport : portOut (fld w.toNat 0 8) = some (i, k)) :
    let t := (vget s.trd e).fill h
    let b := t.bank h
    let v := outValue w.toNat k b
    (h = true →
      let u := t.into h b.next
      let out := u.out.filter (fun o => !(o.1 = i && o.2.1 = k)) ++ [(i, k, v)]
      exec (.out e rivals) s = .next (settle { s with trd := vset s.trd e { u with out := out } })) ∧
    (h = false → exec (.out e rivals) s = .next (settle (orders ((portOrder e i k v).toList ++ rivals)
      { s with trd := vset s.trd e (t.into h b.next) }))) := by
  refine ⟨fun hhook => ?_, fun hbg => ?_⟩
  · refine (out_row hf hop hres hpair rivals hport).trans ?_
    unfold outPort State.modTrd vmod
    rw [if_pos hhook, vget_vset_same, vset_vset]
  · refine (out_row hf hop hres hpair rivals hport).trans ?_
    unfold outPort
    rw [if_neg (by rw [hbg]; decide)]
theorem resumed_rows (hf : Fetches s e h w) (hlip : ((vget s.trd e).bank h).lip = true) (budget : Option (BitVec 12)) :
    let t := vget s.trd e
    let b := t.bank h
    let m := longN b w
    let steps := stepsOf budget b.scnt.toNat
    let Resumes := RunsLong s e h (.longInstructionResume e budget) t
    (opc w = 0x38 → scanReserved w = false →
      Resumes (fun r => r.setD (fld w.toNat 20 3) (r.spos.setWidth 32)) (elems (scanElem t true w m) steps b)) ∧
    (opc w = 0x39 → scanReserved w = false →
      Resumes (fun r => r.setD (fld w.toNat 20 3) (r.spos.setWidth 32)) (elems (scanElem t false w m) steps b)) ∧
    (opc w = 0x3A → fld w.toNat 12 8 = 0 → Resumes id (elems (bmacElem t w m) steps b)) := by
  refine ⟨fun hop hres => ?_, fun hop hres => ?_, fun hop hres => ?_⟩
  · exact resume_row hf hlip (by omega) ((if_pos hop).trans (scan_resume hres))
  · exact resume_row hf hlip (by omega) ((if_neg (by omega)).trans ((if_pos hop).trans (scan_resume hres)))
  · exact resume_row hf hlip (by omega) ((if_neg (by omega)).trans ((if_neg (by omega)).trans (bmac_resume hres)))
theorem scan_rows (hf : Fetches s e h w) (hres : scanReserved w = false)
    (hlip : (((vget s.trd e).fill h).bank h).lip = false) (budget : Option (BitVec 12)) :
    let t := (vget s.trd e).fill h
    let b := t.bank h
    let m := longN b w
    let Scans := fun (c : Instr) (max : Bool) =>
      let r := elems (scanElem t max w m) (stepsOf budget m) { scanBank max w b with scnt := BitVec.ofNat 16 m, spos := 0 }
      (m = 0 → Becomes s e h c ((scanBank max w b).setD (fld w.toNat 20 3) 0xFFFFFFFF#32).next) ∧
      (m ≠ 0 → r.scnt = 0 → Becomes s e h c (Bank.next { r.setD (fld w.toNat 20 3) (r.spos.setWidth 32) with lip := false })) ∧
      (m ≠ 0 → r.scnt ≠ 0 → exec c s = .next (settle { s with trd := vset s.trd e (t.setBank h { r with lip := true }) }))
    (opc w = 0x38 → Scans (.maxi e budget) true) ∧ (opc w = 0x39 → Scans (.mini e budget) false) := by
  refine ⟨fun hop => ?_, fun hop => ?_⟩
  · have hrow := scan_row (c := .maxi e budget) (x := execMaxi e budget s) hf rfl rfl rfl hop hres hlip
    exact ⟨hrow.1, fun hm => (hrow.2 hm).1, fun hm => (hrow.2 hm).2⟩
  · have hrow := scan_row (c := .mini e budget) (x := execMini e budget s) hf rfl rfl rfl hop hres hlip
    exact ⟨hrow.1, fun hm => (hrow.2 hm).1, fun hm => (hrow.2 hm).2⟩
end Rows

/-- Settles O49: row by row of Table 12.6, the long instructions by the element loop they run. -/
theorem treadleSequence : Obligations.TreadleSequence := by
  unfold Obligations.TreadleSequence
  refine ⟨fun s e h w hf => ?_, fun s e h w hf => ?_, fun s e hgood hworks hhook hpend hbg => ?_⟩
  · refine ⟨undefined_faults hf, fun hop hres r => ldi_row hf hop hres, fun hop hres => ?_,
      fun hop hres v r => mvr_row hf hop hres, fun hop hres => ?_, ldm_row hf, stm_stores hf, fun hop hres => ?_,
      fun hop hres c => bcc_row hf hop hres, call_row hf, ret_row hf, rep_row hf, loop_row hf,
      fun hop hres v hport => in_row hf hop hres hport,
      fun hop hres hpair i k rivals hport => out_port hf hop hres hpair rivals hport,
      fun hop hres i rivals hhook => reth_row hf hop hres rivals hhook, halt_row hf, waitit_row hf,
      fun hres hlip budget => ?_, fun hop hres budget => ?_⟩
    · exact becomes_of_rowB (x := execLdih e s) hf rfl rfl rfl hop (and_eq_zero_of_fld hres rfl) rfl
    · exact becomes_of_rowB (x := execModi e s) hf rfl rfl rfl hop (and_eq_zero_of_fld hres rfl) rfl
    · exact becomes_of_rowB (x := execJmp e s) hf rfl rfl rfl hop (and_eq_zero_of_fld hres rfl) rfl
    · rw [← longN_eq]
      exact scan_rows hf hres hlip budget
    · rw [← longN_eq]
      exact fun hlip => bmac_row hf hop hres hlip
  · intro t b
    rw [← longN_eq]
    exact fun hlip budget => resumed_rows hf hlip budget
  · exact waititWake_row hgood hworks hhook hpend hbg

end Sys2Proof.Machine
end

section
/-! SUPPORT. The host's commands of a Treadle engine: START, STOP, RESUME, and the writes of its memories and banks. -/
set_option Elab.async false
namespace Sys2Proof.Machine

section Host
variable {s : State} {e : Fin 8} {w : Master}

/-- The command leaves the engine `t` and nothing else changed. -/
def Puts (s : State) (e : Fin 8) (c : Instr) (t : Engine) : Prop :=
  exec c s = .next (settle { s with trd := vset s.trd e t })
/-- The command leaves only an error code behind (R295). -/
def RefusesWith (s : State) (e : Fin 8) (c : Instr) (code : BitVec 8) : Prop := Puts s e c (hostErr code (vget s.trd e))

/-- A command that is an admitted write with an effect on the engine alone. -/
theorem puts_of_write {c : Instr} {a : Nat} {f : State → State} {g : Engine → Engine} {u : Engine} (hw : Admits w a s)
    (hexec : exec c s = done (regWriteAt w a f s)) (hf : f s = s.modTrd e g) (hg : g (vget s.trd e) = u) :
    Puts s e c u := by
  unfold Puts
  rw [hexec, regWriteAt_of_admits hw, hf, ← hg]
  rfl
theorem mem_engineAxes {e : Fin 8} {a : Fin 32} : a ∈ engineAxes e ↔ axEngine a = e := by
  unfold engineAxes engineAxis axEngine
  simp only [List.mem_map, List.mem_finRange, true_and, Fin.ext_iff]
  refine ⟨?_, fun h => ⟨axSlot a, ?_⟩⟩
  · rintro ⟨i, hi⟩
    omega
  · simp only [axSlot]
    omega
/-- The hooks of an engine's axes are all clear, or one is set. -/
theorem hooksClear_iff : ((engineAxes e).all fun a => (vget s.axes a).hook = 0) = true ↔
    ∀ a, axEngine a = e → (vget s.axes a).hook = 0 := by
  simp [List.all_eq_true, mem_engineAxes]

theorem start_commands (hw : Admits w (trdBase e) s) :
    let t := vget s.trd e
    (t.held = false → t.bg = .halted → Puts s e (.trdStart w e) { t with
      cache := [], filling := false, bg := .running
      bank0 := { t.bank0 with
        calls := [], loops := [], repeat_ := 0, inRep := false, lip := false, pc := t.entry, past := false } }) ∧
    (t.held = false → t.bg ≠ .halted → RefusesWith s e (.trdStart w e) 0x0B) ∧
    Puts s e (.trdStop w e) { t with bg := .halted } ∧
    (t.held = false → t.bg = .halted → Puts s e (.trdResume w e) { t with bg := .running }) ∧
    (t.bg ≠ .halted → Puts s e (.trdResume w e) t) := by
  intro t
  refine ⟨fun hheld hbg => ?_, fun hheld hbg => ?_, ?_, fun hheld hbg => ?_, fun hbg => ?_⟩
  · refine puts_of_write hw rfl rfl ?_
    have hpast : decide (4096 ≤ t.entry.toNat) = false := decide_eq_false (by have := t.entry.isLt; omega)
    rw [if_neg (by rw [hheld]; decide), if_neg (not_not_intro hbg), Bank.enter, hpast, BitVec.ofNat_toNat, BitVec.setWidth_eq]
    rfl
  · refine puts_of_write hw rfl rfl ?_
    rw [if_neg (by rw [hheld]; decide), if_pos hbg]
  · exact puts_of_write hw rfl rfl rfl
  · refine puts_of_write hw rfl rfl (if_neg ?_)
    simp [t, hheld, hbg]
  · refine puts_of_write hw rfl rfl (if_pos ?_)
    simp [t, hbg]
theorem pmCm_write {cm : Bool} {i : BitVec 12} {v : BitVec 32} (hi : cm = true → i < 1024)
    (hw : Admits w (trdBase e + (if cm then 0x3000 else 0x4000) + 4 * i.toNat) s) :
    let t := vget s.trd e
    (t.bg = .halted → (∀ a, axEngine a = e → (vget s.axes a).hook = 0) → Puts s e (.pmCmWrite w e cm i v)
      (if cm then { t with cache := [], filling := false, cm := spPut 0 t.cm i.toNat v }
       else { t with cache := [], filling := false, pm := spPut 0 t.pm i.toNat v })) ∧
    (t.bg ≠ .halted ∨ (∃ a, axEngine a = e ∧ (vget s.axes a).hook ≠ 0) → RefusesWith s e (.pmCmWrite w e cm i v) 0x09) := by
  intro t
  have hin : (!cm || decide (i < 1024)) = true := by
    cases cm
    · rfl
    · exact decide_eq_true (hi rfl)
  have hexec : exec (.pmCmWrite w e cm i v) s = .next (settle (pmWrite e cm i.toNat v s)) := by
    refine (doneIf_free hin ?_).trans ?_ <;> rw [regWriteAt_of_admits hw]
    rfl
  refine ⟨fun hbg hclear => ?_, fun hbusy => ?_⟩
  · refine hexec.trans ?_
    unfold pmWrite
    dsimp only
    rw [hooksClear_iff.mpr hclear, decide_eq_true hbg]
    cases cm <;> rfl
  · have hidle : (decide (t.bg = .halted) && (engineAxes e).all fun a => (vget s.axes a).hook = 0) = false := by
      rw [Bool.and_eq_false_iff, ← Bool.not_eq_true ((engineAxes e).all _), hooksClear_iff]
      obtain hbg | ⟨a, ha, hset⟩ := hbusy
      · exact .inl (decide_eq_false hbg)
      · exact .inr fun hclear => hset (hclear a ha)
    refine hexec.trans ?_
    unfold pmWrite
    dsimp only
    rw [hidle]
    rfl
theorem bank0_write {code : BitVec 6} {v : BitVec 32} (hw : Admits w (trdBase e + 0x100 + 4 * code.toNat) s) :
    let t := vget s.trd e
    (t.bg ≠ .halted → RefusesWith s e (.bankRegisterWrite w e 0 code v) 0x0A) ∧
    (∀ b, t.bg = .halted → code ≠ 0x3F → t.bank0.put code.toNat v = some b →
      Puts s e (.bankRegisterWrite w e 0 code v) { t with bank0 := b }) ∧
    (t.bg = .halted → code = 0x3F → Puts s e (.bankRegisterWrite w e 0 code v) { t with
      bank0 := { t.bank0 with pc := v.setWidth 12, past := false, lip := false } }) := by
  intro t
  refine ⟨fun hbg => puts_of_write hw rfl rfl (if_pos (by simpa [t] using hbg)), fun b hbg hcode hput => ?_,
    fun hbg hcode => ?_⟩
  · refine puts_of_write hw rfl rfl ((if_neg (by simpa [t] using hbg)).trans ?_)
    have hpc : ¬ code.toNat = 0x3F := fun h => hcode (BitVec.eq_of_toNat_eq h)
    dsimp only
    rw [if_neg hpc, show (vget s.trd e).bank (decide ((0 : Fin 2) = 1)) = t.bank0 from rfl, hput]
    rfl
  · refine puts_of_write hw rfl rfl ((if_neg (by simpa [t] using hbg)).trans ?_)
    dsimp only
    rw [if_pos (by rw [hcode]; rfl)]
    rfl
theorem bank1_write {code : BitVec 6} {v : BitVec 32} (hw : Admits w (trdBase e + 0x200 + 4 * code.toNat) s) :
    let t := vget s.trd e
    (t.hook ≠ none → RefusesWith s e (.bankRegisterWrite w e 1 code v) 0x0A) ∧
    (∀ b, t.hook = none → code ≠ 0x3F → t.bank1.put code.toNat v = some b →
      Puts s e (.bankRegisterWrite w e 1 code v) { t with bank1 := b }) := by
  intro t
  refine ⟨fun hhook => ?_, fun b hhook hcode hput => ?_⟩
  · refine puts_of_write hw rfl rfl (if_pos ?_)
    simpa [t, Option.isSome_iff_ne_none] using hhook
  · refine puts_of_write hw rfl rfl ((if_neg (by simp [t, hhook] )).trans ?_)
    have hpc : ¬ code.toNat = 0x3F := fun h => hcode (BitVec.eq_of_toNat_eq h)
    dsimp only
    rw [if_neg hpc, show (vget s.trd e).bank (decide ((1 : Fin 2) = 1)) = t.bank1 from rfl, hput]
    rfl
theorem setData_xm (t : Engine) (i : BitVec 12) (v : BitVec 32) :
    t.setData (BitVec.ofNat 13 (i.toNat % 4096 + 0)) v = { t with xm := spPut 0 t.xm i.toNat v } := by
  have hi := i.isLt
  have hlow : (BitVec.ofNat 13 (i.toNat % 4096 + 0)).getLsbD 12 = false := by
    rw [BitVec.getLsbD_ofNat, Nat.testBit_lt_two_pow (by omega), Bool.and_false]
  unfold Engine.setData
  rw [hlow, if_neg (by decide), BitVec.toNat_ofNat, show (i.toNat % 4096 + 0) % 2 ^ 13 % 4096 = i.toNat by omega]
theorem setData_ym (t : Engine) (i : BitVec 12) (v : BitVec 32) :
    t.setData (BitVec.ofNat 13 (i.toNat % 4096 + 4096)) v = { t with ym := spPut 0 t.ym i.toNat v } := by
  have hi := i.isLt
  have hhigh : (BitVec.ofNat 13 (i.toNat % 4096 + 4096)).getLsbD 12 = true := by
    rw [BitVec.getLsbD_ofNat, show i.toNat % 4096 + 4096 = 2 ^ 12 + i.toNat by omega, Nat.testBit_two_pow_add_eq,
      Nat.testBit_lt_two_pow (by omega)]
    rfl
  unfold Engine.setData
  rw [hhigh, if_pos rfl, BitVec.toNat_ofNat, show (i.toNat % 4096 + 4096) % 2 ^ 13 % 4096 = i.toNat by omega]
end Host

/-- Settles O47: each command is an admitted register write with an effect on the engine alone. -/
theorem treadleHost : Obligations.TreadleHost := by
  unfold Obligations.TreadleHost
  intro s e w
  refine ⟨start_commands, fun cm i v => pmCm_write, fun code v => ⟨bank0_write, bank1_write⟩, fun i v => ⟨fun hw => ?_, fun hw => ?_⟩⟩
  · exact puts_of_write hw rfl rfl (setData_xm _ i v)
  · exact puts_of_write hw rfl rfl (setData_ym _ i v)

end Sys2Proof.Machine
end

section
/-! SUPPORT. Compare outputs and capture latches: what an evaluation consumes, a firing, and an accepted edge. -/
set_option Elab.async false
namespace Sys2Proof.Machine

theorem modCmp_cmp (n : Fin 16) (f : Cmp → Cmp) (s : State) :
    vget (s.modCmp n f).cc.cmp n = f (vget s.cc.cmp n) := vget_vmod_same _ _ _
theorem modCap_cap (n : Fin 16) (f : Cap → Cap) (s : State) :
    vget (s.modCap n f).cc.cap n = f (vget s.cc.cap n) := vget_vmod_same _ _ _

/-! ### Enabling an output (R314) -/

/-- The fields that a write of CMP_CFGn with ENABLE leaves in an output that was off. -/
def cmpConfigured (n : Fin 16) (v : Nat) (s : State) : Cmp :=
  let c := vget s.cc.cmp n
  { c with
    src := srcField s c.src (BitVec.ofNat 6 (fld v 0 6)), dir := BitVec.ofNat 2 (fld v 7 2), periodic := bitOf v 9
    cyclic := bitOf v 10, pw := if fld v 16 16 = 0 then c.pw else BitVec.ofNat 16 (fld v 16 16) }
theorem cmpCfgWrite_on {n : Fin 16} {v : Nat} {s : State} (hbit : bitOf v 6 = true) (hen : (vget s.cc.cmp n).en = true) :
    cmpCfgWrite n v s = s := by
  unfold cmpCfgWrite State.modCmp vmod
  dsimp only
  rw [hen, if_pos rfl, hbit, if_pos rfl, vset_vget]
theorem cmpCfgWrite_off {n : Fin 16} {v : Nat} {s : State} (hbit : bitOf v 6 = true) (hen : (vget s.cc.cmp n).en = false) :
    cmpCfgWrite n v s = { s with cc := { s.cc with cmp := vset s.cc.cmp n (cmpOn s (cmpConfigured n v s)) } } := by
  unfold cmpCfgWrite State.modCmp vmod
  dsimp only
  rw [hen, if_neg (by decide), if_pos hbit]
  rfl
theorem exec_cmpEnable {w : Master} {n : Fin 16} {v : BitVec 32} {s : State} (hbit : v.getLsbD 6 = true)
    (hw : Admits w (ccBase + 0x100 * n.val) s) :
    exec (.cmpEnable w n v) s = .next (settle (cmpCfgWrite n v.toNat s)) := by
  refine (doneIf_free hbit ?_).trans ?_ <;> rw [regWriteAt_of_admits hw]
  rfl
theorem cmpEnable_on {w : Master} {n : Fin 16} {v : BitVec 32} {s : State} (hbit : v.getLsbD 6 = true)
    (hw : Admits w (ccBase + 0x100 * n.val) s) (hen : (vget s.cc.cmp n).en = true) :
    exec (.cmpEnable w n v) s = .next (settle s) := by
  rw [exec_cmpEnable hbit hw, cmpCfgWrite_on hbit hen]
theorem cmpEnable_off {w : Master} {n : Fin 16} {v : BitVec 32} {s : State} (hbit : v.getLsbD 6 = true)
    (hw : Admits w (ccBase + 0x100 * n.val) s) (hen : (vget s.cc.cmp n).en = false) :
    ∃ t c, exec (.cmpEnable w n v) s = .next t ∧ vget t.cc.cmp n = c ∧ c.en = true ∧ c.ptr = 0 ∧ c.k = 0 ∧
      c.done = false ∧ c.nfired = 0 ∧ c.dir = BitVec.ofNat 2 (fld v.toNat 7 2) ∧ c.periodic = v.getLsbD 9 ∧
      c.cyclic = v.getLsbD 10 ∧ c.prev = (if (vget s.fbk ⟨c.src.toNat % 40, by omega⟩).good
        then some (vget s.fbk ⟨c.src.toNat % 40, by omega⟩).count else none) ∧
      (∀ i, i ≠ n → vget t.cc.cmp i = vget s.cc.cmp i) ∧ t.cc.cap = s.cc.cap ∧ t.mem = s.mem := by
  refine ⟨_, cmpOn s (cmpConfigured n v.toNat s), exec_cmpEnable hbit hw, ?_⟩
  rw [cmpCfgWrite_off hbit hen, settle_cc, settle_mem]
  exact ⟨vget_vset_same _ _ _, rfl, rfl, rfl, rfl, rfl, rfl, rfl, rfl, rfl, fun i hi => vget_vset_other _ _ _ _ hi, rfl, rfl⟩
theorem cmpPulseEnd_ends {n : Fin 16} {s : State} (hworks : ccWorks s = true) (hhigh : (vget s.cc.cmp n).high = true)
    (hdue : (vget s.cc.cmp n).pulseEnd ≤ s.time.it) :
    exec (.cmpPulseEnd n) s = .next (settle { s with
      cc := { s.cc with cmp := vset s.cc.cmp n { vget s.cc.cmp n with high := false } } }) :=
  doneIf_free (by rw [hworks, hhigh, decide_eq_true hdue]; rfl) rfl

/-! ### Capture (R315, R316) -/

/-- What an accepted edge leaves in a latch that takes it. -/
def capTaken (p : Cap) (rising : Bool) (ball : Time) (s : State) : Cap :=
  { p with
    edgeIt := ball, tag := p.tag.bump, level := rising, it := ball
    pos := if p.src = 63 then 0 else fbkSample s ⟨p.src.toNat % 40, by omega⟩
    posValid := decide (p.src ≠ 63) && fbkValid s ⟨p.src.toNat % 40, by omega⟩ }
/-- The samples and the latch on which an edge depends. -/
theorem capTaken_stored {n : Fin 16} {rising : Bool} {ball : Time} {s u : State} {p q : Cap} (hfbk : u.fbk = s.fbk)
    (hcap : vget u.cc.cap n = q) (hq : q.src = p.src) :
    vget (u.modCap n fun c => { c with
      tag := c.tag.bump, level := rising, it := ball
      pos := if p.src ≠ 63 then fbkSample u ⟨p.src.toNat % 40, by omega⟩ else 0
      posValid := decide (p.src ≠ 63) && fbkValid u ⟨p.src.toNat % 40, by omega⟩ }).cc.cap n =
    { capTaken q rising ball s with edgeIt := q.edgeIt } := by
  rw [modCap_cap, hcap]
  unfold capTaken fbkSample fbkValid
  rw [hfbk]
  simp only [hq, ne_eq, ite_not]
theorem captureEdge_clear {n : Fin 16} {rising : Bool} {ball : Time} {s : State}
    (htag : (vget s.cc.cap n).tag.valid = false) :
    vget (captureEdge n rising ball s).cc.cap n = capTaken (vget s.cc.cap n) rising ball s := by
  unfold captureEdge
  dsimp only
  rw [htag]
  simp only [Bool.false_and, Bool.and_false, Bool.false_eq_true, if_false]
  exact capTaken_stored (q := { vget s.cc.cap n with edgeIt := ball }) rfl (modCap_cap _ _ _) rfl
/-- The latch after an edge that finds the last one still there, before it is taken or kept. -/
theorem captureEdge_late {n : Fin 16} {rising : Bool} {ball : Time} {s : State}
    (htag : (vget s.cc.cap n).tag.valid = true) : ∃ u : State, u.fbk = s.fbk ∧
      vget u.cc.cap n = { vget s.cc.cap n with edgeIt := ball, ovr := satInc (vget s.cc.cap n).ovr } ∧
      captureEdge n rising ball s = (if (vget s.cc.cap n).keep then u else u.modCap n fun c => { c with
        tag := c.tag.bump, level := rising, it := ball
        pos := if (vget s.cc.cap n).src ≠ 63 then fbkSample u ⟨(vget s.cc.cap n).src.toNat % 40, by omega⟩ else 0
        posValid := decide ((vget s.cc.cap n).src ≠ 63) && fbkValid u ⟨(vget s.cc.cap n).src.toNat % 40, by omega⟩ }) := by
  unfold captureEdge
  dsimp only
  rw [htag]
  simp only [Bool.true_and, Bool.and_true, if_true]
  refine ⟨_, ?_, ?_, rfl⟩
  · split <;> simp [State.modCap]
  · split
    · rw [emit_cc, modCap_cap, modCap_cap]
    · rw [modCap_cap, modCap_cap]
theorem captureEdge_waits (n : Fin 16) (rising : Bool) (ball : Time) (s : State) :
    (captureEdge n rising ball s).rat.waits = s.rat.waits := by
  unfold captureEdge
  dsimp only
  split_ifs <;> simp [State.modCap]
theorem exec_captureEdge {n : Fin 16} {rising : Bool} {ball : Time} {s : State} (hworks : ccWorks s = true)
    (hedge : (vget s.cc.cap n).edge = 3 ∨ (vget s.cc.cap n).edge = if rising then 1 else 2)
    (hok : filterOk s (vget s.cc.cap n).filt (vget s.cc.cap n).edgeIt ball = true) :
    exec (.captureEdge n rising ball) s = .next (settle (captureEdge n rising ball s)) := by
  refine doneIf_free ?_ (captureEdge_waits n rising ball s)
  rw [hworks, hok]
  cases rising <;> obtain h | h := hedge <;> simp [h]
theorem capture_edges {n : Fin 16} {rising : Bool} {ball : Time} {s : State} (hworks : ccWorks s = true)
    (hedge : (vget s.cc.cap n).edge = 3 ∨ (vget s.cc.cap n).edge = if rising then 1 else 2)
    (hok : filterOk s (vget s.cc.cap n).filt (vget s.cc.cap n).edgeIt ball = true) :
    let p := vget s.cc.cap n
    let taken := capTaken p rising ball s
    (p.tag.valid = false → ∃ t, exec (.captureEdge n rising ball) s = .next t ∧ vget t.cc.cap n = taken) ∧
    (p.tag.valid = true → p.keep = false → ∃ t, exec (.captureEdge n rising ball) s = .next t ∧
      vget t.cc.cap n = { taken with ovr := satInc p.ovr }) ∧
    (p.tag.valid = true → p.keep = true → ∃ t, exec (.captureEdge n rising ball) s = .next t ∧
      vget t.cc.cap n = { p with edgeIt := ball, ovr := satInc p.ovr }) := by
  have hexec := exec_captureEdge hworks hedge hok
  refine ⟨fun htag => ⟨_, hexec, ?_⟩, fun htag hkeep => ⟨_, hexec, ?_⟩, fun htag hkeep => ⟨_, hexec, ?_⟩⟩
  · rw [settle_cc, captureEdge_clear htag]
  · obtain ⟨u, hfbk, hcap, hedge⟩ := captureEdge_late (rising := rising) (ball := ball) htag
    rw [settle_cc, hedge, if_neg (by rw [hkeep]; decide), capTaken_stored hfbk hcap rfl]
    rfl
  · obtain ⟨u, hfbk, hcap, hedge⟩ := captureEdge_late (rising := rising) (ball := ball) htag
    rw [settle_cc, hedge, if_pos hkeep, hcap]

/-! ### Plain lists (R311, R312) -/

/-- A plain list is consumed upwards, to its end at most. -/
theorem listTake_mono (s : State) {c : Cmp} (hcyclic : c.cyclic = false) (prev cur : Int) (fuel n ptr : Nat)
    (hptr : ptr ≤ c.llen.toNat) :
    let r := listTake s c prev cur fuel n ptr
    n ≤ r.1 ∧ ptr ≤ r.2 ∧ r.2 ≤ c.llen.toNat := by
  induction fuel generalizing n ptr with
  | zero => exact ⟨le_rfl, le_rfl, hptr⟩
  | succ fuel ih =>
    unfold listTake
    split
    · next htake =>
      rw [hcyclic, if_neg (by simp)]
      obtain ⟨hn, hlow, hhigh⟩ := ih (n + 1) (ptr + 1) htake.1
      exact ⟨by omega, by omega, hhigh⟩
    · exact ⟨le_rfl, le_rfl, hptr⟩
theorem fire_cmp {i : Fin 16} {n : Nat} {ptr : BitVec 13} {s : State} {c : Cmp}
    (hc : vget (fire i n ptr s).cc.cmp i = c) :
    c.high = true ∧ c.fired = satInc (vget s.cc.cmp i).fired ∧ c.ptr = ptr ∧
      c.pulseEnd = s.time.it + 40 * (vget s.cc.cmp i).pw.setWidth 64 := by
  unfold fire at hc
  extract_lets it u d stop at hc
  subst hc
  split
  · rw [emit_cc, modCmp_cmp, modCmp_cmp]
    exact ⟨rfl, rfl, rfl, rfl⟩
  · rw [modCmp_cmp]
    exact ⟨rfl, rfl, rfl, rfl⟩
section List
variable {s : State} {n : Fin 16} {cur prev : BitVec 64}

/-- The evaluation of a plain list that is not done. -/
theorem evalCmp_list (hper : (vget s.cc.cmp n).periodic = false) (hdone : (vget s.cc.cmp n).done = false)
    (hprev : (vget s.cc.cmp n).prev = some prev) :
    let m := vget s.cc.cmp n
    let u := s.modCmp n fun c => { c with prev := some cur }
    let r := listTake u m prev.toInt cur.toInt m.llen.toNat 0 m.ptr.toNat
    evalCmp true cur n s = if r.1 = 0 then u else fire n r.1 (BitVec.ofNat 13 r.2) u := by
  dsimp only
  rw [evalCmp]
  dsimp only
  rw [if_neg (by decide), hprev]
  dsimp only
  rw [hdone, if_neg (by decide), hper, if_neg (by decide)]
theorem evalCmp_target (hper : (vget s.cc.cmp n).periodic = false) (hcyclic : (vget s.cc.cmp n).cyclic = false)
    (hdone : (vget s.cc.cmp n).done = false) (hprev : (vget s.cc.cmp n).prev = some prev)
    (hptr : (vget s.cc.cmp n).ptr.toNat < (vget s.cc.cmp n).llen.toNat) :
    let m := vget s.cc.cmp n
    let c := vget (evalCmp true cur n s).cc.cmp n
    let target := listEntry s (m.lbase.toNat + m.ptr.toNat)
    (reached m.dir prev.toInt cur.toInt target = false → c = { m with prev := some cur }) ∧
    (reached m.dir prev.toInt cur.toInt target = true → c.high = true ∧ c.fired = satInc m.fired ∧
      c.pulseEnd = s.time.it + 40 * m.pw.setWidth 64 ∧ m.ptr.toNat < c.ptr.toNat) := by
  intro m c target
  obtain ⟨fuel, hfuel⟩ : ∃ fuel, m.llen.toNat = fuel + 1 := Nat.exists_eq_add_of_lt hptr |>.elim fun k hk => ⟨_, hk⟩
  have heval := evalCmp_list (cur := cur) hper hdone hprev
  dsimp only at heval
  obtain ⟨u, hu⟩ : ∃ u, u = s.modCmp n fun c => { c with prev := some cur } := ⟨_, rfl⟩
  have hm : vget u.cc.cmp n = { m with prev := some cur } := by rw [hu, modCmp_cmp]
  have hit : u.time.it = s.time.it := by rw [hu]; rfl
  have hlist : u.cc.list = s.cc.list := by rw [hu]; rfl
  have htake : listTake u m prev.toInt cur.toInt m.llen.toNat 0 m.ptr.toNat =
      if m.ptr.toNat < m.llen.toNat ∧ reached m.dir prev.toInt cur.toInt target = true
      then listTake u m prev.toInt cur.toInt fuel 1 (m.ptr.toNat + 1) else (0, m.ptr.toNat) := by
    conv_lhs => rw [hfuel]
    rw [listTake, hcyclic]
    simp only [Bool.false_eq_true, false_and, if_false, target, listEntry, hlist]
  rw [← hu] at heval
  refine ⟨fun hmiss => ?_, fun hhit => ?_⟩
  · have hleft : ¬ (m.ptr.toNat < m.llen.toNat ∧ reached m.dir prev.toInt cur.toInt target = true) := by simp [hmiss]
    rw [htake, if_neg hleft, if_pos rfl] at heval
    simp only [c]
    rw [heval, hm]
  · rw [if_pos ⟨hptr, hhit⟩] at htake
    rw [htake] at heval
    obtain ⟨hcount, hlow, hhigh⟩ := listTake_mono u (c := m) hcyclic prev.toInt cur.toInt fuel 1 (m.ptr.toNat + 1) hptr
    rw [if_neg (by omega)] at heval
    obtain ⟨hpulse, hfired, hat, hend⟩ := fire_cmp (c := c) (congrArg (fun v : State => vget v.cc.cmp n) heval.symm)
    rw [hm] at hfired hend
    rw [hit] at hend
    refine ⟨hpulse, hfired, hend, ?_⟩
    have hllen := m.llen.isLt
    rw [hat, BitVec.toNat_ofNat, Nat.mod_eq_of_lt (by omega)]
    omega
end List

/-- Settles O52: an output enabled, its pulse's end, an accepted edge, and the evaluation of a plain list. -/
theorem compareCapture : Obligations.CompareCapture := by
  unfold Obligations.CompareCapture
  intro s n
  refine ⟨fun w v hbit hw => ⟨cmpEnable_on hbit hw, cmpEnable_off hbit hw⟩, cmpPulseEnd_ends,
    fun rising ball hworks hedge hok _ => capture_edges hworks hedge hok,
    fun cur prev hper hcyclic hdone hprev hptr => evalCmp_target hper hcyclic hdone hprev hptr⟩

end Sys2Proof.Machine
end

section
/-! SUPPORT. Feedback channels: accepted levels, pairs, SSI frames, the cable fault, observation and configuration. -/
set_option Elab.async false
namespace Sys2Proof.Machine

/-! ### Incremental channels (R300) -/

theorem modFbk_channel (c : Fin 40) (f : Fbk → Fbk) (s : State) :
    vget (s.modFbk c f).fbk c = f (vget s.fbk c) := vget_vmod_same _ _ _
/-- The index latch touches its own group alone (R308). -/
theorem indexLatch_channel (c : Fin 40) (ball : Time) (s : State) : ∃ t p i,
    vget (indexLatch c ball s).fbk c = { vget s.fbk c with itag := t, ipos := p, iit := i } ∧
      (indexLatch c ball s).time = s.time := by
  unfold indexLatch
  dsimp only
  split
  · rw [emit_fbk, emit_time, modFbk_channel]
    exact ⟨_, _, _, rfl, rfl⟩
  · rw [modFbk_channel]
    exact ⟨_, _, _, rfl, rfl⟩
/-- A channel after newly accepted levels, before an illegal transition makes it BAD. -/
def levelled (x : Fbk) (a b z : Bool) (edges : Vector Time 3) : Fbk :=
  { x with
    levA := a, levB := b, levZ := z, edges := edges, count := x.count + BitVec.ofInt 64 (countStep x a b).1
    qerr := x.qerr || (countStep x a b).2 }
theorem levels1_channel (c : Fin 40) (a b z : Bool) (ball : Time) (s : State) : ∃ t p i edges,
    vget (levels1 c a b z ball s).fbk c =
      let y := { levelled (vget s.fbk c) a b z edges with itag := t, ipos := p, iit := i }
      if (countStep (vget s.fbk c) a b).2 && (vget s.fbk c).good
      then { y with good := false, badSince := s.time.it, badFault := false } else y := by
  have hlatch : ∃ t p i, ∃ u : State, vget u.fbk c = { vget s.fbk c with itag := t, ipos := p, iit := i } ∧ u.time = s.time ∧
      (if z && !(vget s.fbk c).levZ && (vget s.fbk c).zlatch && (vget s.fbk c).mode ≠ 5 then indexLatch c ball s else s) = u := by
    split
    · obtain ⟨t, p, i, hx, ht⟩ := indexLatch_channel c ball s
      exact ⟨t, p, i, _, hx, ht, rfl⟩
    · exact ⟨(vget s.fbk c).itag, (vget s.fbk c).ipos, (vget s.fbk c).iit, s, rfl, rfl, rfl⟩
  obtain ⟨t, p, i, u, hx, ht, hu⟩ := hlatch
  refine ⟨t, p, i, (newLevels (vget s.fbk c) a b z).foldl (fun v i => vset v i ball) (vget s.fbk c).edges, ?_⟩
  unfold levels1
  dsimp only
  rw [hu]
  have hcmps (k : Int) (v : State) : vget (if k ≠ 0 then updateCmps c v else v).fbk c = vget v.fbk c := by
    split <;> simp
  rw [hcmps]
  cases hq : (countStep (vget s.fbk c) a b).2
  · rw [if_neg (by decide), Bool.false_and, if_neg (by decide), modFbk_channel, hx]
    simp only [levelled, hq]
    rfl
  · rw [if_pos rfl, becomeBad_channel, modFbk_channel, modFbk_time, ht, hx, Bool.true_and]
    simp only [levelled, hq]
    rfl
/-- What an accepted change of A and B counts in quadrature, and which change is illegal. -/
theorem countStep_quad {x : Fbk} (hmode : x.mode = 1) (a b : Bool) :
    let d := (quadPhase a b + 4 - quadPhase x.levA x.levB) % 4
    BitVec.ofInt 64 (countStep x a b).1 =
      (if d = 1 then (if x.invDir then -1 else 1) else if d = 3 then (if x.invDir then 1 else -1) else 0) ∧
    (countStep x a b).2 = decide (d = 2) := by
  have hd : (quadPhase a b + 4 - quadPhase x.levA x.levB) % 4 < 4 := Nat.mod_lt _ (by decide)
  unfold countStep
  dsimp only
  rw [if_pos hmode]
  revert hd
  generalize (quadPhase a b + 4 - quadPhase x.levA x.levB) % 4 = d
  intro hd
  interval_cases d <;> cases x.invDir <;> exact ⟨rfl, rfl⟩

section Levels
variable {s : State} {c : Fin 40} {a b z : Bool} {ball : Time}

theorem exec_levels (hworks : fbkWorks s c = true) (hr : s.rat.reopened = none)
    (hok : let x := vget s.fbk c
      let i : Fin 3 := if z ≠ x.levZ then 2 else if a ≠ x.levA then 0 else 1
      newLevels x a b z ≠ [] ∧ filterOk s (vget x.filt i) (vget x.edges i) ball = true) :
    exec (.fbkLevelAccepted c a b z ball) s = .next (settle (levels1 c a b z ball s)) := by
  refine doneIf_pos ?_ hr _
  obtain ⟨hnew, hfilter⟩ := hok
  rw [hworks, decide_eq_true hnew, hfilter]
  rfl
theorem level_bad {x : Fbk} (hx : x = vget s.fbk c) (hmode : x.mode = 1) (hgood : x.good = false)
    (hexec : exec (.fbkLevelAccepted c a b z ball) s = .next (settle (levels1 c a b z ball s))) :
    ∃ t, exec (.fbkLevelAccepted c a b z ball) s = .next t ∧
      (vget t.fbk c).levA = a ∧ (vget t.fbk c).levB = b ∧ (vget t.fbk c).levZ = z ∧
      (let d := (quadPhase a b + 4 - quadPhase x.levA x.levB) % 4
       (vget t.fbk c).count = x.count + (if d = 1 then (if x.invDir then -1 else 1) else if d = 3 then (if x.invDir then 1 else -1) else 0) ∧
       (vget t.fbk c).qerr = (x.qerr || decide (d = 2))) := by
  subst hx
  refine ⟨_, hexec, ?_⟩
  obtain ⟨hcount, hillegal⟩ := countStep_quad hmode a b
  obtain ⟨t, p, i, edges, hx⟩ := levels1_channel c a b z ball s
  rw [settle_fbk, hx, hgood, Bool.and_false, if_neg (by decide)]
  refine ⟨rfl, rfl, rfl, ?_, ?_⟩
  · rw [← hcount]; rfl
  · rw [← hillegal]; rfl
theorem level_illegal {x : Fbk} (hx : x = vget s.fbk c) (hmode : x.mode = 1) (hgood : x.good = true)
    (hexec : exec (.fbkLevelAccepted c a b z ball) s = .next (settle (levels1 c a b z ball s)))
    (hd : (quadPhase a b + 4 - quadPhase x.levA x.levB) % 4 = 2) :
    ∃ t, exec (.fbkLevelAccepted c a b z ball) s = .next t ∧ (vget t.fbk c).good = false ∧ (vget t.fbk c).qerr = true ∧
      (vget t.fbk c).badSince = s.time.it ∧ (vget t.fbk c).count = x.count := by
  subst hx
  refine ⟨_, hexec, ?_⟩
  obtain ⟨hcount, hillegal⟩ := countStep_quad hmode a b
  rw [hd] at hcount hillegal
  obtain ⟨t, p, i, edges, hx⟩ := levels1_channel c a b z ball s
  have hcond : ((countStep (vget s.fbk c) a b).2 && (vget s.fbk c).good) = true := by rw [hillegal, hgood]; rfl
  rw [settle_fbk, hx, if_pos hcond]
  refine ⟨rfl, ?_, rfl, ?_⟩
  · simp [levelled, hillegal]
  · simp only [levelled]
    rw [hcount]
    exact BitVec.add_zero _
end Levels

/-! ### Sin/cos (R301, R302) -/

theorem pair_out {s : State} {c : Fin 40} {sin cos : BitVec 16} (hworks : fbkWorks s c = true)
    (hmode : (vget s.fbk c).mode = 4) (hdue : s.time.it.toNat % 800 = 0) :
    let x := vget s.fbk c
    let a2 := pairA2 x sin cos
    a2 < x.amin ∨ x.amax < a2 → ∃ t, exec (.sincosPair c sin cos) s = .next t ∧ (vget t.fbk c).good = false ∧
      (vget t.fbk c).amp = true ∧ (vget t.fbk c).count = x.count ∧ (vget t.fbk c).a2 = a2 := by
  intro x a2 hout
  have hamp : pairAmp x sin cos = true := (pairAmp_iff x sin cos).mpr hout
  refine ⟨_, exec_sincosPair hworks hmode hdue, ?_⟩
  rw [settle_fbk]
  unfold sincosPair
  dsimp only
  rw [if_pos (by rw [Bool.or_eq_true]; exact .inl hamp), becomeBad_channel, modFbk_channel, modFbk_channel]
  have hset : (x.amp || pairAmp x sin cos) = true := by rw [hamp, Bool.or_true]
  split
  · exact ⟨rfl, hset, rfl, rfl⟩
  · next hbad => exact ⟨Bool.eq_false_iff.mpr hbad, hset, rfl, rfl⟩
theorem pair_first {s : State} {c : Fin 40} {sin cos : BitVec 16} (hworks : fbkWorks s c = true)
    (hmode : (vget s.fbk c).mode = 4) (hdue : s.time.it.toNat % 800 = 0) :
    let x := vget s.fbk c
    let a2 := pairA2 x sin cos
    let fine := pairFine x sin cos
    ¬ (a2 < x.amin ∨ x.amax < a2) → x.hasPair = false → ∃ t, exec (.sincosPair c sin cos) s = .next t ∧
      (vget t.fbk c).fine = fine ∧ (vget t.fbk c).periods = x.periods ∧ (vget t.fbk c).goodRun = x.goodRun + 1 ∧
      (vget t.fbk c).count = (if x.invDir then -(x.periods * 2 ^ 20 + fine.setWidth 64) else x.periods * 2 ^ 20 + fine.setWidth 64) := by
  intro x a2 fine hin hfirst
  have hamp : pairAmp x sin cos = false := by rwa [← Bool.not_eq_true, pairAmp_iff]
  have hfast : pairFast x sin cos = false := by rw [pairFast, hfirst, Bool.false_and]
  have hper : x.periods + 0 = x.periods := BitVec.add_zero _
  refine ⟨_, exec_sincosPair hworks hmode hdue, ?_⟩
  rw [settle_fbk]
  unfold sincosPair
  dsimp only
  have hok : (pairAmp x sin cos || pairFast x sin cos) = false := by rw [hamp, hfast]; rfl
  rw [if_neg (by rw [Bool.not_eq_true]; exact hok), if_pos (show (!(vget s.fbk c).hasPair) = true by rw [hfirst]; rfl),
    updateCmps_fbk, modFbk_channel, modFbk_channel]
  refine ⟨rfl, hper, rfl, ?_⟩
  dsimp only
  rw [hper]

/-! ### SSI (R303) -/

theorem frameError_channel (c : Fin 40) (s : State) : let y := vget (frameError c s).fbk c
    y.frame = true ∧ y.good = false ∧ y.ssiRun = none ∧ y.ssiEnd = s.time.it ∧ y.count = (vget s.fbk c).count := by
  unfold frameError
  dsimp only
  rw [becomeBad_channel, modFbk_channel]
  split
  · exact ⟨rfl, rfl, rfl, rfl, rfl⟩
  · next hbad => exact ⟨rfl, Bool.eq_false_iff.mpr hbad, rfl, rfl, rfl⟩
theorem ssi_start {s : State} {c : Fin 40} (hr : s.rat.reopened = none) (hdue : ssiDue s c = true) :
    exec (.ssiFrameStart c true) s = .next (settle { s with
      fbk := vset s.fbk c { vget s.fbk c with ssiRun := some s.time.it } }) ∧
    ∃ t, exec (.ssiFrameStart c false) s = .next t ∧ (vget t.fbk c).frame = true ∧ (vget t.fbk c).good = false ∧
      (vget t.fbk c).ssiRun = none ∧ (vget t.fbk c).ssiEnd = s.time.it := by
  refine ⟨doneIf_free hdue rfl, settle (frameError c s), doneIf_pos hdue hr _, ?_⟩
  obtain ⟨hframe, hgood, hrun, hend, -⟩ := frameError_channel c s
  rw [settle_fbk]
  exact ⟨hframe, hgood, hrun, hend⟩
theorem ssi_end {s : State} {c : Fin 40} (hr : s.rat.reopened = none) (hworks : fbkWorks s c = true)
    (hmode : (vget s.fbk c).mode = 5) (hrun : (vget s.fbk c).ssiRun.isSome = true) (bits : BitVec 49) :
    let x := vget s.fbk c
    ((frameData x bits).2 = true → ∃ t, exec (.ssiFrameEnd c bits) s = .next t ∧ (vget t.fbk c).good = true ∧
      (vget t.fbk c).ssiRun = none ∧ (vget t.fbk c).ssiPrev = some (BitVec.ofNat 48 (frameData x bits).1) ∧
      (x.ssiPrev = none → x.invDir = false → (vget t.fbk c).count = BitVec.ofNat 64 (frameData x bits).1)) ∧
    ((frameData x bits).2 = false → ∃ t, exec (.ssiFrameEnd c bits) s = .next t ∧ (vget t.fbk c).good = false ∧
      (vget t.fbk c).frame = true ∧ (vget t.fbk c).count = x.count) := by
  intro x
  have hexec : exec (.ssiFrameEnd c bits) s = .next (settle (ssiFrame c bits s)) :=
    doneIf_pos (by rw [hworks, decide_eq_true hmode, hrun]; rfl) hr _
  refine ⟨fun hpar => ⟨_, hexec, ?_⟩, fun hpar => ⟨_, hexec, ?_⟩⟩
  · rw [settle_fbk]
    unfold ssiFrame
    dsimp only
    have hcmps (p : Prop) [Decidable p] (v : State) : vget (if p then updateCmps c v else v).fbk c = vget v.fbk c := by
      split <;> simp
    rw [if_neg (by rw [hpar]; decide), hcmps, modFbk_channel]
    refine ⟨rfl, rfl, rfl, fun hprev hdir => ?_⟩
    dsimp only
    rw [hprev]
    dsimp only
    rw [hdir, if_neg (by decide)]
    exact BitVec.ofInt_natCast _ _
  · obtain ⟨hframe, hgood, -, -, hcount⟩ := frameError_channel c s
    rw [settle_fbk]
    unfold ssiFrame
    dsimp only
    rw [if_pos (by rw [hpar]; rfl)]
    exact ⟨hgood, hframe, hcount⟩

/-! ### The cable fault (R306) -/

theorem react_fbk_outputs {f : Fid} (htype : fidType f = 8) (s : State) :
    (react f 10 s).fbk = s.fbk ∧ CausesGrow s (react f 10 s) := by
  unfold react
  rw [causeClass, htype]
  exact ⟨foldl_keep (·.fbk) _ (fun t a => raiseOutput_fbk a _ t) _ _, .foldl (fun t a => (causesGrow_putCause _ 10 t).trans (causesGrow_raiseOutput a _ t)) _ _⟩
theorem raiseCause_fbk_outputs {f : Fid} (htype : fidType f = 8) (s : State) :
    (raiseCause f 10 s).fbk = s.fbk ∧ causeAt (raiseCause f 10 s) (fidSlot f) 10 = true := by
  unfold raiseCause
  dsimp only
  obtain ⟨hfbk, hgrow⟩ := react_fbk_outputs htype (putCause f 10 s)
  have hset := hgrow.stands _ _ (causeAt_putCause f (by decide) s)
  split
  · exact ⟨by rw [announce_fbk, hfbk]; rfl, (causesGrow_announce f 10 _).stands _ _ hset⟩
  · exact ⟨hfbk, hset⟩
theorem fidType_fbk : ∀ c : Fin 40, fidType (fbkFid c) = 8 := by decide
theorem cable_timeout {s : State} {c : Fin 40} (hr : s.rat.reopened = none) (hworks : fbkWorks s c = true)
    (hgood : (vget s.fbk c).good = false) (hfault : (vget s.fbk c).badFault = false)
    (hdue : (vget s.fbk c).badSince.toNat + 16000 * (vget s.fbk c).cableT.toNat ≤ s.time.it.toNat) :
    ∃ t, exec (.cableTimeout c) s = .next t ∧ (vget t.fbk c).cable = true ∧ (vget t.fbk c).badFault = true ∧
      (vget t.flt (fidSlot (fbkFid c))).a.cause.getLsbD 10 = true := by
  have htype : fidType (fbkFid c) = 8 := fidType_fbk c
  have hexec : exec (.cableTimeout c) s =
      .next (settle (raiseCause (fbkFid c) 10 (s.modFbk c fun x => { x with cable := true, badFault := true }))) :=
    doneIf_pos (by rw [hworks, hgood, hfault, decide_eq_true hdue]; rfl) hr fun s =>
      raiseCause (fbkFid c) 10 (s.modFbk c fun x => { x with cable := true, badFault := true })
  refine ⟨_, hexec, ?_⟩
  obtain ⟨hfbk, hset⟩ := raiseCause_fbk_outputs htype (s.modFbk c fun x => { x with cable := true, badFault := true })
  rw [settle_fbk, settle_flt, hfbk, modFbk_channel]
  exact ⟨rfl, rfl, hset⟩

/-! ### Observation and configuration (R308, R309) -/

theorem config_write {s : State} {c : Fin 40} {w : Master} {off : BitVec 12} {v : BitVec 64}
    (hreg : fbkConfigReg off.toNat = true) (hw : Admits w (fbkBase c + off.toNat) s) :
    let x := vget s.fbk c
    (∀ y, fbkInUse s c = false → fbkConfig x off.toNat v = some y →
      exec (.fbkConfigWrite w c off v) s = .next (settle { s with fbk := vset s.fbk c y })) ∧
    (fbkInUse s c = true ∨ fbkConfig x off.toNat v = none →
      exec (.fbkConfigWrite w c off v) s = .next (settle { s with fbk := vset s.fbk c { x with ign := satInc x.ign } })) := by
  intro x
  have hexec (t : State) (ht : fbkConfigWrite c off.toNat v s = t) (hwaits : t.rat.waits = s.rat.waits) :
      exec (.fbkConfigWrite w c off v) s = .next (settle t) := by
    refine (doneIf_free hreg ?_).trans ?_ <;> rw [regWriteAt_of_admits hw, ht]
    exact hwaits
  refine ⟨fun y hfree hconf => hexec _ ?_ rfl, fun hrefused => hexec _ ?_ rfl⟩
  · unfold fbkConfigWrite
    dsimp only
    rw [hfree, if_neg (by decide), hconf]
    rfl
  · have hnone : (if fbkInUse s c then none else fbkConfig x off.toNat v) = none := by
      obtain huse | hconf := hrefused
      · exact if_pos huse
      · rw [hconf, ite_self]
    unfold fbkConfigWrite
    dsimp only
    rw [hnone]
    rfl

/-- Settles O50: clause by clause, from what each event leaves in its channel. -/
theorem feedbackChannels : Obligations.FeedbackChannels := by
  unfold Obligations.FeedbackChannels
  intro s c
  refine ⟨fun hworks hr => ⟨fun hmode hgood a b z ball hok => level_bad rfl hmode hgood (exec_levels hworks hr hok),
    fun hmode hgood a b z ball hok => level_illegal rfl hmode hgood (exec_levels hworks hr hok),
    fun hmode hdue sin cos => ⟨pair_out hworks hmode hdue, pair_first hworks hmode hdue⟩, ssi_start hr,
    fun hmode hrun bits => ssi_end hr hworks hmode hrun bits, fun hgood hfault hdue => cable_timeout hr hworks hgood hfault hdue⟩,
    fun hon hgood hheld hdue => ?_, fun w off v hreg hw => config_write hreg hw⟩
  exact doneIf_free (by rw [hon, hgood, hheld, decide_eq_true hdue]; rfl) rfl

end Sys2Proof.Machine
end

section
/-! SUPPORT. A CAN controller as receiver: the object that takes a frame, the error counters and the states they give. -/
set_option Elab.async false
namespace Sys2Proof.Machine

theorem orders_nil (s : State) : orders [] s = s := by
  unfold orders
  exact List.foldl_fixed' (fun _ => rfl) _
@[simp] theorem moIrq_mem (k : Fin 4) (j : Fin 64) (s : State) : (moIrq k j s).mem = s.mem := by
  unfold moIrq; dsimp only; split <;> simp
/-- A state with one controller replaced. -/
def withCan (k : Fin 4) (c : Can) (s : State) : State := { s with can := vset s.can k c }
theorem modCan_eq (k : Fin 4) (f : Can → Can) (s : State) : s.modCan k f = withCan k (f (vget s.can k)) s := rfl
@[simp] theorem vget_withCan (k : Fin 4) (c : Can) (s : State) : vget (withCan k c s).can k = c := vget_vset_same _ _ _
@[simp] theorem withCan_withCan (k : Fin 4) (c d : Can) (s : State) : withCan k d (withCan k c s) = withCan k d s := by
  unfold withCan
  dsimp only
  rw [vset_vset]
theorem modCan_withCan (k : Fin 4) (f : Can → Can) (c : Can) (s : State) : (withCan k c s).modCan k f = withCan k (f c) s := by
  rw [modCan_eq, vget_withCan, withCan_withCan]
theorem modMo_withCan (k : Fin 4) (j : Fin 64) (f : MsgObj → MsgObj) (c : Can) (s : State) :
    (withCan k c s).modMo k j f = withCan k { c with mo := vset c.mo j (f (vget c.mo j)) } s := modCan_withCan _ _ _ _

/-! ### The error state that the counters give (R332) -/

theorem canState_on {k : Fin 4} {s : State} (htec : (vget s.can k).tec.toNat < 256) :
    vget (canState k s).can k = { vget s.can k with
      st := if 128 ≤ (vget s.can k).tec.toNat ∨ 128 ≤ (vget s.can k).rec_.toNat then .passive else .active } := by
  unfold canState
  dsimp only
  rw [if_neg (by omega), canTo_controller]

section Reception
variable {s : State} {k : Fin 4} {f : CanFrame} {sof : BitVec 32}

/-- A frame from the bus for a controller that does not take it for a form error (R323). -/
theorem exec_received {rivals : List Rival} (hr : s.rat.reopened = none) (hbus : canOnBus s k = true)
    (hloop : (vget s.can k).loop = false) (htx : (vget s.can k).tx = none) (hfd : ¬ (f.fdf = true ∧ (vget s.can k).mode = 1))
    (hremote : ¬ (f.fdf = true ∧ f.rtr = true)) (hsof : sofFits (vget s.can k).nbt (vget s.can k).dbt f sof s.tsc = true) :
    exec (.frameReceived k f sof rivals) s = .next (settle (receive k f sof rivals
      (withCan k { vget s.can k with flag := none } s))) := by
  have hrow : execFrameReceived k f sof rivals s = doneIf (canOnBus s k && !(vget s.can k).loop && (vget s.can k).tx.isNone &&
      !(f.fdf && f.rtr) && sofFits (vget s.can k).nbt (vget s.can k).dbt f sof s.tsc) s fun s =>
        receive k f sof rivals (s.modCan k fun c => { c with flag := none }) := if_neg (by simpa using hfd)
  have hdata : (f.fdf && f.rtr) = false := by rw [← Bool.not_eq_true, Bool.and_eq_true]; exact hremote
  rw [exec, hrow]
  exact doneIf_pos (by rw [hbus, hloop, htx, hdata, hsof]; rfl) hr fun s =>
    receive k f sof rivals (s.modCan k fun c => { c with flag := none })
theorem receive_unmatched {c : Can} (hrec : c.rec_ = 0) (hnone : matchObj c f = none) :
    receive k f sof [] (withCan k c s) = withCan k { c with unmatched := satInc c.unmatched } s := by
  have hgood : recGood k (withCan k c s) = withCan k c s := if_pos (by rw [vget_withCan]; exact hrec)
  unfold receive
  rw [hgood]
  dsimp only
  rw [vget_withCan, hnone, modCan_withCan]
  exact orders_nil _
theorem receive_matched {c : Can} {j : Fin 64} (hrec : c.rec_ = 0) (hsome : matchObj c f = some j)
    (hplain : (vget c.mo j).mapped = false) :
    receive k f sof [] (withCan k c s) = moTake k j f sof (withCan k c s) := by
  have hgood : recGood k (withCan k c s) = withCan k c s := if_pos (by rw [vget_withCan]; exact hrec)
  have hmapped : (vget (vget (moTake k j f sof (withCan k c s)).can k).mo j).mapped = false := by
    unfold moTake
    dsimp only
    split
    · rw [modMo_withCan, vget_withCan, vget_vset_same]
      exact hplain
    · rw [moIrq_can, modMo_withCan, vget_withCan, vget_vset_same]
      exact hplain
  unfold receive
  rw [hgood]
  dsimp only
  rw [vget_withCan, hsome]
  dsimp only
  rw [hmapped, if_neg (by decide)]
  exact orders_nil _
theorem moTake_lost {c : Can} {j : Fin 64} (hlow : j.val < 8) (hhold : (vget c.mo j).hold = true)
    (htag : (vget c.mo j).tag.valid = true) :
    moTake k j f sof (withCan k c s) = withCan k { c with mo := vset c.mo j { vget c.mo j with lost := true } } s := by
  unfold moTake
  dsimp only
  rw [vget_withCan, if_pos (by rw [decide_eq_true hlow, hhold, htag]; rfl), modMo_withCan]
theorem moTake_stores {c : Can} {j : Fin 64}
    (hfree : 8 ≤ j.val ∨ (vget c.mo j).hold = false ∨ (vget c.mo j).tag.valid = false) :
    moTake k j f sof (withCan k c s) =
      moIrq k j (withCan k { c with mo := vset c.mo j (moStore f sof (vget c.mo j)) } s) := by
  have hlate : (decide (j.val < 8) && (vget c.mo j).hold && (vget c.mo j).tag.valid) = false := by
    rcases hfree with h | h | h
    · rw [decide_eq_false (by omega), Bool.false_and, Bool.false_and]
    · rw [h, Bool.and_false, Bool.false_and]
    · rw [h, Bool.and_false]
  unfold moTake
  dsimp only
  rw [vget_withCan, hlate, if_neg (by decide), modMo_withCan]

/-- What a valid frame does in a controller with REC 0 (R323, R324). -/
theorem received_frame (hexec : ∀ rivals, exec (.frameReceived k f sof rivals) s = .next (settle (receive k f sof rivals
      (withCan k { vget s.can k with flag := none } s)))) :
    let c := vget s.can k
    (c.rec_ = 0 → matchObj c f = none → exec (.frameReceived k f sof []) s = .next (settle { s with
      can := vset s.can k { c with flag := none, unmatched := satInc c.unmatched } })) ∧
    (∀ j, c.rec_ = 0 → matchObj c f = some j → (vget c.mo j).mapped = false →
      let m := vget c.mo j
      ((8 ≤ j.val ∨ m.hold = false ∨ m.tag.valid = false) → ∃ t, exec (.frameReceived k f sof []) s = .next t ∧
        (vget (vget t.can k).mo j).rxid = frameIdent f ∧ (vget (vget t.can k).mo j).ts = sof ∧
        (vget (vget t.can k).mo j).dlc = f.dlc ∧ (vget (vget t.can k).mo j).tag = m.tag.bump ∧
        (vget (vget t.can k).mo j).lost = (m.lost || m.tag.valid) ∧
        (∀ i : Fin 16, vget (vget (vget t.can k).mo j).data i = BitVec.ofNat 32 (leAt (payload f) (4 * i) 4)) ∧
        (∀ i, i ≠ j → vget (vget t.can k).mo i = vget c.mo i) ∧ t.mem = s.mem) ∧
      (j.val < 8 → m.hold = true → m.tag.valid = true → exec (.frameReceived k f sof []) s = .next (settle { s with
        can := vset s.can k { c with flag := none, mo := vset c.mo j { m with lost := true } } }))) := by
  intro c
  refine ⟨fun hrec hnone => ?_, fun j hrec hsome hplain => ⟨fun hfree => ⟨_, hexec [], ?_⟩, fun hlow hhold htag => ?_⟩⟩
  · rw [hexec, receive_unmatched (c := { c with flag := none }) hrec hnone]
    rfl
  · rw [receive_matched (c := { c with flag := none }) hrec hsome hplain, moTake_stores (c := { c with flag := none }) hfree, settle_can, settle_mem,
      moIrq_can, moIrq_mem, vget_withCan, vget_vset_same]
    refine ⟨rfl, rfl, rfl, rfl, rfl, fun i => ?_, fun i hi => vget_vset_other _ _ _ _ hi, rfl⟩
    simp [moStore, vget]
  · rw [hexec, receive_matched (c := { c with flag := none }) hrec hsome hplain, moTake_lost (c := { c with flag := none }) hlow hhold htag]
    rfl
end Reception

/-! ### Errors (R332) -/

/-- The attempt that an error of the transmitter ends. -/
def errEnds (k : Fin 4) (e : CanErr) (t : Option (Fin 64 × BitVec 32)) (s : State) : State :=
  match t with
  | some (j, _) => if e.tx then attemptFails k j s else s
  | none => s
/-- What an error adds to the counters. -/
def errCounts (e : CanErr) (c : Can) : Can :=
  if e.tx then (if e.exempt then c else { c with tec := BitVec.ofNat 9 (c.tec.toNat + 8) })
  else { c with rec_ := BitVec.ofNat 9 (min 255 (c.rec_.toNat + if e.heavy then 8 else 1)) }
theorem errDelay_eq (k : Fin 4) (e : CanErr) (s : State) :
    ∃ v, errDelay k e s = withCan k { vget s.can k with tdcv := v } s := by
  have hkeep : s = withCan k { vget s.can k with tdcv := (vget s.can k).tdcv } s := by
    unfold withCan
    rw [show ({ vget s.can k with tdcv := (vget s.can k).tdcv } : Can) = vget s.can k from rfl, vset_vget]
  unfold errDelay
  split
  · unfold tdcMeasure
    rw [modCan_eq]
    split
    · exact ⟨_, rfl⟩
    · exact ⟨(vget s.can k).tdcv, rfl⟩
  · exact ⟨_, hkeep⟩
/-- An error notes its kind, ends an attempt, counts, and leaves the error state that the counters give. -/
theorem canError_eq (k : Fin 4) (e : CanErr) (s : State) : ∃ v g,
    canError k e s = canState k ((errEnds k e (vget s.can k).tx (withCan k { vget s.can k with
      tdcv := v, lec := e.lec, lecData := e.dataPhase, flag := some g } s)).modCan k (errCounts e)) := by
  obtain ⟨v, hdelay⟩ := errDelay_eq k e s
  refine ⟨v, errFlag e.tx (withCan k { vget s.can k with tdcv := v } s) { vget s.can k with tdcv := v }, ?_⟩
  unfold canError
  dsimp only
  rw [hdelay, modCan_withCan]
  rfl
theorem errEnds_receiver {k : Fin 4} {e : CanErr} (htx : e.tx = false) (t : Option (Fin 64 × BitVec 32)) (s : State) :
    errEnds k e t s = s := by
  unfold errEnds
  split
  · rw [htx, if_neg (by decide)]
  · rfl
/-- An error at a receiver counts in REC alone. -/
theorem canError_receiver {k : Fin 4} {e : CanErr} {s : State} (htx : e.tx = false)
    (htec : (vget s.can k).tec.toNat < 256) :
    let c := vget s.can k
    let y := vget (canError k e s).can k
    y.lec = e.lec ∧ y.rec_.toNat = min 255 (c.rec_.toNat + if e.heavy then 8 else 1) ∧ y.tec = c.tec ∧ y.mo = c.mo ∧
      (y.st = if 128 ≤ c.tec.toNat ∨ 128 ≤ y.rec_.toNat then .passive else .active) := by
  obtain ⟨v, g, herr⟩ := canError_eq k e s
  have hcounts : ∀ c : Can, errCounts e c =
      { c with rec_ := BitVec.ofNat 9 (min 255 (c.rec_.toNat + if e.heavy then 8 else 1)) } := fun c => by
    unfold errCounts
    rw [htx, if_neg (by decide)]
  rw [herr, errEnds_receiver htx, modCan_withCan, hcounts]
  dsimp only
  rw [canState_on (by rw [vget_withCan]; exact htec), vget_withCan]
  refine ⟨rfl, ?_, rfl, rfl, rfl⟩
  dsimp only
  rw [BitVec.toNat_ofNat, Nat.mod_eq_of_lt (by omega)]
theorem exec_canError {k : Fin 4} {e : CanErr} {s : State} (hr : s.rat.reopened = none) (hfits : errFits (vget s.can k) e = true)
    (hbus : canOnBus s k = true) (hlow : 1 ≤ e.lec) (hhigh : e.lec ≤ 6) :
    exec (.canError k e) s = .next (settle (canError k e s)) :=
  doneIf_pos (by rw [hbus, hfits, decide_eq_true hlow, decide_eq_true hhigh]; rfl) hr _
/-- A controller of MODE 1 takes an FD frame for a form error. -/
theorem received_fd {k : Fin 4} {f : CanFrame} {sof : BitVec 32} {s : State} (hr : s.rat.reopened = none)
    (hbus : canOnBus s k = true) (hloop : (vget s.can k).loop = false) (htx : (vget s.can k).tx = none)
    (hfd : f.fdf = true) (hmode : (vget s.can k).mode = 1) (htec : (vget s.can k).tec.toNat < 256) :
    let c := vget s.can k
    ∃ t, exec (.frameReceived k f sof []) s = .next t ∧ (vget t.can k).lec = 2 ∧
      (vget t.can k).rec_.toNat = min 255 (c.rec_.toNat + 1) ∧ (vget t.can k).mo = c.mo := by
  have hfits : errFits (vget s.can k) fdfError = true := by
    unfold errFits fdfError
    simp [hloop, htx]
  have hrow : execFrameReceived k f sof [] s = doneIf (canOnBus s k && errFits (vget s.can k) fdfError) s fun s =>
      orders [] (canError k fdfError s) := if_pos (by rw [hfd, decide_eq_true hmode]; rfl)
  have hexec : exec (.frameReceived k f sof []) s = .next (settle (canError k fdfError s)) := by
    rw [exec, hrow, doneIf_pos (by rw [hbus, hfits]; rfl) hr, orders_nil]
  obtain ⟨hlec, hrec, -, hmo, -⟩ := canError_receiver (k := k) (e := fdfError) rfl htec
  refine ⟨_, hexec, ?_⟩
  rw [settle_can]
  exact ⟨hlec, hrec, hmo⟩

end Sys2Proof.Machine
end

section
/-! SUPPORT. A CAN controller as transmitter: the object it offers, how an attempt ends, requests, states and configuration. -/
set_option Elab.async false
namespace Sys2Proof.Machine

/-! ### The object offered (R326) -/

/-- One step of the choice: a pending object of a lower arbitration field takes the place. -/
def offerStep (c : Can) (w : Option (Fin 64)) (j : Fin 64) : Option (Fin 64) :=
  if !(vget c.mo j).pend then w else
  match w with
  | none => some j
  | some i => if arbField (vget c.mo j) < arbField (vget c.mo i) then some j else some i
/-- The place after a step holds a pending object that is no higher than the one before or the one looked at. -/
theorem offerStep_least {c : Can} {w : Option (Fin 64)} {j i : Fin 64} (h : offerStep c w j = some i) :
    ((vget c.mo j).pend = true → arbField (vget c.mo i) ≤ arbField (vget c.mo j)) ∧
      ∀ k, w = some k → arbField (vget c.mo i) ≤ arbField (vget c.mo k) := by
  unfold offerStep at h
  cases hp : (vget c.mo j).pend
  · rw [hp, if_pos (by decide)] at h
    subst h
    exact ⟨nofun, fun k hk => by cases hk; exact le_rfl⟩
  · rw [hp, if_neg (by decide)] at h
    cases w with
    | none =>
      cases h
      exact ⟨fun _ => le_rfl, nofun⟩
    | some k =>
      dsimp only at h
      split at h
      · next hlt =>
        cases h
        exact ⟨fun _ => le_rfl, fun k' hk => by cases hk; exact hlt.le⟩
      · next hle =>
        cases h
        exact ⟨fun _ => not_lt.mp hle, fun k' hk => by cases hk; exact le_rfl⟩
theorem offerStep_some {c : Can} {k : Fin 64} (j : Fin 64) : ∃ i, offerStep c (some k) j = some i := by
  unfold offerStep
  split
  · exact ⟨_, rfl⟩
  · dsimp only
    split <;> exact ⟨_, rfl⟩
theorem offer_foldl_least {c : Can} (l : List (Fin 64)) (w : Option (Fin 64)) {i : Fin 64}
    (h : l.foldl (offerStep c) w = some i) :
    (∀ k, w = some k → arbField (vget c.mo i) ≤ arbField (vget c.mo k)) ∧
      ∀ j ∈ l, (vget c.mo j).pend = true → arbField (vget c.mo i) ≤ arbField (vget c.mo j) := by
  induction l generalizing w with
  | nil => exact ⟨fun k hk => by rw [List.foldl_nil, hk] at h; cases h; exact le_rfl, nofun⟩
  | cons j l ih =>
    rw [List.foldl_cons] at h
    obtain ⟨hplace, hrest⟩ := ih _ h
    refine ⟨fun k hk => ?_, fun j' hj hp => ?_⟩
    · obtain ⟨m, hm⟩ := offerStep_some (c := c) (k := k) j
      rw [hk] at hplace
      exact (hplace m hm).trans ((offerStep_least hm).2 k rfl)
    · rcases List.mem_cons.mp hj with rfl | hj
      · obtain ⟨m, hm⟩ : ∃ m, offerStep c w j' = some m := by
          unfold offerStep
          rw [hp, if_neg (by decide)]
          cases w with
          | none => exact ⟨_, rfl⟩
          | some k => dsimp only; split <;> exact ⟨_, rfl⟩
        exact (hplace m hm).trans ((offerStep_least hm).1 hp)
      · exact hrest j' hj hp
theorem offer_least {c : Can} {j : Fin 64} (h : offer c = some j) (i : Fin 64) (hp : (vget c.mo i).pend = true) :
    arbField (vget c.mo j) ≤ arbField (vget c.mo i) :=
  (offer_foldl_least (List.finRange 64) none h).2 i (List.mem_finRange i) hp

section Attempt
variable {s : State} {k : Fin 4} {j : Fin 64} {sof : BitVec 32}

theorem exec_attempt (hoffer : offer (vget s.can k) = some j) (hbus : canOnBus s k = true) (htx : (vget s.can k).tx = none)
    (hlisten : (vget s.can k).listen = false) (hstop : (vget s.can k).stopTx = false) :
    let c := vget s.can k
    exec (.transmissionAttempt k) s = .next (settle { s with can := vset s.can k { c with
      tx := some (j, s.tsc), sofAt := s.time.it, flag := none,
      mo := vset c.mo j { vget c.mo j with att := some s.tsc } } }) := by
  intro c
  have hrow : exec (.transmissionAttempt k) s = doneIf true s fun s =>
      (s.modCan k fun c => { c with tx := some (j, s.tsc), sofAt := s.time.it, flag := none }).modMo k j fun m =>
        { m with att := some s.tsc } := by
    rw [exec, execTransmissionAttempt]
    rw [hoffer, hbus, htx, hlisten, hstop]
    rfl
  rw [hrow, doneIf_free rfl rfl, modCan_eq, modMo_withCan]
  rfl

/-! ### The end of an attempt (R326, R328, R332) -/

theorem canTo_same (new : CanState) {y : Can} (hy : vget s.can k = y) : vget (canTo k new s).can k = { y with st := new } := by
  rw [canTo_controller, hy]
/-- The controller after a frame sent, outside bus-off. -/
theorem sent_on {delay : BitVec 8} (hloop : (vget s.can k).loop = false) (htec : (vget s.can k).tec.toNat < 128)
    (hrec : (vget s.can k).rec_.toNat < 128) :
    let c := vget s.can k
    let m := vget c.mo j
    let y := vget (frameSent k j sof delay s).can k
    y.tx = none ∧ y.tec = (if c.tec = 0 then 0 else c.tec - 1) ∧ y.st = .active ∧
      y.tdcv = (if tdcRuns c m then delay else c.tdcv) ∧ (vget y.mo j).pend = false ∧ (vget y.mo j).txres = 0 ∧
      (vget y.mo j).tag = m.tag.bump := by
  intro c m
  have hsent : vget (sentFrame k j delay s).can k = { c with
      tdcv := if tdcRuns c m then delay else c.tdcv, tx := none, tec := if c.tec = 0 then 0 else c.tec - 1
      mo := vmod c.mo j (·.completed 0) } := by
    unfold sentFrame tdcMeasure
    rw [txDone_can, vget_vmod_same, modCan_can, vget_vmod_same, modCan_can, vget_vmod_same]
    dsimp only
    split <;> rfl
  have hdown : (if c.tec = 0 then 0 else c.tec - 1).toNat < 128 := by
    split
    · decide
    · next hne =>
      have hpos : c.tec.toNat ≠ 0 := fun h => hne (BitVec.eq_of_toNat_eq h)
      rw [BitVec.toNat_sub_of_le (BitVec.le_def.mpr (by simpa using Nat.one_le_iff_ne_zero.mpr hpos))]
      exact lt_of_le_of_lt (Nat.sub_le _ _) htec
  dsimp only
  rw [frameSent_of_no_loop hloop, canState_on (by rw [hsent]; exact lt_trans hdown (by decide)), hsent]
  refine ⟨rfl, rfl, if_neg ?_, rfl, ?_, ?_, ?_⟩
  · exact not_or.mpr ⟨not_le.mpr hdown, not_le.mpr hrec⟩
  all_goals
    dsimp only
    rw [vget_vmod_same]
    rfl
/-- An attempt that fails leaves its object pending, or completes it with ONESHOT. -/
theorem attemptFails_controller (c : Can) :
    vget (attemptFails k j (withCan k c s)).can k = { c with
      tx := none, mo := if (vget c.mo j).oneshot then vmod c.mo j (·.completed 3) else c.mo } := by
  unfold attemptFails
  dsimp only
  rw [modCan_withCan, vget_withCan]
  split
  · rw [txDone_can, vget_vmod_same, vget_withCan]
  · rw [vget_withCan]
theorem exec_frameSent_any {delay : BitVec 8} (hr : s.rat.reopened = none) (hbus : canOnBus s k = true)
    (htx : (vget s.can k).tx = some (j, sof))
    (hdelay : tdcRuns (vget s.can k) (vget (vget s.can k).mo j) = true → delay ≤ tdcMax) :
    exec (.frameSent k delay) s = .next (settle (frameSent k j sof delay s)) := by
  have hok : (!tdcRuns (vget s.can k) (vget (vget s.can k).mo j) || decide (delay ≤ tdcMax)) = true := by
    cases hruns : tdcRuns (vget s.can k) (vget (vget s.can k).mo j)
    · rfl
    · exact decide_eq_true (hdelay hruns)
  rw [exec, execFrameSent]
  rw [htx]
  exact doneIf_pos (by rw [hbus, hok]; rfl) hr _
theorem lost_attempt (hr : s.rat.reopened = none) (hbus : canOnBus s k = true) (htx : (vget s.can k).tx = some (j, sof))
    (hloop : (vget s.can k).loop = false) :
    let c := vget s.can k
    let m := vget c.mo j
    ∃ t, exec (.arbitrationLost k) s = .next t ∧ (vget t.can k).tx = none ∧ (vget t.can k).arblost = satInc c.arblost ∧
      (m.oneshot = false → (vget (vget t.can k).mo j).pend = m.pend) ∧
      (m.oneshot = true → (vget (vget t.can k).mo j).pend = false ∧ (vget (vget t.can k).mo j).txres = 3) := by
  intro c m
  have hexec : exec (.arbitrationLost k) s =
      .next (settle (attemptFails k j (withCan k { c with arblost := satInc c.arblost } s))) := by
    have hok : (canOnBus s k && !(vget s.can k).loop) = true := by rw [hbus, hloop]; rfl
    have hrow : exec (.arbitrationLost k) s = doneIf (canOnBus s k && !(vget s.can k).loop) s fun s =>
        attemptFails k j (s.modCan k fun c => { c with arblost := satInc c.arblost }) := by
      rw [exec, execArbitrationLost, htx]
    rw [hrow, doneIf_pos hok hr]
    rfl
  refine ⟨_, hexec, ?_⟩
  rw [settle_can, attemptFails_controller]
  refine ⟨rfl, rfl, fun hshot => ?_, fun hshot => ?_⟩ <;> dsimp only
  · rw [if_neg (by rw [hshot]; decide)]
  · rw [if_pos hshot, vget_vmod_same]
    exact ⟨rfl, rfl⟩

/-! ### Errors at a transmitter (R332) -/

/-- An error of the transmitter ends its attempt. -/
theorem errEnds_transmitter {e : CanErr} (htx : e.tx = true) (c : Can) :
    ∃ mo, vget (errEnds k e c.tx (withCan k c s)).can k = { c with tx := none, mo := mo } := by
  unfold errEnds
  split
  · rw [htx, if_pos rfl, attemptFails_controller]
    exact ⟨_, rfl⟩
  · next hnone =>
    rw [vget_withCan]
    exact ⟨c.mo, by rw [← hnone]⟩
/-- The controller after an error of the transmitter, before its counters give the error state. -/
theorem canError_transmitter {e : CanErr} (htx : e.tx = true) (s : State) : ∃ u, canError k e s = canState k u ∧
    let c := vget s.can k
    let y := vget u.can k
    y.lec = e.lec ∧ y.tx = none ∧ y.tec = (if e.exempt then c.tec else BitVec.ofNat 9 (c.tec.toNat + 8)) ∧
      y.rec_ = c.rec_ ∧ y.autorec = c.autorec := by
  obtain ⟨v, g, herr⟩ := canError_eq k e s
  obtain ⟨mo, hends⟩ := errEnds_transmitter (s := s) (k := k) htx { vget s.can k with
    tdcv := v, lec := e.lec, lecData := e.dataPhase, flag := some g }
  refine ⟨_, herr, ?_⟩
  dsimp only at hends ⊢
  rw [modCan_can, vget_vmod_same, hends]
  unfold errCounts
  rw [htx, if_pos rfl]
  split <;> exact ⟨rfl, rfl, rfl, rfl, rfl⟩
theorem error_on {e : CanErr} (htx : e.tx = true) (htec : (vget s.can k).tec.toNat < 248) :
    let c := vget s.can k
    let y := vget (canError k e s).can k
    y.lec = e.lec ∧ y.tx = none ∧ y.tec.toNat = c.tec.toNat + (if e.exempt then 0 else 8) ∧
      (y.st = if 128 ≤ y.tec.toNat ∨ 128 ≤ c.rec_.toNat then .passive else .active) := by
  obtain ⟨u, herr, hlec, hnone, hcount, hrec, -⟩ := canError_transmitter (k := k) htx s
  have hup : (vget u.can k).tec.toNat = (vget s.can k).tec.toNat + (if e.exempt then 0 else 8) := by
    rw [hcount]
    split
    · rfl
    · rw [BitVec.toNat_ofNat, Nat.mod_eq_of_lt (by omega)]
  dsimp only
  rw [herr, canState_on (by rw [hup]; split <;> omega)]
  exact ⟨hlec, hnone, hup, by rw [hrec]⟩
/-- The sweep of bus-off leaves no object of its list pending, and the state and the attempt as they are. -/
theorem busOffSweep_controller (js : List (Fin 64)) (s : State) : ∃ mo,
    vget (busOffSweep k js s).can k = { vget s.can k with mo := mo } ∧ ∀ j ∈ js, (vget mo j).pend = false := by
  induction js generalizing s with
  | nil => exact ⟨(vget s.can k).mo, rfl, nofun⟩
  | cons i js ih =>
    have hstep : busOffSweep k (i :: js) s =
      busOffSweep k js (if (vget (vget s.can k).mo i).pend then txDone k i 2 s else s) := rfl
    have hfirst : ∃ mo u, (if (vget (vget s.can k).mo i).pend then txDone k i 2 s else s) = u ∧
        vget u.can k = { vget s.can k with mo := mo } ∧ (vget mo i).pend = false := by
      split
      · refine ⟨_, _, rfl, by rw [txDone_can, vget_vmod_same], ?_⟩
        rw [vget_vmod_same]
        rfl
      · next hidle => exact ⟨(vget s.can k).mo, s, rfl, rfl, Bool.eq_false_iff.mpr hidle⟩
    obtain ⟨mo, u, hu, hcan, hpend⟩ := hfirst
    obtain ⟨mo', hcan', hrest⟩ := ih u
    rw [hstep, hu]
    refine ⟨mo', by rw [hcan', hcan], fun j hj => ?_⟩
    rcases List.mem_cons.mp hj with rfl | hj
    · have hkeep := busOffSweep_object (k := k) (j := j) js (s := u) (by rw [hcan]; exact hpend)
      rw [hcan', hcan] at hkeep
      dsimp only at hkeep
      rw [hkeep]
      exact hpend
    · exact hrest j hj
theorem error_busOff {e : CanErr} (htx : e.tx = true) (hexempt : e.exempt = false) (hlow : 248 ≤ (vget s.can k).tec.toNat)
    (hhigh : (vget s.can k).tec.toNat < 256) (hauto : (vget s.can k).autorec = false) :
    let y := vget (canError k e s).can k
    y.st = .busOff ∧ y.tx = none ∧ ∀ i, (vget y.mo i).pend = false := by
  obtain ⟨u, herr, -, hnone, hcount, -, hrecover⟩ := canError_transmitter (k := k) htx s
  have hoff : 256 ≤ (vget u.can k).tec.toNat := by
    rw [hcount, hexempt, if_neg (by decide), BitVec.toNat_ofNat, Nat.mod_eq_of_lt (by omega)]
    omega
  obtain ⟨mo, hsweep, hpend⟩ := busOffSweep_controller (k := k) (List.finRange 64)
    (canTo k .busOff (u.modCan k fun c => { c with tx := none }))
  rw [canTo_controller, modCan_can, vget_vmod_same] at hsweep
  have hstay : (vget (busOffSweep k (List.finRange 64) (canTo k .busOff (u.modCan k fun c =>
      { c with tx := none }))).can k).autorec = false := by rw [hsweep]; exact hrecover.trans hauto
  dsimp only
  rw [herr, canState]
  rw [if_pos hoff, busOff_eq]
  dsimp only
  rw [if_neg (by rw [hstay]; decide), hsweep]
  exact ⟨rfl, rfl, fun i => hpend i (List.mem_finRange i)⟩
end Attempt

/-! ### Requests, recovery and configuration (R322, R325, R327, R332) -/

section Writes
variable {s : State} {k : Fin 4} {j : Fin 64} {w : Master}

theorem canIgn_eq (k : Fin 4) (s : State) :
    canIgn k s = { s with can := vset s.can k { vget s.can k with ign := satInc (vget s.can k).ign } } := rfl
theorem exec_txreq (hw : Admits w (moBase k j + 0x1C) s) : exec (.txreq w k j) s = .next (settle (txReq k j s)) := by
  rw [exec, execTxreq, regWriteAt_of_admits hw, done]
/-- The object can take a request (R325). -/
def txFree (c : Can) (m : MsgObj) : Bool :=
  m.en && m.tx && !m.pend && !c.listen && !c.off && (c.mode ≠ 0) && !(m.fdf && c.mode = 1) && !(m.fdf && m.rtr)
theorem txReq_eq (k : Fin 4) (j : Fin 64) (s : State) : txReq k j s =
    if txFree (vget s.can k) (vget (vget s.can k).mo j) then s.modMo k j fun m => { m with pend := true, att := none }
    else canIgn k s := by
  have hnot : (!(vget (vget s.can k).mo j).en || !(vget (vget s.can k).mo j).tx || (vget (vget s.can k).mo j).pend ||
      (vget s.can k).listen || (vget s.can k).off || (vget s.can k).mode = 0 ||
      ((vget (vget s.can k).mo j).fdf && (vget s.can k).mode = 1) ||
      ((vget (vget s.can k).mo j).fdf && (vget (vget s.can k).mo j).rtr)) =
      !txFree (vget s.can k) (vget (vget s.can k).mo j) := by
    unfold txFree
    simp only [Bool.not_and, Bool.not_or, Bool.not_not, ne_eq, decide_not, Bool.or_assoc]
  unfold txReq
  dsimp only
  rw [hnot]
  cases txFree (vget s.can k) (vget (vget s.can k).mo j) <;> rfl
theorem cancel_row (hw : Admits w (moBase k j + 0x1C) s) :
    let c := vget s.can k
    let m := vget c.mo j
    (m.pend = false → exec (.cancel w k j) s = .next (settle (canIgn k s))) ∧
    (m.pend = true → c.tx = none → ∃ t, exec (.cancel w k j) s = .next t ∧ (vget (vget t.can k).mo j).pend = false ∧
      (vget (vget t.can k).mo j).txres = 1 ∧ (vget (vget t.can k).mo j).tag = m.tag.bump) ∧
    (∀ sof, m.pend = true → c.tx = some (j, sof) → exec (.cancel w k j) s = .next (settle { s with
      can := vset s.can k { c with canref := satInc c.canref } })) := by
  intro c m
  refine ⟨fun hidle => ?_, fun hpend hnone => ⟨_, exec_cancel hw, ?_⟩, fun sof hpend htx => ?_⟩
  · rw [exec_cancel hw, cancelTx_of_idle hidle]
  · rw [cancelTx_of_no_attempt hpend (fun sof h => by rw [hnone] at h; cases h), settle_can, txDone_can, vget_vmod_same]
    dsimp only
    rw [vget_vmod_same]
    exact ⟨rfl, rfl, rfl⟩
  · rw [exec_cancel hw, cancelTx_of_attempt hpend htx]
    rfl
theorem recover_row (hw : Admits w (canBase k + 0x10) s) :
    ((vget s.can k).st = .busOff → ∃ t, exec (.recover w k) s = .next t ∧ (vget t.can k).st = .integrating ∧
      (vget t.can k).recovering = true) ∧
    ((vget s.can k).st ≠ .busOff → exec (.recover w k) s = .next (settle (canIgn k s))) := by
  have hexec : exec (.recover w k) s = .next (settle (recover k s)) := by
    rw [exec, execRecover, regWriteAt_of_admits hw, done]
  refine ⟨fun hoff => ⟨_, hexec, ?_⟩, fun hon => ?_⟩
  · rw [recover, if_pos hoff, settle_can, canTo_controller, modCan_can, vget_vmod_same]
    exact ⟨rfl, rfl⟩
  · rw [hexec, recover, if_neg hon]
theorem integrated (hr : s.rat.reopened = none) (hworks : canWorks s k = true) (hst : (vget s.can k).st = .integrating) :
    ((vget s.can k).recovering = true → ∃ t, exec (.busOffRecoveryDone k) s = .next t ∧ (vget t.can k).st = .active ∧
      (vget t.can k).recovering = false ∧ (vget t.can k).tec = 0 ∧ (vget t.can k).rec_ = 0) ∧
    ((vget s.can k).recovering = false → ∃ t, exec (.busIntegrationDone k) s = .next t ∧ (vget t.can k).st = .active ∧
      (vget t.can k).tec = (vget s.can k).tec) := by
  refine ⟨fun hrec => ?_, fun hrec => ?_⟩
  · have hok : (canWorks s k && (vget s.can k).recovering && (vget s.can k).st = .integrating) = true := by
      rw [hworks, hrec, decide_eq_true hst]; rfl
    refine ⟨_, doneIf_pos hok hr fun s =>
      canTo k .active (s.modCan k fun c => { c with recovering := false, tec := 0, rec_ := 0 }), ?_⟩
    rw [settle_can, canTo_controller, modCan_can, vget_vmod_same]
    exact ⟨rfl, rfl, rfl, rfl⟩
  · have hok : (canWorks s k && !(vget s.can k).recovering && (vget s.can k).st = .integrating) = true := by
      rw [hworks, hrec, decide_eq_true hst]; rfl
    refine ⟨_, doneIf_pos hok hr (canTo k .active), ?_⟩
    rw [settle_can, canTo_controller]
    exact ⟨rfl, rfl⟩
/-- A write of MO_CFG or MO_ID of an object that is not mapped: it takes the value, or is counted (R322, R325). -/
theorem config_row {v : BitVec 32} {id : Bool} {n : MsgObj} (hplain : (vget (vget s.can k).mo j).mapped = false)
    (hw : Admits w (moBase k j + if id then 4 else 0) s)
    (hn : n = if id then { vget (vget s.can k).mo j with id := v.setWidth 29 }
      else { vget (vget s.can k).mo j with cfg := v.setWidth 16 &&& (if j.val < 8 then 0xF0FF else 0xF17F) }) :
    let c := vget s.can k
    let m := vget c.mo j
    (m.pend = false ∧ (claimsIdent id m n = true → clashes c j n = false) → exec (.moConfigWrite w k j id v) s =
      .next (settle { s with can := vset s.can k { c with mo := vset c.mo j n } })) ∧
    (m.pend = true ∨ (claimsIdent id m n = true ∧ clashes c j n = true) → exec (.moConfigWrite w k j id v) s =
      .next (settle (canIgn k s))) := by
  intro c m
  have hexec : exec (.moConfigWrite w k j id v) s = .next (settle (
      if m.pend || (claimsIdent id m n && clashes c j n) then canIgn k s else s.modMo k j fun _ => n)) := by
    have hconf : moConfig k j id v s =
        if m.pend || (claimsIdent id m n && clashes c j n) then canIgn k s else s.modMo k j fun _ => n := by
      rw [hn]
      unfold moConfig
      dsimp only
      rw [if_neg (by rw [hplain]; decide)]
    rw [exec, execMoConfigWrite, regWriteAt_of_admits hw, done, hconf]
  rw [hexec]
  refine ⟨fun ⟨hidle, hclear⟩ => ?_, fun hrefused => ?_⟩
  · have hok : (m.pend || (claimsIdent id m n && clashes c j n)) = false := by
      rw [hidle, Bool.false_or, Bool.and_eq_false_iff, or_iff_not_imp_left, Bool.not_eq_false]
      exact hclear
    rw [hok, if_neg (by decide)]
    rfl
  · have hbad : (m.pend || (claimsIdent id m n && clashes c j n)) = true := by
      rw [Bool.or_eq_true, Bool.and_eq_true]
      exact hrefused
    rw [if_pos hbad]
end Writes

/-- Settles O53: reception, the attempt from its offer to its end, errors, requests, recovery and configuration. -/
theorem canControllers : Obligations.CanControllers := by
  unfold Obligations.CanControllers
  intro s k hr
  refine ⟨fun f sof rivals hbus hloop htx hfd hremote hsof => ?_, fun f sof hbus hloop htx hfd hmode htec =>
      received_fd hr hbus hloop htx hfd hmode htec,
    fun j hoffer hbus htx hlisten hstop => ⟨offer_least hoffer, exec_attempt hoffer hbus htx hlisten hstop⟩,
    fun j sof htx hbus => ⟨fun delay hdelay => ⟨exec_frameSent_any hr hbus htx hdelay, fun hloop htec hrec => ?_⟩,
      lost_attempt hr hbus htx, fun e hfits hlow hhigh hetx htec => ?_,
      fun e hfits hlow hhigh hexempt hetx hlo hhi hauto => ?_⟩,
    fun e hfits hbus hlow hhigh => ⟨exec_canError hr hfits hbus hlow hhigh, fun hetx htec => ?_⟩,
    fun w j hw => ⟨fun hfree => ?_, fun hbusy => ?_, cancel_row hw⟩,
    fun w hw => recover_row hw, fun hworks hst => integrated hr hworks hst,
    fun w j v hplain => ⟨fun hw => config_row (id := true) hplain hw rfl, fun hw => config_row (id := false) hplain hw rfl⟩⟩
  · have hexec := fun rivals => exec_received (rivals := rivals) hr hbus hloop htx hfd hremote hsof
    exact ⟨hexec rivals, received_frame hexec⟩
  · refine ⟨_, exec_frameSent_any hr hbus htx hdelay, ?_⟩
    rw [settle_can]
    exact sent_on hloop htec hrec
  · refine ⟨_, exec_canError hr hfits hbus hlow hhigh, ?_⟩
    rw [settle_can]
    exact error_on hetx htec
  · refine ⟨_, exec_canError hr hfits hbus hlow hhigh, ?_⟩
    rw [settle_can]
    exact error_busOff hetx hexempt hlo hhi hauto
  · refine ⟨_, exec_canError hr hfits hbus hlow hhigh, ?_⟩
    obtain ⟨hlec, hrec, hcount, -, hst⟩ := canError_receiver (k := k) hetx htec
    rw [settle_can]
    exact ⟨hlec, hrec, hcount, hst⟩
  · exact (exec_txreq hw).trans (by rw [txReq_eq, if_pos (by exact hfree)]; rfl)
  · exact (exec_txreq hw).trans (by rw [txReq_eq, if_neg (by rw [Bool.not_eq_true]; exact hbusy)]; rfl)

end Sys2Proof.Machine
end

section
/-! SUPPORT. Orders to axes: the way of a single order through arbitration, and what each order leaves. -/
set_option Elab.async false
namespace Sys2Proof.Machine

/-! ### Axes that move (R239, R244) -/

/-- One axis is another up to its place in its engine's grid. -/
def SamePlace (x y : Axis) : Prop := x = { y with aligned := x.aligned, phase := x.phase }
theorem SamePlace.refl (x : Axis) : SamePlace x x := rfl
theorem rephase_samePlace (e : Fin 8) (s : State) (b : Fin 32) :
    SamePlace (vget (rephase e s).axes b) (vget s.axes b) := by
  have hfold : ∀ (l : List (Fin 32)) (t : State), SamePlace
      (vget (l.foldl (fun s a => s.modAxis a fun x => { x with aligned := true, phase := 0 }) t).axes b) (vget t.axes b) := by
    intro l
    induction l with
    | nil => exact fun t => .refl _
    | cons a l ih =>
      intro t
      have hrest := ih (t.modAxis a fun x => { x with aligned := true, phase := 0 })
      rw [List.foldl_cons]
      rcases eq_or_ne b a with rfl | hne
      · rw [modAxis_axes, vget_vmod_same] at hrest
        exact hrest
      · rw [modAxis_axes, vget_vmod_other (h := hne)] at hrest
        exact hrest
  unfold rephase
  split
  · exact .refl _
  · exact hfold _ _
/-- The axes after one that moves: itself, and its engine's grid. -/
theorem axisTo_axes {a : Fin 32} {new : AxState} {cause rank port : Nat} {s : State} (hst : (vget s.axes a).st ≠ new) :
    (∃ hold, SamePlace (vget (axisTo a new cause rank port s).axes a) { vget s.axes a with
      st := new, safeHold := hold, segRun := if new.runs then (vget s.axes a).segRun else none
      src := if new.runs then (vget s.axes a).src else 0, pwmTest := none }) ∧
    ∀ b, b ≠ a → SamePlace (vget (axisTo a new cause rank port s).axes b) (vget s.axes b) := by
  unfold axisTo
  extract_lets x hold t u v
  rw [if_neg hst]
  have haxes : v.axes = t.axes := by
    simp only [v, u]
    split
    · rw [say_axes, emit_axes]
    · rw [emit_axes]
  have hplace : ∀ b, SamePlace (vget (if new.runs then v else rephase (axEngine a) v).axes b) (vget t.axes b) := by
    intro b
    rw [← haxes]
    split
    · exact .refl _
    · exact rephase_samePlace _ _ _
  refine ⟨⟨hold, ?_⟩, fun b hb => ?_⟩
  · have hself := hplace a
    rw [show vget t.axes a = _ from vget_vmod_same _ _ _] at hself
    exact hself
  · have hother := hplace b
    rw [show vget t.axes b = vget s.axes b from vget_vmod_other (h := hb) ..] at hother
    exact hother

/-! ### A single order (R264) -/

theorem foldl_only {α β : Type} [DecidableEq α] {g : β → α → β} {a : α} (hg : ∀ t b, b ≠ a → g t b = t) :
    ∀ (l : List α), l.Nodup → ∀ s : β, l.foldl g s = if a ∈ l then g s a else s := by
  intro l
  induction l with
  | nil => exact fun _ s => rfl
  | cons b l ih =>
    intro hnodup s
    obtain ⟨hb, hl⟩ := List.nodup_cons.mp hnodup
    rw [List.foldl_cons, ih hl]
    rcases eq_or_ne b a with rfl | hne
    · rw [if_neg hb, if_pos List.mem_cons_self]
    · rw [hg s b hne]
      simp only [List.mem_cons, hne.symm, false_or]
theorem filter_one {α : Type} {p : α → Bool} {x : α} (h : p x = true) : [x].filter p = [x] := by simp [h]
theorem filter_none {α : Type} {p : α → Bool} {x : α} (h : p x = false) : [x].filter p = [] := by simp [h]
theorem arbitrate_nil (a : Fin 32) (s : State) : arbitrate a [] s = s := rfl
/-- The orders of a clock with a single one reach its axis alone. -/
theorem orders_single (o : Rival) (s : State) : orders [o] s = arbitrate o.axis [o] s := by
  have hother : ∀ (t : State) (b : Fin 32), b ≠ o.axis → (
      let mine := [o].filter fun o => o.axis = b
      if mine = [] then t else arbitrate b (mine.filter rivalState) (arbitrate b (mine.filter fun o => !(rivalState o)) t)) = t := by
    intro t b hb
    have hmine : ([o].filter fun o => o.axis = b) = [] := filter_none (decide_eq_false hb.symm)
    dsimp only
    rw [hmine, if_pos rfl]
  unfold orders
  rw [foldl_only hother _ (List.nodup_finRange 32), if_pos (List.mem_finRange _)]
  dsimp only
  have hmine : ([o].filter fun p => p.axis = o.axis) = [o] := filter_one (decide_eq_true rfl)
  rw [hmine, if_neg (List.cons_ne_nil _ _)]
  cases hstate : rivalState o
  · rw [filter_none hstate, filter_one (p := fun o => !rivalState o) (by rw [hstate]; rfl), arbitrate_nil]
  · rw [filter_one hstate, filter_none (p := fun o => !rivalState o) (by rw [hstate]; rfl), arbitrate_nil]
/-- An order that nothing contests applies. -/
theorem arbitrate_single {o : Rival} {s : State} {a : Fin 32} (hbeaten : beaten s a o = false)
    (hstand : rivalState o = true → standing s a = []) :
    arbitrate a [o] s = if rivalState o then applyOrder a o.op o.src o.rank.toNat o.port.toNat s
      else applySetpoint a o.spd o.value s := by
  have hlost : [o].filter (beaten s a) = [] := filter_none hbeaten
  have hlive : ([o].filter fun o => !beaten s a o) = [o] := filter_one (by rw [hbeaten]; rfl)
  have hst : (if [o].any rivalState then standing s a else []) = [] := by
    simp only [List.any_cons, List.any_nil, Bool.or_false]
    split
    · next h => exact hstand h
    · rfl
  unfold arbitrate
  dsimp only
  rw [hlost, hlive, hst]
  simp [firstRival]
/-- The master of a rank and port can give the order now, and the order alone comes about. -/
theorem orderArrives_reaches {o : Rival} {off : Nat} {s : State} (hr : s.rat.reopened = none)
    (hreach : Reaches s o.axis o.rank o.port off) (hstate : o.rank = 2 → rivalState o = true) :
    orderArrives o off [] s = .next (settle (orders [o] s)) := by
  unfold orderArrives
  dsimp only
  rcases hreach with ⟨hrank, hport, -, hlock⟩ | ⟨hrank, hport⟩ | ⟨w, hw, hadmits⟩ | ⟨hrank, hmap⟩
  · rw [hrank, if_neg (by decide), if_neg (by decide), if_pos rfl]
    exact doneIf_pos (by rw [decide_eq_true hport, hstate hrank, hlock]; rfl) hr _
  · rw [hrank, if_neg (by decide), if_neg (by decide), if_neg (by decide), if_pos rfl]
    exact doneIf_pos (decide_eq_true hport) hr _
  · have hgo := regWriteAt_of_admits hadmits (orders [o])
    cases w with
    | core n =>
      obtain ⟨hrank, hport⟩ := Prod.mk.inj hw
      have hn : o.port.toNat = n.val := by rw [← hport, BitVec.toNat_ofNat, Nat.mod_eq_of_lt (by omega)]
      have hlt : o.port.toNat < 48 := by omega
      have hcore : (⟨o.port.toNat, hlt⟩ : Fin 48) = n := Fin.ext hn
      rw [← hrank, if_neg (by decide), if_neg (by decide), if_neg (by decide), if_neg (by decide), if_neg (by decide),
        if_pos rfl, dif_pos hlt, hcore, hgo, done]
    | cluster d =>
      obtain ⟨hrank, hport⟩ := Prod.mk.inj hw
      have hd : o.port.toNat = d.val := by rw [← hport, BitVec.toNat_ofNat, Nat.mod_eq_of_lt (by omega)]
      have hlt : o.port.toNat < 4 := by omega
      have hcluster : (⟨o.port.toNat, hlt⟩ : Fin 4) = d := Fin.ext hd
      rw [← hrank, if_neg (by decide), if_neg (by decide), if_neg (by decide), if_neg (by decide), if_pos rfl,
        dif_pos hlt, hcluster, hgo, done]
  · rw [hrank, if_neg (by decide), if_neg (by decide), if_neg (by decide), if_neg (by decide), if_neg (by decide),
      if_neg (by decide)]
    exact doneIf_pos hmap hr _

/-! ### State orders (R239) -/

section Orders
variable {s : State} {rank : BitVec 3} {port : BitVec 8} {a : Fin 32}

/-- A state order of a master, uncontested, applies. -/
theorem order_applies (hr : s.rat.reopened = none) (hreach : Reaches s a rank port 0x40) (hfree : Uncontested s a rank)
    {c : Instr} (op : BitVec 3) (src : BitVec 2) (hop : op ≤ 4)
    (hexec : exec c s = orderArrives { axis := a, rank := rank, port := port, op := op, src := src, value := 0, spd := false } 0x40 [] s) :
    exec c s = .next (settle (applyOrder a op src rank.toNat port.toNat s)) := by
  obtain ⟨hbeats, hstand⟩ := hfree
  have hbeaten : beaten s a { axis := a, rank := rank, port := port, op := op, src := src, value := 0, spd := false } = false := by
    unfold beaten
    rcases hbeats with h | h
    · rw [h, Bool.false_and]
    · rw [decide_eq_false (by rw [BitVec.le_def] at h ⊢; simp at h ⊢; omega), Bool.and_false]
  have hstate : rivalState { axis := a, rank := rank, port := port, op := op, src := src, value := 0, spd := false } = true :=
    decide_eq_true hop
  rw [hexec, orderArrives_reaches hr hreach (fun _ => hstate), orders_single,
    arbitrate_single hbeaten (fun _ => hstand), if_pos hstate]
/-- The other axes keep all but their place in the engine's grid. -/
def OthersKept (a : Fin 32) (s t : State) : Prop := ∀ b, b ≠ a → SamePlace (vget t.axes b) (vget s.axes b)
/-- An order that is counted only. -/
def Counted (s : State) (a : Fin 32) (c : Instr) : Prop := exec c s = .next (settle (countIgn a s))

theorem enable_applied {r : AxisRec} (hrec : (vget s.axes a).rec_ = some r) (hst : (vget s.axes a).st = .disabled)
    (htap : s.tap.seizes = false) (src : BitVec 2) :
    let t := applyOrder a 1 src rank.toNat port.toNat s
    (vget t.axes a).st = .enabled ∧ (vget t.axes a).src = 0 ∧ (vget t.axes a).spp = fbkSample s r.posFbk ∧
      (vget t.axes a).spv = 0 ∧ (vget t.axes a).spc = 0 ∧ OthersKept a s t := by
  have happly : applyOrder a 1 src rank.toNat port.toNat s = orderEnable a r rank.toNat port.toNat s := by
    unfold applyOrder
    dsimp only
    rw [hrec]
    dsimp only
    rw [htap, hst]
    rfl
  dsimp only
  rw [happly]
  unfold orderEnable
  extract_lets p u
  have hu : (vget u.axes a).st ≠ .enabled := by
    simp only [u, modAxis_axes, vget_vmod_same, hst]
    decide
  obtain ⟨⟨hold, hself⟩, hothers⟩ := axisTo_axes (cause := 0) (rank := rank.toNat) (port := port.toNat) hu
  have haxis : vget u.axes a = _ := vget_vmod_same _ _ _
  rw [haxis] at hself
  rw [hself]
  refine ⟨rfl, rfl, rfl, rfl, rfl, fun b hb => ?_⟩
  have hkept := hothers b hb
  rw [show vget u.axes b = vget s.axes b from vget_vmod_other (h := hb) ..] at hkept
  exact hkept
theorem enable_counted (h : (vget s.axes a).st ≠ .disabled ∨ (vget s.axes a).rec_ = none ∨ s.tap.seizes = true)
    (src : BitVec 2) : applyOrder a 1 src rank.toNat port.toNat s = countIgn a s := by
  unfold applyOrder
  dsimp only
  split
  · rfl
  · next r hrec =>
    rcases h with hst | hnone | htap
    · simp [hst]
    · rw [hrec] at hnone; cases hnone
    · simp [htap]
theorem disable_applied (hrec : (vget s.axes a).rec_ ≠ none) (hst : (vget s.axes a).st.runs = true) (src : BitVec 2) :
    let t := applyOrder a 2 src rank.toNat port.toNat s
    (vget t.axes a).st = .disabled ∧ (vget t.axes a).segRun = none ∧ OthersKept a s t := by
  obtain ⟨r, hr⟩ := Option.ne_none_iff_exists'.mp hrec
  have happly : applyOrder a 2 src rank.toNat port.toNat s = axisTo a .disabled 0 rank.toNat port.toNat s := by
    unfold applyOrder
    dsimp only
    rw [hr]
    simp [hst]
  dsimp only
  rw [happly]
  have hne : (vget s.axes a).st ≠ .disabled := fun h => by rw [h] at hst; cases hst
  obtain ⟨⟨hold, hself⟩, hothers⟩ := axisTo_axes (cause := 0) (rank := rank.toNat) (port := port.toNat) hne
  rw [hself]
  exact ⟨rfl, rfl, hothers⟩
theorem disable_counted (h : (vget s.axes a).rec_ = none ∨ (vget s.axes a).st.runs = false) (src : BitVec 2) :
    applyOrder a 2 src rank.toNat port.toNat s = countIgn a s := by
  unfold applyOrder
  dsimp only
  split
  · rfl
  · next r hrec =>
    rcases h with hnone | hst
    · rw [hrec] at hnone; cases hnone
    · simp [hst]
/-- RUN or STOP outside ENABLED is counted. -/
theorem enabled_only (h : (vget s.axes a).rec_ = none ∨ (vget s.axes a).st ≠ .enabled) (src : BitVec 2) :
    applyOrder a 3 src rank.toNat port.toNat s = countIgn a s ∧ applyOrder a 4 src rank.toNat port.toNat s = countIgn a s := by
  unfold applyOrder
  dsimp only
  split
  · exact ⟨rfl, rfl⟩
  · next r hrec =>
    rcases h with hnone | hst
    · rw [hrec] at hnone; cases hnone
    · simp [hst]
theorem runOrder_applied (hrec : (vget s.axes a).rec_ ≠ none) (hst : (vget s.axes a).st = .enabled) (src : BitVec 2) :
    applyOrder a 3 src rank.toNat port.toNat s = orderRun a src s := by
  obtain ⟨r, hr⟩ := Option.ne_none_iff_exists'.mp hrec
  unfold applyOrder
  dsimp only
  rw [hr]
  simp [hst]
theorem runOrder_sources : let x := vget s.axes a
    orderRun a 0 s = { s with axes := vset s.axes a (Axis.useSp { x with src := 0, segRun := none }) } ∧
    (x.mode = 3 → orderRun a 1 s = { s with axes := vset s.axes a { x with
      src := 1, segRun := none, segEnd := none, segVNum := 0, segVDen := 1 } }) ∧
    (∀ src m, (src = 2 ∨ src = 3) → x.mode = 3 → gearMaster s a = some m → x.gearDen ≠ 0 →
      orderRun a src s = { s with axes := vset s.axes a { x with
        src := src, segRun := none, mRef := BitVec.ofInt 64 m, offset := x.spp, camN := 0, camUse := x.camBank } }) ∧
    (∀ src, src ≠ 0 → x.mode ≠ 3 → orderRun a src s = countIgn a s) := by
  refine ⟨rfl, fun hmode => ?_, fun src m hsrc hmode hmaster hden => ?_, fun src hsrc hmode => ?_⟩
  · unfold orderRun
    dsimp only
    rw [if_neg (by decide), if_neg (not_not_intro hmode), if_pos rfl]
    rfl
  · unfold orderRun
    dsimp only
    rw [if_neg (by rcases hsrc with h | h <;> rw [h] <;> decide), if_neg (not_not_intro hmode),
      if_neg (by rcases hsrc with h | h <;> rw [h] <;> decide), hmaster]
    dsimp only
    rw [if_neg (fun h => hden h.2)]
    rfl
  · unfold orderRun
    dsimp only
    rw [if_neg hsrc, if_pos hmode]
theorem stop_applied (hrec : (vget s.axes a).rec_ ≠ none) (hst : (vget s.axes a).st = .enabled) (src : BitVec 2) :
    let t := applyOrder a 4 src rank.toNat port.toNat s
    (vget t.axes a).st = .stopping ∧ (vget t.axes a).segq = [] ∧ (vget t.axes a).src = 0 ∧
      (vget t.axes a).stopRank = rank ∧ (vget t.axes a).stopPort = port ∧ OthersKept a s t := by
  obtain ⟨r, hr⟩ := Option.ne_none_iff_exists'.mp hrec
  have happly : applyOrder a 4 src rank.toNat port.toNat s = orderStop a rank.toNat port.toNat s := by
    unfold applyOrder
    dsimp only
    rw [hr]
    simp [hst]
  dsimp only
  rw [happly]
  unfold orderStop
  extract_lets u
  have hu : (vget u.axes a).st ≠ .stopping := by
    simp only [u, modAxis_axes, vget_vmod_same, hst]
    decide
  obtain ⟨⟨hold, hself⟩, hothers⟩ := axisTo_axes (cause := 0) (rank := rank.toNat) (port := port.toNat) hu
  have haxis : vget u.axes a = _ := vget_vmod_same _ _ _
  rw [haxis] at hself
  rw [hself]
  refine ⟨rfl, rfl, rfl, by simp, by simp, fun b hb => ?_⟩
  have hkept := hothers b hb
  rw [show vget u.axes b = vget s.axes b from vget_vmod_other (h := hb) ..] at hkept
  exact hkept

/-! ### Setpoint orders (R240) -/

theorem setpoint_applies (hr : s.rat.reopened = none) {off : Nat} (hrank : rank ≠ 2) (htaken : (vget s.axes a).taken = false)
    (hreach : Reaches s a rank port off) {c : Instr} (spd : Bool) (v : BitVec 64)
    (hexec : exec c s = orderArrives { axis := a, rank := rank, port := port, op := 5, src := 0, value := v, spd := spd } off [] s) :
    exec c s = .next (settle (applySetpoint a spd v s)) := by
  have hbeaten : beaten s a { axis := a, rank := rank, port := port, op := 5, src := 0, value := v, spd := spd } = false := by
    unfold beaten
    rw [htaken, Bool.false_and]
  have hstate : rivalState { axis := a, rank := rank, port := port, op := 5, src := 0, value := v, spd := spd } = false := rfl
  rw [hexec, orderArrives_reaches hr hreach (fun h => absurd h hrank), orders_single,
    arbitrate_single hbeaten (fun h => by cases h), hstate, if_neg (by decide)]

/-! ### The standing orders of a hardware stop (R265, R268) -/

theorem firstRival_mem {os : List Rival} {w : Rival} (h : firstRival os = some w) : w ∈ os := by
  have hfold : ∀ (l : List Rival) (x : Option Rival) (w : Rival), l.foldl (fun (w : Option Rival) o =>
      match w with | none => some o | some x => if rivalBefore o x then some o else some x) x = some w → x = some w ∨ w ∈ l := by
    intro l
    induction l with
    | nil => exact fun x w h => .inl h
    | cons o l ih =>
      intro x w h
      rw [List.foldl_cons] at h
      rcases ih _ _ h with hx | hmem
      · split at hx
        · cases hx; exact .inr List.mem_cons_self
        · split at hx
          · cases hx; exact .inr List.mem_cons_self
          · exact .inl hx
      · exact .inr (List.mem_cons_of_mem _ hmem)
  rcases hfold os none w h with h | h
  · cases h
  · exact h
theorem firstRival_cons (o : Rival) (os : List Rival) : ∃ w, firstRival (o :: os) = some w := by
  have hfold : ∀ (l : List Rival) (x : Rival), ∃ w, l.foldl (fun (w : Option Rival) o =>
      match w with | none => some o | some x => if rivalBefore o x then some o else some x) (some x) = some w := by
    intro l
    induction l with
    | nil => exact fun x => ⟨x, rfl⟩
    | cons o l ih =>
      intro x
      rw [List.foldl_cons]
      dsimp only
      split <;> exact ih _
  exact hfold os o
/-- An axis stops running by a DISABLE that arrives, whatever standing order goes before it. -/
theorem arbitrate_disable {o : Rival} {s : State} (hop : o.op = 2) (hrank : o.rank = 0)
    (hrec : (vget s.axes a).rec_ ≠ none) : (vget (arbitrate a [o] s).axes a).st.runs = false := by
  obtain ⟨r, hr⟩ := Option.ne_none_iff_exists'.mp hrec
  have hkind : rivalState o = true := by
    unfold rivalState
    rw [hop]
    rfl
  have hbeaten : beaten s a o = false := by
    unfold beaten
    rw [hrank, decide_eq_false (by decide), Bool.and_false]
  have hlost : [o].filter (beaten s a) = [] := filter_none hbeaten
  have hlive : ([o].filter fun o => !beaten s a o) = [o] := filter_one (by rw [hbeaten]; rfl)
  obtain ⟨w, hw⟩ : ∃ w, firstRival (standing s a ++ [o]) = some w := by
    rcases standing s a with _ | ⟨x, l⟩
    · exact firstRival_cons o []
    · exact firstRival_cons x (l ++ [o])
  have hstops : ∀ (t : State) (cause rank port : Nat),
      (vget (if (vget t.axes a).st.runs then axisTo a .disabled cause rank port t else t).axes a).st.runs = false := by
    intro t cause rank port
    split
    · have hmoved := stOf_axisTo a a .disabled cause rank port t
      rw [if_pos rfl, stOf] at hmoved
      rw [hmoved]
      rfl
    · next h => exact Bool.eq_false_iff.mpr h
  have happly : (vget (applyOrder a o.op o.src o.rank.toNat o.port.toNat s).axes a).st.runs = false := by
    rw [hop]
    cases hruns : (vget s.axes a).st.runs
    · rw [disable_counted (.inr hruns)]
      unfold countIgn
      rw [modAxis_axes, vget_vmod_same]
      exact hruns
    · rw [(disable_applied hrec hruns o.src).1]
      rfl
  have hsame (hnot : (decide (w ∈ standing s a) && !([o].any fun o => o.rank = w.rank && o.port = w.port)) = false) :
      (decide (o.rank = w.rank) && decide (o.port = w.port)) = true := by
    rcases List.mem_append.mp (firstRival_mem hw) with hst | hmem
    · rw [decide_eq_true hst, Bool.true_and, Bool.not_eq_false'] at hnot
      simpa using hnot
    · rw [List.mem_singleton.mp hmem]
      simp
  have hany : [o].any rivalState = true := by rw [List.any_cons, hkind, Bool.true_or]
  unfold arbitrate
  dsimp only
  rw [hlost, hlive, hany, if_pos rfl, hw]
  dsimp only [List.foldl_nil, List.foldl_cons]
  cases hstand : (decide (w ∈ standing s a) && !([o].any fun o => o.rank = w.rank && o.port = w.port))
  · simp only [Bool.not_false, Bool.true_and, hsame hstand, hkind, Bool.not_true, Bool.false_eq_true, if_true, if_false]
    exact happly
  · rw [if_pos rfl]
    exact hstops _ _ _ _
end Orders

/-- Settles O45: a single order goes through arbitration alone, and each order has its effect or is counted. -/
theorem axisOrders : Obligations.AxisOrders := by
  unfold Obligations.AxisOrders
  intro s rank port a hr
  refine ⟨fun hreach hfree => ?_, fun hrank htaken hreach => ?_, fun hrank htaken hreach v => ?_, fun h hstop => ?_⟩
  · have happlies {c : Instr} (op : BitVec 3) (src : BitVec 2) (hop : op ≤ 4) (hexec : exec c s = orderArrives
        { axis := a, rank := rank, port := port, op := op, src := src, value := 0, spd := false } 0x40 [] s) {t : State}
        (ht : applyOrder a op src rank.toNat port.toNat s = t) : exec c s = .next (settle t) :=
      ht ▸ order_applies hr hreach hfree op src hop hexec
    refine ⟨fun r hrec hst htap => ?_, fun hno => ?_, fun hrec hst => ?_, fun hno => ?_, fun src hno => ?_,
      fun hrec hst => ?_, fun hrec hst => ?_, fun hno => ?_⟩
    · have hleft := enable_applied (rank := rank) (port := port) hrec hst htap 0
      obtain ⟨u, hu⟩ : ∃ u, applyOrder a 1 0 rank.toNat port.toNat s = u := ⟨_, rfl⟩
      rw [hu] at hleft
      exact ⟨settle u, happlies 1 0 (by decide) rfl hu, by simpa only [settle_axes u, OthersKept, SamePlace] using hleft⟩
    · exact happlies 1 0 (by decide) rfl (enable_counted hno 0)
    · have hleft := disable_applied (rank := rank) (port := port) hrec hst 0
      obtain ⟨u, hu⟩ : ∃ u, applyOrder a 2 0 rank.toNat port.toNat s = u := ⟨_, rfl⟩
      rw [hu] at hleft
      exact ⟨settle u, happlies 2 0 (by decide) rfl hu, by simpa only [settle_axes u, OthersKept, SamePlace] using hleft⟩
    · exact happlies 2 0 (by decide) rfl (disable_counted hno 0)
    · exact happlies 3 src (by decide) rfl (enabled_only hno src).1
    · have hrun (src : BitVec 2) {t : State} (ht : orderRun a src s = t) : exec (.run rank port a src []) s = .next (settle t) :=
        happlies 3 src (by decide) rfl ((runOrder_applied hrec hst src).trans ht)
      obtain ⟨hsp, hpath, hgear, hno⟩ := runOrder_sources (s := s) (a := a)
      exact ⟨hrun 0 hsp, fun hmode => hrun 1 (hpath hmode),
        fun src m hsrc hmode hm hden => hrun src (hgear src m hsrc hmode hm hden),
        fun src hsrc hmode => hrun src (hno src hsrc hmode)⟩
    · have hleft := stop_applied (rank := rank) (port := port) hrec hst 0
      obtain ⟨u, hu⟩ : ∃ u, applyOrder a 4 0 rank.toNat port.toNat s = u := ⟨_, rfl⟩
      rw [hu] at hleft
      exact ⟨settle u, happlies 4 0 (by decide) rfl hu, by simpa only [settle_axes u, OthersKept, SamePlace] using hleft⟩
    · exact happlies 4 0 (by decide) rfl (enabled_only hno 0).2
  · have hexec (v : BitVec 64) : exec (.axsSpWrite rank port a v []) s = .next (settle (applySetpoint a false v s)) :=
      setpoint_applies hr hrank htaken hreach false v rfl
    refine ⟨fun hst v => (hexec v).trans ?_, fun hst v => (hexec v).trans ?_⟩
    · rw [applySetpoint, if_pos hst]
      rfl
    · rw [applySetpoint, if_neg (not_not_intro hst)]
      rfl
  · have hexec : exec (.axsSpdWrite rank port a v []) s = .next (settle (applySetpoint a true (v.setWidth 64) s)) :=
      setpoint_applies hr hrank htaken hreach true (v.setWidth 64) rfl
    have hword : (v.setWidth 64).setWidth 32 = v := by ext i hi; simp
    refine ⟨fun hst => hexec.trans ?_, fun hst => hexec.trans ?_⟩
    · rw [applySetpoint, if_pos hst]
      rfl
    · rw [applySetpoint, if_neg (not_not_intro hst), hword]
      rfl
  · have hport : (BitVec.ofNat 8 h.val).toNat = h.val := by rw [BitVec.toNat_ofNat, Nat.mod_eq_of_lt (by omega)]
    have hrec : (vget s.axes a).rec_ ≠ none := by
      intro hnone
      unfold namedStops at hstop
      rw [hnone] at hstop
      simp at hstop
    have hlow : BitVec.ofNat 8 h.val < 4 := by rw [BitVec.lt_def, hport]; exact h.isLt
    have hexec : exec (.disable 0 (BitVec.ofNat 8 h.val) a []) s = .next (settle (orders [{
        axis := a, rank := 0, port := BitVec.ofNat 8 h.val, op := 2, src := 0, value := 0, spd := false }] s)) :=
      doneIf_pos (by rw [decide_eq_true hlow, hport, hstop]; rfl) hr _
    refine ⟨_, hexec, ?_⟩
    rw [settle_axes, orders_single]
    exact arbitrate_disable rfl rfl hrec

end Sys2Proof.Machine
end

section
/-! SUPPORT. Servo ticks: no stage moves the time, what a tick shows, hooks, the path queue and the hardware stops. -/
set_option Elab.async false
namespace Sys2Proof.Machine

/-! ### No stage of a tick moves the time -/

section Time
variable (a : Fin 32) (r : AxisRec) (s : State)

@[simp] theorem hookMiss_time : (hookMiss a s).time = s.time := by
  unfold hookMiss hookAbandon
  simp
@[simp] theorem staleLoop_time : (staleLoop a s).time = s.time := by
  unfold staleLoop
  simp
@[simp] theorem keepLaw_time (o : LawOut) (put : LawOut → Axis → Axis) : (keepLaw a o put s).time = s.time := by
  unfold keepLaw
  split <;> simp
@[simp] theorem setDuty_time (d : Vector (BitVec 32) 3) : (setDuty a r d s).time = s.time := rfl
@[simp] theorem tickEngine_time (e : Fin 8) (n : Nat) : (tickEngine e n s).time = s.time := rfl
@[simp] theorem currentStage_time (sdi : List (BitVec 768)) : (currentStage a r sdi s).time = s.time := by
  unfold currentStage
  dsimp only
  repeat' split
  all_goals simp
@[simp] theorem laneApply_time (l : Fin 8) (j : Nat) (q : Time × Option (List F32)) :
    (laneApply a l j q s).time = s.time := by
  unfold laneApply
  dsimp only
  repeat' split
  all_goals simp
@[simp] theorem laneUse_time : (laneUse a r s).time = s.time := by
  unfold laneUse
  split
  · rfl
  · exact foldl_keep (·.time) _ (fun t q => laneApply_time a t _ _ q) _ _
@[simp] theorem following_time : (following a r s).time = s.time := by
  unfold following
  dsimp only
  split_ifs <;> simp
@[simp] theorem segEvent_time (n : Nat) : (segEvent a n s).time = s.time := by
  unfold segEvent
  simp
@[simp] theorem segReach_time (seg : Segment) (rest : List Segment) : (segReach a r seg rest s).time = s.time := by
  unfold segReach lateStart
  dsimp only
  split_ifs <;> simp
@[simp] theorem arcBegin_time (run : SegRun) : (arcBegin a run s).time = s.time := by
  unfold arcBegin lateStart
  dsimp only
  split_ifs <;> simp
@[simp] theorem segFinish_time (run : SegRun) : (segFinish a r run s).time = s.time := by
  unfold segFinish
  dsimp only
  split_ifs <;> simp
@[simp] theorem pathTick_time (fuel : Nat) : (pathTick a r fuel s).time = s.time := by
  induction fuel generalizing s with
  | zero => rfl
  | succ fuel ih =>
    unfold pathTick
    dsimp only
    repeat' split
    all_goals simp [ih]
@[simp] theorem sourceTick_time : (sourceTick a r s).time = s.time := by
  unfold sourceTick
  dsimp only
  repeat' split
  all_goals simp [openSetpoint, freshFree]
@[simp] theorem positionStage_time : (positionStage a r s).time = s.time := by
  unfold positionStage
  extract_lets u c v w
  have hu : u.time = s.time := by simp only [u]; split <;> simp
  have hv : v.time = s.time := by simp only [v, stepTick, modAxis_time, hu]
  have hw : w.time = s.time := by simp only [w]; split <;> simp [hu]
  split
  · split
    · rw [following_time, hv]
    · exact hv
  · split
    · exact hw
    · split
      · split
        · rw [following_time, hw]
        · exact hw
      · split
        · rw [staleLoop_time, hw]
        · dsimp only
          split
          · rw [following_time, hw]
          · rw [keepLaw_time, following_time, hw]
@[simp] theorem stopDone_time : (stopDone a r s).time = s.time := by
  unfold stopDone
  dsimp only
  split_ifs <;> simp
@[simp] theorem velocityStage_time (v : BitVec 32) : (velocityStage a r v s).time = s.time := by
  unfold velocityStage
  extract_lets u1 u2 u3 x u4
  have h1 : u1.time = s.time := by
    simp only [u1, rampTick]
    repeat' split
    all_goals simp
  have h2 : u2.time = s.time := by simp only [u2]; split <;> simp [h1]
  have h3 : u3.time = s.time := by simp only [u3]; split <;> simp [h2]
  have h4 : u4.time = s.time := by
    simp only [u4]
    repeat' split
    all_goals simp [h3]
  rw [stopDone_time, h4]
end Time

/-! ### What a tick shows (R243, R271, Table 12.7) -/

/-- The image of a tick shows the axis as it is. -/
def Shows (t : Time) (y : Axis) : Prop :=
  y.lastTick = t ∧ y.image.posfb = y.fbPos ∧ y.image.spp = y.spp ∧ y.image.spv = y.spv ∧ y.image.spc = y.spc
theorem tickImage_shows (a : Fin 32) (r : AxisRec) (v : State) : Shows v.time.it (vget (tickImage a r v).axes a) := by
  unfold tickImage
  rw [modAxis_axes, vget_vmod_same]
  exact ⟨rfl, rfl, rfl, rfl, rfl⟩
theorem hookPending_axis (a : Fin 32) (s : State) :
    ∃ p, vget (hookPending a s).axes a = { vget s.axes a with hookPend := p } := by
  unfold hookPending
  split
  · exact ⟨(vget s.axes a).hookPend, rfl⟩
  · rw [modTrd_axes, modAxis_axes, vget_vmod_same]
    exact ⟨_, rfl⟩
/-- A tick ends with its image, after the velocity stage's observation where that is due. -/
theorem axisTick_ends (a : Fin 32) (r : AxisRec) (sdi : List (BitVec 768)) (s : State) :
    (due s a r r.pV = false ∧ ∃ u : State, u.time = s.time ∧ axisTick a r sdi s = tickImage a r u) ∨
    ∃ v : State, v.time = s.time ∧ axisTick a r sdi s = hookPending a (tickImage a r
      (if (if r.posLane then due s a r r.pP else due s a r r.pV) then laneRecord a r (observe a v) else observe a v)) := by
  unfold axisTick
  extract_lets vel pos u1 u2 u3 u4 u5 u6 u7 u8 u9 u10
  have h1 : u1.time = s.time := by simp only [u1]; split <;> simp
  have h4 : u4.time = s.time := by
    simp only [u4, currentStage_time, u3, modAxis_time, u2, tickEngine_time, h1]
  cases hvel : vel
  · exact .inl ⟨hvel, u4, h4, rfl⟩
  · rw [if_neg (by decide)]
    have h5 : u5.time = s.time := by simp only [u5, velocityFeedback, modAxis_time, h4]
    have h6 : u6.time = s.time := by simp only [u6]; split <;> simp [h5]
    have h7 : u7.time = s.time := by simp only [u7]; split <;> simp [h6]
    have h8 : u8.time = s.time := by simp only [u8]; split <;> simp [h7]
    refine .inr ⟨u8, h8, ?_⟩
    rw [show due s a r r.pV = true from hvel]
    simp only [u10, u9, pos, hvel]
/-- The observation group shows the axis, and the lane's record leaves it. -/
theorem observed_axis (a : Fin 32) (r : AxisRec) (v : State) (c : Bool) :
    let w := if c then laneRecord a r (observe a v) else observe a v
    ((vget w.axes a).obsPos = (vget w.axes a).fbPos ∧ (vget w.axes a).obsIq = (vget w.axes a).iq) ∧ w.time = v.time := by
  have hobs : (vget (observe a v).axes a).obsPos = (vget (observe a v).axes a).fbPos ∧
      (vget (observe a v).axes a).obsIq = (vget (observe a v).axes a).iq := by
    unfold observe
    rw [modAxis_axes, vget_vmod_same]
    exact ⟨rfl, rfl⟩
  cases c
  · exact ⟨hobs, rfl⟩
  · refine ⟨?_, rfl⟩
    simp only [if_true, laneRecord, modAxis_axes, vget_vmod_same]
    exact hobs
theorem tick_shows {a : Fin 32} {r : AxisRec} {sdi : List (BitVec 768)} {s : State} :
    let y := vget (axisTick a r sdi s).axes a
    Shows s.time.it y ∧ (due s a r r.pV = true → y.obsPos = y.fbPos ∧ y.obsIq = y.iq) := by
  intro y
  rcases axisTick_ends a r sdi s with ⟨hvel, u, hu, htick⟩ | ⟨v, hv, htick⟩
  · simp only [y, htick]
    refine ⟨hu ▸ tickImage_shows a r u, fun h => ?_⟩
    rw [hvel] at h
    cases h
  · generalize hw : (if (if r.posLane then due s a r r.pP else due s a r r.pV) then laneRecord a r (observe a v)
      else observe a v) = w at htick
    obtain ⟨hobs, htime⟩ := observed_axis a r v (if r.posLane then due s a r r.pP else due s a r r.pV)
    rw [hw] at hobs htime
    rw [hv] at htime
    obtain ⟨p, hp⟩ := hookPending_axis a (tickImage a r w)
    have himage := tickImage_shows a r w
    simp only [y]
    rw [htick, hp]
    refine ⟨htime ▸ himage, fun _ => ?_⟩
    dsimp only
    unfold tickImage
    rw [modAxis_axes, vget_vmod_same]
    exact hobs
/-- A current tick between velocity ticks is the current stage alone (R243). -/
theorem axisTick_between {a : Fin 32} {r : AxisRec} (sdi : List (BitVec 768)) {s : State} (hvel : due s a r r.pV = false)
    (hhook : hookOpen s a = false) : ∃ v safe, vget v.axes a = { vget s.axes a with safeHold := safe } ∧ v.mem = s.mem ∧
      axisTick a r sdi s = tickImage a r (currentStage a r sdi v) := by
  unfold axisTick
  extract_lets x vel pos u1 u2 u3 u4
  have hnone : u1 = s := if_neg (by rw [hhook]; decide)
  rw [if_pos (show (!vel) = true by simp only [vel, hvel]; rfl)]
  refine ⟨u3, (vget u3.axes a).safeHold, ?_, ?_, rfl⟩
  · have hself : vget u3.axes a = _ := vget_vmod_same _ _ _
    rw [show vget u2.axes a = x by simp only [u2, hnone]; rfl] at hself
    rw [hself]
  · simp only [u3, u2, hnone]
    rfl
/-- The law of a MOTOR 2 axis's current loop, in fixed point, and the duties of its output (R247, R250). -/
theorem currentStage_motor2 {a : Fin 32} {r : AxisRec} {sdi : List (BitVec 768)} {v : State} {l : Law} {o : LawOut}
    (hmotor : r.motor = 2) (hlaw : vget (vget v.axes a).laws 0 = some l) (hruns : (vget v.axes a).st.runs = true)
    (ho : lawRun l (vget v.axes a).lsC (vget v.axes a).spc.toInt ((tickCurrents r sdi).getD 0 0).toInt 0 true true = o)
    (hok : o.ok = true) :
    let x := vget v.axes a
    let t := currentStage a r sdi v
    let d : Vector (BitVec 32) 3 := #v[o.u, w32 (-o.u.toInt), 0]
    (∃ ls, vget t.axes a = { x with
      iq := (tickCurrents r sdi).getD 0 0, spcUsed := x.spc, lsC := ls, duty := d
      share := d.map fun v => pwmShare (40 * r.pwmPer.toNat) v }) ∧ t.mem = v.mem := by
  unfold currentStage
  dsimp only
  rw [if_neg (by rw [hmotor]; decide), if_pos hmotor, hlaw]
  dsimp only
  rw [hruns, if_neg (by decide), ho, if_pos hok]
  unfold setDuty
  simp only [modAxis_axes, vget_vmod_same, modAxis_mem]
  exact ⟨⟨_, rfl⟩, trivial⟩
/-- A current tick of a MOTOR 2 axis between velocity ticks: the law's output goes to the duties (R249, R250). -/
theorem tick_current {a : Fin 32} {r : AxisRec} {w0 w1 w2 : BitVec 768} {s : State} {l : Law} (hmotor : r.motor = 2)
    (hvel : due s a r r.pV = false) (hhook : hookOpen s a = false) (hlaw : vget (vget s.axes a).laws 0 = some l)
    (hfloat : l.float = false) (hruns : (vget s.axes a).st.runs = true) :
    let x := vget s.axes a
    let i := w32 (sdiCurrent r.curDiv.toNat w0)
    let u := w32 (lawQ31 l x.lsC x.spc.toInt i.toInt (fromQuantity true 0).toInt).1
    let t := axisTick a r [w0, w1, w2] s
    (vget t.axes a).iq = i ∧ (vget t.axes a).spcUsed = x.spc ∧ (vget t.axes a).duty = #v[u, w32 (-u.toInt), 0] ∧
      (vget t.axes a).share = (#v[u, w32 (-u.toInt), 0]).map (pwmShare (40 * r.pwmPer.toNat)) ∧
      (vget t.axes a).st = x.st ∧ t.mem = s.mem := by
  obtain ⟨v, safe, hv, hmem, htick⟩ := axisTick_between [w0, w1, w2] hvel hhook
  obtain ⟨o, ho, hok, hu⟩ : ∃ o, lawRun l (vget v.axes a).lsC (vget v.axes a).spc.toInt
      ((tickCurrents r [w0, w1, w2]).getD 0 0).toInt 0 true true = o ∧ o.ok = true ∧
      o.u = w32 (lawQ31 l (vget s.axes a).lsC (vget s.axes a).spc.toInt
        (w32 (sdiCurrent r.curDiv.toNat w0)).toInt (fromQuantity true 0).toInt).1 := by
    rw [hv]
    exact ⟨_, if_neg (by rw [hfloat]; decide), rfl, rfl⟩
  obtain ⟨⟨ls, hstage⟩, hstageMem⟩ := currentStage_motor2 (a := a) hmotor (by rw [hv]; exact hlaw) (by rw [hv]; exact hruns) ho hok
  dsimp only
  rw [htick, tickImage, modAxis_axes, vget_vmod_same, hstage, ← hu, modAxis_mem, hstageMem, hmem, hv]
  exact ⟨rfl, rfl, rfl, rfl, rfl, rfl⟩
theorem exec_tick {a : Fin 32} {r : AxisRec} {w0 w1 w2 : BitVec 768} {s : State} (hdue : tickDue s a = some r) :
    exec (.currentTick a w0 w1 w2) s = .next (settle (axisTick a r [w0, w1, w2] s)) := by
  rw [exec, execCurrentTick, hdue]
  rfl

/-! ### Hooks (R253, R278, R279) -/

theorem hookMiss_counts (a : Fin 32) (s : State) :
    let x := vget s.axes a
    let t := hookMiss a s
    (vget t.axes a).dlMiss = satInc x.dlMiss ∧ (vget t.axes a).spc = (if x.mode = 1 then x.spc else x.spcUsed) ∧
      (vget t.trd (axEngine a)).haband = satInc (vget s.trd (axEngine a)).haband := by
  have hplace : engineAxis (axEngine a) (axSlot a) = a := by
    unfold engineAxis axEngine axSlot
    exact Fin.ext (Nat.div_add_mod a.val 4)
  dsimp only
  unfold hookMiss hookAbandon
  dsimp only
  rw [hplace]
  simp only [emit_axes, emit_trd, modAxis_axes, modTrd_axes, modAxis_trd, modTrd_trd, vget_vmod_same]
  refine ⟨trivial, rfl, ?_⟩
  split <;> rfl
theorem hook_deadline {a : Fin 32} {s : State} (hdue : (tickDue s a).isSome = true) (hopen : hookOpen s a = true)
    (hr : s.rat.reopened = none) : let x := vget s.axes a
    ∃ t, exec (.hookDeadline a) s = .next t ∧ (vget t.axes a).dlMiss = satInc x.dlMiss ∧
      (vget t.axes a).spc = (if x.mode = 1 then x.spc else x.spcUsed) ∧
      (vget t.trd (axEngine a)).haband = satInc (vget s.trd (axEngine a)).haband := by
  refine ⟨settle (hookMiss a s), doneIf_pos (by rw [hdue, hopen]; rfl) hr _, ?_⟩
  rw [settle_axes, settle_trd]
  exact hookMiss_counts a s
theorem hook_start {e : Fin 8} {i : Fin 4} {rest : List (Fin 4)} {s : State} (hpend : (vget s.trd e).pendHooks = i :: rest)
    (hgood : vsvoGood s = true) (hworks : engineWorks s e = true) (hfree : (vget s.trd e).hook = none) :
    ∃ t, exec (.hookStart e) s = .next t ∧ (vget t.trd e).hook = some i ∧ (vget t.trd e).pendHooks = rest ∧
      (vget t.trd e).cache = [] ∧
      (vget t.trd e).bank1 = (vget s.trd e).bank1.enter (vget s.axes (engineAxis e i)).hook.toNat ∧
      (vget t.trd e).bank0 = (vget s.trd e).bank0 ∧ t.axes = s.axes ∧ t.mem = s.mem := by
  have hexec : exec (.hookStart e) s = .next (settle (hookStart e i rest s)) := by
    have hok : (vsvoGood s && engineWorks s e && (vget s.trd e).hook.isNone) = true := by rw [hgood, hworks, hfree]; rfl
    rw [exec, execHookStart, hpend]
    exact doneIf_free hok rfl
  refine ⟨_, hexec, ?_⟩
  rw [settle_trd, settle_axes, settle_mem, hookStart, modTrd_trd, vget_vmod_same]
  exact ⟨rfl, rfl, rfl, rfl, rfl, rfl, rfl⟩

/-! ### The path queue (R256, R265) -/

theorem axsWrite_free {w : Master} {a : Fin 32} {off : Nat} {f : State → State} {s : State}
    (hw : Admits w (axsBase a + off) s) (htaken : (vget s.axes a).taken = false) : axsWrite w a off f s = f s := by
  rw [axsWrite, regWriteAt_of_admits hw, if_neg (by rw [htaken]; decide)]
theorem segment_refused {w : Master} {a : Fin 32} {f : State → State} {s : State}
    (hw : Admits w (axsBase a + 0x140) s) (htaken : (vget s.axes a).taken = true) :
    let t := settle (axsWrite w a 0x140 f s)
    let x := vget s.axes a
    (vget t.axes a).segq = x.segq ∧ (vget t.axes a).ctag = x.ctag.bump ∧ (vget t.axes a).cOrder = 6 ∧
      (vget t.axes a).cWrank = 2 := by
  dsimp only
  rw [axsWrite, regWriteAt_of_admits hw, if_pos htaken, settle_axes, conflict, emit_axes, modAxis_axes, vget_vmod_same]
  exact ⟨rfl, rfl, rfl, rfl⟩

/-! ### Hardware stops (R265, R268) -/

/-- One axis obeys its standing stops. -/
def obeyStop (s : State) (a : Fin 32) : State :=
  match (List.finRange 4).find? fun h : Fin 4 => (namedStops s a).getLsbD h with
  | some h =>
    let s := s.modAxis a fun x => { x with pwmTest := none }
    if (vget s.axes a).st.runs then axisTo a .disabled 2 0 h s else s
  | none => s
theorem obeyStops_eq (s : State) : obeyStops s = (List.finRange 32).foldl obeyStop s := rfl
/-- An axis that obeys keeps the inputs, every record, and the other axes' states and tests. -/
theorem obeyStop_frame (s : State) (a : Fin 32) :
    (obeyStop s a).hstop = s.hstop ∧ (obeyStop s a).hstopOn = s.hstopOn ∧
    (∀ b, (vget (obeyStop s a).axes b).rec_ = (vget s.axes b).rec_) ∧
    ∀ b, b ≠ a → (vget (obeyStop s a).axes b).st = (vget s.axes b).st ∧
      (vget (obeyStop s a).axes b).pwmTest = (vget s.axes b).pwmTest := by
  have htest : ∀ b, (vget (s.modAxis a fun x => { x with pwmTest := none }).axes b).rec_ = (vget s.axes b).rec_ ∧
      (b ≠ a → vget (s.modAxis a fun x => { x with pwmTest := none }).axes b = vget s.axes b) := by
    intro b
    refine ⟨?_, fun hb => vget_vmod_other (h := hb) ..⟩
    rcases eq_or_ne b a with rfl | hne
    · rw [modAxis_axes, vget_vmod_same]
    · rw [modAxis_axes, vget_vmod_other (h := hne)]
  unfold obeyStop
  split
  · next h hh =>
    dsimp only
    split
    · next hruns =>
      have hne : (vget (s.modAxis a fun x => { x with pwmTest := none }).axes a).st ≠ .disabled := fun h => by
        rw [h] at hruns; cases hruns
      obtain ⟨⟨hold, hself⟩, hother⟩ := axisTo_axes (cause := 2) (rank := 0) (port := h.val) hne
      refine ⟨by simp, by simp, fun b => ?_, fun b hb => ?_⟩
      · rcases eq_or_ne b a with rfl | hba
        · rw [hself]
          exact (htest b).1
        · rw [hother b hba]
          exact (htest b).1
      · rw [hother b hb, (htest b).2 hb]
        exact ⟨rfl, rfl⟩
    · exact ⟨rfl, rfl, fun b => (htest b).1, fun b hb => by rw [(htest b).2 hb]; exact ⟨rfl, rfl⟩⟩
  · exact ⟨rfl, rfl, fun _ => rfl, fun _ _ => ⟨rfl, rfl⟩⟩
theorem namedStops_congr {s t : State} {a : Fin 32} (hstop : t.hstop = s.hstop) (hon : t.hstopOn = s.hstopOn)
    (hrec : (vget t.axes a).rec_ = (vget s.axes a).rec_) : namedStops t a = namedStops s a := by
  unfold namedStops
  rw [hstop, hon, hrec]
/-- The axis that obeys: stopped, and its forced duty ended. -/
theorem obeyStop_self {s : State} {a : Fin 32} :
    (namedStops s a = 0 → obeyStop s a = s) ∧
    (namedStops s a ≠ 0 → (vget (obeyStop s a).axes a).pwmTest = none ∧
      (vget (obeyStop s a).axes a).st = if (vget s.axes a).st.runs then .disabled else (vget s.axes a).st) := by
  have hfind : ((List.finRange 4).find? fun h : Fin 4 => (namedStops s a).getLsbD h) = none ↔ namedStops s a = 0 := by
    rw [List.find?_eq_none]
    refine ⟨fun h => BitVec.eq_of_getLsbD_eq fun i hi => ?_, fun h i _ => by rw [h]; simp⟩
    have := h ⟨i, hi⟩ (List.mem_finRange _)
    simpa using this
  refine ⟨fun hzero => ?_, fun hset => ?_⟩
  · unfold obeyStop
    rw [hfind.mpr hzero]
  · obtain ⟨h, hh⟩ := Option.ne_none_iff_exists'.mp (fun hn => hset (hfind.mp hn))
    unfold obeyStop
    rw [hh]
    dsimp only
    have haxis : vget (s.modAxis a fun x => { x with pwmTest := none }).axes a = { vget s.axes a with pwmTest := none } :=
      vget_vmod_same _ _ _
    rw [haxis]
    dsimp only
    split
    · next hruns =>
      have hne : (vget (s.modAxis a fun x => { x with pwmTest := none }).axes a).st ≠ .disabled := fun h => by
        rw [haxis] at h
        dsimp only at h
        rw [h] at hruns
        cases hruns
      obtain ⟨⟨hold, hself⟩, -⟩ := axisTo_axes (cause := 2) (rank := 0) (port := h.val) hne
      rw [hself]
      exact ⟨rfl, rfl⟩
    · rw [haxis]
      exact ⟨rfl, rfl⟩
/-- Axes that obey one after the other. -/
theorem obeyStops_foldl (l : List (Fin 32)) (hl : l.Nodup) (s : State) (a : Fin 32) :
    let t := l.foldl obeyStop s
    t.hstop = s.hstop ∧
    ((namedStops s a = 0 ∨ a ∉ l) → (vget t.axes a).st = (vget s.axes a).st ∧ (vget t.axes a).pwmTest = (vget s.axes a).pwmTest) ∧
    (namedStops s a ≠ 0 → a ∈ l → (vget t.axes a).pwmTest = none ∧
      (vget t.axes a).st = if (vget s.axes a).st.runs then .disabled else (vget s.axes a).st) := by
  induction l generalizing s with
  | nil => exact ⟨rfl, fun _ => ⟨rfl, rfl⟩, nofun⟩
  | cons b l ih =>
    obtain ⟨hb, hnodup⟩ := List.nodup_cons.mp hl
    obtain ⟨hstop, hon, hrec, hother⟩ := obeyStop_frame s b
    obtain ⟨ihstop, ihfree, ihset⟩ := ih hnodup (obeyStop s b)
    have hnamed := namedStops_congr (a := a) hstop hon (hrec a)
    rw [hnamed] at ihfree ihset
    rw [List.foldl_cons]
    refine ⟨ihstop.trans hstop, fun h => ?_, fun hset hmem => ?_⟩
    · have hkeep : (vget (obeyStop s b).axes a).st = (vget s.axes a).st ∧
          (vget (obeyStop s b).axes a).pwmTest = (vget s.axes a).pwmTest := by
        rcases eq_or_ne a b with rfl | hne
        · rcases h with hzero | hnot
          · rw [obeyStop_self.1 hzero]
            exact ⟨rfl, rfl⟩
          · exact absurd List.mem_cons_self hnot
        · exact hother a hne
      have hrest := ihfree (h.imp_right fun hnot hmem => hnot (List.mem_cons_of_mem _ hmem))
      exact ⟨hrest.1.trans hkeep.1, hrest.2.trans hkeep.2⟩
    · rcases eq_or_ne a b with rfl | hne
      · obtain ⟨hst, htest⟩ := ihfree (.inr hb)
        rw [hst, htest]
        exact obeyStop_self.2 hset
      · have hrest := ihset hset ((List.mem_cons.mp hmem).resolve_left hne)
        rw [(hother a hne).1] at hrest
        exact hrest
theorem stopBit : ∀ h i : Fin 4, (1#4 <<< h.val).getLsbD i.val = decide (i = h) := by decide
/-- A stop input asserted, on its own in its clock. -/
theorem hstop_assert (h : Fin 4) (a : Fin 32) (s : State) :
    ∃ t, exec (.hstopAssert h []) s = .next t ∧ t.hstop = s.hstop ||| (1#4 <<< h.val) ∧
      (∀ r, (vget s.axes a).rec_ = some r → r.hstop.getLsbD h.val = true → s.hstopOn.getLsbD h.val = true →
        (vget t.axes a).st.runs = false ∧ (vget t.axes a).pwmTest = none ∧
          ((vget s.axes a).st.runs = true → (vget t.axes a).st = .disabled)) ∧
      (∀ r, (vget s.axes a).rec_ = some r → namedStops s a = 0 →
        (r.hstop.getLsbD h.val = false ∨ s.hstopOn.getLsbD h.val = false) → (vget t.axes a).st = (vget s.axes a).st) := by
  obtain ⟨u, hu⟩ : ∃ u : State, u = { s with hstop := s.hstop ||| (1#4 <<< h.val) } := ⟨_, rfl⟩
  have haxes : u.axes = s.axes := by rw [hu]
  have hexec : exec (.hstopAssert h []) s = .next (settle ((List.finRange 32).foldl obeyStop u)) := by
    rw [exec, execHstopAssert, hstopAssert, orders_nil, ← hu, obeyStops_eq, done]
  obtain ⟨hstop, hfree, hset⟩ := obeyStops_foldl (List.finRange 32) (List.nodup_finRange 32) u a
  rw [haxes] at hfree hset
  have hnamed : ∀ r, (vget s.axes a).rec_ = some r → namedStops u a = r.hstop &&& (s.hstop ||| (1#4 <<< h.val)) &&& s.hstopOn := by
    intro r hrec
    unfold namedStops
    rw [haxes, hrec, hu]
  refine ⟨_, hexec, ?_, fun r hrec hname hon => ?_, fun r hrec hzero hoff => ?_⟩
  · rw [settle_hstop, hstop, hu]
  · have hne : namedStops u a ≠ 0 := by
      rw [hnamed r hrec]
      intro hz
      have hbit : (r.hstop &&& (s.hstop ||| 1#4 <<< h.val) &&& s.hstopOn).getLsbD h.val = false := by
        rw [hz]
        exact BitVec.getLsbD_zero
      rw [BitVec.getLsbD_and, BitVec.getLsbD_and, BitVec.getLsbD_or, hname, hon, stopBit, decide_eq_true rfl, Bool.or_true] at hbit
      cases hbit
    obtain ⟨htest, hst⟩ := hset hne (List.mem_finRange a)
    rw [settle_axes]
    refine ⟨?_, htest, fun hruns => by rw [hst, if_pos hruns]⟩
    rw [hst]
    split
    · rfl
    · next hnot => exact Bool.eq_false_iff.mpr hnot
  · have hz : namedStops u a = 0 := by
      rw [hnamed r hrec]
      unfold namedStops at hzero
      rw [hrec] at hzero
      refine BitVec.eq_of_getLsbD_eq fun i hi => ?_
      have hnone : r.hstop &&& s.hstop &&& s.hstopOn = 0 := hzero
      have hbit : (r.hstop &&& s.hstop &&& s.hstopOn).getLsbD i = false := by
        rw [hnone]
        exact BitVec.getLsbD_zero
      have hstopBit := stopBit h ⟨i, hi⟩
      rw [BitVec.getLsbD_and, BitVec.getLsbD_and] at hbit
      rw [BitVec.getLsbD_and, BitVec.getLsbD_and, BitVec.getLsbD_or, hstopBit, BitVec.ofNat_eq_ofNat, BitVec.getLsbD_zero]
      by_cases hih : (⟨i, hi⟩ : Fin 4) = h
      · subst hih
        rcases hoff with ho | ho <;> dsimp only at ho <;> rw [ho]
        · rw [Bool.false_and, Bool.false_and]
        · rw [Bool.and_false]
      · rw [decide_eq_false hih, Bool.or_false]
        exact hbit
    rw [settle_axes]
    exact (hfree (.inl hz)).1

/-- Settles O46: the tick's end, a current tick, hooks, the path queue, and the axes that obey a stop. -/
theorem servoTicks : Obligations.ServoTicks := by
  unfold Obligations.ServoTicks
  intro s a
  refine ⟨fun r w0 w1 w2 hdue => ⟨⟨_, exec_tick hdue, ?_⟩, fun l hmotor hvel hhook hlaw hfloat hruns => ⟨_, exec_tick hdue, ?_⟩⟩,
    hook_deadline, fun e i rest hpend hgood hworks hfree => hook_start hpend hgood hworks hfree,
    fun w hw => ⟨fun htaken => ⟨?_, ?_⟩, fun htaken c hc => ?_⟩, fun h => ⟨rfl, hstop_assert h a s⟩⟩
  · obtain ⟨⟨htick, hpos, hspp, hspv, hspc⟩, hobs⟩ := tick_shows (a := a) (r := r) (sdi := [w0, w1, w2]) (s := s)
    rw [settle_axes]
    exact ⟨htick, hpos, hspp, hspv, hspc, hobs⟩
  · rw [settle_axes, settle_mem]
    exact tick_current hmotor hvel hhook hlaw hfloat hruns
  · rw [exec, execSegmentPush, axsWrite_free hw htaken]
    rfl
  · rw [exec, execSegmentFlush, axsWrite_free hw htaken]
    rfl
  · simp only [List.mem_cons, List.not_mem_nil, or_false] at hc
    rcases hc with rfl | rfl
    · exact ⟨_, rfl, segment_refused hw htaken⟩
    · exact ⟨_, rfl, segment_refused hw htaken⟩

end Sys2Proof.Machine
end

section
/-! SUPPORT. The display: what fetches, results, commits and frames leave of it. -/
set_option Elab.async false
namespace Sys2Proof.Machine

/-! ### Fetches (R344) -/

/-- Fetches reach nothing of the display but its transparent layers and their count, and move no time. -/
structure Fetched (s u : State) : Prop where
  dsp : u.dsp = { s.dsp with dead := u.dsp.dead, fetchErr := u.dsp.fetchErr }
  time : u.time = s.time

theorem Fetched.refl (s : State) : Fetched s s := ⟨rfl, rfl⟩
theorem Fetched.trans {s t u : State} (h : Fetched s t) (k : Fetched t u) : Fetched s u :=
  ⟨by rw [k.dsp, h.dsp], k.time.trans h.time⟩

theorem Fetched.sigres {s u : State} (h : Fetched s u) : u.dsp.sigres = s.dsp.sigres := by rw [h.dsp]
theorem Fetched.frame {s u : State} (h : Fetched s u) : u.dsp.frame = s.dsp.frame := by rw [h.dsp]
theorem Fetched.sets {s u : State} (h : Fetched s u) : u.dsp.active = s.dsp.active ∧ u.dsp.shadow = s.dsp.shadow := by
  rw [h.dsp]
  exact ⟨rfl, rfl⟩
theorem Fetched.counts {s u : State} (h : Fetched s u) : u.dsp.mismatch = s.dsp.mismatch ∧ u.dsp.errNext = s.dsp.errNext := by
  rw [h.dsp]
  exact ⟨rfl, rfl⟩

/-- A failed fetch: what the display keeps of it, before its cause and its event. -/
def deadFrom (n : Fin 6) (px : Nat) (s : State) : State :=
  s.modDsp fun d => { d with dead := d.dead ++ [(n, px)], fetchErr := satInc d.fetchErr }
/-- The cause of a failed fetch. -/
def fetchBlame (poison : Bool) (a : Nat) (s : State) : State :=
  if poison then poisonHit dspFid s
  else match fetchCause s a with
    | some c => accessError dspFid false c a s
    | none => s
theorem fetchFail_eq (n : Fin 6) (poison : Bool) (a px : Nat) (s : State) : fetchFail n poison a px s =
    fetchEvent n (if poison then 2 else 1) a (fetchBlame poison a (deadFrom n px s)) := rfl
@[simp] theorem fetchBlame_dsp (poison : Bool) (a : Nat) (s : State) : (fetchBlame poison a s).dsp = s.dsp := by
  unfold fetchBlame
  split
  · rfl
  · split <;> rfl
@[simp] theorem fetchBlame_time (poison : Bool) (a : Nat) (s : State) : (fetchBlame poison a s).time = s.time := by
  unfold fetchBlame
  split
  · rfl
  · split <;> rfl
@[simp] theorem fetchFail_dsp (n : Fin 6) (poison : Bool) (a px : Nat) (s : State) :
    (fetchFail n poison a px s).dsp = { s.dsp with dead := s.dsp.dead ++ [(n, px)], fetchErr := satInc s.dsp.fetchErr } := by
  rw [fetchFail_eq, fetchEvent, emit_dsp, fetchBlame_dsp]
  rfl
@[simp] theorem fetchFail_time (n : Fin 6) (poison : Bool) (a px : Nat) (s : State) :
    (fetchFail n poison a px s).time = s.time := by
  rw [fetchFail_eq, fetchEvent, emit_time, fetchBlame_time]
  rfl
theorem fetched_fetchFail (n : Fin 6) (poison : Bool) (a px : Nat) (s : State) : Fetched s (fetchFail n poison a px s) :=
  ⟨by rw [fetchFail_dsp], fetchFail_time _ _ _ _ _⟩
theorem fetched_foldl {α : Type} {g : State → α → State} (h : ∀ s a, Fetched s (g s a)) (l : List α) (s : State) :
    Fetched s (l.foldl g s) := by
  induction l generalizing s with
  | nil => exact .refl s
  | cons a l ih => exact (h s a).trans (ih _)
theorem fetched_fetchUpTo (hact px : Nat) (s : State) : Fetched s (fetchUpTo hact px s) := by
  refine fetched_foldl (fun s n => ?_) _ s
  split
  · exact fetched_fetchFail _ _ _ _ s
  · exact .refl s
/-- With no failure before a pixel, the fetches up to it change nothing. -/
theorem fetchUpTo_clean {s : State} {hact px : Nat} (h : ∀ n, firstFailure s hact n px = none) : fetchUpTo hact px s = s := by
  refine List.foldl_fixed' (fun n => ?_) _
  rw [h n]

/-- A fetch fails with poison, or with a cause of an access error. -/
theorem fetchCause_of_fails {s : State} {a : Nat} (h : fetchFails s false a = true) : (fetchCause s a).isSome = true := by
  simp only [fetchFails, Bool.and_eq_true] at h
  exact Option.isSome_iff_ne_none.mpr (of_decide_eq_true h.2)
theorem causeAt_fetchBlame {s : State} {poison : Bool} {a : Nat} (h : poison = false → (fetchCause s a).isSome = true) :
    causeAt (fetchBlame poison a s) (fidSlot dspFid) (if poison then 2 else 1) = true := by
  unfold fetchBlame
  cases poison with
  | true => exact causeAt_putCause dspFid (by decide) s
  | false =>
    obtain ⟨c, hc⟩ := Option.isSome_iff_exists.mp (h rfl)
    rw [if_neg (by decide), hc]
    exact causeAt_putCause dspFid (by decide) _
theorem fetchCause_deadFrom (n : Fin 6) (px : Nat) (s : State) (a : Nat) :
    fetchCause (deadFrom n px s) a = fetchCause s a := rfl
theorem causeAt_fetchFail {s : State} {n : Fin 6} {poison : Bool} {a px : Nat} (h : fetchFails s poison a = true) :
    causeAt (fetchFail n poison a px s) (fidSlot dspFid) (if poison then 2 else 1) = true := by
  rw [fetchFail_eq]
  refine (causesGrow_emit _ _ _ _).stands _ _ (causeAt_fetchBlame fun hp => ?_)
  rw [fetchCause_deadFrom]
  exact fetchCause_of_fails (hp ▸ h)
theorem layer_fetch_error {s : State} {r : DspRec} {n : Fin 6} {poison : Bool} {a : Pa} {px : Nat}
    (hruns : dspRuns s = some r) (hfetch : fetchesAt s r.hact.toNat n a.toNat px = true)
    (hfail : fetchFails s poison a.toNat = true) (hr : s.rat.reopened = none) :
    ∃ t, exec (.layerFetchError n poison a px) s = .next t ∧
      t.dsp = { s.dsp with dead := s.dsp.dead ++ [(n, px)], fetchErr := satInc s.dsp.fetchErr } ∧
      (vget t.flt (fidSlot dspFid)).a.cause.getLsbD (if poison then 2 else 1) = true := by
  have hexec : execLayerFetchError n poison a px s = .next (settle (fetchFail n poison a.toNat px s)) := by
    unfold execLayerFetchError
    rw [hruns]
    exact doneIf_pos (by rw [hfetch, hfail]; rfl) hr _
  refine ⟨_, hexec, ?_⟩
  rw [settle_dsp, settle_flt]
  exact ⟨fetchFail_dsp _ _ _ _ s, causeAt_fetchFail hfail⟩
theorem underflow_first {s : State} {r : DspRec} {n : Fin 6} {px : Nat} (hruns : dspRuns s = some r)
    (hok : (layerReads s n && !s.dsp.clear n px && decide (pixAddrs s r.hact.toNat n px ≠ [])) = true)
    (hr : s.rat.reopened = none) :
    exec (.underflow n px) s = .next (settle (underflowAt r.hact.toNat n px s)) := by
  show execUnderflow n px s = _
  unfold execUnderflow
  rw [hruns]
  exact doneIf_pos hok hr _
theorem underflowAt_first {s : State} (hact : Nat) (n : Fin 6) (px : Nat) (h : s.dsp.missed = []) :
    (underflowAt hact n px s).dsp = { s.dsp with missed := [(n, px)], under := satInc s.dsp.under } := by
  unfold underflowAt
  dsimp only
  rw [if_pos (by simpa using h), fetchEvent, emit_dsp]
  simp [freshFree, h]
theorem underflowAt_later {s : State} (hact : Nat) (n : Fin 6) (px : Nat) (h : s.dsp.missed ≠ []) :
    underflowAt hact n px s = { s with dsp := { s.dsp with missed := s.dsp.missed ++ [(n, px)] } } := by
  unfold underflowAt
  dsimp only
  rw [if_neg (by simpa using h)]
  simp only [h, if_false, State.modDsp]

/-! ### Commits (R345) -/

section Commit
variable {s : State} {r : DspRec} {w : Master} {evt : Bool}

theorem rec_of_dpRec (h : dpRec s = some r) : s.dsp.rec_ = some r := by
  unfold dpRec at h
  split at h
  · exact h
  · cases h
theorem dpRec_of_dspRuns (h : dspRuns s = some r) : dpRec s = some r := by
  unfold dspRuns at h
  dsimp only at h
  split at h
  · exact h
  · cases h
theorem exec_commitGo (hw : Admits w (dspBase + 0x008) s) :
    exec (.dspCommitGo w evt) s = .next (settle (commitGo (s.modDsp fun d => { d with evt := evt }))) := by
  show done (regWriteAt w (dspBase + 0x008) (fun s => commitGo (s.modDsp fun d => { d with evt := evt })) s) = _
  rw [regWriteAt_of_admits hw]
  rfl
theorem commitGo_pending (h : s.dsp.pend = true) : commitGo s = dspIgn s := if_pos h
theorem commitGo_checked (hrec : s.dsp.rec_ = some r) (hpend : s.dsp.pend = false) : commitGo s =
    if commitCode r s.dsp.shadow = 0 then s.modDsp fun d => { d with pend := true, goIt := s.time.it }
    else commitResult (commitCode r s.dsp.shadow) 0 true s := by
  unfold commitGo
  rw [hpend, if_neg (by decide), hrec]
@[simp] theorem commitResult_dsp (code : BitVec 8) (ck : Time) (send : Bool) (s : State) : (commitResult code ck send s).dsp =
    { s.dsp with ccode := code, ctag := s.dsp.ctag.bump, cit := if code = 0 then ck else s.dsp.cit } := by
  unfold commitResult
  dsimp only
  split
  · exact emit_dsp _ _ _ _
  · rfl
theorem commit_go (hruns : dspRuns s = some r) (hw : Admits w (dspBase + 0x008) s) :
    let d := s.dsp
    (d.pend = true → exec (.dspCommitGo w evt) s = .next (settle { s with dsp := { d with evt := evt, ign := satInc d.ign } })) ∧
    (d.pend = false → commitCode r d.shadow = 0 → exec (.dspCommitGo w evt) s = .next (settle { s with
      dsp := { d with evt := evt, pend := true, goIt := s.time.it } })) ∧
    (d.pend = false → commitCode r d.shadow ≠ 0 → ∃ t, exec (.dspCommitGo w evt) s = .next t ∧
      t.dsp = { d with evt := evt, ccode := commitCode r d.shadow, ctag := d.ctag.bump }) := by
  intro d
  have hrec := rec_of_dpRec (dpRec_of_dspRuns hruns)
  have hchecked (hpend : d.pend = false) := commitGo_checked (s := s.modDsp fun d => { d with evt := evt }) hrec hpend
  refine ⟨fun hpend => ?_, fun hpend hgood => ?_, fun hpend hbad => ⟨_, exec_commitGo hw, ?_⟩⟩
  · rw [exec_commitGo hw, commitGo_pending (s := s.modDsp fun d => { d with evt := evt }) hpend]
    rfl
  · rw [exec_commitGo hw, hchecked hpend, if_pos (by exact hgood)]
    rfl
  · rw [settle_dsp, hchecked hpend, if_neg (by exact hbad), commitResult_dsp, if_neg (by exact hbad)]
    rfl

/-! ### Frames (R346, R349, R350) -/

@[simp] theorem setFlat_dsp (flat : Bool) (k : BitVec 3) (px : Nat) (s : State) :
    (setFlat flat k px s).dsp = { s.dsp with flat := flat, flatn := k } := by
  unfold setFlat
  dsimp only
  split
  · exact emit_dsp _ _ _ _
  · rfl
/-- The signatures' results as a frame ends. -/
def resultsAtEnd (res : Vector SigRes 8) : Vector SigRes 8 :=
  Vector.ofFn fun i => { vget res i with badLast := (vget res i).badNow, badNow := false }
/-- What a commit reads and sets. -/
def commitRegs (d : Display) : DspSet × DspSet × Bool × Time × BitVec 8 := (d.active, d.shadow, d.pend, d.goIt, d.ccode)
/-- What the error screen turns on. -/
def screenRegs (d : Display) : Bool × Bool × Bool := (d.errscr, d.errNext, d.clearReq)
theorem frameEnd_regs (r : DspRec) (s : State) :
    commitRegs (frameEnd r s).dsp = commitRegs s.dsp ∧ screenRegs (frameEnd r s).dsp = screenRegs s.dsp := by
  have hfetch := (fetched_fetchUpTo r.hact.toNat (r.hact.toNat * r.vact.toNat) s).dsp
  unfold frameEnd
  dsimp only [modDsp_dsp, commitRegs, screenRegs]
  rw [hfetch]
  exact ⟨rfl, rfl⟩
theorem frameEnd_results (r : DspRec) (s : State) :
    (frameEnd r s).dsp.missed = [] ∧ (frameEnd r s).dsp.sigres = resultsAtEnd s.dsp.sigres ∧ (frameEnd r s).time = s.time := by
  have hfetch := fetched_fetchUpTo r.hact.toNat (r.hact.toNat * r.vact.toNat) s
  have hres := congrArg Display.sigres hfetch.dsp
  have htime := hfetch.time
  unfold frameEnd
  dsimp only [modDsp_dsp, modDsp_time]
  exact ⟨rfl, congrArg resultsAtEnd hres, htime⟩
/-- A region compared wrong in the frame that ended. -/
def mismatched (d : Display) : Bool := d.sigres.toList.any (·.badLast)
/-- No region compared wrong during the frame: the frame's end finds no mismatch. -/
theorem mismatched_frameEnd {r : DspRec} (h : ∀ n, (vget s.dsp.sigres n).badNow = false) :
    mismatched (frameEnd r s).dsp = false := by
  rw [mismatched, (frameEnd_results r s).2.1, resultsAtEnd, Vector.toList_ofFn, List.any_eq_false]
  intro x hx
  obtain ⟨i, rfl⟩ := List.mem_ofFn.mp hx
  exact Bool.eq_false_iff.mp (h i)
theorem errScreen_kept (s : State) : commitRegs (errScreen s).dsp = commitRegs s.dsp ∧
    (errScreen s).dsp.missed = s.dsp.missed ∧ (errScreen s).time = s.time := by
  unfold errScreen
  dsimp only
  split <;> exact ⟨rfl, rfl, rfl⟩
theorem errScreen_errscr (s : State) : (errScreen s).dsp.errscr =
    ((s.dsp.errscr && !(s.dsp.clearReq && !mismatched s.dsp)) || s.dsp.errNext) := by
  unfold errScreen
  dsimp only
  split <;> rfl

/-- The frame that begins is stamped with the commit point's time. -/
def stampFrame (s : State) : State := s.modDsp fun d => { d with frame := s.time.it }
/-- A frame begins: the one that ended is settled. -/
def frameBegin (r : DspRec) (s : State) : State := stampFrame (errScreen (frameEnd r s))
theorem stampFrame_kept (s : State) : commitRegs (stampFrame s).dsp = commitRegs s.dsp ∧ (stampFrame s).dsp.missed = s.dsp.missed ∧
    (stampFrame s).dsp.frame = s.time.it ∧ (stampFrame s).time = s.time ∧ (stampFrame s).dsp.errscr = s.dsp.errscr :=
  ⟨rfl, rfl, rfl, rfl, rfl⟩
/-- The display as a frame begins, before any commit. -/
structure FrameBegun (s u : State) : Prop where
  regs : commitRegs u.dsp = commitRegs s.dsp
  missed : u.dsp.missed = []
  frame : u.dsp.frame = s.time.it
  time : u.time = s.time
  calm : s.dsp.clearReq = false → u.dsp.errscr = (s.dsp.errscr || s.dsp.errNext)
  clear : s.dsp.clearReq = true → (∀ n, (vget s.dsp.sigres n).badNow = false) → u.dsp.errscr = s.dsp.errNext
theorem frameBegun (r : DspRec) (s : State) : FrameBegun s (frameBegin r s) := by
  obtain ⟨hregs', hmissed', hframe', htime', herr'⟩ := stampFrame_kept (errScreen (frameEnd r s))
  obtain ⟨hregs, hmissed, htime⟩ := errScreen_kept (frameEnd r s)
  obtain ⟨hcommit, hscreen⟩ := frameEnd_regs r s
  obtain ⟨hnone, -, hend⟩ := frameEnd_results r s
  simp only [screenRegs, Prod.mk.injEq] at hscreen
  obtain ⟨herr, hnext, hreq⟩ := hscreen
  have hscr := herr'.trans (errScreen_errscr (frameEnd r s))
  refine ⟨hregs'.trans (hregs.trans hcommit), hmissed'.trans (hmissed.trans hnone), ?_, htime'.trans (htime.trans hend),
    fun h => ?_, fun h hbad => ?_⟩
  · exact hframe'.trans (congrArg TimeBase.it (htime.trans hend))
  · rw [frameBegin, hscr, herr, hnext, hreq, h, Bool.false_and, Bool.not_false, Bool.and_true]
  · rw [frameBegin, hscr, hnext, hreq, h, mismatched_frameEnd hbad]
    simp
/-- The commit that a frame's begin applies, if it is due. -/
def commitIfDue (s : State) : State :=
  if s.dsp.pend && decide (s.dsp.goIt.toNat + 16000 ≤ s.time.it.toNat) then commitApply s else s
theorem exec_commitPoint (hruns : dspRuns s = some r) (hdue : s.time.it.toNat % fPer = 0) (hr : s.rat.reopened = none) :
    exec .commitPoint s = .next (settle (commitIfDue (frameBegin r s))) := by
  show execCommitPoint s = _
  unfold execCommitPoint
  rw [hruns]
  exact doneIf_pos (decide_eq_true hdue) hr fun s => commitIfDue (frameBegin r s)
/-- What a commit that is applied leaves of the frame. -/
def frameRegs (d : Display) : Time × Bool × List (Fin 6 × Nat) := (d.frame, d.errscr, d.missed)
theorem evalStack_kept (s : State) : commitRegs (evalStack s).dsp = commitRegs s.dsp ∧
    frameRegs (evalStack s).dsp = frameRegs s.dsp ∧ (evalStack s).dsp.cit = s.dsp.cit ∧ (evalStack s).dsp.dead = s.dsp.dead := by
  unfold evalStack
  dsimp only
  rw [setFlat_dsp]
  exact ⟨rfl, rfl, rfl, rfl⟩
theorem commitApply_applies (s : State) :
    commitRegs (commitApply s).dsp = (s.dsp.shadow, s.dsp.shadow, false, s.dsp.goIt, 0) ∧
    frameRegs (commitApply s).dsp = frameRegs s.dsp ∧ (commitApply s).dsp.cit = s.time.it ∧ (commitApply s).dsp.dead = [] := by
  unfold commitApply
  dsimp only
  obtain ⟨hregs, hframe, hcit, hdead⟩ := evalStack_kept (commitResult 0 s.time.it s.dsp.evt (s.modDsp fun d => { d with
    active := d.shadow, pend := false, dead := [], sigres := Vector.ofFn fun i => { vget d.sigres i with
      learned := (vget d.sigres i).learned && (vget d.active.sig i).mode = 2 && (vget d.shadow.sig i).mode = 2 } }))
  refine ⟨hregs.trans ?_, hframe.trans ?_, hcit.trans ?_, hdead.trans ?_⟩ <;> rw [commitResult_dsp] <;> rfl
theorem commit_point (hruns : dspRuns s = some r) (hdue : s.time.it.toNat % fPer = 0) (hr : s.rat.reopened = none) :
    let d := s.dsp
    ∃ t, exec .commitPoint s = .next t ∧ t.dsp.frame = s.time.it ∧ t.dsp.shadow = d.shadow ∧
       t.dsp.missed = [] ∧ (d.clearReq = false → t.dsp.errscr = (d.errscr || d.errNext)) ∧
       (d.clearReq = true → (∀ n, (vget d.sigres n).badNow = false) → t.dsp.errscr = d.errNext) ∧
       (d.pend = true → d.goIt.toNat + 16000 ≤ s.time.it.toNat → t.dsp.active = d.shadow ∧ t.dsp.pend = false ∧
         t.dsp.ccode = 0 ∧ t.dsp.cit = s.time.it ∧ t.dsp.dead = []) ∧
       (d.pend = false ∨ s.time.it.toNat < d.goIt.toNat + 16000 → t.dsp.active = d.active ∧ t.dsp.pend = d.pend ∧
         t.dsp.ccode = d.ccode) := by
  intro d
  refine ⟨_, exec_commitPoint hruns hdue hr, ?_⟩
  rw [settle_dsp]
  have hbegin := frameBegun r s
  generalize frameBegin r s = u at hbegin
  obtain ⟨hregs, hmissed, hframe, htime, hcalm, hclear⟩ := hbegin
  simp only [commitRegs, Prod.mk.injEq] at hregs
  obtain ⟨hactive, hshadow, hpend, hgo, hcode⟩ := hregs
  unfold commitIfDue
  rw [hpend, hgo, htime]
  split
  next hready =>
    obtain ⟨hset, hlate⟩ := Bool.and_eq_true _ _ ▸ hready
    obtain ⟨happly, hkept, hcit, hdead⟩ := commitApply_applies u
    simp only [commitRegs, frameRegs, Prod.mk.injEq] at happly hkept
    obtain ⟨ha, hs, hp, -, hc⟩ := happly
    obtain ⟨hf, he, hm⟩ := hkept
    refine ⟨hf.trans hframe, hs.trans hshadow, hm.trans hmissed, fun h => he.trans (hcalm h), fun h k => he.trans (hclear h k),
      fun _ _ => ⟨ha.trans hshadow, hp, hc, hcit.trans (congrArg TimeBase.it htime), hdead⟩, fun hnot => ?_⟩
    have hdueNow := of_decide_eq_true hlate
    obtain hnot | hnot := hnot
    · exact absurd hset (by rw [hnot]; decide)
    · exact absurd hdueNow (Nat.not_le.mpr hnot)
  next hwait =>
    refine ⟨hframe, hshadow, hmissed, hcalm, hclear, fun hset hlate => ?_, fun _ => ⟨hactive, hpend, hcode⟩⟩
    exact absurd (by rw [hset, decide_eq_true hlate]; rfl) hwait

end Commit

/-! ### Signatures (R347 to R350) -/

section Signature
variable {s : State} {r : DspRec} {n : Fin 8}

/-- The last pixel of a region, counted in raster order, and one. -/
def regionEnd (r : DspRec) (g : SigCfg) : Nat := (g.y.toNat + g.h.toNat - 1) * r.hact.toNat + g.x.toNat + g.w.toNat
/-- The state in which a region's pixels are composed. -/
def composed (r : DspRec) (n : Fin 8) (s : State) : State := fetchUpTo r.hact.toNat (regionEnd r (vget s.dsp.active.sig n)) s
theorem exec_signatureResult (hruns : dspRuns s = some r) (hon : sigOn r n (vget s.dsp.active.sig n) = true)
    (hnew : (vget s.dsp.sigres n).it ≠ s.dsp.frame) (hr : s.rat.reopened = none) :
    exec (.signatureResult n) s = .next (settle (sigResult r n s)) := by
  show execSignatureResult n s = _
  unfold execSignatureResult
  rw [hruns]
  exact doneIf_pos (by rw [hon, decide_eq_true hnew]; rfl) hr _
theorem react_signature (s : State) : react dspFid 6 s = fenceFn dspFid s := rfl
@[simp] theorem raiseSignature_dsp (s : State) : (raiseCause dspFid 6 s).dsp = s.dsp := by
  unfold raiseCause
  dsimp only
  rw [react_signature]
  split
  · rw [announce_dsp, fenceFn_dsp, putCause_dsp]
  · rw [fenceFn_dsp, putCause_dsp]
theorem causesGrow_fenceDisplay (s : State) : CausesGrow s (fenceFn dspFid s) := by
  unfold fenceFn fenceWork
  dsimp only
  rw [if_neg (by decide)]
  exact (causesGrow_modFlt (by intro x b h; exact h) (fidSlot dspFid) s).trans (.of_flt (stopWork_flt _ _ _))
theorem causeAt_raiseSignature (s : State) : causeAt (raiseCause dspFid 6 s) (fidSlot dspFid) 6 = true := by
  unfold raiseCause
  dsimp only
  rw [react_signature]
  have hset := (causesGrow_fenceDisplay (putCause dspFid 6 s)).stands _ _ (causeAt_putCause dspFid (by decide) s)
  split
  · exact (causesGrow_announce dspFid 6 _).stands _ _ hset
  · exact hset
theorem sigMismatch_dsp (r : DspRec) (n : Fin 8) (crc exp : BitVec 32) (s : State) : (sigMismatch r n crc exp s).dsp =
    { s.dsp with mismatch := satInc s.dsp.mismatch, errNext := s.dsp.errNext || decide (r.sigreact ≠ 0) } := by
  unfold sigMismatch
  dsimp only
  split
  · rw [raiseSignature_dsp, emit_dsp]; rfl
  · rw [emit_dsp]; rfl
theorem sigMismatch_cause (h : r.sigreact = 2) (crc exp : BitVec 32) (s : State) :
    causeAt (sigMismatch r n crc exp s) (fidSlot dspFid) 6 = true := by
  unfold sigMismatch
  dsimp only
  rw [if_pos h]
  exact causeAt_raiseSignature _

theorem composed_dsp (r : DspRec) (n : Fin 8) (s : State) : Fetched s (composed r n s) := fetched_fetchUpTo _ _ s
/-- A region's result kept, and the value that it learns. -/
def sigStore (n : Fin 8) (crc : BitVec 32) (cmp learn ok : Bool) (u : State) : State :=
  u.modDsp fun d =>
    let x := vget d.sigres n
    let d' := { d with sigres := vset d.sigres n { x with
      crc := crc, compared := cmp, match_ := cmp && ok, tag := x.tag.bump, it := d.frame,
      learned := x.learned || learn, badNow := cmp && !ok } }
    if learn then { d' with active := d'.active.setExp n crc, shadow := d'.shadow.setExp n crc } else d'
/-- A region's result is compared, or learnt, in the state in which its pixels are composed. -/
theorem sigResult_compares {u : State} {g : SigCfg} {crc : BitVec 32} {cmp learn ok : Bool} (hg : vget s.dsp.active.sig n = g)
    (hu : fetchUpTo r.hact.toNat ((g.y.toNat + g.h.toNat - 1) * r.hact.toNat + g.x.toNat + g.w.toNat) s = u)
    (hcrc : crc32 (sigBytes u r.hact.toNat g) = crc)
    (hcmp : (g.mode = 1 || (g.mode = 2 && (vget u.dsp.sigres n).learned)) = cmp)
    (hlearn : (g.mode = 2 && !(vget u.dsp.sigres n).learned) = learn) (hok : decide (crc = g.exp) = ok) : sigResult r n s =
    if cmp && !ok then sigMismatch r n crc g.exp (sigStore n crc cmp learn ok u) else sigStore n crc cmp learn ok u := by
  unfold sigResult
  dsimp only
  rw [hg, hu, hcrc, hcmp, hlearn, hok]
  rfl

section Result
variable {u : State} {g : SigCfg} {crc : BitVec 32} (hg : vget s.dsp.active.sig n = g) (hfetched : Fetched s u)
  (hu : fetchUpTo r.hact.toNat ((g.y.toNat + g.h.toNat - 1) * r.hact.toNat + g.x.toNat + g.w.toNat) s = u)
  (hcrc : crc32 (sigBytes u r.hact.toNat g) = crc)
include hfetched

theorem sigStore_compared (ok : Bool) : sigStore n crc true false ok u = { u with dsp := { u.dsp with
    sigres := vset s.dsp.sigres n { vget s.dsp.sigres n with crc := crc, tag := (vget s.dsp.sigres n).tag.bump,
                                                             it := s.dsp.frame, compared := true, match_ := ok,
                                                             badNow := !ok } } } := by
  unfold sigStore
  simp only [State.modDsp, Bool.or_false, Bool.true_and, if_false, Bool.false_eq_true]
  rw [hfetched.sigres, hfetched.frame]
theorem sigStore_learnt (ok : Bool) : sigStore n crc false true ok u = { u with dsp := { u.dsp with
    sigres := vset s.dsp.sigres n { vget s.dsp.sigres n with crc := crc, tag := (vget s.dsp.sigres n).tag.bump,
                                                             it := s.dsp.frame, compared := false, match_ := false,
                                                             learned := true, badNow := false }
    active := s.dsp.active.setExp n crc, shadow := s.dsp.shadow.setExp n crc } } := by
  unfold sigStore
  simp only [State.modDsp, Bool.or_true, Bool.false_and, if_true]
  rw [hfetched.sigres, hfetched.frame, hfetched.sets.1, hfetched.sets.2]
include hg hu hcrc
theorem sigResult_compared (hmode : g.mode = 1 ∨ g.mode = 2 ∧ (vget s.dsp.sigres n).learned = true) {ok : Bool}
    (hok : decide (crc = g.exp) = ok) : sigResult r n s =
    if true && !ok then sigMismatch r n crc g.exp (sigStore n crc true false ok u) else sigStore n crc true false ok u := by
  have hold : vget u.dsp.sigres n = vget s.dsp.sigres n := congrArg (vget · n) hfetched.sigres
  refine sigResult_compares hg hu hcrc ?_ ?_ hok <;> rw [hold] <;> obtain hone | ⟨htwo, hl⟩ := hmode
  · rw [hone]; rfl
  · rw [htwo, hl]; rfl
  · rw [hone]; rfl
  · rw [hl, Bool.not_true, Bool.and_false]
theorem sigResult_learnt (hmode : g.mode = 2) (hl : (vget s.dsp.sigres n).learned = false) :
    sigResult r n s = sigStore n crc false true (decide (crc = g.exp)) u := by
  have hold : vget u.dsp.sigres n = vget s.dsp.sigres n := congrArg (vget · n) hfetched.sigres
  rw [sigResult_compares hg hu hcrc (cmp := false) (learn := true) ?_ ?_ rfl, Bool.false_and, if_neg (by decide)]
  · rw [hold, hmode, hl]; rfl
  · rw [hold, hmode, hl]; rfl
theorem sigResult_mismatch (hmode : g.mode = 1 ∨ g.mode = 2 ∧ (vget s.dsp.sigres n).learned = true) (hbad : crc ≠ g.exp) :
    (sigResult r n s).dsp = { u.dsp with
      sigres := vset s.dsp.sigres n { vget s.dsp.sigres n with crc := crc, tag := (vget s.dsp.sigres n).tag.bump,
                                                               it := s.dsp.frame, compared := true, match_ := false,
                                                               badNow := true }
      mismatch := satInc s.dsp.mismatch, errNext := s.dsp.errNext || decide (r.sigreact ≠ 0) } ∧
    (r.sigreact = 2 → causeAt (sigResult r n s) (fidSlot dspFid) 6 = true) := by
  rw [sigResult_compared hg hfetched hu hcrc hmode (decide_eq_false hbad), if_pos (by rfl)]
  refine ⟨?_, fun hreact => sigMismatch_cause hreact crc g.exp _⟩
  rw [sigMismatch_dsp, sigStore_compared hfetched, ← hfetched.counts.1, ← hfetched.counts.2]
  rfl
end Result

end Signature

/-! ### The link (R336, R339) -/

section Link
variable {s : State} {r : DspRec}

@[simp] theorem dpDown_dsp (cause : Nat) (s : State) :
    (dpDown cause s).dsp = { s.dsp with link := .down, lanes := 0, rate := 0 } := emit_dsp _ _ _ _
/-- With no record, the sink's level is kept and nothing else. -/
theorem hpd_unassigned (h : dpRec s = none) :
    exec .hpdRise s = .next (settle { s with dsp := { s.dsp with hpd := true } }) ∧
    exec (.hpdFall false) s = .next (settle { s with dsp := { s.dsp with hpd := false } }) := by
  have hnone : (dpRec s).isSome = false := by rw [h]; rfl
  constructor
  · show execHpdRise s = _
    unfold execHpdRise
    rw [hnone, Bool.false_and, if_neg (by decide)]
    rfl
  · show execHpdFall false s = _
    unfold execHpdFall
    rw [if_neg (by decide), hnone, Bool.false_and, if_neg (by decide)]
    rfl
theorem hpd_rise (h : (dpRec s).isSome = true) :
    (s.dsp.link ≠ .up → exec .hpdRise s = .next (settle { s with
      dsp := { s.dsp with hpd := true, link := .training, lanes := 0, rate := 0 } })) ∧
    (s.dsp.link = .up → exec .hpdRise s = .next (settle { s with dsp := { s.dsp with hpd := true } })) := by
  have hexec : exec .hpdRise s = execHpdRise s := rfl
  rw [hexec]
  unfold execHpdRise
  rw [h, Bool.true_and]
  refine ⟨fun hdown => ?_, fun hup => ?_⟩
  · rw [if_pos (decide_eq_true hdown)]
    rfl
  · rw [if_neg (by simp [hup])]
    rfl
theorem hpd_fall (h : (dpRec s).isSome = true) (hr : s.rat.reopened = none) :
    (s.dsp.hpd = true → ∃ t, exec (.hpdFall false) s = .next t ∧
      t.dsp = { s.dsp with hpd := false, link := .down, lanes := 0, rate := 0 }) ∧
    (s.dsp.hpd = false → exec (.hpdFall false) s = .next (settle { s with dsp := { s.dsp with hpd := false } })) ∧
    (s.dsp.link = .up → ∃ t, exec (.hpdFall true) s = .next t ∧
      t.dsp = { s.dsp with link := .down, lanes := 0, rate := 0 }) := by
  have hfall : exec (.hpdFall false) s = execHpdFall false s := rfl
  refine ⟨fun hhigh => ?_, fun hlow => ?_, fun hup => ?_⟩
  · refine ⟨settle (dpDown 0 (s.modDsp fun d => { d with hpd := false })), ?_, by rw [settle_dsp, dpDown_dsp]; rfl⟩
    rw [hfall, execHpdFall, if_neg (by decide), h, hhigh]
    rfl
  · rw [hfall, execHpdFall, if_neg (by decide), h, hlow]
    rfl
  · have hexec : exec (.hpdFall true) s = .next (settle (dpDown 2 s)) :=
      doneIf_pos (by rw [h, decide_eq_true hup]; rfl) hr (dpDown 2)
    exact ⟨_, hexec, by rw [settle_dsp, dpDown_dsp]⟩
theorem dp_trained (h : dpRec s = some r) (hr : s.rat.reopened = none) (htrain : s.dsp.link = .training) :
    ∃ t, exec .dpTrainingDone s = .next t ∧
      t.dsp = { s.dsp with link := .up, lanes := r.lanes, rate := r.rate.setWidth 2 } := by
  have hexec : execDpTrainingDone s = .next (settle (emit dspFid 0x54 (pl 16 r.lanes.toNat + pl 17 (r.rate.toNat % 4))
      (s.modDsp fun d => { d with link := .up, lanes := r.lanes, rate := r.rate.setWidth 2 }))) := by
    unfold execDpTrainingDone
    rw [h]
    exact doneIf_pos (decide_eq_true htrain) hr fun s => emit dspFid 0x54 (pl 16 r.lanes.toNat + pl 17 (r.rate.toNat % 4))
      (s.modDsp fun d => { d with link := .up, lanes := r.lanes, rate := r.rate.setWidth 2 })
  exact ⟨_, hexec, by rw [settle_dsp, emit_dsp]; rfl⟩
theorem dp_retrained (h : (dpRec s).isSome = true) (hr : s.rat.reopened = none) (hhpd : s.dsp.hpd = true)
    (hdown : s.dsp.link ≠ .up) : ∃ t, exec .dpTrainingRetry s = .next t ∧
      t.dsp = { s.dsp with link := .training, lanes := 0, rate := 0 } := by
  have hexec : exec .dpTrainingRetry s = .next (settle (dpTrain (if s.dsp.link = .training then dpDown 1 s else s))) :=
    doneIf_pos (by rw [h, hhpd, decide_eq_true hdown]; rfl) hr fun s =>
      dpTrain (if s.dsp.link = .training then dpDown 1 s else s)
  refine ⟨_, hexec, ?_⟩
  have htrain (t : State) (h : t.dsp.hpd = true) : (dpTrain t).dsp = { t.dsp with link := .training, lanes := 0, rate := 0 } := by
    rw [dpTrain, modDsp_dsp, if_pos h]
  rw [settle_dsp]
  split
  · rw [htrain _ (by rw [dpDown_dsp]; exact hhpd), dpDown_dsp]
  · exact htrain s hhpd

end Link

/-- Settles O55. -/
theorem displayFramesAndLink : Obligations.DisplayFramesAndLink := by
  unfold Obligations.DisplayFramesAndLink
  refine ⟨fun s r hruns => ?_, fun s h => hpd_unassigned h, fun s r h hr => ?_⟩
  · refine ⟨fun w evt hw => commit_go hruns hw, fun hdue hr => commit_point hruns hdue hr,
      fun n poison a px hfetch hfail hr => layer_fetch_error hruns hfetch hfail hr, fun n px hreads hshown haddr hr => ?_,
      fun lim hnone => fetchUpTo_clean hnone, fun n hon hnew hr => ?_, fun w hw => ?_⟩
    · have hexec := underflow_first hruns (by rw [hreads, hshown, decide_eq_true haddr]; rfl) hr
      refine ⟨fun hfirst => ⟨_, hexec, ?_⟩, fun hlater => ?_⟩
      · rw [settle_dsp]
        exact underflowAt_first _ n px hfirst
      · rw [hexec, underflowAt_later _ n px hlater]
    · intro g x u e crc y
      have hexec := exec_signatureResult hruns hon hnew hr
      have hu : Fetched s u := composed_dsp r n s
      refine ⟨fun hmode hgood => ?_, fun hmode hbad => ⟨_, hexec, ?_⟩, fun hmode hl => ?_⟩
      · rw [hexec, sigResult_compared rfl hu rfl rfl hmode (decide_eq_true hgood), sigStore_compared hu]
        rfl
      · rw [settle_dsp, settle_flt]
        exact sigResult_mismatch rfl hu rfl rfl hmode hbad
      · rw [hexec, sigResult_learnt rfl hu rfl rfl hmode hl, sigStore_learnt hu]
    · show done (regWriteAt w (dspBase + 0x040) (fun s => s.modDsp fun d => { d with clearReq := true }) s) = _
      rw [regWriteAt_of_admits hw]
      rfl
  · have hsome : (dpRec s).isSome = true := by rw [h]; rfl
    obtain ⟨hrise, hkeep⟩ := hpd_rise hsome
    obtain ⟨hfall, hlow, hlost⟩ := hpd_fall hsome hr
    exact ⟨hrise, hkeep, hfall, hlow, hlost, dp_trained h hr, dp_retrained hsome hr⟩

end Sys2Proof.Machine
end

section
/-! SUPPORT. A thermal evaluation that cannot come about, and a freeze image over bytes that memory lists out of order. -/
set_option Elab.async false
namespace Sys2Proof.Machine

/-! ### The thermal loop -/

/-- Full mode with every rail's good bit set, yet VAON away: a domain is live, and no thermal evaluation comes about. -/
def vaonGoneState : State := { busyState with island := { busyState.island with vaon := false } }
/-- Every sensor reads one unit. -/
def coldTemps : Vector (BitVec 16) 14 := vrep 14 1
theorem thermalEval_without_vaon : exec (.thermalEval coldTemps) vaonGoneState = .next vaonGoneState :=
  doneIf_neg rfl vaonGoneState (thermalEval coldTemps)
/-- Refutes O56: without VAON the thermal evaluation leaves the temperatures as they were, though the domains that the
statement asks for run; it names VAON nowhere. -/
theorem not_powerLoops : ¬ Obligations.PowerLoops := by
  intro h
  obtain ⟨-, -, -, -, -, -, htherm⟩ := h vaonGoneState 0 (by decide +kernel)
  obtain ⟨t, ht, htemp, -⟩ := htherm coldTemps rfl
  rw [thermalEval_without_vaon] at ht
  obtain rfl : vaonGoneState = t := Host.Outcome.next.inj ht
  exact absurd (htemp 5 (by decide +kernel)).1 (by decide +kernel)

/-! ### The freeze image -/

/-- An image latched at installation time 0, its first bytes 0. -/
def zeroImage : FrzImage :=
  { it := 0, source := 0, late := false, holdover := false, origin := 0, tsc := 0, fbk := vrep 40 (0, false),
    axes := vrep 32 (0, 0, 0, 0, 0) }
/-- The image goes to the place at `cellAddr`; P0 has no event stream. -/
def frozenState : State :=
  { unsortedState with queues := vrep 64 {}, frz := { writing := some zeroImage, base := 0x2000000 } }
theorem emitTo_mem_of_no_queue {s : State} {p : Fin 32} (h : eventQueue s p = none) (f : Fid) (c : BitVec 8) (w : BitVec 128) :
    (emitTo p f c w s).mem = s.mem := by
  unfold emitTo
  dsimp only
  rw [h]
  dsimp only
  split <;> rfl
theorem eventQueue_disabled {s : State} (h : ∀ n, (vget s.queues n).enable = false) (p : Fin 32) : eventQueue s p = none := by
  rw [eventQueue, List.find?_eq_none]
  intro n _
  rw [h n]
  simp
/-- The end of a freeze leaves memory as it is, where P0 has no event stream. -/
theorem frzEnd_mem_of_disabled {s : State} (h : ∀ n, (vget s.queues n).enable = false) (c : BitVec 8) (m : FrzImage) :
    (frzEnd c m s).mem = s.mem := by
  unfold frzEnd
  dsimp only [say_mem]
  exact emitTo_mem_of_no_queue (s := frzResult c m.source m.late m.holdover m.it s) (eventQueue_disabled h 0) _ _ _
/-- What a write stores at its first address does not depend on the bytes after it. -/
theorem rdByte_wrBytes_first (s : State) (a : Nat) (b : Byte) (bs : List Byte) :
    rdByte (wrBytes s a (b :: bs)) a = spGet 0 (spPut 0 s.mem a b) a :=
  memPut_other a bs _ (a + 1) (.inl (Nat.lt_succ_self a))
theorem imageBytes_first (s : State) (fseq : BitVec 32) (cap : List Byte) :
    ∃ bs, imageBytes s zeroImage fseq cap = 0 :: bs := ⟨_, rfl⟩
/-- The state in which the image is written. -/
def unheldState : State := frozenState.modFrz fun f => { f with writing := none }
theorem imageWrite_frozen : imageWrite zeroImage frozenState = frzEnd 0 zeroImage
    ((wrBytes unheldState cellAddr (imageBytes unheldState zeroImage 1 (rdBytes unheldState 0 0))).modFrz fun f => { f with images := 1 }) := by
  have hheld : (ratHeld unheldState 0 0 0 || ratHeld unheldState 0 cellAddr 4096) = false := by decide +kernel
  have hcap : ratCheckRange unheldState 0 0 0 .load .plain = none := by decide +kernel
  have hpoison : poisoned unheldState 0 0 = false := by decide +kernel
  have hring : ratCheckRange unheldState 0 cellAddr 4096 .store .plain = none := by decide +kernel
  have hplace : unheldState.frz.base.toNat * 2 ^ 15 + (unheldState.frz.images + 1).toNat % 8 * 4096 = cellAddr := by decide +kernel
  have hfrom : unheldState.frz.maddr.toNat * 8 = 0 ∧ unheldState.frz.mlen.toNat = 0 := by decide +kernel
  unfold imageWrite
  dsimp only
  rw [show (frozenState.modFrz fun f => { f with writing := none }) = unheldState from rfl]
  rw [hplace, hfrom.1, hfrom.2, hheld, if_neg (by decide), hcap, hpoison]
  dsimp only
  rw [if_neg (by decide), hring, hpoison]
  have hseq : unheldState.frz.images + 1 = 1 := by decide +kernel
  rw [hseq]
  rfl
theorem freezeImage_misses_cell : rdByte (outState (exec .freezeImageWritten frozenState)) cellAddr = 1 := by
  have hexec : exec .freezeImageWritten frozenState = .next (settle (imageWrite zeroImage frozenState)) :=
    doneFrom_next (s := frozenState) rfl (imageWrite zeroImage frozenState)
  obtain ⟨bs, hbs⟩ := imageBytes_first unheldState 1 (rdBytes unheldState 0 0)
  rw [hexec, imageWrite_frozen, hbs]
  unfold outState rdByte
  dsimp only
  have hdisabled (n : Fin 64) : (vget unheldState.queues n).enable = false := by
    revert n
    decide +kernel
  rw [settle_mem, frzEnd_mem_of_disabled (by rwa [modFrz_queues, wrBytes_queues])]
  exact (rdByte_wrBytes_first unheldState cellAddr 0 bs).trans (by decide +kernel)
/-- Refutes O60: the image's first byte, 0, goes to an address that memory lists behind a greater one; it still reads 1. -/
theorem not_freezes : ¬ Obligations.Freezes := by
  intro h
  obtain ⟨-, -, himage⟩ := h frozenState
  obtain ⟨-, hwritten⟩ := himage zeroImage rfl rfl (by decide +kernel)
  obtain ⟨t, ht, -, -, -, -, -, -, hbytes⟩ := hwritten (by decide +kernel) (by decide +kernel) (by decide +kernel)
  have hcell := hbytes cellAddr
  rw [eq_outState ht, freezeImage_misses_cell] at hcell
  exact absurd hcell (by decide +kernel)

end Sys2Proof.Machine
end

section
/-! SUPPORT. The monitors: rail reports, alerts, energy shared out, ageing, calibration, pace notices, issue limits. -/
set_option Elab.async false
namespace Sys2Proof.Machine

/-! ### Folds over units -/

/-- A step that reaches only its own unit's view: after a fold over every unit, each view has taken its step once. -/
theorem foldl_view {α β : Type} {V : State → α → β} {g : State → α → State} {f : α → β → β}
    (hsame : ∀ s a, V (g s a) a = f a (V s a)) (hother : ∀ s a b, b ≠ a → V (g s a) b = V s b) (b : α) :
    ∀ (l : List α), l.Nodup → b ∈ l → ∀ s, V (l.foldl g s) b = f b (V s b) := by
  have hout : ∀ (l : List α), b ∉ l → ∀ s, V (l.foldl g s) b = V s b := by
    intro l
    induction l with
    | nil => exact fun _ s => rfl
    | cons a l ih =>
      intro hb s
      obtain ⟨hne, hl⟩ := not_or.mp (mt List.mem_cons.mpr hb)
      rw [List.foldl_cons, ih hl, hother _ _ _ hne]
  intro l
  induction l with
  | nil => exact fun _ hb => absurd hb List.not_mem_nil
  | cons a l ih =>
    intro hnodup hb s
    obtain ⟨ha, hl⟩ := List.nodup_cons.mp hnodup
    rw [List.foldl_cons]
    rcases eq_or_ne b a with rfl | hne
    · rw [hout l ha, hsame]
    · rw [ih hl ((List.mem_cons.mp hb).resolve_left hne), hother _ _ _ hne]
/-- A step that keeps a property, and for one unit brings it about. -/
theorem foldl_reaches {α : Type} {P : State → Prop} {g : State → α → State} (hkeep : ∀ s a, P s → P (g s a)) {b : α}
    (hset : ∀ s, P (g s b)) : ∀ (l : List α), b ∈ l → ∀ s, P (l.foldl g s) := by
  have hstay : ∀ (l : List α) (s : State), P s → P (l.foldl g s) := by
    intro l
    induction l with
    | nil => exact fun s h => h
    | cons a l ih => exact fun s h => ih _ (hkeep s a h)
  intro l
  induction l with
  | nil => exact fun hb => absurd hb List.not_mem_nil
  | cons a l ih =>
    intro hb s
    rcases eq_or_ne b a with rfl | hne
    · exact hstay l _ (hset s)
    · exact ih ((List.mem_cons.mp hb).resolve_left hne) _

/-! ### PMBus (R356, R368, R369) -/

@[simp] theorem pmbFail_power (n : Fin 14) (cmd : PmbCmd) (s : State) :
    (pmbFail n cmd s).power = { s.power with pmbErr := true } := by
  unfold pmbFail
  exact emit_power _ _ _ _
theorem onBus_power (l : List PmbTx) (s : State) : (onBus l s).power = { s.power with bus := (onBus l s).power.bus } := by
  unfold onBus
  split <;> rfl

section Alert
variable {status : Vector (Option (BitVec 16)) 14}

/-- One regulator's STATUS_WORD. -/
def alertStatus (status : Vector (Option (BitVec 16)) 14) (s : State) (n : Fin 14) : State :=
  match vget status n with
  | none => pmbFail n .statusWord s
  | some w => if w = 0 then s else emit islandFid 0x77 (pl 16 (pmbAddr n) + pl 18 w.toNat) s
/-- The transactions of an alert. -/
def alertReads (status : Vector (Option (BitVec 16)) 14) : List PmbTx :=
  pmbReads .statusWord (fun n => (vget status n).isSome) ++
    (allRails.filter fun n => match vget status n with | some w => w ≠ 0 | none => false).map fun n =>
      { rail := n, cmd := .clearFaults }
/-- With no rail turned off, an alert reads every STATUS_WORD and no more. -/
theorem pmbAlert_none_off (s : State) :
    pmbAlert status 0 s = allRails.foldl (alertStatus status) (onBus (alertReads status) s) := by
  have hoff (i : Nat) : (0 : BitVec 14).getLsbD i = false := BitVec.getLsbD_zero
  have hrails (t : State) : allRails.foldl (fun (s : State) (n : Fin 14) =>
      if (0 : BitVec 14).getLsbD n && s.island.enabled.getLsbD n && s.island.good.getLsbD n then railFailure n s else s) t = t :=
    List.foldl_fixed' (fun n => by rw [hoff, Bool.false_and, Bool.false_and, if_neg (by decide)]) _
  have hstep : alertStatus status = fun s n => match vget status n with
      | none => pmbFail n .statusWord s
      | some w => if w = 0 then s else emit islandFid 0x77 (pl 16 (pmbAddr n) + pl 18 w.toNat) s := rfl
  unfold pmbAlert
  dsimp only
  rewrite [hrails, hstep]
  rfl
theorem alert_unanswered {n : Fin 14} (h : vget status n = none) (s : State) : (pmbAlert status 0 s).power.pmbErr = true := by
  rw [pmbAlert_none_off]
  refine foldl_reaches (P := fun t => t.power.pmbErr = true) (b := n) (fun t m ht => ?_) (fun t => ?_) allRails
    (List.mem_finRange n) _
  · unfold alertStatus
    split
    · rw [pmbFail_power]
    · split
      · exact ht
      · rw [emit_power]; exact ht
  · rw [alertStatus, h]
    exact congrArg Power.pmbErr (pmbFail_power n .statusWord t)
theorem alert_clean (h : ∀ n, vget status n = some 0) (s : State) :
    pmbAlert status 0 s = { s with power := { s.power with bus := pmbReads .statusWord fun _ => true } } := by
  have hreads : alertReads status = pmbReads .statusWord fun _ => true := by simp [alertReads, h]
  rw [pmbAlert_none_off, hreads, List.foldl_fixed' (fun n => by rw [alertStatus, h n]; rfl)]
  rfl

end Alert

/-! ### Energy (R370 to R372) -/

/-- Whole shares of a number by weights come to no more than the number. -/
theorem shares_le {α : Type} (w : α → Nat) (c n : Nat) (l : List α) :
    (l.map fun a => w a * c / n).sum ≤ (l.map w).sum * c / n := by
  induction l with
  | nil => exact Nat.zero_le _
  | cons a l ih =>
    simp only [List.map_cons, List.sum_cons, Nat.add_mul]
    exact (Nat.add_le_add_left ih _).trans (Nat.div_add_div_le_add_div)
theorem foldl_add_eq_sum {α : Type} (w : α → Nat) (l : List α) (a : Nat) :
    l.foldl (fun a x => a + w x) a = a + (l.map w).sum := by
  induction l generalizing a with
  | nil => rfl
  | cons x l ih => rw [List.foldl_cons, ih, List.map_cons, List.sum_cons, Nat.add_assoc]
theorem ofNat_sum {α : Type} (w : α → Nat) (l : List α) :
    (l.map fun a => BitVec.ofNat 64 (w a)).sum = BitVec.ofNat 64 (l.map w).sum := by
  induction l with
  | nil => rfl
  | cons a l ih => rw [List.map_cons, List.sum_cons, ih, List.map_cons, List.sum_cons, BitVec.ofNat_add]
theorem toList_eq_map_vget {α : Type} {n : Nat} (v : Vector α n) : v.toList = (List.finRange n).map (vget v) := by
  apply List.ext_getElem
  · simp
  · intro i h1 h2
    simp [vget]


section Energy
variable {s : State} (common : BitVec 64) (parts : Vector (BitVec 64) 32)

/-- The chip's energy of the update, in µJ. -/
def chipEnergy (s : State) : BitVec 64 := BitVec.ofNat 64 (s.power.energy / 1000)
/-- The weights of the partitions and the common total. -/
def weightSum (common : BitVec 64) (parts : Vector (BitVec 64) 32) : Nat :=
  parts.toList.foldl (fun a e => a + e.toNat) common.toNat
/-- A partition's share of the chip's energy. -/
def energyShare (common : BitVec 64) (parts : Vector (BitVec 64) 32) (s : State) (p : Fin 32) : Nat :=
  if s.power.mode1 || weightSum common parts = 0 then 0 else (vget parts p).toNat * (chipEnergy s).toNat / weightSum common parts
def shareSum (common : BitVec 64) (parts : Vector (BitVec 64) 32) (s : State) : Nat :=
  ((List.finRange 32).map (energyShare common parts s)).sum
theorem energyUpdate_eq (s : State) : energyUpdate common parts s = s.modPower fun w => { w with
    energy := w.energy % 1000, etag := w.etag.bump, echip := w.echip + chipEnergy s
    ecommon := if w.mode1 then w.echip + chipEnergy s
      else w.ecommon + BitVec.ofNat 64 ((chipEnergy s).toNat - shareSum common parts s)
    epart := Vector.ofFn fun p => if w.mode1 then 0 else vget w.epart p + BitVec.ofNat 64 (energyShare common parts s p) } := by
  have hused : allParts.foldl (fun a p => a + energyShare common parts s p) 0 = shareSum common parts s := by
    rw [foldl_add_eq_sum, Nat.zero_add]
    rfl
  rw [← hused]
  rfl
theorem weightSum_eq : weightSum common parts = common.toNat + ((List.finRange 32).map fun p => (vget parts p).toNat).sum := by
  rw [weightSum, toList_eq_map_vget, List.foldl_map, foldl_add_eq_sum]
/-- The partitions' shares come to no more than the chip's energy. -/
theorem shareSum_le (s : State) : shareSum common parts s ≤ (chipEnergy s).toNat := by
  unfold shareSum energyShare
  split
  · simp
  · refine (shares_le (fun p => (vget parts p).toNat) _ _ _).trans (Nat.div_le_of_le_mul ?_)
    rw [weightSum_eq]
    exact Nat.mul_le_mul_right _ (Nat.le_add_left _ _)
/-- What the partitions and the common total take is the chip's energy. -/
theorem energy_whole (s : State) : BitVec.ofNat 64 ((chipEnergy s).toNat - shareSum common parts s) +
    ((List.finRange 32).map fun p => BitVec.ofNat 64 (energyShare common parts s p)).sum = chipEnergy s := by
  rw [ofNat_sum, ← BitVec.ofNat_add]
  show BitVec.ofNat 64 ((chipEnergy s).toNat - shareSum common parts s + shareSum common parts s) = _
  rw [Nat.sub_add_cancel (shareSum_le common parts s), BitVec.ofNat_toNat, BitVec.setWidth_eq]
theorem gain_left (a b : BitVec 64) : a + b - a = b := by bv_omega
theorem energyUpdate_mode1 (h : s.power.mode1 = true) : (energyUpdate common parts s).power.ecommon = s.power.echip + chipEnergy s ∧
    ∀ p, vget (energyUpdate common parts s).power.epart p = 0 := by
  rw [energyUpdate_eq]
  simp only [modPower_power, h, if_true]
  exact ⟨trivial, fun p => by simp [vget]⟩
theorem energyUpdate_shared (h : s.power.mode1 = false) :
    (energyUpdate common parts s).power.ecommon - s.power.ecommon =
      BitVec.ofNat 64 ((chipEnergy s).toNat - shareSum common parts s) ∧
    ∀ p, vget (energyUpdate common parts s).power.epart p - vget s.power.epart p =
      BitVec.ofNat 64 (energyShare common parts s p) := by
  rw [energyUpdate_eq]
  simp only [modPower_power, h, Bool.false_eq_true, if_false]
  refine ⟨gain_left _ _, fun p => ?_⟩
  have hget : vget (Vector.ofFn fun q => vget s.power.epart q + BitVec.ofNat 64 (energyShare common parts s q)) p =
      vget s.power.epart p + BitVec.ofNat 64 (energyShare common parts s p) := by simp [vget]
  rw [hget, gain_left]
theorem energy_update (hfull : s.island.mode = .full) (hr : s.rat.reopened = none) :
    let chip : BitVec 64 := BitVec.ofNat 64 (s.power.energy / 1000)
    ∃ t, exec (.energyUpdate common parts) s = .next t ∧
    t = settle { s with power := t.power } ∧
    t.power = { s.power with
      energy := s.power.energy % 1000, etag := s.power.etag.bump, echip := s.power.echip + chip, ecommon := t.power.ecommon, epart := t.power.epart } ∧
    (s.power.mode1 = true → t.power.ecommon = s.power.echip + chip ∧ ∀ p, vget t.power.epart p = 0) ∧
    (s.power.mode1 = false → (t.power.ecommon - s.power.ecommon) +
      ((List.finRange 32).map fun p => vget t.power.epart p - vget s.power.epart p).sum = chip) := by
  intro chip
  have hexec : exec (.energyUpdate common parts) s = .next (settle (energyUpdate common parts s)) :=
    doneIf_pos (decide_eq_true hfull) hr (energyUpdate common parts)
  refine ⟨_, hexec, ?_, ?_, fun hone => ?_, fun htwo => ?_⟩ <;> rw [settle_power]
  · rfl
  · rfl
  · exact energyUpdate_mode1 common parts hone
  · obtain ⟨hcommon, hpart⟩ := energyUpdate_shared common parts htwo
    rw [hcommon, List.map_congr_left fun p _ => hpart p]
    exact energy_whole common parts s

end Energy

/-! ### Ageing (R366, R367) -/

section Ageing
variable (d : Fin 5) (ppm : BitVec 24) (s : State)

/-- The trim after a measurement: one unit up at most. -/
def agedTrim (ppm : BitVec 24) (old : BitVec 5) : BitVec 5 :=
  if old.toNat < ceilDiv ppm.toNat 1500 && decide (old < 20) then old + 1 else old
/-- A domain after its measurement. -/
def aged (d : Fin 5) (ppm : BitVec 24) (hours : BitVec 32) (old : BitVec 5) (x : Domain) : Domain :=
  { x with trim := agedTrim ppm old, d := ppm, ageHours := hours.setWidth 24, ageTag := x.ageTag.bump,
           vout := if x.step = 0 then x.vout else bvMax x.vout (voltOf d (x.raiseTo.getD x.step) (agedTrim ppm old)) }
/-- The record of a measurement. -/
def ageRecord (d : Fin 5) (ppm : BitVec 24) (s : State) : TrimRec :=
  { domain := d, trim := agedTrim ppm (presentTrim s d), hours := s.island.hours, d := ppm }
/-- What a raised trim sends. -/
def ageNotes (d : Fin 5) (ppm : BitVec 24) (new old : BitVec 5) (s : State) : State :=
  let w := pl 16 d + pl 17 new.toNat + pl 20 ppm.toNat
  if new = old then s else
  let s := emit islandFid 0x75 w s
  if new = 20 then emit islandFid 0x76 w s else s
theorem ageMeasure_eq : ageMeasure d ppm s = ageNotes d ppm (agedTrim ppm (presentTrim s d)) (presentTrim s d)
    ((storeReq (.trim (ageRecord d ppm s)) s).modDom d (aged d ppm s.island.hours (presentTrim s d))) := rfl
theorem ageNotes_kept (new old : BitVec 5) : (ageNotes d ppm new old s).power = s.power ∧
    (ageNotes d ppm new old s).store = s.store ∧ (ageNotes d ppm new old s).island = s.island := by
  unfold ageNotes
  dsimp only
  split
  · exact ⟨rfl, rfl, rfl⟩
  · split <;> simp only [emit_power, emit_store, emit_island, and_self]
theorem ageMeasure_kept : (ageMeasure d ppm s).power =
      { s.power with dom := vmod s.power.dom d (aged d ppm s.island.hours (presentTrim s d)) } ∧
    (ageMeasure d ppm s).store = { s.store with queue := s.store.queue ++ [.trim (ageRecord d ppm s)] } ∧
    (ageMeasure d ppm s).island = s.island := by
  rw [ageMeasure_eq]
  exact ageNotes_kept d ppm _ _ _
/-- A record that the journal still holds is its domain's newest. -/
theorem newestTrim_appended {s t : State} {r : TrimRec} (h : t.store = { s.store with queue := s.store.queue ++ [.trim r] })
    (d : Fin 5) : newestTrim t d = if r.domain = d then some r else newestTrim s d := by
  unfold newestTrim
  rw [h]
  dsimp only
  rw [List.reverse_append, List.reverse_singleton]
  refine (List.find?_cons (a := r)).trans ?_
  by_cases hd : r.domain = d
  · rw [decide_eq_true hd, if_pos hd]
  · rw [decide_eq_false hd, if_neg hd]
    rfl

/-- What a measurement of a domain reads and sets. -/
def ageView (s : State) (d : Fin 5) : Domain × BitVec 5 × BitVec 32 := (vget s.power.dom d, presentTrim s d, s.island.hours)
theorem ageView_measured : ageView (ageMeasure d ppm s) d =
    (aged d ppm s.island.hours (presentTrim s d) (vget s.power.dom d), agedTrim ppm (presentTrim s d), s.island.hours) := by
  obtain ⟨hpower, hstore, hisland⟩ := ageMeasure_kept d ppm s
  have hdom : vget (ageMeasure d ppm s).power.dom d = aged d ppm s.island.hours (presentTrim s d) (vget s.power.dom d) := by
    rw [hpower]
    exact vget_vmod_same _ _ _
  have hnew : presentTrim (ageMeasure d ppm s) d = agedTrim ppm (presentTrim s d) := by
    rw [presentTrim, newestTrim_appended hstore, if_pos (show (ageRecord d ppm s).domain = d from rfl), hdom]
    exact ite_self _
  rw [ageView, hdom, hnew, hisland]
theorem ageView_other {e : Fin 5} (h : e ≠ d) : ageView (ageMeasure d ppm s) e = ageView s e := by
  obtain ⟨hpower, hstore, hisland⟩ := ageMeasure_kept d ppm s
  have hdom : vget (ageMeasure d ppm s).power.dom e = vget s.power.dom e := by
    rw [hpower]
    exact vget_vmod_other _ _ _ _ h
  have hold : presentTrim (ageMeasure d ppm s) e = presentTrim s e := by
    rw [presentTrim, newestTrim_appended hstore, if_neg (show ¬ (ageRecord d ppm s).domain = e from Ne.symm h), hdom]
    rfl
  rw [ageView, hdom, hold, hisland, ageView]
/-- Voltage commands leave the domains to the change that they follow. -/
theorem commandVolts_dom (change : State → State) : (commandVolts change s).power.dom = (change s).power.dom := by
  unfold commandVolts
  dsimp only
  rw [onBus_power]
theorem ageAll_dom (ppm : Vector (BitVec 24) 5) : vget (ageAll ppm s).power.dom d =
    aged d (vget ppm d) s.island.hours (presentTrim s d) (vget s.power.dom d) := by
  have hview : ageView (allDoms.foldl (fun s d => ageMeasure d (vget ppm d) s) s) d =
      (aged d (vget ppm d) s.island.hours (presentTrim s d) (vget s.power.dom d), agedTrim (vget ppm d) (presentTrim s d),
        s.island.hours) := foldl_view (V := ageView) (g := fun s d => ageMeasure d (vget ppm d) s)
    (f := fun d v => (aged d (vget ppm d) v.2.2 v.2.1 v.1, agedTrim (vget ppm d) v.2.1, v.2.2))
    (fun s d => ageView_measured d (vget ppm d) s) (fun s a b hne => ageView_other a (vget ppm a) s hne) d allDoms
    (List.nodup_finRange 5) (List.mem_finRange d) s
  have hdom := congrArg Prod.fst hview
  rw [ageAll, commandVolts_dom]
  exact hdom

end Ageing
theorem ageing_measured {s : State} (hfull : s.island.mode = .full) (hr : s.rat.reopened = none) (ppm : Vector (BitVec 24) 5) :
    ∃ t, exec (.ageingMeasurement ppm) s = .next t ∧ ∀ d,
      (vget t.power.dom d).d = vget ppm d ∧ (vget t.power.dom d).ageHours = s.island.hours.setWidth 24 ∧
      (vget t.power.dom d).trim = (let old := presentTrim s d
        if old.toNat < ((vget ppm d).toNat + 1499) / 1500 ∧ old < 20 then old + 1 else old) := by
  have hexec : exec (.ageingMeasurement ppm) s = .next (settle (ageAll ppm s)) :=
    doneIf_pos (decide_eq_true hfull) hr (ageAll ppm)
  refine ⟨_, hexec, fun d => ?_⟩
  rw [settle_power, ageAll_dom]
  refine ⟨rfl, rfl, ?_⟩
  unfold aged agedTrim
  dsimp only
  simp only [Bool.and_eq_true, decide_eq_true_eq]
  rfl

/-! ### Calibration (R356) -/

section Calibration
variable {pout : Vector PmbAnswer 14} {s : State}

/-- A regulator answered. -/
def answered (pout : Vector PmbAnswer 14) (n : Fin 14) : Bool := match vget pout n with | .value _ => true | _ => false
/-- A domain's gain from its regulator's answer. -/
def gainStep (pout : Vector PmbAnswer 14) (s : State) (d : Fin 5) : State :=
  match vget pout ⟨4 + d, by omega⟩ with
  | .value mw => s.modDom d fun x => { x with gain := gainOf mw x.raw x.gain }
  | _ => s
def failStep (pout : Vector PmbAnswer 14) (s : State) (n : Fin 14) : State :=
  match vget pout n with | .value _ => s | _ => pmbFail n .readPout s
/-- The reads of a calibration, before the gains. -/
def poutRead (pout : Vector PmbAnswer 14) (s : State) : State :=
  (onBus (pmbReads .readPout (answered pout)) s).modPower fun w => { w with
    pmbErr := w.pmbErr && !allRails.all (answered pout)
    railPow := Vector.ofFn fun n => match vget pout n with | .value mw => mw | _ => vget w.railPow n }
theorem pmbusCalibration_eq (s : State) :
    pmbusCalibration pout s = allRails.foldl (failStep pout) (allDoms.foldl (gainStep pout) (poutRead pout s)) := by
  have hanswered : answered pout = fun n => match vget pout n with | .value _ => true | _ => false := rfl
  have hgain : gainStep pout = fun (s : State) (d : Fin 5) => match vget pout ⟨4 + d, by omega⟩ with
      | .value mw => s.modDom d fun x => { x with gain := gainOf mw x.raw x.gain }
      | _ => s := rfl
  have hfail : failStep pout = fun (s : State) (n : Fin 14) => match vget pout n with | .value _ => s | _ => pmbFail n .readPout s := rfl
  unfold pmbusCalibration poutRead
  rewrite [hanswered, hgain, hfail]
  rfl
theorem exec_calibration (hfull : s.island.mode = .full) (hr : s.rat.reopened = none) :
    exec (.pmbusCalibration pout) s = .next (settle (pmbusCalibration pout s)) :=
  doneIf_pos (decide_eq_true hfull) hr (pmbusCalibration pout)
theorem calibration_failed {n : Fin 14} (h : ∀ mw, vget pout n ≠ .value mw) (s : State) :
    (pmbusCalibration pout s).power.pmbErr = true := by
  rw [pmbusCalibration_eq]
  refine foldl_reaches (P := fun t => t.power.pmbErr = true) (b := n) (fun t m ht => ?_) (fun t => ?_) allRails
    (List.mem_finRange n) _
  · unfold failStep
    split
    · exact ht
    · rw [pmbFail_power]
  · unfold failStep
    split
    next mw hmw => exact absurd hmw (h mw)
    next => rw [pmbFail_power]
/-- The gains reach the domains and nothing else of the power manager. -/
theorem gainSteps_power (s : State) : (allDoms.foldl (gainStep pout) s).power =
    { s.power with dom := (allDoms.foldl (gainStep pout) s).power.dom } := by
  have hstep : ∀ (l : List (Fin 5)) (s : State), (l.foldl (gainStep pout) s).power =
      { s.power with dom := (l.foldl (gainStep pout) s).power.dom } := by
    intro l
    induction l with
    | nil => exact fun s => rfl
    | cons d l ih =>
      intro s
      rw [List.foldl_cons, ih]
      unfold gainStep
      split <;> rfl
  exact hstep allDoms s
/-- A domain with its regulator's answer. -/
def withGain (pout : Vector PmbAnswer 14) (d : Fin 5) (x : Domain) : Domain :=
  match vget pout ⟨4 + d, by omega⟩ with
  | .value mw => { x with gain := gainOf mw x.raw x.gain }
  | _ => x
theorem gainStep_dom (s : State) (d : Fin 5) : (gainStep pout s d).power.dom = vmod s.power.dom d (withGain pout d) := by
  unfold gainStep withGain
  split
  · rfl
  · exact (vset_vget _ _).symm
theorem gainSteps_dom (s : State) (d : Fin 5) :
    vget (allDoms.foldl (gainStep pout) s).power.dom d = withGain pout d (vget s.power.dom d) :=
  foldl_view (V := fun s d => vget s.power.dom d) (g := gainStep pout) (f := withGain pout)
    (fun s d => by rw [gainStep_dom, vget_vmod_same]) (fun s a b hne => by rw [gainStep_dom, vget_vmod_other _ _ _ _ hne]) d
    allDoms (List.nodup_finRange 5) (List.mem_finRange d) s
theorem calibrated_all (h : ∀ n, ∃ mw, vget pout n = .value mw) (s : State) :
    pmbusCalibration pout s = allDoms.foldl (gainStep pout) (poutRead pout s) := by
  rw [pmbusCalibration_eq]
  refine List.foldl_fixed' (fun n => ?_) _
  obtain ⟨mw, hmw⟩ := h n
  rw [failStep, hmw]
theorem calibration_answered (h : ∀ n, ∃ mw, vget pout n = .value mw) (s : State) :
    (pmbusCalibration pout s).power.pmbErr = false ∧
    (∀ n mw, vget pout n = .value mw → vget (pmbusCalibration pout s).power.railPow n = mw) ∧
    ∀ (d : Fin 5) (mw : BitVec 32), vget pout ⟨4 + d, by omega⟩ = .value mw →
      (vget (pmbusCalibration pout s).power.dom d).gain = gainOf mw (vget s.power.dom d).raw (vget s.power.dom d).gain := by
  have hall : allRails.all (answered pout) = true := by
    rw [List.all_eq_true]
    intro n _
    obtain ⟨mw, hmw⟩ := h n
    rw [answered, hmw]
  have hdom : (poutRead pout s).power.dom = s.power.dom := by
    unfold poutRead
    dsimp only [modPower_power]
    rw [onBus_power]
  rw [calibrated_all h]
  refine ⟨?_, fun n mw hmw => ?_, fun d mw hmw => ?_⟩
  · rw [gainSteps_power]
    unfold poutRead
    dsimp only [modPower_power]
    rw [hall, Bool.not_true, Bool.and_false]
  · rw [gainSteps_power]
    unfold poutRead
    dsimp only [modPower_power]
    simp [vget] at hmw ⊢
    simp [hmw]
  · rw [gainSteps_dom, hdom, withGain, hmw]

end Calibration

/-! ### Pace notices (R363, R364) -/

section Pace
variable {s : State}

@[simp] theorem freeBuf_power (o : Option (Fin 16 × Fin 8)) (s : State) : (freeBuf o s).power = s.power := by
  unfold freeBuf
  split <;> rfl
@[simp] theorem pushPort_power (p : Fin 16) (e : Fin 8 × Packet × Option (Fin 16 × Fin 8)) (s : State) :
    (pushPort p e s).power = s.power := by
  unfold pushPort
  dsimp only
  split
  · exact freeBuf_power _ _
  · rfl
@[simp] theorem sendPacket_power (k : Packet) (s : State) : (sendPacket k s).power = s.power := by
  unfold sendPacket sendFrom
  split
  · rfl
  · split
    · exact freeBuf_power _ _
    · exact pushPort_power _ _ _
/-- A notice in the power manager's registers. -/
theorem paceSend_power (ends : Bool) (u : State) :
    let w := (paceSend ends u).power
    w.pacing = !ends ∧ w.paceCnt = satInc u.power.paceCnt ∧ w.lastSent = u.time.it ∧
    w.lastRatio = BitVec.ofNat 8 (paceRatio u) ∧
    w.lastUntil = if ends then u.time.it else u.time.it + BitVec.ofNat 64 (16000 * u.power.hold.toNat) := by
  intro w
  have hsent (data : List Byte) : ((pacePeers u).foldl (fun s e => sendPacket
      { ttype := 0x20, final := false, detour := false, dchip := e.1, schip := chipId s, spart := BitVec.ofNat 8 e.2,
        hops := 48, daddr := 0, cause := 0, tid := 0, stream := 0, data := data } s) u).power = u.power :=
    foldl_keep (·.power) _ (fun s e => sendPacket_power _ s) _ _
  have hw : w = { u.power with
      paceCnt := satInc u.power.paceCnt, pacing := !ends, pcause := BitVec.ofNat 2 (paceCause u),
      lastRatio := BitVec.ofNat 8 (paceRatio u), lastSent := u.time.it,
      lastUntil := if ends then u.time.it else u.time.it + BitVec.ofNat 64 (16000 * u.power.hold.toNat) } := by
    show (paceSend ends u).power = _
    unfold paceSend
    dsimp only
    rw [emit_power, modPower_power, hsent]
  rw [hw]
  exact ⟨rfl, rfl, rfl, rfl, rfl⟩
theorem exec_paceNotice (hfull : s.island.mode = .full) (hr : s.rat.reopened = none) (v : Vector (BitVec 16) 4) :
    exec (.paceNoticeSend v) s = .next (settle (paceNoticeSend v s)) :=
  doneIf_pos (decide_eq_true hfull) hr (paceNoticeSend v)
theorem pace_notice (hfull : s.island.mode = .full) (hr : s.rat.reopened = none) (v : Vector (BitVec 16) 4) :
    let u := ratioNow { s with power := { s.power with frac := v } }
    (paceDue u = false → exec (.paceNoticeSend v) s = .next (settle u)) ∧
    (paceDue u = true → paceRatio u < u.power.thresh.toNat → ∃ t, exec (.paceNoticeSend v) s = .next t ∧
      t.power.pacing = true ∧ t.power.paceCnt = satInc s.power.paceCnt ∧ t.power.lastSent = s.time.it ∧
      t.power.lastRatio = BitVec.ofNat 8 (paceRatio u) ∧
      t.power.lastUntil = s.time.it + BitVec.ofNat 64 (16000 * s.power.hold.toNat)) ∧
    (paceDue u = true → u.power.thresh.toNat ≤ paceRatio u → ∃ t, exec (.paceNoticeSend v) s = .next t ∧
      t.power.pacing = false ∧ t.power.paceCnt = satInc s.power.paceCnt) := by
  intro u
  have hexec := exec_paceNotice hfull hr v
  have hnotice : paceNoticeSend v s = if paceDue u then paceSend (decide (u.power.thresh.toNat ≤ paceRatio u)) u else u := rfl
  have hu : u.power.paceCnt = s.power.paceCnt ∧ u.time = s.time ∧ u.power.hold = s.power.hold := ⟨rfl, rfl, rfl⟩
  obtain ⟨hcount, htime, hhold⟩ := hu
  clear_value u
  refine ⟨fun hno => ?_, fun hdue hslow => ?_, fun hdue hfast => ?_⟩
  · rw [hexec, hnotice, hno]
    rfl
  · have hmore : decide (u.power.thresh.toNat ≤ paceRatio u) = false := decide_eq_false (Nat.not_le.mpr hslow)
    rw [hdue, if_pos rfl, hmore] at hnotice
    refine ⟨_, hexec, ?_⟩
    obtain ⟨hpacing, hcnt, hsent, hratio, huntil⟩ := paceSend_power false u
    rw [settle_power, hnotice, hpacing, hcnt, hsent, hratio, huntil, hcount, htime, hhold]
    exact ⟨rfl, rfl, rfl, rfl, rfl⟩
  · rw [hdue, if_pos rfl, decide_eq_true hfast] at hnotice
    refine ⟨_, hexec, ?_⟩
    obtain ⟨hpacing, hcnt, -, -, -⟩ := paceSend_power true u
    rw [settle_power, hnotice, hpacing, hcnt, hcount]
    exact ⟨rfl, rfl⟩

end Pace

/-! ### Issue limits (R360) -/

section Budget
variable {s : State} (avg : Vector (BitVec 32) 32)

/-- An issue rate by a partition's average power. -/
def issueAfter (cap a : Nat) (i : BitVec 4) : BitVec 4 :=
  if cap < a then (if 1 < i then i - 1 else i) else if a * 100 < cap * 90 then (if i < 8 then i + 1 else i) else i
/-- What a partition's evaluation reads and sets. -/
def budgetView (s : State) (p : Fin 32) : BitVec 4 × Bool × BitVec 16 :=
  (vget s.power.issue p, (vget s.parts p).assigned, vget s.power.budget p)
def budgetStep (avg : Vector (BitVec 32) 32) (p : Fin 32) (v : BitVec 4 × Bool × BitVec 16) : BitVec 4 × Bool × BitVec 16 :=
  if !v.2.1 || v.2.2 = 0xFFFF then v else (issueAfter (v.2.2.toNat * 250) (vget avg p).toNat v.1, v.2)
/-- The issue rates replaced. -/
def withIssue (v : Vector (BitVec 4) 32) (s : State) : State := { s with power := { s.power with issue := v } }
theorem withIssue_withIssue (v w : Vector (BitVec 4) 32) (s : State) : withIssue v (withIssue w s) = withIssue v s := rfl
theorem budgetPart_eq (s : State) (p : Fin 32) :
    budgetPart avg s p = withIssue (vset s.power.issue p (budgetStep avg p (budgetView s p)).1) s := by
  unfold budgetPart budgetStep budgetView
  dsimp only
  split
  · rw [vset_vget]
    rfl
  · rfl
theorem budgetView_same (s : State) (p : Fin 32) :
    budgetView (budgetPart avg s p) p = budgetStep avg p (budgetView s p) := by
  have hkeep (v : BitVec 4 × Bool × BitVec 16) : (budgetStep avg p v).2 = v.2 := by
    unfold budgetStep
    split <;> rfl
  rw [budgetPart_eq]
  refine Prod.ext (vget_vset_same _ _ _) (hkeep (budgetView s p)).symm
theorem budgetView_other (s : State) {p q : Fin 32} (h : q ≠ p) : budgetView (budgetPart avg s p) q = budgetView s q := by
  rw [budgetPart_eq]
  exact Prod.ext (vget_vset_other _ _ _ _ h) rfl
/-- The evaluation sets issue rates and nothing else. -/
theorem budget_only (l : List (Fin 32)) (s : State) : ∃ v, l.foldl (budgetPart avg) s = withIssue v s := by
  induction l generalizing s with
  | nil => exact ⟨s.power.issue, rfl⟩
  | cons p l ih =>
    obtain ⟨v, hv⟩ := ih (budgetPart avg s p)
    rw [List.foldl_cons, hv, budgetPart_eq, withIssue_withIssue]
    exact ⟨v, rfl⟩
theorem budget_issue {p : Fin 32} (hassigned : (vget s.parts p).assigned = true) (hlimit : vget s.power.budget p ≠ 0xFFFF) :
    vget (allParts.foldl (budgetPart avg) s).power.issue p =
      issueAfter ((vget s.power.budget p).toNat * 250) (vget avg p).toNat (vget s.power.issue p) := by
  have hview := foldl_view (V := budgetView) (g := budgetPart avg) (f := budgetStep avg) (budgetView_same avg)
    (fun s a b hne => budgetView_other avg s hne) p allParts (List.nodup_finRange 32) (List.mem_finRange p) s
  have hstep : budgetStep avg p (budgetView s p) = (issueAfter ((vget s.power.budget p).toNat * 250) (vget avg p).toNat
      (vget s.power.issue p), (budgetView s p).2) := by
    refine if_neg ?_
    rw [show (budgetView s p).2.1 = true from hassigned, decide_eq_false (show ¬ (budgetView s p).2.2 = 0xFFFF from hlimit)]
    decide
  generalize allParts.foldl (budgetPart avg) s = u at hview ⊢
  exact congrArg Prod.fst (hview.trans hstep)
theorem tileIssue_lane {s : State} {n : Fin 64} (h : (vget s.tiles n).lane = true) : tileIssue s n = 8 := by
  unfold tileIssue
  split
  · rw [if_pos h]
  · rfl
theorem budget_evaluated (hfull : s.island.mode = .full) (hr : s.rat.reopened = none) (htwo : s.power.mode1 = false)
    {p : Fin 32} (hassigned : (vget s.parts p).assigned = true) (hlimit : vget s.power.budget p ≠ 0xFFFF) :
    let cap := (vget s.power.budget p).toNat * 250
    let i := vget s.power.issue p
    ∃ t, exec (.budgetEval avg) s = .next t ∧ t = settle { s with power := { s.power with issue := t.power.issue } } ∧
      (cap < (vget avg p).toNat → vget t.power.issue p = if 1 < i then i - 1 else i) ∧
      ((vget avg p).toNat * 100 < cap * 90 → vget t.power.issue p = if i < 8 then i + 1 else i) ∧
      ((vget avg p).toNat ≤ cap → cap * 90 ≤ (vget avg p).toNat * 100 → vget t.power.issue p = i) ∧
      ∀ n : Fin 64, (vget s.tiles n).lane = true → tileIssue t n = 8 := by
  intro cap i
  have hexec : exec (.budgetEval avg) s = .next (settle (allParts.foldl (budgetPart avg) s)) :=
    doneIf_pos (by rw [decide_eq_true hfull, htwo]; rfl) hr fun s => allParts.foldl (budgetPart avg) s
  have hissue := budget_issue avg hassigned hlimit
  obtain ⟨v, honly⟩ := budget_only avg allParts s
  generalize allParts.foldl (budgetPart avg) s = u at hexec hissue honly
  refine ⟨_, hexec, ?_, fun hover => ?_, fun hunder => ?_, fun hlow hhigh => ?_, fun n hlane => tileIssue_lane ?_⟩
  · rw [settle_power]
    rw [honly]
    rfl
  · rw [settle_power, hissue]
    exact if_pos hover
  · rw [settle_power, hissue]
    exact (if_neg (by omega)).trans (if_pos hunder)
  · rw [settle_power, hissue]
    exact (if_neg (by omega)).trans (if_neg (by omega))
  · have htiles : (settle u).tiles = s.tiles := by
      rw [settle_tiles u]
      rw [honly]
      rfl
    exact (congrArg (fun v => (vget v n).lane) htiles).trans hlane

end Budget

/-- Settles O57. -/
theorem powerMonitors : Obligations.PowerMonitors := by
  intro s hr
  refine ⟨fun hvaon => ⟨fun mv => ?_, fun status off hnone hoff => ?_, fun status off hgood hoff => ?_⟩, fun hfull => ?_⟩
  · exact doneIf_pos hvaon hr (railMonitorReport mv)
  · obtain ⟨n, hn⟩ := hnone
    subst hoff
    have hexec : exec (.pmbAlert status 0) s = .next (settle (pmbAlert status 0 s)) := doneIf_pos hvaon hr (pmbAlert status 0)
    exact ⟨_, hexec, by rw [settle_power]; exact alert_unanswered hn s⟩
  · subst hoff
    have hexec : exec (.pmbAlert status 0) s = .next (settle (pmbAlert status 0 s)) := doneIf_pos hvaon hr (pmbAlert status 0)
    rw [hexec, alert_clean hgood]
  · refine ⟨fun common parts => energy_update common parts hfull hr, ageing_measured hfull hr, fun pout => ⟨fun hall => ?_, fun hsome => ?_⟩,
      pace_notice hfull hr, fun htwo avg p hassigned hlimit => budget_evaluated avg hfull hr htwo hassigned hlimit⟩
    · refine ⟨_, exec_calibration hfull hr, ?_⟩
      rw [settle_power]
      exact calibration_answered hall s
    · obtain ⟨n, hn⟩ := hsome
      refine ⟨_, exec_calibration hfull hr, ?_⟩
      rw [settle_power]
      exact calibration_failed hn s

end Sys2Proof.Machine
end

section
/-! SUPPORT. Resets and releases by FID: requests, what stays of a request until it is done, and what a reset leaves. -/
set_option Elab.async false
namespace Sys2Proof.Machine

/-! ### Requests (R386) -/

section Request
variable {s : State} {w : Master} {p : Fin 32} {f : Fid} {act : BitVec 2}

/-- The set's request fields. -/
def requested (f : Fid) (act : BitVec 2) (x : Part) : Part := { x with reqFid := f, reqAct := act }
/-- The state with the request's fields written. -/
def requestedState (p : Fin 32) (f : Fid) (act : BitVec 2) (s : State) : State :=
  { s with parts := vset s.parts p (requested f act (vget s.parts p)) }
theorem rstWrite_eq (s : State) : rstWrite p f act true s =
    if (vget s.parts p).reqBusy then (requestedState p f act s).modPart p fun x => { x with ign := satInc x.ign }
    else rstRequest ⟨p, by omega⟩ f act (requestedState p f act s) := by
  have hbusy : (vget (requestedState p f act s).parts p).reqBusy = (vget s.parts p).reqBusy := by
    unfold requestedState
    dsimp only
    rw [vget_vset_same]
    rfl
  rw [← hbusy]
  rfl
theorem modPart_requested (g : Part → Part) : (requestedState p f act s).modPart p g =
    { s with parts := vset s.parts p (g (requested f act (vget s.parts p))) } := by
  unfold State.modPart requestedState vmod
  dsimp only
  rw [vset_vset, vget_vset_same]
@[simp] theorem resetBegin_flt (f : Fid) (s : State) : (resetBegin f s).flt = s.flt := by
  unfold resetBegin
  split
  · exact stopWork_flt _ _ _
  · exact stopWork_flt _ _ _
  · exact stopWork_flt _ _ _
  · rfl
@[simp] theorem resetBegin_parts (f : Fid) (s : State) : (resetBegin f s).parts = s.parts := by
  unfold resetBegin
  split
  · exact stopWork_parts _ _ _
  · exact stopWork_parts _ _ _
  · exact stopWork_parts _ _ _
  · rfl
/-- A request that is accepted stands until it is done. -/
theorem rstRequest_accepted (h : rstRefusal (requestedState p f act s) ⟨p, by omega⟩ f act = none) :
    rstRequest ⟨p, by omega⟩ f act (requestedState p f act s) =
      { (if act = 0 then resetBegin f (requestedState p f act s) else requestedState p f act s) with
        parts := vset s.parts p { requested f act (vget s.parts p) with reqBusy := true },
        flt := vmod s.flt (fidSlot f) fun z => { z with busy := some (decide (act = 1), ⟨p, by omega⟩) } } := by
  have hstop : (if act = 0 then resetBegin f (requestedState p f act s) else requestedState p f act s).flt = s.flt ∧
      (if act = 0 then resetBegin f (requestedState p f act s) else requestedState p f act s).parts = (requestedState p f act s).parts := by
    split
    · exact ⟨resetBegin_flt _ _, resetBegin_parts _ _⟩
    · exact ⟨rfl, rfl⟩
  unfold rstRequest
  rw [h]
  dsimp only
  rw [dif_pos p.isLt]
  generalize (if act = 0 then resetBegin f (requestedState p f act s) else requestedState p f act s) = u at hstop
  obtain ⟨hflt, hparts⟩ := hstop
  have hset : (vmod (requestedState p f act s).parts p fun x => { x with reqBusy := true }) =
      vset s.parts p { requested f act (vget s.parts p) with reqBusy := true } := by
    unfold requestedState vmod
    dsimp only
    rw [vset_vset, vget_vset_same]
  unfold State.modPart State.modFlt
  dsimp only
  rw [hflt, hparts, hset]

end Request

/-! ### What stays of a request until it is done -/

/-- The requests in progress and the sets' result counts stay. -/
structure BusyKept (s t : State) : Prop where
  busy : ∀ i, (vget t.flt i).busy = (vget s.flt i).busy
  resTag : ∀ p, (vget t.parts p).resTag = (vget s.parts p).resTag

theorem BusyKept.of_fields {s t : State} (hf : t.flt = s.flt) (hp : t.parts = s.parts) : BusyKept s t :=
  ⟨fun i => by rw [hf], fun p => by rw [hp]⟩
theorem BusyKept.refl (s : State) : BusyKept s s := .of_fields rfl rfl
theorem BusyKept.trans {s t u : State} (h : BusyKept s t) (k : BusyKept t u) : BusyKept s u :=
  ⟨fun i => (k.busy i).trans (h.busy i), fun p => (k.resTag p).trans (h.resTag p)⟩
theorem BusyKept.of_same {s s' t : State} (k : BusyKept s' t) (hf : s'.flt = s.flt) (hp : s'.parts = s.parts) : BusyKept s t :=
  (BusyKept.of_fields hf hp).trans k
theorem BusyKept.ite {s t u : State} {c : Prop} [Decidable c] (ht : BusyKept s t) (hu : BusyKept s u) :
    BusyKept s (if c then t else u) := by split <;> assumption
theorem BusyKept.foldl {α : Type} {g : State → α → State} (h : ∀ s a, BusyKept s (g s a)) (l : List α) (s : State) :
    BusyKept s (l.foldl g s) := by
  induction l generalizing s with
  | nil => exact .refl s
  | cons a l ih => exact (h s a).trans (ih _)
theorem busyKept_modFlt {f : FltSlot → FltSlot} (hf : ∀ x, (f x).busy = x.busy) (j : Fin 1024) (s : State) :
    BusyKept s (s.modFlt j f) := by
  refine ⟨fun i => ?_, fun p => rfl⟩
  rw [modFlt_flt]
  rcases eq_or_ne i j with rfl | hne
  · rw [vget_vmod_same, hf]
  · rw [vget_vmod_other (h := hne)]
theorem busyKept_modPart {f : Part → Part} (hf : ∀ x, (f x).resTag = x.resTag) (p : Fin 32) (s : State) :
    BusyKept s (s.modPart p f) := by
  refine ⟨fun i => rfl, fun q => ?_⟩
  rw [modPart_parts]
  rcases eq_or_ne q p with rfl | hne
  · rw [vget_vmod_same, hf]
  · rw [vget_vmod_other (h := hne)]
theorem busyKept_putCause (f : Fid) (bit : Nat) (s : State) : BusyKept s (putCause f bit s) :=
  busyKept_modFlt (f := fun x => { x with a := x.a.put bit, b := x.b.put bit, stale := x.stale &&& ~~~(1#12 <<< bit) })
    (fun _ => rfl) _ s
theorem busyKept_accessError (f : Fid) (w : Bool) (c : BitVec 3) (a : Nat) (s : State) : BusyKept s (accessError f w c a s) := by
  unfold accessError
  exact .of_same (busyKept_putCause f 1 _) rfl rfl
theorem busyKept_writeRecord (n : Fin 64) (r : EvRec) (irq : Bool) (s : State) : BusyKept s (writeRecord n r irq s) := by
  unfold writeRecord
  dsimp only
  split
  · exact .of_fields rfl rfl
  · split
    · exact .of_fields rfl rfl
    · split
      · exact .of_same (busyKept_accessError _ _ _ _ _) rfl rfl
      · refine .ite (.of_same (busyKept_putCause _ _ _) rfl rfl) (.of_fields ?_ ?_) <;> split <;> simp
theorem busyKept_emitTo (p : Fin 32) (f : Fid) (c : BitVec 8) (w : BitVec 128) (s : State) : BusyKept s (emitTo p f c w s) := by
  unfold emitTo
  dsimp only
  split
  · exact busyKept_writeRecord _ _ _ _
  · exact .ite (.of_fields rfl rfl) (.of_fields rfl rfl)
theorem busyKept_emit (f : Fid) (c : BitVec 8) (w : BitVec 128) (s : State) : BusyKept s (emit f c w s) := by
  unfold emit
  split
  · exact busyKept_emitTo _ _ _ _ _
  · exact .refl s
theorem BusyKept.emit {s t : State} (h : BusyKept s t) (f : Fid) (c : BitVec 8) (w : BitVec 128) :
    BusyKept s (emit f c w t) := h.trans (busyKept_emit f c w t)
theorem BusyKept.say {s t : State} (h : BusyKept s t) (l : ULine) : BusyKept s (say l t) := h.trans (.of_fields rfl rfl)
theorem busyKept_axisTo (a : Fin 32) (new : AxState) (cause rank port : Nat) (s : State) :
    BusyKept s (axisTo a new cause rank port s) := by
  unfold axisTo
  dsimp only
  have hevent (g : Axis → Axis) (w : BitVec 128) : BusyKept s (emit (axFid a) 0x30 w (s.modAxis a g)) :=
    .of_same (busyKept_emit _ _ _ _) rfl rfl
  have hrephase (e : Fin 8) {t : State} (h : BusyKept s t) : BusyKept s (rephase e t) :=
    h.trans (.of_fields (rephase_flt e t) (rephase_parts e t))
  exact .ite (.refl s) (.ite (.ite ((hevent _ _).say _) (hevent _ _)) (hrephase _ (.ite ((hevent _ _).say _) (hevent _ _))))
theorem busyKept_safeAxis (a : Fin 32) (s : State) : BusyKept s (safeAxis a s) := .ite (.refl s) (busyKept_axisTo _ _ _ _ _ s)
theorem busyKept_freezeOnFault (c : Nat) (s : State) : BusyKept s (freezeOnFault c s) := .ite (.of_fields rfl rfl) (.refl s)
theorem busyKept_announce (f : Fid) (bit : Nat) (s : State) : BusyKept s (announce f bit s) := by
  unfold announce
  dsimp only
  refine .ite (.refl s) (BusyKept.trans ?_ (busyKept_freezeOnFault _ _))
  have hsaid (c : BitVec 8) (w : BitVec 128) (l : ULine) : BusyKept s (say l (emit f c w s)) := (busyKept_emit f c w s).say l
  exact .ite (hsaid _ _ _) ((hsaid _ _ _).trans (.of_fields (logEntry_flt _ _) (logEntry_parts _ _)))
theorem busyKept_raiseOutput (a : Fin 32) (why : Nat) (s : State) : BusyKept s (raiseOutput a why s) := by
  unfold raiseOutput
  dsimp only
  have hsafe : BusyKept s (safeAxis a ((putCause (axFid a) 10 s).modFlt (fidSlot (axFid a)) fun x =>
      { x with outWhy := x.outWhy ||| (1#5 <<< why) })) :=
    ((busyKept_putCause _ _ s).trans (busyKept_modFlt (by intro x; rfl) _ _)).trans (busyKept_safeAxis _ _)
  exact .ite (hsafe.trans (busyKept_announce _ _ _)) hsafe
theorem busyKept_stopWork (f : Fid) (run : BitVec 16) (s : State) : BusyKept s (stopWork f run s) :=
  .of_fields (stopWork_flt f run s) (stopWork_parts f run s)
theorem busyKept_fenceWork (f : Fid) (s : State) : BusyKept s (fenceWork f s) :=
  .ite ((busyKept_stopWork f _ s).trans (busyKept_safeAxis _ _)) (busyKept_stopWork f _ s)
theorem busyKept_fenceFn (f : Fid) (s : State) : BusyKept s (fenceFn f s) :=
  (busyKept_modFlt (f := fun x => { x with fence := true }) (fun _ => rfl) _ s).trans (busyKept_fenceWork f _)
theorem busyKept_fencePart (p : Fin 32) (f : Fid) (s : State) : BusyKept s (fencePart p f s) := by
  unfold fencePart
  dsimp only
  have hmarked : BusyKept s (s.modPart p fun x => { x with fenced := true, byFid := f }) := busyKept_modPart (by intro x; rfl) p s
  have hstep (t : State) (g : Fid) : BusyKept t
      (if fidType g = 4 then stopStack ⟨fidIdx g % 8, by omega⟩ p t else fenceWork g t) :=
    .ite (.of_fields (stopStack_flt _ _ _) (stopStack_parts _ _ _)) (busyKept_fenceWork g t)
  have hqueues {t : State} (h : BusyKept s t) (qs : Vector Queue 64) : BusyKept s { t with queues := qs } :=
    h.trans (.of_fields rfl rfl)
  have hsaid (l : List Fid) (qs : Vector Queue 64) := (hqueues (hmarked.trans (.foldl hstep l _)) qs).say (.fence p f)
  exact .ite (.refl s) (.ite (hsaid _ _) ((hsaid _ _).trans (busyKept_emitTo _ _ _ _ _)))
theorem busyKept_raiseShared (f : Fid) (s : State) : BusyKept s (raiseCause f 9 s) := by
  have hout (t : State) : BusyKept t (fenceOut f t) :=
    .ite ((busyKept_fenceFn f t).trans (.foldl (fun s a => busyKept_raiseOutput a 2 s) _ _)) (busyKept_fenceFn f t)
  have hhome (t : State) : BusyKept t (fenceHome f t) := by
    unfold fenceHome
    split
    · exact busyKept_fencePart _ _ _
    · exact .refl t
  have hreact (t : State) : BusyKept t (react f 9 t) := by
    rw [react_class2 rfl]
    exact (hout t).trans (hhome _)
  unfold raiseCause
  dsimp only
  have hset := (busyKept_putCause f 9 s).trans (hreact _)
  exact .ite (hset.trans (busyKept_announce _ _ _)) hset
theorem busyKept_freeBuf (o : Option (Fin 16 × Fin 8)) (s : State) : BusyKept s (freeBuf o s) := by
  unfold freeBuf; split <;> exact .of_fields rfl rfl
theorem busyKept_sendFrom (a : Option Arrival) (b : Option (Fin 16 × Fin 8)) (k : Packet) (s : State) :
    BusyKept s (sendFrom a b k s) := by
  unfold sendFrom
  refine .ite (.of_fields rfl rfl) ?_
  split
  · exact busyKept_freeBuf _ _
  · unfold pushPort
    exact .ite (.of_same (busyKept_freeBuf _ _) rfl rfl) (.of_fields rfl rfl)
theorem busyKept_timeSelect (s : State) : BusyKept s (timeSelect s) := by
  have hgm (old : BitVec 12) (had : Bool) (t : TimeBase) : BusyKept s (gmEvent old had { s with time := t }) :=
    .ite (.of_same (busyKept_emit _ _ _ _) rfl rfl) (.of_fields rfl rfl)
  unfold timeSelect
  dsimp only
  split
  · exact .ite (.of_same (busyKept_emit _ _ _ _) rfl rfl) (.of_fields rfl rfl)
  · exact .ite (.ite (hgm _ _ _) ((hgm _ _ _).emit _ _ _)) (hgm _ _ _)
theorem busyKept_reroute (s : State) : BusyKept s (reroute s) := .of_fields rfl rfl
/-- A port that is reset goes down without a LINK fault. -/
theorem busyKept_portReset (p : Fin 16) (s : State) : BusyKept s (portDown p 6 s) := by
  unfold portDown
  dsimp only
  have hforgot (f : Port → Port) : BusyKept s ((forgetBufs p s).modPort p f) := .of_fields rfl rfl
  have hsent (q : List (Fin 8 × Packet × Option (Fin 16 × Fin 8))) (f : Port → Port) : BusyKept s
      (q.foldl (fun s e => sendFrom none e.2.2 e.2.1 s) ((forgetBufs p s).modPort p f)) :=
    (hforgot f).trans (.foldl (fun s e => busyKept_sendFrom none _ _ s) _ _)
  have hdown {t : State} (h : BusyKept s t) :
      BusyKept s (timeSelect (say (.linkDown p 6) (linkEvent p 0x60 (reroute t)))) :=
    (((h.trans (busyKept_reroute t)).emit _ _ _).say _).trans (busyKept_timeSelect _)
  exact hdown (hsent _ _)

/-! ### Resets (R387) -/

theorem busyKept_axisGoHome (cause : Nat) (a : Fin 32) (s : State) : BusyKept s (axisGoHome cause a s) :=
  busyKept_axisTo _ _ _ _ _ s
theorem busyKept_dspReset (s : State) : BusyKept s (dspReset s) := by
  have hflat : BusyKept s (setFlat false 0 0 s) := .ite (.of_same (busyKept_emit _ _ _ _) rfl rfl) (.of_fields rfl rfl)
  unfold dspReset
  dsimp only
  split <;> exact hflat.trans (.of_fields rfl rfl)
theorem busyKept_resetEffect (f : Fid) (s : State) : BusyKept s (resetEffect f s) := by
  unfold resetEffect
  dsimp only
  refine BusyKept.trans (busyKept_stopWork f statusAborted s) ?_
  generalize stopWork f statusAborted s = t
  split
  case h_5 =>
    refine BusyKept.trans ?_ (.ite (.refl _) (busyKept_portReset _ _))
    exact .of_fields rfl rfl
  case h_6 => exact .of_same (.foldl (fun s a => busyKept_axisGoHome 3 a s) _ _) rfl rfl
  case h_11 => exact busyKept_dspReset _
  case h_12 => exact .ite (.of_same (busyKept_emit _ _ _ _) rfl rfl) (.refl _)
  case h_14 =>
    split
    · refine BusyKept.trans ?_ (busyKept_timeSelect _)
      split
      · exact .of_same (busyKept_emit _ _ _ _) rfl rfl
      · exact .of_fields rfl rfl
    · exact .of_fields rfl rfl
  all_goals exact .of_fields rfl rfl
theorem busyKept_resetCauses (f : Fid) (s : State) : BusyKept s (resetCauses f s) := by
  unfold resetCauses
  dsimp only
  refine (busyKept_modFlt (f := fun x => { x with stale := 0x218 }) (fun _ => rfl) _ s).trans (.foldl (fun s b => ?_) _ _)
  exact .ite (.refl s) (busyKept_modFlt (by intro x; rfl) _ s)
theorem busyKept_leaveFault (f : Fid) (prev : Nat) (s : State) : BusyKept s (leaveFault f prev s) := by
  unfold leaveFault
  dsimp only
  have hleft (w : BitVec 128) : BusyKept s (emit f 0x13 w (s.modFlt (fidSlot f) fun x => { x with fence := false })) :=
    (busyKept_modFlt (by intro x; rfl) _ s).trans (busyKept_emit _ _ _ _)
  exact .ite (.refl s) (.ite (.ite ((hleft _).trans (busyKept_axisTo _ _ _ _ _ _)) (hleft _)) (hleft _))
theorem busyKept_resetFn (f : Fid) (s : State) : BusyKept s (resetFn f s) := by
  unfold resetFn
  dsimp only
  have hreset := (busyKept_resetEffect f s).trans (busyKept_resetCauses f _)
  have hhome : BusyKept s (if fidType f = 7 then
      axisGoHome 3 ⟨fidIdx f % 32, by omega⟩ (resetCauses f (resetEffect f s)) else resetCauses f (resetEffect f s)) :=
    .ite (hreset.trans (busyKept_axisGoHome _ _ _)) hreset
  have hleft := hhome.trans (busyKept_leaveFault f (faultClass s f) _)
  exact .ite (hleft.trans (busyKept_raiseShared _ _)) hleft
theorem busyKept_releaseFn (f : Fid) (s : State) : BusyKept s (releaseFn f s) := by
  unfold releaseFn
  dsimp only
  split
  case h_1 => split <;> exact .of_fields rfl rfl
  case h_4 => exact .of_same (.foldl (fun s a => busyKept_axisGoHome 3 a s) _ _) rfl rfl
  case h_5 =>
    unfold loadFirmware
    split <;> exact .of_fields rfl rfl
  all_goals exact .of_fields rfl rfl

end Sys2Proof.Machine
end

section
/-! SUPPORT. A reset or release that is done: its result, and the function that it leaves (R387, R388). -/
set_option Elab.async false
namespace Sys2Proof.Machine

/-! ### Cores through events and fences -/

/-- A core keeps its place: held, registers, program counter and privilege stay, and a reservation is not taken. -/
structure CoreStays (c d : Core) : Prop where
  held : d.held = c.held
  x : d.x = c.x
  pc : d.pc = c.pc
  priv : d.priv = c.priv
  resv : c.resv = none → d.resv = none
theorem CoreStays.refl (c : Core) : CoreStays c c := ⟨rfl, rfl, rfl, rfl, fun h => h⟩
theorem CoreStays.trans {c d e : Core} (h : CoreStays c d) (k : CoreStays d e) : CoreStays c e :=
  ⟨k.held.trans h.held, k.x.trans h.x, k.pc.trans h.pc, k.priv.trans h.priv, fun hc => k.resv (h.resv hc)⟩
/-- Every core keeps its place. -/
structure CoresStay (s t : State) : Prop where
  core : ∀ n, CoreStays (vget s.cores n) (vget t.cores n)
theorem CoresStay.of_cores {s t : State} (h : t.cores = s.cores) : CoresStay s t := ⟨fun n => by rw [h]; exact .refl _⟩
theorem CoresStay.refl (s : State) : CoresStay s s := .of_cores rfl
theorem CoresStay.trans {s t u : State} (h : CoresStay s t) (k : CoresStay t u) : CoresStay s u :=
  ⟨fun n => (h.core n).trans (k.core n)⟩
theorem CoresStay.of_same {s s' t : State} (k : CoresStay s' t) (h : s'.cores = s.cores) : CoresStay s t :=
  (CoresStay.of_cores h).trans k
theorem CoresStay.ite {s t u : State} {c : Prop} [Decidable c] (ht : CoresStay s t) (hu : CoresStay s u) :
    CoresStay s (if c then t else u) := by split <;> assumption
theorem CoresStay.foldl {α : Type} {g : State → α → State} (h : ∀ s a, CoresStay s (g s a)) (l : List α) (s : State) :
    CoresStay s (l.foldl g s) := by
  induction l generalizing s with
  | nil => exact .refl s
  | cons a l ih => exact (h s a).trans (ih _)
theorem coreStays_snoop (cs : Vector Core 48) (a k : Nat) (n : Fin 48) : CoreStays (vget cs n) (vget (snoopWrite cs a k) n) := by
  have hrecall : CoreStays (vget cs n) (vget (recallLines cs a k) n) := by
    unfold recallLines
    split
    · exact .refl _
    · rw [vget_map]
      exact ⟨rfl, rfl, rfl, rfl, fun h => h⟩
  unfold snoopWrite
  dsimp only
  split
  · exact hrecall
  · rw [vget_map]
    refine hrecall.trans ?_
    split
    · split
      · exact ⟨rfl, rfl, rfl, rfl, fun _ => rfl⟩
      · exact .refl _
    · exact .refl _
theorem coresStay_wrBytes (a : Nat) (bs : List Byte) (s : State) : CoresStay s (wrBytes s a bs) :=
  ⟨coreStays_snoop s.cores a bs.length⟩
theorem coresStay_pendImsic (n : Fin 48) (file : Fin 9) (ident : BitVec 8) (s : State) :
    CoresStay s (pendImsic n file ident s) := by
  unfold pendImsic
  refine .ite (.refl s) ⟨fun m => ?_⟩
  rw [modCore_cores]
  rcases eq_or_ne m n with rfl | hne
  · rw [vget_vmod_same]
    exact ⟨rfl, rfl, rfl, rfl, fun h => h⟩
  · rw [vget_vmod_other (h := hne)]
    exact .refl _
theorem coresStay_sendMsi (hart file : Nat) (ident : BitVec 8) (s : State) : CoresStay s (sendMsi hart file ident s) := by
  unfold sendMsi
  split
  · exact coresStay_pendImsic _ _ _ s
  · exact .refl s
theorem coresStay_writeRecord (n : Fin 64) (r : EvRec) (irq : Bool) (s : State) : CoresStay s (writeRecord n r irq s) := by
  unfold writeRecord
  dsimp only
  split
  · exact .of_cores rfl
  · split
    · exact .of_cores rfl
    · split
      · exact .of_cores rfl
      · refine .ite (.of_cores rfl) ?_
        have hput (q : Queue → Queue) (a : Nat) (bs : List Byte) : CoresStay s ((wrBytes s a bs).modQueue n q) :=
          (coresStay_wrBytes a bs s).trans (.of_cores rfl)
        exact .ite ((hput _ _ _).trans (coresStay_sendMsi _ _ _ _)) (hput _ _ _)
theorem coresStay_emitTo (p : Fin 32) (f : Fid) (c : BitVec 8) (w : BitVec 128) (s : State) : CoresStay s (emitTo p f c w s) := by
  unfold emitTo
  dsimp only
  split
  · exact coresStay_writeRecord _ _ _ _
  · exact .ite (.of_cores rfl) (.of_cores rfl)
theorem coresStay_emit (f : Fid) (c : BitVec 8) (w : BitVec 128) (s : State) : CoresStay s (emit f c w s) := by
  unfold emit
  split
  · exact coresStay_emitTo _ _ _ _ _
  · exact .refl s
theorem CoresStay.say {s t : State} (h : CoresStay s t) (l : ULine) : CoresStay s (say l t) := h.trans (.of_cores rfl)
theorem coresStay_axisTo (a : Fin 32) (new : AxState) (cause rank port : Nat) (s : State) :
    CoresStay s (axisTo a new cause rank port s) := by
  unfold axisTo
  dsimp only
  have hevent (g : Axis → Axis) (w : BitVec 128) : CoresStay s (emit (axFid a) 0x30 w (s.modAxis a g)) :=
    .of_same (coresStay_emit _ _ _ _) rfl
  have hrephase (e : Fin 8) {t : State} (h : CoresStay s t) : CoresStay s (rephase e t) :=
    h.trans (.of_cores (rephase_cores e t))
  exact .ite (.refl s) (.ite (.ite ((hevent _ _).say _) (hevent _ _)) (hrephase _ (.ite ((hevent _ _).say _) (hevent _ _))))
theorem coresStay_safeAxis (a : Fin 32) (s : State) : CoresStay s (safeAxis a s) := .ite (.refl s) (coresStay_axisTo _ _ _ _ _ s)
theorem coresStay_announce (f : Fid) (bit : Nat) (s : State) : CoresStay s (announce f bit s) := by
  unfold announce
  dsimp only
  have hfreeze (c : Nat) (t : State) : CoresStay t (freezeOnFault c t) := .ite (.of_cores rfl) (.refl t)
  refine .ite (.refl s) (CoresStay.trans ?_ (hfreeze _ _))
  have hsaid (c : BitVec 8) (w : BitVec 128) (l : ULine) : CoresStay s (say l (emit f c w s)) := (coresStay_emit f c w s).say l
  exact .ite (hsaid _ _ _) ((hsaid _ _ _).trans (.of_cores (logEntry_cores _ _)))
theorem coresStay_fenceFn (f : Fid) (s : State) : CoresStay s (fenceFn f s) := by
  have hstop : CoresStay s (stopWork f statusAborted (s.modFlt (fidSlot f) fun x => { x with fence := true })) :=
    .of_cores (stopWork_cores _ _ _)
  exact .ite (hstop.trans (coresStay_safeAxis _ _)) hstop
theorem coresStay_fencePart (p : Fin 32) (f : Fid) (s : State) : CoresStay s (fencePart p f s) := by
  unfold fencePart
  dsimp only
  have hmarked : CoresStay s (s.modPart p fun x => { x with fenced := true, byFid := f }) := .of_cores rfl
  have hwork (t : State) (g : Fid) : CoresStay t (fenceWork g t) :=
    .ite ((CoresStay.of_cores (stopWork_cores _ _ _)).trans (coresStay_safeAxis _ _)) (.of_cores (stopWork_cores _ _ _))
  have hstep (t : State) (g : Fid) : CoresStay t
      (if fidType g = 4 then stopStack ⟨fidIdx g % 8, by omega⟩ p t else fenceWork g t) := .ite (.of_cores (stopStack_cores _ _ _)) (hwork t g)
  have hqueues {t : State} (h : CoresStay s t) (qs : Vector Queue 64) : CoresStay s { t with queues := qs } :=
    h.trans (.of_cores rfl)
  have hsaid (l : List Fid) (qs : Vector Queue 64) := (hqueues (hmarked.trans (.foldl hstep l _)) qs).say (.fence p f)
  exact .ite (.refl s) (.ite (hsaid _ _) ((hsaid _ _).trans (coresStay_emitTo _ _ _ _ _)))
/-- A core's own fence, and its partition's, leave every core's place. -/
theorem coresStay_raiseShared {f : Fid} (h : fidType f = 1) (s : State) : CoresStay s (raiseCause f 9 s) := by
  have hhome (t : State) : CoresStay t (fenceHome f t) := by
    unfold fenceHome
    split
    · exact coresStay_fencePart _ _ _
    · exact .refl t
  have hout (t : State) : CoresStay t (fenceOut f t) := by
    unfold fenceOut
    dsimp only
    rw [h, if_neg (by decide)]
    exact coresStay_fenceFn f t
  have hreact (t : State) : CoresStay t (react f 9 t) := by
    rw [react_class2 rfl]
    exact (hout t).trans (hhome _)
  unfold raiseCause
  dsimp only
  have hset : CoresStay s (react f 9 (putCause f 9 s)) := .of_same (hreact _) rfl
  exact .ite (hset.trans (coresStay_announce _ _ _)) hset


/-! ### The result (R386) -/

section Result
variable (set : Fin 33) (f : Fid) (act : BitVec 2) (code : BitVec 8) (s : State)

/-- A set's result. -/
def answeredPart (f : Fid) (act : BitVec 2) (code : BitVec 8) (x : Part) : Part :=
  { x with resFid := f, resAct := act, resCode := code, resTag := x.resTag.bump, reqBusy := false }
theorem rstResult_cases : ∃ (p : Fin 32) (w : BitVec 128) (u : State), rstResult set f act code s = emitTo p f 0x15 w u ∧
    ((∃ h : set.val < 32, u = s.modPart ⟨set, h⟩ (answeredPart f act code)) ∨ ¬ set.val < 32 ∧ u = s) := by
  unfold rstResult
  dsimp only
  by_cases h : set.val < 32
  · rw [dif_pos h]
    exact ⟨_, _, _, rfl, .inl ⟨h, rfl⟩⟩
  · rw [dif_neg h]
    exact ⟨_, _, _, rfl, .inr ⟨h, rfl⟩⟩
theorem rstResult_part {p : Fin 32} (h : set.val = p.val) :
    vget (rstResult set f act code s).parts p = answeredPart f act code (vget s.parts p) := by
  obtain ⟨q, w, u, hr, ⟨hlt, rfl⟩ | ⟨hnot, -⟩⟩ := rstResult_cases set f act code s
  · obtain rfl : p = ⟨set, hlt⟩ := Fin.ext h.symm
    rw [hr, emitTo_parts, modPart_parts, vget_vmod_same]
  · exact absurd (h ▸ p.isLt) hnot
theorem rstResult_busy (i : Fin 1024) : (vget (rstResult set f act code s).flt i).busy = (vget s.flt i).busy := by
  obtain ⟨q, w, u, hr, hu⟩ := rstResult_cases set f act code s
  have hflt : u.flt = s.flt := by
    obtain ⟨_, rfl⟩ | ⟨-, rfl⟩ := hu <;> rfl
  rw [hr, (busyKept_emitTo q f 0x15 w u).busy, hflt]
/-- The units that a reset by FID may name. -/
def unitsOf (s : State) : Vector Tile 64 × Vector Shuttle 16 × Vector Engine 8 × Vector Axis 32 :=
  (s.tiles, s.shuttle, s.trd, s.axes)
theorem rstResult_units : unitsOf (rstResult set f act code s) = unitsOf s := by
  obtain ⟨q, w, u, hr, hu⟩ := rstResult_cases set f act code s
  have hsame : unitsOf u = unitsOf s := by obtain ⟨_, rfl⟩ | ⟨-, rfl⟩ := hu <;> rfl
  rw [hr, ← hsame, unitsOf, emitTo_tiles, emitTo_shuttle, emitTo_trd, emitTo_axes, unitsOf]
theorem rstResult_cores : CoresStay s (rstResult set f act code s) := by
  obtain ⟨q, w, u, hr, hu⟩ := rstResult_cases set f act code s
  have hsame : u.cores = s.cores := by obtain ⟨_, rfl⟩ | ⟨-, rfl⟩ := hu <;> rfl
  rw [hr]
  exact .of_same (coresStay_emitTo q f 0x15 w u) hsame

end Result

/-! ### Resets of tiles, cores, engines and Shuttle groups -/

section Reset
variable {f : Fid} (s : State)

theorem resetFn_plain (hcore : fidType f ≠ 1) (haxis : fidType f ≠ 7) :
    resetFn f s = leaveFault f (faultClass s f) (resetCauses f (resetEffect f s)) := by
  unfold resetFn
  dsimp only
  rw [decide_eq_false hcore, Bool.false_and, if_neg haxis, if_neg (by decide)]
theorem resetCauses_units : unitsOf (resetCauses f s) = unitsOf s := by
  unfold resetCauses
  dsimp only
  refine foldl_keep unitsOf _ (fun t b => ?_) _ _
  split <;> rfl
theorem resetCauses_cores : (resetCauses f s).cores = s.cores := by
  unfold resetCauses
  dsimp only
  refine foldl_keep (·.cores) _ (fun t b => ?_) _ _
  split <;> rfl
theorem leaveFault_plain (h : fidType f ≠ 7) (prev : Nat) : leaveFault f prev s = s ∨
    ∃ w, leaveFault f prev s = emit f 0x13 w (s.modFlt (fidSlot f) fun x => { x with fence := false }) := by
  unfold leaveFault
  dsimp only
  rw [if_neg h]
  split
  · exact .inl rfl
  · exact .inr ⟨_, rfl⟩
theorem leaveFault_units (h : fidType f ≠ 7) (prev : Nat) : unitsOf (leaveFault f prev s) = unitsOf s := by
  obtain hs | ⟨w, hs⟩ := leaveFault_plain s h prev
  · rw [hs]
  · rw [hs, unitsOf, emit_tiles, emit_shuttle, emit_trd, emit_axes]
    rfl
theorem leaveFault_coresStay (h : fidType f ≠ 7) (prev : Nat) : CoresStay s (leaveFault f prev s) := by
  obtain hs | ⟨w, hs⟩ := leaveFault_plain s h prev
  · rw [hs]
    exact .refl s
  · rw [hs]
    exact .of_same (coresStay_emit _ _ _ _) rfl
/-- A reset of a function that is neither a core nor an axis leaves the units as its effect does. -/
theorem resetFn_units (hcore : fidType f ≠ 1) (haxis : fidType f ≠ 7) : unitsOf (resetFn f s) = unitsOf (resetEffect f s) := by
  rw [resetFn_plain s hcore haxis, leaveFault_units _ haxis, resetCauses_units]
theorem fid_tile : ∀ n : Fin 64, fidType (fidMk 2 n) = 2 ∧ fidIdx (fidMk 2 n) = n.val := by decide
theorem fid_core : ∀ n : Fin 48, fidType (fidMk 1 n) = 1 ∧ fidIdx (fidMk 1 n) = n.val := by decide
theorem fid_engine : ∀ e : Fin 8, fidType (fidMk 6 e) = 6 ∧ fidIdx (fidMk 6 e) = e.val := by decide
theorem fid_group : ∀ g : Fin 16, fidType (fidMk 3 g) = 3 ∧ fidIdx (fidMk 3 g) = g.val := by decide
/-- The index of a function among `k`. -/
theorem index_eq {k : Nat} {n : Fin k} {i : Nat} (h : i = n.val) (hlt : i % k < k) : (⟨i % k, hlt⟩ : Fin k) = n := by
  subst h
  exact Fin.ext (Nat.mod_eq_of_lt n.isLt)
theorem stopWork_tile (n : Fin 64) (run : BitVec 16) : (stopWork (fidMk 2 n) run s).tiles = vmod s.tiles n Tile.idle := by
  obtain ⟨htype, hidx⟩ := fid_tile n
  have hstop : stopWork (fidMk 2 n) run s = (abortTarget (fidMk 2 n) run s).modTile n Tile.idle := by
    unfold stopWork
    rw [htype]
    dsimp only
    rw [index_eq hidx]
    rfl
  rw [hstop, modTile_tiles, abortTarget_tiles]
/-- A tile as a reset leaves it (Table 17.7). -/
def resetTile (t : Tile) : Tile := { lane := t.lane, gate := if t.lane then 0 else 2 }
theorem resetEffect_tile (n : Fin 64) : vget (resetEffect (fidMk 2 n) s).tiles n = resetTile (vget s.tiles n) := by
  obtain ⟨htype, hidx⟩ := fid_tile n
  have htiles : (resetEffect (fidMk 2 n) s).tiles = vmod (stopWork (fidMk 2 n) statusAborted s).tiles n resetTile := by
    unfold resetEffect
    rw [htype]
    dsimp only
    rw [index_eq hidx]
    rfl
  rw [htiles, vget_vmod_same, stopWork_tile, vget_vmod_same]
  rfl
theorem resetEffect_group (g : Fin 16) : vget (resetEffect (fidMk 3 g) s).shuttle g = {} := by
  obtain ⟨htype, hidx⟩ := fid_group g
  unfold resetEffect stopWork
  dsimp only
  rw [htype]
  rw [index_eq hidx]
  simp only [modShuttle_shuttle, vget_vmod_same]
theorem resetEffect_core (n : Fin 48) : vget (resetEffect (fidMk 1 n) s).cores n =
    { released := (vget s.cores n).released, pc := (vget s.cores n).pc, x := (vget s.cores n).x, f := (vget s.cores n).f,
      v := (vget s.cores n).v } := by
  obtain ⟨htype, hidx⟩ := fid_core n
  unfold resetEffect coreReset
  dsimp only
  rw [htype]
  rw [index_eq hidx]
  simp only [modCore_cores, vget_vmod_same, stopWork_cores]
/-- A core that is reset is held, its x registers stay, and it holds no reservation. -/
theorem resetFn_core (n : Fin 48) : (vget (resetFn (fidMk 1 n) s).cores n).held = true ∧
    (vget (resetFn (fidMk 1 n) s).cores n).x = (vget s.cores n).x ∧ (vget (resetFn (fidMk 1 n) s).cores n).resv = none := by
  obtain ⟨htype, -⟩ := fid_core n
  have haxis : fidType (fidMk 1 n) ≠ 7 := by rw [htype]; decide
  have hstay : CoresStay (resetEffect (fidMk 1 n) s) (resetFn (fidMk 1 n) s) := by
    unfold resetFn
    dsimp only
    rw [if_neg haxis]
    have hleft := (CoresStay.of_cores (resetCauses_cores (f := fidMk 1 n) (resetEffect (fidMk 1 n) s))).trans
      (leaveFault_coresStay _ haxis (faultClass s (fidMk 1 n)))
    exact .ite (hleft.trans (coresStay_raiseShared htype _)) hleft
  have hcore := hstay.core n
  rw [resetEffect_core] at hcore
  exact ⟨hcore.held, hcore.x, hcore.resv rfl⟩

/-! ### Engines and their axes -/

theorem axEngine_engineAxis : ∀ (e : Fin 8) (i : Fin 4), axEngine (engineAxis e i) = e := by decide
/-- The axes of a held engine are held. -/
theorem axesHome_held (e : Fin 8) : ∀ (l : List (Fin 32)), (∀ a ∈ l, axEngine a = e) → ∀ s : State, (vget s.trd e).held = true →
    ∀ b, (b ∈ l ∨ stOf s b = .held) → stOf (l.foldl (fun s a => axisGoHome 3 a s) s) b = .held := by
  intro l
  induction l with
  | nil => exact fun _ s _ b hb => hb.resolve_left List.not_mem_nil
  | cons a l ih =>
    intro hl s hs b hb
    have hhome : axisHome s a = .held := by
      unfold axisHome
      dsimp only
      rw [hl a List.mem_cons_self, hs, Bool.or_true, if_pos rfl]
    have htrd : (axisGoHome 3 a s).trd = s.trd := axisTo_trd _ _ _ _ _ s
    have hst : stOf (axisGoHome 3 a s) b = if b = a then .held else stOf s b := by
      rw [axisGoHome, hhome]
      exact stOf_axisTo _ _ _ _ _ _ _
    rw [List.foldl_cons]
    refine ih (fun c hc => hl c (List.mem_cons_of_mem a hc)) _ (by rw [htrd]; exact hs) b ?_
    rw [hst]
    by_cases hba : b = a
    · exact .inr (if_pos hba)
    · rw [if_neg hba]
      exact hb.imp_left fun hmem => (List.mem_cons.mp hmem).resolve_left hba
theorem resetEffect_engine (e : Fin 8) : (vget (resetEffect (fidMk 6 e) s).trd e).held = true ∧
    ∀ i, stOf (resetEffect (fidMk 6 e) s) (engineAxis e i) = .held := by
  obtain ⟨htype, hidx⟩ := fid_engine e
  have heffect : resetEffect (fidMk 6 e) s = (engineAxes e).foldl (fun s a => axisGoHome 3 a s)
      ((stopWork (fidMk 6 e) statusAborted s).modTrd e fun _ => {}) := by
    unfold resetEffect
    rw [htype]
    dsimp only
    rw [index_eq hidx]
    rfl
  have hheld : (vget ((stopWork (fidMk 6 e) statusAborted s).modTrd e fun _ => {}).trd e).held = true := by
    rw [modTrd_trd, vget_vmod_same]
  rw [heffect]
  refine ⟨?_, fun i => axesHome_held e _ (fun a ha => mem_engineAxes.mp ha) _ hheld _ (.inl ?_)⟩
  · have htrd := foldl_keep (·.trd) (fun s a => axisGoHome 3 a s) (fun s a => axisTo_trd a _ 3 0 0 s) (engineAxes e)
      ((stopWork (fidMk 6 e) statusAborted s).modTrd e fun _ => {})
    rw [htrd]
    exact hheld
  · exact mem_engineAxes.mpr (axEngine_engineAxis e i)

/-! ### Releases (R116, R388) -/

theorem releaseFn_tile (n : Fin 64) : vget (releaseFn (fidMk 2 n) s).tiles n =
    { vget s.tiles n with held := false, gate := if (vget s.tiles n).lane then 0 else 1 } := by
  obtain ⟨htype, hidx⟩ := fid_tile n
  have hrelease : releaseFn (fidMk 2 n) s = s.modTile n fun t => { t with held := false, gate := if t.lane then 0 else 1 } := by
    unfold releaseFn
    rw [htype]
    dsimp only
    rw [index_eq hidx]
    rfl
  rw [hrelease, modTile_tiles, vget_vmod_same]
theorem releaseFn_group (g : Fin 16) : (vget (releaseFn (fidMk 3 g) s).shuttle g).held = false := by
  obtain ⟨htype, hidx⟩ := fid_group g
  have hrelease : releaseFn (fidMk 3 g) s = s.modShuttle g fun sh => { sh with held := false } := by
    unfold releaseFn
    rw [htype]
    dsimp only
    rw [index_eq hidx]
    rfl
  rw [hrelease, modShuttle_shuttle, vget_vmod_same]
theorem releaseFn_core {n : Fin 48} {v : BitVec 64} (h : coreVector s n = some v) : vget (releaseFn (fidMk 1 n) s).cores n =
    { vget s.cores n with held := false, released := true, pc := v, priv := .m } := by
  obtain ⟨htype, hidx⟩ := fid_core n
  have hrelease : releaseFn (fidMk 1 n) s = coreRelease n v s := by
    unfold releaseFn
    rw [htype]
    dsimp only
    rw [index_eq hidx, h]
    rfl
  rw [hrelease, coreRelease, modCore_cores, vget_vmod_same]

end Reset

/-! ### The request done -/

section Done
variable {s : State} {f : Fid} {rel : Bool} {set : Fin 33}

/-- The request is no longer in progress. -/
def unbusy (f : Fid) (s : State) : State := s.modFlt (fidSlot f) fun x => { x with busy := none }
/-- What the request does to its function. -/
def requestDone (rel : Bool) (f : Fid) (s : State) : State := if rel then releaseFn f (unbusy f s) else resetFn f (unbusy f s)
theorem exec_resetDone (hok : fidOk f = true) (hbusy : (vget s.flt (fidSlot f)).busy = some (rel, set))
    (hr : s.rat.reopened = none) :
    exec (.resetDone f) s = .next (settle (rstResult set f (if rel then 1 else 0) 0 (requestDone rel f s))) := by
  have hexec : exec (.resetDone f) s = .next (settle (resetDone f s)) :=
    doneIf_pos (by rw [hok, hbusy]; rfl) hr (resetDone f)
  rw [hexec]
  unfold resetDone
  rw [hbusy]
  rfl
theorem busyKept_requestDone : BusyKept (unbusy f s) (requestDone rel f s) :=
  .ite (busyKept_releaseFn f _) (busyKept_resetFn f _)
theorem busy_done : (vget (rstResult set f (if rel then 1 else 0) 0 (requestDone rel f s)).flt (fidSlot f)).busy = none := by
  rw [rstResult_busy, busyKept_requestDone.busy, unbusy, modFlt_flt, vget_vmod_same]
theorem result_done {p : Fin 32} (h : set.val = p.val) :
    let x := vget (rstResult set f (if rel then 1 else 0) 0 (requestDone rel f s)).parts p
    x.reqBusy = false ∧ x.resCode = 0 ∧ x.resFid = f ∧ x.resTag = (vget s.parts p).resTag.bump := by
  intro x
  have hx : x = _ := rstResult_part set f _ 0 _ h
  rw [hx]
  have htag := (busyKept_requestDone (f := f) (s := s) (rel := rel)).resTag p
  exact ⟨rfl, rfl, rfl, congrArg Tag.bump htag⟩
/-- The units after the result are those of the reset or the release. -/
theorem units_done (t : State) (act : BitVec 2) (code : BitVec 8) :
    (settle (rstResult set f act code t)).tiles = t.tiles ∧ (settle (rstResult set f act code t)).shuttle = t.shuttle ∧
    (settle (rstResult set f act code t)).trd = t.trd ∧ (settle (rstResult set f act code t)).axes = t.axes := by
  have hunits := rstResult_units set f act code t
  simp only [unitsOf, Prod.mk.injEq] at hunits
  obtain ⟨ht, hs, he, ha⟩ := hunits
  refine ⟨?_, ?_, ?_, ?_⟩
  · simpa only [settle_tiles] using ht
  · simpa only [settle_shuttle] using hs
  · simpa only [settle_trd] using he
  · simpa only [settle_axes] using ha

theorem coresStay_settle (s : State) : CoresStay s (settle s) := by
  refine ⟨fun n => ?_⟩
  obtain ⟨file, hn⟩ := (settleFrame s).2 n
  rw [hn]
  exact ⟨rfl, rfl, rfl, rfl, fun h => h⟩
theorem cores_done (t : State) (act : BitVec 2) (code : BitVec 8) : CoresStay t (settle (rstResult set f act code t)) :=
  (rstResult_cores set f act code t).trans (coresStay_settle _)
/-- What a reset leaves of the function that it names (Table 17.7). -/
theorem reset_leaves (t : State) (h : t = settle (rstResult set f 0 0 (resetFn f (unbusy f s)))) :
    (∀ n : Fin 64, f = fidMk 2 n → (vget t.tiles n).held = true ∧ (vget t.tiles n).jobs = [] ∧
      (vget t.tiles n).gate = if (vget s.tiles n).lane then 0 else 2) ∧
    (∀ n : Fin 48, f = fidMk 1 n → (vget t.cores n).held = true ∧ (vget t.cores n).x = (vget s.cores n).x ∧
      (vget t.cores n).resv = none) ∧
    (∀ e : Fin 8, f = fidMk 6 e → (vget t.trd e).held = true ∧ ∀ i, (vget t.axes (engineAxis e i)).st = .held) ∧
    (∀ g : Fin 16, f = fidMk 3 g → (vget t.shuttle g).held = true) := by
  obtain ⟨htiles, hgroups, htrd, haxes⟩ := units_done (set := set) (f := f) (resetFn f (unbusy f s)) 0 0
  rw [← h] at htiles hgroups htrd haxes
  have hunits (hcore : fidType f ≠ 1) (haxis : fidType f ≠ 7) := resetFn_units (unbusy f s) hcore haxis
  simp only [unitsOf, Prod.mk.injEq] at hunits
  refine ⟨fun n hf => ?_, fun n hf => ?_, fun e hf => ?_, fun g hf => ?_⟩ <;> subst hf
  · obtain ⟨hu, -⟩ := hunits (by rw [(fid_tile n).1]; decide) (by rw [(fid_tile n).1]; decide)
    rw [htiles, hu, resetEffect_tile]
    exact ⟨rfl, rfl, rfl⟩
  · have hstay := (cores_done (set := set) (f := fidMk 1 n) (resetFn (fidMk 1 n) (unbusy (fidMk 1 n) s)) 0 0).core n
    rw [← h] at hstay
    obtain ⟨hheld, hx, hresv⟩ := resetFn_core (unbusy (fidMk 1 n) s) n
    exact ⟨hstay.held.trans hheld, hstay.x.trans hx, hstay.resv hresv⟩
  · obtain ⟨-, -, hu, ha⟩ := hunits (by rw [(fid_engine e).1]; decide) (by rw [(fid_engine e).1]; decide)
    obtain ⟨hheld, hst⟩ := resetEffect_engine (unbusy (fidMk 6 e) s) e
    rw [htrd, haxes, hu, ha]
    exact ⟨hheld, hst⟩
  · obtain ⟨-, hu, -⟩ := hunits (by rw [(fid_group g).1]; decide) (by rw [(fid_group g).1]; decide)
    rw [hgroups, hu, resetEffect_group]
/-- What a release leaves of the function that it names. -/
theorem release_leaves (t : State) (h : t = settle (rstResult set f 1 0 (releaseFn f (unbusy f s)))) :
    (∀ n : Fin 64, f = fidMk 2 n → (vget t.tiles n).held = false ∧
      (vget t.tiles n).gate = if (vget s.tiles n).lane then 0 else 1) ∧
    (∀ n : Fin 48, f = fidMk 1 n → ∀ v, coreVector s n = some v → (vget t.cores n).held = false ∧
      (vget t.cores n).pc = v ∧ (vget t.cores n).priv = .m) ∧
    (∀ g : Fin 16, f = fidMk 3 g → (vget t.shuttle g).held = false) := by
  obtain ⟨htiles, hgroups, -, -⟩ := units_done (set := set) (f := f) (releaseFn f (unbusy f s)) 1 0
  rw [← h] at htiles hgroups
  refine ⟨fun n hf => ?_, fun n hf v hv => ?_, fun g hf => ?_⟩ <;> subst hf
  · rw [htiles, releaseFn_tile]
    exact ⟨rfl, rfl⟩
  · have hstay := (cores_done (set := set) (f := fidMk 1 n) (releaseFn (fidMk 1 n) (unbusy (fidMk 1 n) s)) 1 0).core n
    rw [← h, releaseFn_core _ (show coreVector (unbusy (fidMk 1 n) s) n = some v from hv)] at hstay
    exact ⟨hstay.held, hstay.pc, hstay.priv⟩
  · rw [hgroups, releaseFn_group]

end Done

/-! ### The obligation -/

section Requests
variable {s : State} {w : Master} {p : Fin 32} {f : Fid} {act : BitVec 2} {c : Instr}

/-- A write of the request register makes the request. -/
theorem request_done (hw : Admits w (rstBase p) s) (hc : (c, act) ∈ [(Instr.rstReset w p f, 0#2), (.rstRelease w p f, 1#2)]) :
    exec c s = .next (settle (rstWrite p f act true s)) := by
  have hmade (a : BitVec 2) : done (regWriteAt w (rstBase p) (rstWrite p f a true) s) =
      .next (settle (rstWrite p f a true s)) := by
    rw [regWriteAt_of_admits hw]
    rfl
  simp only [List.mem_cons, Prod.mk.injEq, List.not_mem_nil, or_false] at hc
  obtain ⟨rfl, rfl⟩ | ⟨rfl, rfl⟩ := hc
  · exact hmade 0
  · exact hmade 1
theorem request_cases (hw : Admits w (rstBase p) s)
    (hc : (c, act) ∈ [(Instr.rstReset w p f, 0#2), (.rstRelease w p f, 1#2)]) :
    let x := vget s.parts p
    let y := { x with reqFid := f, reqAct := act }
    let s1 := { s with parts := vset s.parts p y }
    (x.reqBusy = true → exec c s = .next (settle { s with parts := vset s.parts p { y with ign := satInc x.ign } })) ∧
    (x.reqBusy = false → rstRefusal s1 ⟨p, by omega⟩ f act = none → exec c s = .next (settle { (if act = 0 then resetBegin f s1 else s1) with
      parts := vset s.parts p { y with reqBusy := true },
      flt := vmod s.flt (fidSlot f) fun z => { z with busy := some (decide (act = 1), ⟨p, by omega⟩) } })) ∧
    (∀ code, x.reqBusy = false → rstRefusal s1 ⟨p, by omega⟩ f act = some code → ∃ t, exec c s = .next t ∧
      vget t.parts p = { y with resFid := f, resAct := act, resCode := code, resTag := x.resTag.bump } ∧
      (vget t.flt (fidSlot f)).busy = (vget s.flt (fidSlot f)).busy) := by
  intro x y s1
  have hexec := request_done hw hc
  have hwrite := rstWrite_eq (p := p) (f := f) (act := act) s
  refine ⟨fun hbusy => ?_, fun hfree haccept => ?_, fun code hfree hrefuse => ⟨_, hexec, ?_⟩⟩
  · rw [hexec, hwrite, if_pos hbusy, modPart_requested]
    rfl
  · rw [hexec, hwrite, if_neg (by rw [show (vget s.parts p).reqBusy = false from hfree]; decide), rstRequest_accepted haccept]
    rfl
  · have hmade : rstWrite p f act true s = rstResult ⟨p, by omega⟩ f act code s1 := by
      rw [hwrite, if_neg (by rw [show (vget s.parts p).reqBusy = false from hfree]; decide), rstRequest,
        show rstRefusal (requestedState p f act s) ⟨p, by omega⟩ f act = some code from hrefuse]
      rfl
    rw [hmade, settle_parts, settle_flt, rstResult_part _ _ _ _ _ rfl, rstResult_busy]
    refine ⟨?_, rfl⟩
    rw [show vget s1.parts p = y from vget_vset_same _ _ _]
    unfold answeredPart
    rw [show y.reqBusy = false from hfree]

end Requests

/-- Settles O59. -/
theorem resetAndRelease : Obligations.ResetAndRelease := by
  refine ⟨fun s w p f hw c act hc => request_cases hw hc, fun s f rel set hok hbusy hr => ?_⟩
  refine ⟨_, exec_resetDone hok hbusy hr, ?_, fun p hp => ?_, fun hreset => ?_, fun hrelease => ?_⟩
  · rw [settle_flt]
    exact busy_done
  · rw [settle_parts]
    exact result_done hp
  · subst hreset
    exact reset_leaves _ rfl
  · subst hrelease
    exact release_leaves _ rfl

end Sys2Proof.Machine
end

section
/-! SUPPORT. Both copies of a fault slot: what records and axis states leave of it, and what reactions add (R375, R379). -/
set_option Elab.async false
namespace Sys2Proof.Machine

/-! ### Growth -/

/-- Causes are added to both copies, and a fence is set, never taken away. -/
structure SlotGrows (x y : FltSlot) : Prop where
  a : ∀ b, x.a.cause.getLsbD b = true → y.a.cause.getLsbD b = true
  b : ∀ b, x.b.cause.getLsbD b = true → y.b.cause.getLsbD b = true
  fence : x.fence = true → y.fence = true
theorem SlotGrows.refl (x : FltSlot) : SlotGrows x x := ⟨fun _ h => h, fun _ h => h, fun h => h⟩
theorem SlotGrows.trans {x y z : FltSlot} (h : SlotGrows x y) (k : SlotGrows y z) : SlotGrows x z :=
  ⟨fun b hb => k.a b (h.a b hb), fun b hb => k.b b (h.b b hb), fun hf => k.fence (h.fence hf)⟩
/-- Every slot grows. -/
structure FaultsGrow (s t : State) : Prop where
  slot : ∀ i, SlotGrows (vget s.flt i) (vget t.flt i)
theorem FaultsGrow.of_flt {s t : State} (h : t.flt = s.flt) : FaultsGrow s t := ⟨fun i => by rw [h]; exact .refl _⟩
theorem FaultsGrow.refl (s : State) : FaultsGrow s s := .of_flt rfl
theorem FaultsGrow.trans {s t u : State} (h : FaultsGrow s t) (k : FaultsGrow t u) : FaultsGrow s u :=
  ⟨fun i => (h.slot i).trans (k.slot i)⟩
theorem FaultsGrow.of_same {s s' t : State} (k : FaultsGrow s' t) (h : s'.flt = s.flt) : FaultsGrow s t :=
  (FaultsGrow.of_flt h).trans k
theorem FaultsGrow.ite {s t u : State} {c : Prop} [Decidable c] (ht : FaultsGrow s t) (hu : FaultsGrow s u) :
    FaultsGrow s (if c then t else u) := by split <;> assumption
theorem FaultsGrow.foldl {α : Type} {g : State → α → State} (h : ∀ s a, FaultsGrow s (g s a)) (l : List α) (s : State) :
    FaultsGrow s (l.foldl g s) := by
  induction l generalizing s with
  | nil => exact .refl s
  | cons a l ih => exact (h s a).trans (ih _)
theorem FaultsGrow.say {s t : State} (h : FaultsGrow s t) (l : ULine) : FaultsGrow s (say l t) := h.trans (.of_flt rfl)
theorem faultsGrow_modFlt {f : FltSlot → FltSlot} (hf : ∀ x, SlotGrows x (f x)) (j : Fin 1024) (s : State) :
    FaultsGrow s (s.modFlt j f) := by
  refine ⟨fun i => ?_⟩
  rw [modFlt_flt]
  rcases eq_or_ne i j with rfl | hne
  · rw [vget_vmod_same]; exact hf _
  · rw [vget_vmod_other (h := hne)]; exact .refl _

/-! ### Records -/

/-- What records and axis states leave of a slot: its fence and its count of refusals, and every cause but those of an
access. -/
structure SlotRecorded (x y : FltSlot) : Prop where
  fence : y.fence = x.fence
  refused : y.refused = x.refused
  a : ∀ b, x.a.cause.getLsbD b = true → y.a.cause.getLsbD b = true
  b : ∀ b, x.b.cause.getLsbD b = true → y.b.cause.getLsbD b = true
  above : ∀ b, 3 ≤ b → y.a.cause.getLsbD b = x.a.cause.getLsbD b ∧ y.b.cause.getLsbD b = x.b.cause.getLsbD b
theorem SlotRecorded.refl (x : FltSlot) : SlotRecorded x x := ⟨rfl, rfl, fun _ h => h, fun _ h => h, fun _ _ => ⟨rfl, rfl⟩⟩
theorem SlotRecorded.trans {x y z : FltSlot} (h : SlotRecorded x y) (k : SlotRecorded y z) : SlotRecorded x z :=
  ⟨k.fence.trans h.fence, k.refused.trans h.refused, fun b hb => k.a b (h.a b hb), fun b hb => k.b b (h.b b hb),
    fun b hb => ⟨(k.above b hb).1.trans (h.above b hb).1, (k.above b hb).2.trans (h.above b hb).2⟩⟩
theorem SlotRecorded.grows {x y : FltSlot} (h : SlotRecorded x y) : SlotGrows x y :=
  ⟨h.a, h.b, fun hf => h.fence.trans hf⟩
/-- Only records and axis states come between. -/
structure Recorded (s t : State) : Prop where
  slot : ∀ i, SlotRecorded (vget s.flt i) (vget t.flt i)
theorem Recorded.of_flt {s t : State} (h : t.flt = s.flt) : Recorded s t := ⟨fun i => by rw [h]; exact .refl _⟩
theorem Recorded.refl (s : State) : Recorded s s := .of_flt rfl
theorem Recorded.trans {s t u : State} (h : Recorded s t) (k : Recorded t u) : Recorded s u :=
  ⟨fun i => (h.slot i).trans (k.slot i)⟩
theorem Recorded.of_same {s s' t : State} (k : Recorded s' t) (h : s'.flt = s.flt) : Recorded s t := (Recorded.of_flt h).trans k
theorem Recorded.ite {s t u : State} {c : Prop} [Decidable c] (ht : Recorded s t) (hu : Recorded s u) :
    Recorded s (if c then t else u) := by split <;> assumption
theorem Recorded.grow {s t : State} (h : Recorded s t) : FaultsGrow s t := ⟨fun i => (h.slot i).grows⟩
theorem put_above (x : FltStat) {bit b : Nat} (h : bit < 3) (hb : 3 ≤ b) : (x.put bit).cause.getLsbD b = x.cause.getLsbD b := by
  unfold FltStat.put
  split
  · rfl
  · simp only [BitVec.getLsbD_or, BitVec.getLsbD_shiftLeft, BitVec.getLsbD_one]
    have hne : ¬ b - bit = 0 := by omega
    simp [hne]
theorem recorded_putCause {bit : Nat} (h : bit < 3) (f : Fid) (s : State) : Recorded s (putCause f bit s) := by
  refine ⟨fun i => ?_⟩
  rw [putCause, modFlt_flt]
  rcases eq_or_ne i (fidSlot f) with rfl | hne
  · rw [vget_vmod_same]
    exact ⟨rfl, rfl, fun b => put_grows _ bit b, fun b => put_grows _ bit b, fun b hb => ⟨put_above _ h hb, put_above _ h hb⟩⟩
  · rw [vget_vmod_other (h := hne)]
    exact .refl _
theorem recorded_accessError (f : Fid) (w : Bool) (c : BitVec 3) (a : Nat) (s : State) : Recorded s (accessError f w c a s) := by
  unfold accessError
  exact .of_same (recorded_putCause (by decide) f _) rfl
theorem recorded_writeRecord (n : Fin 64) (r : EvRec) (irq : Bool) (s : State) : Recorded s (writeRecord n r irq s) := by
  unfold writeRecord
  dsimp only
  split
  · exact .of_flt rfl
  · split
    · exact .of_flt rfl
    · split
      · exact .of_same (recorded_accessError _ _ _ _ _) rfl
      · refine .ite (.of_same (recorded_putCause (by decide) _ _) rfl) (.of_flt ?_)
        split <;> simp
theorem recorded_emitTo (p : Fin 32) (f : Fid) (c : BitVec 8) (w : BitVec 128) (s : State) : Recorded s (emitTo p f c w s) := by
  unfold emitTo
  dsimp only
  split
  · exact recorded_writeRecord _ _ _ _
  · exact .ite (.of_flt rfl) (.of_flt rfl)
theorem recorded_emit (f : Fid) (c : BitVec 8) (w : BitVec 128) (s : State) : Recorded s (emit f c w s) := by
  unfold emit
  split
  · exact recorded_emitTo _ _ _ _ _
  · exact .refl s
theorem Recorded.say {s t : State} (h : Recorded s t) (l : ULine) : Recorded s (say l t) := h.trans (.of_flt rfl)
theorem recorded_axisTo (a : Fin 32) (new : AxState) (cause rank port : Nat) (s : State) :
    Recorded s (axisTo a new cause rank port s) := by
  unfold axisTo
  dsimp only
  have hevent (g : Axis → Axis) (w : BitVec 128) : Recorded s (emit (axFid a) 0x30 w (s.modAxis a g)) :=
    .of_same (recorded_emit _ _ _ _) rfl
  have hrephase (e : Fin 8) {t : State} (h : Recorded s t) : Recorded s (rephase e t) := h.trans (.of_flt (rephase_flt e t))
  exact .ite (.refl s) (.ite (.ite ((hevent _ _).say _) (hevent _ _)) (hrephase _ (.ite ((hevent _ _).say _) (hevent _ _))))
theorem recorded_safeAxis (a : Fin 32) (s : State) : Recorded s (safeAxis a s) := .ite (.refl s) (recorded_axisTo _ _ _ _ _ s)
theorem recorded_announce (f : Fid) (bit : Nat) (s : State) : Recorded s (announce f bit s) := by
  unfold announce
  dsimp only
  have hfreeze (c : Nat) (t : State) : Recorded t (freezeOnFault c t) := .ite (.of_flt rfl) (.refl t)
  refine .ite (.refl s) (Recorded.trans ?_ (hfreeze _ _))
  have hsaid (c : BitVec 8) (w : BitVec 128) (l : ULine) : Recorded s (say l (emit f c w s)) := (recorded_emit f c w s).say l
  exact .ite (hsaid _ _ _) ((hsaid _ _ _).trans (.of_flt (logEntry_flt _ _)))

/-! ### Reactions (Table 17.2) -/

theorem faultsGrow_putCause (f : Fid) (bit : Nat) (s : State) : FaultsGrow s (putCause f bit s) :=
  faultsGrow_modFlt (by intro x; exact ⟨fun b => put_grows x.a bit b, fun b => put_grows x.b bit b, fun h => h⟩) _ s
theorem faultsGrow_raiseOutput (a : Fin 32) (why : Nat) (s : State) : FaultsGrow (putCause (axFid a) 10 s) (raiseOutput a why s) := by
  unfold raiseOutput
  dsimp only
  generalize putCause (axFid a) 10 s = t
  have hsafe : FaultsGrow t (safeAxis a (t.modFlt (fidSlot (axFid a)) fun x => { x with outWhy := x.outWhy ||| (1#5 <<< why) })) :=
    (faultsGrow_modFlt (by intro x; exact ⟨fun _ h => h, fun _ h => h, fun h => h⟩) _ t).trans (recorded_safeAxis _ _).grow
  exact .ite (hsafe.trans (recorded_announce _ _ _).grow) hsafe
theorem faultsGrow_outputs (l : List (Fin 32)) (why : Nat) (s : State) :
    FaultsGrow s (l.foldl (fun s a => raiseOutput a why s) s) :=
  .foldl (fun s a => (faultsGrow_putCause _ 10 s).trans (faultsGrow_raiseOutput a why s)) l s
theorem recorded_fenceWork (f : Fid) (s : State) : Recorded s (fenceWork f s) := by
  have hstop : Recorded s (stopWork f statusAborted s) := .of_flt (stopWork_flt _ _ _)
  exact .ite (hstop.trans (recorded_safeAxis _ _)) hstop
theorem faultsGrow_fenceFn (f : Fid) (s : State) : FaultsGrow s (fenceFn f s) :=
  (faultsGrow_modFlt (f := fun x => { x with fence := true }) (by intro x; exact ⟨fun _ h => h, fun _ h => h, fun _ => rfl⟩)
    (fidSlot f) s).trans (recorded_fenceWork f _).grow
theorem fence_fenceFn (f : Fid) (s : State) : (vget (fenceFn f s).flt (fidSlot f)).fence = true := by
  refine ((recorded_fenceWork f (s.modFlt (fidSlot f) fun x => { x with fence := true })).slot (fidSlot f)).fence.trans ?_
  rw [modFlt_flt, vget_vmod_same]
theorem faultsGrow_fencePart (p : Fin 32) (f : Fid) (s : State) : FaultsGrow s (fencePart p f s) := by
  unfold fencePart
  dsimp only
  have hmarked : FaultsGrow s (s.modPart p fun x => { x with fenced := true, byFid := f }) := .of_flt rfl
  have hstep (t : State) (g : Fid) : FaultsGrow t
      (if fidType g = 4 then stopStack ⟨fidIdx g % 8, by omega⟩ p t else fenceWork g t) :=
    .ite (.of_flt (stopStack_flt _ _ _)) (recorded_fenceWork g t).grow
  have hqueues {t : State} (h : FaultsGrow s t) (qs : Vector Queue 64) : FaultsGrow s { t with queues := qs } :=
    h.trans (.of_flt rfl)
  have hsaid (l : List Fid) (qs : Vector Queue 64) := (hqueues (hmarked.trans (.foldl hstep l _)) qs).say (.fence p f)
  exact .ite (.refl s) (.ite (hsaid _ _) ((hsaid _ _).trans (recorded_emitTo _ _ _ _ _).grow))
theorem faultsGrow_safeAxes (l : List (Fin 32)) (s : State) : FaultsGrow s (l.foldl (fun s a => safeAxis a s) s) :=
  .foldl (fun s a => (recorded_safeAxis a s).grow) l s

/-- A critical drop makes every axis safe; what it drops besides is the island's. -/
theorem criticalDrop_kept (s : State) :
    (criticalDrop s).flt = ((List.finRange 32).foldl (fun s a => safeAxis a s) s).flt ∧
    (criticalDrop s).axes = ((List.finRange 32).foldl (fun s a => safeAxis a s) s).axes := by
  unfold criticalDrop
  dsimp only
  generalize (List.finRange 32).foldl (fun s a => safeAxis a s) s = t
  split
  · exact ⟨rfl, rfl⟩
  · exact ⟨rfl, rfl⟩
  · exact ⟨rfl, rfl⟩
  · split <;> exact ⟨rfl, rfl⟩
theorem criticalDrop_safe (s : State) (a : Fin 32) : stOf (criticalDrop s) a = .safe ∨ stOf (criticalDrop s) a = .held := by
  rw [stOf_congr (criticalDrop_kept s).2, stOf_foldl_safe (P := (· ≠ .held)) fun s a b => stOf_safeAxis a b s]
  by_cases h : stOf s a = .held <;> simp [h]
/-- A reaction adds causes and fences. -/
theorem faultsGrow_react (f : Fid) (bit : Nat) (s : State) : FaultsGrow s (react f bit s) := by
  unfold react
  dsimp only
  have hout (t : State) (h : FaultsGrow s t) : FaultsGrow s (if fidType f = 6 then
      (assignedAxes t ⟨fidIdx f % 8, by omega⟩).foldl (fun s a => raiseOutput a 2 s) t else t) :=
    .ite (h.trans (faultsGrow_outputs _ 2 t)) h
  split
  · exact .refl s
  · exact hout _ (faultsGrow_fenceFn f s)
  · split
    · exact (hout _ (faultsGrow_fenceFn f s)).trans (faultsGrow_fencePart _ _ _)
    · exact hout _ (faultsGrow_fenceFn f s)
  · split
    · exact (faultsGrow_fenceFn f s).trans (faultsGrow_outputs _ 2 _)
    · exact (recorded_safeAxis _ _).grow
    · exact faultsGrow_outputs _ _ _
    · exact faultsGrow_fenceFn f s
    · exact .refl s
  · exact (faultsGrow_safeAxes _ s).trans (.of_flt (criticalDrop_kept s).1)

/-! ### What a reaction reaches -/

section Reached
variable {f : Fid} {bit : Nat} (s : State)

theorem react_fences (h : causeClass f bit = 1) : (vget (react f bit s).flt (fidSlot f)).fence = true := by
  unfold react
  rw [h]
  have hgrow : FaultsGrow (fenceFn f s) (if fidType f = 6 then
      (assignedAxes (fenceFn f s) ⟨fidIdx f % 8, by omega⟩).foldl (fun s a => raiseOutput a 2 s) (fenceFn f s) else fenceFn f s) :=
    .ite (faultsGrow_outputs _ 2 _) (.refl _)
  exact (hgrow.slot _).fence (fence_fenceFn f s)
theorem partOf_congr {s t : State} (h : t.parts = s.parts) (f : Fid) : partOf t f = partOf s f := by
  rw [partOf, h, partOf]
theorem react_fencesPart (h : causeClass f bit = 2) {p : Fin 32} (hp : partOf s f = some p) :
    (vget (react f bit s).parts p).fenced = true := by
  have hparts : (fenceOut f s).parts = s.parts := by
    unfold fenceOut
    dsimp only
    split
    · exact (foldl_keep (·.parts) _ (fun s a => raiseOutput_parts a 2 s) _ _).trans (fenceFn_parts f s)
    · exact fenceFn_parts f s
  rw [react_class2 h, fenceHome, partOf_congr hparts, hp]
  exact (islandFrame_fencePart p f (fenceOut f s)).2
theorem react_safe (h : causeClass f bit = 3) (htype : fidType f = 7) {a : Fin 32} (ha : a.val = fidIdx f) :
    stOf (react f bit s) a = .safe ∨ stOf (react f bit s) a = .held := by
  have hreact : react f bit s = safeAxis a s := by
    unfold react
    rw [h, htype]
    dsimp only
    rw [index_eq (n := a) ha.symm]
    rfl
  rw [hreact, stOf_safeAxis]
  by_cases hh : stOf s a = .held <;> simp [hh]
theorem react_critical (h : causeClass f bit = 4) (a : Fin 32) :
    stOf (react f bit s) a = .safe ∨ stOf (react f bit s) a = .held := by
  have hreact : react f bit s = criticalDrop s := by
    unfold react
    rw [h]
    rfl
  rw [hreact]
  exact criticalDrop_safe s a

end Reached

end Sys2Proof.Machine
end

section
/-! SUPPORT. Causes detected, cleared and refused, and a partition that reopens (R375 to R385). -/
set_option Elab.async false
namespace Sys2Proof.Machine

/-! ### Detected causes (R375) -/

section Detected
variable {s u : State} {f : Fid} {bit : Nat}

/-- A cause stands in both copies, with its class's reaction. -/
structure CauseTaken (s t : State) (f : Fid) (bit : Nat) : Prop where
  a : (vget t.flt (fidSlot f)).a.cause.getLsbD bit = true
  b : (vget t.flt (fidSlot f)).b.cause.getLsbD bit = true
  fence : causeClass f bit = 1 → (vget t.flt (fidSlot f)).fence = true
  part : causeClass f bit = 2 → ∀ p, partOf s f = some p → (vget t.parts p).fenced = true
  axis : causeClass f bit = 3 → fidType f = 7 → ∀ a : Fin 32, a.val = fidIdx f → stOf t a = .safe ∨ stOf t a = .held
  axes : causeClass f bit = 4 → ∀ a, stOf t a = .safe ∨ stOf t a = .held
/-- What only records leaves a cause taken. -/
theorem CauseTaken.recorded {t v : State} (h : CauseTaken s t f bit) (hflt : Recorded t v) (haxes : v.axes = t.axes)
    (hparts : v.parts = t.parts) : CauseTaken s v f bit := by
  obtain ⟨ha, hb, hfence, hpart, haxis, hall⟩ := h
  have hslot := hflt.slot (fidSlot f)
  refine ⟨hslot.a bit ha, hslot.b bit hb, fun hc => hslot.fence.trans (hfence hc), fun hc p hp => ?_, fun hc ht a hi => ?_,
    fun hc a => ?_⟩
  · rw [hparts]
    exact hpart hc p hp
  · rw [stOf_congr haxes]
    exact haxis hc ht a hi
  · rw [stOf_congr haxes]
    exact hall hc a
theorem CauseTaken.settled {t : State} (h : CauseTaken s t f bit) : CauseTaken s (settle t) f bit :=
  h.recorded (.of_flt (settle_flt t)) (settle_axes t) (settle_parts t)
theorem putCause_both (h : bit < 12) (f : Fid) (s : State) :
    (vget (putCause f bit s).flt (fidSlot f)).a.cause.getLsbD bit = true ∧
    (vget (putCause f bit s).flt (fidSlot f)).b.cause.getLsbD bit = true := by
  rw [putCause, modFlt_flt, vget_vmod_same]
  exact ⟨put_sets _ h, put_sets _ h⟩
/-- A raised cause is taken. -/
theorem causeTaken_raise (h : bit < 12) (hpart : partOf u f = partOf s f) : CauseTaken s (raiseCause f bit u) f bit := by
  obtain ⟨ha, hb⟩ := putCause_both h f u
  have hgrow := (faultsGrow_react f bit (putCause f bit u)).slot (fidSlot f)
  have hreact : CauseTaken s (react f bit (putCause f bit u)) f bit :=
    ⟨hgrow.a bit ha, hgrow.b bit hb, fun hc => react_fences _ hc,
      fun hc p hp => react_fencesPart _ hc ((partOf_congr rfl f).trans (hpart.trans hp)), fun hc ht a hi => react_safe _ hc ht hi,
      fun hc a => react_critical _ hc a⟩
  unfold raiseCause
  dsimp only
  split
  · exact hreact.recorded (recorded_announce _ _ _) (announce_axes _ _ _) (announce_parts _ _ _)
  · exact hreact
theorem axFid_index (hok : fidOk f = true) (htype : fidType f = 7) : axFid ⟨fidIdx f % 32, by omega⟩ = f := by
  have hidx : fidIdx f < 32 := by
    have := of_decide_eq_true hok
    rwa [htype] at this
  unfold axFid fidMk
  apply BitVec.eq_of_toNat_eq
  rw [BitVec.toNat_ofNat]
  unfold fidType at htype
  unfold fidIdx at hidx ⊢
  dsimp only
  omega
/-- OUTPUT raised on an axis is taken there. -/
theorem causeTaken_output (hok : fidOk f = true) (htype : fidType f = 7) (why : Nat) :
    CauseTaken s (raiseOutput ⟨fidIdx f % 32, by omega⟩ why s) f 10 := by
  have hfid := axFid_index hok htype
  have hthree : causeClass f 10 = 3 := rfl
  have hgrow := (faultsGrow_raiseOutput ⟨fidIdx f % 32, by omega⟩ why s).slot (fidSlot f)
  rw [hfid] at hgrow
  obtain ⟨ha, hb⟩ := putCause_both (bit := 10) (by decide) f s
  refine ⟨hgrow.a 10 ha, hgrow.b 10 hb, fun hc => ?_, fun hc => ?_, fun _ _ a hi => ?_, fun hc => ?_⟩
  · exact absurd (hthree.symm.trans hc) (by decide)
  · exact absurd (hthree.symm.trans hc) (by decide)
  · rw [stOf_raiseOutput, index_eq (n := a) hi.symm]
    by_cases hh : stOf s a = .held <;> simp [hh]
  · exact absurd (hthree.symm.trans hc) (by decide)
theorem fault_detected (hok : fidOk f = true) (hpower : powered s f = true) (hr : s.rat.reopened = none) {n : Fin 12}
    (hon : causeOn f n = true) : exec (.faultDetected f n) s = .next (settle (faultDetected f n s)) :=
  doneIf_pos (by rw [hok, hpower, hon]; rfl) hr (faultDetected f n)
theorem causeTaken_detected (hok : fidOk f = true) {n : Fin 12} (hn : n ≠ 0) : CauseTaken s (faultDetected f n s) f n := by
  have hne : ¬ n.val = 0 := fun h => hn (Fin.ext h)
  unfold faultDetected
  rw [if_neg hne]
  split
  next hout =>
    obtain ⟨hten, htype⟩ := Bool.and_eq_true _ _ ▸ hout
    rw [of_decide_eq_true hten]
    exact causeTaken_output hok (of_decide_eq_true htype) 4
  next => exact causeTaken_raise n.isLt rfl
/-- CORR sets its bit and counts, with no reaction. -/
theorem corr_detected : (vget (raiseCorr f s).flt (fidSlot f)).a.cause.getLsbD 0 = true ∧
    (vget (raiseCorr f s).flt (fidSlot f)).corr = satInc (vget s.flt (fidSlot f)).corr ∧
    (vget (raiseCorr f s).flt (fidSlot f)).fence = (vget s.flt (fidSlot f)).fence ∧ (raiseCorr f s).axes = s.axes := by
  refine ⟨(putCause_both (by decide) f _).1, ?_, ?_, rfl⟩ <;>
  · rw [raiseCorr, putCause, modFlt_flt, vget_vmod_same, modFlt_flt, vget_vmod_same]
/-- The second copy flips. -/
def flipped (f : Fid) (flip : BitVec 12) (s : State) : State :=
  s.modFlt (fidSlot f) fun x => { x with b := { x.b with cause := x.b.cause ^^^ flip } }
theorem dupMismatch_raises {flip : BitVec 12} (hsame : (vget s.flt (fidSlot f)).a.cause = (vget s.flt (fidSlot f)).b.cause)
    (hflip : flip ≠ 0) : dupMismatch f flip s = raiseCause f 7 (flipped f flip s) := by
  have hslot : vget (flipped f flip s).flt (fidSlot f) = { vget s.flt (fidSlot f) with
      b := { (vget s.flt (fidSlot f)).b with cause := (vget s.flt (fidSlot f)).b.cause ^^^ flip } } := vget_vmod_same _ _ _
  have hdiff : (vget (flipped f flip s).flt (fidSlot f)).a.cause ≠ (vget (flipped f flip s).flt (fidSlot f)).b.cause := by
    rw [hslot]
    dsimp only
    rw [hsame]
    intro h
    refine hflip ?_
    have hx := congrArg ((vget s.flt (fidSlot f)).b.cause ^^^ ·) h
    simpa [← BitVec.xor_assoc] using hx.symm
  exact if_neg hdiff

end Detected

/-! ### Clears (R383, R384) -/

section Classes
variable {f : Fid}

/-- A fold of maxima over chosen numbers reaches 1 as soon as one chosen number does. -/
theorem one_le_foldl_max (p : Nat → Bool) (c : Nat → Nat) (l : List Nat) (a : Nat) :
    1 ≤ l.foldl (fun a b => if p b then max a (c b) else a) a ↔ 1 ≤ a ∨ ∃ b ∈ l, p b = true ∧ 1 ≤ c b := by
  induction l generalizing a with
  | nil => simp
  | cons x l ih =>
    rw [List.foldl_cons, ih]
    cases hx : p x
    · simp [hx]
    · simp [hx, or_assoc]
theorem one_le_maskClass {m : BitVec 12} : 1 ≤ maskClass f m ↔ ∃ b, b < 12 ∧ m.getLsbD b = true ∧ 1 ≤ causeClass f b := by
  rw [maskClass, one_le_foldl_max]
  simp
theorem one_le_faultClass {s : State} : 1 ≤ faultClass s f ↔
    (∃ b, b < 12 ∧ (vget s.flt (fidSlot f)).a.cause.getLsbD b = true ∧ 1 ≤ causeClass f b) ∨ partFenced s f = true := by
  rw [faultClass, le_max_iff, one_le_maskClass]
  cases partFenced s f <;> simp
theorem partFenced_congr {s t : State} (h : t.parts = s.parts) : partFenced t f = partFenced s f := by
  rw [partFenced, partOf_congr h, h, partFenced]
/-- Causes of class 0 are the lowest. -/
theorem causeClass_low {b : Nat} (h : b < 3) : causeClass f b = 0 := by
  interval_cases b <;> rfl

end Classes

section Leave
variable {s : State} {f : Fid}

/-- A function that is not in the fault state, or that stays in it, leaves nothing. -/
theorem leaveFault_stays {prev : Nat} (h : 1 ≤ prev → 1 ≤ faultClass s f) : leaveFault f prev s = s := by
  unfold leaveFault
  refine if_pos ?_
  cases hprev : prev with
  | zero => rfl
  | succ k =>
    have hfaulted : faulted s f = true := decide_eq_true (h (by omega))
    rw [hfaulted, Bool.or_true]
/-- A function that leaves the fault state: its fence opens, and an axis in its safe state is disabled. -/
theorem leaveFault_leaves {prev : Nat} (h : 1 ≤ prev) (hnone : faultClass s f = 0) :
    Recorded (s.modFlt (fidSlot f) fun x => { x with fence := false }) (leaveFault f prev s) ∧
    (fidType f = 7 → ∀ a : Fin 32, a.val = fidIdx f → stOf s a = .safe → stOf (leaveFault f prev s) a = .disabled) := by
  have hgo : ¬ (decide (prev = 0) || faulted s f) = true := by
    rw [faulted, hnone, decide_eq_false (by omega : ¬ prev = 0)]
    decide
  unfold leaveFault
  rw [if_neg hgo]
  dsimp only
  have hleft (w : BitVec 128) : Recorded (s.modFlt (fidSlot f) fun x => { x with fence := false })
      (emit f 0x13 w (s.modFlt (fidSlot f) fun x => { x with fence := false })) := recorded_emit _ _ _ _
  refine ⟨.ite (.ite ((hleft _).trans (recorded_axisTo _ _ _ _ _ _)) (hleft _)) (hleft _), fun htype a ha hsafe => ?_⟩
  rw [if_pos htype, index_eq (n := a) ha.symm, emit_axes, if_pos (by exact hsafe), stOf_axisTo, if_pos rfl]

end Leave

section Clear
variable {s : State} {f : Fid} {bit : Fin 12}

/-- A write of one bit clears, or refuses, that cause alone. -/
theorem clearCauses_one : clearCauses f (1#12 <<< bit.val) s = leaveFault f (faultClass s f) (clearOne f bit s) := by
  unfold clearCauses
  dsimp only
  have hmask (b : Nat) : (1#12 <<< bit.val).getLsbD b = true ↔ b = bit.val := by
    have := bit.isLt
    simp only [BitVec.getLsbD_shiftLeft, BitVec.getLsbD_one]
    by_cases hb : b = bit.val
    · subst hb; simp [this]
    · have hne : ¬ (bit.val ≤ b ∧ b - bit.val = 0) := by omega
      simp only [hb, iff_false, Bool.not_eq_true]
      by_cases hle : b < bit.val
      · simp [hle]
      · simp [show ¬ b - bit.val = 0 by omega]
  rw [foldl_only (a := bit.val) (fun t b hb => if_neg (fun h => hb ((hmask b).mp h))) _ List.nodup_range,
    if_pos (List.mem_range.mpr bit.isLt), if_pos ((hmask _).mpr rfl)]
/-- A cause whose condition persists is kept, and the refusal counted. -/
theorem clearOne_refused (hset : (vget s.flt (fidSlot f)).a.cause.getLsbD bit = true) (hpersists : persists s f bit = true) :
    Recorded (s.modFlt (fidSlot f) fun x => { x with refused := satInc x.refused }) (clearOne f bit s) ∧
    (clearOne f bit s).parts = s.parts := by
  unfold clearOne
  rw [hset, Bool.not_true, Bool.false_and, if_neg (by decide), if_pos hpersists]
  exact ⟨recorded_emit _ _ _ _, emit_parts _ _ _ _⟩
theorem clearOne_dropped (hset : (vget s.flt (fidSlot f)).a.cause.getLsbD bit = true) (hgone : persists s f bit = false) :
    clearOne f bit s = dropCause f bit s := by
  unfold clearOne
  rw [hset, Bool.not_true, Bool.false_and, if_neg (by decide), if_neg (by rw [hgone]; decide)]
theorem clear_refused (hset : (vget s.flt (fidSlot f)).a.cause.getLsbD bit = true) (hpersists : persists s f bit = true) :
    (vget (clearCauses f (1#12 <<< bit.val) s).flt (fidSlot f)).a.cause.getLsbD bit = true ∧
    (vget (clearCauses f (1#12 <<< bit.val) s).flt (fidSlot f)).refused = satInc (vget s.flt (fidSlot f)).refused := by
  obtain ⟨hrecorded, hparts⟩ := clearOne_refused hset hpersists
  have hslot := hrecorded.slot (fidSlot f)
  rw [modFlt_flt, vget_vmod_same] at hslot
  have hstays : leaveFault f (faultClass s f) (clearOne f bit s) = clearOne f bit s := by
    refine leaveFault_stays fun hprev => ?_
    rw [one_le_faultClass] at hprev ⊢
    refine hprev.imp ?_ fun hp => (partFenced_congr hparts).trans hp
    rintro ⟨b, hb, hcause, hclass⟩
    exact ⟨b, hb, hslot.a b hcause, hclass⟩
  rw [clearCauses_one, hstays]
  exact ⟨hslot.a bit hset, hslot.refused⟩
/-- A slot without one cause. -/
def withoutCause (bit : Nat) (x : FltSlot) : FltSlot :=
  { x with a := { x.a with cause := x.a.cause &&& ~~~(1#12 <<< bit) }, b := { x.b with cause := x.b.cause &&& ~~~(1#12 <<< bit) },
           outWhy := if bit = 10 then 0 else x.outWhy }
theorem dropCause_slot (s : State) (f : Fid) (bit : Nat) :
    vget (dropCause f bit s).flt (fidSlot f) = withoutCause bit (vget s.flt (fidSlot f)) := by
  rw [dropCause, modFlt_flt, vget_vmod_same]
  rfl
theorem masked_self (m : BitVec 12) (bit : Nat) : (m &&& ~~~(1#12 <<< bit)).getLsbD bit = false := by
  by_cases h : bit < 12 <;> simp [h]
theorem masked_other (m : BitVec 12) {bit b : Nat} (h : b ≠ bit) (hb : b < 12) :
    (m &&& ~~~(1#12 <<< bit)).getLsbD b = m.getLsbD b := by
  have hone : (1#12 <<< bit).getLsbD b = false := by
    simp only [BitVec.getLsbD_shiftLeft, BitVec.getLsbD_one]
    by_cases hle : b < bit
    · simp [hle]
    · simp [show ¬ b - bit = 0 by omega]
  rw [BitVec.getLsbD_and, BitVec.getLsbD_not, hone, decide_eq_true hb]
  simp

theorem faultClass_dropCause : faultClass (dropCause f bit s) f =
    max (maskClass f ((vget s.flt (fidSlot f)).a.cause &&& ~~~(1#12 <<< bit.val))) (if partFenced s f then 2 else 0) := by
  rw [faultClass, dropCause_slot, partFenced_congr (s := s) (t := dropCause f bit s) rfl]
  rfl
/-- A cause of class 0 takes nothing from the fault state. -/
theorem faultClass_dropLow (hlow : causeClass f bit = 0) (h : 1 ≤ faultClass s f) : 1 ≤ faultClass (dropCause f bit s) f := by
  rw [one_le_faultClass] at h ⊢
  refine h.imp ?_ fun hp => hp
  rintro ⟨b, hb, hcause, hclass⟩
  have hne : b ≠ bit.val := fun he => absurd hclass (by rw [he, hlow]; decide)
  refine ⟨b, hb, ?_, hclass⟩
  rw [dropCause_slot]
  exact (masked_other _ hne hb).trans hcause
theorem clear_dropped (hset : (vget s.flt (fidSlot f)).a.cause.getLsbD bit = true) (hgone : persists s f bit = false) :
    let x := vget s.flt (fidSlot f)
    let t := clearCauses f (1#12 <<< bit.val) s
    (vget t.flt (fidSlot f)).a.cause.getLsbD bit = false ∧ (vget t.flt (fidSlot f)).b.cause.getLsbD bit = false ∧
    (∀ b : Fin 12, b ≠ bit → x.a.cause.getLsbD b = true → (vget t.flt (fidSlot f)).a.cause.getLsbD b = true) ∧
    (1 ≤ faultClass s f → maskClass f (x.a.cause &&& ~~~(1#12 <<< bit.val)) = 0 → partFenced s f = false →
      (vget t.flt (fidSlot f)).fence = false ∧
      (fidType f = 7 → ∀ a : Fin 32, a.val = fidIdx f → (vget s.axes a).st = .safe → (vget t.axes a).st = .disabled)) := by
  intro x t
  have ht : t = leaveFault f (faultClass s f) (dropCause f bit s) := by
    rw [← clearOne_dropped hset hgone]
    exact clearCauses_one
  have hothers (b : Fin 12) (hb : b ≠ bit) (hcause : x.a.cause.getLsbD b = true) :
      (withoutCause bit x).a.cause.getLsbD b = true :=
    (masked_other x.a.cause (fun h => hb (Fin.ext h)) b.isLt).trans hcause
  by_cases hstays : 1 ≤ faultClass s f → 1 ≤ faultClass (dropCause f bit s) f
  · rw [ht, leaveFault_stays hstays, dropCause_slot]
    refine ⟨masked_self _ _, masked_self _ _, hothers, fun hprev hmask hpart => ?_⟩
    have hnone := hstays hprev
    rw [faultClass_dropCause, hmask, hpart] at hnone
    exact absurd hnone (by decide)
  · obtain ⟨hprev, hnone⟩ := Classical.not_imp.mp hstays
    have hhigh : 3 ≤ bit.val := by
      by_contra hlow
      exact hnone (faultClass_dropLow (causeClass_low (by omega)) hprev)
    have hzero : faultClass (dropCause f bit s) f = 0 := by omega
    obtain ⟨hrecorded, haxis⟩ := leaveFault_leaves hprev hzero
    rw [← ht] at hrecorded haxis
    have hslot := hrecorded.slot (fidSlot f)
    rw [modFlt_flt, vget_vmod_same, dropCause_slot] at hslot
    obtain ⟨ha, hb⟩ := hslot.above bit hhigh
    exact ⟨ha.trans (masked_self _ _), hb.trans (masked_self _ _), fun b hb hcause => hslot.a b (hothers b hb hcause),
      fun _ _ _ => ⟨hslot.fence, haxis⟩⟩

end Clear

/-! ### Reopening a partition (R385) -/

section Reopen
variable {s : State} {w : Master} {p : Fin 32}

theorem exec_reopen (hw : Admits w (pctrlAddr p) s) : exec (.reopen w p) s = .next (settle (reopen p s)) := by
  show done (regWriteAt w (pctrlAddr p) (reopen p) s) = _
  rw [regWriteAt_of_admits hw]
  rfl
theorem leaveFault_parts (f : Fid) (prev : Nat) (s : State) : (leaveFault f prev s).parts = s.parts := by
  unfold leaveFault
  dsimp only
  split
  · rfl
  · split
    · split
      · rw [axisTo_parts, emit_parts]; rfl
      · rw [emit_parts]; rfl
    · rw [emit_parts]; rfl
theorem openPart_opens (p : Fin 32) (s : State) : (vget (openPart p s).parts p).fenced = false := by
  unfold openPart
  dsimp only
  rw [foldl_keep (·.parts) _ (fun t f => leaveFault_parts f _ t) _ _, modPart_parts, vget_vmod_same]
theorem releaseFn_parts (f : Fid) (s : State) : (releaseFn f s).parts = s.parts := by
  unfold releaseFn
  dsimp only
  split
  case h_1 => cases coreVector s ⟨fidIdx f % 48, by omega⟩ <;> rfl
  case h_4 => exact foldl_keep (·.parts) _ (fun s a => axisTo_parts a _ 3 0 0 s) _ _
  case h_5 =>
    unfold loadFirmware
    split <;> rfl
  all_goals rfl
theorem releaseFirstCore_parts (p : Fin 32) (s : State) : (releaseFirstCore p s).parts = s.parts := by
  unfold releaseFirstCore
  split
  · rw [apply_ite State.parts, releaseFn_parts, ite_self]
  · rfl
theorem reopen_cases (hw : Admits w (pctrlAddr p) s) :
    ((vget s.parts p).fenced = false → exec (.reopen w p) s = .next (settle s)) ∧
    ((vget s.parts p).fenced = true → reopenBlocked s p = true → exec (.reopen w p) s = .next (settle { s with
      parts := vset s.parts p { vget s.parts p with refused := satInc (vget s.parts p).refused } })) ∧
    ((vget s.parts p).fenced = true → reopenBlocked s p = false → ∃ t, exec (.reopen w p) s = .next t ∧
      (vget t.parts p).fenced = false) := by
  have hexec := exec_reopen hw
  refine ⟨fun hopen => ?_, fun hfenced hblocked => ?_, fun hfenced hfree => ⟨_, hexec, ?_⟩⟩
  · rw [hexec, reopen, hopen]
    rfl
  · rw [hexec, reopen, hfenced, hblocked]
    rfl
  · rw [settle_parts, reopen, hfenced, hfree, Bool.not_true, if_neg (by decide), if_neg (by decide), openEnd, emitTo_parts,
      releaseFirstCore_parts]
    exact openPart_opens p _

end Reopen

/-- Settles O58. -/
theorem faultCauses : Obligations.FaultCauses := by
  refine ⟨fun s f hok hpower hr => ⟨fun n hn hon => ?_, ?_, fun flip hsame hflip => ?_, fun hfenced => ?_⟩,
    fun s w f bit hok hw hr hset => ?_, fun s w p hw => reopen_cases hw⟩
  · obtain ⟨ha, hb, hfence, hpart, haxis, haxes⟩ := (causeTaken_detected (s := s) hok hn).settled
    exact ⟨_, fault_detected hok hpower hr hon, ha, hb, hfence, hpart, haxis, haxes⟩
  · refine ⟨_, fault_detected hok hpower hr (n := 0) rfl, ?_⟩
    rw [settle_flt, settle_axes]
    exact corr_detected
  · have hexec : exec (.dupMismatch f flip) s = .next (settle (dupMismatch f flip s)) :=
      doneIf_pos (by rw [hok, hpower]; rfl) hr (dupMismatch f flip)
    rw [dupMismatch_raises hsame hflip] at hexec
    obtain ⟨ha, hb, hfence, hpart, haxis, haxes⟩ :=
      (causeTaken_raise (s := s) (u := flipped f flip s) (f := f) (bit := 7) (by decide) rfl).settled
    exact ⟨_, hexec, ha, hb, hfence, hpart, haxis, haxes⟩
  · have hexec : exec (.drainTimeout f) s = .next (settle (raiseCause f 8 s)) :=
      doneIf_pos (by rw [hok, hpower, hfenced]; rfl) hr (raiseCause f 8)
    obtain ⟨ha, hb, hfence, hpart, haxis, haxes⟩ := (causeTaken_raise (s := s) (u := s) (f := f) (bit := 8) (by decide) rfl).settled
    exact ⟨_, hexec, ha, hb, hfence, hpart, haxis, haxes⟩
  · have hexec : exec (.faultCauseClear w f (1#12 <<< bit.val)) s = .next (settle (clearCauses f (1#12 <<< bit.val) s)) := by
      refine (doneIf_pos hok hr fun s => regWriteAt w (slotBase f) (clearCauses f (1#12 <<< bit.val)) s).trans ?_
      rw [regWriteAt_of_admits hw]
    refine ⟨fun hpersists => ⟨_, hexec, ?_⟩, fun hgone => ⟨_, hexec, ?_⟩⟩
    · rw [settle_flt]
      exact clear_refused hset hpersists
    · rw [settle_flt, settle_axes]
      exact clear_dropped hset hgone

end Sys2Proof.Machine
end

section
/-! PROOFS. The registers of a command queue (spec/06, R119 to R123, R137): what a write of the configuration, of the
tail index and of the head index leaves in the queue. -/
set_option Elab.async false
namespace Sys2Proof.Machine

variable {s : State} {w : Master} {n : Fin 64} {sq cq : BitVec 4} {evt : Bool}

/-! ### The configuration register (R121, R122) -/

/-- Queue n with the sizes and the event bit of a configuration write. -/
def Queue.configured (q : Queue) (sq cq : BitVec 4) (evt : Bool) : Queue := { q with sqlog := sq, cqlog := cq, evt := evt }
/-- A queue as enabling leaves it: pointers at 0, stream at 1. -/
def Queue.started (q : Queue) : Queue :=
  { q with enable := true, halted := false, sqhead := 0, sqtail := 0, cqhead := 0, cqtail := 0, nextSeq := 1 }

theorem qcfgWrite_enable_ok (hoff : (vget s.queues n).enable = false)
    (hok : queueCfgOk (s.modQueue n fun q => q.configured sq cq evt) n = true) :
    qcfgWrite n sq cq true evt s =
      { s with queues := vset s.queues n ((vget s.queues n).configured sq cq evt).started } := by
  have hoff' : ¬ (vget s.queues n).enable = true := by simp [hoff]
  rw [qcfgWrite, if_pos rfl, if_neg hoff']
  refine (if_pos hok).trans ?_
  simp [State.modQueue, vmod, vset_vset, Queue.started, Queue.configured]

theorem qcfgWrite_enable_bad (hoff : (vget s.queues n).enable = false)
    (hbad : queueCfgOk (s.modQueue n fun q => q.configured sq cq evt) n = false) :
    qcfgWrite n sq cq true evt s =
      { s with queues := vset s.queues n (((vget s.queues n).configured sq cq evt).setCode 1) } := by
  have hoff' : ¬ (vget s.queues n).enable = true := by simp [hoff]
  have hbad' : ¬ queueCfgOk (s.modQueue n fun q => q.configured sq cq evt) n = true := by simp [hbad]
  rw [qcfgWrite, if_pos rfl, if_neg hoff']
  refine (if_neg hbad').trans ?_
  simp [State.modQueue, vmod, vset_vset, Queue.configured]

theorem qcfgWrite_enabled (hon : (vget s.queues n).enable = true) :
    qcfgWrite n sq cq true evt s = { s with queues := vset s.queues n { vget s.queues n with evt := evt } } := by
  rw [qcfgWrite, if_pos rfl, if_pos hon]
  rfl

theorem qcfgWrite_disable (hon : (vget s.queues n).enable = true) :
    qcfgWrite n sq cq false evt s =
      { s with queues := vset s.queues n { vget s.queues n with enable := false, evt := evt, fetched := [] } } := by
  rw [qcfgWrite, if_neg Bool.false_ne_true, if_pos hon]
  rfl

theorem qcfgWrite_disabled (hoff : (vget s.queues n).enable = false) :
    qcfgWrite n sq cq false evt s = { s with queues := vset s.queues n ((vget s.queues n).configured sq cq evt) } := by
  have hoff' : ¬ (vget s.queues n).enable = true := by simp [hoff]
  rw [qcfgWrite, if_neg Bool.false_ne_true, if_neg hoff']
  simp [State.modQueue, vmod, Queue.configured, ← hoff]

/-! ### The settlement -/

theorem exec_queueEnable (hw : Admits w (cqSet n + 0x10) s) :
    exec (.queueEnable w n sq cq evt) s = .next (settle (qcfgWrite n sq cq true evt s)) :=
  congrArg (fun t => Host.Outcome.next (settle t)) (regWriteAt_of_admits hw _)
theorem exec_queueDisable (hw : Admits w (cqSet n + 0x10) s) :
    exec (.queueDisable w n sq cq evt) s = .next (settle (qcfgWrite n sq cq false evt s)) :=
  congrArg (fun t => Host.Outcome.next (settle t)) (regWriteAt_of_admits hw _)
theorem exec_sqDoorbell (hw : Admits w (cqSet n + 0x18) s) (v : BitVec 32) :
    exec (.sqDoorbell w n v) s = .next (settle (sqTailWrite n (v.setWidth 16) s)) :=
  congrArg (fun t => Host.Outcome.next (settle t)) (regWriteAt_of_admits hw _)
theorem exec_cqHeadWrite (hw : Admits w (cqSet n + 0x24) s) (v : BitVec 32) :
    exec (.cqHeadWrite w n v) s = .next (settle (cqHeadWr n (v.setWidth 16) s)) :=
  congrArg (fun t => Host.Outcome.next (settle t)) (regWriteAt_of_admits hw _)

/-- Settles O32: each write is its effect (`regWriteAt_of_admits`), and the effect is one record update of its queue. -/
theorem queueRegisters : Obligations.QueueRegisters := by
  intro s w n sq cq evt
  dsimp only
  refine ⟨fun hw => ⟨fun hoff hok => ?_, fun hoff hbad => ?_, fun hon => ?_, fun hon => ?_, fun hoff => ?_⟩,
    fun hw v => ?_, fun hw v => ?_⟩
  · rw [exec_queueEnable hw, qcfgWrite_enable_ok hoff hok]
    rfl
  · rw [exec_queueEnable hw, qcfgWrite_enable_bad hoff hbad]
    rfl
  · rw [exec_queueEnable hw, qcfgWrite_enabled hon]
  · rw [exec_queueDisable hw, qcfgWrite_disable hon]
  · rw [exec_queueDisable hw, qcfgWrite_disabled hoff]
    rfl
  · rw [exec_sqDoorbell hw, sqTailWrite, State.modQueue, vmod, BitVec.toNat_setWidth]
    rfl
  · rw [exec_cqHeadWrite hw, cqHeadWr, State.modQueue, vmod]
    dsimp only
    rw [BitVec.toNat_setWidth]
    rfl

end Sys2Proof.Machine
end

section
/-! PROOFS. One core's own changes (what a command does to core n and to nothing else), and from them the time CSR, the
timers, interrupts and counter overflow (R105, R106, R110, R115). -/
set_option Elab.async false
namespace Sys2Proof.Machine

variable {s : State} {n m : Fin 48} {rd : Fin 32}

/-! ### Changes of one core -/

theorem vget_modCore_same (f : Core → Core) (s : State) : vget (s.modCore n f).cores n = f (vget s.cores n) :=
  vget_vset_same ..
theorem vget_modCore_other (h : m ≠ n) (f : Core → Core) (s : State) : vget (s.modCore n f).cores m = vget s.cores m :=
  vget_vset_other _ _ _ _ h
theorem modCore_modCore (f g : Core → Core) (s : State) : (s.modCore n f).modCore n g = s.modCore n fun c => g (f c) := by
  simp [State.modCore, vmod, vset_vset]

theorem modCore_same (s : State) : s.modCore n (fun c => c) = s := by
  simp only [State.modCore, vmod, vset_vget]
theorem modCore_congr {f g : Core → Core} (h : f (vget s.cores n) = g (vget s.cores n)) : s.modCore n f = s.modCore n g := by
  simp only [State.modCore, vmod, h]

/-- Settling leaves every core the same but for its interrupt files. -/
theorem sameCore_settle (n : Fin 48) (s : State) : SameCore (vget s.cores n) (vget (settle s).cores n) := by
  obtain ⟨file, h⟩ := (settleFrame s).2 n
  rw [SameCore, h]
theorem sameCore_modCore (f : Core → Core) : SameCore (f (vget s.cores n)) (vget (settle (s.modCore n f)).cores n) :=
  (congrArg (SameCore · _) (vget_modCore_same f s)).mp (sameCore_settle n (s.modCore n f))
/-- What a settled change of one core leaves in it, for any view that interrupt files do not show in. -/
theorem modCore_view {β : Type} (v : Core → β) (hv : ∀ c i, v { c with imsic := i } = v c) (f : Core → Core) :
    v (vget (settle (s.modCore n f)).cores n) = v (f (vget s.cores n)) :=
  (congrArg v (sameCore_modCore f)).trans (hv _ _)
/-- A command that changes one core only ends with that change, whatever reload is under way. -/
theorem doneIf_modCore {b : Bool} (h : b = true) (f : Core → Core) :
    doneIf b s (fun s => s.modCore n f) = .next (settle (s.modCore n f)) :=
  doneIf_free (f := fun s => s.modCore n f) h rfl

/-- A core with register rd written; x0 discards it. -/
def Core.withX (rd : Fin 32) (v : BitVec 64) (c : Core) : Core := { c with x := if rd = 0 then c.x else vset c.x rd v }
theorem setX_eq (v : BitVec 64) (s : State) : setX n rd v s = s.modCore n (Core.withX rd v) := by
  unfold setX Core.withX
  by_cases h : rd = 0
  · simp only [if_pos h]
    exact (modCore_same s).symm
  · simp only [if_neg h]

/-! ### Retirement (R115) -/

/-- Two cores agree but for counters, their events and the overflow bit of mip. -/
def CountedOnly (c d : Core) : Prop :=
  d = { c with hpm := d.hpm, hpmEvent := d.hpmEvent, mip := d.mip } ∧
    ∀ k, k ≠ 13 → d.mip.getLsbD k = c.mip.getLsbD k

theorem getLsbD_overflow (x : BitVec 64) {k : Nat} (h : k ≠ 13) : (x ||| 0x2000#64).getLsbD k = x.getLsbD k := by
  have hbit : (0x2000#64).getLsbD k = false := by
    by_cases hk : k < 64
    · have hall : ∀ j : Fin 64, j.val ≠ 13 → (0x2000#64).getLsbD j.val = false := by decide
      exact hall ⟨k, hk⟩ h
    · exact BitVec.getLsbD_of_ge _ _ (Nat.le_of_not_lt hk)
  rw [BitVec.getLsbD_or, hbit, Bool.or_false]

theorem CountedOnly.trans {a b c : Core} (h : CountedOnly a b) (k : CountedOnly b c) : CountedOnly a c := by
  obtain ⟨hb, hbits⟩ := h
  obtain ⟨hc, kbits⟩ := k
  refine ⟨?_, fun j hj => (kbits j hj).trans (hbits j hj)⟩
  rw [hc, hb]

/-- One counter's part of a tally. -/
def tallyOne (ev k : Nat) (c : Core) (i : Fin 29) : Core :=
  if counts c i ev then
    let v := (vget c.hpm i).toNat + k
    let c := { c with hpm := vset c.hpm i (BitVec.ofNat 64 v) }
    if v < 2 ^ 64 then c else
      let e := vget c.hpmEvent i
      { c with hpmEvent := vset c.hpmEvent i (e ||| BitVec.ofNat 64 (2 ^ 63)),
               mip := if e.getLsbD 63 then c.mip else c.mip ||| 0x2000 }
  else c
theorem countedOnly_tallyOne (ev k : Nat) (c : Core) (i : Fin 29) : CountedOnly c (tallyOne ev k c i) := by
  unfold tallyOne
  dsimp only
  split_ifs with hcounts hsmall hset
  · exact ⟨rfl, fun _ _ => rfl⟩
  · exact ⟨rfl, fun _ _ => rfl⟩
  · exact ⟨rfl, fun _ hj => getLsbD_overflow _ hj⟩
  · exact ⟨rfl, fun _ _ => rfl⟩
theorem countedOnly_tally (ev k : Nat) (c : Core) : CountedOnly c (tally ev k c) := by
  have hfold : ∀ (l : List (Fin 29)) (c : Core), CountedOnly c (l.foldl (tallyOne ev k) c) := by
    intro l
    induction l with
    | nil => exact fun c => ⟨rfl, fun _ _ => rfl⟩
    | cons i l ih => exact fun c => (countedOnly_tallyOne ev k c i).trans (ih _)
  exact hfold _ c
/-- Retiring an instruction counts, and changes nothing else of the core. -/
theorem countedOnly_retired (c : Core) : CountedOnly { c with minstret := c.minstret + 1 } c.retired :=
  countedOnly_tally 1 1 _

@[simp] theorem retired_x (c : Core) : c.retired.x = c.x := by rw [(countedOnly_retired c).1]
@[simp] theorem retired_mtimecmp (c : Core) : c.retired.mtimecmp = c.mtimecmp := by rw [(countedOnly_retired c).1]

/-! ### Bits of mip -/

theorem getLsbD_setBits (w : BitVec 64) (mask v k : Nat) :
    (setBits w mask v).getLsbD k =
      ((w.getLsbD k && (decide (k < 64) && !(BitVec.ofNat 64 mask).getLsbD k)) || (BitVec.ofNat 64 v).getLsbD k) := by
  simp [setBits]
/-- MTIP written into mip is read back. -/
theorem setBits_mtip (w : BitVec 64) (b : Bool) : (setBits w 0x80 (b2n b * 0x80)).getLsbD 7 = b := by
  rw [getLsbD_setBits]
  cases b <;> simp [b2n]
/-- STIP and VSTIP written into mip are read back. -/
theorem setBits_stip (w : BitVec 64) (a b : Bool) : (setBits w 0x60 (b2n a * 0x20 + b2n b * 0x40)).getLsbD 5 = a := by
  rw [getLsbD_setBits]
  cases a <;> cases b <;> simp [b2n]
theorem setBits_vstip (w : BitVec 64) (a b : Bool) : (setBits w 0x60 (b2n a * 0x20 + b2n b * 0x40)).getLsbD 6 = b := by
  rw [getLsbD_setBits]
  cases a <;> cases b <;> simp [b2n]

/-! ### The commands -/

/-- The time CSR as the core reads it (R105). -/
def timeRead (s : State) (n : Fin 48) : BitVec 64 :=
  (s.time.it >>> 4) + if (vget s.cores n).priv.virt then (vget s.cores n).htimedelta else 0
theorem exec_timeCsrRead (h : coreRuns s n = true) : exec (.timeCsrRead n rd) s =
    .next (settle (s.modCore n fun c => (c.withX rd (timeRead s n)).retired)) := by
  refine (doneIf_free (f := fun s => retireAt n (setX n rd ((csrRead s n 0xC01).getD 0) s)) h ?_).trans ?_
  · rw [setX_eq]
    rfl
  · rw [setX_eq, retireAt, modCore_modCore]
    rfl

/-- The core at `pc` with the answer of a CLW_MTIMECMP access in rd. -/
def Core.answered (pc : BitVec 64) (rd : Fin 32) (c : Core) : Core := { c with pc := pc }.withX rd c.mtimecmp
/-- A core whose CLW_MTIMECMP takes `v` at the time `now` (R106). -/
def Core.compared (v now : BitVec 64) (c : Core) : Core :=
  { c with mtimecmp := v, mip := setBits c.mip 0x80 (b2n (decide (v ≤ now)) * 0x80) }

/-- The effect of a CLW_MTIMECMP access, as the model writes it. -/
def clwAccess (n : Fin 48) (pc : BitVec 64) (write : Option (BitVec 64)) (rd : Fin 32) (s : State) : State :=
  let s := atPc n pc s
  let c := vget s.cores n
  if c.priv ≠ .m then takeExc n { code := 2 } pc s else
  let s := setX n rd c.mtimecmp s
  retireAt n (match write with
  | some v =>
    let s := s.modCore n fun c => { c with mtimecmp := v }
    s.modCore n fun c => { c with mip := setBits c.mip 0x80 (b2n (mtip s c) * 0x80) }
  | none => s)

theorem atPc_core (pc : BitVec 64) : vget (atPc n pc s).cores n = { vget s.cores n with pc := pc } := vget_vset_same ..

theorem clwAccess_read (hm : (vget s.cores n).priv = .m) (pc : BitVec 64) :
    clwAccess n pc none rd s = s.modCore n fun c => (c.answered pc rd).retired := by
  unfold clwAccess
  dsimp only
  rw [atPc_core, if_neg (not_not.mpr hm), setX_eq, atPc, retireAt, modCore_modCore, modCore_modCore]
  exact modCore_congr rfl
theorem clwAccess_write (hm : (vget s.cores n).priv = .m) (pc v : BitVec 64) :
    clwAccess n pc (some v) rd s =
      s.modCore n fun c => ((c.answered pc rd).compared v (s.time.it >>> 4)).retired := by
  unfold clwAccess
  dsimp only
  rw [atPc_core, if_neg (not_not.mpr hm), setX_eq, atPc, retireAt, modCore_modCore, modCore_modCore, modCore_modCore,
    modCore_modCore]
  exact modCore_congr rfl
theorem clwAccess_trap (hm : (vget s.cores n).priv ≠ .m) (pc : BitVec 64) (write : Option (BitVec 64)) :
    clwAccess n pc write rd s =
      s.modCore n fun c => trapInto (excMode { c with pc := pc } 2) { code := 2 } false pc { c with pc := pc } := by
  unfold clwAccess
  dsimp only
  rw [atPc_core, if_pos hm, atPc, takeExc, modCore_modCore]
theorem exec_clwAccess {pc : BitVec 64} {write : Option (BitVec 64)} {f : Core → Core} (h : coreRuns s n = true)
    (he : clwAccess n pc write rd s = s.modCore n f) :
    exec (.clwMtimecmpAccess n pc write rd) s = .next (settle (s.modCore n f)) := by
  have hexec : exec (.clwMtimecmpAccess n pc write rd) s = doneIf (coreRuns s n) s (clwAccess n pc write rd) := rfl
  rw [hexec, doneIf_free h (by rw [he]; rfl), he]

/-- R106 at a CLW_MTIMECMP written in M-mode: the compare, the answer and MTIP. -/
theorem written_mtimecmp {pc v now : BitVec 64} (c : Core) :
    ((c.answered pc rd).compared v now).retired.mtimecmp = v ∧
      ((c.answered pc rd).compared v now).retired.x = (if rd = 0 then c.x else vset c.x rd c.mtimecmp) ∧
      ((c.answered pc rd).compared v now).retired.mip.getLsbD 7 = decide (v ≤ now) := by
  refine ⟨retired_mtimecmp _, retired_x _, ?_⟩
  exact ((countedOnly_retired _).2 7 (by decide)).trans (setBits_mtip _ _)

/-- A core whose counter 3 + i has overflown (R115). -/
def Core.overflown (i : Fin 29) (c : Core) : Core :=
  let ev := (vget c.hpmEvent i).toNat
  { c with
    hpm := vset c.hpm i 0, hpmEvent := vset c.hpmEvent i (BitVec.ofNat 64 ev ||| BitVec.ofNat 64 (2 ^ 63)),
    mip := if ev < 2 ^ 63 then c.mip ||| 0x2000 else c.mip }
theorem exec_counterOverflow {i : Fin 29} (h : coreRuns s n = true)
    (hlow : 1 ≤ (vget (vget s.cores n).hpmEvent i).toNat % 65536)
    (hhigh : (vget (vget s.cores n).hpmEvent i).toNat % 65536 ≤ 12) :
    exec (.counterOverflow n i) s = .next (settle (s.modCore n (Core.overflown i))) := by
  have hb : (coreRuns s n && decide (1 ≤ (vget (vget s.cores n).hpmEvent i).toNat % 65536) &&
      decide ((vget (vget s.cores n).hpmEvent i).toNat % 65536 ≤ 12)) = true := by simp [h, hlow, hhigh]
  let f : Core → Core := fun c => { c with
    hpm := vset c.hpm i 0
    hpmEvent := vset c.hpmEvent i
      (BitVec.ofNat 64 (vget (vget s.cores n).hpmEvent i).toNat ||| BitVec.ofNat 64 (2 ^ 63))
    mip := if (vget (vget s.cores n).hpmEvent i).toNat < 2 ^ 63 then c.mip ||| 0x2000 else c.mip }
  have hf : s.modCore n f = s.modCore n (Core.overflown i) := modCore_congr rfl
  exact (doneIf_modCore hb f).trans (by rw [hf])

theorem overflown_marked (i : Fin 29) (c : Core) :
    vget (c.overflown i).hpm i = 0 ∧ (vget (c.overflown i).hpmEvent i).getLsbD 63 = true ∧
      ((vget c.hpmEvent i).toNat < 2 ^ 63 → (c.overflown i).mip.getLsbD 13 = true) ∧
      ∀ j, j ≠ i → vget (c.overflown i).hpm j = vget c.hpm j := by
  refine ⟨vget_vset_same .., ?_, fun hsmall => ?_, fun j hj => vget_vset_other _ _ _ _ hj⟩
  · rw [Core.overflown, vget_vset_same, BitVec.getLsbD_or]
    simp
  · rw [Core.overflown]
    dsimp only
    rw [if_pos hsmall, BitVec.getLsbD_or]
    simp

/-- Settles O29: each command is a change of core n alone, settled (`doneIf_modCore`), and what that change leaves is
read off core n (`modCore_view`). -/
theorem coreTimersAndInterrupts : Obligations.CoreTimersAndInterrupts := by
  intro s n
  dsimp only
  refine ⟨fun h rd => ?_, fun h hm pc rd => ⟨fun v => ?_, ?_⟩, fun h hm pc w rd => ?_, fun hfull htime => ?_,
    fun hfull htime => ?_, fun h pc code md hintr => ?_, fun h i hlow hhigh => ?_⟩
  · have hcore := sameCore_modCore (s := s) (n := n) fun c => (c.withX rd (timeRead s n)).retired
    exact ⟨_, exec_timeCsrRead h, settle_mem _, hcore⟩
  · obtain ⟨hcmp, hx, hmip⟩ := written_mtimecmp (rd := rd) (pc := pc) (v := v) (now := s.time.it >>> 4) (vget s.cores n)
    exact ⟨_, exec_clwAccess h (clwAccess_write hm pc v), (modCore_view (·.mtimecmp) (fun _ _ => rfl) _).trans hcmp,
      (modCore_view (·.x) (fun _ _ => rfl) _).trans hx, (modCore_view (·.mip.getLsbD 7) (fun _ _ => rfl) _).trans hmip⟩
  · have hcore := sameCore_modCore (s := s) (n := n) fun c => (c.answered pc rd).retired
    exact ⟨_, exec_clwAccess h (clwAccess_read hm pc), hcore⟩
  · exact ⟨_, exec_clwAccess h (clwAccess_trap hm pc w), sameCore_modCore _⟩
  · have hb : (s.island.mode = .full && mtip s (vget s.cores n)) = true := by
      simp [hfull, mtip, timeCsr, htime]
    refine ⟨_, doneIf_modCore hb _, (modCore_view (·.mip.getLsbD 7) (fun _ _ => rfl) _).trans ?_,
      modCore_view (·.x) (fun _ _ => rfl) _⟩
    exact setBits_mtip _ true
  · have hb : (s.island.mode = .full && (stip s (vget s.cores n) || vstip s (vget s.cores n))) = true := by
      rcases htime with h | h | h <;> simp [hfull, stip, vstip, timeCsr, h]
    refine ⟨_, doneIf_modCore hb _, modCore_view (·.x) (fun _ _ => rfl) _,
      (modCore_view (·.mip.getLsbD 5) (fun _ _ => rfl) _).trans ?_,
      (modCore_view (·.mip.getLsbD 6) (fun _ _ => rfl) _).trans ?_⟩
    · exact setBits_stip _ _ _
    · exact setBits_vstip _ _ _
  · have hexec : exec (.interruptTaken n pc) s = doneIf (coreRuns s n) s fun s => s.modCore n fun c =>
        trapInto md { code := if md = .vs then code - 1 else code } true pc c := by
      rw [exec, execInterruptTaken, hintr]
    exact ⟨_, hexec.trans (doneIf_modCore h _), sameCore_modCore _⟩
  · obtain ⟨hzero, hof, hcode, hothers⟩ := overflown_marked i (vget s.cores n)
    have hhpm := modCore_view (s := s) (n := n) (·.hpm) (fun _ _ => rfl) (Core.overflown i)
    have hev := modCore_view (s := s) (n := n) (·.hpmEvent) (fun _ _ => rfl) (Core.overflown i)
    have hmip := modCore_view (s := s) (n := n) (·.mip) (fun _ _ => rfl) (Core.overflown i)
    refine ⟨_, exec_counterOverflow h hlow hhigh, ?_, ?_, ?_, ?_⟩
    · rw [hhpm]
      exact hzero
    · rw [hev]
      exact hof
    · rw [hmip]
      exact hcode
    · rw [hhpm]
      exact hothers

end Sys2Proof.Machine
end

section
/-! PROOFS. A write of register space by its address (R10, R76, R77, R380): the cases of `regStore`, each said once. -/
set_option Elab.async false
namespace Sys2Proof.Machine

variable {s : State} {w : Master} {p : Fin 32} {a len v : Nat}

/-! ### What a write does -/

/-- A register write, by what it errs with and by its master's partition. -/
def storeBy (who : Master) (a v : Nat) (s : State) : Option (BitVec 3) → Option (Fin 32) → State
  | some c, _ => accessError (masterFid who) true c a s
  | none, some p => if pageFenced s a || !regDefined s p (a - regBase) then s else regPut who p (a - regBase) v s
  | none, none => s
/-- The definition is opened as a function: opened at its arguments, the page of an unknown address would be computed. -/
theorem regStore_eq_storeBy : regStore w a len v s = storeBy w a v s (regErr s w a len true) (masterPart s w) := by
  generalize hf : regStore = f
  delta regStore at hf
  subst hf
  beta_reduce
  generalize regErr s w a len true = e
  generalize masterPart s w = q
  cases e with
  | some c => exact rfl
  | none =>
    cases q with
    | none => exact rfl
    | some p => exact rfl

theorem regStore_refused {c : BitVec 3} (h : regErr s w a len true = some c) :
    regStore w a len v s = accessError (masterFid w) true c a s := by
  rw [regStore_eq_storeBy, h, storeBy]
theorem regStore_ignored (hok : regErr s w a len true = none) (hp : masterPart s w = some p)
    (hskip : (pageFenced s a || !regDefined s p (a - regBase)) = true) : regStore w a len v s = s := by
  rw [regStore_eq_storeBy, hok, hp, storeBy, if_pos hskip]
theorem regStore_performed (hok : regErr s w a len true = none) (hp : masterPart s w = some p)
    (hopen : pageFenced s a = false) (hdef : regDefined s p (a - regBase) = true) :
    regStore w a len v s = regPut w p (a - regBase) v s := by
  have hskip : ¬ (pageFenced s a || !regDefined s p (a - regBase)) = true := by simp [hopen, hdef]
  rw [regStore_eq_storeBy, hok, hp, storeBy, if_neg hskip]

/-- The freeze controller's page is shared, so that its fence does not close the page (Table 4.3). -/
theorem pageFenced_pmask : pageFenced s (regBase + 0x300004) = false := by
  have hpage : pageOf (regBase + 0x300004) = some (.shared true) := by decide +kernel
  delta pageFenced
  rw [hpage]
theorem regPut_pmask (hfrz : isFenced s frzFid = false) :
    regPut w p 0x300004 v s = { s with frz := { s.frz with pmask := BitVec.ofNat 32 v } } := by
  have hput : regPut w p 0x300004 v s = putFrz 0x004 v s := rfl
  rw [hput, putFrz, hfrz]
  rfl

/-! ### The command -/

variable {addr : Pa} {wide : Bool} {value : BitVec 64}

/-- Its access width in bytes. -/
def writeLen (wide : Bool) : Nat := if wide then 8 else 4

theorem exec_registerWrite (hruns : masterRuns s w = true) (hreg : addrClass addr.toNat = .reg) :
    exec (.registerWrite w addr wide value) s =
      doneFrom s (regStore w addr.toNat (writeLen wide) value.toNat s) := by
  have hb : (masterRuns s w && addrClass addr.toNat = .reg) = true := by simp [hruns, hreg]
  exact if_pos hb

/-- Settles O30: `regStore` answers a record, the state as it was, or the register's effect; only the last may hold. -/
theorem registerWrites : Obligations.RegisterWrites := by
  intro s w addr wide v hruns hreg
  have hexec := exec_registerWrite (wide := wide) (value := v) hruns hreg
  refine ⟨fun c herr => ?_, fun p hok hp => ⟨fun hfenced => ?_, fun hopen hundef => ?_, fun hopen hdef hr => ?_,
    fun hfrz haddr hdef => ?_⟩⟩
  · refine ⟨_, hexec.trans ((congrArg (doneFrom s) (regStore_refused herr)).trans (doneFrom_free rfl)), ?_⟩
    simp only [settle_rat, settle_island, settle_queues, settle_axes, settle_mem]
    exact ⟨rfl, rfl, rfl, rfl, rfl, rfl, rfl, rfl, rfl⟩
  · have hskip : (pageFenced s addr.toNat || !regDefined s p (addr.toNat - regBase)) = true := by simp [hfenced]
    exact hexec.trans ((congrArg (doneFrom s) (regStore_ignored hok hp hskip)).trans (doneFrom_free rfl))
  · have hskip : (pageFenced s addr.toNat || !regDefined s p (addr.toNat - regBase)) = true := by simp [hundef]
    exact hexec.trans ((congrArg (doneFrom s) (regStore_ignored hok hp hskip)).trans (doneFrom_free rfl))
  · exact hexec.trans ((congrArg (doneFrom s) (regStore_performed hok hp hopen hdef)).trans (doneFrom_next hr _))
  · have hopen : pageFenced s addr.toNat = false := by rw [haddr, pageFenced_pmask]
    have hoff : addr.toNat - regBase = 0x300004 := by rw [haddr, Nat.add_sub_cancel_left]
    have hput := regStore_performed (v := v.toNat) hok hp hopen (by rw [hoff, hdef])
    rw [hoff, regPut_pmask hfrz] at hput
    exact hexec.trans ((congrArg (doneFrom s) hput).trans (doneFrom_free rfl))

end Sys2Proof.Machine
end

section
/-! SUPPORT. Where a core stands (its pc) has no part in how its accesses are translated and checked. -/
set_option Elab.async false
namespace Sys2Proof.Machine

variable {s : State} {n : Fin 48} {p : Fin 32} {k : AccKind} (pc : BitVec 64)

theorem regAplic_atPc (o : Nat) : regAplic (atPc n pc s) p o = regAplic s p o := rfl
/-- Registers of register space do not read the cores. -/
theorem regAt_atPc (o : Nat) : regAt (atPc n pc s) p o = regAt s p o := by
  unfold regAt
  rw [regAplic_atPc]
  rfl
theorem regFormOk_atPc (o len : Nat) (w : Bool) : regFormOk (atPc n pc s) p o len w = regFormOk s p o len w := by
  unfold regFormOk
  rw [regAt_atPc, regAt_atPc]
theorem masterPart_atPc (m : Master) : masterPart (atPc n pc s) m = masterPart s m := by cases m <;> rfl
theorem allows_atPc (pg : Page) (w : Bool) : pg.allows (atPc n pc s) p w = pg.allows s p w := by cases pg <;> rfl
/-- The definition is opened as a function: opened at its arguments, the page of an unknown address would be computed. -/
theorem regPage_atPc (m : Master) (a : Nat) (w : Bool) : regPage (atPc n pc s) m a w = regPage s m a w := by
  generalize hf : regPage = f
  delta regPage at hf
  subst hf
  beta_reduce
  rw [masterPart_atPc]
  generalize pageOf a = page
  simp only [allows_atPc]
theorem partOf_atPc (f : Fid) : partOf (atPc n pc s) f = partOf s f := rfl

theorem pteRead_atPc (a : Nat) : pteRead (atPc n pc s) n p a = pteRead s n p a := by
  unfold pteRead
  rw [atPc_core]
  rfl
theorem gStage_atPc (gpa : Nat) : gStage (atPc n pc s) n p k gpa = gStage s n p k gpa := by
  unfold gStage
  rw [atPc_core, funext (pteRead_atPc (s := s) (n := n) (p := p) pc)]
theorem xlate_atPc (va : Nat) : xlate (atPc n pc s) n p k va = xlate s n p k va := by
  unfold xlate
  rw [atPc_core, funext (pteRead_atPc (s := s) (n := n) (p := p) pc)]
  simp only [gStage_atPc]
  rfl
theorem coreErr_atPc (pb : Pbmt) (a len : Nat) (mis : Bool) :
    coreErr (atPc n pc s) n p k pb a len mis = coreErr s n p k pb a len mis := by
  unfold coreErr
  rw [regPage_atPc, regFormOk_atPc]
  rfl
theorem corePart_atPc (mis : Bool) (va : BitVec 64) (len : Nat) :
    corePart (atPc n pc s) n p k mis va len = corePart s n p k mis va len := by
  unfold corePart
  rw [xlate_atPc, atPc_core]
  simp only [coreErr_atPc]
  rfl
theorem spanParts_atPc (mis : Bool) (l : List (BitVec 64 × Nat)) :
    spanParts (atPc n pc s) n p k mis l = spanParts s n p k mis l := by
  induction l with
  | nil => rfl
  | cons x l ih => rw [spanParts, spanParts, corePart_atPc, ih]
/-- An access is translated and checked alike wherever the core stands. -/
theorem coreSpan_atPc (ad : BitVec 64) (len : Nat) : coreSpan (atPc n pc s) n k ad len = coreSpan s n k ad len := by
  unfold coreSpan
  rw [partOf_atPc]
  simp only [spanParts_atPc]

end Sys2Proof.Machine
end

section
/-! PROOFS. Loads and fetches of a core, and accesses that are not performed (R74, R76, R86, R90, R91, R93, R101, R102). -/
set_option Elab.async false
namespace Sys2Proof.Machine

variable {s : State} {n : Fin 48} {p : Fin 32} {k : AccKind} {acc : MemAcc} {e : Ecc}

/-! ### What a core reads -/

theorem partRead_dram {q : Piece} (hd : isDram s q.pa = true) (hc : poisoned s q.pa q.len = false) :
    partRead n p k q s = (.ok (rdBytes s q.pa q.len), 0, s) := by
  unfold isDram at hd
  unfold partRead
  cases ha : addrClass q.pa <;> rw [ha] at hd <;> simp_all
theorem partRead_poison {q : Piece} (hd : isDram s q.pa = true) (hc : poisoned s q.pa q.len = true) :
    partRead n p k q s = (.poison, q.pa, s) := by
  unfold isDram at hd
  unfold partRead
  cases ha : addrClass q.pa <;> rw [ha] at hd <;> simp_all
theorem partRead_reg {q : Piece} (ha : addrClass q.pa = .reg) :
    partRead n p k q s = (.ok (natLe q.len (regLoad s p (q.pa - regBase) q.len)), 0, s) := by
  unfold partRead
  rw [ha]
theorem partsRead_dram {ps : List Piece} (h : ∀ q ∈ ps, isDram s q.pa = true ∧ poisoned s q.pa q.len = false) :
    partsRead n p k ps s = (.ok (ps.flatMap fun q => rdBytes s q.pa q.len), s) := by
  induction ps with
  | nil => rfl
  | cons q qs ih =>
    obtain ⟨hd, hc⟩ := h q (List.mem_cons_self ..)
    have hrest := ih fun x hx => h x (List.mem_cons_of_mem _ hx)
    simp only [partsRead, partRead_dram hd hc, hrest, List.flatMap_cons]
/-- An access that is admitted is one of a core that belongs to a partition. -/
theorem part_of_coreSpan {ad : BitVec 64} {len : Nat} {ps : List Piece} (h : coreSpan s n k ad len = .ok ps) :
    ∃ p, partOf s (coreFid n) = some p := by
  unfold coreSpan at h
  cases hp : partOf s (coreFid n) with
  | none =>
    rw [hp] at h
    cases h
  | some p => exact ⟨p, rfl⟩
theorem coreRead_ok {ad : BitVec 64} {len : Nat} {ps : List Piece} {bs : List Byte} (h : coreSpan s n k ad len = .ok ps)
    (hp : partOf s (coreFid n) = some p) (hr : partsRead n p k ps s = (.ok bs, s)) :
    coreRead n k ad len s = (.ok bs, s) := by
  unfold coreRead
  rw [h, hp]
  dsimp only
  rw [hr]
theorem coreRead_stopped {ad : BitVec 64} {len : Nat} {va : BitVec 64} {x : Stop}
    (h : coreSpan s n k ad len = .error (va, x)) :
    coreRead n k ad len s = (.error (stopTrap (vget s.cores n) k va x), stopEffect n x s) := by
  unfold coreRead
  rw [h]
theorem coreRead_poison {ad : BitVec 64} {len : Nat} {q : Piece} (h : coreSpan s n k ad len = .ok [q])
    (hp : partOf s (coreFid n) = some p) (hr : partRead n p k q s = (.poison, q.pa, s)) :
    coreRead n k ad len s = (.error (stopTrap (vget s.cores n) k q.va .poison), poisonHit (coreFid n) s) := by
  have hparts : partsRead n p k [q] s = (.error (q, .poison, q.pa), s) := by rw [partsRead, hr]
  unfold coreRead
  rw [h, hp]
  dsimp only
  rw [hparts]
  rfl
theorem coreWrite_stopped {ad : BitVec 64} {bs : List Byte} {va : BitVec 64} {x : Stop}
    (h : coreSpan s n .store ad bs.length = .error (va, x)) :
    coreWrite n ad bs s = (some (stopTrap (vget s.cores n) .store va x), stopEffect n x s) := by
  unfold coreWrite
  rw [h]

/-! ### The ECC outcome of the line read -/

theorem eccRead_clean (a : Nat) : eccRead .clean a s = s := by
  unfold eccRead
  cases eccFid a <;> rfl
theorem eccAt_clean (ad : BitVec 64) (len : Nat) : eccAt n k ad len .clean s = s := by
  unfold eccAt
  split
  · exact eccRead_clean _
  · rfl
theorem eccAt_reg {ad : BitVec 64} {len : Nat} {q : Piece} (h : coreSpan s n k ad len = .ok [q])
    (ha : addrClass q.pa = .reg) : eccAt n k ad len e s = s := by
  have hfid : eccFid q.pa = none := by
    unfold eccFid
    rw [ha]
  have hecc : eccRead e q.pa s = s := by
    unfold eccRead
    rw [hfid]
  unfold eccAt
  rw [h]
  exact hecc
theorem eccAt_stopped {ad : BitVec 64} {len : Nat} {x : BitVec 64 × Stop} (h : coreSpan s n k ad len = .error x) :
    eccAt n k ad len e s = s := by
  unfold eccAt
  rw [h]

/-! ### Loads and fetches -/

/-- A core after a load or a fetch that read `bs`. -/
def Core.loaded (acc : MemAcc) (bs : List Byte) (c : Core) : Core :=
  match acc.kind with
  | .fetch => { c with pc := acc.pc }
  | _ => Core.retired (if acc.fp then { c with pc := acc.pc, f := vset c.f acc.rd (loadValue acc bs) }
      else { c with pc := acc.pc }.withX acc.rd (loadValue acc bs))

/-- The bytes of an access. -/
def accLen (acc : MemAcc) : Nat := 2 ^ acc.size.toNat

/-- The access of a load or a fetch, from the core at its pc. -/
def loadRead (n : Fin 48) (acc : MemAcc) (e : Ecc) (s : State) : Except Trap (List Byte) × State :=
  coreRead n acc.kind acc.addr (accLen acc) (eccAt n acc.kind acc.addr (accLen acc) e (atPc n acc.pc s))

theorem loadStore_loaded {bs : List Byte} (hk : acc.kind ≠ .store)
    (hr : loadRead n acc e s = (.ok bs, atPc n acc.pc s)) :
    loadStore n acc e s = s.modCore n (Core.loaded acc bs) := by
  unfold loadRead accLen at hr
  unfold loadStore
  dsimp only
  cases hkind : acc.kind with
  | store => exact absurd hkind hk
  | fetch =>
    rw [hkind] at hr
    dsimp only
    rw [hr]
    exact modCore_congr (by rw [Core.loaded, hkind])
  | load =>
    rw [hkind] at hr
    dsimp only
    rw [hr]
    dsimp only
    have hnot : ¬ AccKind.load = AccKind.fetch := by decide
    rw [if_neg hnot, setX_eq, atPc, retireAt]
    cases hfp : acc.fp
    · rw [if_neg Bool.false_ne_true, modCore_modCore, modCore_modCore]
      exact modCore_congr (by rw [Core.loaded, hkind, hfp, if_neg Bool.false_ne_true])
    · rw [if_pos rfl, modCore_modCore, modCore_modCore]
      exact modCore_congr (by rw [Core.loaded, hkind, hfp, if_pos rfl])

theorem exec_loaded {bs : List Byte} (hruns : coreRuns s n = true) (hk : acc.kind ≠ .store)
    (hr : loadRead n acc e s = (.ok bs, atPc n acc.pc s)) :
    exec (.loadStore n acc e) s = .next (settle (s.modCore n (Core.loaded acc bs))) := by
  have hexec : exec (.loadStore n acc e) s = doneIf (coreRuns s n) s (loadStore n acc e) := rfl
  rw [hexec, doneIf_free hruns (by rw [loadStore_loaded hk hr]; rfl), loadStore_loaded hk hr]

theorem rdBytes_atPc (pc : BitVec 64) (a len : Nat) : rdBytes (atPc n pc s) a len = rdBytes s a len := by
  induction len generalizing a with
  | zero => rfl
  | succ len ih => rw [rdBytes, rdBytes, ih, rdByte, rdByte, atPc, State.modCore]
theorem loadRead_dram {ps : List Piece} (hspan : coreSpan s n acc.kind acc.addr (accLen acc) = .ok ps)
    (h : ∀ q ∈ ps, isDram s q.pa = true ∧ poisoned s q.pa q.len = false) :
    loadRead n acc .clean s = (.ok (ps.flatMap fun q => rdBytes s q.pa q.len), atPc n acc.pc s) := by
  obtain ⟨p, hp⟩ := part_of_coreSpan hspan
  have hspan' := (coreSpan_atPc acc.pc acc.addr (accLen acc)).trans hspan
  rw [loadRead, eccAt_clean]
  have hread := partsRead_dram (n := n) (p := p) (k := acc.kind) (s := atPc n acc.pc s) (ps := ps) h
  simp only [rdBytes_atPc] at hread
  exact coreRead_ok hspan' hp hread
theorem loadRead_reg {q : Piece} (hspan : coreSpan s n acc.kind acc.addr (accLen acc) = .ok [q])
    (ha : addrClass q.pa = .reg) (hp : partOf s (coreFid n) = some p) :
    loadRead n acc e s =
      (.ok (natLe q.len (regLoad (atPc n acc.pc s) p (q.pa - regBase) q.len)), atPc n acc.pc s) := by
  have hspan' := (coreSpan_atPc acc.pc acc.addr (accLen acc)).trans hspan
  rw [loadRead, eccAt_reg hspan' ha]
  refine coreRead_ok hspan' hp ?_
  rw [partsRead, partRead_reg ha]
  simp only [partsRead, List.append_nil]

/-- Settles O24: both kinds of access read their bytes without an effect (`loadRead_dram`, `loadRead_reg`), and the
instruction is then a change of its core alone. -/
theorem coreLoads : Obligations.CoreLoads := by
  intro s n acc ps hruns hk hspan
  have hloads : ∀ (e : Ecc) (bs : List Byte), loadRead n acc e s = (.ok bs, atPc n acc.pc s) →
      ∃ t, exec (.loadStore n acc e) s = .next t ∧ t.mem = s.mem ∧ t.rat = s.rat ∧ t.poison = s.poison ∧
        SameCore (Core.loaded acc bs (vget s.cores n)) (vget t.cores n) ∧
        ∀ m, m ≠ n → SameCore (vget s.cores m) (vget t.cores m) := by
    intro e bs hr
    refine ⟨_, exec_loaded hruns hk hr, settle_mem _, settle_rat _, settle_poison _, sameCore_modCore _, fun m hm => ?_⟩
    have hm' := sameCore_settle m (s.modCore n (Core.loaded acc bs))
    rwa [vget_modCore_other hm] at hm'
  have hview : ∀ (e : Ecc) (bs : List Byte), loadRead n acc e s = (.ok bs, atPc n acc.pc s) → ∃ t,
      exec (.loadStore n acc e) s = .next t ∧ t.mem = s.mem ∧ t.rat = s.rat ∧ t.poison = s.poison ∧
        (acc.kind = .fetch → SameCore { vget s.cores n with pc := acc.pc } (vget t.cores n)) ∧
        (acc.kind = .load → acc.fp = true → SameCore (Core.retired { vget s.cores n with
          pc := acc.pc, f := vset (vget s.cores n).f acc.rd (loadValue acc bs) }) (vget t.cores n)) ∧
        (acc.kind = .load → acc.fp = false → SameCore (Core.retired { vget s.cores n with
          pc := acc.pc
          x := if acc.rd = 0 then (vget s.cores n).x else vset (vget s.cores n).x acc.rd (loadValue acc bs) })
            (vget t.cores n)) ∧
        ∀ m, m ≠ n → SameCore (vget s.cores m) (vget t.cores m) := by
    intro e bs hr
    obtain ⟨t, hexec, hmem, hrat, hpoison, hcore, hothers⟩ := hloads e bs hr
    refine ⟨t, hexec, hmem, hrat, hpoison, fun hkind => ?_, fun hkind hfp => ?_, fun hkind hfp => ?_, hothers⟩
    · rwa [Core.loaded, hkind] at hcore
    · rwa [Core.loaded, hkind, hfp, if_pos rfl] at hcore
    · rwa [Core.loaded, hkind, hfp, if_neg Bool.false_ne_true] at hcore
  exact ⟨fun h => hview .clean _ (loadRead_dram hspan h), fun q p hq ha hp e => by
    subst hq
    exact hview e _ (loadRead_reg hspan ha hp)⟩

end Sys2Proof.Machine
end

section
/-! PROOFS. An access of a core that is not performed (R74, R90, R91, R101, R102): it waits, or its core traps. -/
set_option Elab.async false
namespace Sys2Proof.Machine

variable {s : State} {n : Fin 48} {k : AccKind} {acc : MemAcc} {e : Ecc}

/-! ### What the stop leaves behind -/

theorem putCause_sets (f : Fid) {bit : Nat} (h : bit < 12) :
    (vget (putCause f bit s).flt (fidSlot f)).a.cause.getLsbD bit = true := by
  rw [putCause, State.modFlt, vmod, vget_vset_same]
  exact put_sets _ h

theorem sets_settle {f : Fid} {bit : Nat} (h : (vget s.flt (fidSlot f)).a.cause.getLsbD bit = true) :
    (vget (settle s).flt (fidSlot f)).a.cause.getLsbD bit = true := by
  rw [settle_flt]
  exact h

theorem stopEffect_mem (x : Stop) : (stopEffect n x s).mem = s.mem := by
  unfold stopEffect
  split <;> rfl
theorem stopEffect_cores (x : Stop) : (stopEffect n x s).cores = s.cores := by
  unfold stopEffect
  split <;> rfl
theorem stopEffect_waits {x : Stop} (h : x ≠ .held) : (stopEffect n x s).rat.waits = s.rat.waits := by
  unfold stopEffect
  split
  · exact absurd rfl h
  · rfl
  · rfl
  · rfl

/-! ### The trap taken -/

theorem traps_takeExc {pc : BitVec 64} {t : Trap} {u : State} (hc : u.cores = (atPc n pc s).cores) :
    Traps { vget s.cores n with pc := pc } (vget (settle (takeExc n t pc u)).cores n) t pc := by
  have hcore : vget u.cores n = { vget s.cores n with pc := pc } := by rw [hc, atPc_core]
  have h := sameCore_modCore (s := u) (n := n) fun c => trapInto (excMode c t.code) t false pc c
  rw [hcore] at h
  exact h

/-- A load, a store or a fetch that is not performed takes its exception after what the stop leaves behind. -/
theorem loadStore_stopped {va : BitVec 64} {x : Stop}
    (h : coreSpan s n acc.kind acc.addr (accLen acc) = .error (va, x)) :
    loadStore n acc e s = takeExc n (stopTrap { vget s.cores n with pc := acc.pc } acc.kind va x) acc.pc
      (stopEffect n x (atPc n acc.pc s)) := by
  have h' := (coreSpan_atPc acc.pc acc.addr (accLen acc)).trans h
  have hecc := eccAt_stopped (e := e) h'
  have hread := coreRead_stopped h'
  rw [atPc_core] at hread
  unfold accLen at h' hecc hread
  unfold loadStore
  dsimp only
  cases hkind : acc.kind with
  | store =>
    rw [hkind] at h'
    dsimp only
    rw [coreWrite_stopped (va := va) (x := x) (by rw [natLe_length]; exact h'), atPc_core]
  | load =>
    rw [hkind] at hecc hread
    dsimp only
    rw [hecc, hread]
  | fetch =>
    rw [hkind] at hecc hread
    dsimp only
    rw [hecc, hread]

/-- The same of a load or a fetch that reads a poisoned line of DRAM. -/
theorem loadStore_poisoned {q : Piece} (hk : acc.kind ≠ .store)
    (hspan : coreSpan s n acc.kind acc.addr (accLen acc) = .ok [q]) (hd : isDram s q.pa = true)
    (hpoison : poisoned s q.pa q.len = true) :
    loadStore n acc .clean s = takeExc n (stopTrap { vget s.cores n with pc := acc.pc } acc.kind q.va .poison) acc.pc
      (poisonHit (coreFid n) (atPc n acc.pc s)) := by
  obtain ⟨p, hp⟩ := part_of_coreSpan hspan
  have hspan' := (coreSpan_atPc acc.pc acc.addr (accLen acc)).trans hspan
  have hpart : partRead n p acc.kind q (atPc n acc.pc s) = (.poison, q.pa, atPc n acc.pc s) :=
    partRead_poison (s := atPc n acc.pc s) hd hpoison
  have hread := coreRead_poison hspan' hp hpart
  rw [atPc_core] at hread
  unfold accLen at hread
  unfold loadStore
  dsimp only
  cases hkind : acc.kind with
  | store => exact absurd hkind hk
  | load =>
    rw [hkind] at hread
    dsimp only
    rw [eccAt_clean, hread]
  | fetch =>
    rw [hkind] at hread
    dsimp only
    rw [eccAt_clean, hread]

/-! ### The outcome -/

/-- The codes of an access fault, a page fault and a guest-page fault by the kind of the access (R110). -/
def faultOf (k : AccKind) (load store fetch : Nat) : Nat :=
  match k with | .load => load | .store => store | .fetch => fetch
theorem stopTrap_access (c : Core) (k : AccKind) (va : BitVec 64) (r : Option (Bool × BitVec 3)) (a : Nat) :
    (stopTrap c k va (.access r a)).code = faultOf k 5 7 1 := by cases k <;> rfl
theorem stopTrap_poison (c : Core) (k : AccKind) (va : BitVec 64) :
    (stopTrap c k va .poison).code = faultOf k 5 7 1 := by cases k <;> rfl
theorem stopTrap_page (c : Core) (k : AccKind) (va : BitVec 64) :
    (stopTrap c k va .page).code = faultOf k 13 15 12 := by cases k <;> rfl
theorem stopTrap_guest (c : Core) (k : AccKind) (va : BitVec 64) (g : Nat) :
    (stopTrap c k va (.guest g)).code = faultOf k 21 23 20 := by cases k <;> rfl

/-- One that meets a region entry under reload waits (R91). -/
theorem exec_held (hruns : coreRuns s n = true) (hw : s.rat.waits = false) (hr : s.rat.reopened ≠ none) {va : BitVec 64}
    (h : coreSpan s n acc.kind acc.addr (accLen acc) = .error (va, .held)) :
    exec (.loadStore n acc e) s = .next s := by
  have hexec : exec (.loadStore n acc e) s = doneIf (coreRuns s n) s (loadStore n acc e) := rfl
  have hheld : (s.rat.reopened.isSome && (loadStore n acc e s).rat.waits && !s.rat.waits) = true := by
    rw [loadStore_stopped h, hw, Option.isSome_iff_ne_none.mpr hr]
    rfl
  rw [hexec, doneIf, if_pos hruns, doneFrom, if_pos hheld]
/-- Any other ends with its trap, settled. -/
theorem exec_stopped (hruns : coreRuns s n = true) {va : BitVec 64} {x : Stop} (hx : x ≠ .held)
    (h : coreSpan s n acc.kind acc.addr (accLen acc) = .error (va, x)) :
    exec (.loadStore n acc e) s = .next (settle
      (takeExc n (stopTrap { vget s.cores n with pc := acc.pc } acc.kind va x) acc.pc (stopEffect n x (atPc n acc.pc s)))) := by
  have hexec : exec (.loadStore n acc e) s = doneIf (coreRuns s n) s (loadStore n acc e) := rfl
  have hwaits : (loadStore n acc e s).rat.waits = s.rat.waits := by
    rw [loadStore_stopped h]
    exact stopEffect_waits hx
  rw [hexec, doneIf_free hruns hwaits, loadStore_stopped h]

theorem exec_poisoned (hruns : coreRuns s n = true) {q : Piece} (hk : acc.kind ≠ .store)
    (hspan : coreSpan s n acc.kind acc.addr (accLen acc) = .ok [q]) (hd : isDram s q.pa = true)
    (hpoison : poisoned s q.pa q.len = true) :
    exec (.loadStore n acc .clean) s = .next (settle
      (takeExc n (stopTrap { vget s.cores n with pc := acc.pc } acc.kind q.va .poison) acc.pc
        (poisonHit (coreFid n) (atPc n acc.pc s)))) := by
  have hexec : exec (.loadStore n acc .clean) s = doneIf (coreRuns s n) s (loadStore n acc .clean) := rfl
  have heq := loadStore_poisoned hk hspan hd hpoison
  rw [hexec, doneIf_free hruns (by rw [heq]; rfl), heq]

/-- Settles O26: the stop of the access leaves its record (`stopEffect`) and gives the trap its code and address
(`stopTrap`); only a held one leaves the command to wait. -/
theorem refusedAccessTraps : Obligations.RefusedAccessTraps := by
  intro s n acc e hruns hw
  refine ⟨fun va x h => ⟨fun hx hr => ?_, fun hx => ?_⟩, fun q hk hspan hd hpoison => ?_⟩
  · subst hx
    exact exec_held hruns hw hr h
  · have hcores : (stopEffect n x (atPc n acc.pc s)).cores = (atPc n acc.pc s).cores := stopEffect_cores x
    refine ⟨_, _, exec_stopped hruns hx h, ?_, traps_takeExc hcores, rfl, ?_, fun hp => ?_, fun g hg => ?_,
      fun r a ha => ?_, fun w cause a ha => ?_, fun a ha => ?_, fun hp => ?_⟩
    · rw [settle_mem]
      exact stopEffect_mem x
    · cases x <;> rfl
    · subst hp
      rw [settle_rat]
      exact ⟨stopTrap_page _ _ _, rfl⟩
    · subst hg
      rw [settle_rat]
      exact ⟨stopTrap_guest _ _ _ _, rfl, rfl⟩
    · subst ha
      exact stopTrap_access _ _ _ _ _
    · subst ha
      exact ⟨settle_rat _, sets_settle (putCause_sets _ (by decide))⟩
    · subst ha
      exact ⟨settle_rat _, settle_flt _⟩
    · subst hp
      exact ⟨stopTrap_poison _ _ _, sets_settle (putCause_sets _ (by decide))⟩
  · refine ⟨_, _, exec_poisoned hruns hk hspan hd hpoison, ?_, ?_, traps_takeExc rfl, stopTrap_poison _ _ _, rfl⟩
    · rw [settle_mem]
      rfl
    · exact sets_settle (putCause_sets _ (by decide))

end Sys2Proof.Machine
end

section
/-! SUPPORT. A range of memory worked off word by word (R156): what is read are its bytes in order, what is written is the
whole string, and in DRAM that the rules allow no word fails. -/
set_option Elab.async false
namespace Sys2Proof.Machine

variable {s : State} {a n : Nat}

/-! ### The words of a range -/

/-- Where word `i` of a range begins; past the last word, the range's end. -/
def wordCut (a n i : Nat) : Nat := min (a + n) (max a ((a / 8 + i) * 8))
/-- How many words a range touches. -/
def wordCount (a n : Nat) : Nat := (a + n - 1) / 8 - a / 8 + 1

theorem wordsOf_empty : wordsOf a 0 = [] := if_pos rfl
theorem wordsOf_eq (h : 0 < n) : wordsOf a n =
    (List.range (wordCount a n)).map fun i => (wordCut a n i, wordCut a n (i + 1) - wordCut a n i) := by
  rw [wordsOf, if_neg (by omega)]
  refine List.map_congr_left fun i hi => ?_
  have hi' : i < (a + n - 1) / 8 - a / 8 + 1 := List.mem_range.mp hi
  simp only [wordCut, Prod.mk.injEq]
  omega
theorem wordCut_zero : wordCut a n 0 = a := by
  unfold wordCut
  omega
theorem wordCut_count (h : 0 < n) : wordCut a n (wordCount a n) = a + n := by
  unfold wordCut wordCount
  omega
theorem wordCut_step {i : Nat} (h : 0 < n) (hi : i < wordCount a n) :
    wordCut a n i < wordCut a n (i + 1) ∧ wordCut a n (i + 1) ≤ a + n ∧ a ≤ wordCut a n i ∧
      (wordCut a n i = a ∨ wordCut a n i % 8 = 0) := by
  unfold wordCount at hi
  unfold wordCut
  omega

/-- A fold over the words of a range: what holds of `k` bytes done is carried from word to word to the range's end. -/
theorem foldl_words {σ : Type} (f : σ → Nat × Nat → σ) (P : Nat → σ → Prop) {x : σ} (hzero : P 0 x)
    (hstep : ∀ k w y, 0 < w → k + w ≤ n → (k = 0 ∨ (a + k) % 8 = 0) → P k y → P (k + w) (f y (a + k, w))) : P n ((wordsOf a n).foldl f x) := by
  rcases Nat.eq_zero_or_pos n with rfl | hpos
  · rw [wordsOf_empty]
    exact hzero
  rw [wordsOf_eq hpos]
  have hprefix : ∀ i, i ≤ wordCount a n → P (wordCut a n i - a) (((List.range i).map fun i =>
      (wordCut a n i, wordCut a n (i + 1) - wordCut a n i)).foldl f x) := by
    intro i
    induction i with
    | zero =>
      intro _
      rw [wordCut_zero, Nat.sub_self]
      exact hzero
    | succ i ih =>
      intro hi
      obtain ⟨hlt, hle, hge, halign⟩ := wordCut_step hpos (Nat.lt_of_succ_le hi)
      have h := hstep (wordCut a n i - a) (wordCut a n (i + 1) - wordCut a n i) _ (by omega) (by omega)
        (by rw [Nat.add_sub_cancel' hge]; omega) (ih (Nat.le_of_succ_le hi))
      rw [List.range_succ, List.map_append, List.foldl_append]
      rw [Nat.add_sub_cancel' hge] at h
      rw [show wordCut a n i - a + (wordCut a n (i + 1) - wordCut a n i) = wordCut a n (i + 1) - a by omega] at h
      exact h
  have h := hprefix (wordCount a n) le_rfl
  rwa [wordCut_count hpos, Nat.add_sub_cancel_left] at h

/-! ### Bytes read and written in two parts -/

@[simp] theorem rdBytes_length (s : State) (a n : Nat) : (rdBytes s a n).length = n := by
  induction n generalizing a with
  | zero => rfl
  | succ n ih => rw [rdBytes, List.length_cons, ih]
theorem rdBytes_add (s : State) (a k n : Nat) : rdBytes s a (k + n) = rdBytes s a k ++ rdBytes s (a + k) n := by
  induction k generalizing a with
  | zero => rw [Nat.zero_add, Nat.add_zero, rdBytes, List.nil_append]
  | succ k ih =>
    rw [Nat.add_right_comm, rdBytes, rdBytes, ih, List.cons_append, Nat.add_right_comm a 1 k]
    rfl
theorem memPut_append (m : List Host.Cell) (a : Nat) (bs cs : List Byte) :
    memPut m a (bs ++ cs) = memPut (memPut m a bs) (a + bs.length) cs := by
  induction bs generalizing m a with
  | nil => rfl
  | cons b bs ih =>
    rw [List.cons_append, memPut, memPut, ih, List.length_cons, Nat.add_right_comm a 1, ← Nat.add_assoc]
/-- A string put piece by piece: `k` bytes, then `w` more. -/
theorem memPut_take (m : List Host.Cell) (a : Nat) (bs : List Byte) {k w : Nat} (h : k + w ≤ bs.length) :
    memPut (memPut m a (bs.take k)) (a + k) ((bs.drop k).take w) = memPut m a (bs.take (k + w)) := by
  rw [List.take_add, memPut_append, List.length_take, Nat.min_eq_left (by omega)]

/-! ### DRAM that the rules allow (R86, R91) -/

theorem ratHeld_free (h : s.rat.reopened = none) (p : Fin 32) (a n : Nat) : ratHeld s p a n = false := by
  rw [ratHeld, h]
theorem isDram_class (h : isDram s a = true) : addrClass a = .ddr ∨ ∃ k, addrClass a = .stack k := by
  unfold isDram at h
  split at h
  next hc => exact Or.inl hc
  next k hc => exact Or.inr ⟨k, hc⟩
  next => exact absurd h Bool.false_ne_true
theorem wordRead_dram {u : Unit_} (hd : isDram s a = true) (hr : s.rat.reopened = none)
    (hrat : ratCheck s u.part a .load u.side = none) (hp : poisoned s a n = false) :
    wordRead u a n s = (.ok (rdBytes s a n), s) := by
  unfold wordRead
  rcases isDram_class hd with hc | ⟨k, hc⟩
  all_goals
    rw [hc]
    dsimp only
    rw [ratHeld_free hr, hrat, hp]
    rfl
theorem wordWrite_dram {u : Unit_} {bs : List Byte} (hd : isDram s a = true) (hr : s.rat.reopened = none)
    (hrat : ratCheck s u.part a .store u.side = none) (hp : poisoned s a bs.length = false) :
    wordWrite u a bs s = (.ok [], putRaw s a bs) := by
  unfold wordWrite
  rcases isDram_class hd with hc | ⟨k, hc⟩
  all_goals
    rw [hc]
    dsimp only
    rw [ratHeld_free hr, hrat, hp, Bool.and_false]
    rfl
/-- A range without poison has none in a part of it. -/
theorem poisoned_part {k w : Nat} (h : poisoned s a n = false) (hw : k + w ≤ n) : poisoned s (a + k) w = false := by
  unfold poisoned at h ⊢
  rw [List.any_eq_false] at h ⊢
  intro x hx hpart
  refine h x hx ?_
  simp only [Bool.and_eq_true, decide_eq_true_eq] at hpart ⊢
  omega

/-- One word of a range read. -/
def readWord (u : Unit_) (r : AccRes × Nat × State) (w : Nat × Nat) : AccRes × Nat × State :=
  match r.1 with
  | .ok d => match wordRead u w.1 w.2 r.2.2 with
    | (.ok e, s) => (.ok (d ++ e), 0, s)
    | (x, s) => (x, w.1, s)
  | _ => r
/-- One word of a range written. -/
def writeWord (u : Unit_) (a : Nat) (bs : List Byte) (r : AccRes × Nat × State) (w : Nat × Nat) : AccRes × Nat × State :=
  match r.1 with
  | .ok _ => match wordWrite u w.1 ((bs.drop (w.1 - a)).take w.2) r.2.2 with
    | (.ok _, s) => (.ok [], 0, s)
    | (x, s) => (x, w.1, s)
  | _ => r
/-- The address in memory whose poison a write clears. -/
def poisonBase (a : Nat) : Nat := match addrClass a with
  | .peat k => a - apertureBase k + stackBase k
  | _ => a
theorem rangeRead_eq (u : Unit_) : rangeRead u a n s = (wordsOf a n).foldl (readWord u) (.ok [], 0, s) := rfl
theorem rangeWrite_ok {u : Unit_} {bs d : List Byte} {b : Nat} {t : State}
    (h : (wordsOf a bs.length).foldl (writeWord u a bs) (.ok [], 0, s) = (.ok d, b, t)) :
    rangeWrite u a bs s = (.ok [], 0, { t with poison := clearPoison t.poison (poisonBase a) bs.length }) := by
  have hdef : ∀ r, (wordsOf a bs.length).foldl (writeWord u a bs) (.ok [], 0, s) = r → rangeWrite u a bs s =
      match r.1 with
      | .ok _ => (.ok [], 0, { r.2.2 with poison := clearPoison r.2.2.poison (poisonBase a) bs.length })
      | _ => r := by
    rintro r rfl
    rfl
  exact hdef _ h

/-- A read of a range of DRAM that the rules allow gives its bytes and changes nothing. -/
theorem rangeRead_words {u : Unit_} (hword : ∀ k w, 0 < w → k + w ≤ n → (k = 0 ∨ (a + k) % 8 = 0) →
    wordRead u (a + k) w s = (.ok (rdBytes s (a + k) w), s)) : rangeRead u a n s = (.ok (rdBytes s a n), 0, s) := by
  refine foldl_words (readWord u) (fun k (y : AccRes × Nat × State) => y = (AccRes.ok (rdBytes s a k), 0, s)) rfl
    fun k w y hw hk hal hy => ?_
  subst hy
  simp only [readWord, hword k w hw hk hal, rdBytes_add]
theorem rangeRead_dram {u : Unit_} (h : DramRange s u.part .load u.side a n) :
    rangeRead u a n s = (.ok (rdBytes s a n), 0, s) := by
  obtain ⟨hbytes, hp, hr⟩ := h
  refine rangeRead_words fun k w hw hk _ => ?_
  obtain ⟨hd, hrat⟩ := hbytes (a + k) (by omega) (by omega)
  exact wordRead_dram hd hr hrat (poisoned_part hp hk)

/-- A state with another memory and other cores. -/
def State.withMem (s : State) (m : List Host.Cell) (cs : Vector Core 48) : State := { s with mem := m, cores := cs }

/-- A write of a range of DRAM that the rules allow puts its bytes, and touches cores and poison besides. -/
theorem rangeWrite_dram {u : Unit_} {bs : List Byte} (h : DramRange s u.part .store u.side a bs.length) :
    ∃ cs l, rangeWrite u a bs s = (.ok [], 0, { s.withMem (memPut s.mem a bs) cs with poison := l }) := by
  obtain ⟨hbytes, hp, hr⟩ := h
  have hfold := foldl_words (a := a) (n := bs.length) (writeWord u a bs)
    (fun k y => ∃ cs, y = (AccRes.ok [], 0, s.withMem (memPut s.mem a (bs.take k)) cs)) (x := (.ok [], 0, s)) ⟨s.cores, rfl⟩ ?_
  · obtain ⟨cs, hcs⟩ := hfold
    rw [List.take_length] at hcs
    exact ⟨cs, _, rangeWrite_ok hcs⟩
  · rintro k w y hw hk - ⟨cs, rfl⟩
    obtain ⟨hd, hrat⟩ := hbytes (a + k) (by omega) (by omega)
    have hlen : ((bs.drop k).take w).length = w := by
      rw [List.length_take, List.length_drop]
      omega
    have hword : wordWrite u (a + k) ((bs.drop k).take w) (s.withMem (memPut s.mem a (bs.take k)) cs) =
        (.ok [], putRaw (s.withMem (memPut s.mem a (bs.take k)) cs) (a + k) ((bs.drop k).take w)) := by
      refine wordWrite_dram hd hr hrat ?_
      rw [hlen]
      exact poisoned_part (s := s) hp hk
    refine ⟨snoopWrite cs (a + k) ((bs.drop k).take w).length, ?_⟩
    simp only [writeWord, Nat.add_sub_cancel_left, hword]
    simp only [putRaw, State.withMem, memPut_take _ _ _ hk]

end Sys2Proof.Machine
end

section
/-! PROOFS. Tile registers and the way of an operator through its tile (R149, R155, R173 to R175). -/
set_option Elab.async false
namespace Sys2Proof.Machine

variable {s : State} {n : Fin 64} {w : Master}

/-! ### Tile registers -/

theorem exec_spmodeWrite (hw : Admits w (loomBase n) s) (win : Bool) :
    exec (.spmodeWrite w n win) s = .next (settle (spmodeSet n win s)) :=
  congrArg (fun t => Host.Outcome.next (settle t)) (regWriteAt_of_admits hw _)
theorem exec_loomInval (hw : Admits w (loomBase n + 0x10) s) :
    exec (.loomInval w n) s = .next (settle (loomInvalidate n s)) :=
  congrArg (fun t => Host.Outcome.next (settle t)) (regWriteAt_of_admits hw _)

theorem spmodeSet_lane (h : (vget s.tiles n).lane = true) (win : Bool) : spmodeSet n win s = s := if_pos h
theorem spmodeSet_busy (h : (vget s.tiles n).lane = false) (hs : tileState s n ≠ 0) (win : Bool) :
    spmodeSet n win s = loomErr n 4 0 s := by
  unfold spmodeSet
  dsimp only
  rw [h, if_neg Bool.false_ne_true, if_pos hs]
theorem spmodeSet_idle (h : (vget s.tiles n).lane = false) (hs : tileState s n = 0) (win : Bool) :
    spmodeSet n win s = { s with tiles := vset s.tiles n { vget s.tiles n with
      windowed := win
      cache := if win = true ∧ (vget s.tiles n).windowed = false then [] else (vget s.tiles n).cache } } := by
  unfold spmodeSet
  dsimp only
  rw [if_neg (by rw [h]; decide), if_neg (not_not.mpr hs)]
  cases win <;> cases hwin : (vget s.tiles n).windowed <;>
    simp [loomInvalidate, State.modTile, vmod, vset_vset]

/-! ### OPERATOR (R173, R174) -/

variable {q : Fin 64} {k : Nat} {c : Cmd} {p : Fin 32}

/-- The operator is handed to tile n, and its command waits. -/
def operatorGiven (q : Fin 64) (k : Nat) (c : Cmd) (p : Fin 32) (n : Fin 64) (d : List Byte) (s : State) : State :=
  setCmd q k .waiting (s.modTile n fun x => { x with jobs := x.jobs ++ [{ origin := (q, c.slot), desc := d, part := p }] })
/-- A unit that fetches a descriptor for a command of partition `p`. -/
def fetchUnit (f : Fid) (p : Fin 32) : Unit_ := { fid := f, part := p, side := .plain, core := true }

theorem exec_operator (hb : beginCmd s q k 0x10 = some c) :
    exec (.operator q k) s = doneFrom s (operatorBegin q k c s) := by
  have hexec : exec (.operator q k) s = execOperator q k s := rfl
  rw [hexec, execOperator, hb]

section
variable (hp : queuePart s q = some p) (hz : zeroAt c.bytes 40 24 = true) (ht : fidIdx c.target = n.val)
include hp hz

theorem operatorBegin_unaligned (ha : leAt c.bytes 32 8 ≠ 0) (hal : leAt c.bytes 32 8 % 64 ≠ 0) :
    operatorBegin q k c s = endCmd q k 0x121 0 s := by
  unfold operatorBegin
  simp only [hp, hz]
  rw [if_neg (by decide), if_neg ha, if_pos hal]
theorem operatorBegin_badInline (ha : leAt c.bytes 32 8 = 0)
    (hlen : c.inlineLen ≠ leAt c.inline 2 2 ∨ c.inlineLen < 32) : operatorBegin q k c s = endCmd q k 0x121 0 s := by
  have hbad : ¬ (c.inlineLen = leAt c.inline 2 2 && decide (32 ≤ c.inlineLen)) = true := by
    simp only [Bool.and_eq_true, decide_eq_true_eq]
    omega
  unfold operatorBegin
  simp only [hp, hz]
  rw [if_neg (by decide), if_pos ha, if_neg hbad]

include ht
theorem tile_of_target : (⟨fidIdx c.target % 64, Nat.mod_lt _ (by decide)⟩ : Fin 64) = n := by
  ext
  exact (congrArg (· % 64) ht).trans (Nat.mod_eq_of_lt n.isLt)
theorem operatorBegin_inline (ha : leAt c.bytes 32 8 = 0) (hlen : c.inlineLen = leAt c.inline 2 2)
    (hmin : 32 ≤ c.inlineLen) : operatorBegin q k c s = operatorGiven q k c p n c.inline s := by
  have hok : (c.inlineLen = leAt c.inline 2 2 && decide (32 ≤ c.inlineLen)) = true := by
    simp only [Bool.and_eq_true, decide_eq_true_eq]
    exact ⟨hlen, hmin⟩
  unfold operatorBegin
  simp only [hp, hz]
  rw [if_neg (by decide), if_pos ha, if_pos hok, tile_of_target hp hz ht]
  rfl
theorem operatorBegin_memory {h d : List Byte} (ha : leAt c.bytes 32 8 ≠ 0) (hal : leAt c.bytes 32 8 % 64 = 0)
    (hd : isDram s (leAt c.bytes 32 8) = true)
    (hh : ∀ f, rangeRead (fetchUnit f p) (leAt c.bytes 32 8) 32 s = (.ok h, 0, s))
    (hread : ∀ f, rangeRead (fetchUnit f p) (leAt c.bytes 32 8) (max 32 (min 192 (leAt h 2 2))) s = (.ok d, 0, s)) :
    operatorBegin q k c s = operatorGiven q k c p n d s := by
  unfold fetchUnit at hh hread
  unfold operatorBegin
  simp only [hp, hz]
  rw [if_neg (by decide), if_neg ha, if_neg (not_not.mpr hal)]
  refine (if_neg ?_).trans ?_
  · rcases isDram_class hd with hc | ⟨_, hc⟩ <;> simp [hc]
  · rw [hh]
    dsimp only
    rw [hread, tile_of_target hp hz ht]
    rfl
end

theorem class_of_ratCheck {a : Nat} {kind : AccKind} {side : Side} (hlow : a < 0x20000000000)
    (h : ratCheck s p a kind side = none) : isDram s a = true := by
  have hclass : addrClass a = .ddr ∨ (∃ k, addrClass a = .stack k) ∨ addrClass a = .reserved := by
    unfold addrClass
    split_ifs
    · exact Or.inl rfl
    · exact Or.inr (Or.inl ⟨_, rfl⟩)
    · exact Or.inr (Or.inr rfl)
  unfold ratCheck at h
  unfold isDram
  rcases hclass with hc | ⟨_, hc⟩ | hc
  · rw [hc] at h ⊢
    by_contra hsize
    simp only [decide_eq_true_eq, not_lt] at hsize
    simp [hsize] at h
  · rw [hc]
  · simp [hc] at h
/-- Up to 192 bytes of DRAM at an aligned address, allowed word by word, are read without a fault. -/
theorem rangeRead_of_words {a m : Nat} (hd : isDram s a = true) (hal : a % 64 = 0) (hr : s.rat.reopened = none)
    (hrat : ∀ i, i < 24 → ratCheck s p (a + 8 * i) .load .plain = none) (hpo : poisoned s a 192 = false) (hm : m ≤ 192)
    (f : Fid) : rangeRead (fetchUnit f p) a m s = (.ok (rdBytes s a m), 0, s) := by
  have hlow : a < 0x13000000000 := by
    by_contra hhigh
    rcases isDram_class hd with hc | ⟨_, hc⟩
    all_goals
      unfold addrClass at hc
      split_ifs at hc
      all_goals omega
  refine rangeRead_words fun k w hw hk hk8 => ?_
  have hword : a + 8 * (k / 8) = a + k := by omega
  have hcheck := hrat (k / 8) (by omega)
  rw [hword] at hcheck
  exact wordRead_dram (class_of_ratCheck (by omega) hcheck) hr hcheck (poisoned_part hpo (by omega))

/-! ### The job's start and end (R174, R175) -/

variable {j : OpJob} {rest : List OpJob}

theorem opEnd_frame (st d : Nat) :
    opEnd n j st d s = { s with tiles := (opEnd n j st d s).tiles, queues := (opEnd n j st d s).queues } := rfl
theorem opEnd_tile (st d : Nat) : vget (opEnd n j st d s).tiles n = { vget s.tiles n with
    jobs := (vget s.tiles n).jobs.drop 1
    gate := if (vget s.tiles n).jobs.length ≤ 1 && !(vget s.tiles n).lane then 1 else 0 } := vget_vset_same ..
/-- The one command of its queue that runs for the job ends with the job's status. -/
theorem opEnd_command {x : Cmd} (hdisp : (vget s.queues j.origin.1).disp = [x]) (hslot : x.slot = j.origin.2)
    (hrun : x.st = .running) (st d : Nat) : (vget (opEnd n j st d s).queues j.origin.1).disp =
      [{ x with st := .done (BitVec.ofNat 16 st) (BitVec.ofNat 32 d) (stamp s) }] := by
  unfold opEnd finishCmd State.modQueue vmod
  rw [vget_vset_same]
  have hq : (vget (s.modTile n fun t => { t with
      jobs := t.jobs.drop 1, gate := if t.jobs.length ≤ 1 && !t.lane then 1 else 0 }).queues j.origin.1).disp = [x] := hdisp
  beta_reduce
  rw [hq]
  simp [List.findIdx?_cons, hslot, hrun]
  rfl

theorem exec_operatorStart (hjobs : (vget s.tiles n).jobs = j :: rest) (hst : j.started = false)
    (hheld : (vget s.tiles n).held = false) (hfence : isFenced s (fidMk 2 n) = false) (hmode : s.island.mode = .full) :
    exec (.operatorStart n) s = .next (settle (operatorStartOf n j s)) := by
  have hb : (!j.started && !(vget s.tiles n).held && !isFenced s (fidMk 2 n) && s.island.mode = .full) = true := by
    simp [hst, hheld, hfence, hmode]
  have hexec : exec (.operatorStart n) s =
      doneIf (!j.started && !(vget s.tiles n).held && !isFenced s (fidMk 2 n) && s.island.mode = .full) s
        (operatorStartOf n j) := by
    have h : exec (.operatorStart n) s = execOperatorStart n s := rfl
    rw [h, execOperatorStart, hjobs]
  rw [hexec]
  refine doneIf_free hb ?_
  unfold operatorStartOf
  dsimp only
  split_ifs <;> rfl

/-- The state with the job started and its command running. -/
def jobRuns (n : Fin 64) (j : OpJob) (s : State) : State :=
  (s.modTile n fun t => { t with gate := 0, jobs := { j with started := true } :: t.jobs.drop 1 }).modQueue j.origin.1
    fun q => { q with disp := q.disp.map fun c =>
      if c.slot = j.origin.2 && c.st = .waiting then { c with st := .running } else c }
theorem operatorStartOf_listed (h : opDlen (leAt j.desc 0 2) ≠ none) : operatorStartOf n j s = jobRuns n j s :=
  if_neg (by rwa [Option.isNone_iff_eq_none])
theorem operatorStartOf_unlisted (h : opDlen (leAt j.desc 0 2) = none) :
    operatorStartOf n j s = opEnd n j 0x120 0 (jobRuns n j s) :=
  if_pos (by rwa [Option.isNone_iff_eq_none])
theorem jobRuns_tile : vget (jobRuns n j s).tiles n =
    { vget s.tiles n with gate := 0, jobs := { j with started := true } :: (vget s.tiles n).jobs.drop 1 } :=
  vget_vset_same ..

/-- What the start of a tile's first waiting job leaves. -/
theorem operatorStartOf_leaves (hjobs : (vget s.tiles n).jobs = j :: rest) :
    (vget (operatorStartOf n j s).tiles n).gate.toNat ≤ 1 ∧ (operatorStartOf n j s).mem = s.mem ∧
    ((opDlen (leAt j.desc 0 2)).isSome = true →
      (vget (operatorStartOf n j s).tiles n).jobs = { j with started := true } :: rest ∧
        (vget (operatorStartOf n j s).tiles n).gate = 0) ∧
    (opDlen (leAt j.desc 0 2) = none → (vget (operatorStartOf n j s).tiles n).jobs = rest) := by
  by_cases hlist : opDlen (leAt j.desc 0 2) = none
  · have htile := opEnd_tile (n := n) (j := j) (s := jobRuns n j s) 0x120 0
    rw [operatorStartOf_unlisted hlist, htile, jobRuns_tile, hjobs]
    refine ⟨?_, rfl, fun h => ?_, fun _ => rfl⟩
    · dsimp only
      split_ifs <;> decide
    · rw [hlist] at h
      cases h
  · rw [operatorStartOf_listed hlist, jobRuns_tile, hjobs]
    exact ⟨Nat.zero_le 1, rfl, fun _ => ⟨rfl, rfl⟩, fun h => absurd h hlist⟩

/-! ### Operators as rows -/

theorem opRow_of_job {opid : Nat} {body : OpJob → OpCtx → OpDesc → State → State} (hj : opJob s n opid = some j)
    (hr : s.rat.reopened = none) : opRow n opid body s = .next (settle (opRun n j (body j) s)) := by
  unfold opRow
  rw [hj]
  exact doneFrom_next hr _
theorem opRun_checked {st : Nat} {body : OpCtx → OpDesc → State → State} (h : descCheck (opDesc j.desc) = some st) :
    opRun n j body s = opEnd n j st 0 s := by
  unfold opRun
  dsimp only
  rw [h]
theorem opRun_operates {opid : Nat} {u : State} {body : OpCtx → OpDesc → State → State} (h : Operates s n opid j u) :
    opRun n j body s = body ⟨n, j.part⟩ (opDesc j.desc) u := by
  obtain ⟨-, hcheck, hu⟩ := h
  unfold opRun
  dsimp only
  rw [hcheck, hu]
theorem opFlag_flagged {u u1 : State} (h : Flagged n j u u1) (e : Exc) :
    opFlag ⟨n, j.part⟩ (opDesc j.desc) j e u = opEnd n j 0 e.toNat u1 := by
  unfold Flagged at h
  unfold opFlag
  dsimp only at h ⊢
  by_cases hz : (opDesc j.desc).flagAddr = 0
  · rw [if_pos hz] at h ⊢
    rw [h]
  · rw [if_neg hz] at h ⊢
    rw [h]

/-- A descriptor that a check refuses ends the operator with the check's status, whatever the operator. -/
theorem operator_refused {x : Instr} {opid st : Nat} (hx : (x, opid) ∈ [(Instr.opNop n, 0), (.gemm n, 1), (.eltwise n, 0x10),
      (.act n, 0x11), (.reduce n, 0x20), (.softmax n, 0x21), (.norm n, 0x22), (.convert n, 0x30), (.gather n, 0x40)])
    (hj : opJob s n opid = some j) (hr : s.rat.reopened = none) (hcheck : descCheck (opDesc j.desc) = some st) :
    exec x s = .next (settle (opEnd n j st 0 s)) := by
  have hrow : ∀ body, opRow n opid body s = .next (settle (opEnd n j st 0 s)) := fun body => by
    rw [opRow_of_job hj hr, opRun_checked hcheck]
  simp only [List.mem_cons, Prod.mk.injEq, List.not_mem_nil, or_false] at hx
  rcases hx with ⟨rfl, rfl⟩ | ⟨rfl, rfl⟩ | ⟨rfl, rfl⟩ | ⟨rfl, rfl⟩ | ⟨rfl, rfl⟩ | ⟨rfl, rfl⟩ | ⟨rfl, rfl⟩ | ⟨rfl, rfl⟩ |
    ⟨rfl, rfl⟩
  all_goals exact hrow _

/-- Settles O36: tile registers by their cases, the command by how its descriptor is given (inline, or read from DRAM
word by word), and the job by what its start and end leave in the tile. -/
theorem loomTiles : Obligations.LoomTiles := by
  intro s n
  refine ⟨fun w win hw => ⟨fun hl => ?_, fun hl hs => ?_, fun hl hs => ?_⟩, fun w hw => exec_loomInval hw,
    fun q k c p hb hp ht hz => ⟨fun ha hlen hmin => ?_, fun ha hlen => ?_, fun ha hal => ?_,
      fun ha hal hd hr hrat hpo => ?_⟩, fun j rest hjobs hst hheld hfence hmode => ?_,
    fun j hj hr u hu u1 hflag => ?_, fun x opid j st hx hj hr hcheck => operator_refused hx hj hr hcheck,
    fun j rest st d hjobs => ⟨opEnd_frame st d, ?_, fun hrest hl => ?_, fun c hdisp hslot hrun =>
      opEnd_command hdisp hslot hrun st d⟩⟩
  · rw [exec_spmodeWrite hw, spmodeSet_lane hl]
  · rw [exec_spmodeWrite hw, spmodeSet_busy hl hs]
    rfl
  · rw [exec_spmodeWrite hw, spmodeSet_idle hl hs]
  · rw [exec_operator hb, operatorBegin_inline hp hz ht ha hlen hmin]
    exact doneFrom_free rfl
  · rw [exec_operator hb, operatorBegin_badInline hp hz ha hlen]
    exact doneFrom_free rfl
  · rw [exec_operator hb, operatorBegin_unaligned hp hz ha hal]
    exact doneFrom_free rfl
  · have hread := fun (m : Nat) (hm : m ≤ 192) (f : Fid) => rangeRead_of_words hd hal hr hrat hpo hm f
    rw [exec_operator hb, operatorBegin_memory hp hz ht ha hal hd (hread 32 (by decide)) (hread _ (by omega))]
    exact doneFrom_free rfl
  · obtain ⟨hgate, hmem, hlisted, hunlisted⟩ := operatorStartOf_leaves hjobs
    refine ⟨_, exec_operatorStart hjobs hst hheld hfence hmode, ?_⟩
    rw [settle_tiles, settle_mem]
    exact ⟨hgate, hmem, hlisted, hunlisted⟩
  · refine (opRow_of_job hj hr).trans ?_
    rw [opRun_operates hu]
    exact congrArg (fun t => Host.Outcome.next (settle t)) (opFlag_flagged hflag 0)
  · rw [opEnd_tile, hjobs]
    rfl
  · rw [opEnd_tile, hjobs, hrest]
    dsimp only
    rw [hl]
    rfl

end Sys2Proof.Machine
end

section
/-! PROOFS. Operands in a tile's own scratchpad (R151, R177), and what the operators of Table 8.5 write (R175, R184 to
R186). -/
set_option Elab.async false
namespace Sys2Proof.Machine

variable {s : State} {n : Fin 64} {p : Fin 32}

/-! ### A tile's own scratchpad -/

theorem tileRef_own {a : Nat} (h : a < 0x800000) : tileRef s n p a = .pad n a false := if_pos h
theorem tileWordRead_own {a len : Nat} (h : a < 0x800000) :
    tileWordRead n p ⟨false, a⟩ len s = (.ok (rdBytes s (hostBase n + a) len), s) := by
  unfold tileWordRead
  dsimp only
  rw [if_neg Bool.false_ne_true, tileRef_own h]
  rfl
theorem tileWordWrite_own {a : Nat} (h : a < 0x800000) (bs : List Byte) :
    tileWordWrite n p ⟨false, a⟩ bs s = (.ok [], putRaw s (hostBase n + a) bs) := by
  unfold tileWordWrite
  dsimp only
  rw [if_neg Bool.false_ne_true, tileRef_own h]
  dsimp only
  rw [if_pos h]

/-- One word of an operator's read. -/
def tileReadWord (n : Fin 64) (p : Fin 32) (phys : Bool) (r : OpM (List Byte)) (w : Nat × Nat) : OpM (List Byte) :=
  match r with
  | (.ok d, s) => match tileWordRead n p ⟨phys, w.1⟩ w.2 s with
    | (.ok e, s) => (.ok (d ++ e), s)
    | (f, s) => (.error (accEnd f w.1), s)
  | r => r
/-- One word of an operator's write. -/
def tileWriteWord (n : Fin 64) (p : Fin 32) (x : OpAddr) (bs : List Byte) (r : OpM Unit) (w : Nat × Nat) : OpM Unit :=
  match r with
  | (.ok _, s) => match tileWordWrite n p ⟨x.phys, w.1⟩ ((bs.drop (w.1 - x.addr)).take w.2) s with
    | (.ok _, s) => (.ok (), s)
    | (f, s) => (.error (accEnd f w.1), s)
  | r => r
theorem tileRead_eq (x : OpAddr) (len : Nat) :
    tileRead n p x len s = (wordsOf x.addr len).foldl (tileReadWord n p x.phys) (.ok [], s) := rfl
theorem tileWrite_ok {x : OpAddr} {bs : List Byte} {t : State} (hx : x.phys = false)
    (h : (wordsOf x.addr bs.length).foldl (tileWriteWord n p x bs) (.ok (), s) = (.ok (), t)) :
    tileWrite n p x bs s = (.ok (), t) := by
  have hdef : ∀ r, (wordsOf x.addr bs.length).foldl (tileWriteWord n p x bs) (.ok (), s) = r → tileWrite n p x bs s =
      match r with
      | (.ok _, s) => (.ok (), if x.phys then { s with poison := clearPoison s.poison x.addr bs.length } else s)
      | r => r := by
    rintro r rfl
    rfl
  rw [hdef _ h]
  dsimp only
  rw [hx]
  rfl

theorem tileRead_own {a len : Nat} (h : a + len ≤ 0x800000) :
    tileRead n p ⟨false, a⟩ len s = (.ok (rdBytes s (hostBase n + a) len), s) := by
  refine foldl_words (a := a) (tileReadWord n p false) (fun k (y : OpM (List Byte)) =>
    y = (Except.ok (rdBytes s (hostBase n + a) k), s)) rfl fun k w y hw hk _ hy => ?_
  subst hy
  have hword := tileWordRead_own (s := s) (n := n) (p := p) (a := a + k) (len := w) (by omega)
  simp only [tileReadWord, hword, rdBytes_add, Nat.add_assoc]
theorem tileWrite_own {a : Nat} {bs : List Byte} (h : a + bs.length ≤ 0x800000) :
    ∃ cs, tileWrite n p ⟨false, a⟩ bs s = (.ok (), s.withMem (memPut s.mem (hostBase n + a) bs) cs) := by
  have hfold := foldl_words (a := a) (n := bs.length) (tileWriteWord n p ⟨false, a⟩ bs)
    (fun k y => ∃ cs, y = (Except.ok (), s.withMem (memPut s.mem (hostBase n + a) (bs.take k)) cs)) (x := (.ok (), s))
    ⟨s.cores, rfl⟩ ?_
  · obtain ⟨cs, hcs⟩ := hfold
    rw [List.take_length] at hcs
    exact ⟨cs, tileWrite_ok rfl hcs⟩
  · rintro k w y hw hk - ⟨cs, rfl⟩
    have hword := tileWordWrite_own (s := s.withMem (memPut s.mem (hostBase n + a) (bs.take k)) cs) (n := n) (p := p)
      (a := a + k) (by omega) ((bs.drop k).take w)
    refine ⟨snoopWrite cs (hostBase n + (a + k)) ((bs.drop k).take w).length, ?_⟩
    simp only [tileWriteWord, Nat.add_sub_cancel_left, hword]
    simp only [putRaw, State.withMem, ← Nat.add_assoc, memPut_take _ _ _ hk]

/-! ### Operands read and results written, row by row (R177) -/

/-- A fold over 0 to `m − 1`: what holds of `i` steps is carried to all of them. -/
theorem foldl_range {σ : Type} (f : σ → Nat → σ) (P : Nat → σ → Prop) {x : σ} {m : Nat} (hzero : P 0 x)
    (hstep : ∀ i y, i < m → P i y → P (i + 1) (f y i)) : P m ((List.range m).foldl f x) := by
  induction m with
  | zero => exact hzero
  | succ m ih =>
    rw [List.range_succ, List.foldl_append]
    exact hstep m _ (Nat.lt_succ_self m) (ih fun i y hi => hstep i y (Nat.lt_succ_of_lt hi))

/-- Row `i` of an operand in the scratchpad. -/
def padRow (s : State) (n : Fin 64) (o : Opd) (i : Nat) : List FV :=
  o.ef.row (rdBytes s (hostBase n + o.addr.addr + i * o.stride) (o.ef.rowBytes o.cols)) [] o.cols
/-- One row of an operand read. -/
def readRow (c : OpCtx) (o : Opd) (r : OpM (List (List FV))) (i : Nat) : OpM (List (List FV)) :=
  match r with
  | (.ok acc, s) =>
    match tileRead c.n c.p ⟨o.addr.phys, o.addr.addr + i * o.stride⟩ (o.ef.rowBytes o.cols) s with
    | (.error e, s) => (.error e, s)
    | (.ok bs, s) =>
      if o.ef.mx then
        match tileRead c.n c.p ⟨o.saddr.phys, o.saddr.addr + i * (o.cols / 32)⟩ (o.cols / 32) s with
        | (.error e, s) => (.error e, s)
        | (.ok sc, s) => (.ok (acc ++ [o.ef.row bs sc o.cols]), s)
      else (.ok (acc ++ [o.ef.row bs [] o.cols]), s)
  | r => r
theorem readOpd_ok {c : OpCtx} {o : Opd} {m : List (List FV)} {t : State}
    (h : (List.range o.rows).foldl (readRow c o) (.ok [], s) = (.ok m, t)) :
    readOpd c o s = (.ok (if o.trans then transpose .nan o.rows o.cols m else m), t) := by
  have hdef : ∀ r, (List.range o.rows).foldl (readRow c o) (.ok [], s) = r → readOpd c o s =
      match r with
      | (.ok m, s) => (.ok (if o.trans then transpose .nan o.rows o.cols m else m), s)
      | r => r := by
    rintro r rfl
    rfl
  rw [hdef _ h]
theorem readOpd_own {o : Opd} (hphys : o.addr.phys = false) (hmx : o.ef.mx = false)
    (hfit : o.addr.addr + (o.rows - 1) * o.stride + o.ef.rowBytes o.cols ≤ 0x800000) :
    readOpd ⟨n, p⟩ o s = (.ok (if o.trans then transpose .nan o.rows o.cols ((List.range o.rows).map (padRow s n o))
      else (List.range o.rows).map (padRow s n o)), s) := by
  refine readOpd_ok (foldl_range (readRow ⟨n, p⟩ o) (fun i (y : OpM (List (List FV))) =>
    y = (Except.ok ((List.range i).map (padRow s n o)), s)) rfl fun i y hi hy => ?_)
  subst hy
  have hrow : i * o.stride ≤ (o.rows - 1) * o.stride := Nat.mul_le_mul_right _ (by omega)
  have hread := tileRead_own (s := s) (n := n) (p := p) (a := o.addr.addr + i * o.stride) (len := o.ef.rowBytes o.cols)
    (by omega)
  simp only [readRow, hphys, hread, hmx, Bool.false_eq_true, if_false, List.range_succ, List.map_append, List.map_cons,
    List.map_nil, padRow, Nat.add_assoc]

/-- Row `i` of results as it is converted for its place. -/
def outRow (o : OpDesc) (ri : List FV × Nat) : List Byte × List Byte × Exc :=
  o.dst.ef.convRow o.sat o.rmode o.seed (ri.2 * o.dst.cols) ri.1
/-- One row of results written. -/
def writeRow (c : OpCtx) (o : OpDesc) (r : OpM Exc) (vi : List FV × Nat) : OpM Exc :=
  match r with
  | (.ok e, s) =>
    let out := o.dst.ef.convRow o.sat o.rmode o.seed (vi.2 * o.dst.cols) vi.1
    match tileWrite c.n c.p ⟨o.dst.addr.phys, o.dst.addr.addr + vi.2 * o.dst.stride⟩ out.1 s with
    | (.error x, s) => (.error x, s)
    | (.ok _, s) =>
      if o.dst.ef.mx then
        match tileWrite c.n c.p ⟨o.dst.saddr.phys, o.dst.saddr.addr + vi.2 * (o.dst.cols / 32)⟩ out.2.1 s with
        | (.error x, s) => (.error x, s)
        | (.ok _, s) => (.ok (e ||| out.2.2), s)
      else (.ok (e ||| out.2.2), s)
  | r => r
theorem writeOpd_eq (c : OpCtx) (o : OpDesc) (rows : List (List FV)) :
    writeOpd c o rows s = rows.zipIdx.foldl (writeRow c o) (.ok 0, s) := rfl

/-- The memory with rows of results in the scratchpad. -/
def putRows (n : Fin 64) (o : OpDesc) (m : List Host.Cell) (l : List (List FV × Nat)) : List Host.Cell :=
  l.foldl (fun m ri => memPut m (hostBase n + o.dst.addr.addr + ri.2 * o.dst.stride) (outRow o ri).1) m
/-- The exception flags of rows of results. -/
def rowFlags (o : OpDesc) (e : Exc) (l : List (List FV × Nat)) : Exc := (l.map fun ri => (outRow o ri).2.2).foldl (· ||| ·) e

theorem foldl_writeRow {o : OpDesc} (hphys : o.dst.addr.phys = false) (hmx : o.dst.ef.mx = false)
    (l : List (List FV × Nat)) (e : Exc) (s : State)
    (hfit : ∀ ri ∈ l, o.dst.addr.addr + ri.2 * o.dst.stride + (outRow o ri).1.length ≤ 0x800000) :
    ∃ cs, l.foldl (writeRow ⟨n, p⟩ o) (.ok e, s) = (.ok (rowFlags o e l), s.withMem (putRows n o s.mem l) cs) := by
  induction l generalizing e s with
  | nil => exact ⟨s.cores, rfl⟩
  | cons ri l ih =>
    obtain ⟨cs, hw⟩ := tileWrite_own (s := s) (n := n) (p := p) (hfit ri (List.mem_cons_self ..))
    have hstep : writeRow ⟨n, p⟩ o (.ok e, s) ri = (.ok (e ||| (outRow o ri).2.2), s.withMem (memPut s.mem
        (hostBase n + (o.dst.addr.addr + ri.2 * o.dst.stride)) (outRow o ri).1) cs) := by
      unfold outRow at hw ⊢
      simp only [writeRow, hphys, hw, hmx, Bool.false_eq_true, if_false]
    rw [List.foldl_cons, hstep]
    obtain ⟨cs', hrest⟩ := ih (e ||| (outRow o ri).2.2) _ fun x hx => hfit x (List.mem_cons_of_mem _ hx)
    refine ⟨cs', ?_⟩
    rw [hrest, rowFlags, rowFlags, List.map_cons, List.foldl_cons, putRows, putRows, List.foldl_cons, ← Nat.add_assoc]
    rfl

/-! ### An operator from its operands to its end (R175) -/

variable {j : OpJob} {u : State}

theorem withOpd_gives {i : Nat} {rows : List (List FV)} {t : State} (h : Gives n j i u rows t)
    (k : List (List FV) → State → State) : withOpd ⟨n, j.part⟩ j ((opDesc j.desc).opd i) u k = k rows t := by
  unfold Gives at h
  unfold withOpd
  dsimp only at h ⊢
  by_cases ha : ((opDesc j.desc).opd i).absent = true
  · rw [if_pos ha] at h ⊢
    rw [h.1, h.2]
  · rw [if_neg ha] at h ⊢
    rw [h]
/-- An operator whose body comes to write the rows `r` in state `s1` writes them. -/
theorem stores_of_body {x : Instr} {opid : Nat} {body : OpJob → OpCtx → OpDesc → State → State}
    {r : List (List FV) × Exc} {s1 : State} (hx : exec x s = opRow n opid body s) (hr : s.rat.reopened = none)
    (hu : Operates s n opid j u)
    (hbody : body j ⟨n, j.part⟩ (opDesc j.desc) u = opStore ⟨n, j.part⟩ (opDesc j.desc) j r s1) : Stores x n j r s s1 := by
  intro e s2 s3 hw hflag
  rw [hx, opRow_of_job hu.1 hr, opRun_operates hu, hbody, opStore, hw]
  exact congrArg (fun t => Host.Outcome.next (settle t)) (opFlag_flagged hflag _)

theorem map_zipIdx_value {α β : Type} (g : α → β) (l : List α) : (l.zipIdx.map fun x => g x.1) = l.map g := by
  conv_rhs => rw [← List.zipIdx_map_fst 0 l, List.map_map]
  rfl
/-- A function of the values alone, without flags. -/
theorem mapRows_pure (x : List (List FV)) (f : F32 → F32) :
    mapRows x (fun _ _ v => (f v, 0)) = (x.map fun row => row.map fun v => f32v (f (toF32 v)), 0) := by
  have hrow : ∀ row : List FV, (row.zipIdx.map fun vj => (f (toF32 vj.1), (0 : Exc))) =
      row.map fun v => (f (toF32 v), 0) := fun row => map_zipIdx_value (fun v => (f (toF32 v), (0 : Exc))) row
  have hrows : (x.zipIdx.map fun ri => ri.1.zipIdx.map fun vj => (f (toF32 vj.1), (0 : Exc))) =
      x.map fun row => row.map fun v => (f (toF32 v), 0) := by
    simp only [hrow]
    exact map_zipIdx_value (fun row => row.map fun v => (f (toF32 v), (0 : Exc))) x
  have hflags : ∀ l : List (List FV), ((l.map fun row => row.map fun v => (f (toF32 v), (0 : Exc))).flatten).foldl
      (fun (a : Exc) y => a ||| y.2) 0 = 0 := by
    intro l
    rw [← List.map_flatten, List.foldl_map]
    exact List.foldl_fixed' (fun _ => BitVec.or_zero) _
  unfold mapRows
  dsimp only
  rw [hrows, hflags, List.map_map]
  simp only [Function.comp_def, List.map_map]

/-- The index is within LIMIT and within X (R186). -/
def inTable (limit : Nat) (x : List (List FV)) (i : Int) : Bool :=
  decide (0 ≤ i ∧ i.toNat < limit ∧ i.toNat < x.length)
/-- Rows of X named by indices. -/
def gathered (x : List (List FV)) (idx : List Int) : List (List FV) :=
  idx.map fun i => (x.getD i.toNat []).map fun v => f32v (toF32 v)
theorem gatherRows_eq (limit : Nat) (x : List (List FV)) (idx : List Int) : gatherRows limit x idx =
    (gathered x (idx.takeWhile (inTable limit x)), decide ((idx.takeWhile (inTable limit x)).length < idx.length)) := by
  have hin : (fun i : Int => decide (0 ≤ i) && decide (i.toNat < limit) && decide (i.toNat < x.length)) =
      inTable limit x := by
    funext i
    rw [inTable, Bool.decide_and, Bool.decide_and, Bool.and_assoc]
  unfold gatherRows
  rw [hin]
  rfl
theorem takeWhile_of_all {l : List Int} {f : Int → Bool} (h : l.all f = true) : l.takeWhile f = l :=
  List.takeWhile_eq_self_iff.mpr (List.all_eq_true.mp h)
theorem takeWhile_short {l : List Int} {f : Int → Bool} (h : l.all f = false) : (l.takeWhile f).length < l.length := by
  refine lt_of_le_of_ne (List.takeWhile_prefix f).length_le fun hlen => ?_
  have hall := List.takeWhile_eq_self_iff.mp ((List.takeWhile_prefix f).eq_of_length hlen)
  rw [List.all_eq_true.mpr hall] at h
  exact absurd h (by decide)

/-- The integers of a row of indices. -/
def indexRow (i : List (List FV)) : List Int := (i.getD 0 []).map fun v => match v with | .fin d => d.toInt | _ => -1
/-- The body of GATHER once its operands are read. -/
def gatherBody (c : OpCtx) (j : OpJob) (o : OpDesc) (x i : List (List FV)) (s : State) : State :=
  let r := gatherRows (leAt o.par 0 4) x (indexRow i)
  if r.2 then
    (match writeOpd c o r.1 s with
     | (.error e, s) => opEnd c.n j e.1 e.2 s
     | (.ok _, s) => opEnd c.n j 0x125 0 s)
  else opStore c o j (r.1, nanFlag r.1) s
theorem exec_gather : exec (.gather n) s = opRow n 0x0040 (fun j c o s =>
    withOpd c j (o.opd 0) s fun x s => withOpd c j (o.opd 1) s fun i s => gatherBody c j o x i s) s := rfl

/-- GATHER with every index in the table writes the rows that they name. -/
theorem gather_complete {x i : List (List FV)} {s1 s2 : State} (hr : s.rat.reopened = none) (hu : Operates s n 0x40 j u)
    (h0 : Gives n j 0 u x s1) (h1 : Gives n j 1 s1 i s2)
    (hall : (indexRow i).all (inTable (leAt (opDesc j.desc).par 0 4) x) = true) :
    Stores (.gather n) n j (gathered x (indexRow i), nanFlag (gathered x (indexRow i))) s s2 := by
  refine stores_of_body exec_gather hr hu ?_
  rw [withOpd_gives h0, withOpd_gives h1, gatherBody, gatherRows_eq, takeWhile_of_all hall]
  refine if_neg ?_
  rw [decide_eq_true_eq]
  exact lt_irrefl _
/-- GATHER with an index outside the table writes the rows before it and ends with 0x125 (R186). -/
theorem gather_short {x i : List (List FV)} {s1 s2 s3 : State} {e : Exc} (hr : s.rat.reopened = none)
    (hu : Operates s n 0x40 j u) (h0 : Gives n j 0 u x s1) (h1 : Gives n j 1 s1 i s2)
    (hall : (indexRow i).all (inTable (leAt (opDesc j.desc).par 0 4) x) = false)
    (hw : writeOpd ⟨n, j.part⟩ (opDesc j.desc)
      (gathered x ((indexRow i).takeWhile (inTable (leAt (opDesc j.desc).par 0 4) x))) s2 = (.ok e, s3)) :
    exec (.gather n) s = .next (settle (opEnd n j 0x125 0 s3)) := by
  rw [exec_gather, opRow_of_job hu.1 hr, opRun_operates hu, withOpd_gives h0, withOpd_gives h1, gatherBody, gatherRows_eq]
  refine congrArg (fun t => Host.Outcome.next (settle t)) ((if_pos (decide_eq_true (takeWhile_short hall))).trans ?_)
  dsimp only
  rw [hw]

/-- Settles O37: an operand in the scratchpad by rows and words, and each operator by the rows that its body comes to
write once its operands are read (`withOpd_gives`, `stores_of_body`). -/
theorem loomOperators : Obligations.LoomOperators := by
  refine ⟨⟨fun s n p o hphys hmx _ hfit => readOpd_own hphys hmx hfit, fun s n p o rows hphys hmx hfit => ?_⟩,
    fun s u n j hr => ⟨fun x s1 hu h0 => ?_, fun x s1 hu h0 => ?_, fun x y s1 s2 hu h0 h1 => ?_, fun x s1 hu h0 => ?_,
      fun x s1 hu h0 => ?_, fun x g h s1 s2 s3 hu h0 h1 h2 => ?_, fun a b m s1 s2 s3 hu h0 h1 h2 hbias => ?_,
      fun a b m bs s1 s2 s3 s4 hu h0 h1 h2 hbias hread => ?_, fun x i s1 s2 hu h0 h1 => ⟨fun hall => ?_,
        fun hall e s3 hw => ?_⟩⟩⟩
  · obtain ⟨cs, h⟩ := foldl_writeRow (n := n) (p := p) hphys hmx rows.zipIdx 0 s fun ri hri => by
      obtain ⟨r, i⟩ := ri
      exact hfit i r (List.mem_zipIdx_iff_getElem?.mp hri)
    exact ⟨cs, h⟩
  · refine stores_of_body rfl hr hu ?_
    dsimp only
    rw [withOpd_gives h0, mapRows_pure]
    dsimp only
    rw [show (0 : Exc) ||| nanFlag x = nanFlag x from BitVec.zero_or]
  · refine stores_of_body rfl hr hu ?_
    rw [withOpd_gives h0, mapRows_pure]
  · refine stores_of_body rfl hr hu ?_
    dsimp only
    rw [withOpd_gives h0, withOpd_gives h1]
  · refine stores_of_body rfl hr hu ?_
    dsimp only
    rw [withOpd_gives h0]
  · refine stores_of_body rfl hr hu ?_
    dsimp only
    rw [withOpd_gives h0, List.map_map, List.foldl_map, List.foldl_map]
    rfl
  · refine stores_of_body rfl hr hu ?_
    dsimp only
    rw [withOpd_gives h0, withOpd_gives h1, withOpd_gives h2, List.map_map, List.foldl_map, List.foldl_map]
    rfl
  · refine stores_of_body rfl hr hu ?_
    dsimp only
    rw [withOpd_gives h0, withOpd_gives h1, withOpd_gives h2, withBias, if_pos hbias, List.append_nil]
  · refine stores_of_body rfl hr hu ?_
    dsimp only
    rw [withOpd_gives h0, withOpd_gives h1, withOpd_gives h2, withBias, if_neg hbias, hread]
  · exact gather_complete hr hu h0 h1 hall
  · exact gather_short hr hu h0 h1 hall hw

end Sys2Proof.Machine
end

section
/-! PROOFS. The COLLECTIVE command (R217, R222 to R226): OPEN, CONTRIB and CLOSE, and their refusals. -/
set_option Elab.async false
namespace Sys2Proof.Machine

variable {s t u : State} {n : Fin 64} {k : Nat} {m : Cmd} {p : Fin 32} {d : Fin 4} {q : Fin 8}

/-! ### What sending leaves alone (R207, R235) -/

/-- A channel as a send of its packets leaves it. -/
def ChanSent (x y : Chan) : Prop := ∃ ord out, y = { x with ord := ord, out := out }
theorem ChanSent.refl (x : Chan) : ChanSent x x := ⟨x.ord, x.out, rfl⟩
theorem ChanSent.trans {x y z : Chan} (h : ChanSent x y) (h' : ChanSent y z) : ChanSent x z := by
  obtain ⟨_, _, rfl⟩ := h
  obtain ⟨o, l, rfl⟩ := h'
  exact ⟨o, l, rfl⟩
/-- Sending touches neither commands nor engines nor regions, and of channels the packets alone. -/
structure Sending (s t : State) : Prop where
  queues : t.queues = s.queues
  peat : t.peat = s.peat
  rat : t.rat = s.rat
  chan : ∀ d q, ChanSent (s.chan d q) (t.chan d q)

theorem Sending.of_same (hq : t.queues = s.queues) (hp : t.peat = s.peat) (hr : t.rat = s.rat) (hc : t.chans = s.chans) :
    Sending s t := by
  refine ⟨hq, hp, hr, fun d q => ?_⟩
  have h : t.chan d q = s.chan d q := by rw [State.chan, State.chan, hc]
  rw [h]
  exact .refl _
theorem Sending.refl (s : State) : Sending s s := .of_same rfl rfl rfl rfl
theorem Sending.trans (h : Sending s t) (h' : Sending t u) : Sending s u :=
  ⟨h'.queues.trans h.queues, h'.peat.trans h.peat, h'.rat.trans h.rat, fun d q => (h.chan d q).trans (h'.chan d q)⟩
theorem Sending.foldl {α : Type} {f : State → α → State} (h : ∀ s a, Sending s (f s a)) (l : List α) (s : State) :
    Sending s (l.foldl f s) := by
  induction l generalizing s with
  | nil => exact .refl s
  | cons a l ih => exact (h s a).trans (ih _)

theorem chan_modChan_same (f : Chan → Chan) (s : State) : (s.modChan d q f).chan d q = f (s.chan d q) := by
  simp [State.chan, State.modChan, vmod]
theorem chan_modChan_other {d' : Fin 4} {q' : Fin 8} (h : d' ≠ d ∨ q' ≠ q) (f : Chan → Chan) (s : State) :
    (s.modChan d q f).chan d' q' = s.chan d' q' := by
  unfold State.chan State.modChan vmod
  dsimp only
  by_cases hd : d' = d
  · subst hd
    have hq : q' ≠ q := h.resolve_left (not_not.mpr rfl)
    rw [vget_vset_same, vget_vset_other _ _ _ _ hq]
  · rw [vget_vset_other _ _ _ _ hd]
theorem sending_modChan (f : Chan → Chan) (hf : ∀ x, ChanSent x (f x)) (s : State) : Sending s (s.modChan d q f) := by
  refine ⟨rfl, rfl, rfl, fun d' q' => ?_⟩
  by_cases h : d' = d ∧ q' = q
  · obtain ⟨rfl, rfl⟩ := h
    rw [chan_modChan_same]
    exact hf _
  · rw [chan_modChan_other (by tauto)]
    exact .refl _

theorem sending_freeBuf (b : Option (Fin 16 × Fin 8)) (s : State) : Sending s (freeBuf b s) := by
  unfold freeBuf
  split
  · exact .of_same rfl rfl rfl rfl
  · exact .refl s
theorem sending_pushPort (o : Fin 16) (e : Fin 8 × Packet × Option (Fin 16 × Fin 8)) (s : State) :
    Sending s (pushPort o e s) := by
  unfold pushPort
  dsimp only
  split
  · refine Sending.trans ?_ (sending_freeBuf _ _)
    exact .of_same rfl rfl rfl rfl
  · exact .of_same rfl rfl rfl rfl
theorem sending_sendPacket (x : Packet) (s : State) : Sending s (sendPacket x s) := by
  unfold sendPacket sendFrom
  split
  · exact .of_same rfl rfl rfl rfl
  · split
    · exact sending_freeBuf _ s
    · exact sending_pushPort _ _ s
theorem sending_sendWrite (g : Fin 16) (c : Fin 8) (w : NetWrite) (s : State) : Sending s (sendWrite g c w s) := by
  unfold sendWrite
  refine Sending.trans ?_ (sending_sendPacket _ _)
  exact .of_same rfl rfl rfl rfl
theorem sending_collSend (w : NetWrite) (s : State) : Sending s (collSend d q w s) := by
  unfold collSend
  dsimp only
  split
  · exact (sending_modChan _ (fun x => ⟨_, x.out, rfl⟩) s).trans (sending_sendWrite _ _ _ _)
  · exact (sending_modChan _ (fun x => ⟨_, x.out, rfl⟩) s).trans (sending_modChan _ (fun x => ⟨x.ord, _, rfl⟩) _)
theorem sending_collStream (c : ChanDesc) (dst : BitVec 12) (kind : Nat) (step : BitVec 32) (data : List Byte) (s : State) :
    Sending s (collStream d q c p dst kind step data s) :=
  Sending.foldl (fun s _ => sending_collSend _ s) _ s
theorem sending_sendHellos (c : ChanDesc) (s : State) : Sending s (sendHellos d q c p s) :=
  Sending.foldl (fun s _ => sending_sendWrite _ _ _ s) _ s

/-! ### The command in its queue -/

theorem beginCmd_listed {op : Nat} (h : beginCmd s n k op = some m) : (vget s.queues n).disp[k]? = some m := by
  unfold beginCmd at h
  dsimp only at h
  split at h
  · cases h
  next c hc =>
    split at h
    · cases h
      exact hc
    · cases h
theorem beginColl_listed {sub : Nat} (h : beginColl s n k sub = some m) : (vget s.queues n).disp[k]? = some m := by
  unfold beginColl at h
  split at h
  next c hc =>
    split at h
    · cases h
      exact beginCmd_listed hc
    · cases h
  · cases h
theorem setCmd_listed (h : (vget s.queues n).disp[k]? = some m) (st : CmdState) :
    (vget (setCmd n k st s).queues n).disp[k]? = some { m with st := st } := by
  rw [setCmd, State.modQueue, vmod, vget_vset_same, List.getElem?_modify_eq, h]
  rfl

/-- The command ends with a status and no detail. -/
theorem endCmd_eq (status : Nat) : endCmd n k status 0 s = { s with
    queues := vmod s.queues n fun y => { y with disp := y.disp.modify k fun c => { c with
      st := .done (BitVec.ofNat 16 status) 0 (stamp s) } } } := rfl

/-! ### OPEN (R223) -/

theorem exec_open (h : beginColl s n k 0 = some m) : exec (.open_ n k) s = doneFrom s (openCh n k m s) := by
  have hexec : exec (.open_ n k) s = execOpen n k s := rfl
  rw [hexec, execOpen, h]
theorem openCh_noSlot (hp : queuePart s n = some p) (hs : m.collSlot = none) : openCh n k m s = endCmd n k 0x140 0 s := by
  unfold openCh
  rw [hp, hs]
theorem openCh_refused (hp : queuePart s n = some p) (hs : m.collSlot = some (d, q))
    (h : m.sub ≠ 0 ∨ (s.chan d q).st ≠ .closed ∨ leAt m.bytes 48 8 % 8 ≠ 0) : openCh n k m s = endCmd n k 0x140 0 s := by
  unfold openCh
  rw [hp, hs]
  exact if_pos h
/-- The bytes of a channel's descriptor. -/
def descBytes (s : State) (m : Cmd) : List Byte :=
  rdBytes s (leAt m.bytes 48 8) (128 + 2 * min 4160 (leAt (rdBytes s (leAt m.bytes 48 8) 128) 4 2 +
    leAt (rdBytes s (leAt m.bytes 48 8) 128) 6 2))
theorem dramRange_le {kind : AccKind} {side : Side} {a l l' : Nat} (h : DramRange s p kind side a l) (hl : l' ≤ l) :
    DramRange s p kind side a l' := by
  obtain ⟨hbytes, hp, hr⟩ := h
  exact ⟨fun b hb hlt => hbytes b hb (by omega), poisoned_part (k := 0) hp (by omega), hr⟩
theorem openCh_reads (hp : queuePart s n = some p) (hs : m.collSlot = some (d, q)) (hsub : m.sub = 0)
    (hst : (s.chan d q).st = .closed) (hal : leAt m.bytes 48 8 % 8 = 0)
    (h : DramRange s p .load .plain (leAt m.bytes 48 8) (descBytes s m).length) :
    openCh n k m s = openWith n k m p d q (descBytes s m) s := by
  have hlen : (descBytes s m).length = _ := rdBytes_length s (leAt m.bytes 48 8) _
  rw [hlen] at h
  have hnot : ¬ (m.sub ≠ 0 ∨ (s.chan d q).st ≠ .closed ∨ leAt m.bytes 48 8 % 8 ≠ 0) := by simp [hsub, hst, hal]
  have hhead := rangeRead_dram (u := { fid := clusterFid d, part := p, side := .plain, core := true })
    (dramRange_le h (Nat.le_add_right 128 _))
  have hbody := rangeRead_dram (u := { fid := clusterFid d, part := p, side := .plain, core := true }) h
  unfold openCh
  rw [hp, hs]
  refine (if_neg hnot).trans ?_
  dsimp only
  rw [hhead]
  dsimp only
  rw [hbody]
  rfl

theorem openWith_bad {b : List Byte} (h : descInRange s b (chanDesc b) = false ∨ descPlaced s p (chanDesc b) = false) :
    openWith n k m p d q b s = endCmd n k 0x140 0 s := by
  refine if_pos ?_
  rcases h with h | h <;> simp [h]
theorem openWith_unclaimed {b : List Byte} {st : Fin 8} (hb : descInRange s b (chanDesc b) = true)
    (hp : descPlaced s p (chanDesc b) = true) (hst : stackOf (chanDesc b).master = some st)
    (hc : allClaimed s st p = false) : openWith n k m p d q b s = endCmd n k 0x141 0 s := by
  unfold openWith
  dsimp only
  rw [if_neg (by simp [hb, hp]), hst]
  exact if_pos (by simp [hc])

/-- A channel slot as OPEN sets it up. -/
def openChan (c : ChanDesc) (p : Fin 32) (o : Fin 64 × BitVec 16) (x : Chan) : Chan :=
  { ord := x.ord, st := .opening, desc := some c, part := p, openCmd := some o, hellos := [c.self] }
/-- What OPEN does once its descriptor is accepted and its accumulators are zeroed. -/
def openGo (n : Fin 64) (k : Nat) (m : Cmd) (p : Fin 32) (d : Fin 4) (q st : Fin 8) (c : ChanDesc) (s : State) : State :=
  setCmd n k .running (sendHellos d q c p
    ((stackMode st true c.acc (c.acc + 8 * c.S - 1) s).modChan d q (openChan c p (n, m.slot))))
theorem openWith_zeroed {b : List Byte} {st : Fin 8} (hb : descInRange s b (chanDesc b) = true)
    (hp : descPlaced s p (chanDesc b) = true) (hst : stackOf (chanDesc b).master = some st)
    (hc : allClaimed s st p = true)
    (h : DramRange s p .store .engine (chanDesc b).acc (8 * (chanDesc b).S)) :
    ∃ mem cs l, openWith n k m p d q b s = openGo n k m p d q st (chanDesc b) { s.withMem mem cs with poison := l } := by
  have hlen : (List.replicate (8 * (chanDesc b).S) (0 : Byte)).length = 8 * (chanDesc b).S := List.length_replicate
  obtain ⟨cs, l, hw⟩ := rangeWrite_dram (u := chanUnit d p) (bs := List.replicate (8 * (chanDesc b).S) 0)
    (by rw [hlen]; exact h)
  refine ⟨memPut s.mem (chanDesc b).acc (List.replicate (8 * (chanDesc b).S) 0), cs, l, ?_⟩
  unfold openWith
  dsimp only
  rw [if_neg (by simp [hb, hp]), hst]
  refine (if_neg (by simp [hc])).trans ?_
  rw [hw]
  rfl
theorem openGo_leaves {st : Fin 8} {c : ChanDesc} (hm : (vget s.queues n).disp[k]? = some m) :
    ((openGo n k m p d q st c s).chan d q).st = .opening ∧ ((openGo n k m p d q st c s).chan d q).desc = some c ∧
    ((openGo n k m p d q st c s).chan d q).part = p ∧
    ((openGo n k m p d q st c s).chan d q).openCmd = some (n, m.slot) ∧
    ((openGo n k m p d q st c s).chan d q).hellos = [c.self] ∧
    (vget (openGo n k m p d q st c s).queues n).disp[k]? = some { m with st := .running } ∧
    ∀ j, ((openGo n k m p d q st c s).eng st j).accum = true ∧
      ((openGo n k m p d q st c s).eng st j).abase = BitVec.ofNat 44 c.acc := by
  have hsend := sending_sendHellos (d := d) (q := q) (p := p) c
    ((stackMode st true c.acc (c.acc + 8 * c.S - 1) s).modChan d q (openChan c p (n, m.slot)))
  obtain ⟨ord, out, hchan⟩ := hsend.chan d q
  rw [chan_modChan_same] at hchan
  have hx : (openGo n k m p d q st c s).chan d q = _ := hchan
  have hpeat : (openGo n k m p d q st c s).peat = (stackMode st true c.acc (c.acc + 8 * c.S - 1) s).peat := hsend.peat
  rw [hx]
  refine ⟨rfl, rfl, rfl, rfl, rfl, setCmd_listed (by rw [hsend.queues]; exact hm) _, fun j => ?_⟩
  rw [State.eng, hpeat, stackMode, vmod, vget_vset_same, vget_map]
  exact ⟨rfl, rfl⟩

/-! ### CONTRIB (R224 to R226) -/

theorem exec_contrib (h : beginColl s n k 1 = some m) (hs : m.collSlot = some (d, q))
    (hb : contribMayBegin s d q (leAt m.bytes 40 4) = true) :
    exec (.contrib n k) s = doneFrom s (contribCh n k m d q s) := by
  have hexec : exec (.contrib n k) s = execContrib n k s := rfl
  rw [hexec, execContrib, h]
  dsimp only
  rw [hs]
  exact if_pos hb

/-- A CONTRIB of a channel that does not run ends with the status of its state. -/
theorem contribCh_stopped {status : Nat} (h : ((s.chan d q).st, status) ∈
    [(ChanState.halted, 0x144), (.recovering, 0x145), (.expelled, 0x146), (.closed, 0x140)]) :
    contribCh n k m d q s = endCmd n k status 0 s := by
  simp only [List.mem_cons, Prod.mk.injEq, List.not_mem_nil, or_false] at h
  unfold contribCh
  rcases h with ⟨h, rfl⟩ | ⟨h, rfl⟩ | ⟨h, rfl⟩ | ⟨h, rfl⟩
  all_goals
    dsimp only
    rw [h]

section
variable {c : ChanDesc} (hst : (s.chan d q).st = .run) (hc : (s.chan d q).desc = some c)
include hst hc

theorem contribCh_spare (hself : c.nmemb ≤ c.self) : contribCh n k m d q s = endCmd n k 0x140 0 s := by
  unfold contribCh
  dsimp only
  rw [hst, hc]
  exact if_pos hself
theorem contribCh_wrongStep (hself : c.self < c.nmemb)
    (hstep : BitVec.ofNat 32 (leAt m.bytes 40 4) ≠ (s.chan d q).nextStep) :
    contribCh n k m d q s = endCmd n k 0x147 0 s := by
  unfold contribCh
  dsimp only
  rw [hst, hc]
  refine (if_neg (Nat.not_le.mpr hself)).trans (if_pos hstep)
theorem contribCh_reads (hself : c.self < c.nmemb) (hstep : BitVec.ofNat 32 (leAt m.bytes 40 4) = (s.chan d q).nextStep)
    (hgrad : DramRange s (s.chan d q).part .load .engine c.grad (4 * c.nelem))
    (hresid : c.resid ≠ 0 → DramRange s (s.chan d q).part .load .engine c.resid (4 * c.nelem)) :
    ∃ g r, contribCh n k m d q s = contribSend n k m d q c (BitVec.ofNat 32 (leAt m.bytes 40 4)) g r s := by
  have hg := rangeRead_dram (u := chanUnit d (s.chan d q).part) hgrad
  have hr : ∃ r, (if c.resid = 0 then (.ok [], 0, s)
      else rangeRead (chanUnit d (s.chan d q).part) c.resid (4 * c.nelem) s : AccRes × Nat × State) = (.ok r, 0, s) := by
    by_cases hz : c.resid = 0
    · exact ⟨_, if_pos hz⟩
    · exact ⟨_, (if_neg hz).trans (rangeRead_dram (u := chanUnit d (s.chan d q).part) (hresid hz))⟩
  obtain ⟨r, hr⟩ := hr
  refine ⟨rdBytes s c.grad (4 * c.nelem), r, ?_⟩
  unfold contribCh
  dsimp only
  rw [hst, hc]
  refine (if_neg (Nat.not_le.mpr hself)).trans ((if_neg (not_not.mpr hstep)).trans ?_)
  rw [hg]
  dsimp only
  rw [hr]
end

theorem feedback_length (g r : List F32) : (feedback g r).1.length = min g.length r.length := by
  have hfold : ∀ (l : List (F32 × F32)) (a : List F32 × Nat), (l.foldl (fun (a : List F32 × Nat) x =>
      let e := f32add x.1 x.2
      if f32fin e then (a.1 ++ [e], a.2) else (a.1 ++ [0], a.2 + 1)) a).1.length = a.1.length + l.length := by
    intro l
    induction l with
    | nil => exact fun a => rfl
    | cons x l ih =>
      intro a
      rw [List.foldl_cons, ih]
      dsimp only
      split_ifs <;> simp <;> omega
  rw [feedback, hfold, List.length_zip]
  exact Nat.zero_add _
theorem residual_length (es : List F32) (dec : Coded) : (residual es dec).length = 4 * es.length := by
  unfold residual
  rw [List.length_flatMap]
  simp [Nat.mul_comm]

/-- The shards of a member's gradient, coded. -/
def contribShards (c : ChanDesc) (grad resid : List Byte) : List ((List F32 × Nat) × List Byte × Coded) :=
  let w := fun (b : List Byte) i => (BitVec.ofNat 32 (leAt b (4 * i) 4) : F32)
  (List.range c.nmemb).map fun m =>
    let idx := (List.range c.S).map (· + m * c.S)
    let es := feedback (idx.map (w grad)) (idx.map fun i => if c.resid = 0 then 0 else w resid i)
    (es, codeShard c es.1)
/-- What a CONTRIB writes back to RESID. -/
def contribRest (c : ChanDesc) (grad resid : List Byte) : List Byte :=
  if c.resid = 0 then [] else (contribShards c grad resid).flatMap fun x => residual x.1.1 x.2.2
theorem contribRest_length (c : ChanDesc) (grad resid : List Byte) :
    (contribRest c grad resid).length ≤ if c.resid = 0 then 0 else 4 * c.nelem := by
  unfold contribRest
  split_ifs with hz
  · exact le_rfl
  have hshard : ∀ x ∈ contribShards c grad resid, (residual x.1.1 x.2.2).length = 4 * c.S := by
    intro x hx
    obtain ⟨i, -, rfl⟩ := List.mem_map.mp hx
    rw [residual_length]
    dsimp only
    rw [feedback_length]
    simp
  have hcount : (contribShards c grad resid).length = c.nmemb := by simp [contribShards]
  have hsum : ((contribShards c grad resid).map fun x => (residual x.1.1 x.2.2).length).sum = c.nmemb * (4 * c.S) := by
    rw [List.map_congr_left hshard, List.map_const', List.sum_replicate, hcount, smul_eq_mul]
  rw [List.length_flatMap, hsum]
  have hle : c.nmemb * c.S ≤ c.nelem := Nat.mul_div_le _ _
  calc c.nmemb * (4 * c.S) = 4 * (c.nmemb * c.S) := by ring
    _ ≤ 4 * c.nelem := Nat.mul_le_mul_left 4 hle

/-- What a CONTRIB does once its residuals are written. -/
def contribGo (n : Fin 64) (k : Nat) (m : Cmd) (d : Fin 4) (q : Fin 8) (c : ChanDesc) (p : Fin 32) (step : BitVec 32)
    (shards : List ((List F32 × Nat) × List Byte × Coded)) (s : State) : State :=
  setCmd n k .running ((shards.zipIdx.foldl (fun s x => collStream d q c p (c.members.getD x.2 0) 0 step x.1.2.1 s) s).modChan d q
    fun x => { x with
      nextStep := step + 1
      contrib := x.contrib ++ [{ origin := (n, m.slot), step := step, nonfin := shards.foldl (fun a x => a + x.1.2) 0 }] })
theorem contribSend_stored {c : ChanDesc} {step : BitVec 32} {g r : List Byte} (hr : s.rat.reopened = none)
    (hresid : c.resid ≠ 0 → DramRange s (s.chan d q).part .store .engine c.resid (4 * c.nelem)) :
    ∃ mem cs l, contribSend n k m d q c step g r s = contribGo n k m d q c (s.chan d q).part step (contribShards c g r)
      { s.withMem mem cs with poison := l } := by
  have hlen := contribRest_length c g r
  have hrange : DramRange s (chanUnit d (s.chan d q).part).part .store (chanUnit d (s.chan d q).part).side c.resid
      (contribRest c g r).length := by
    by_cases hz : c.resid = 0
    · rw [if_pos hz] at hlen
      rw [Nat.le_zero.mp hlen]
      exact ⟨fun b h1 h2 => absurd h2 (by omega), by simp [poisoned], hr⟩
    · rw [if_neg hz] at hlen
      exact dramRange_le (hresid hz) hlen
  obtain ⟨cs, l, hw⟩ := rangeWrite_dram hrange
  refine ⟨memPut s.mem c.resid (contribRest c g r), cs, l, ?_⟩
  have hdef : ∀ y, rangeWrite (chanUnit d (s.chan d q).part) c.resid (contribRest c g r) s = y →
      contribSend n k m d q c step g r s = match y with
        | (.err e, a, s) => endCmd n k 4 (a % 2 ^ 32) (accessError (clusterFid d) true e a s)
        | (.poison, a, s) => endCmd n k 8 (a % 2 ^ 32) (poisonHit (clusterFid d) s)
        | (.ok _, _, t) => contribGo n k m d q c (s.chan d q).part step (contribShards c g r) t := by
    rintro y rfl
    rfl
  rw [hdef _ hw]
theorem contribGo_leaves {c : ChanDesc} {step : BitVec 32} {shards : List ((List F32 × Nat) × List Byte × Coded)}
    (hm : (vget s.queues n).disp[k]? = some m) : ∃ nf, ((contribGo n k m d q c p step shards s).chan d q).nextStep = step + 1 ∧
      ((contribGo n k m d q c p step shards s).chan d q).st = (s.chan d q).st ∧
      ((contribGo n k m d q c p step shards s).chan d q).contrib =
        (s.chan d q).contrib ++ [{ origin := (n, m.slot), step := step, nonfin := nf }] ∧
      (vget (contribGo n k m d q c p step shards s).queues n).disp[k]? = some { m with st := .running } := by
  have hsend := Sending.foldl (f := fun s (x : ((List F32 × Nat) × List Byte × Coded) × Nat) =>
    collStream d q c p (c.members.getD x.2 0) 0 step x.1.2.1 s) (fun s x => sending_collStream c _ _ _ _ s) shards.zipIdx s
  obtain ⟨ord, out, hchan⟩ := hsend.chan d q
  have hx : (contribGo n k m d q c p step shards s).chan d q = _ := chan_modChan_same _ _
  rw [hx, hchan]
  exact ⟨_, rfl, rfl, rfl, setCmd_listed (by
    have hqueues := hsend.queues
    exact (congrArg (fun v => (vget v n).disp[k]?) hqueues).trans hm) _⟩

/-! ### CLOSE (R223) -/

theorem exec_close (h : beginColl s n k 2 = some m) (hs : m.collSlot = some (d, q)) :
    exec (.close n k) s = .next (settle (closeCh n k d q s)) := by
  have hexec : exec (.close n k) s = execClose n k s := rfl
  rw [hexec, execClose, h]
  dsimp only
  rw [hs]
  rfl
theorem closeCh_unused (h : (s.chan d q).desc = none) : closeCh n k d q s = endCmd n k 0x140 0 s := by
  unfold closeCh
  dsimp only
  rw [h]
theorem closeCh_idle {c : ChanDesc} (h : (s.chan d q).desc = some c) (hcontrib : (s.chan d q).contrib = [])
    (hst : (s.chan d q).st ≠ .opening) : closeCh n k d q s = endCmd n k 0 0 (freeSlot d q s) := by
  unfold closeCh
  dsimp only
  rw [h, hcontrib]
  dsimp only [List.foldl_nil]
  split
  next o ho _ => exact absurd ho hst
  · rfl
theorem freeSlot_leaves {c : ChanDesc} {st : Fin 8} (h : (s.chan d q).desc = some c) (hst : stackOf c.master = some st) :
    (freeSlot d q s).chan d q = { ord := (s.chan d q).ord } ∧ (∀ j, ((freeSlot d q s).eng st j).accum = false) ∧
    (freeSlot d q s).queues = s.queues ∧ (freeSlot d q s).mem = s.mem ∧ stamp (freeSlot d q s) = stamp s := by
  have hfree : freeSlot d q s = (stackDirect st (chanAbort d q c s)).modChan d q fun x => { ord := x.ord } := by
    unfold freeSlot
    rw [h]
    dsimp only
    rw [hst]
  have habort : ∃ pt, chanAbort d q c s = { s with peat := pt } := by
    unfold chanAbort
    rw [hst]
    exact ⟨_, rfl⟩
  obtain ⟨pt, hpt⟩ := habort
  rw [hfree, hpt, chan_modChan_same]
  refine ⟨rfl, fun j => ?_, rfl, rfl, rfl⟩
  rw [State.eng, State.modChan, stackDirect, vmod, vget_vset_same, vget_map]

/-! ### The settlement -/

/-- The state after a command ended with a status, as the statement writes it. -/
theorem ends_of_endCmd {x : Instr} {f : State} {status : Nat} (hx : exec x s = doneFrom s f) (hf : f = endCmd n k status 0 s) :
    exec x s = .next (settle { s with queues := vmod s.queues n fun y => { y with disp := y.disp.modify k fun c => { c with
      st := .done (BitVec.ofNat 16 status) 0 (stamp s) } } }) := by
  rw [hx, hf]
  exact doneFrom_free rfl
theorem chan_settle (t : State) (d : Fin 4) (q : Fin 8) : (settle t).chan d q = t.chan d q := by
  rw [State.chan, State.chan, settle_chans]
theorem eng_settle (t : State) (st : Fin 8) (j : Fin 32) : (settle t).eng st j = t.eng st j := by
  rw [State.eng, State.eng, settle_peat]

/-- A COLLECTIVE command that names no slot ends with 0x140 (R222). -/
theorem noSlot_ends (hp : queuePart s n = some p) (hs : m.collSlot = none) {x : Instr} {sub : Nat}
    (hx : (x, sub) ∈ [(Instr.open_ n k, 0), (.contrib n k, 1), (.close n k, 2)]) (h : beginColl s n k sub = some m) :
    exec x s = .next (settle (endCmd n k 0x140 0 s)) := by
  simp only [List.mem_cons, Prod.mk.injEq, List.not_mem_nil, or_false] at hx
  rcases hx with ⟨rfl, rfl⟩ | ⟨rfl, rfl⟩ | ⟨rfl, rfl⟩
  · rw [exec_open h, openCh_noSlot hp hs]
    exact doneFrom_free rfl
  · have hexec : exec (.contrib n k) s = execContrib n k s := rfl
    rw [hexec, execContrib, h]
    dsimp only
    rw [hs]
    rfl
  · have hexec : exec (.close n k) s = execClose n k s := rfl
    rw [hexec, execClose, h]
    dsimp only
    rw [hs]
    rfl

/-- An accepted OPEN sets up its slot and its engines. -/
theorem open_accepted {st : Fin 8} (h : beginColl s n k 0 = some m)
    (hopen : openCh n k m s = openWith n k m p d q (descBytes s m) s)
    (hb : descInRange s (descBytes s m) (chanDesc (descBytes s m)) = true)
    (hpl : descPlaced s p (chanDesc (descBytes s m)) = true) (hst : stackOf (chanDesc (descBytes s m)).master = some st)
    (hc : allClaimed s st p = true)
    (hacc : DramRange s p .store .engine (chanDesc (descBytes s m)).acc (8 * (chanDesc (descBytes s m)).S)) :
    ∃ t, exec (.open_ n k) s = .next t ∧ (t.chan d q).st = .opening ∧
      (t.chan d q).desc = some (chanDesc (descBytes s m)) ∧ (t.chan d q).part = p ∧
      (t.chan d q).openCmd = some (n, m.slot) ∧ (t.chan d q).hellos = [(chanDesc (descBytes s m)).self] ∧
      (vget t.queues n).disp[k]? = some { m with st := .running } ∧
      ∀ j, (t.eng st j).accum = true ∧ (t.eng st j).abase = BitVec.ofNat 44 (chanDesc (descBytes s m)).acc := by
  obtain ⟨mem, cs, l, hgo⟩ := openWith_zeroed (n := n) (k := k) (m := m) (d := d) (q := q) hb hpl hst hc hacc
  have hexec : exec (.open_ n k) s = .next (settle _) :=
    (exec_open h).trans ((congrArg (doneFrom s) (hopen.trans hgo)).trans (doneFrom_next hacc.2.2 _))
  obtain ⟨hst', hdesc, hpart, hcmd, hhello, hlist, heng⟩ := openGo_leaves (d := d) (q := q) (p := p) (st := st)
    (c := chanDesc (descBytes s m)) (s := { s.withMem mem cs with poison := l }) (beginColl_listed h)
  refine ⟨_, hexec, ?_⟩
  simp only [chan_settle, eng_settle, settle_queues]
  exact ⟨hst', hdesc, hpart, hcmd, hhello, hlist, heng⟩
/-- An accepted CONTRIB is in progress, and the channel's next step is the one after its own. -/
theorem contrib_accepted {c : ChanDesc} (h : beginColl s n k 1 = some m) (hs : m.collSlot = some (d, q))
    (hb : contribMayBegin s d q (leAt m.bytes 40 4) = true) (hst : (s.chan d q).st = .run)
    (hc : (s.chan d q).desc = some c) (hself : c.self < c.nmemb)
    (hstep : BitVec.ofNat 32 (leAt m.bytes 40 4) = (s.chan d q).nextStep)
    (hgrad : DramRange s (s.chan d q).part .load .engine c.grad (4 * c.nelem))
    (hresid : c.resid ≠ 0 → DramRange s (s.chan d q).part .load .engine c.resid (4 * c.nelem) ∧
      DramRange s (s.chan d q).part .store .engine c.resid (4 * c.nelem)) :
    ∃ t nf, exec (.contrib n k) s = .next t ∧ (t.chan d q).nextStep = BitVec.ofNat 32 (leAt m.bytes 40 4) + 1 ∧
      (t.chan d q).st = .run ∧ (t.chan d q).contrib = (s.chan d q).contrib ++
        [{ origin := (n, m.slot), step := BitVec.ofNat 32 (leAt m.bytes 40 4), nonfin := nf }] ∧
      (vget t.queues n).disp[k]? = some { m with st := .running } := by
  have hr := hgrad.2.2
  obtain ⟨g, r, hreads⟩ := contribCh_reads (n := n) (k := k) (m := m) hst hc hself hstep hgrad fun hz => (hresid hz).1
  obtain ⟨mem, cs, l, hgo⟩ := contribSend_stored (n := n) (k := k) (m := m) (d := d) (q := q) (c := c)
    (step := BitVec.ofNat 32 (leAt m.bytes 40 4)) (g := g) (r := r) hr fun hz => (hresid hz).2
  have hexec : exec (.contrib n k) s = .next (settle _) :=
    (exec_contrib h hs hb).trans ((congrArg (doneFrom s) (hreads.trans hgo)).trans (doneFrom_next hr _))
  obtain ⟨nf, hnext, hst', hlist, hdisp⟩ := contribGo_leaves (d := d) (q := q) (p := (s.chan d q).part) (c := c)
    (step := BitVec.ofNat 32 (leAt m.bytes 40 4)) (shards := contribShards c g r)
    (s := { s.withMem mem cs with poison := l }) (beginColl_listed h)
  refine ⟨_, nf, hexec, ?_⟩
  simp only [chan_settle, settle_queues]
  exact ⟨hnext, hst'.trans hst, hlist, hdisp⟩
/-- CLOSE of an idle channel frees its slot and sets its engines back. -/
theorem close_accepted {c : ChanDesc} {st : Fin 8} (h : beginColl s n k 2 = some m) (hs : m.collSlot = some (d, q))
    (hc : (s.chan d q).desc = some c) (hcontrib : (s.chan d q).contrib = []) (hst : (s.chan d q).st ≠ .opening)
    (hstack : stackOf c.master = some st) :
    ∃ t, exec (.close n k) s = .next t ∧ t.chan d q = { ord := (s.chan d q).ord } ∧
      (∀ j, (t.eng st j).accum = false) ∧ (vget t.queues n).disp[k]? = some { m with st := .done 0 0 (stamp s) } ∧
      t.mem = s.mem := by
  obtain ⟨hchan, heng, hqueues, hmem, hstamp⟩ := freeSlot_leaves hc hstack
  have hexec := exec_close h hs
  rw [closeCh_idle hc hcontrib hst] at hexec
  have hlist : (vget (freeSlot d q s).queues n).disp[k]? = some m := by rw [hqueues, beginColl_listed h]
  have hdone := setCmd_listed hlist (.done 0 0 (stamp (freeSlot d q s)))
  rw [hstamp] at hdone
  refine ⟨_, hexec, ?_⟩
  simp only [chan_settle, eng_settle, settle_queues, settle_mem]
  refine ⟨hchan, heng, ?_, hmem⟩
  rw [endCmd, hstamp]
  exact hdone

/-- Settles O43: each command by the cases of its effect (`openCh`, `contribCh`, `closeCh`); what is sent touches no
command, no engine and no region (`Sending`). -/
theorem collectiveCommands : Obligations.CollectiveCommands := by
  refine ⟨fun s n k m p hp hs => ⟨fun h => noSlot_ends hp hs (by simp) h, fun h => noSlot_ends hp hs (by simp) h,
    fun h => noSlot_ends hp hs (by simp) h⟩, fun s n k m p d q hp hs => ⟨fun h => ⟨fun hbad => ?_, fun hsub hst hal hrange =>
      ⟨fun hbad => ?_, fun st hb hpl hstack => ⟨fun hc => ?_, fun hc hacc => ?_⟩⟩⟩, fun h hb => ⟨fun hst => ?_,
      fun hst => ?_, fun hst => ?_, fun hst => ?_, fun c hst hc => ⟨fun hself => ?_, fun hself hstep => ?_,
        fun hself hstep hgrad hresid => contrib_accepted h hs hb hst hc hself hstep hgrad hresid⟩⟩,
      fun h => ⟨fun hd => ?_, fun c st hd hcontrib hst hstack => close_accepted h hs hd hcontrib hst hstack⟩⟩⟩
  · exact ends_of_endCmd (exec_open h) (openCh_refused hp hs hbad)
  · exact ends_of_endCmd (exec_open h) ((openCh_reads hp hs hsub hst hal hrange).trans (openWith_bad hbad))
  · exact ends_of_endCmd (exec_open h)
      ((openCh_reads hp hs hsub hst hal hrange).trans (openWith_unclaimed hb hpl hstack hc))
  · exact open_accepted h (openCh_reads hp hs hsub hst hal hrange) hb hpl hstack hc hacc
  · exact ends_of_endCmd (exec_contrib h hs hb) (contribCh_stopped (by simp [hst]))
  · exact ends_of_endCmd (exec_contrib h hs hb) (contribCh_stopped (by simp [hst]))
  · exact ends_of_endCmd (exec_contrib h hs hb) (contribCh_stopped (by simp [hst]))
  · exact ends_of_endCmd (exec_contrib h hs hb) (contribCh_stopped (by simp [hst]))
  · exact ends_of_endCmd (exec_contrib h hs hb) (contribCh_spare hst hc hself)
  · exact ends_of_endCmd (exec_contrib h hs hb) (contribCh_wrongStep hst hc hself hstep)
  · exact (exec_close h hs).trans (congrArg (fun t => Host.Outcome.next (settle t)) (closeCh_unused hd))

end Sys2Proof.Machine
end

section
/-! PROOFS. A link frame is 256 bytes with its CRC, and carries its header and a packet unchanged (R196, R201). -/
set_option Elab.async false
namespace Sys2Proof.Machine

/-! ### Fields of a byte string -/

theorem slice_of_append {l m r : List Byte} {off n : Nat} (hoff : l.length = off) (hn : m.length = n) :
    slice (l ++ m ++ r) off n = m := by
  subst hoff hn
  simp [slice]
@[simp] theorem slice_length (bs : List Byte) (off n : Nat) : (slice bs off n).length = n := by
  simp [slice]
/-- Bytes at the front are followed by zeros. -/
theorem slice_front {bs : List Byte} {n : Nat} (h : bs.length ≤ n) :
    slice bs 0 n = bs ++ List.replicate (n - bs.length) 0 := by
  rw [slice, List.drop_zero, List.take_of_length_le h]
/-- A field of a string that is laid out field by field. -/
theorem leAt_fields {fs : List (List Byte)} {r m : List Byte} (i : Nat) {off n : Nat} (hm : fs[i]? = some m)
    (hoff : ((fs.take i).map List.length).sum = off) (hn : m.length = n) : leAt (fs.flatten ++ r) off n = leNat m := by
  obtain ⟨hi, rfl⟩ := List.getElem?_eq_some_iff.mp hm
  have hsplit : fs.flatten ++ r = (fs.take i).flatten ++ fs[i] ++ ((fs.drop (i + 1)).flatten ++ r) := by
    conv_lhs => rw [← List.take_append_drop i fs, List.drop_eq_getElem_cons hi]
    rw [List.flatten_append, List.flatten_cons, List.append_assoc, List.append_assoc, List.append_assoc]
  rw [hsplit]
  exact leAt_of_append (by rw [List.length_flatten, hoff]) hn
theorem leNat_word {w : Nat} (n : Nat) (v : BitVec w) (h : 2 ^ w ≤ 256 ^ n) : leNat (natLe n v.toNat) = v.toNat := by
  rw [leNat_natLe, Nat.mod_eq_of_lt (v.isLt.trans_le h)]
theorem leNat_byte (b : Byte) : leNat [b] = b.toNat := Nat.add_zero _

/-! ### Frames -/

variable {ltype : Byte} {lseq : BitVec 16} {h : LinkHdr} {pay : List Byte}

/-- The fields of a frame before its CRC. -/
def frameFields (ltype : Byte) (lseq : BitVec 16) (h : LinkHdr) (pay : List Byte) : List (List Byte) :=
  [[ltype], [BitVec.ofNat 8 h.cvc.val], natLe 2 lseq.toNat, natLe 2 h.ack.toNat, natLe 2 h.credit.toNat, slice pay 0 240,
    natLe 2 pay.length, natLe 2 0]
theorem linkFrame_eq : linkFrame ltype lseq h pay =
    (frameFields ltype lseq h pay).flatten ++ natLe 4 (crc32 (frameFields ltype lseq h pay).flatten).toNat := by
  have hbody : [ltype, BitVec.ofNat 8 h.cvc.val] ++ natLe 2 lseq.toNat ++ natLe 2 h.ack.toNat ++ natLe 2 h.credit.toNat ++
      slice pay 0 240 ++ natLe 2 pay.length ++ natLe 2 0 = (frameFields ltype lseq h pay).flatten := by
    simp [frameFields]
  rw [linkFrame, hbody]
theorem frameFields_length : (frameFields ltype lseq h pay).flatten.length = 252 := by
  simp [frameFields]
theorem linkFrame_length : (linkFrame ltype lseq h pay).length = 256 := by
  rw [linkFrame_eq, List.length_append, frameFields_length, natLe_length]
theorem frameOk_linkFrame : frameOk (linkFrame ltype lseq h pay) = true := by
  have hcrc : leAt (linkFrame ltype lseq h pay) 252 4 = (crc32 (frameFields ltype lseq h pay).flatten).toNat := by
    rw [linkFrame_eq, ← List.append_nil (_ ++ _), leAt_of_append frameFields_length (natLe_length _ _),
      leNat_word 4 _ (by decide)]
  have hbody : slice (linkFrame ltype lseq h pay) 0 252 = (frameFields ltype lseq h pay).flatten := by
    rw [linkFrame_eq]
    exact slice_of_append (l := []) rfl frameFields_length
  rw [frameOk, hcrc, hbody, beq_self_eq_true]
/-- Field `i` of a frame. -/
theorem leAt_linkFrame {m : List Byte} (i : Nat) {off n : Nat} (hm : (frameFields ltype lseq h pay)[i]? = some m)
    (hoff : (((frameFields ltype lseq h pay).take i).map List.length).sum = off) (hn : m.length = n) :
    leAt (linkFrame ltype lseq h pay) off n = leNat m := by
  rw [linkFrame_eq]
  exact leAt_fields i hm hoff hn
theorem linkFrame_ack : leAt (linkFrame ltype lseq h pay) 4 2 = h.ack.toNat :=
  (leAt_linkFrame 3 rfl rfl rfl).trans (leNat_word 2 _ (by decide))
theorem linkFrame_cvc : byteAt (linkFrame ltype lseq h pay) 1 = h.cvc.val := by
  refine (leAt_linkFrame 1 rfl rfl rfl).trans ?_
  rw [leNat_byte, BitVec.toNat_ofNat, Nat.mod_eq_of_lt (by omega)]
theorem linkFrame_credit : leAt (linkFrame ltype lseq h pay) 6 2 = h.credit.toNat :=
  (leAt_linkFrame 4 rfl rfl rfl).trans (leNat_word 2 _ (by decide))
theorem linkFrame_type : frameType (linkFrame ltype lseq h pay) = ltype.toNat :=
  (leAt_linkFrame 0 rfl rfl rfl).trans (leNat_byte _)
theorem linkFrame_seq : leAt (linkFrame ltype lseq h pay) 2 2 = lseq.toNat :=
  (leAt_linkFrame 2 rfl rfl rfl).trans (leNat_word 2 _ (by decide))
theorem linkFrame_plen (hp : pay.length ≤ 240) : framePlen (linkFrame ltype lseq h pay) = pay.length := by
  refine (leAt_linkFrame 6 rfl ?_ rfl).trans ?_
  · simp [frameFields]
  · rw [leNat_natLe, Nat.mod_eq_of_lt (by omega)]
theorem linkFrame_pay (hp : pay.length ≤ 240) :
    framePay (linkFrame ltype lseq h pay) = pay ++ List.replicate (240 - pay.length) 0 := by
  have hsplit : linkFrame ltype lseq h pay = ((frameFields ltype lseq h pay).take 5).flatten ++ slice pay 0 240 ++
      (natLe 2 pay.length ++ natLe 2 0 ++ natLe 4 (crc32 (frameFields ltype lseq h pay).flatten).toNat) := by
    rw [linkFrame_eq]
    simp [frameFields]
  rw [framePay, hsplit, slice_of_append (by simp [frameFields]) (slice_length _ _ _), slice_front hp]

/-- Every frame sent is laid out as a link frame. -/
theorem outBytes_frame (h : LinkHdr) (o : OutFrame) : ∃ ltype lseq pay, outBytes h o = linkFrame ltype lseq h pay := by
  cases o with
  | data q k => exact ⟨_, _, _, rfl⟩
  | time f => exact ⟨_, _, _, rfl⟩
  | ctl c => exact ⟨_, _, _, rfl⟩

/-! ### Packets -/

variable {k : Packet}

/-- The fields of a packet before its data. -/
def packetFields (k : Packet) : List (List Byte) :=
  [[k.ttype], [BitVec.ofNat 8 (packetFlags k)], natLe 2 k.dchip.toNat, natLe 2 k.schip.toNat, [k.spart], [k.hops],
    natLe 8 k.daddr.toNat, natLe 2 k.data.length, [k.cause], [0], natLe 4 k.tid.toNat, natLe 2 k.stream.toNat,
    natLe 2 (k.stream.toNat / 65536), natLe 4 0]
theorem packetBytes_eq (k : Packet) : packetBytes k = (packetFields k).flatten ++ k.data := by
  have hstream : natLe 4 k.stream.toNat = natLe 2 k.stream.toNat ++ natLe 2 (k.stream.toNat / 65536) := by
    simp [natLe, Nat.div_div_eq_div_mul]
  rw [packetBytes, hstream]
  simp [packetFields]
theorem packetFields_length (k : Packet) : (packetFields k).flatten.length = 32 := by
  simp [packetFields]
theorem packetBytes_length (k : Packet) : (packetBytes k).length = 32 + k.data.length := by
  rw [packetBytes_eq, List.length_append, packetFields_length]
/-- Field `i` of a packet with bytes behind it. -/
theorem leAt_packet {m : List Byte} (i : Nat) {off n : Nat} (z : List Byte) (hm : (packetFields k)[i]? = some m)
    (hoff : (((packetFields k).take i).map List.length).sum = off) (hn : m.length = n) :
    leAt (packetBytes k ++ z) off n = leNat m := by
  rw [packetBytes_eq, List.append_assoc]
  exact leAt_fields i hm hoff hn
theorem packetFlags_bits (k : Packet) :
    bitOf (BitVec.ofNat 8 (packetFlags k)).toNat 0 = k.final ∧ bitOf (BitVec.ofNat 8 (packetFlags k)).toNat 1 = k.detour := by
  unfold packetFlags
  cases k.final <;> cases k.detour <;> decide

theorem ofNat_toNat_self {w : Nat} (v : BitVec w) : BitVec.ofNat w v.toNat = v := by
  rw [BitVec.ofNat_toNat, BitVec.setWidth_eq]
/-- The bytes of a packet, whatever follows them, hold that packet. -/
theorem packetOf_packetBytes (z : List Byte) (hk : k.data.length ≤ 208) :
    packetOf (packetBytes k ++ z) (32 + k.data.length) = some k := by
  have htype : byteAt (packetBytes k ++ z) 0 = k.ttype.toNat := (leAt_packet 0 z rfl rfl rfl).trans (leNat_byte _)
  have hflags : byteAt (packetBytes k ++ z) 1 = (BitVec.ofNat 8 (packetFlags k)).toNat :=
    (leAt_packet 1 z rfl rfl rfl).trans (leNat_byte _)
  have hdst : leAt (packetBytes k ++ z) 2 2 = k.dchip.toNat :=
    (leAt_packet 2 z rfl rfl rfl).trans (leNat_word 2 _ (by decide))
  have hsrc : leAt (packetBytes k ++ z) 4 2 = k.schip.toNat :=
    (leAt_packet 3 z rfl rfl rfl).trans (leNat_word 2 _ (by decide))
  have hpart : byteAt (packetBytes k ++ z) 6 = k.spart.toNat := (leAt_packet 4 z rfl rfl rfl).trans (leNat_byte _)
  have hhops : byteAt (packetBytes k ++ z) 7 = k.hops.toNat := (leAt_packet 5 z rfl rfl rfl).trans (leNat_byte _)
  have haddr : leAt (packetBytes k ++ z) 8 8 = k.daddr.toNat :=
    (leAt_packet 6 z rfl rfl rfl).trans (leNat_word 8 _ (by decide))
  have hlen : leAt (packetBytes k ++ z) 16 2 = k.data.length := by
    refine (leAt_packet 7 z rfl rfl rfl).trans ?_
    rw [leNat_natLe, Nat.mod_eq_of_lt (by omega)]
  have hcause : byteAt (packetBytes k ++ z) 18 = k.cause.toNat := (leAt_packet 8 z rfl rfl rfl).trans (leNat_byte _)
  have htid : leAt (packetBytes k ++ z) 20 4 = k.tid.toNat :=
    (leAt_packet 10 z rfl rfl rfl).trans (leNat_word 4 _ (by decide))
  have hstream : leAt (packetBytes k ++ z) 24 2 = k.stream.toNat :=
    (leAt_packet 11 z rfl rfl rfl).trans (leNat_word 2 _ (by decide))
  have hdata : slice (packetBytes k ++ z) 32 k.data.length = k.data := by
    rw [packetBytes_eq]
    exact slice_of_append (packetFields_length k) rfl
  obtain ⟨hfinal, hdetour⟩ := packetFlags_bits k
  have hchips : ¬ (208 < k.data.length ∨ 32 + k.data.length ≠ 32 + k.data.length ∨ 4096 ≤ k.dchip.toNat ∨
      4096 ≤ k.schip.toNat) := by
    have h1 := k.dchip.isLt
    have h2 := k.schip.isLt
    omega
  unfold packetOf
  simp only [htype, hflags, hdst, hsrc, hpart, hhops, haddr, hlen, hcause, htid, hstream, hdata, hfinal, hdetour,
    if_neg hchips, ofNat_toNat_self]

/-- What a frame sent carries (R196). -/
theorem outBytes_header (h : LinkHdr) (o : OutFrame) : (outBytes h o).length = 256 ∧ frameOk (outBytes h o) = true ∧
    leAt (outBytes h o) 4 2 = h.ack.toNat ∧ byteAt (outBytes h o) 1 = h.cvc.val ∧
    leAt (outBytes h o) 6 2 = h.credit.toNat := by
  obtain ⟨ltype, lseq, pay, hframe⟩ := outBytes_frame h o
  rw [hframe]
  exact ⟨linkFrame_length, frameOk_linkFrame, linkFrame_ack, linkFrame_cvc, linkFrame_credit⟩
/-- A data frame carries its packet unchanged (R201). -/
theorem outBytes_packet (h : LinkHdr) (q : BitVec 16) (k : Packet) (hk : k.data.length ≤ 208) :
    frameType (outBytes h (.data q k)) = 1 ∧ leAt (outBytes h (.data q k)) 2 2 = q.toNat ∧
    framePlen (outBytes h (.data q k)) = 32 + k.data.length ∧
    packetOf (framePay (outBytes h (.data q k))) (framePlen (outBytes h (.data q k))) = some k := by
  have hlen := packetBytes_length k
  have hframe : outBytes h (.data q k) = linkFrame 1 q h (packetBytes k) := rfl
  rw [hframe, linkFrame_plen (by omega), linkFrame_pay (by omega), hlen]
  exact ⟨linkFrame_type, linkFrame_seq, rfl, packetOf_packetBytes _ hk⟩

end Sys2Proof.Machine
end

section
/-! SUPPORT. What framing, events and lost links leave in the ports of the fabric (R197 to R200, R203). -/
set_option Elab.async false
namespace Sys2Proof.Machine

variable {s t u : State} {p q : Fin 16}

/-! ### Framing (R197, R198) -/

/-- A port as the sending and crediting of frames leaves it. -/
def Framed (x y : Port) : Prop :=
  y = { x with fec := y.fec, replay := y.replay, txSeq := y.txSeq, replayBuf := y.replayBuf, txq := y.txq,
               credits := y.credits, freed := y.freed, sent := y.sent }
theorem Framed.refl (x : Port) : Framed x x := rfl
theorem Framed.trans {x y z : Port} (h : Framed x y) (h' : Framed y z) : Framed x z := by
  unfold Framed at *
  rw [h', h]
theorem framed_send (x : Port) (o : OutFrame) : Framed x (x.send o) := rfl
/-- Frames were sent and credited on the ports, and memory, time and the fabric's record stay. -/
structure Pumped (s t : State) : Prop where
  port : ∀ q, Framed (vget s.ports q) (vget t.ports q)
  mem : t.mem = s.mem
  time : t.time = s.time
  fabric : t.fabric = s.fabric

theorem Pumped.of_same (hp : t.ports = s.ports) (hm : t.mem = s.mem) (ht : t.time = s.time) (hf : t.fabric = s.fabric) :
    Pumped s t := ⟨fun q => by rw [hp]; exact .refl _, hm, ht, hf⟩
theorem Pumped.refl (s : State) : Pumped s s := .of_same rfl rfl rfl rfl
theorem Pumped.trans (h : Pumped s t) (h' : Pumped t u) : Pumped s u :=
  ⟨fun q => (h.port q).trans (h'.port q), h'.mem.trans h.mem, h'.time.trans h.time, h'.fabric.trans h.fabric⟩
theorem Pumped.foldl {α : Type} {f : State → α → State} (h : ∀ s a, Pumped s (f s a)) (l : List α) (s : State) :
    Pumped s (l.foldl f s) := by
  induction l generalizing s with
  | nil => exact .refl s
  | cons a l ih => exact (h s a).trans (ih _)

theorem vget_modPort_same (f : Port → Port) (s : State) : vget (s.modPort p f).ports p = f (vget s.ports p) :=
  vget_vset_same ..
theorem vget_modPort_other (h : q ≠ p) (f : Port → Port) (s : State) : vget (s.modPort p f).ports q = vget s.ports q :=
  vget_vset_other _ _ _ _ h
theorem pumped_modPort {f : Port → Port} (hf : ∀ x, Framed x (f x)) (p : Fin 16) (s : State) : Pumped s (s.modPort p f) := by
  refine ⟨fun q => ?_, rfl, rfl, rfl⟩
  rcases eq_or_ne q p with rfl | h
  · rw [vget_modPort_same]
    exact hf _
  · rw [vget_modPort_other h]
    exact .refl _
theorem pumped_freeBuf (b : Option (Fin 16 × Fin 8)) (s : State) : Pumped s (freeBuf b s) := by
  unfold freeBuf
  split
  · refine pumped_modPort ?_ _ _
    exact fun _ => rfl
  · exact .refl s
theorem pumped_pushPort (p : Fin 16) (e : Fin 8 × Packet × Option (Fin 16 × Fin 8)) (s : State) :
    Pumped s (pushPort p e s) := by
  unfold pushPort
  dsimp only
  split
  · refine Pumped.trans (pumped_modPort ?_ _ _) (pumped_freeBuf _ _)
    exact fun _ => rfl
  · refine pumped_modPort ?_ _ _
    exact fun _ => rfl
theorem pumped_pumpPort (p : Fin 16) (s : State) : Pumped s (pumpPort p s) := by
  unfold pumpPort
  refine Pumped.trans (pumped_modPort ?_ _ _) (Pumped.foldl (fun s e => pumped_pushPort p e s) _ _)
  exact fun _ => rfl
theorem pumped_raiseCorr (f : Fid) (s : State) : Pumped s (raiseCorr f s) := .of_same rfl rfl rfl rfl
theorem pumped_linkHdr (p : Fin 16) (h : LinkHdr) (s : State) : Pumped s (linkHdr p h s) := by
  unfold linkHdr
  dsimp only
  have hpump (f : Port → Port) (hf : ∀ x, Framed x (f x)) : Pumped s (pumpPort p (s.modPort p f)) :=
    (pumped_modPort hf p s).trans (pumped_pumpPort p _)
  split
  · refine hpump _ ?_
    exact fun _ => rfl
  · refine (hpump _ ?_).trans (pumped_raiseCorr _ _)
    exact fun _ => rfl
theorem replayed_framed (l : List (BitVec 16 × Fin 8 × Packet)) (x : Port) :
    Framed x (l.foldl (fun (x : Port) e => x.send (.data e.1 e.2.2)) x) := by
  induction l generalizing x with
  | nil => exact .refl x
  | cons e l ih => exact (framed_send x _).trans (ih _)

/-- The first NAK within 1 ms is counted and no more (R199). -/
theorem countNak_first (h : (vget s.ports p).naks = []) :
    countNak p s = s.modPort p fun x => { x with naks := [s.time.it] } := by
  unfold countNak
  rw [h]
  refine if_neg ?_
  simp

/-! ### Ports that stay as they are -/

theorem timeEvent_ports (c : BitVec 8) (s : State) : (timeEvent c s).ports = s.ports := by
  unfold timeEvent
  exact emit_ports _ _ _ _
theorem gmEvent_ports (old : BitVec 12) (had : Bool) (s : State) : (gmEvent old had s).ports = s.ports := by
  unfold gmEvent
  split
  · exact timeEvent_ports _ _
  · rfl
theorem timeSelect_ports (s : State) : (timeSelect s).ports = s.ports := by
  unfold timeSelect
  dsimp only
  split
  · split
    · exact timeEvent_ports _ _
    · rfl
  · split
    · split
      · exact gmEvent_ports _ _ _
      · exact (timeEvent_ports _ _).trans (gmEvent_ports _ _ _)
    · exact gmEvent_ports _ _ _
theorem raiseCause_ports {f : Fid} {bit : Nat} (h : causeClass f bit = 1) (s : State) :
    (raiseCause f bit s).ports = s.ports := by
  have houtputs : ∀ (l : List (Fin 32)) (s : State), (l.foldl (fun s a => raiseOutput a 2 s) s).ports = s.ports := by
    intro l
    induction l with
    | nil => exact fun _ => rfl
    | cons a l ih => exact fun s => (ih _).trans (raiseOutput_ports _ _ _)
  have hreact (t : State) : (react f bit t).ports = t.ports := by
    have hone : react f bit t = if fidType f = 6 then
        (assignedAxes (fenceFn f t) ⟨fidIdx f % 8, by omega⟩).foldl
        (fun s a => raiseOutput a 2 s) (fenceFn f t) else fenceFn f t := by
      unfold react
      rw [h]
      rfl
    rw [hone]
    split_ifs
    · rw [houtputs, fenceFn_ports]
    · rw [fenceFn_ports]
  unfold raiseCause
  dsimp only
  split
  · rw [announce_ports, hreact, putCause_ports]
  · rw [hreact, putCause_ports]

/-! ### Links that go down (R199, R200, R203) -/

/-- Routes lead over links that are up. -/
theorem route_up {dst : BitVec 12} {detour : Bool} {a : Option Arrival} {r : Route} (h : route s dst detour a = some r)
    (hq : q ∈ r.ports) : (vget s.ports q).st = .up := by
  have htrunk : ∀ i plus, q ∈ trunk s i plus → (vget s.ports q).st = .up := by
    intro i plus hmem
    have hcond := (List.mem_filter.mp hmem).2
    simp only [Bool.and_eq_true, decide_eq_true_eq] at hcond
    exact hcond.1
  obtain ⟨i, -, hi⟩ := List.exists_of_findSome?_eq_some h
  simp only [routeDim, Option.ite_none_left_eq_some] at hi
  replace hi := hi.2
  rw [ite_eq_iff, ite_eq_iff] at hi
  obtain ⟨-, hsome⟩ | ⟨-, ⟨-, hsome⟩ | ⟨-, hnone⟩⟩ := hi
  · obtain rfl := Option.some.inj hsome
    exact htrunk _ _ hq
  · obtain rfl := Option.some.inj hsome
    exact htrunk _ _ hq
  · exact absurd hnone nofun
/-- A port that is not up keeps all but its credits to return. -/
def Spared (p : Fin 16) (s t : State) : Prop :=
  (vget s.ports p).st ≠ .up → ∃ f, vget t.ports p = { vget s.ports p with freed := f }
theorem Spared.of_ports (h : t.ports = s.ports) : Spared p s t := fun _ => ⟨(vget s.ports p).freed, by rw [h]⟩
theorem Spared.trans (h : Spared p s t) (h' : Spared p t u) : Spared p s u := by
  intro hs
  obtain ⟨f, hf⟩ := h hs
  obtain ⟨g, hg⟩ := h' (by rw [hf]; exact hs)
  exact ⟨g, by rw [hg, hf]⟩
theorem Spared.foldl {α : Type} {f : State → α → State} (h : ∀ s a, Spared p s (f s a)) (l : List α) (s : State) :
    Spared p s (l.foldl f s) := by
  induction l generalizing s with
  | nil => exact .of_ports rfl
  | cons a l ih => exact (h s a).trans (ih _)
theorem spared_freeBuf (b : Option (Fin 16 × Fin 8)) (s : State) : Spared p s (freeBuf b s) := by
  unfold freeBuf
  split
  next r v =>
    intro _
    rcases eq_or_ne p r with rfl | h
    · exact ⟨_, vget_modPort_same _ _⟩
    · exact ⟨_, vget_modPort_other h _ _⟩
  · exact .of_ports rfl
theorem spared_pushPort (hq : (vget s.ports q).st = .up) (e : Fin 8 × Packet × Option (Fin 16 × Fin 8)) :
    Spared p s (pushPort q e s) := by
  intro hs
  have hne : p ≠ q := by
    rintro rfl
    exact hs hq
  have hother : ∀ f : Port → Port, Spared p s (s.modPort q f) := fun f _ =>
    ⟨(vget s.ports p).freed, vget_modPort_other hne f s⟩
  unfold pushPort
  dsimp only
  split
  · exact (hother _).trans (spared_freeBuf _ _) hs
  · exact hother _ hs
theorem spared_sendFrom (a : Option Arrival) (b : Option (Fin 16 × Fin 8)) (k : Packet) (s : State) :
    Spared p s (sendFrom a b k s) := by
  unfold sendFrom
  split
  · exact .of_ports rfl
  · split
    · exact spared_freeBuf _ _
    next r o hr =>
      obtain ⟨r', hroute, hport⟩ := Option.bind_eq_some_iff.mp hr
      obtain ⟨o', ho, hro⟩ := Option.map_eq_some_iff.mp hport
      cases hro
      exact spared_pushPort (route_up hroute (List.mem_of_getElem? ho)) _

theorem forgetBufs_port (p q : Fin 16) (s : State) :
    ∃ rx txq, vget (forgetBufs p s).ports q = { vget s.ports q with rx := rx, txq := txq } := by
  unfold forgetBufs
  dsimp only
  rw [vget_map]
  rcases eq_or_ne q p with rfl | h
  · rw [vget_modPort_same]
    exact ⟨_, _, rfl⟩
  · rw [vget_modPort_other h]
    exact ⟨_, _, rfl⟩

/-- A port whose link has gone down. -/
def Port.lost (cause : BitVec 4) (x : Port) : Port :=
  { x with
    st := .down, cause := cause, downs := satInc x.downs, lanes := 0, timeUse := false, helloRx := false,
    helloBad := cause = 4 || cause = 5, replayBuf := [], txq := [], credits := vrep 8 0, freed := vrep 8 0,
    nakSent := false, naks := [], txTimes := [], stratum := 0xFF, peerLocked := false }
/-- The state once the packets of a lost link have taken another route. -/
def linkLost (p : Fin 16) (cause : BitVec 4) (s : State) : State :=
  (vget (forgetBufs p s).ports p).txq.foldl (fun s e => sendFrom none e.2.2 e.2.1 s)
    ((forgetBufs p s).modPort p (Port.lost cause))
theorem portDown_eq {cause : BitVec 4} (h : cause ≠ 6) (s : State) : portDown p cause s =
    raiseCause (portFid p) 5 (timeSelect (say (.linkDown p cause) (linkEvent p 0x60 (reroute (linkLost p cause s))))) :=
  if_neg h
theorem linkEvent_ports (p : Fin 16) (c : BitVec 8) (s : State) : (linkEvent p c s).ports = s.ports := by
  unfold linkEvent
  exact emit_ports _ _ _ _
/-- A link that goes down: its state, cause and count, no frame to replay, and the fault LINK. -/
theorem portDown_leaves {cause : BitVec 4} (h : cause ≠ 6) (s : State) :
    (vget (portDown p cause s).ports p).st = .down ∧ (vget (portDown p cause s).ports p).cause = cause ∧
    (vget (portDown p cause s).ports p).downs = satInc (vget s.ports p).downs ∧
    (vget (portDown p cause s).ports p).replayBuf = [] ∧
    (vget (portDown p cause s).flt (fidSlot (portFid p))).a.cause.getLsbD 5 = true := by
  have hports : (portDown p cause s).ports = (linkLost p cause s).ports := by
    rw [portDown_eq h, raiseCause_ports rfl, timeSelect_ports, say_ports, linkEvent_ports]
    rfl
  obtain ⟨rx, txq, hforgot⟩ := forgetBufs_port p p s
  have hlost : vget ((forgetBufs p s).modPort p (Port.lost cause)).ports p =
      Port.lost cause { vget s.ports p with rx := rx, txq := txq } := by
    rw [vget_modPort_same, hforgot]
  obtain ⟨f, hf⟩ := Spared.foldl (p := p) (fun s (e : Fin 8 × Packet × Option (Fin 16 × Fin 8)) =>
    spared_sendFrom none e.2.2 e.2.1 s) (vget (forgetBufs p s).ports p).txq ((forgetBufs p s).modPort p (Port.lost cause))
    (by rw [hlost]; exact nofun)
  have hport : vget (linkLost p cause s).ports p = _ := hf
  rw [hports, hport, hlost]
  refine ⟨rfl, rfl, rfl, rfl, ?_⟩
  rw [portDown_eq h]
  exact (causeTaken_raise (by decide) rfl).a

/-- A link that comes up: its sequence numbers start again, and its last frame and credits stay. -/
theorem portUp_port (p : Fin 16) (s : State) : ∃ rx txq, vget (portUp p s).ports p = { vget s.ports p with
    rx := rx, txq := txq, st := .up, txSeq := 0, rxSeq := 0, nakSent := false, naks := [], freed := vrep 8 0, txTimes := [] } := by
  obtain ⟨rx, txq, hforgot⟩ := forgetBufs_port p p s
  refine ⟨rx, txq, ?_⟩
  unfold portUp
  dsimp only
  rw [say_ports, linkEvent_ports]
  refine (vget_modPort_same _ (forgetBufs p s)).trans ?_
  rw [hforgot]

end Sys2Proof.Machine
end

section
/-! SUPPORT. Time frames, and what taking time from a neighbour leaves in a port (R211, R215, R391). -/
set_option Elab.async false
namespace Sys2Proof.Machine

variable {s t : State} {p : Fin 16}

/-- What a port has of its neighbour's time: the frame's fields, the delay, and the use of the link. -/
def Port.timed (x : Port) : Time × Time × BitVec 8 × BitVec 12 × Bool × BitVec 20 × Bool × Tag :=
  (x.lastPeerTx, x.lastPeerRx, x.stratum, x.gmId, x.peerLocked, x.delay, x.timeUse, x.dtag)
theorem Framed.timed {x y : Port} (h : Framed x y) : y.timed = x.timed := by
  unfold Framed at h
  rw [h]
  rfl
theorem Framed.dtag {x y : Port} (h : Framed x y) : y.dtag = x.dtag := by
  unfold Framed at h
  rw [h]
theorem Framed.txTimes {x y : Port} (h : Framed x y) : y.txTimes = x.txTimes := by
  unfold Framed at h
  rw [h]

theorem fitU_of_small {w d : Nat} (h : d < 2 ^ w) (s : State) : fitU w d s = (BitVec.ofNat w d, s) := by
  have hfits : (0 : Int) ≤ d ∧ (d : Int) < 2 ^ w := ⟨Int.natCast_nonneg d, by exact_mod_cast h⟩
  rw [fitU, if_pos hfits, BitVec.ofInt_natCast]
theorem fitU_ports (w : Nat) (v : Int) (s : State) : (fitU w v s).2.ports = s.ports := by
  unfold fitU
  split <;> rfl
theorem fitS_ports (w : Nat) (v : Int) (s : State) : (fitS w v s).2.ports = s.ports := by
  unfold fitS
  split <;> rfl

theorem foldl_ports {α : Type} {f : State → α → State} (h : ∀ s a, (f s a).ports = s.ports) (l : List α) (s : State) :
    (l.foldl f s).ports = s.ports := by
  induction l generalizing s with
  | nil => rfl
  | cons a l ih => exact (ih _).trans (h s a)
theorem keepGrids_ports (d : Int) (s : State) : (keepGrids d s).ports = s.ports := by
  unfold keepGrids
  refine foldl_ports (fun s e => ?_) _ s
  split
  · refine foldl_ports ?_ _ s
    exact fun _ _ => rfl
  · rfl
theorem loadIt_timed (d : Int) (s : State) : (vget (loadIt d s).ports p).timed = (vget s.ports p).timed := by
  have hports : (loadIt d s).ports = s.ports.map fun x => { x with naks := x.naks.map fun t => t + BitVec.ofInt 64 d } :=
    congrArg (Vector.map _) (keepGrids_ports d s)
  rw [hports, vget_map]
  rfl
/-- Steering the time base leaves what the ports have of their neighbours' time. -/
theorem steer_timed (m : Int) (s : State) : (vget (steer m s).ports p).timed = (vget s.ports p).timed := by
  unfold steer
  dsimp only
  split
  · rw [timeEvent_ports, modTime_ports, loadIt_timed, modTime_ports, fitS_ports]
  · rw [timeEvent_ports, modTime_ports, modTime_ports, fitS_ports]
  · rw [modTime_ports, modTime_ports, fitS_ports]

/-- The delay of an exchange. -/
def echoDelay (f : TimeFrame) (a : Time) : Int :=
  ((f.echoRx.toNat : Int) - f.echoTx.toNat + ((a.toNat : Int) - f.tx.toNat)) / 2
/-- A port whose delay is measured. -/
def Port.measured (delay : BitVec 20) (use : Bool) (x : Port) : Port :=
  { x with delay := delay, dtag := x.dtag.bump, timeUse := use }
/-- The exchange publishes the delay and judges the link; the frame's fields stay (R210, R215). -/
theorem exchange_timed (f : TimeFrame) (a : Time) (s : State) : (vget (exchange p f a s).ports p).timed =
    ((vget s.ports p).measured (fitU 20 (echoDelay f a) s).1 (decide (echoDelay f a ≤ 1600))).timed := by
  have hjudged : ∀ o : BitVec 20, ∀ t : State, t.ports = s.ports →
      (vget (timeSelect (t.modPort p fun x => { x with
        delay := (fitU 20 (echoDelay f a) s).1, ofs := o, dtag := x.dtag.bump,
        timeUse := decide (echoDelay f a ≤ 1600) })).ports p).timed =
      ((vget s.ports p).measured (fitU 20 (echoDelay f a) s).1 (decide (echoDelay f a ≤ 1600))).timed := by
    intro o t ht
    rw [timeSelect_ports, vget_modPort_same, ht]
    rfl
  have hfit : ∀ v, (fitS 20 v (fitU 20 (echoDelay f a) s).2).2.ports = s.ports := fun v =>
    (fitS_ports _ _ _).trans (fitU_ports _ _ _)
  unfold exchange
  dsimp only
  split_ifs
  · exact hjudged _ _ (hfit _)
  · exact (steer_timed _ _).trans (hjudged _ _ (hfit _))
  · exact hjudged _ _ (hfit _)
theorem orderRx_ports (o : FrzOrder) (s : State) : (orderRx o s).ports = s.ports := by
  unfold orderRx
  dsimp only
  split_ifs
  · rfl
  · rw [emit_ports]
    rfl
  · rfl
  · rfl

/-- A port once a time frame's fields are taken. -/
def Port.told (f : TimeFrame) (a : Time) (x : Port) : Port :=
  { x with lastPeerTx := f.tx, lastPeerRx := a, stratum := f.stratum, gmId := f.gmId, peerLocked := f.locked }
theorem told_timed {f : TimeFrame} {a : Time} {x y : Port} (h : y.timed = x.timed) :
    (y.told f a).timed = (x.told f a).timed := by
  simp only [Port.timed, Prod.mk.injEq] at h
  obtain ⟨-, -, -, -, -, hdelay, huse, htag⟩ := h
  simp only [Port.timed, Port.told, hdelay, huse, htag]
/-- A time frame as its steps: the header, the fields, the exchange or the choice of a grandmaster, and the order. -/
theorem timeFrame_port (h : LinkHdr) (f : TimeFrame) (a : Time) (s : State) :
    vget (timeFrame p h f a s).ports p = vget (if f.echoTx ∈ (vget (linkHdr p h s).ports p).txTimes then
      exchange p f a ((linkHdr p h s).modPort p (Port.told f a))
      else timeSelect ((linkHdr p h s).modPort p (Port.told f a))).ports p := by
  unfold timeFrame
  dsimp only
  split
  · rw [orderRx_ports]
    rfl
  · rfl
/-- A frame without a known echo leaves its fields and no delay (R215). -/
theorem timeFrame_unknown (h : LinkHdr) (f : TimeFrame) (a : Time) (hecho : f.echoTx ∉ (vget s.ports p).txTimes) :
    (vget (timeFrame p h f a s).ports p).timed = ((vget s.ports p).told f a).timed := by
  have hport := (pumped_linkHdr p h s).port p
  rw [timeFrame_port, hport.txTimes, if_neg hecho, timeSelect_ports, vget_modPort_same]
  exact told_timed hport.timed
/-- A frame that echoes one of the last four sent gives the delay and judges the link (R195, R215). -/
theorem timeFrame_known (h : LinkHdr) (f : TimeFrame) (a : Time) (hecho : f.echoTx ∈ (vget s.ports p).txTimes) :
    ∃ t : State, (vget (timeFrame p h f a s).ports p).timed =
      (((vget s.ports p).told f a).measured (fitU 20 (echoDelay f a) t).1 (decide (echoDelay f a ≤ 1600))).timed := by
  have hport := (pumped_linkHdr p h s).port p
  refine ⟨(linkHdr p h s).modPort p (Port.told f a), ?_⟩
  rw [timeFrame_port, hport.txTimes, if_pos hecho, exchange_timed, vget_modPort_same]
  simp only [Port.timed, Port.told, Port.measured, hport.dtag]
/-- Whatever its echo, the frame's fields are the port's (R215). -/
theorem timeFrame_fields (h : LinkHdr) (f : TimeFrame) (a : Time) (s : State) :
    (vget (timeFrame p h f a s).ports p).lastPeerTx = f.tx ∧ (vget (timeFrame p h f a s).ports p).stratum = f.stratum ∧
    (vget (timeFrame p h f a s).ports p).gmId = f.gmId ∧ (vget (timeFrame p h f a s).ports p).peerLocked = f.locked ∧
    (vget (timeFrame p h f a s).ports p).lastPeerRx = a := by
  have htold : ∃ d u g, (vget (timeFrame p h f a s).ports p).timed =
      (f.tx, a, f.stratum, f.gmId, f.locked, d, u, g) := by
    by_cases hecho : f.echoTx ∈ (vget s.ports p).txTimes
    · obtain ⟨t, ht⟩ := timeFrame_known h f a hecho
      exact ⟨_, _, _, ht⟩
    · exact ⟨_, _, _, timeFrame_unknown h f a hecho⟩
  obtain ⟨d, u, g, hall⟩ := htold
  simp only [Port.timed, Prod.mk.injEq] at hall
  obtain ⟨htx, hrx, hstratum, hgm, hlocked, -⟩ := hall
  exact ⟨htx, hstratum, hgm, hlocked, hrx⟩
/-- Without a known echo the delay stays as it was (R215). -/
theorem timeFrame_noEcho (h : LinkHdr) (f : TimeFrame) (a : Time) (hecho : f.echoTx ∉ (vget s.ports p).txTimes) :
    (vget (timeFrame p h f a s).ports p).delay = (vget s.ports p).delay ∧
    (vget (timeFrame p h f a s).ports p).dtag = (vget s.ports p).dtag := by
  have hall := timeFrame_unknown h f a hecho
  simp only [Port.timed, Port.told, Prod.mk.injEq] at hall
  obtain ⟨-, -, -, -, -, hdelay, -, htag⟩ := hall
  exact ⟨hdelay, htag⟩
/-- A known echo whose delay fits its field gives the delay, the link's use for time and a new tag (R195, R215). -/
theorem timeFrame_echo (h : LinkHdr) (f : TimeFrame) (a : Time) (hecho : f.echoTx ∈ (vget s.ports p).txTimes) {d : Nat}
    (hd : d < 2 ^ 20) (hdelay : (f.echoRx.toNat : Int) - f.echoTx.toNat + ((a.toNat : Int) - f.tx.toNat) = 2 * d) :
    (vget (timeFrame p h f a s).ports p).delay = BitVec.ofNat 20 d ∧
    (vget (timeFrame p h f a s).ports p).timeUse = decide (d ≤ 1600) ∧
    (vget (timeFrame p h f a s).ports p).dtag = (vget s.ports p).dtag.bump := by
  have hhalf : echoDelay f a = d := by
    unfold echoDelay
    omega
  obtain ⟨t, ht⟩ := timeFrame_known h f a hecho
  rw [hhalf, fitU_of_small hd] at ht
  simp only [Port.timed, Port.told, Port.measured, Prod.mk.injEq] at ht
  obtain ⟨-, -, -, -, -, hval, huse, htag⟩ := ht
  exact ⟨hval, huse.trans (by congr 1; exact propext (by omega)), htag⟩

/-- A time frame sent (R215). -/
theorem timeFrameTx_port (p : Fin 16) (s : State) : ∃ f : TimeFrame, vget (timeFrameTx p s).ports p =
      { (vget s.ports p).send (.time f) with
        timeOut := some f, tseq := (vget s.ports p).tseq + 1, txTimes := (s.time.it :: (vget s.ports p).txTimes).take 4 } ∧
    f.tx = s.time.it ∧ f.echoTx = (vget s.ports p).lastPeerTx ∧ f.echoRx = (vget s.ports p).lastPeerRx ∧
    f.gmId = s.time.gmId ∧ f.tseq = (vget s.ports p).tseq ∧ f.locked = decide (s.time.st = .locked) ∧ f.order = orderOut s :=
  ⟨_, vget_modPort_same _ _, rfl, rfl, rfl, rfl, rfl, rfl, rfl⟩

end Sys2Proof.Machine
end

section
/-! PROOF. Frames, HELLO and links going down and up, as the commands of a port (R195 to R201, R215). -/
set_option Elab.async false
namespace Sys2Proof.Machine

variable {s : State} {p : Fin 16} {b : List Byte} {fec : BitVec 16}

theorem Framed.keeps {x y : Port} (h : Framed x y) : y.st = x.st ∧ y.rx = x.rx ∧ y.rxSeq = x.rxSeq ∧ y.naks = x.naks ∧
    y.downs = x.downs ∧ y.peerPlan = x.peerPlan := by
  unfold Framed at h
  rw [h]
  exact ⟨rfl, rfl, rfl, rfl, rfl, rfl⟩
theorem chipId_of_fabric {t : State} (h : t.fabric = s.fabric) : chipId t = chipId s := by
  unfold chipId
  rw [h]

/-! ### Data frames and NAKs (R196 to R198) -/

/-- A data frame in order, for this chip and within its channel's credits, is delivered. -/
theorem dataFrame_delivered {dl : Bool} {k : Packet} (hok : frameOk b = true) (htype : frameType b = 1)
    (hpacket : packetOf (framePay b) (framePlen b) = some k) (hseq : leAt b 2 2 = (vget s.ports p).rxSeq.toNat)
    (hchip : k.dchip = chipId s) (hknown : knownType k.ttype = true)
    (hroom : vcHeld (linkHdr p (frameHdr fec b) s) p (vcOf k dl) < vcFrames (vcOf k dl)) :
    ∃ u, Pumped s u ∧ dataFrame p fec dl b s = (u.modPort p fun x => { x with rxSeq := x.rxSeq + 1, nakSent := false }).modPort p
      fun x => { x with rx := x.rx ++ [(some (vcOf k dl), k)] } := by
  have hpumped := pumped_linkHdr p (frameHdr fec b) s
  obtain ⟨-, -, hrxSeq, -⟩ := (hpumped.port p).keeps
  have hback : ((vget (linkHdr p (frameHdr fec b) s).ports p).rxSeq - BitVec.ofNat 16 (leAt b 2 2)).toNat = 0 := by
    rw [hrxSeq, hseq, ofNat_toNat_self, BitVec.sub_self]
    rfl
  have hhere : ∀ f, k.dchip = chipId ((linkHdr p (frameHdr fec b) s).modPort p f) := fun f =>
    hchip.trans (chipId_of_fabric hpumped.fabric).symm
  refine ⟨_, hpumped, ?_⟩
  simp only [dataFrame, takeData, acceptPacket, hok, htype, hpacket, hback, if_neg (Nat.not_le.mpr hroom), if_pos (hhere _),
    hknown, Bool.not_true, Bool.false_eq_true, if_false, if_true, one_ne_zero]
/-- A frame whose CRC fails is answered with a NAK, which is the first in 1 ms (R198, R199). -/
theorem dataFrame_corrupt {dl : Bool} (hok : frameOk b = false) (hsent : (vget s.ports p).nakSent = false)
    (hnaks : (vget s.ports p).naks = []) : dataFrame p fec dl b s =
      (s.modPort p fun x => { x.send (.ctl (.nak x.rxSeq)) with nakSent := true }).modPort p
        fun x => { x with naks := [s.time.it] } := by
  have hnak : (vget (s.modPort p fun x => { x.send (.ctl (.nak x.rxSeq)) with nakSent := true }).ports p).naks = [] := by
    rw [vget_modPort_same]
    exact hnaks
  simp only [dataFrame, nakTx, hok, hsent, Bool.not_false, Bool.false_eq_true, if_false, if_true]
  exact countNak_first hnak
/-- A NAK frames again what it names, and is counted (R198, R199). -/
theorem nakRx_first (h : LinkHdr) (seq : BitVec 16) (hnaks : (vget s.ports p).naks = []) :
    ∃ u, Pumped s u ∧ nakRx p h seq s = u.modPort p fun x => { x with naks := [s.time.it] } := by
  have hcount : ∀ u, Pumped s u → countNak p u = u.modPort p fun x => { x with naks := [s.time.it] } := by
    intro u hu
    obtain ⟨-, -, -, hsame, -⟩ := (hu.port p).keeps
    rw [countNak_first (hsame.trans hnaks), hu.time]
  unfold nakRx
  dsimp only
  split
  next i _ =>
    have hreplayed : ∀ x : Port, Framed x { (x.replayBuf.drop i).foldl (fun (x : Port) e => x.send (.data e.1 e.2.2)) x with
        replay := satInc x.replay } := fun x => (replayed_framed _ x).trans rfl
    have hall := ((pumped_linkHdr p h s).trans (pumped_modPort hreplayed p _)).trans (pumped_raiseCorr (portFid p) _)
    exact ⟨_, hall, hcount _ hall⟩
  · exact ⟨_, pumped_linkHdr p h s, hcount _ (pumped_linkHdr p h s)⟩

/-! ### HELLO, and links that go down (R197, R199, R200) -/

/-- A command that takes a link down. -/
theorem takenDown {t : State} {c : Instr} {cause : BitVec 4} (hcause : cause ≠ 6)
    (hex : exec c s = .next (settle (portDown p cause t))) (hdowns : (vget t.ports p).downs = (vget s.ports p).downs) :
    ∃ t, exec c s = .next t ∧ (vget t.ports p).st = .down ∧ (vget t.ports p).cause = cause ∧
      (vget t.ports p).downs = satInc (vget s.ports p).downs ∧ (vget t.ports p).replayBuf = [] ∧
      (vget t.flt (fidSlot (portFid p))).a.cause.getLsbD 5 = true := by
  obtain ⟨hst, hc, hd, hbuf, hflt⟩ := portDown_leaves (p := p) hcause t
  refine ⟨_, hex, ?_⟩
  rw [settle_ports, settle_flt]
  exact ⟨hst, hc, by rw [hd, hdowns], hbuf, hflt⟩

/-- A HELLO of another chip than the plan's peer takes the link down (R199). -/
theorem helloRx_chip {u : State} {chip : Nat} {inst : BitVec 64} {c : Vector (BitVec 16) 8}
    (h : chip ≠ (vget u.ports p).peerPlan.toNat) :
    helloRx p chip inst c u = portDown p 4 (u.modPort p fun x => { x with peer := BitVec.ofNat 12 chip }) := by
  unfold helloRx
  dsimp only
  rw [vget_modPort_same, if_pos h]
/-- A HELLO of another installation takes the link down (R199). -/
theorem helloRx_installation {u : State} {chip : Nat} {inst : BitVec 64} {c : Vector (BitVec 16) 8}
    (h : chip = (vget u.ports p).peerPlan.toNat) (hinst : inst ≠ u.fabric.installId) :
    helloRx p chip inst c u = portDown p 5 (u.modPort p fun x => { x with peer := BitVec.ofNat 12 chip }) := by
  unfold helloRx
  dsimp only
  rw [vget_modPort_same, modPort_fabric, if_neg (not_not.mpr h), if_pos hinst]
/-- A HELLO that passes on a link that is up names the peer alone. -/
theorem helloRx_up {u : State} {chip : Nat} {inst : BitVec 64} {c : Vector (BitVec 16) 8}
    (h : chip = (vget u.ports p).peerPlan.toNat) (hinst : inst = u.fabric.installId) (hup : (vget u.ports p).st = .up) :
    helloRx p chip inst c u = u.modPort p fun x => { x with peer := BitVec.ofNat 12 chip } := by
  unfold helloRx
  dsimp only
  rw [vget_modPort_same, modPort_fabric, if_neg (not_not.mpr h), if_neg (not_not.mpr hinst), if_pos hup]
/-- A HELLO that passes on a link that is not up sets the credits; the link is up if this side was trained (R197, R199). -/
theorem helloRx_opening {u : State} {chip : Nat} {inst : BitVec 64} {c : Vector (BitVec 16) 8}
    (h : chip = (vget u.ports p).peerPlan.toNat) (hinst : inst = u.fabric.installId) (hup : (vget u.ports p).st ≠ .up) :
    ∃ v : State, vget v.ports p = { vget u.ports p with
        peer := BitVec.ofNat 12 chip, helloRx := true, helloBad := false, credits := c } ∧
      helloRx p chip inst c u = if (vget u.ports p).st = .hello then portUp p v else v := by
  refine ⟨(u.modPort p fun x => { x with peer := BitVec.ofNat 12 chip }).modPort p fun x => { x with
    helloRx := true, helloBad := false, credits := c }, ?_, ?_⟩
  · rw [vget_modPort_same, vget_modPort_same]
  · unfold helloRx
    dsimp only
    rw [vget_modPort_same, modPort_fabric, if_neg (not_not.mpr h), if_neg (not_not.mpr hinst), if_neg hup,
      vget_modPort_same, vget_modPort_same]

/-! ### The commands of a port -/

/-- A trained port has sent its HELLO (R199). -/
def helloSent (p : Fin 16) (s : State) : State :=
  s.modPort p fun x =>
    { x.send (.ctl (.hello (chipId s) s.fabric.installId ownCredits)) with st := .hello, lanes := 0xF }

section
variable (hr : s.rat.reopened = none)
include hr

theorem timeFrameTx_sends (hup : (vget s.ports p).st = .up) : ∃ t f, exec (.timeFrameTx p) s = .next t ∧
    vget t.ports p = { vget t.ports p with timeOut := some f, tseq := (vget s.ports p).tseq + 1 } ∧
    (vget t.ports p).sent.map (·.2) = some (.time f) ∧ f.tx = s.time.it ∧ f.echoTx = (vget s.ports p).lastPeerTx ∧
    f.echoRx = (vget s.ports p).lastPeerRx ∧ f.gmId = s.time.gmId ∧ f.tseq = (vget s.ports p).tseq ∧
    f.locked = decide (s.time.st = .locked) ∧ f.order = orderOut s ∧ t.mem = s.mem ∧ t.time = s.time := by
  obtain ⟨f, hport, hfields⟩ := timeFrameTx_port p s
  obtain ⟨htx, hetx, herx, hgm, hseq, hlocked, horder⟩ := hfields
  refine ⟨_, f, doneIf_pos (decide_eq_true hup) hr _, ?_⟩
  rw [settle_ports, settle_mem, settle_time, hport]
  exact ⟨rfl, rfl, htx, hetx, herx, hgm, hseq, hlocked, horder, rfl, rfl⟩

theorem timeFrameRx_runs (hup : (vget s.ports p).st = .up) (hok : frameOk b = true) (htype : frameType b = 2) :
    exec (.timeFrameRx p b fec) s =
      .next (settle (timeFrame p (frameHdr fec b) (timeOf (framePay b) (framePlen b)) s.time.it s)) :=
  doneIf_pos (by simp [hup, hok, htype]) hr _

theorem dataFrameRx_runs (dl : Bool) (hup : (vget s.ports p).st = .up) (h : frameOk b = false ∨ frameType b ≤ 1) :
    exec (.dataFrameRx p b fec dl) s = .next (settle (dataFrame p fec dl b s)) :=
  doneIf_pos (by simpa [hup] using h) hr _

theorem dataFrameRx_delivers {dl : Bool} {k : Packet} (hup : (vget s.ports p).st = .up) (hok : frameOk b = true)
    (htype : frameType b = 1) (hpacket : packetOf (framePay b) (framePlen b) = some k)
    (hseq : leAt b 2 2 = (vget s.ports p).rxSeq.toNat) (hchip : k.dchip = chipId s) (hknown : knownType k.ttype = true)
    (hroom : vcHeld (linkHdr p (frameHdr fec b) s) p (vcOf k dl) < vcFrames (vcOf k dl)) :
    ∃ t, exec (.dataFrameRx p b fec dl) s = .next t ∧
      (vget t.ports p).rx = (vget s.ports p).rx ++ [(some (vcOf k dl), k)] ∧
      (vget t.ports p).rxSeq = (vget s.ports p).rxSeq + 1 ∧ (vget t.ports p).nakSent = false ∧ t.mem = s.mem := by
  obtain ⟨u, hpumped, hframe⟩ := dataFrame_delivered hok htype hpacket hseq hchip hknown hroom
  obtain ⟨-, hrx, hrxSeq, -⟩ := (hpumped.port p).keeps
  refine ⟨_, dataFrameRx_runs hr dl hup (.inr (by omega)), ?_⟩
  rw [settle_ports, settle_mem, hframe, vget_modPort_same, vget_modPort_same]
  refine ⟨?_, ?_, rfl, hpumped.mem⟩
  · rw [← hrx]
  · rw [← hrxSeq]

theorem dataFrameRx_corrupt {dl : Bool} (hup : (vget s.ports p).st = .up) (hok : frameOk b = false)
    (hsent : (vget s.ports p).nakSent = false) (hnaks : (vget s.ports p).naks = []) :
    ∃ t, exec (.dataFrameRx p b fec dl) s = .next t ∧ (vget t.ports p).nakSent = true ∧
      (vget t.ports p).naks = [s.time.it] ∧ (vget t.ports p).rx = (vget s.ports p).rx ∧
      (vget t.ports p).sent.map (·.2) = some (.ctl (.nak (vget s.ports p).rxSeq)) ∧
      (vget t.ports p).rxSeq = (vget s.ports p).rxSeq ∧ t.mem = s.mem := by
  refine ⟨_, dataFrameRx_runs hr dl hup (.inl hok), ?_⟩
  rw [settle_ports, settle_mem, dataFrame_corrupt hok hsent hnaks, vget_modPort_same, vget_modPort_same]
  exact ⟨rfl, rfl, rfl, rfl, rfl, rfl⟩

theorem nak_runs (hup : (vget s.ports p).st = .up) (hctl : ctlFrame b 1 = true) :
    exec (.nak p b fec) s = .next (settle (nakRx p (frameHdr fec b) (BitVec.ofNat 16 (leAt b 14 2)) s)) :=
  doneIf_pos (by simp [hup, hctl]) hr _
theorem nak_counts (hup : (vget s.ports p).st = .up) (hctl : ctlFrame b 1 = true) (hnaks : (vget s.ports p).naks = []) :
    ∃ t, exec (.nak p b fec) s = .next t ∧ (vget t.ports p).naks = [s.time.it] ∧
      (vget t.ports p).rx = (vget s.ports p).rx ∧ (vget t.ports p).st = .up ∧ t.mem = s.mem := by
  obtain ⟨u, hpumped, hnak⟩ := nakRx_first (frameHdr fec b) (BitVec.ofNat 16 (leAt b 14 2)) hnaks
  obtain ⟨hst, hrx, -⟩ := (hpumped.port p).keeps
  refine ⟨_, nak_runs hr hup hctl, ?_⟩
  rw [settle_ports, settle_mem, hnak, vget_modPort_same]
  exact ⟨rfl, hrx, hst.trans hup, hpumped.mem⟩

/-- A HELLO is checked after the header of a frame on a link that is up (R199). -/
theorem hello_runs (hhears : (vget s.ports p).st.hears = true) (hctl : ctlFrame b 0 = true) :
    ∃ u, Pumped s u ∧ exec (.hello p b fec) s = .next (settle (helloRx p (leAt b 12 2) (BitVec.ofNat 64 (leAt b 16 8))
      (Vector.ofFn fun v : Fin 8 => BitVec.ofNat 16 (leAt b (24 + 2 * v) 2)) u)) := by
  have hex := doneIf_pos (c := (vget s.ports p).st.hears && ctlFrame b 0) (by simp [hhears, hctl]) hr fun s =>
    helloRx p (leAt b 12 2) (BitVec.ofNat 64 (leAt b 16 8))
      (Vector.ofFn fun v : Fin 8 => BitVec.ofNat 16 (leAt b (24 + 2 * v) 2))
      (if (vget s.ports p).st = .up then linkHdr p (frameHdr fec b) s else s)
  refine ⟨_, ?_, hex⟩
  split
  · exact pumped_linkHdr _ _ _
  · exact .refl s
theorem linkDown_runs (hst : (vget s.ports p).st = .up ∨ (vget s.ports p).st = .hello) :
    exec (.linkDown p) s = .next (settle (portDown p 1 s)) :=
  doneIf_pos (by simpa using hst) hr _
theorem ackStall_runs (hst : (vget s.ports p).st = .up) (hbuf : (vget s.ports p).replayBuf ≠ []) :
    exec (.ackStallTimeout p) s = .next (settle (portDown p 3 s)) :=
  doneIf_pos (by simp [hst, hbuf]) hr _
theorem linkRetrain_runs (hst : (vget s.ports p).st = .down) (hmode : s.island.mode = .full) :
    exec (.linkRetrain p) s = .next (settle { s with
      ports := vset s.ports p { vget s.ports p with st := .training, helloRx := false } }) :=
  doneIf_pos (by simp [hst, hmode]) hr _
theorem linkTrained_runs (hst : (vget s.ports p).st = .training) : ∃ t, exec (.linkTrained p) s = .next t ∧
    (vget t.ports p).lanes = 0xF ∧
    (vget t.ports p).sent.map (·.2) = some (.ctl (.hello (chipId s) s.fabric.installId ownCredits)) ∧
    (vget t.ports p).st = if (vget s.ports p).helloRx then .up else .hello := by
  have hex := doneIf_pos (decide_eq_true hst) hr fun s =>
    if (vget (helloSent p s).ports p).helloRx then portUp p (helloSent p s) else helloSent p s
  have hport : vget (helloSent p s).ports p = _ := vget_modPort_same _ s
  refine ⟨_, hex, ?_⟩
  rw [settle_ports]
  by_cases hrx : (vget s.ports p).helloRx = true
  · obtain ⟨rx, txq, hup⟩ := portUp_port p (helloSent p s)
    rw [if_pos (by rw [hport]; exact hrx), if_pos hrx, hup, hport]
    exact ⟨rfl, rfl, rfl⟩
  · rw [if_neg (by rw [hport]; exact hrx), if_neg hrx, hport]
    exact ⟨rfl, rfl, rfl⟩

/-- A HELLO that passes (R197, R199). -/
theorem hello_passes (hhears : (vget s.ports p).st.hears = true) (hctl : ctlFrame b 0 = true)
    (hchip : leAt b 12 2 = (vget s.ports p).peerPlan.toNat) (hinst : BitVec.ofNat 64 (leAt b 16 8) = s.fabric.installId) :
    ∃ t, exec (.hello p b fec) s = .next t ∧ (vget t.ports p).peer = (vget s.ports p).peerPlan ∧
      ((vget s.ports p).st ≠ .training → (vget t.ports p).st = .up) ∧
      ((vget s.ports p).st = .training → (vget t.ports p).st = .training ∧ (vget t.ports p).helloRx = true) ∧
      ((vget s.ports p).st ≠ .up → ∀ v : Fin 8,
        vget (vget t.ports p).credits v = BitVec.ofNat 16 (leAt b (24 + 2 * v) 2)) ∧
      ((vget s.ports p).st = .hello → (vget t.ports p).txSeq = 0 ∧ (vget t.ports p).rxSeq = 0) := by
  obtain ⟨u, hpumped, hex⟩ := hello_runs (fec := fec) hr hhears hctl
  obtain ⟨hst, -, -, -, -, hplan⟩ := (hpumped.port p).keeps
  have hpeer : BitVec.ofNat 12 (leAt b 12 2) = (vget s.ports p).peerPlan := by
    rw [hchip, ofNat_toNat_self]
  have hcredits : ∀ v : Fin 8, vget (Vector.ofFn fun v : Fin 8 => BitVec.ofNat 16 (leAt b (24 + 2 * v) 2)) v =
      BitVec.ofNat 16 (leAt b (24 + 2 * v) 2) := fun v => Vector.getElem_ofFn _
  rw [← hplan] at hchip
  rw [← hpumped.fabric] at hinst
  refine ⟨_, hex, ?_⟩
  rw [settle_ports]
  by_cases hup : (vget s.ports p).st = .up
  · rw [helloRx_up hchip hinst (hst.trans hup), vget_modPort_same]
    exact ⟨hpeer, fun _ => hst.trans hup, fun h => by simp [hup] at h, fun h => absurd hup h, fun h => by simp [hup] at h⟩
  · obtain ⟨v, hv, hrun⟩ := helloRx_opening (c := Vector.ofFn fun v : Fin 8 => BitVec.ofNat 16 (leAt b (24 + 2 * v) 2))
      hchip hinst (by rw [hst]; exact hup)
    rw [hrun]
    by_cases hhello : (vget s.ports p).st = .hello
    · obtain ⟨rx, txq, hport⟩ := portUp_port p v
      rw [if_pos (hst.trans hhello), hport, hv]
      exact ⟨hpeer, fun _ => rfl, fun h => by simp [hhello] at h, fun _ => hcredits, fun _ => ⟨rfl, rfl⟩⟩
    · have htraining : (vget s.ports p).st = .training := by
        cases hcase : (vget s.ports p).st <;> simp_all [PortState.hears]
      rw [if_neg (by rw [hst]; exact hhello), hv]
      exact ⟨hpeer, fun h => absurd htraining h, fun _ => ⟨hst.trans htraining, rfl⟩, fun _ => hcredits,
        fun h => absurd h hhello⟩
end

/-- Settles O41: each command's effect is its port's function, read off at the port. -/
theorem fabricLinks : Obligations.FabricLinks := by
  unfold Obligations.FabricLinks
  refine ⟨outBytes_header, outBytes_packet, ?_⟩
  intro s p b fec hr
  dsimp only
  refine ⟨timeFrameTx_sends hr, ?_, ?_, ?_, ?_, ?_, ?_, ?_, linkRetrain_runs hr, linkTrained_runs hr⟩
  · intro hup hok htype
    refine ⟨_, timeFrameRx_runs hr hup hok htype, ?_⟩
    rw [settle_ports]
    obtain ⟨htx, hstratum, hgm, hlocked, hrx⟩ := timeFrame_fields (p := p) (frameHdr fec b)
      (timeOf (framePay b) (framePlen b)) s.time.it s
    exact ⟨htx, hstratum, hgm, hlocked, hrx, timeFrame_noEcho _ _ _, fun d hecho hd => timeFrame_echo _ _ _ hecho hd⟩
  · intro h
    refine doneIf_neg ?_ s _
    rcases h with hup | hok | htype
    · simp [hup]
    · simp [hok]
    · simp [htype]
  · exact fun dl hup => ⟨dataFrameRx_runs hr dl hup, fun _ => dataFrameRx_delivers hr hup, dataFrameRx_corrupt hr hup⟩
  · exact fun hup hctl => ⟨nak_runs hr hup hctl, nak_counts hr hup hctl⟩
  · intro hhears hctl
    obtain ⟨u, hpumped, hex⟩ := hello_runs (fec := fec) hr hhears hctl
    obtain ⟨-, -, -, -, hdowns, hplan⟩ := (hpumped.port p).keeps
    have hnamed : ∀ n : BitVec 12, (vget (u.modPort p fun x => { x with peer := n }).ports p).downs =
        (vget s.ports p).downs := by
      intro n
      rw [vget_modPort_same]
      exact hdowns
    refine ⟨fun hchip => ?_, fun hchip hinst => ?_, hello_passes hr hhears hctl⟩
    · rw [helloRx_chip (by rw [hplan]; exact hchip)] at hex
      exact takenDown (by decide) hex (hnamed _)
    · rw [helloRx_installation (by rw [hplan]; exact hchip) (by rw [hpumped.fabric]; exact hinst)] at hex
      exact takenDown (by decide) hex (hnamed _)
  · exact fun hst => takenDown (by decide) (linkDown_runs hr hst) rfl
  · exact fun hst hbuf => takenDown (by decide) (ackStall_runs hr hst hbuf) rfl

end Sys2Proof.Machine
end
